-- ==== Sys2Proof/Word.lean ====
section
/-! DEFINITION. The word types of the TZ8120: bytes, register words, byte strings, and sparse data by key. -/

namespace Sys2Proof

/-- A byte of memory or of a message. -/
abbrev Byte := BitVec 8

/-- A register word (R8). -/
abbrev Word := BitVec 32

/-- A byte string, the first byte first. -/
abbrev Bytes := List Byte

/-- Sparse data by key: keys strictly rising, no entry equal to what an unlisted key reads as. -/
abbrev Map (α : Type) := List (Nat × α)

/-- A register field: device address of its register, lowest bit, width. -/
structure Fld where
  addr  : Nat
  lo    : Nat
  width : Nat
  deriving DecidableEq, Repr

end Sys2Proof
end

