-- ==== Sys2Proof/Syntax.lean ====
section
/-! DEFINITION. The commands of the block: one constructor for each row of the table of commands, with the
operands that the row's rule gives it. -/

namespace Sys2Proof

/-- The header of an RHP request, as far as it is not fixed by the message type (R422). -/
structure Hdr where
  tag      : BitVec 16
  ordered  : Bool := false
  virt     : Bool := false
  addr     : BitVec 40 := 0
  length   : Nat := 0
  /-- every reserved bit of the header and every zero byte of the payload is zero -/
  zerosOk  : Bool := true
  /-- the OUT endpoint that the message came on -/
  endpoint : Nat := 1
  deriving DecidableEq, Repr

/-- What a video source declares of its stream, by the VSC SDP or else the MSA: the fields of `INT_FMT`, `INT_FMT2`, `INT_TIMING` and
`INT_FPERIOD` (R305, R315), with the pixel width the link carries; `dscBpp`, `dscSlices`: bits per pixel in sixteenths and slices per
line of a DSC stream, 0 of one that is not compressed. -/
structure VideoDesc where
  width       : Nat
  height      : Nat
  enc         : Nat
  bpc         : Nat
  range       : Nat
  colorimetry : Nat
  htotal      : Nat
  vtotal      : Nat
  fperiod     : Nat
  dscBpp      : Nat
  dscSlices   : Nat
  deriving DecidableEq, Repr

/-- Where a read meets an error (Table Fault-1): the Trunk, the store of the reading Branch, or the reading unit's own memory: the
program memory of a Branch, the line buffers of Canopy. -/
inductive ErrPlace where
  | trunk
  | store
  | buffer
  deriving DecidableEq, Repr

/-- A word that a read finds in error (R87, R204, R475). In the Trunk window and in a Branch store, 64-bit word `addr`: a single-bit error is
corrected; of an uncorrectable one `raw` is what the word reads as. In a buffer, the 32-bit word `addr` fails its parity. -/
structure MemErr where
  place : ErrPlace
  addr  : Nat
  bad   : Bool
  raw   : BitVec 64
  deriving DecidableEq, Repr

/-- A command: one row of the table. -/
inductive Instr where
  -- register access
  | registerWrite (addr : BitVec 40) (value : Word) (hwSet : Word)
  | rcRegisterRead (addr : BitVec 40) (hwInc : Nat)
  | lowWordRead (addr : BitVec 40)
  | genProgressARead (k : Nat)
  | intHdrIfnRead (port : Fin 2)
  | camCxLastCfnRead (ctx : Fin 8)
  -- reset and start-up
  | resetAssert
  | resetRelease
  | pllLock
  | firmwareStarted
  | trunkSelfTestDone (failed : List (Fin 68))
  | lp6TrainingDone (rate density : Nat) (failed : List (Fin 8))
  | usbEnumeration (speed : Fin 4)
  | usbBusReset (speed : Fin 4) (configured : Bool)
  -- host protocol
  | ep0RegisterRead (addr : BitVec 32)
  | ep0RegisterWrite (addr value : BitVec 32)
  | regRead (h : Hdr) (count : Nat)
  | regWrite (h : Hdr) (words : List Word)
  | memRead (h : Hdr) (bytes : Nat)
  | memWrite (h : Hdr) (bytes : Nat)
  | data (h : Hdr) (last : Bool) (payload : Bytes)
  | completionTaken
  | eventMessageSend
  | lengthTimeout (tag : BitVec 16)
  | ringAdd (h : Hdr) (ring : BitVec 16) (amount : Word)
  | ringSet (h : Hdr) (ring : BitVec 16) (value : Word)
  | ringWait (h : Hdr) (ring : BitVec 16) (target : Word) (timeoutMs : Nat)
  | ringWaitMet (tag : BitVec 16)
  | ringWaitTimeout (tag : BitVec 16)
  | ringAlloc (h : Hdr)
  | ringFree (h : Hdr) (ring : BitVec 16)
  | ringAddRegisterWrite (value : Word)
  | ringSetRegisterWrite (value : Word)
  | metadata (h : Hdr) (ifn : Word) (port tensor : Nat) (ring : BitVec 16) (items : Bytes)
  -- Graft
  | graftLoad (h : Hdr) (len : Nat)
  | graftApply (h : Hdr) (k : Word) (flags : Byte)
  | graftPreparationDone
  | graftAbort (h : Hdr)
  | graftUnload (h : Hdr) (k : Word) (flags : Byte)
  | graftReleaseDeadline
  | readmit (h : Hdr) (pipe : Nat)
  | seedStage (h : Hdr) (len : Nat)
  | seedDrop (h : Hdr) (hash : Bytes)
  | histInvalidate (h : Hdr) (tensor : Nat)
  | stemHistInvWrite (value : Word)
  -- layers and objects
  | layerFlip (h : Hdr) (mask : Byte) (ring : BitVec 16) (value : Word) (timeout : Byte)
  | layerWrite (h : Hdr) (layer buffer : Nat) (offset len : Nat)
  | wbStart (h : Hdr) (point fmt count : Nat)
  | wbStop (h : Hdr)
  | barkCommand (h : Hdr) (len : Nat)
  | ispParams (h : Hdr) (ctx offset len : Nat)
  | attest (h : Hdr) (nonce : Bytes)
  | certRead (h : Hdr) (index : Nat)
  | fwUpdate (h : Hdr) (len : Nat)
  | intControl (h : Hdr) (len : Nat)
  | provision (h : Hdr) (op slot : Nat) (bytes : Bytes)
  | restore (h : Hdr) (op slot len : Nat)
  -- raster
  | outputFrameStart
  | cadenceInputTimeout
  | understoryLineProduce (parity : List Word)
  | tileRowJudge (k : Nat)
  | segmentAck (i : Nat)
  | canopyLineCompose (errs : List MemErr)
  | lineScanned
  | lineMatch
  | startOfBlanking
  | flipGroupTimeout (tag : Option (BitVec 16))
  | flattenBuildStart (group : Fin 5)
  | flattenBuilt (group : Fin 5)
  | dsoCommitWrite (value : Word)
  | panelReplayRequest
  | panelReplayExitRequest
  | sinkReplayExitRequest
  | dsoLinkChange (port : Fin 2) (up : Bool)
  | dsoLinkTraining (port : Fin 2) (rate lanes : Nat) (hpd fec replayCap : Bool) (failed : Option (Fin 4))
  -- intake
  | intakeLinkTraining (port : Fin 2) (rate lanes : Nat) (fec dsc : Bool) (failed : Option (Fin 4))
  | hdcpAuthentication (port : Fin 2) (state : Fin 4) (type1 : Bool)
  | intakeFrameStart (port : Fin 2) (video : VideoDesc)
  | sdpReceived (port : Fin 2) (packet : Bytes)
  | intakeLineReceived (port : Fin 2) (samples : List Nat) (encrypted : Bool)
  | intakeLineWritten (port : Fin 2)
  | intakeFrameEnd (port : Fin 2)
  | sourceChange (port : Fin 2) (classes : Fin 16)
  | splitPairTimeout (port : Fin 2)
  | uiFrameComplete
  -- scheduling
  | taskReady (task : Nat) (pfn : Word) (parity : List Word)
  | tileBoundary (branch : Fin 16)
  | sliceQuantumExpire (branch : Fin 16)
  | sliceHandover (branch : Fin 16)
  | taskComplete (task : Nat) (pfn : Word)
  | taskLimitTimeout (task : Nat) (pfn : Word)
  -- tile instructions
  | tload (branch : Fin 16) (errs : List MemErr)
  | pageRelease (task : Nat) (pfn : Word) (vpn : Nat)
  | tmac (branch : Fin 16) (errs : List MemErr)
  | twino (branch : Fin 16) (errs : List MemErr)
  | tdiag (branch : Fin 16) (errs : List MemErr)
  | tileDrain (branch : Fin 16) (badEntries badSpare : List Nat) (mismatch : Bool)
  | auditArm (branch : Fin 16)
  | tpool (branch : Fin 16) (errs : List MemErr)
  | tact (branch : Fin 16) (errs : List MemErr)
  | treq (branch : Fin 16) (errs : List MemErr)
  | tstat (branch : Fin 16) (errs : List MemErr)
  | maximumTreeDone (ostep cell : Nat) (pfn : Word)
  | tconv (branch : Fin 16) (errs : List MemErr)
  | twarp (branch : Fin 16) (errs : List MemErr)
  | thalo (branch : Fin 16) (errs : List MemErr)
  | haloLineLanded (branch : Fin 16)
  | tmcast (branch : Fin 16)
  | multicastFetch (tree : Fin 64) (errs : List MemErr)
  | tbox (branch : Fin 16) (errs : List MemErr)
  | tnms (branch : Fin 16) (errs : List MemErr)
  | tstore (branch : Fin 16) (errs : List MemErr)
  | tsig (branch : Fin 16)
  | tsigLand (branch : Fin 16)
  | twait (branch : Fin 16)
  | twaitMet (branch : Fin 16)
  -- Trunk
  | evictionWriteDone (space : Fin 2) (vpn : Nat)
  | pageFetchDone (space : Fin 2) (vpn : Nat)
  | trunkStallTimeout (task : Nat) (pfn : Word)
  | stampTick
  | trkBooksSnap (value : Word)
  | trkPageLookup (value : Word)
  | scrubPassStart
  | scrubLine (correctable uncorrectable : Nat)
  | bankPageCopied (uncorrectable : Nat)
  -- LPDDR6
  | lp6ReadDone (offset : Nat) (outcome : Fin 4) (linkError : Bool)
  | lp6Refresh (channel : Fin 8) (tempClass : Fin 16)
  | lp6GranuleCopied (words : List (Fin 256 × Fin 4))
  | lp6AreaWrite (value : Word)
  -- cameras
  | camFrameStart (port : Fin 2)
  | camLineLanded (port : Fin 2) (samples : List Nat) (checkWord : BitVec 16)
  | camFrameEnd (port : Fin 2)
  | camPclkMeasure (port : Fin 2) (khz : Nat)
  | camCtlWrite (port : Fin 2) (value : Word)
  | ispFrameEnter
  | ispLineProcessed (parity : List Word)
  | ispFrameComplete
  | exposureGo (ctx : Fin 8) (value : Word)
  | i2cExposureDone (bus : Fin 2)
  | camI2cNak (bus : Fin 2) (entry byte : Nat)
  -- Grove
  | fsyncOutPulse
  | fsyncInEdge
  | fsyncTimeout
  | timeCodeReceived (code : Bytes)
  | groveTupleChanged
  -- power, pins
  | powerWindow (p : Nat) (tj : Int) (symbolErrors : BitVec 16)
  | clkCapWrite (value : Word)
  | jtagExtest (entered : Bool)
  -- faults
  | bucketLeak (bucket : Nat)
  | retirementStart (kind : Fin 3)
  | flitReceived (link : Fin 64) (seq : Byte) (crc : BitVec 16) (payload : Bytes)
  | flitAckTimeout (link : Fin 64)
  | flitResend (link : Fin 64)
  | fence (unit : Byte)
  | unfence (unit : Byte)
  | retire (unit : Byte) (sub : Fin 4) (twig : Bool)
  | windRuleArm (rule : Fin 8) (value : Word)
  -- ends of transfers
  | ep2InDataTaken (errs : List MemErr)
  | attestReportSigned
  | writebackLineWritten
  | testEnChange (level : Bool)
  deriving DecidableEq, Repr

end Sys2Proof
end

