-- ==== Sys2Proof/Config.lean ====
section
/-! DEFINITION. What the spec leaves open as a value: constants with no body, so that no proof can see
what they are. Log entry 5. -/

namespace Sys2Proof.Config

/-- A free value, one for each count of the model's own counter. -/
opaque freeValue : Nat → Nat

/-- One colour value of an Understory output pixel, from the 48 taps it reads and the two phases: the
coefficients stand in the ROM that `UND_REV` names (R44, R549), which the spec does not print. -/
opaque undFilter : List Nat → Nat → Nat → Nat

/-- The signature bytes that the identity key makes over a report (R470), one for each count of the model's own counter: the
signing unit's nonce is not given. -/
opaque ecdsaSign : List (BitVec 8) → Nat → List (BitVec 8)

end Sys2Proof.Config
end

