-- ==== Sys2Proof/Machine/Map.lean ====
section
/-! DEFINITION. Sparse data by key: memory, register words, per-unit records. One canonical form: keys strictly
rising, and no entry equal to what an unlisted key reads as. -/

namespace Sys2Proof

variable {α : Type}

/-- What key `k` holds; `dflt` when it is not listed. -/
def Map.get (dflt : α) : Map α → Nat → α
  | [], _ => dflt
  | e :: m, k => if e.1 = k then e.2 else Map.get dflt m k

/-- `m` without key `k`. -/
def Map.erase (m : Map α) (k : Nat) : Map α := m.filter (fun e => decide (e.1 ≠ k))

/-- `(k, v)` placed before the first greater key. -/
def Map.insert : Map α → Nat → α → Map α
  | [], k, v => [(k, v)]
  | e :: m, k, v => if k < e.1 then (k, v) :: e :: m else e :: Map.insert m k v

/-- `m` with key `k` holding `v`; the default value is held by listing nothing. -/
def Map.put [DecidableEq α] (dflt : α) (m : Map α) (k : Nat) (v : α) : Map α :=
  if v = dflt then m.erase k else (m.erase k).insert k v

/-- The canonical form: keys strictly rising, no entry equal to the default. -/
abbrev Map.wf (dflt : α) (m : Map α) : Prop :=
  m.Pairwise (fun a b => a.1 < b.1) ∧ ∀ e ∈ m, e.2 ≠ dflt

/-- The `n` values from key `k` on. -/
def Map.getN (dflt : α) (m : Map α) (k n : Nat) : List α :=
  (List.range n).map (fun i => m.get dflt (k + i))

/-- The values `vs` written from key `k` on, in ascending order. -/
def Map.putN [DecidableEq α] (dflt : α) : Map α → Nat → List α → Map α
  | m, _, [] => m
  | m, k, v :: vs => Map.putN dflt (m.put dflt k v) (k + 1) vs

/-- `m` with the keys from `lo` up to `hi` replaced by the entries `l`, which lie there with rising keys. -/
def Map.setRange [DecidableEq α] (dflt : α) (m : Map α) (lo hi : Nat) (l : List (Nat × α)) : Map α :=
  m.filter (fun e => decide (e.1 < lo)) ++ l.filter (fun e => decide (e.2 ≠ dflt)) ++ m.filter (fun e => decide (hi ≤ e.1))

/-- The entries of `m` from key `lo` up to `hi`. -/
def Map.part (m : Map α) (lo hi : Nat) : Map α := m.filter (fun e => decide (lo ≤ e.1 ∧ e.1 < hi))

end Sys2Proof
end

