-- ==== Sys2Proof/Machine/Bits.lean ====
section
/-! DEFINITION. Byte order, serial-number comparison, checks and rounding that several chapters share. -/

namespace Sys2Proof.Machine

/-- `n` bytes of `v`, least significant first (R7). -/
def le : Nat → Nat → Bytes
  | 0, _ => []
  | n + 1, v => BitVec.ofNat 8 v :: le n (v / 256)

/-- The number whose little-endian bytes these are (R7). -/
def ofLe : Bytes → Nat
  | [] => 0
  | b :: bs => b.toNat + 256 * ofLe bs

/-- The number whose big-endian bytes these are. -/
def ofBe (bs : Bytes) : Nat := ofLe bs.reverse

/-- `n` bytes of `v`, most significant first. -/
def be (n v : Nat) : Bytes := (le n v).reverse

/-- Byte `i` of a string; 0 past its end. -/
def u8 (bs : Bytes) (i : Nat) : Nat := (bs.getD i 0).toNat
/-- Little-endian fields at byte `i`. -/
def u16 (bs : Bytes) (i : Nat) : Nat := u8 bs i + 256 * u8 bs (i + 1)
def u24 (bs : Bytes) (i : Nat) : Nat := u16 bs i + 65536 * u8 bs (i + 2)
def u32 (bs : Bytes) (i : Nat) : Nat := u16 bs i + 65536 * u16 bs (i + 2)
/-- Bits `lo` to `lo + w - 1` of a number. -/
def bits (v lo w : Nat) : Nat := v / 2 ^ lo % 2 ^ w
/-- `n` bytes from byte `i`. -/
def slice (bs : Bytes) (i n : Nat) : Bytes := (bs.drop i).take n
/-- Every byte is zero. -/
def allZero (bs : Bytes) : Bool := bs.all (fun b => b == 0)

/-- `v` of `w` bits read as two's complement. -/
def toS (w v : Nat) : Int := if v % 2 ^ w < 2 ^ (w - 1) then (v % 2 ^ w : Nat) else (v % 2 ^ w : Nat) - (2 ^ w : Nat)
/-- Two's complement of `v` in `w` bits. -/
def ofS (w : Nat) (v : Int) : Nat := (v % (2 ^ w : Nat)).toNat

/-- R31: value `a` is later than value `b`. -/
def later (a b : Nat) : Bool := let x := (a % 2 ^ 32 + 2 ^ 32 - b % 2 ^ 32) % 2 ^ 32; 1 ≤ x && x ≤ 0x7FFFFFFF
/-- R239: WAIT_GE `t` is satisfied at value `v`. -/
def waitGe (v t : Nat) : Bool := (v % 2 ^ 32 + 2 ^ 32 - t % 2 ^ 32) % 2 ^ 32 < 2 ^ 31
/-- Addition of 32-bit counters. -/
def add32 (a b : Nat) : Nat := (a + b) % 2 ^ 32
def sub32 (a b : Nat) : Nat := (a % 2 ^ 32 + 2 ^ 32 - b % 2 ^ 32) % 2 ^ 32

/-- Smallest integer not below `a / b`. -/
def cdiv (a b : Nat) : Nat := (a + b - 1) / b
/-- `a` held between `lo` and `hi`. -/
def clampN (lo hi a : Nat) : Nat := max lo (min hi a)
def clampI (lo hi a : Int) : Int := max lo (min hi a)

/-- `a / b` rounded to the nearest integer, ties to even, for `b > 0`. -/
def rheDiv (a : Int) (b : Int) : Int :=
  let q := a.fdiv b
  let r := a - q * b
  if 2 * r < b then q else if 2 * r > b then q + 1 else if q % 2 = 0 then q else q + 1

/-- `round_half_even(a, n)`: `a / 2^n`, ties to even (R96). -/
def rhe (a : Int) (n : Nat) : Int := rheDiv a (2 ^ n : Nat)

/-- One byte into the reflected CRC-32 register of R359. -/
def crc32Byte (c : Nat) (b : Nat) : Nat :=
  (List.range 8).foldl (fun x _ => if x % 2 = 1 then (x / 2) ^^^ 0xEDB88320 else x / 2) (c ^^^ b)

/-- CRC-32 of R359. -/
def crc32 (bs : Bytes) : Nat := (bs.foldl (fun c b => crc32Byte c b.toNat) 0xFFFFFFFF) ^^^ 0xFFFFFFFF

/-- One byte, most significant bit first, into the CRC-16/CCITT of R368. -/
def crc16Byte (c : Nat) (b : Nat) : Nat :=
  (List.range 8).foldl (fun x _ => if x / 0x8000 % 2 = 1 then (x * 2 ^^^ 0x1021) % 65536 else x * 2 % 65536) (c ^^^ (b * 256))

/-- CRC-16 of R368: initial value 0xFFFF, no reflection, no final XOR. -/
def crc16 (bs : Bytes) : Nat := bs.foldl (fun c b => crc16Byte c b.toNat) 0xFFFF

/-- Bits set in the low `n` bits. -/
def popcount (n v : Nat) : Nat := ((List.range n).filter (fun i => v.testBit i)).length

/-- The lowest of `0 .. n - 1` that satisfies `p`. -/
def lowest (n : Nat) (p : Nat → Bool) : Option Nat := (List.range n).find? p

/-- Set or clear bit `i`. -/
def setBit (v i : Nat) (b : Bool) : Nat :=
  if v.testBit i = b then v else if b then v + 2 ^ i else v - 2 ^ i

end Sys2Proof.Machine
end

