-- ==== Sys2Proof/Machine/State.lean ====
section
/-! DEFINITION. The state of the engine as plain data, its value after reset, and the ways a step can stop. -/

namespace Sys2Proof.Machine

/-- One event record (R28), before it is laid out as 16 bytes. -/
structure EventRec where
  code : Nat
  unit : Nat
  sev  : Nat
  arg  : Nat
  time : Nat
  deriving DecidableEq, Repr

/-- What the USB device says of itself as it enumerates (R419). -/
structure UsbDesc where
  vendor  : Nat
  product : Nat
  bcd     : Nat
  /-- class, subclass and protocol of the one interface -/
  iface   : Nat × Nat × Nat
  /-- iSerialNumber: 24 characters -/
  serial  : Bytes
  deriving DecidableEq, Repr

/-- An error that a Twig or a Branch unit reported through its sequencer: bucket, kind and address (R20, Table Fault-2). -/
structure ErrReport where
  bucket : Nat
  kind   : Nat
  addr   : Nat
  time   : Nat
  deriving DecidableEq, Repr

/-- A COMPLETION message waiting on EP1 IN (R424, R428). -/
structure Completion where
  tag     : Nat
  addr    : Nat
  status  : Nat
  payload : Bytes
  deriving DecidableEq, Repr

/-- A tag in flight (R424), with the count of USB resets above its 16 bits. `kind`: 0 for the types that execute one after another, 1 for COMMAND, 2 for RING_WAIT. -/
structure TagRec where
  tag     : Nat
  kind    : Nat
  addr    : Nat
  /-- the request has executed or its completion is queued -/
  done    : Bool
  /-- ORDERED or an earlier request holds it back: not started (R425, R426) -/
  waiting : Bool
  deriving DecidableEq, Repr

/-- Where the bytes of an EP2 OUT transfer go. -/
inductive XferKind where
  | memWrite (addr : Nat) (virt : Bool)
  | graft
  | seed
  | layer (layer buffer offset : Nat)
  | bark
  | isp (ctx offset : Nat)
  | firmware
  | intControl
  | restore (op slot : Nat)
  deriving DecidableEq, Repr

/-- An EP2 OUT transfer (R431): its bytes so far, and the time it was announced (R286). -/
structure Xfer where
  tag  : Nat
  kind : XferKind
  len  : Nat
  got  : Nat
  buf  : Bytes
  t0   : Nat
  /-- its order is lost: no further byte is taken (R431) -/
  lost : Bool
  deriving DecidableEq, Repr

/-- A MEM_READ served on EP2 IN (R428, R431): bytes already taken. -/
structure ReadXfer where
  tag  : Nat
  addr : Nat
  virt : Bool
  len  : Nat
  pos  : Nat
  deriving DecidableEq, Repr

/-- A host wait on a Ring (R432). -/
structure HostWait where
  tag      : Nat
  ring     : Nat
  target   : Nat
  deadline : Option Nat
  deriving DecidableEq, Repr

/-- The USB device and RHP (chapter 16). -/
structure Usb where
  tags     : List TagRec
  ep1in    : List Completion
  reads    : List ReadXfer
  xfers    : List Xfer
  waits    : List HostWait
  /-- requests accepted and not started, oldest first (R425, R426) -/
  deferred : List Instr
  /-- the deferred request that the last tick started -/
  starting : Option Nat
  /-- USB resets since reset: a tag of an earlier count is forgotten (R438) -/
  gen      : Nat
  evq      : List EventRec
  /-- a record was dropped and EVENTS_LOST is owed (R436) -/
  evDrop   : Bool
  /-- records dropped since the last EVENTS_LOST -/
  evSince  : Nat
  /-- the last message taken from EP1 IN, from EP2 IN and sent on EP3 IN, byte for byte (R422) -/
  ep1      : Bytes
  ep2      : Bytes
  ep3      : Bytes
  /-- descriptors that the host has read; none while detached -/
  desc     : Option UsbDesc
  /-- the last answer on EP0: none is a STALL -/
  ep0      : Option Word
  /-- the word the last register read returned -/
  lastRead : Word
  deriving DecidableEq, Repr

/-- Rings (R239 to R243, R550, R432). -/
structure Rings where
  val    : Map Word
  /-- HW Rings: up to 16 latest (key frame, base), newest first -/
  base   : Map (List (Nat × Nat))
  /-- FRAME Rings: (frame, base), newest first -/
  fbase  : Map (List (Nat × Nat))
  /-- Ring numbers the host holds -/
  held   : List Nat
  deriving DecidableEq, Repr

/-- A Graft in a space: the image bytes, its measurement (R270), its first output frame K, and GRV_CTL.INDEX as phase 4 of its
load took it (R406). -/
structure Graft where
  img  : Bytes
  meas : Bytes
  k    : Nat
  idx  : Nat
  /-- which of the two image areas of LPDDR6 holds the image (R442) -/
  area : Nat
  deriving DecidableEq, Repr

/-- A pending GRAFT_APPLY or GRAFT_UNLOAD (R290, R295). -/
structure PendingApply where
  tag      : Nat
  k        : Nat
  earliest : Bool
  unload   : Bool
  ready    : Bool
  deriving DecidableEq, Repr

/-- A staged seed pack (R280, R282): its hash, where its payload lies in LPDDR6, its key slot and security version. -/
structure SeedPack where
  hash : Bytes
  addr : Nat
  len  : Nat
  slot : Nat
  svn  : Nat
  /-- its version or its key no longer stands: dropped with the Graft that references it (R467) -/
  old  : Bool
  deriving DecidableEq, Repr

/-- A READMIT that waits for the next blanking (R59). -/
structure Readmit where
  tag   : Nat
  pipe  : Nat
  deriving DecidableEq, Repr

/-- The Root controller (chapters 10 and 18). -/
structure Root where
  space0   : Option Graft
  space1   : Option Graft
  loadTag  : Option Nat
  apply    : Option PendingApply
  packs    : List SeedPack
  readmits : List Readmit
  /-- the outgoing Graft's release instant has an output frame count of its own: frames since A -/
  outAge   : Nat
  /-- attestation in progress: tag and the report bytes 335:0 (R470) -/
  attest   : Option (Nat × Bytes)
  /-- FW_UPDATE that completed OK in recovery: the engine resets once its completion is taken (R463) -/
  fwTag    : Option Nat
  /-- output frame whose flip instant declares the layers anew after an apply or unload (R320, R331) -/
  flipK    : Option Nat
  /-- Strict pipelines of the outgoing Graft, as they stood at A (R293), mask -/
  outStrict : Nat
  /-- the output frame buffer carried over at the last apply (R292) -/
  fbKept    : Bool
  /-- scrub, self-test and copy totals (p, t) of each progress pair, before scaling (R542) -/
  prog     : Map (Nat × Nat)
  /-- the last event given to the Root controller -/
  lastEv   : Option EventRec
  deriving DecidableEq, Repr

/-- One task in one open frame (R249, R254 to R256). `state`: 0 Waiting, 1 Ready, 2 Running, 3 Complete. -/
structure TaskSt where
  task   : Nat
  state  : Nat
  /-- mask of Branches that have finished -/
  done   : Nat
  /-- word 0 of the status record above the status code -/
  flags  : Nat
  sat    : Nat
  under  : Nat
  elim   : Nat
  bad    : Nat
  slices : Nat
  stall  : Nat
  /-- DEV_TIME of the first issue -/
  start  : Nat
  /-- Ring values held at frame opening for waits on HW Rings with no base (R244) -/
  bases  : List (Nat × Nat)
  /-- TSIG amounts landed: key Branch × 65,536 + Ring -/
  sig    : Map Nat
  /-- cells with OVER above SAT_HI, and cells measured cold (R142) -/
  ovr    : Nat
  cold   : Nat
  /-- the staging request has been issued (R79) -/
  asked  : Bool
  /-- pages that the task released in the frame (R225) -/
  freed  : List Nat
  /-- partials of global TPOOLs: section, index and iteration of the instruction, logical Branch, one value per channel (R185) -/
  glob   : List ((Nat × Nat × Nat) × Nat × List Int)
  deriving DecidableEq, Repr

/-- One open frame of a pipeline. -/
structure Frame where
  pipe  : Nat
  pfn   : Nat
  time  : Nat
  /-- the frame belongs to the outgoing Graft -/
  out   : Bool
  tasks : List TaskSt
  deriving DecidableEq, Repr

/-- An invalidation of history that waits for the writer's frame to close (R261): the Graft's tensor, and the frame; none takes effect
at once. -/
structure HistReq where
  out    : Bool
  tensor : Nat
  cause  : Nat
  pfn    : Option Nat
  deriving DecidableEq, Repr

/-- The Stems (chapter 9). -/
structure Stems where
  frames  : List Frame
  /-- (tensor, cause) invalidations waiting for the writer's frame to close (R261) -/
  histReq : List HistReq
  /-- cadence mapping of the latest output frames opened, newest first: output frame, input frame (R276) -/
  cad     : List (Nat × Nat)
  /-- the mapping restarts after a source change: the cut frame, and the first frame that began since (R312) -/
  cadRe   : Option (Nat × Option Nat)
  /-- frames pipelines that shed, a span already reported -/
  shedRep : Nat
  /-- last status words: key task × 2 + parity, (status word 0, pfn) of records written (R257) -/
  recs    : Map (Nat × Nat)
  /-- last event each Stem received -/
  ev      : Map (Option EventRec)
  /-- last error report each Stem received from a Branch sequencer (R20) -/
  err     : Map (Option ErrReport)
  /-- run-time shape of a frame slot: key tensor × 16 + slot, (frame, width, height) (R547) -/
  shp     : Map (Nat × Nat × Nat)
  /-- input frames whose tasks ran over a smaller shape or were clamped: pipeline of the writer of the output frame buffer, frame, its
  output extent (R236), and whether rows are shown from the Understory (R237); newest first -/
  marks   : List (Nat × Nat × Option (Nat × Nat) × Bool)
  /-- first frame that a pipeline opened under its Graft: pipeline and whether it is the outgoing one's, frame (R413) -/
  first   : List ((Nat × Bool) × Nat)
  deriving DecidableEq, Repr

/-- One Trunk map entry (R67). `move`: 0 none, 1 eviction write in flight, 2 fetch in flight. -/
structure Page where
  lpn     : Nat
  bpn     : Nat
  loc     : Nat
  cls     : Nat
  dirty   : Bool
  hasBack : Bool
  staged  : Bool
  /-- fetched by pre-staging and not read since (R80) -/
  unread  : Bool
  readers : Nat
  stamp   : Nat
  mask    : Nat
  move    : Nat
  deriving DecidableEq, Repr

/-- The page books (R85). -/
structure Books where
  free    : Nat
  alloc   : Nat
  transit : Nat
  retired : Nat
  deriving DecidableEq, Repr

/-- A line ring's credits (R74): slots, producer credits, lines in write, and the written lines that some consumer has
not finished, by their count on the ring. `fin`: count up to which each consumer has finished; none when it has finished no line. -/
structure LineRing where
  slots   : Nat
  prod    : Nat
  inWrite : Nat
  open_   : List Nat
  fin     : Map (Option Nat)
  deriving DecidableEq, Repr

/-- The stalls of one requester (R78): its unit, the task and frame it works for, the page it waits for and since when, and the
time of those that have ended. `groups`: bank groups of its demand. -/
structure Stall where
  unit   : Nat
  task   : Nat
  pfn    : Nat
  sp     : Nat
  groups : Nat
  since  : Option (Nat × Nat)
  total  : Nat
  deriving DecidableEq, Repr

/-- The Trunk (chapter 3). -/
structure Trunk where
  map0    : Map Page
  map1    : Map Page
  books   : Books
  /-- logical pages allocated outside the Root region: 1 Graft space 0, 2 space 1, 3 understory ring, 4 Stump, 5 spill or mailbox -/
  used    : Map Nat
  /-- spill pools: first backing page and count of space 0 and space 1 -/
  spill0  : Nat × Nat
  spill1  : Nat × Nat
  stamp   : Nat
  stalls  : List Stall
  /-- staging requests waiting: (Stem, task, virtual page) in issue order -/
  stageQ  : List (Nat × Nat × Nat)
  /-- pages in transit for staging: (Stem, task, virtual page); a page of the outgoing Graft's space has 2^18 added -/
  staging : List (Nat × Nat × Nat)
  /-- TRUNK_UNWRITTEN_READ already raised: (tensor, pipeline, pfn); 65,536 is added to a tensor of space 1 -/
  unwr    : List (Nat × Nat × Nat)
  lines   : Map LineRing
  /-- buffers that carried over at the last apply (R292): first page in space 1, pages, first page in space 0 -/
  carry   : List (Nat × Nat × Nat)
  /-- pages of the retiring bank whose spare page is in transit: free since the copy began, and held and not yet copied -/
  copyFree : List Nat
  copyHeld : List Nat
  /-- tasks that used a bank group when it was fenced: of the outgoing Graft, task, group (R90) -/
  fenceUse : List (Bool × Nat × Nat)
  /-- line that the scrub pass reads next; none between passes (R87) -/
  scrub   : Option Nat
  /-- DEV_TIME at which the last pass started -/
  scrubT  : Nat
  /-- no flatten cache is built again until reset (R450) -/
  noCache : Bool
  /-- uncorrectable words met by the running channel copy -/
  chanBad : Nat
  deriving DecidableEq, Repr

/-- A segment write into the output frame buffer, not yet acknowledged (R39). -/
structure Segment where
  ofn   : Nat
  pipe  : Nat
  x     : Nat
  y     : Nat
  addr  : Nat
  bytes : Bytes
  task  : Nat
  pfn   : Nat
  out   : Bool
  logic : Nat
  /-- TSIGs its Branch had issued in the task before it -/
  sigNo : Nat
  deriving DecidableEq, Repr

/-- The ledger of one output frame (R37 to R42, R52). -/
structure OutFrame where
  ofn    : Nat
  /-- writer pipeline; 15 for an understory frame, 16 before the first judgement -/
  writer : Nat
  /-- frame of the writer whose slot of the buffer it shows (R227, R276) -/
  src    : Nat
  /-- per tile: mask of 64 segments counted -/
  segs   : Map Nat
  /-- tiles substituted -/
  subs   : Map Nat
  /-- rows judged: 1, with the row judged as Strict: 2 -/
  judged : Map Nat
  late   : Nat
  fill   : Nat
  subN   : Nat
  /-- understory lines: 1 produced, 2 fill -/
  und    : Map Nat
  /-- run-time output extent when the writer's task ran short (R236) -/
  ext    : Option (Nat × Nat)
  /-- rows judged from now on are shown from the Understory (R237) -/
  ovr    : Bool
  /-- blend saturations (R341) -/
  sat    : Nat
  deriving DecidableEq, Repr

/-- A pending flip group (R329): the words CTL, SRC, DPOS, DSIZE and ALPHA of each layer it names. -/
structure FlipGroup where
  tag     : Nat
  mask    : Nat
  ring    : Nat
  value   : Nat
  timeout : Nat
  tries   : Nat
  /-- dropped at the flip instant of frame K: an owner changed (R331) -/
  stale   : Bool
  snap    : List (Nat × List Word)
  deriving DecidableEq, Repr

/-- An accepted Bark command that has not flipped (R336). -/
structure BarkPend where
  tag  : Nat
  op   : Nat
  seq  : Nat
  buf  : Nat
  fmt  : Nat
  regs : List Word
  deriving DecidableEq, Repr

/-- A write-back line on its way (R338). -/
structure WbLine where
  ofn   : Nat
  line  : Nat
  bytes : Bytes
  deriving DecidableEq, Repr

/-- Canopy (chapter 12). A layer's state in force stands in `Dev.live` at its register addresses. -/
structure Canopy where
  groups   : List FlipGroup
  /-- CTL, SRC, DPOS, DSIZE and ALPHA words of the Bark layer in force -/
  bark     : List Word
  barkPend : Option BarkPend
  /-- output frames since each blend group's last flip -/
  still    : Map Nat
  /-- part of the flatten area that a group's cache holds: 1 or 2 (R327, R328) -/
  flat     : Map Nat
  /-- frames that a pipeline-owned layer shows, plus one, per layer -/
  shown    : Map Nat
  /-- frame chosen at the last flip instant, plus one -/
  chosen   : Map Nat
  /-- layers switched off for the rest of the frame (R354), mask -/
  off      : Nat
  wbQ      : List WbLine
  /-- frame being written back, and whether it is withheld -/
  wbFrame  : Option Nat
  wbHeld   : Bool
  wbDrop   : Nat
  /-- lines of the write-back frame written or dropped -/
  wbDone   : Nat
  /-- frames left to write; none for continuous -/
  wbLeft   : Option Nat
  /-- a WB_STOP that waits for the end of the frame -/
  wbStop   : List Nat
  /-- UI frames: buffer written next or in writing, and the pending flip -/
  uiBuf    : Nat
  uiPend   : Option (Nat × Nat)
  deriving DecidableEq, Repr

/-- An input frame (R300 to R302). -/
structure InFrame where
  ifn    : Nat
  /-- value of the line Ring at its start -/
  base   : Nat
  width  : Nat
  height : Nat
  /-- lines received -/
  rx     : Nat
  /-- lines written or skipped, as the line Ring counts them -/
  count  : Nat
  /-- skip bit of each line -/
  skip   : Nat
  skips  : Nat
  undec  : Nat
  prot   : Bool
  /-- a frame outside the limits, or without a partner: neither written nor counted -/
  void   : Bool
  ended  : Bool
  t0     : Nat
  deriving DecidableEq, Repr

/-- An Intake port (chapter 11). -/
structure Port where
  /-- a frame has begun since reset -/
  begun  : Bool
  /-- latest frames, the newest first -/
  frames : List InFrame
  /-- converted lines whose segments the Trunk has not acknowledged: line, skipped, pixels -/
  wq     : List (Nat × Bool × List Nat)
  /-- received lines kept for 4:2:0 chroma, the latest first -/
  raw    : List (List Nat)
  /-- the stream of the latest frame begun -/
  video  : VideoDesc
  /-- classes of source change reported since that frame began (R311) -/
  chg    : Nat
  /-- INT_CTL.WFMT in force -/
  wfmt   : Nat
  /-- a packet of HDR metadata that waits for the next frame -/
  hdr    : Option (List Word)
  /-- unprotected frames delivered in a row since protected content; none when the port carries none -/
  clean  : Option Nat
  /-- a frame of split mode that waits for its partner: its start and the lines received so far -/
  wait   : Option (VideoDesc × Nat)
  held   : List (List Nat × Bool)
  deriving DecidableEq, Repr

/-- Video intake. -/
structure Intake where
  p0     : Port
  p1     : Port
  /-- frames in the input frame store: slot, IFN, complete; the newest first -/
  store  : List (Nat × Nat × Bool)
  /-- the protected state clears at the end of this output frame (R309) -/
  clear  : Option Nat
  /-- pairs of split mode: INT0 frame, INT1 frame, INT1 line base; newest first -/
  pairs  : List (Nat × Nat × Nat)
  /-- the ports' timings differed at the latest pairing (R306) -/
  uneq   : Bool
  deriving DecidableEq, Repr

/-- Raster timing, ledger and Understory (chapters 2 and 13). -/
structure Raster where
  running  : Bool
  /-- VTOTAL of the frame being scanned -/
  vtotal   : Nat
  /-- line phase in units of 10^-12 line -/
  phase    : Nat
  /-- the blanking of this frame has begun -/
  blank    : Bool
  frames   : List OutFrame
  segQ     : List Segment
  /-- lead in force, in lines -/
  lead     : Nat
  /-- the lead in force is new from this position 0: rows whose instant has passed are judged there (R351) -/
  relead   : Bool
  /-- the DSO set taken at VACTIVE, which position 0 puts in force (R351) -/
  newSet   : Option (Map Word)
  /-- entry into Panel Replay has begun at VACTIVE (R355) -/
  entered  : Bool
  /-- the frame's first line has been composed, and it is this frame's last -/
  lmDone   : Bool
  /-- output frames left without active video after a mode change (R351) -/
  mute     : Nat
  /-- lines of the frame that Canopy has read: the next line -/
  read     : Nat
  /-- frame whose line was read last -/
  readOfn  : Nat
  /-- the composed line, after the Bark layer, one word per pixel -/
  line     : List Nat
  /-- colour values R, G, B of the pixels that each DSO port sends in the present LP (R346, R349) -/
  sent     : Map (List Nat)
  /-- bits per pixel of each port's DSC stream, in 1/16; 0 for a port without one (R349) -/
  dscBpp   : Map Nat
  /-- CRC register of each check rectangle, reflected, before the final XOR; 0xFFFF_FFFF where none is listed -/
  crc      : Map Nat
  /-- exit frame of Panel Replay -/
  prExit   : Option Nat
  /-- cause of the exit -/
  prCause  : Nat
  /-- DSO_LINK: sink of the port reports Panel Replay, mask -/
  prCap    : Nat
  /-- the Understory's input frame for the frame in production, in store mode -/
  undIfn   : Option Nat
  /-- input frame that last fed an output frame in Stump service (R494) -/
  undFed   : Option Nat
  /-- steps of Stump service recomputed for the next frame -/
  undNext  : Option (Nat × Nat)
  deriving DecidableEq, Repr

/-- Clocks and power (chapter 20). -/
structure Clk where
  /-- actions the governor took, most recent first: a pipeline number, or 4 for an ACLK step -/
  acts    : List Nat
  overs   : Nat
  unders  : Nat
  coolMs  : Nat
  lastAct : Nat
  lastUndo : Nat
  lastRep : Nat
  trip    : Bool
  /-- the board record was not valid: BOARD_RECORD_BAD is owed (R520) -/
  boardBad : Bool
  /-- rate ceiling of the board record (R441) -/
  lp6Ceil : Nat
  /-- density of the board record, or none when the mode registers give it -/
  lp6Dens : Option Nat
  /-- cadence lock: start and period of the source's latest frame, and the one before -/
  inStart : Option Nat
  goodE   : Nat
  /-- input frame starts since the HOLD cause ended -/
  holdIn  : Nat
  lastPos0 : Nat
  deriving DecidableEq, Repr

/-- One error kept by a bucket (R481). -/
structure ErrRec where
  kind : Nat
  addr : Nat
  time : Nat
  deriving DecidableEq, Repr

/-- An error bucket (R480 to R484). `state`: 0 in service, 1 waiting or running, 2 retired, 3 fenced. -/
structure Bucket where
  level : Nat
  state : Nat
  last  : List ErrRec
  leakT : Nat
  deriving DecidableEq, Repr

/-- A link's sender and receiver (R478). -/
structure Link where
  /-- flits the sender keeps for a resend: sequence number and payload, oldest first -/
  unacked : List (Nat × Bytes)
  /-- a flit that Wind delivers after the next one -/
  heldF   : Option (Nat × Bytes)
  nextRx  : Nat
  /-- the receiver waits for a resend -/
  naking  : Bool
  /-- the sender owes a resend -/
  resend  : Bool
  fails   : Nat
  /-- payload last delivered -/
  got     : Bytes
  retries : Nat
  lastRep : Option Nat
  deriving DecidableEq, Repr

/-- A Wind rule's counters (R501). -/
structure WindRule where
  seen  : Nat
  fired : Nat
  armT  : Nat
  deriving DecidableEq, Repr

/-- Faults and Wind (chapter 19). -/
structure Flt where
  bkt      : Map Bucket
  /-- unit IDs the host fenced -/
  hostF    : List Nat
  /-- unit IDs retired -/
  retired  : List Nat
  /-- unit IDs that rejoin at the next blanking -/
  unfence  : List Nat
  /-- retirements waiting by kind: (kind, bucket) -/
  waitQ    : List (Nat × Nat)
  /-- retirement running of each kind: bank copy 0, channel copy 1, Branch set-up 2 -/
  running  : Map Nat
  links    : Map Link
  wind     : Map WindRule
  deriving DecidableEq, Repr

/-- One task-frame on one Branch: where its tile program stands (R207 to R211). `sect`: 0 PROLOGUE, 1 PRE, 2 RED,
3 POST, 4 at its end. -/
structure Ctx where
  task  : Nat
  pfn   : Nat
  out   : Bool
  /-- logical Branch this context runs for (R210, R488) -/
  logic : Nat
  sect  : Nat
  idx   : Nat
  /-- position in the list of output lines dealt to the Branch -/
  yi    : Nat
  z     : Nat
  xi    : Nat
  r     : Nat
  it    : Nat
  /-- the iteration has ended: the context stands at, or drains toward, a tile boundary -/
  edge  : Bool
  /-- TWAIT not yet met: Ring, and BASE + LM × y held at TOTAL -/
  wait  : Option (Nat × Nat)
  /-- TSIGs issued whose earlier stores are not all acknowledged: Ring and amount -/
  sigs  : List (Nat × Nat)
  /-- TSIGs issued in the frame -/
  nSig  : Nat
  /-- TSIG amounts of re-run work still to absorb: Ring and amount (R255) -/
  absorb : List (Nat × Nat)
  /-- tile drains outstanding: Twig, physical slot -/
  drains : List (Nat × Nat)
  /-- pages whose REL this Branch has completed, once for each REL -/
  rels  : List Nat
  /-- output width and height that the loops run over (R209) -/
  wo    : Nat
  ho    : Nat
  /-- frame that a LATEST load last read, by region (R224) -/
  lat   : List (Nat × Nat)
  /-- list regions that a TBOX of the frame has begun (R195) -/
  boxes : List Nat
  /-- halo lines sent in the frame, and those that re-run work has still to pass over: receiver, region, line (R488) -/
  sent  : List (Nat × Nat × Nat)
  again : List (Nat × Nat × Nat)
  /-- the next instruction's tile has been counted as held (R154) -/
  short : Bool
  deriving DecidableEq, Repr

/-- A Twig (chapter 6): weight planes, codebooks, accumulator slots. -/
structure Twig where
  /-- weights: key plane × 65,536 + position; values in two's complement of 13 bits -/
  plane : Map Int
  /-- codebook slots: 512 bytes each -/
  book  : Map Byte
  /-- K_h and D of the DIAG_P content of a plane, as K_h × 16 + D -/
  geo   : Map Nat
  /-- accumulators: key slot × 16,384 + channel × 64 + pixel; of a WINO slot, position × 1,024 + channel × 16 + block -/
  acc   : Map Int
  /-- 2 × P, plus 1 for a WINO tile, of each slot that holds a tile (R222) -/
  slotP : Map Nat
  /-- Winograd transform buffer: ((tile × 16 + position) × 64 + channel) × 16 + block (R159) -/
  wbuf  : Map Int
  /-- slots whose tile read an uncorrectable word, mask (R204, R256) -/
  bad   : Nat
  deriving DecidableEq, Repr

/-- A halo line on its way, or a line a receive names (R230). `logic`: the sender. -/
structure Halo where
  region : Nat
  line   : Nat
  bytes  : Bytes
  task   : Nat
  pfn    : Nat
  out    : Bool
  logic  : Nat
  sigNo  : Nat
  deriving DecidableEq, Repr

/-- A TMCAST request (R232): tree, tensor, tile index, tiles, destination region and first tile. -/
structure Mcast where
  tree   : Nat
  tensor : Nat
  /-- frame slot of the tensor that is read -/
  slot   : Nat
  tile   : Nat
  ntile  : Nat
  region : Nat
  t0     : Nat
  rel    : Bool
  task   : Nat
  pfn    : Nat
  out    : Bool
  logic  : Nat
  sigNo  : Nat
  deriving DecidableEq, Repr

/-- What one logical Branch contributes to a cell (R129, R137): the magnitude its TSTATs found, the magnitude and the overrange
count of its conversions, and the elements it has converted. -/
structure Partial where
  stat : Nat
  conv : Nat
  ovr  : Nat
  n    : Nat
  deriving DecidableEq, Repr

/-- One cell of a scale step in one frame (R125 to R137, R545). -/
structure CellStat where
  pfn     : Nat
  /-- partials by logical Branch, and the Branches that have sent theirs, mask -/
  parts   : Map Partial
  sent    : Nat
  /-- the scale T is known, by the maximum tree or from the entry before -/
  ready   : Bool
  scale   : Nat
  run     : Nat
  elim    : Bool
  cold    : Bool
  /-- the entry is written -/
  written : Bool
  deriving DecidableEq, Repr

/-- A Branch (chapters 6 to 9). -/
structure Branch where
  store : List Host.Cell
  ctxs  : List Ctx
  /-- task and frame issuing -/
  cur   : Option (Nat × Nat)
  twig  : Map Twig
  /-- activation table slots: 1,032 bytes each -/
  table : Map Byte
  /-- slice wheel: entry in turn, quantum spent, hand-over due -/
  wheel : Nat
  spent : Bool
  /-- tiles drained by Twig since the last audit; the audit is armed -/
  tiles : Nat
  armed : Bool
  /-- planes of the audited Twig loaded since arming, mask; slots of the tiles that began since and used no other plane, in the order
  that they began: the first that drains at their head is the audited one (R169) -/
  fresh : Nat
  aud   : List Nat
  /-- halo lines on their way here, lines that receives here still expect, and lines landed in open frames (R230, R488) -/
  haloIn  : List Halo
  haloRx  : List Halo
  haloLog : List Halo
  mcast : List Mcast
  deriving DecidableEq, Repr

/-- Grove wiring: frame pulse, time code and the follower's aim (R399 to R404). -/
structure Grv where
  /-- DEV_TIME of the last rising edge on GRV_FSYNC_OUT, and on GRV_FSYNC_IN -/
  outT   : Option Nat
  edge   : Option Nat
  /-- instant at which the follower's next position 0 is due -/
  target : Option Nat
  /-- consecutive frames within 1 XCLK of the target -/
  good   : Nat
  /-- consecutive time code frames with a bad CRC, and those since the last GROVE_TC_ERROR -/
  bad    : Nat
  badRep : Nat
  /-- time code frames since the last GROVE_TC_ERROR -/
  since  : Nat
  /-- MFC that the next position 0 takes -/
  mfc    : Option Nat
  /-- the frame's time code was bad: MFC advances by 1 -/
  adv    : Bool
  /-- TAG of the master's last good frame -/
  mtag   : Option Nat
  /-- TIME + PATH less DEV_TIME at the last edge whose code was good -/
  diff   : Option Int
  /-- ns that DEV_TIME is still to be corrected by -/
  adj    : Int
  /-- DEV_TIME was loaded at the first lock -/
  synced : Bool
  /-- the time code frame sent last -/
  sent   : Bytes
  deriving DecidableEq, Repr

/-- A camera frame from its start to its completion (R372 to R377). -/
structure CamFrame where
  port   : Nat
  ctx    : Nat
  cfn    : Nat
  /-- value of the line Ring at its start, earlier frames of the port complete (R375) -/
  base   : Nat
  t0     : Nat
  /-- it belongs to the outgoing Graft -/
  out    : Bool
  /-- landed lines of U16 samples, the first line first -/
  lines  : List (List Nat)
  /-- lines with a check word error -/
  chk    : Nat
  clamped : Bool
  short  : Bool
  ended  : Bool
  /-- the ISP has begun it; output lines written -/
  entered : Bool
  done   : Nat
  newP   : Bool
  /-- PARAM_SEQ and parameters in force for the frame -/
  seq    : Nat
  params : Bytes
  /-- statistics so far: histogram bins, AWB words (zone × 4 + word) and focus sums -/
  hist   : Map Nat
  awb    : Map Nat
  focus  : Map Nat
  /-- first of the free values of the frame -/
  free0  : Nat
  deriving DecidableEq, Repr

/-- The camera ports, the ISP and the exposure masters (chapter 14). -/
structure Cam where
  /-- frames begun and not completed, in order of start; the first is the one in the ISP -/
  frames : List CamFrame
  /-- contexts that have begun a frame since reset, mask -/
  begun  : Nat
  /-- ports with no context in force, mask -/
  idle   : Nat
  /-- parameters that the host has changed, by context -/
  params : Map Bytes
  /-- pending ISP_PARAMS of a context: tag, and the parameters once complete (R384) -/
  pend   : Map (Option (Nat × Option Bytes))
  /-- exposure queued for a context: LINES, AGAIN, DGAIN (R385) -/
  expQ   : Map (Option (Nat × Nat × Nat))
  /-- exposures on each I2C bus, the first the one in transmission: context, LINES, AGAIN, DGAIN -/
  bus    : Map (List (Nat × Nat × Nat × Nat))
  /-- record of a context: governed frame, LINES, AGAIN, DGAIN; the newest first (R388, R389) -/
  expRec : Map (List (Nat × Nat × Nat × Nat))
  deriving DecidableEq, Repr

/-- What survives reset (R519): fuses and SPI content (chapter 18), and the grade. -/
structure NonVol where
  /-- true for TZ8120-A1-S -/
  gradeS    : Bool
  lifecycle : Nat
  fwCtr     : Nat
  intCtr    : Nat
  /-- key slot state, two bits each as ROOT_KEY_STATE.STATE gives them -/
  keyState  : Nat
  /-- hash of the key of each slot, as a number of 384 bits -/
  keyHash   : Map Nat
  /-- USB_WORD; none while it is unwritten -/
  usbWord   : Option Nat
  /-- fields whose write stopped before its valid bit was blown (R457): bit 0 USB_WORD, bit 1 the second LIFECYCLE -/
  spoiled   : Nat
  serial    : Nat
  /-- IDENT_KEY: the private scalar of the identity key -/
  identKey  : Nat
  /-- hash of the firmware signing key -/
  fwKeyHash : Nat
  spi       : List Host.Cell
  deriving DecidableEq, Repr

/-- Everything reset returns to its reset value. -/
structure Dev where
  regs    : Map Word
  live    : Map Word
  hold    : Map (Option Word)
  devTime : BitVec 64
  /-- held as with RST_N low: RST_N 1, TEST_EN 2, EXTEST 4 (R519, R533) -/
  held    : Nat
  /-- start-up step of R521: 0 reset release, 1 PLL locked, 2 firmware started, 3 self-test done, 4 LPDDR6 trained -/
  boot    : Nat
  clk     : Clk
  usb     : Usb
  ring    : Rings
  root    : Root
  stem    : Stems
  trk     : Trunk
  mem     : List Host.Cell
  ras     : Raster
  cnp     : Canopy
  inp     : Intake
  cam     : Cam
  flt     : Flt
  br      : Map Branch
  /-- statistics of scale steps: key (step × 65,536 + cell) × 4 + frame mod 4 -/
  cells   : Map CellStat
  grv     : Grv
  /-- the model's own counter of free values; not the spec's -/
  free    : Nat
  deriving DecidableEq, Repr

/-- The engine and the commands that wait for it, first in, first out. -/
structure State where
  nv      : NonVol
  dev     : Dev
  pending : List Instr
  deriving DecidableEq, Repr

/-- Reasons to stop. No command raises one: every row of the table has an effect. -/
inductive Fault where
  /-- raised by no command; safe -/
  | none
  deriving DecidableEq, Repr

/-- Reasons to refuse a command. -/
inductive Refusal where
  /-- raised by `exec` for a command with no meaning yet; safe -/
  | notModelled (mnemonic : String)
  deriving DecidableEq, Repr

/-- The outcome of a meaning. -/
abbrev Out := Host.Outcome State Fault Refusal

/-- Register words that are not zero after reset release, by device address (Tables Regmap-5 to Regmap-19).
Words that the engine computes when they are read are not stored here. -/
def resetRegs : Map Word :=
  [(0x10010, 0x50CEDE62)] ++
  (List.range 4).map (fun s => (0x40000 + 0x100 * s, (7 : Word))) ++
  (List.range 16).flatMap (fun n =>
    [(0x80000 + 0x4000 * n, (0xF : Word)), (0x81100 + 0x4000 * n, 1), (0x81200 + 0x4000 * n, 0xA0)]) ++
  [(0x100000, 0x00400020), (0x100004, 0x01000000), (0x100050, 0x3C01), (0x120004, 0x10),
   (0x140000, 0xEC0), (0x141000, 0xEC0)] ++
  (List.range 8).flatMap (fun l =>
    [(0x160000 + 0x40 * l, BitVec.ofNat 32 (0x1000 + l * 64)), (0x160010 + 0x40 * l, 0xFF), (0x160014 + 0x40 * l, 0x1C0)]) ++
  [(0x170000, 0x40), (0x170080, 0x40), (0x171000, 0x16), (0x172000, 0x16), (0x182004, 5),
   (0x1B001C, 0x76543210), (0x1B0020, 0xFEDCBA98), (0x1B0040, 0x03C64040), (0x1B0044, 0x03C0A100), (0x1B0048, 0x0FF0A100), (0x1B004C, 0x0FF0A200),
   (0x1B0050, 0x00064040), (0x1B0054, 0x0000A080), (0x1B0058, 0x03C64040), (0x1B0090, 0x13),
   (0x1D0004, 1), (0x1E0004, 0x10000), (0x1E0008, 0x10000)]

/-- No host link, nothing in flight. -/
def Usb.reset : Usb :=
  { tags := [], ep1in := [], reads := [], xfers := [], waits := [], deferred := [], starting := none, gen := 0,
    evq := [], evDrop := false, evSince := 0, ep1 := [], ep2 := [], ep3 := [], desc := none, ep0 := none, lastRead := 0 }

/-- No Graft, no pack, nothing pending. -/
def Root.reset : Root :=
  { space0 := none, space1 := none, loadTag := none, apply := none, packs := [], readmits := [], outAge := 0,
    attest := none, fwTag := none, flipK := none, outStrict := 0, fbKept := false, prog := [], lastEv := none }

/-- No frame open. -/
def Stems.reset : Stems :=
  { frames := [], histReq := [], cad := [], cadRe := none, shedRep := 0, recs := [], ev := [], err := [], shp := [], marks := [], first := [] }

/-- The Root region is allocated; 512 pages are those of the four spare banks (R64, R85). -/
def Trunk.reset : Trunk :=
  { map0 := [], map1 := [], books := { free := 8128, alloc := 64, transit := 0, retired := 512 }, used := [],
    spill0 := (0, 0), spill1 := (0, 0), stamp := 0, stalls := [], stageQ := [], staging := [], unwr := [], lines := [], carry := [],
    copyFree := [], copyHeld := [], fenceUse := [], scrub := none, scrubT := 0, noCache := false, chanBad := 0 }

/-- The raster has not started. -/
def Raster.reset : Raster :=
  { running := false, vtotal := 0, phase := 0, blank := false, frames := [], segQ := [], lead := 0, relead := false, newSet := none, entered := false, lmDone := false,
    mute := 0, read := 0, readOfn := 0, line := [], sent := [], dscBpp := [], crc := [], prExit := none, prCause := 0, prCap := 0,
    undIfn := none, undFed := none, undNext := none }

/-- No layer declared, nothing pending; the Bark layer is not shown. -/
def Canopy.reset : Canopy :=
  { groups := [], bark := [0, 0, 0, 0, 0xFF], barkPend := none, still := [], shown := [], chosen := [], flat := [], off := 0,
    wbQ := [], wbFrame := none, wbHeld := false, wbDrop := 0, wbDone := 0, wbLeft := none, wbStop := [], uiBuf := 0, uiPend := none }

/-- No frame has begun. -/
def Port.reset : Port :=
  { begun := false, frames := [], wq := [], raw := [],
    video := { width := 0, height := 0, enc := 0, bpc := 0, range := 0, colorimetry := 0, htotal := 0, vtotal := 0, fperiod := 0, dscBpp := 0, dscSlices := 0 },
    chg := 0, wfmt := 0, hdr := none, clean := none, wait := none, held := [] }

def Intake.reset : Intake := { p0 := Port.reset, p1 := Port.reset, store := [], clear := none, pairs := [], uneq := false }

/-- No frame in progress, no context in force. -/
def Cam.reset : Cam :=
  { frames := [], begun := 0, idle := 3, params := [], pend := [], expQ := [], bus := [], expRec := [] }

/-- The governor has taken no action, the lock has seen no frame. -/
def Clk.reset : Clk :=
  { acts := [], overs := 0, unders := 0, coolMs := 0, lastAct := 0, lastUndo := 0, lastRep := 0, trip := false, boardBad := false, lp6Ceil := 0, lp6Dens := none,
    inStart := none, goodE := 0, holdIn := 0, lastPos0 := 0 }

/-- No error recorded, no unit fenced. -/
def Flt.reset : Flt :=
  { bkt := [], hostF := [], retired := [], unfence := [], waitQ := [], running := [], links := [], wind := [] }

/-- A Twig that holds zeros. DESIGN CHOICE, log entry 3. -/
def Twig.reset : Twig := { plane := [], book := [], geo := [], acc := [], slotP := [], wbuf := [], bad := 0 }

/-- An idle Branch: its stores read zero. DESIGN CHOICE, log entries 3 and 4. -/
def Branch.reset : Branch :=
  { store := [], ctxs := [], cur := none, twig := [], table := [], wheel := 0, spent := false, tiles := 0,
    armed := false, fresh := 0, aud := [], haloIn := [], haloRx := [], haloLog := [], mcast := [] }

/-- No pulse, no time code; the first bad frame may be reported at once. -/
def Grv.reset : Grv :=
  { outT := none, edge := none, target := none, good := 0, bad := 0, badRep := 0, since := 256, mfc := none, adv := false,
    mtag := none, diff := none, adj := 0, synced := false, sent := [] }

/-- Everything volatile at reset release. -/
def Dev.reset : Dev :=
  { regs := resetRegs, live := [], hold := [], devTime := 0, held := 0, boot := 0, clk := Clk.reset, usb := Usb.reset,
    ring := { val := [], base := [], fbase := [], held := [] }, root := Root.reset, stem := Stems.reset,
    trk := Trunk.reset, mem := [], ras := Raster.reset, cnp := Canopy.reset, inp := Intake.reset, cam := Cam.reset, flt := Flt.reset,
    br := [], cells := [], grv := Grv.reset,
    free := 0 }

/-- The part as the log names it: an A1-X as shipped, in PROVISIONING with four empty slots, and erased flash; the fields that
Tarzalen writes hold 0. DESIGN CHOICE, log entry 2. -/
def NonVol.reset : NonVol :=
  { gradeS := false, lifecycle := 1, fwCtr := 0, intCtr := 0, keyState := 0, keyHash := [], usbWord := none, spoiled := 0, serial := 0,
    identKey := 0, fwKeyHash := 0, spi := [] }

/-- The machine right after reset release (R519), before the root PLL locks. -/
def State.reset : State := { nv := NonVol.reset, dev := Dev.reset, pending := [] }

end Sys2Proof.Machine
end

