-- ==== Sys2Proof/Machine/Regs.lean ====
section
/-! DEFINITION. Names of registers and fields at their device addresses (Tables Regmap-5 to Regmap-19). -/

namespace Sys2Proof.Machine

/-! GEN, CLK (R540, R523) -/
def progA (k : Nat) : Nat := 0x100 + 8 * k
def progB (k : Nat) : Nat := 0x104 + 8 * k
def clkPllLock : Fld := ⟨0x10000, 0, 1⟩
def clkAclk    : Fld := ⟨0x10000, 1, 2⟩
def clkShed    : Fld := ⟨0x10000, 4, 4⟩
def clkCause   : Fld := ⟨0x10000, 8, 2⟩
def clkCap     : Fld := ⟨0x10004, 0, 2⟩
def clkPwr     : Fld := ⟨0x10008, 0, 16⟩
def clkTj      : Fld := ⟨0x1000C, 0, 8⟩
def clkHot     : Fld := ⟨0x1000C, 8, 1⟩
def clkXdiv    : Fld := ⟨0x10010, 0, 32⟩
def aThrottles : Nat := 0x10014
def lockSrc    : Fld := ⟨0x10020, 0, 2⟩
def lockMult   : Fld := ⟨0x10020, 2, 3⟩
def lockAdj    : Fld := ⟨0x10020, 8, 8⟩
def lockPhi    : Fld := ⟨0x10020, 16, 16⟩
def lockState  : Fld := ⟨0x10024, 0, 2⟩
def lockMismatch : Fld := ⟨0x10024, 2, 1⟩
def lockErr    : Fld := ⟨0x10024, 16, 16⟩
def clkLatency : Fld := ⟨0x10028, 0, 32⟩

/-! ROOT (R473, R296) -/
def bootStat     : Nat := 0x20100
def bootRecovery : Fld := ⟨0x20100, 2, 1⟩
def aSigFail     : Nat := 0x20160
def graftInForce : Fld := ⟨0x20200, 0, 1⟩
def graftSpace1  : Fld := ⟨0x20200, 1, 3⟩
def graftIdLo    : Fld := ⟨0x20204, 0, 32⟩
def graftIdHi    : Fld := ⟨0x20208, 0, 32⟩
def graftApplyOfn : Fld := ⟨0x2020C, 0, 32⟩
def graftErrStatus : Fld := ⟨0x20210, 0, 8⟩
def graftErrPhase  : Fld := ⟨0x20210, 8, 4⟩
def graftErrSect   : Fld := ⟨0x20210, 16, 8⟩
def graftErrOff    : Fld := ⟨0x20214, 0, 24⟩
def seedCount      : Fld := ⟨0x20218, 0, 7⟩

/-! RING, STEM, Branch sequencers (R264 to R266, R60) -/
def ringSel : Fld := ⟨0x30000, 0, 16⟩
def stemKey  (s : Nat) : Fld := ⟨0x40000 + 0x100 * s, 0, 3⟩
def stemCtx  (s : Nat) : Fld := ⟨0x40000 + 0x100 * s, 4, 4⟩
def stemPipe (s : Nat) : Fld := ⟨0x40000 + 0x100 * s, 8, 2⟩
def stemPfnOpen (s : Nat) : Fld := ⟨0x40004 + 0x100 * s, 0, 32⟩
def stemPfnDone (s : Nat) : Fld := ⟨0x40008 + 0x100 * s, 0, 32⟩
def aSlices  (s : Nat) : Nat := 0x40010 + 0x100 * s
def aOverrun (s : Nat) : Nat := 0x40014 + 0x100 * s
def aAudit   (s : Nat) : Nat := 0x40018 + 0x100 * s
def admitState (p : Nat) : Fld := ⟨0x40F00, 8 * p, 2⟩
def admitCause (p : Nat) : Fld := ⟨0x40F00, 8 * p + 2, 4⟩
def brBase (n : Nat) : Nat := 0x80000 + 0x4000 * n
def seqHolder   (n : Nat) : Fld := ⟨brBase n, 0, 3⟩
def seqBoundary (n : Nat) : Fld := ⟨brBase n, 3, 1⟩
def seqTask     (n : Nat) : Fld := ⟨brBase n, 4, 10⟩
def aHandover   (n : Nat) : Nat := brBase n + 4

/-! Twigs and Branch units (R172, R205) -/
def twigState  (n t : Nat) : Fld := ⟨brBase n + 0x1000 + 0x40 * t, 0, 3⟩
def twigStands (n t : Nat) : Fld := ⟨brBase n + 0x1000 + 0x40 * t, 3, 3⟩
def twigMode   (n t : Nat) : Fld := ⟨brBase n + 0x1000 + 0x40 * t, 6, 4⟩
def twigPlane  (n t : Nat) : Fld := ⟨brBase n + 0x1000 + 0x40 * t, 10, 1⟩
def aTwigBusy   (n t : Nat) : Nat := brBase n + 0x1004 + 0x40 * t
def aTwigShort  (n t : Nat) : Nat := brBase n + 0x100C + 0x40 * t
def aTwigParity (n t : Nat) : Nat := brBase n + 0x1010 + 0x40 * t
def aTwigSat    (n t : Nat) : Nat := brBase n + 0x1014 + 0x40 * t
def auditEn     (n : Nat) : Fld := ⟨brBase n + 0x1200, 0, 1⟩
def auditPeriod (n : Nat) : Fld := ⟨brBase n + 0x1200, 4, 4⟩
def auditNext   (n : Nat) : Fld := ⟨brBase n + 0x1200, 8, 2⟩
def aAuditDone  (n : Nat) : Nat := brBase n + 0x1204
def aAuditMiss  (n : Nat) : Nat := brBase n + 0x1208
def aVecBusy    (n : Nat) : Nat := brBase n + 0x2000
def aWarpBusy   (n : Nat) : Nat := brBase n + 0x2100
def aVecSat     (n : Nat) : Nat := brBase n + 0x2004
def aScaleInv   (n : Nat) : Nat := brBase n + 0x2008
def romEntry    (n : Nat) : Fld := ⟨brBase n + 0x2010, 0, 8⟩
def romTable    (n : Nat) : Fld := ⟨brBase n + 0x2010, 8, 3⟩
def aMvClamp    (n : Nat) : Nat := brBase n + 0x2104
def aWarpEdge   (n : Nat) : Nat := brBase n + 0x2108
def aBoxCand    (n : Nat) : Nat := brBase n + 0x2200
def aBoxDrop    (n : Nat) : Nat := brBase n + 0x2204
def aNmsKept    (n : Nat) : Nat := brBase n + 0x2208
def aNmsDrop    (n : Nat) : Nat := brBase n + 0x220C
def aBstCorr    (n : Nat) : Nat := brBase n + 0x2300
def aBstUncorr  (n : Nat) : Nat := brBase n + 0x2304

/-! TRK (R91) -/
def trkWatermark : Fld := ⟨0x100000, 0, 10⟩
def trkStageMax  : Fld := ⟨0x100000, 16, 8⟩
def trkStallLimit : Fld := ⟨0x100004, 0, 32⟩
def booksFree    : Fld := ⟨0x100014, 0, 14⟩
def booksAlloc   : Fld := ⟨0x100018, 0, 14⟩
def booksTransit : Fld := ⟨0x10001C, 0, 14⟩
def booksRetired : Fld := ⟨0x100020, 0, 14⟩
def spareBank  (s : Nat) : Fld := ⟨0x100030, 8 * s, 7⟩
def spareInUse (s : Nat) : Fld := ⟨0x100030, 8 * s + 7, 1⟩
def copySrc    : Fld := ⟨0x100034, 0, 6⟩
def copySpare  : Fld := ⟨0x100034, 6, 2⟩
def copyActive : Fld := ⟨0x100034, 8, 1⟩
def copyDone   : Fld := ⟨0x100034, 16, 8⟩
def pageCtl    : Nat := 0x100040
def pageSpace  : Fld := ⟨0x100040, 0, 1⟩
def pageClass  : Fld := ⟨0x100040, 2, 2⟩
def pageLoc    : Fld := ⟨0x100040, 4, 2⟩
def pageDirty  : Fld := ⟨0x100040, 6, 1⟩
def pageStaged : Fld := ⟨0x100040, 7, 1⟩
def pageReaders : Fld := ⟨0x100040, 8, 8⟩
def pageVpn    : Fld := ⟨0x100044, 0, 18⟩
def pageLpn    : Fld := ⟨0x100048, 0, 13⟩
def pageBack   : Fld := ⟨0x10004C, 0, 20⟩
def scrubEn    : Fld := ⟨0x100050, 0, 1⟩
def scrubInterval : Fld := ⟨0x100050, 8, 8⟩
def aScrubCorr : Nat := 0x100054
def aUncorr    : Nat := 0x100058
def aUnwritten : Nat := 0x10005C
def aRingOvf   : Nat := 0x100060
def aStalls    : Nat := 0x100064
def aEvict     : Nat := 0x100068
def aStageWaste : Nat := 0x10006C

/-! LP6 (R454) -/
def lp6Rate     : Fld := ⟨0x120000, 0, 3⟩
def lp6Density  : Fld := ⟨0x120000, 3, 2⟩
def lp6Trained  : Fld := ⟨0x120000, 5, 1⟩
def lp6Avail    : Fld := ⟨0x120000, 6, 1⟩
def lp6Inservice : Fld := ⟨0x120000, 8, 8⟩
def lp6Seed     : Fld := ⟨0x120004, 0, 8⟩
def lp6RetChan  : Fld := ⟨0x120008, 0, 3⟩
def lp6RetActive : Fld := ⟨0x120008, 3, 1⟩
def lp6RetValid : Fld := ⟨0x120008, 4, 1⟩
def lp6RetDone  : Fld := ⟨0x120008, 8, 21⟩
def lp6Temp (c : Nat) : Fld := ⟨0x12000C, 4 * c, 4⟩
def aLp6Corr    : Nat := 0x120010
def aLp6Uncorr  : Nat := 0x120014
def aLp6Addr    : Nat := 0x120018
def aLp6Retry   : Nat := 0x12001C
def lp6ErrLo    : Fld := ⟨0x120020, 0, 32⟩
def lp6ErrHi    : Fld := ⟨0x120024, 0, 3⟩
def lp6ErrChan  : Fld := ⟨0x120024, 8, 3⟩

/-! INT (R315) -/
def intBase (p : Nat) : Nat := 0x140000 + 0x1000 * p
def intHpd   (p : Nat) : Fld := ⟨intBase p, 0, 1⟩
def intWfmt  (p : Nat) : Fld := ⟨intBase p, 1, 1⟩
def intCsc   (p : Nat) : Fld := ⟨intBase p, 2, 2⟩
def intUi    (p : Nat) : Fld := ⟨intBase p, 4, 1⟩
def intMaxRate (p : Nat) : Fld := ⟨intBase p, 5, 3⟩
def intMaxLanes (p : Nat) : Fld := ⟨intBase p, 8, 2⟩
def intDscEn (p : Nat) : Fld := ⟨intBase p, 10, 1⟩
def intHdcpEn (p : Nat) : Fld := ⟨intBase p, 11, 1⟩
def intLink  (p : Nat) : Nat := intBase p + 4
def intDsc (p : Nat) : Fld := ⟨intBase p + 4, 8, 1⟩
def intLocked (p : Nat) : Fld := ⟨intBase p + 4, 5, 1⟩
def intWidth (p : Nat) : Fld := ⟨intBase p + 8, 0, 16⟩
def intHeight (p : Nat) : Fld := ⟨intBase p + 8, 16, 16⟩
def intEnc   (p : Nat) : Fld := ⟨intBase p + 0xC, 0, 3⟩
def intBpc   (p : Nat) : Fld := ⟨intBase p + 0xC, 3, 2⟩
def intRange (p : Nat) : Fld := ⟨intBase p + 0xC, 5, 1⟩
def intColor (p : Nat) : Fld := ⟨intBase p + 0xC, 6, 2⟩
def intHtotal (p : Nat) : Fld := ⟨intBase p + 0x10, 0, 16⟩
def intVtotal (p : Nat) : Fld := ⟨intBase p + 0x10, 16, 16⟩
def intFperiod (p : Nat) : Fld := ⟨intBase p + 0x14, 0, 32⟩
def intIfn   (p : Nat) : Fld := ⟨intBase p + 0x18, 0, 32⟩
def intLast  (p : Nat) : Nat := intBase p + 0x1C
def intLastIfn (p : Nat) : Fld := ⟨intBase p + 0x20, 0, 32⟩
def hdcpState (p : Nat) : Fld := ⟨intBase p + 0x24, 0, 2⟩
def hdcpEnc  (p : Nat) : Fld := ⟨intBase p + 0x24, 2, 1⟩
def hdcpType1 (p : Nat) : Fld := ⟨intBase p + 0x24, 3, 1⟩
def hdcpProt (p : Nat) : Fld := ⟨intBase p + 0x24, 4, 1⟩
def aIntChg  (p : Nat) : Nat := intBase p + 0x28
def aIntSkip (p : Nat) : Nat := intBase p + 0x2C
def aIntUndec (p : Nat) : Nat := intBase p + 0x30
def aIntSat  (p : Nat) : Nat := intBase p + 0x34
def aIntUnpaired (p : Nat) : Nat := intBase p + 0x38
def aIntUiDrop (p : Nat) : Nat := intBase p + 0x3C
def splitActive : Fld := ⟨0x140040, 0, 1⟩
def splitSkew   : Fld := ⟨0x140040, 8, 8⟩
def hdrIfn   (p : Nat) : Nat := intBase p + 0x80
def hdrReg   (p i : Nat) : Nat := intBase p + 0x84 + 4 * i

/-! CNP (R340) -/
def cnpBase (l : Nat) : Nat := 0x160000 + 0x40 * l
def cnpStateBuf (l : Nat) : Fld := ⟨cnpBase l + 0x14, 0, 2⟩
def cnpStateEn  (l : Nat) : Fld := ⟨cnpBase l + 0x14, 2, 1⟩
def cnpStatePend (l : Nat) : Fld := ⟨cnpBase l + 0x14, 3, 3⟩
def cnpOwner    (l : Nat) : Fld := ⟨cnpBase l + 0x14, 6, 3⟩
def cnpCached   (l : Nat) : Fld := ⟨cnpBase l + 0x14, 9, 1⟩
def cnpBufReg (l b : Nat) : Nat := cnpBase l + 0x18 + 4 * b
def cnpBufTensor (l b : Nat) : Fld := ⟨cnpBufReg l b, 0, 12⟩
def cnpBufValid (l b : Nat) : Fld := ⟨cnpBufReg l b, 12, 1⟩
def cnpBufPinned (l b : Nat) : Fld := ⟨cnpBufReg l b, 13, 1⟩
def flipPending : Fld := ⟨0x160400, 0, 3⟩
def barkEn   : Fld := ⟨0x160404, 0, 1⟩
def barkBuf  : Fld := ⟨0x160404, 1, 1⟩
def barkFmt  : Fld := ⟨0x160404, 2, 4⟩
def barkSeq  : Fld := ⟨0x160408, 0, 32⟩
def wbActive : Fld := ⟨0x160410, 0, 1⟩
def wbPoint  : Fld := ⟨0x160410, 1, 2⟩
def wbFmt    : Fld := ⟨0x160410, 3, 1⟩
def wbOfn    : Fld := ⟨0x160414, 0, 32⟩
def aWbDrop  : Nat := 0x160418
def aWbProt  : Nat := 0x16041C
def aBlendSat : Nat := 0x160420
def cacheValid (g : Nat) : Fld := ⟨0x160424, g - 1, 1⟩
def cacheBuilding (g : Nat) : Fld := ⟨0x160424, 4 + (g - 1), 1⟩
def aCacheMiss : Nat := 0x160428

/-! DSO (R364, R36) -/
def dsoMode : Fld := ⟨0x170000, 0, 2⟩
def dsoBpc  : Fld := ⟨0x170000, 2, 1⟩
def dsoDscEn : Fld := ⟨0x170000, 5, 1⟩
def dsoClr  : Fld := ⟨0x170000, 6, 2⟩
def dsoHactive : Fld := ⟨0x170004, 0, 16⟩
def dsoHfp   : Fld := ⟨0x170004, 16, 16⟩
def dsoHsync : Fld := ⟨0x170008, 0, 16⟩
def dsoHbp   : Fld := ⟨0x170008, 16, 16⟩
def dsoVactive : Fld := ⟨0x17000C, 0, 16⟩
def dsoVfp   : Fld := ⟨0x17000C, 16, 16⟩
def dsoVsync : Fld := ⟨0x170010, 0, 16⟩
def dsoVbp   : Fld := ⟨0x170010, 16, 16⟩
def dsoFrate : Fld := ⟨0x170014, 0, 19⟩
def dsoPending : Fld := ⟨0x170018, 1, 1⟩
def dsoErr   : Fld := ⟨0x170018, 4, 4⟩
def dsoPos   : Fld := ⟨0x17001C, 0, 13⟩
def dsoOfn   : Fld := ⟨0x170020, 0, 32⟩
def dsoVtLast : Fld := ⟨0x170024, 0, 13⟩
def lmPos    : Fld := ⟨0x170028, 0, 13⟩
def lmEn     : Fld := ⟨0x170028, 15, 1⟩
def prReq    : Fld := ⟨0x170030, 0, 1⟩
def prState  : Fld := ⟨0x170030, 1, 2⟩
def prCap    : Fld := ⟨0x170030, 3, 1⟩
def prErr    : Fld := ⟨0x170030, 4, 1⟩
def aUnderrun : Nat := 0x170040
def underrunLayer : Fld := ⟨0x170044, 0, 4⟩
def underrunLine : Fld := ⟨0x170044, 16, 13⟩
def leadLead : Fld := ⟨0x170080, 0, 16⟩
def leadSlots : Fld := ⟨0x170080, 16, 1⟩
def leadClamped : Fld := ⟨0x170080, 17, 1⟩
def chkBase (i : Nat) : Nat := 0x170400 + 0x20 * i
def chkEn   (i : Nat) : Fld := ⟨chkBase i, 0, 1⟩
def chkCmp  (i : Nat) : Fld := ⟨chkBase i, 1, 1⟩
def chkX    (i : Nat) : Fld := ⟨chkBase i + 4, 0, 16⟩
def chkY    (i : Nat) : Fld := ⟨chkBase i + 4, 16, 16⟩
def chkW    (i : Nat) : Fld := ⟨chkBase i + 8, 0, 16⟩
def chkH    (i : Nat) : Fld := ⟨chkBase i + 8, 16, 16⟩
def chkExp  (i : Nat) : Fld := ⟨chkBase i + 0xC, 0, 32⟩
def chkCrc  (i : Nat) : Fld := ⟨chkBase i + 0x10, 0, 32⟩
def chkOfn  (i : Nat) : Fld := ⟨chkBase i + 0x14, 0, 32⟩
def aChkMiss (i : Nat) : Nat := chkBase i + 0x18
def flipTsLo (o : Nat) : Fld := ⟨0x170600 + 0x10 * o, 0, 32⟩
def flipTsHi (o : Nat) : Fld := ⟨0x170604 + 0x10 * o, 0, 32⟩
def flipOfn  (o : Nat) : Fld := ⟨0x170608 + 0x10 * o, 0, 32⟩
def dsoMaxRate (p : Nat) : Fld := ⟨0x171000 + 0x1000 * p, 0, 3⟩
def dsoMaxLanes (p : Nat) : Fld := ⟨0x171000 + 0x1000 * p, 3, 2⟩
def dsoLink  (p : Nat) : Nat := 0x171004 + 0x1000 * p
def linkRate (p : Nat) : Fld := ⟨dsoLink p, 0, 3⟩
def linkLanes (p : Nat) : Fld := ⟨dsoLink p, 3, 2⟩
def linkUp   (p : Nat) : Fld := ⟨dsoLink p, 5, 1⟩
def linkHpd  (p : Nat) : Fld := ⟨dsoLink p, 6, 1⟩
def linkFec  (p : Nat) : Fld := ⟨dsoLink p, 7, 1⟩

/-! CAM (R390) -/
def camBase (p : Nat) : Nat := 0x180000 + 0x1000 * p
def camEn   (p : Nat) : Fld := ⟨camBase p, 0, 1⟩
def camCtx  (p : Nat) : Fld := ⟨camBase p, 1, 3⟩
def camInFrame (p : Nat) : Fld := ⟨camBase p + 4, 0, 1⟩
def camLine (p : Nat) : Fld := ⟨camBase p + 4, 16, 13⟩
def camPclk (p : Nat) : Fld := ⟨camBase p + 8, 0, 18⟩
def aCamChkErr (p : Nat) : Nat := camBase p + 0xC
def aCamDrop (p : Nat) : Nat := camBase p + 0x10
def aCamShape (p : Nat) : Nat := camBase p + 0x14
def aCamNak (p : Nat) : Nat := camBase p + 0x18
def ispBusy : Fld := ⟨0x182000, 0, 1⟩
def ispCtx  : Fld := ⟨0x182000, 1, 3⟩
def ispWait : Fld := ⟨0x182000, 4, 1⟩
def i2cSpeed (b : Nat) : Fld := ⟨0x182004, 2 * b, 2⟩
def aIspDpc : Nat := 0x182008
def aIspSat : Nat := 0x18200C
def cxBase (c : Nat) : Nat := 0x183000 + 0x100 * c
def cxCfn   (c : Nat) : Fld := ⟨cxBase c, 0, 32⟩
def cxReqLines (c : Nat) : Fld := ⟨cxBase c + 4, 0, 16⟩
def cxReqAgain (c : Nat) : Fld := ⟨cxBase c + 4, 16, 16⟩
def cxReqDgain (c : Nat) : Fld := ⟨cxBase c + 8, 0, 16⟩
def cxQueued (c : Nat) : Fld := ⟨cxBase c + 8, 17, 1⟩
def cxExp   (c : Nat) : Nat := cxBase c + 0xC
def cxExp2  (c : Nat) : Nat := cxBase c + 0x10
def cxLast  (c : Nat) : Nat := cxBase c + 0x14
def cxLastCfn (c : Nat) : Nat := cxBase c + 0x18
def cxParamPend (c : Nat) : Fld := ⟨cxBase c + 0x1C, 0, 1⟩
def cxParamSeq (c : Nat) : Fld := ⟨cxBase c + 0x1C, 16, 16⟩

/-! GRV (R417) -/
/-- ROLE in force stands in `Dev.live`: a write takes effect at the next frame start. -/
def grvRole  : Fld := ⟨0x1A0000, 0, 2⟩
def grvIndex : Fld := ⟨0x1A0000, 16, 12⟩
def grvLocked : Fld := ⟨0x1A0004, 0, 1⟩
def grvTcValid : Fld := ⟨0x1A0004, 1, 1⟩
def grvMatch : Fld := ⟨0x1A0004, 2, 1⟩
def grvMGraft : Fld := ⟨0x1A0004, 3, 1⟩
def grvMStump : Fld := ⟨0x1A0004, 4, 1⟩
def grvMfc   : Fld := ⟨0x1A0008, 0, 32⟩
def grvMfcOfs : Fld := ⟨0x1A000C, 0, 32⟩
def grvPath  : Fld := ⟨0x1A0010, 0, 16⟩
def grvAlign : Fld := ⟨0x1A0014, 0, 16⟩
def grvPhase : Fld := ⟨0x1A0018, 0, 16⟩
def aTcErr   : Nat := 0x1A001C
def aLockLoss : Nat := 0x1A0020
def grvTag   : Fld := ⟨0x1A0024, 0, 32⟩

/-! FLT, WND (R503, R504) -/
def fencedReg (u : Nat) : Fld := ⟨0x1B0000 + 4 * (u / 32), u % 32, 1⟩
def fltCmdErr : Fld := ⟨0x1B0014, 0, 3⟩
def fltCmdUnit : Fld := ⟨0x1B0014, 8, 8⟩
def hostReg (n : Nat) : Nat := 0x1B001C + 4 * (n / 8)
def polThresh (k : Nat) : Fld := ⟨0x1B0040 + 4 * k, 0, 12⟩
def polLeak  (k : Nat) : Fld := ⟨0x1B0040 + 4 * k, 12, 8⟩
def polRepeat (k : Nat) : Fld := ⟨0x1B0040 + 4 * k, 20, 8⟩
def bktSel  : Fld := ⟨0x1B0080, 0, 8⟩
def aErrTotal : Nat := 0x1B008C
def stumpActive : Fld := ⟨0x1B0090, 0, 1⟩
def stumpCause : Fld := ⟨0x1B0090, 1, 3⟩
def stumpAvail : Fld := ⟨0x1B0090, 4, 1⟩
def stumpBlocker : Fld := ⟨0x1B0090, 8, 8⟩
def wndEn : Fld := ⟨0x1C0000, 0, 1⟩
def wndBase (r : Nat) : Nat := 0x1C0100 + 0x20 * r
def wndKind (r : Nat) : Fld := ⟨wndBase r, 0, 3⟩
def wndDir  (r : Nat) : Fld := ⟨wndBase r, 3, 1⟩
def wndIndex (r : Nat) : Fld := ⟨wndBase r, 4, 4⟩
def wndAction (r : Nat) : Fld := ⟨wndBase r, 8, 3⟩
def wndTrig (r : Nat) : Fld := ⟨wndBase r, 12, 2⟩
def wndParam0 (r : Nat) : Fld := ⟨wndBase r + 4, 0, 32⟩
def wndParam1 (r : Nat) : Fld := ⟨wndBase r + 8, 0, 32⟩
def wndData (r : Nat) : Fld := ⟨wndBase r + 0xC, 0, 32⟩
def wndLimit (r : Nat) : Fld := ⟨wndBase r + 0x10, 0, 16⟩
def wndArm  (r : Nat) : Fld := ⟨wndBase r + 0x10, 16, 1⟩
def wndErr  (r : Nat) : Fld := ⟨wndBase r + 0x10, 17, 1⟩
def aWndHits (r : Nat) : Nat := wndBase r + 0x14

/-! USB, UND (R439, R49) -/
def usbSpeed : Fld := ⟨0x1D0000, 0, 2⟩
def usbConfigured : Fld := ⟨0x1D0000, 2, 1⟩
def usbUlink : Fld := ⟨0x1D0000, 3, 2⟩
def usbMask : Fld := ⟨0x1D000C, 0, 10⟩
def aEvtLost : Nat := 0x1D0014
def aBadMsg  : Nat := 0x1D0018
def aOrphan  : Nat := 0x1D001C
def aUsbResets : Nat := 0x1D0020
def undSrc  : Fld := ⟨0x1E0000, 0, 2⟩
def undMode : Fld := ⟨0x1E0000, 2, 1⟩
def undFilling : Fld := ⟨0x1E0000, 3, 1⟩
def undHstep : Fld := ⟨0x1E0004, 0, 20⟩
def undVstep : Fld := ⟨0x1E0008, 0, 20⟩
def undFill : Fld := ⟨0x1E000C, 0, 30⟩
def undSubLast : Fld := ⟨0x1E0014, 0, 14⟩
def undSubOfn : Fld := ⟨0x1E0018, 0, 32⟩
def aSubTotal : Nat := 0x1E001C
def aLateWr : Nat := 0x1E0020
def aFillLines : Nat := 0x1E0024

end Sys2Proof.Machine
end

