-- ==== Sys2Proof/Machine/Ops.lean ====
section
/-! DEFINITION. The operations every family shares: register fields, counters, events, completions, memory,
progress registers. -/

namespace Sys2Proof.Machine

/-! ## Register words and fields -/

/-- Field `x` of a word. -/
def fget (x : Fld) (w : Word) : Nat := w.toNat / 2 ^ x.lo % 2 ^ x.width

/-- A word with field `x` replaced. -/
def fput (x : Fld) (w : Word) (v : Nat) : Word :=
  BitVec.ofNat 32 (w.toNat - fget x w * 2 ^ x.lo + v % 2 ^ x.width * 2 ^ x.lo)

/-- A register word. -/
def reg (d : Dev) (a : Nat) : Word := d.regs.get 0 a
def setReg (d : Dev) (a : Nat) (w : Word) : Dev := { d with regs := d.regs.put 0 a w }

/-- A register field. -/
def fld (d : Dev) (x : Fld) : Nat := fget x (reg d x.addr)
def setFld (d : Dev) (x : Fld) (v : Nat) : Dev := setReg d x.addr (fput x (reg d x.addr) v)

/-- A field as 0 or 1. -/
def flag (d : Dev) (x : Fld) : Bool := fld d x == 1

/-- An SH field in force (R10, R544). -/
def inForce (d : Dev) (x : Fld) : Nat := fget x (d.live.get 0 x.addr)
def setLive (d : Dev) (a : Nat) (w : Word) : Dev := { d with live := d.live.put 0 a w }

/-- Add to a 32-bit counter that saturates at 0xFFFF_FFFF. -/
def bump (d : Dev) (a n : Nat) : Dev := setReg d a (BitVec.ofNat 32 (min ((reg d a).toNat + n) 0xFFFFFFFF))

/-- Several fields written in order. -/
def setFlds (d : Dev) (l : List (Fld × Nat)) : Dev := l.foldl (fun d e => setFld d e.1 e.2) d

/-! ## Events (R28, R361, R436) -/

/-- The 16 bytes of a record (Table Glance-7). -/
def EventRec.bytes (e : EventRec) : Bytes := le 2 e.code ++ le 1 e.unit ++ le 1 e.sev ++ le 4 e.arg ++ le 8 e.time

/-- Stem that holds the slice of the Branch of unit `u`: a report of that unit goes to the Root controller by that Stem (R18, R20). -/
def holderOf (d : Dev) (u : Nat) : Option Nat :=
  if 0x10 ≤ u ∧ u < 0x20 ∧ fld d (seqHolder (u - 0x10)) < 4 then some (fld d (seqHolder (u - 0x10))) else none

/-- A Stem receives an event. -/
def tellStem (stem : Option Nat) (e : EventRec) (d : Dev) : Dev :=
  match stem with
  | none => d
  | some s => { d with stem := { d.stem with ev := d.stem.ev.put none s (some e) } }

/-- A record enters the event queue, or is dropped and counted (R436). -/
def pushEvent (d : Dev) (e : EventRec) : Dev :=
  if d.usb.evDrop || decide (256 ≤ d.usb.evq.length) then
    bump { d with usb := { d.usb with evDrop := true, evSince := d.usb.evSince + 1 } } aEvtLost 1
  else { d with usb := { d.usb with evq := d.usb.evq ++ [e] } }

/-- An event for the Root controller and the host (R361); that of a Branch passes the Stem that holds the Branch (R20). An INFO event of
a masked class stays off the queue. -/
def raise (d : Dev) (code unit sev arg : Nat) : Dev :=
  let e : EventRec := { code, unit, sev, arg := arg % 2 ^ 32, time := d.devTime.toNat }
  let d := tellStem (holderOf d unit) e { d with root := { d.root with lastEv := some e } }
  if sev = 0 && (fld d usbMask).testBit (code / 256) then d else pushEvent d e

/-- An event for the Root controller and the output Stem only (R361). -/
def raiseStem (d : Dev) (stem : Option Nat) (code unit sev arg : Nat) : Dev :=
  let e : EventRec := { code, unit, sev, arg := arg % 2 ^ 32, time := d.devTime.toNat }
  tellStem stem e { d with root := { d.root with lastEv := some e } }

/-! ## Memory (R7, R63, R442) -/

def trunkBase : Nat := 0x100000000
def lp6Base : Nat := 0x1000000000

/-- Memory is in its canonical form: addresses strictly rising, no entry 0, which is what an unlisted address reads as (log
entry 4). -/
abbrev Memory.wf (m : List Host.Cell) : Prop := Map.wf (0 : Byte) m

def readMem (d : Dev) (a n : Nat) : Bytes := Map.getN 0 d.mem a n
def writeMem (d : Dev) (a : Nat) (bs : Bytes) : Dev := { d with mem := Map.putN 0 d.mem a bs }
/-- Address of byte `o` of a logical page. -/
def lpnAddr (lpn o : Nat) : Nat := trunkBase + lpn * 0x10000 + o

/-! ## Progress registers (R540 to R542) -/

/-- SHIFT: least value with ceil(t / 2^SHIFT) at most 65,535. -/
def progShift (t : Nat) : Nat := (lowest 31 (fun s => decide (cdiv t (2 ^ s) ≤ 65535))).getD 31

def progWordA (k state arg permille shift : Nat) : Word :=
  BitVec.ofNat 32 (k + state * 2 ^ 8 + arg % 64 * 2 ^ 10 + permille % 1024 * 2 ^ 16 + shift % 32 * 2 ^ 26)

/-- The pair of operation `k` describes position `p` of `t`. -/
def progSet (d : Dev) (k state arg p t permille : Nat) : Dev :=
  let s := progShift t
  let d := { d with root := { d.root with prog := d.root.prog.put (0, 0) k (p, t) } }
  let d := setReg d (progA k) (progWordA k state arg permille s)
  setReg d (progB k) (BitVec.ofNat 32 (p / 2 ^ s % 65536 + cdiv t (2 ^ s) * 65536))

def progArg (d : Dev) (k : Nat) : Nat := bits (reg d (progA k)).toNat 10 6

/-- The operation begins. -/
def progStart (d : Dev) (k arg t : Nat) : Dev := progSet d k 1 arg 0 t 0
/-- The operation is at position `p`. -/
def progAt (d : Dev) (k p : Nat) : Dev :=
  let t := (d.root.prog.get (0, 0) k).2
  progSet d k 1 (progArg d k) p t (1000 * p / max t 1)
/-- A successful end: POS equals TOTAL. -/
def progDone (d : Dev) (k : Nat) : Dev :=
  let t := (d.root.prog.get (0, 0) k).2
  let d := progSet d k 2 (progArg d k) t t 1000
  let w := (reg d (progB k)).toNat / 65536
  setReg d (progB k) (BitVec.ofNat 32 (w + w * 65536))
/-- A failure: STATE 3, the other fields keep their values. -/
def progFail (d : Dev) (k : Nat) : Dev := setFld d ⟨progA k, 8, 2⟩ 3

/-! ## Grade, units and fences (R2, R25, R485) -/

/-- Branches of the grade (Table Scope-1). -/
def branchCount (nv : NonVol) : Nat := if nv.gradeS then 14 else 16

/-- The unit ID is one of Table Glance-5 on this grade. -/
def unitExists (nv : NonVol) (u : Nat) : Bool :=
  u ≤ 7 || (0x10 ≤ u && u < 0x10 + branchCount nv) || (0x20 ≤ u && u ≤ 0x42)

/-- Fenced or retired (FLT_FENCED). -/
def fenced (d : Dev) (u : Nat) : Bool := flag d (fencedReg u)

/-! ## LPDDR6 places (R441 to R444, R450 to R452) -/

/-- Fitted capacity C in bytes (R441). -/
def lp6Capacity (d : Dev) : Nat := 8 * 2 ^ (30 + fld d lp6Density)
/-- Blocks of eight granules below 7C/8. -/
def lp6Blocks (d : Dev) : Nat := lp6Capacity d * 7 / 8 / 16384
/-- Channel of a window offset, by the interleave of eight channels (R444). -/
def lp6Channel (a : Nat) : Nat := let g := a / 2048; (g ^^^ (g / 8) ^^^ (g / 64)) % 8

/-- Window offset at which the bytes of offset `a` stand: a granule of the retired channel lies in the reserve once it has been copied, from
the start when the channel retired at training (R449 to R451). -/
def lp6Home (d : Dev) (a : Nat) : Nat :=
  let r := fld d lp6RetChan
  let k := a / 16384
  if flag d lp6RetValid && lp6Channel a == r && decide (k < lp6Blocks d) && (!flag d lp6RetActive || decide (k < fld d lp6RetDone)) then
    let g := 8 * (lp6Blocks d + k / 7)
    (g + ((List.range 8).filter (fun i => lp6Channel ((g + i) * 2048) != r)).getD (k % 7) 0) * 2048 + a % 2048
  else a

/-- Channel that serves a window offset now. -/
def lp6Serves (d : Dev) (a : Nat) : Nat := lp6Channel (lp6Home d a)

/-- The channel that serves an offset is fenced: what is written there is discarded (R452). The one whose copy runs still takes writes (R451). -/
def lp6Dead (d : Dev) (a : Nat) : Bool :=
  let c := lp6Serves d a
  fenced d (0x30 + c) && !(flag d lp6RetValid && fld d lp6RetChan == c)

/-- Bytes written at window offset `a`, granule by granule: those of a fenced channel are discarded. -/
def writeLp6 (d : Dev) (a : Nat) (bs : Bytes) : Dev :=
  if (List.range 8).any (fun c => fenced d (0x30 + c)) then
    (List.range ((a + bs.length) / 2048 + 1 - a / 2048)).foldl (fun d i =>
      let g := a / 2048 + i
      let lo := max a (g * 2048)
      if lp6Dead d (g * 2048) then d else writeMem d (lp6Base + lo) ((bs.drop (lo - a)).take (g * 2048 + 2048 - lo))) d
  else writeMem d (lp6Base + a) bs

/-! ## Requests and completions (R424 to R428) -/

/-- Status codes of Table Glance-6. -/
def stOk : Nat := 0
def stBusy : Nat := 1
def stBadArg : Nat := 2
def stNoResource : Nat := 3
def stSigFail : Nat := 4
def stAdmission : Nat := 5
def stFenced : Nat := 6
def stShapeOverrun : Nat := 7
def stTimeout : Nat := 8
def stProtected : Nat := 9

/-- A message of the engine: the header of Table Host-3, the payload, zero bytes up to a multiple of 16 (R422). -/
def rhpMessage (type flags tag addr status : Nat) (payload : Bytes) : Bytes :=
  le 1 type ++ le 1 flags ++ le 2 tag ++ le 4 payload.length ++ le 5 addr ++ le 1 status ++ le 2 0 ++ payload ++
    List.replicate ((16 - payload.length % 16) % 16) 0

/-- A COMPLETION message. -/
def Completion.bytes (c : Completion) : Bytes := rhpMessage 0x30 0 c.tag c.addr c.status c.payload

/-- A tag of the host with the count of USB resets in force. -/
def tagKey (d : Dev) (tag : BitVec 16) : Nat := d.usb.gen * 65536 + tag.toNat

/-- The COMPLETION of a request is queued on EP1 IN; that of a forgotten tag is discarded (R428, R438). A transfer of EP2 OUT
ends with its request. -/
def complete (d : Dev) (key status : Nat) (payload : Bytes) : Dev :=
  match d.usb.tags.find? (fun t => t.tag == key && !t.done) with
  | none => d
  | some t =>
    { d with usb := { d.usb with
        tags := d.usb.tags.map (fun r => if r.tag == key then { r with done := true } else r)
        xfers := d.usb.xfers.filter (fun x => x.tag != key)
        ep1in := d.usb.ep1in ++ [{ tag := key % 65536, addr := t.addr, status, payload }] } }

/-- The device serves EP1: configured, faster than Full-Speed, not fenced (R419, R485). -/
def linkUpHost (d : Dev) : Bool := flag d usbConfigured && decide (2 ≤ fld d usbSpeed) && !fenced d 2

/-- An earlier request holds this one back (R425, R426). `before` are the tags accepted earlier. -/
def mustWait (before : List TagRec) (kind : Nat) (ordered : Bool) : Bool :=
  (ordered && before.any (fun t => !t.done)) ||
  before.any (fun t => t.kind == 0 && !t.done) ||
  (kind != 0 && before.any (fun t => t.kind != 0 && t.waiting))

/-- Recovery (R463). -/
def inRecovery (d : Dev) : Bool := flag d bootRecovery

/-- The states in which a request executes at once: EP1 served, its tag free, room for one more tag, nothing earlier
in its way. -/
def canRun (d : Dev) (h : Hdr) (kind : Nat) : Bool :=
  linkUpHost d && !inRecovery d && d.usb.starting == none && !(d.usb.tags.any (fun t => t.tag == tagKey d h.tag)) &&
  decide (d.usb.tags.length < 64) && !mustWait d.usb.tags kind h.ordered

/-- A tag enters flight. -/
def addTag (d : Dev) (h : Hdr) (kind : Nat) (waiting : Bool) : Dev :=
  { d with usb := { d.usb with tags := d.usb.tags ++
      [{ tag := tagKey d h.tag, kind, addr := h.addr.toNat, done := false, waiting }] } }

/-- In recovery only FW_UPDATE is served. -/
def servedNow (d : Dev) (i : Instr) : Bool := !inRecovery d || match i with | .fwUpdate _ _ => true | _ => false

/-- ADDR is zero in the types that do not use it (Table Host-4). -/
def addrOk (h : Hdr) (type : Nat) : Bool := decide (type < 0x10) || h.addr == 0

/-- A request arrives on an OUT endpoint (R422 to R426). `ok`: header and LENGTH are those of its type.
`body` executes it under its tag. With 64 tags in flight the endpoint answers NRDY: nothing changes and the
host holds the message (DESIGN CHOICE, log entry 6). -/
def request (i : Instr) (h : Hdr) (kind type : Nat) (ok : Bool) (body : Nat → Dev → Dev) (d : Dev) : Dev :=
  let key := tagKey d h.tag
  if !linkUpHost d then d
  else if d.usb.starting == some key then
    let d := { d with usb := { d.usb with
      starting := none
      tags := d.usb.tags.map (fun r => if r.tag == key then { r with waiting := false } else r) } }
    body key d
  else if d.usb.tags.any (fun t => t.tag == key) then
    raise (bump d aBadMsg 1) 0x0522 2 0 (type + h.tag.toNat * 65536)
  else if 64 ≤ d.usb.tags.length then d
  else if !(ok && h.zerosOk && addrOk h type && servedNow d i && decide (h.endpoint = 1)) then
    complete (addTag d h kind false) key stBadArg []
  else if mustWait d.usb.tags kind h.ordered then
    let d := addTag d h kind true
    { d with usb := { d.usb with deferred := d.usb.deferred ++ [i] } }
  else body key (addTag d h kind false)

/-- Unit `u` is fenced: its command completes with FENCED (R485); otherwise `f`. -/
def unlessFenced (u : Nat) (f : Nat → Dev → Dev) (key : Nat) (d : Dev) : Dev :=
  if fenced d u then complete d key stFenced [] else f key d

/-! ## The engine runs -/

/-- Clocks run: the PLL is locked, nothing holds the engine in reset, no thermal trip (R516, R519, R521, R533). -/
def alive (d : Dev) : Bool := flag d clkPllLock && d.held == 0 && !d.clk.trip

/-- A command that acts on the running engine; with no clock running it does nothing. -/
def onDev (s : State) (f : Dev → Dev) : Out := .next (if alive s.dev then { s with dev := f s.dev } else s)

end Sys2Proof.Machine
end

