-- ==== Sys2Proof/Machine/Bucket.lean ====
section
/-! DEFINITION. Error buckets: what an error adds to its bucket, and when it becomes permanent (R479 to R482, R484, R503). -/

namespace Sys2Proof.Machine

/-! ## Buckets (R479 to R484, R503) -/

def Bucket.none : Bucket := { level := 0, state := 0, last := [], leakT := 0 }
def bucket (d : Dev) (n : Nat) : Bucket := d.flt.bkt.get Bucket.none n
def setBucket (d : Dev) (n : Nat) (b : Bucket) : Dev := { d with flt := { d.flt with bkt := d.flt.bkt.put Bucket.none n b } }
def setBktState (d : Dev) (n st : Nat) : Dev := setBucket d n { bucket d n with state := st }

/-- Policy class of a bucket (Table Fault-3). -/
def bktClass (n : Nat) : Nat :=
  if n < 80 then 0 else if n < 96 then 1 else if n < 164 then 2 else if n < 172 then 3 else if n < 188 then 4
  else if n < 190 then 5 else 6

/-- Unit ID a bucket belongs to. `phys` names the logical bank a physical bank holds. -/
def logicalBank (d : Dev) (p : Nat) : Nat := if p < 64 then p else fld d (spareBank (p - 64))
/-- The physical bank that holds page `i` of logical bank `b`: the receiving spare once the copy has visited it (R89). -/
def physBank (d : Dev) (b i : Nat) : Nat :=
  if flag d copyActive && fld d copySrc == b && decide (i < fld d copyDone) then 64 + fld d copySpare
  else match lowest 4 (fun s => flag d (spareInUse s) && fld d (spareBank s) == b && !(flag d copyActive && fld d copySpare == s)) with
    | some s => 64 + s
    | none => b

def bktUnit (d : Dev) (n : Nat) : Nat :=
  if n < 80 then 0x10 + n / 5 else if n < 96 then 0x10 + (n - 80)
  else if n < 164 then 0x20 + logicalBank d (n - 96) / 4
  else if n < 172 then 0x30 + (n - 164)
  else if n < 180 then 0x38 + (n - 172) / 4
  else if n < 188 then 0x3B + (n - 180) / 4
  else if n < 190 then 0x3D + (n - 188)
  else if n < 194 then 4 + (n - 190)
  else if n = 194 then 0x3A else if n = 195 then 0x40 else 0x3F

/-- The repeat rule (R481). -/
def repeats (d : Dev) (n kind addr : Nat) : Bool :=
  let rep := fld d (polRepeat (bktClass n))
  let hits := ((bucket d n).last.filter (fun e => e.kind == kind && e.addr == addr &&
    decide (d.devTime.toNat - e.time < rep * 1000000000))).length
  rep != 0 && (((kind == 2 || kind == 3 || kind == 7 || kind == 6) && decide (1 ≤ hits)) || (kind == 1 && decide (3 ≤ hits)))

/-- Weight of an error kind (Table Fault-2); LINK_FAIL, TRAIN and HOST are permanent at once. -/
def errWeight (kind : Nat) : Nat :=
  match kind with
  | 1 => 1 | 2 => 16 | 3 => 16 | 4 => 1 | 6 => 32 | 7 => 16 | 8 => 4 | 9 => 1 | _ => 0

/-- The report of an error of a Twig or a Branch unit passes the Stem that holds the Branch (R20). -/
def reportErr (n kind addr : Nat) (d : Dev) : Dev :=
  match if n < 96 then holderOf d (bktUnit d n) else none with
  | none => d
  | some s => { d with stem := { d.stem with err := d.stem.err.put none s (some { bucket := n, kind, addr, time := d.devTime.toNat }) } }

/-- The unit of a bucket is fenced or retired. A spare bank that stands in for none belongs to no group. -/
def bktFenced (d : Dev) (n : Nat) : Bool :=
  if 160 ≤ n && n < 164 && !flag d (spareInUse (n - 160)) then false else fenced d (bktUnit d n)

/-- One error is recorded against a bucket (R479 to R482, R484): `some rep` when it became permanent, by the repeat rule or not. An error on
a unit already fenced or retired is not recorded. -/
def countError (n kind addr : Nat) (d : Dev) : Dev × Option Bool :=
  let b := bucket d n
  if b.state ≠ 0 || bktFenced d n then (d, none)
  else
    let level := min 4095 (b.level + errWeight kind)
    let rep := repeats d n kind addr
    let e : ErrRec := { kind, addr, time := d.devTime.toNat }
    let d := reportErr n kind addr (bump d aErrTotal 1)
    let d := setBucket d n { level, state := b.state, last := (e :: b.last).take 8,
                             leakT := if b.level = 0 then d.devTime.toNat else b.leakT }
    let th := fld d (polThresh (bktClass n))
    (d, if kind = 5 || kind = 0xA || kind = 0xB || rep || (th != 0 && decide (th ≤ level)) then some rep else none)

end Sys2Proof.Machine
end

