-- ==== Sys2Proof/Machine/GraftImage.lean ====
section
/-! DEFINITION. Reading a Graft image: header, directory and the fields of its sections (R268 to R283). -/

namespace Sys2Proof.Machine

/-! ## Container -/

/-- Directory entries: code, offset, length (R269). -/
def gDir (b : Bytes) : List (Nat × Nat × Nat) :=
  (List.range (u16 b 6)).map (fun i => (u8 b (64 + 16 * i), u32 b (68 + 16 * i), u32 b (72 + 16 * i)))

/-- Offset and length of a section; absent sections have length 0. -/
def gSect (b : Bytes) (code : Nat) : Nat × Nat :=
  match (gDir b).find? (fun e => e.1 == code) with
  | some e => e.2
  | none => (0, 0)

def gOff (b : Bytes) (code : Nat) : Nat := (gSect b code).1
def gLen (b : Bytes) (code : Nat) : Nat := (gSect b code).2
def gHas (b : Bytes) (code : Nat) : Bool := (gDir b).any (fun e => e.1 == code)
/-- The bytes of a section. -/
def gBytes (b : Bytes) (code : Nat) : Bytes := slice b (gOff b code) (gLen b code)

/-! ## STRUCTURE (R272 to R276) -/

def sOff (b : Bytes) : Nat := gOff b 1
def gHaloDir (b : Bytes) : Nat := bits (u8 b (sOff b)) 0 1
def gFbSlots (b : Bytes) : Nat := bits (u8 b (sOff b)) 1 1
def gUndSrc (b : Bytes) : Nat := bits (u8 b (sOff b)) 2 2
def gUndMode (b : Bytes) : Nat := bits (u8 b (sOff b)) 4 1
def gCadPort (b : Bytes) : Nat := bits (u8 b (sOff b)) 5 1
def gNbset (b : Bytes) : Nat := u8 b (sOff b + 1)
def gCadLen (b : Bytes) : Nat := u8 b (sOff b + 2)
def gShared (b : Bytes) : Nat := u16 b (sOff b + 4)
def gHstep (b : Bytes) : Nat := u32 b (sOff b + 8)
def gVstep (b : Bytes) : Nat := u32 b (sOff b + 12)
def gSpill (b : Bytes) : Nat := u32 b (sOff b + 16)
def gFbW (b : Bytes) : Nat := u16 b (sOff b + 20)
def gFbH (b : Bytes) : Nat := u16 b (sOff b + 22)
def gPipe (b : Bytes) (p : Nat) : Nat := sOff b + 0x40 + 32 * p
def pClass (b : Bytes) (p : Nat) : Nat := bits (u8 b (gPipe b p)) 0 2
def pStem (b : Bytes) (p : Nat) : Nat := bits (u8 b (gPipe b p + 1)) 0 2
def pKey (b : Bytes) (p : Nat) : Nat := bits (u8 b (gPipe b p + 2)) 0 3
def pCtx (b : Bytes) (p : Nat) : Nat := bits (u8 b (gPipe b p + 3)) 0 4
def pGroups (b : Bytes) (p : Nat) : Nat := u16 b (gPipe b p + 4)
def cadEntry (b : Bytes) (i : Nat) : Nat := u16 b (sOff b + 0xC0 + 2 * i)
def wheelEntry (b : Bytes) (n i : Nat) : Nat := u32 b (sOff b + 0xE0 + 32 * n + 4 * i)
def treeMask (b : Bytes) (t : Nat) : Nat := u16 b (sOff b + 0x2E0 + 2 * t)
def bsetOff (b : Bytes) (i : Nat) : Nat := sOff b + 0x360 + 32 * i
/-- The Branches of set `i`, in logical order (R210, R274). -/
def bsetList (b : Bytes) (i : Nat) : List Nat :=
  (List.range (u8 b (bsetOff b i))).map (fun j => u8 b (bsetOff b i + 2 + j))

/-- Pipelines in use. -/
def pipesOf (b : Bytes) : List Nat := (List.range 4).filter (fun p => pClass b p != 0)
/-- The pipeline bound to a Stem. -/
def pipeOfStem (b : Bytes) (s : Nat) : Option Nat := (pipesOf b).find? (fun p => pStem b p == s)

/-! ## TENSORS (R277, R214, R215) -/

def nTensors (b : Bytes) : Nat := gLen b 2 / 32
def tOff (b : Bytes) (t : Nat) : Nat := gOff b 2 + 32 * t
def tW (b : Bytes) (t : Nat) : Nat := u16 b (tOff b t)
def tH (b : Bytes) (t : Nat) : Nat := u16 b (tOff b t + 2)
def tC (b : Bytes) (t : Nat) : Nat := u16 b (tOff b t + 4)
def tFmt (b : Bytes) (t : Nat) : Nat := bits (u8 b (tOff b t + 6)) 0 4
def tPix (b : Bytes) (t : Nat) : Nat := bits (u8 b (tOff b t + 6)) 4 4
def tClass (b : Bytes) (t : Nat) : Nat := bits (u8 b (tOff b t + 7)) 0 2
def tHist (b : Bytes) (t : Nat) : Bool := bits (u8 b (tOff b t + 7)) 2 1 == 1
def tSlots (b : Bytes) (t : Nat) : Nat := u8 b (tOff b t + 8)
def tReaders (b : Bytes) (t : Nat) : Nat := u8 b (tOff b t + 9)
def tZp (b : Bytes) (t : Nat) : Nat := u16 b (tOff b t + 10)
def tRel (b : Bytes) (t : Nat) : Nat := u16 b (tOff b t + 12)
def tValid (b : Bytes) (t : Nat) : Nat := u16 b (tOff b t + 14)
def tX0 (b : Bytes) (t : Nat) : Nat := u24 b (tOff b t + 16)
def tY0 (b : Bytes) (t : Nat) : Nat := u24 b (tOff b t + 19)
def tPipe (b : Bytes) (t : Nat) : Nat := bits (u8 b (tOff b t + 22)) 0 2
def tBind (b : Bytes) (t : Nat) : Nat := u8 b (tOff b t + 23)
def tCtx (b : Bytes) (t : Nat) : Nat := bits (u8 b (tOff b t + 24)) 0 4
def tSub (b : Bytes) (t : Nat) : Nat := bits (u8 b (tOff b t + 24)) 4 4
def tSeed (b : Bytes) (t : Nat) : Nat := u16 b (tOff b t + 26)
def tCb (b : Bytes) (t : Nat) : Nat := u16 b (tOff b t + 28)

/-- Container bits per element of a data format (Table Formats-2); U10 packs three to a word. -/
def fmtBits (f : Nat) : Nat :=
  match f with
  | 0 => 2 | 1 => 4 | 2 => 8 | 3 => 8 | 4 => 32 | 5 => 16 | 6 => 16 | 7 => 16 | 8 => 32 | 9 => 4 | _ => 8

/-- RB: bytes of a run of `n` elements, rounded up to whole words (R214). -/
def runBytes (f n : Nat) : Nat := if f = 4 then 4 * cdiv n 3 else 4 * cdiv (n * fmtBits f) 32

/-- Bytes of one frame of tensor `t` (R214, R215). -/
def tFrameBytes (b : Bytes) (t : Nat) : Nat :=
  if tFmt b t = 0xF then 4 * tW b t * tH b t
  else tH b t * tC b t * cdiv (tW b t) 64 * runBytes (tFmt b t) (min (tW b t) 64)

/-- Pages of one frame slot, and of the tensor. -/
def tSlotPages (b : Bytes) (t : Nat) : Nat := cdiv (tFrameBytes b t) 0x10000
def tPages (b : Bytes) (t : Nat) : Nat := tSlots b t * tSlotPages b t

/-- First virtual page of tensor `t`: tensors follow one another in index order, each from a page boundary (R66).
The order is DESIGN CHOICE, log entry 7. -/
def tVpn (b : Bytes) (t : Nat) : Nat := ((List.range t).map (tPages b)).sum

/-- The tensor that holds a virtual page. -/
def tensorOf (b : Bytes) (v : Nat) : Option Nat :=
  (List.range (nTensors b)).find? (fun t => decide (tVpn b t ≤ v ∧ v < tVpn b t + tPages b t))

/-- The tensor bound to a hardware buffer (R277). -/
def boundTensor (b : Bytes) (bind : Nat) : Option Nat :=
  (List.range (nTensors b)).find? (fun t => tBind b t == bind)

/-- Virtual address of line `y`, channel `c`, segment `s` of frame slot `f` (R214, R215). -/
def tAddr (b : Bytes) (t f y c s : Nat) : Nat :=
  let base := (tVpn b t + f * tSlotPages b t) * 0x10000
  if tFmt b t = 0xF then base + (y * tW b t + 64 * s) * 4
  else base + ((y * tC b t + c) * cdiv (tW b t) 64 + s) * runBytes (tFmt b t) (min (tW b t) 64)

/-! ## TASKS (R248) -/

def nTasks (b : Bytes) : Nat := gLen b 3 / 64
def kOff (b : Bytes) (k : Nat) : Nat := gOff b 3 + 64 * k
def kPipe (b : Bytes) (k : Nat) : Nat := bits (u8 b (kOff b k)) 0 2
def kVaries (b : Bytes) (k : Nat) : Bool := bits (u8 b (kOff b k)) 2 1 == 1
def kPrio (b : Bytes) (k : Nat) : Nat := bits (u8 b (kOff b k)) 4 4
def kPeriod (b : Bytes) (k : Nat) : Nat := bits (u8 b (kOff b k + 1)) 0 3 + 1
def kPhase (b : Bytes) (k : Nat) : Nat := bits (u8 b (kOff b k + 1)) 3 3
def kProg (b : Bytes) (k : Nat) : Nat := u16 b (kOff b k + 2)
def kBset (b : Bytes) (k : Nat) : Nat := u8 b (kOff b k + 4)
def kNwait (b : Bytes) (k : Nat) : Nat := bits (u8 b (kOff b k + 5)) 0 3
def kNsig (b : Bytes) (k : Nat) : Nat := bits (u8 b (kOff b k + 5)) 3 3
def kDone (b : Bytes) (k : Nat) : Nat := u16 b (kOff b k + 6)
def kLimit (b : Bytes) (k : Nat) : Nat := u16 b (kOff b k + 8)
def kNin (b : Bytes) (k : Nat) : Nat := bits (u8 b (kOff b k + 10)) 0 3
def kNout (b : Bytes) (k : Nat) : Nat := bits (u8 b (kOff b k + 10)) 3 2
def kWaitRing (b : Bytes) (k i : Nat) : Nat := u16 b (kOff b k + 12 + 4 * i)
def kWaitOfs (b : Bytes) (k i : Nat) : Int := toS 16 (u16 b (kOff b k + 14 + 4 * i))
def kSig (b : Bytes) (k i : Nat) : Nat := u16 b (kOff b k + 28 + 2 * i)
def kIn (b : Bytes) (k i : Nat) : Nat := u16 b (kOff b k + 36 + 2 * i)
def kOut (b : Bytes) (k i : Nat) : Nat := u16 b (kOff b k + 48 + 2 * i)
def kHvring (b : Bytes) (k : Nat) : Nat := u16 b (kOff b k + 52)
def kHdepth (b : Bytes) (k : Nat) : Nat := bits (u8 b (kOff b k + 54)) 0 4
def kHword (b : Bytes) (k : Nat) : Nat := u8 b (kOff b k + 55)
def kIns (b : Bytes) (k : Nat) : List Nat := (List.range (kNin b k)).map (kIn b k)
def kOuts (b : Bytes) (k : Nat) : List Nat := (List.range (kNout b k)).map (kOut b k)
def kSigs (b : Bytes) (k : Nat) : List Nat := (List.range (kNsig b k)).map (kSig b k)
/-- The Branches that run task `k`, in logical order. -/
def kBranches (b : Bytes) (k : Nat) : List Nat := bsetList b (kBset b k)
/-- Tasks of pipeline `p`. -/
def tasksOf (b : Bytes) (p : Nat) : List Nat := (List.range (nTasks b)).filter (fun k => kPipe b k == p)
/-- The task that writes a tensor. -/
def writerOf (b : Bytes) (t : Nat) : Option Nat := (List.range (nTasks b)).find? (fun k => (kOuts b k).contains t)
/-- Branches a pipeline owns (R56). -/
def pipeBranches (b : Bytes) (p : Nat) : List Nat :=
  (List.range 16).filter (fun n => (tasksOf b p).any (fun k => (kBranches b k).contains n))

/-! ## RINGS (R278) -/

/-- Declaration of a Ring: kind, host-signalled, key pipeline, TOTAL. -/
structure RingDecl where
  kind  : Nat
  host  : Bool
  pipe  : Nat
  total : Nat
  deriving DecidableEq, Repr

def nRings (b : Bytes) : Nat := gLen b 5 / 8
def ringEntry (b : Bytes) (i : Nat) : Nat × RingDecl :=
  let o := gOff b 5 + 8 * i
  (u16 b o, { kind := u8 b (o + 2), host := bits (u8 b (o + 3)) 0 1 == 1, pipe := bits (u8 b (o + 3)) 4 2, total := u32 b (o + 4) })
def ringEntries (b : Bytes) : List (Nat × RingDecl) := (List.range (nRings b)).map (ringEntry b)
def ringDecl (b : Bytes) (r : Nat) : Option RingDecl := ((ringEntries b).find? (fun e => e.1 == r)).map (·.2)
/-- The history tensor whose valid-Ring this is (R259). -/
def validRingOf (b : Bytes) (r : Nat) : Option Nat :=
  (List.range (nTensors b)).find? (fun t => tHist b t && tValid b t == r)
/-- The task that signals a Ring through SIG0 to SIG3 or DONE_RING. -/
def signallerOf (b : Bytes) (r : Nat) : Option Nat :=
  (List.range (nTasks b)).find? (fun k => (kSigs b k).contains r || (kDone b k == r && r != 0))
/-- The pipeline whose key a FRAME Ring counts against (R278). -/
def ringPipe (b : Bytes) (r : Nat) : Nat :=
  match signallerOf b r with
  | some k => kPipe b k
  | none => match ringDecl b r with
    | some e => e.pipe
    | none => 0

/-! ## TABLES and SEEDREFS (R279, R281) -/

/-- Records of TABLES: type, offset of the body. -/
def tableRecs : Nat → Bytes → Nat → Nat → List (Nat × Nat)
  | 0, _, _, _ => []
  | n + 1, b, o, e =>
    if o + 8 ≤ e then
      let ty := u8 b o
      let sz := if ty = 1 then 512 else if ty = 2 then 1032 else if ty = 3 then 16 else 0
      (ty, o + 8) :: (if sz = 0 then [] else tableRecs n b (o + 8 + sz) e)
    else []
def gTables (b : Bytes) : List (Nat × Nat) := tableRecs (gLen b 6) b (gOff b 6) (gOff b 6 + gLen b 6)
/-- Body offset of TABLES record `i`. -/
def tableBody (b : Bytes) (i : Nat) : Nat := ((gTables b).getD i (0, 0)).2
/-- Body offset of scale step record `n`: only records of TYPE 3 count. -/
def ostepOff (b : Bytes) (n : Nat) : Nat := (((gTables b).filter (fun r => r.1 == 3)).getD n (0, 0)).2
def nOsteps (b : Bytes) : Nat := ((gTables b).filter (fun r => r.1 == 3)).length
def nSeeds (b : Bytes) : Nat := gLen b 7 / 64
def seedHash (b : Bytes) (i : Nat) : Bytes := slice b (gOff b 7 + 64 * i) 48
def seedTensor (b : Bytes) (i : Nat) : Nat := u16 b (gOff b 7 + 64 * i + 48)

/-! ## SCHEDCERT (R283) -/

def nCert (b : Bytes) : Nat := u16 b (gOff b 0xA + 48)
def certOff (b : Bytes) (i : Nat) : Nat := gOff b 0xA + 64 + 64 * i
def certPipe (b : Bytes) (i : Nat) : Nat := u8 b (certOff b i)
def certNbr (b : Bytes) (i : Nat) : Nat := u8 b (certOff b i + 1)
def certM (b : Bytes) (i : Nat) : Nat := u16 b (certOff b i + 2)
def certWork (b : Bytes) (i a : Nat) : Nat := u32 b (certOff b i + 4 + 8 * a)
def certLead (b : Bytes) (i a : Nat) : Nat := u16 b (certOff b i + 8 + 8 * a)
def certP (b : Bytes) (i a : Nat) : Nat := u16 b (certOff b i + 10 + 8 * a)
/-- The certificate record of a pipeline. -/
def certOf (b : Bytes) (p : Nat) : Option Nat := (List.range (nCert b)).find? (fun i => certPipe b i == p)

/-! ## The Graft in force -/

/-- Image of the Graft in force; no bytes when none is. -/
def img0 (d : Dev) : Bytes := match d.root.space0 with | some g => g.img | none => []
def img1 (d : Dev) : Bytes := match d.root.space1 with | some g => g.img | none => []
def hasGraft (d : Dev) : Bool := d.root.space0.isSome
def kOfGraft (d : Dev) : Nat := match d.root.space0 with | some g => g.k | none => 0
/-- Image that a frame's tasks belong to: outgoing or in force. -/
def imgOf (d : Dev) (out : Bool) : Bytes := if out then img1 d else img0 d

end Sys2Proof.Machine
end

