-- ==== Sys2Proof/Machine/IspImage.lean ====
section
/-! DEFINITION. Reading the ISP section of a Graft: context records and the rules they meet (R369, R370, R373, R378, R380, R381). -/

namespace Sys2Proof.Machine

def iOff (b : Bytes) : Nat := gOff b 9
def hasIsp (b : Bytes) : Bool := gHas b 9
/-- Initial context of a port; 0xFF stays idle. -/
def iInit (b : Bytes) (p : Nat) : Nat := u8 b (iOff b + 1 + p)
/-- Offsets of the context records. -/
def ctxRecs (b : Bytes) : List Nat := if hasIsp b then (List.range (u8 b (iOff b))).map (fun i => iOff b + 64 + 0xA640 * i) else []
/-- Offset of the record of context `c`. -/
def ctxOff (b : Bytes) (c : Nat) : Option Nat := (ctxRecs b).find? (fun o => u8 b o == c)
/-- The context is declared and bound to port `p`. -/
def ctxOnPort (b : Bytes) (c p : Nat) : Bool := match ctxOff b c with | some o => u8 b (o + 1) == p | none => false

/-! ## Fields of a record, at offset `o` of bytes `b` (Table Camera-1) -/

def cDw (b : Bytes) (o : Nat) : Nat := 8 + 2 * bits (u8 b (o + 2)) 0 3
def cChk (b : Bytes) (o : Nat) : Bool := (u8 b (o + 2)).testBit 6
def cCfa (b : Bytes) (o : Nat) : Nat := bits (u8 b (o + 3)) 0 2
def cPx (b : Bytes) (o : Nat) : Nat := bits (u8 b (o + 3)) 2 2
def cPy (b : Bytes) (o : Nat) : Nat := bits (u8 b (o + 3)) 4 2
def cDelay (b : Bytes) (o : Nat) : Nat := u8 b (o + 4)
def cOutFmt (b : Bytes) (o : Nat) : Nat := u8 b (o + 5)
def cTap (b : Bytes) (o : Nat) : Nat := u8 b (o + 6)
def cI2c (b : Bytes) (o : Nat) : Nat := u8 b (o + 7)
def cW (b : Bytes) (o : Nat) : Nat := u16 b (o + 8)
def cH (b : Bytes) (o : Nat) : Nat := u16 b (o + 10)
def cLand (b : Bytes) (o : Nat) : Nat := u16 b (o + 0xC)
def cOut (b : Bytes) (o : Nat) : Nat := u16 b (o + 0xE)
def cAux (b : Bytes) (o : Nat) : Nat := u16 b (o + 0x10)
def cTapt (b : Bytes) (o : Nat) : Nat := u16 b (o + 0x12)
def cStats (b : Bytes) (o : Nat) : Nat := u16 b (o + 0x14)
/-- Word of exposure write `i`. -/
def cTemplate (b : Bytes) (o i : Nat) : Nat := u32 b (o + 0x18 + 4 * i)
/-- Default LINES, AGAIN, DGAIN. -/
def cExp0 (b : Bytes) (o i : Nat) : Nat := u16 b (o + 0x24 + 2 * i)

/-- Period of a mosaic, and its map: 0 R, 1 G, 2 B, 3 W or I; a mono site is 1 (Table Camera-2, R370). -/
def cfaPeriod (c : Nat) : Nat := match c with | 0 => 2 | 1 => 4 | 2 => 4 | _ => 1
def cfaMap (c : Nat) : List (List Nat) :=
  match c with
  | 0 => [[0, 1], [1, 2]]
  | 1 => [[3, 0, 3, 1], [2, 3, 1, 3], [3, 1, 3, 0], [1, 3, 2, 3]]
  | 2 => [[2, 1, 0, 1], [1, 3, 1, 3], [0, 1, 2, 1], [1, 3, 1, 3]]
  | _ => [[1]]

/-- Parameters start and end, in the record (R383). -/
def paramStart : Nat := 0x30
def paramBytes : Nat := 0xA608 - 0x30

/-- Static defects listed are sorted by y, then x. -/
def defectsSorted (b : Bytes) (o n : Nat) : Bool :=
  (List.range (n - 1)).all (fun i =>
    let k (j : Nat) : Nat := u16 b (o + 4 * j + 2) * 65536 + u16 b (o + 4 * j)
    decide (k i ≤ k (i + 1)))

/-- Offsets, in the record, of parameters outside their range; `q` holds the bytes from 0x030 on (R369, R378). -/
def paramFlaws (q : Bytes) (w h : Nat) : List Nat :=
  let at_ (o : Nat) : Nat := o - paramStart
  let bad (ok : Bool) (o : Nat) : List Nat := if ok then [] else [o]
  let (sx, sy) := (u8 q (at_ 0x3C), u8 q (at_ 0x3D))
  bad (u16 q (at_ 0x3A) ≤ 4096) 0x3A ++
  bad (4 ≤ sx && sx ≤ 10 && (w - 1) / 2 ^ sx ≤ 63) 0x3C ++ bad (4 ≤ sy && sy ≤ 10 && (h - 1) / 2 ^ sy ≤ 47) 0x3D ++
  bad (allZero (slice q (at_ 0x3E) 2)) 0x3E ++ bad (u16 q (at_ 0x66) ≤ 256) 0x66 ++ bad (allZero (slice q (at_ 0x68) 8)) 0x68 ++
  bad ((List.range 257).all (fun i => u16 q (at_ (0x70 + 2 * i)) ≤ 4095)) 0x70 ++ bad (allZero (slice q (at_ 0x272) 14)) 0x272 ++
  bad (defectsSorted q (at_ 0x6608) (min 4096 (u16 q (at_ 0x3A)))) 0x6608

/-- A tensor that the ISP writes (R380, R381). -/
def ispTensorOk (b : Bytes) (o t fmt ch : Nat) : Bool :=
  t < nTensors b && tW b t == cW b o && tH b t == cH b o && tC b t == ch && tFmt b t == fmt && tZp b t == 0 &&
  1 ≤ tSlots b t && tSlots b t ≤ 15 && (tClass b t == 0 || tClass b t == 2) && tBind b t == 0

/-- The AUX plane exists: RGBW and RGB-IR. -/
def cHasAux (b : Bytes) (o : Nat) : Bool := cCfa b o == 1 || cCfa b o == 2
def tapFmtChans (b : Bytes) (o : Nat) : Nat := if cTap b o = 3 then (if cHasAux b o then 4 else 3) else 1

/-- Offsets, in the record at `o`, of fields that break R369, R370, R373, R378 or R381. -/
def contextFlaws (b : Bytes) (o : Nat) : List Nat :=
  let bad (ok : Bool) (k : Nat) : List Nat := if ok then [] else [k]
  let land := cLand b o
  let tmpl (i : Nat) : Bool := bits (cTemplate b o i) 18 2 ≤ 2 && cTemplate b o i < 2 ^ 20
  bad (u8 b o ≤ 7) 0 ++ bad (u8 b (o + 1) ≤ 1) 1 ++ bad (bits (u8 b (o + 2)) 0 3 ≤ 4 && u8 b (o + 2) < 128) 2 ++
  bad (u8 b (o + 3) < 64 && cPx b o < cfaPeriod (cCfa b o) && cPy b o < cfaPeriod (cCfa b o)) 3 ++ bad (cDelay b o ≤ 3) 4 ++
  bad (3 ≤ cOutFmt b o && cOutFmt b o ≤ 5) 5 ++ bad (cTap b o ≤ 3) 6 ++
  bad (16 ≤ cW b o && cW b o ≤ 8192) 8 ++ bad (16 ≤ cH b o && cH b o ≤ 8192) 10 ++
  bad (land < nTensors b && tClass b land == 2 && tBind b land == 5 && tCtx b land == u8 b o && tFmt b land == 6 && tC b land == 1 &&
    tW b land == cW b o && tSlots b land == 1 && 8 ≤ tH b land && tH b land ≤ cH b o) 0xC ++
  bad (cOut b o == 0xFFFF || ispTensorOk b o (cOut b o) (cOutFmt b o) 3) 0xE ++
  bad (cAux b o == 0xFFFF || (cHasAux b o && ispTensorOk b o (cAux b o) 5 1)) 0x10 ++
  bad (if cTapt b o = 0xFFFF then cTap b o == 0 else ispTensorOk b o (cTapt b o) 6 (tapFmtChans b o)) 0x12 ++
  bad (cStats b o == 0xFFFF || (let t := cStats b o
    t < nTensors b && tClass b t == 0 && tFmt b t == 8 && tW b t == 1232 && tH b t == 1 && tC b t == 1 && 1 ≤ tSlots b t &&
    tSlots b t ≤ 15 && tBind b t == 0)) 0x14 ++
  bad (allZero (slice b (o + 0x16) 2)) 0x16 ++ (List.range 3).flatMap (fun i => bad (tmpl i) (0x18 + 4 * i)) ++
  bad (allZero (slice b (o + 0x2A) 6)) 0x2A ++ paramFlaws (slice b (o + paramStart) paramBytes) (cW b o) (cH b o) ++
  bad (allZero (slice b (o + 0xA608) 56)) 0xA608

end Sys2Proof.Machine
end

