-- ==== Sys2Proof/Machine/Operands.lean ====
section
/-! DEFINITION. Data formats as operands: ranges, packing of runs, roles, scale words (R93 to R106). -/

namespace Sys2Proof.Machine

/-- Least and greatest element of a format; C4 and C8 hold indices (Table Formats-1). -/
def fmtLo (f : Nat) : Int :=
  match f with
  | 0 => -1 | 1 => -8 | 2 => -128 | 7 => -32768 | 8 => -2147483648 | _ => 0
def fmtHi (f : Nat) : Int :=
  match f with
  | 0 => 1 | 1 => 7 | 2 => 127 | 3 => 255 | 4 => 1023 | 5 => 4095 | 6 => 65535 | 7 => 32767 | 8 => 2147483647
  | 9 => 15 | _ => 255

/-- A format code that is not reserved (R94). -/
def fmtOk (f : Nat) : Bool := decide (f ≤ 0xA)
/-- U8, U10 and U12 may carry a zero point (R110). -/
def fmtZp (f : Nat) : Bool := f == 3 || f == 4 || f == 5
/-- Bits an element takes in the stream. -/
def elemBits (f : Nat) : Nat := match f with | 0 => 2 | 1 => 4 | 9 => 4 | 2 => 8 | 3 => 8 | 0xA => 8 | 4 => 10 | 8 => 32 | _ => 16

/-- Roles of Table Formats-3. -/
def roleWeight (f : Nat) : Bool := [0, 1, 2, 7, 9, 0xA].contains f
def roleAct (f : Nat) : Bool := [2, 3, 4, 5, 6, 7, 9, 0xA].contains f
def roleTarget (f : Nat) : Bool := [2, 3, 4, 5, 6, 7, 8, 9, 0xA].contains f
def roleVector (f : Nat) : Bool := fmtOk f

/-- The code of element `i` of a packed run, without its sign (R97). -/
def elemCode (f : Nat) (bs : Bytes) (i : Nat) : Nat :=
  match f with
  | 0 => bits (u8 bs (i / 4)) (2 * (i % 4)) 2
  | 1 => bits (u8 bs (i / 2)) (4 * (i % 2)) 4
  | 9 => bits (u8 bs (i / 2)) (4 * (i % 2)) 4
  | 4 => bits (u32 bs (4 * (i / 3))) (10 * (i % 3)) 10
  | 5 => u16 bs (2 * i) % 4096
  | 6 => u16 bs (2 * i)
  | 7 => u16 bs (2 * i)
  | 8 => u32 bs (4 * i)
  | _ => u8 bs i

/-- The element that a code stands for; T2 code 0b10 decodes as 0 (R95). -/
def elemOf (f code : Nat) : Int :=
  match f with
  | 0 => if code = 1 then 1 else if code = 3 then -1 else 0
  | 1 => toS 4 code
  | 2 => toS 8 code
  | 7 => toS 16 code
  | 8 => toS 32 code
  | _ => code

/-- Element `i` of a packed run. -/
def elemAt (f : Nat) (bs : Bytes) (i : Nat) : Int := elemOf f (elemCode f bs i)

/-- The code that stores an element. -/
def codeOf (f : Nat) (v : Int) : Nat :=
  match f with
  | 0 => if v = 1 then 1 else if v = -1 then 3 else 0
  | 1 => ofS 4 v
  | 9 => ofS 4 v
  | 4 => ofS 10 v
  | 5 => ofS 12 v
  | 6 => ofS 16 v
  | 7 => ofS 16 v
  | 8 => ofS 32 v
  | _ => ofS 8 v

/-- Elements in one word of a run (R97). -/
def perWord (f : Nat) : Nat := if f = 4 then 3 else 32 / elemBits f

/-- A run of codes packed; unused fields of its last word are zero (R97, R98). -/
def packCodes (f : Nat) (l : List Nat) : Bytes :=
  (List.range (cdiv l.length (perWord f))).flatMap (fun w =>
    le 4 ((List.range (perWord f)).map (fun j => l.getD (perWord f * w + j) 0 % 2 ^ elemBits f * 2 ^ (elemBits f * j))).sum)

/-- A run of elements packed. -/
def packRun (f : Nat) (l : List Int) : Bytes := packCodes f (l.map (codeOf f))

/-- A run of `n` elements in a place for `full`, rebuilt with the elements `l` (position and value) replaced: every unused field is
written as zero (R98, R214). -/
def runPut (f full n : Nat) (bs : Bytes) (l : List (Nat × Int)) : Bytes :=
  packCodes f (l.foldl (fun cs v => cs.set v.1 (codeOf f v.2))
    ((List.range full).map (fun i => if i < n then elemCode f bs i else 0)))

/-- The first `n` elements of a packed run. -/
def unpackRun (f : Nat) (bs : Bytes) (n : Nat) : List Int := (List.range n).map (elemAt f bs)

/-! ## Scale words (R105, R106) -/

def scaleM (w : Nat) : Nat := w % 65536
def scaleE (w : Nat) : Int := toS 8 (w / 65536)
/-- A multiplier that is normalised or zero. -/
def scaleOk (w : Nat) : Bool := scaleM w == 0 || decide (0x8000 ≤ scaleM w)
def scaleWord (m : Nat) (e : Int) : Nat := m % 65536 + ofS 8 e * 65536
def scaleIdentity : Nat := 0x8000

/-- `round_half_even(x, n)` for any `n`: a left shift when `n` is not positive (R104). -/
def rheZ (x : Int) (n : Int) : Int := if n ≤ 0 then x * 2 ^ (-n).toNat else rhe x n.toNat

end Sys2Proof.Machine
end

