-- ==== Sys2Proof/Machine/Ring.lean ====
section
/-! DEFINITION. Rings: ADD, SET, waits, kinds, frame bases, and the host's Ring commands (R239 to R247, R264,
R432). -/

namespace Sys2Proof.Machine

def ringVal (d : Dev) (r : Nat) : Nat := (d.ring.val.get 0 r).toNat
/-- A value put into a Ring. -/
def ringPut (d : Dev) (r v : Nat) : Dev := { d with ring := { d.ring with val := d.ring.val.put 0 r (BitVec.ofNat 32 v) } }
/-- ADD v, modulo 2^32 (R239). -/
def ringInc (d : Dev) (r v : Nat) : Dev := ringPut d r (ringVal d r + v)

/-- The Graft that declares a Ring for the host: in force, or outgoing until it is released (R291). -/
def declaredIn (d : Dev) (r : Nat) : Option Bytes :=
  if (ringDecl (img0 d) r).isSome then some (img0 d)
  else if fld d graftSpace1 = 5 && (ringDecl (img1 d) r).isSome then some (img1 d) else none

/-- RING_KIND (R241): 0 unused, 1 HW, 2 FRAME, 3 FREE. -/
def ringKind (d : Dev) (r : Nat) : Nat :=
  if r < 0x400 then 1
  else match declaredIn d r with
    | some b => match ringDecl b r with | some e => e.kind | none => 0
    | none => if d.ring.held.contains r then 3 else 0

/-- The Ring is the valid-Ring of a history tensor (R259). -/
def isValidRing (d : Dev) (r : Nat) : Bool :=
  match declaredIn d r with | some b => (validRingOf b r).isSome | none => false

/-- A host ADD or SET may reach the Ring (R241, R259, R432). -/
def hostMayWrite (d : Dev) (r : Nat) : Bool :=
  !isValidRing d r &&
  match ringKind d r with
  | 3 => true
  | 2 => match declaredIn d r with
    | some b => match ringDecl b r with | some e => e.host | none => false
    | none => false
  | _ => false

/-! ## Frame bases (R243, R244, R550) -/

/-- Latch the base of key frame `fn` of a HW Ring at its present value; the 16 latest are kept. -/
def latchBase (d : Dev) (r fn : Nat) : Dev :=
  let l := (fn, ringVal d r) :: d.ring.base.get [] r
  { d with ring := { d.ring with base := d.ring.base.put [] r (l.take 16) } }

/-- Base of frame `fn` of a FRAME Ring. -/
def frameBase (d : Dev) (r fn : Nat) : Option Nat := ((d.ring.fbase.get [] r).find? (fun e => e.1 == fn)).map (·.2)

/-- Base of the latest key frame that has opened, `fn`: the audit may have set one for the frame to come (R247). -/
def openedBase (d : Dev) (r fn : Nat) : Option Nat := ((d.ring.fbase.get [] r).find? (fun e => !later e.1 fn)).map (·.2)

def setFrameBase (d : Dev) (r fn v : Nat) : Dev :=
  let l := (fn, v) :: (d.ring.fbase.get [] r).filter (fun e => e.1 != fn)
  { d with ring := { d.ring with fbase := d.ring.fbase.put [] r (l.take 16) } }

/-- Base of HW Ring `r` at key frame `fn` (R550): the latched base; met at once when older than those kept; not yet met
when still to come. -/
inductive BaseAt where
  | at (b : Nat)
  | past
  | future
  deriving DecidableEq, Repr

def hwBase (d : Dev) (r fn : Nat) : BaseAt :=
  let l := d.ring.base.get [] r
  match l.find? (fun e => e.1 == fn) with
  | some e => .at e.2
  | none => match l.head? with
    | some e => if later e.1 fn then .past else .future
    | none => .future

/-- HW Rings that latch a frame base (Table Sched-1). -/
def hwHasBase (r : Nat) : Bool := [0x0, 0x2, 0x11, 0x12, 0x20, 0x22].contains r

/-! ## Waiters (R239, R264) -/

/-- Host waits on a Ring that are not satisfied. -/
def hostWaiters (d : Dev) (r : Nat) : Nat :=
  (d.usb.waits.filter (fun w => w.ring == r && !waitGe (ringVal d r) w.target)).length

/-! ## The output raster's key frames (R276) -/

/-- ISTEP of the cadence entry of an output frame. -/
def cadStep (d : Dev) (ofn : Nat) : Nat :=
  bits (cadEntry (img0 d) (sub32 ofn (kOfGraft d) % max 1 (gCadLen (img0 d)))) 4 2

/-- Input frame of CAD_PORT that the cadence maps output frame `ofn` to (R276): as kept for the frames opened, by the
steps of the entries for later ones. -/
def cadMap (d : Dev) (ofn : Nat) : Nat :=
  match d.stem.cad.find? (fun e => e.1 == ofn) with
  | some e => e.2
  | none => match d.stem.cad.head?, d.stem.cad.getLast? with
    | some e, some o =>
      if later ofn e.1 then
        add32 e.2 (((List.range (min 64 (sub32 ofn e.1))).map (fun j => cadStep d (add32 e.1 (j + 1)))).sum)
      else o.2
    | _, _ => 0

/-- Writer pipeline of an output frame: 15 for an understory frame (R41, R276, R295). -/
def cadWriter (d : Dev) (ofn : Nat) : Nat :=
  match d.root.space0 with
  | none => 15
  | some g =>
    if later g.k ofn then 15
    else bits (cadEntry g.img (sub32 ofn g.k % max 1 (gCadLen g.img))) 0 4

/-! ## Output frame records -/

def OutFrame.new (n : Nat) : OutFrame :=
  { ofn := n, writer := 16, src := n, segs := [], subs := [], judged := [], late := 0, fill := 0, subN := 0, und := [],
    ext := none, ovr := false, sat := 0 }

/-- The record of output frame `n`. -/
def outFrame (d : Dev) (n : Nat) : OutFrame :=
  match d.ras.frames.find? (fun f => f.ofn == n) with | some f => f | none => OutFrame.new n

/-- The record of a frame replaced; the six latest are kept. -/
def setOut (d : Dev) (f : OutFrame) : Dev :=
  { d with ras := { d.ras with frames := (f :: d.ras.frames.filter (fun x => x.ofn != f.ofn)).take 6 } }

/-- A mark of an input frame on the record of output frame `n` that the frame feeds (R236, R237): pipeline, frame, output extent, and
whether rows are shown from the Understory. -/
def applyMark (d : Dev) (n : Nat) (m : Nat × Nat × Option (Nat × Nat) × Bool) : OutFrame :=
  let f := outFrame d n
  { f with ext := if m.2.2.1.isSome && cadWriter d n = m.1 then m.2.2.1 else f.ext, ovr := f.ovr || m.2.2.2 }

/-- Key of a pipeline: a port, the output, a camera context, or free-running (Table Sched-6). -/
def writerKey (d : Dev) (n : Nat) : Nat := if cadWriter d n ≤ 3 then pKey (img0 d) (cadWriter d n) else 2

/-- The record of output frame `n`, which input frame `i` of CAD_PORT feeds: the slot it shows, and the marks of that frame. -/
def newOutput (d : Dev) (n i : Nat) : Dev :=
  let d := setOut d { outFrame d n with src := if writerKey d n = gCadPort (img0 d) then i else n }
  (d.stem.marks.filter (fun m => m.2.1 == i)).reverse.foldl (fun d m => setOut d (applyMark d n m)) d

/-- Output frame `ofn` opens: its mapping follows from the frame before it, or restarts after a source change (R276, R312). -/
def cadOpen (d : Dev) (ofn : Nat) : Dev :=
  let keep (i : Nat) (re : Option (Nat × Option Nat)) : Dev :=
    newOutput { d with stem := { d.stem with cad := ((ofn, i) :: d.stem.cad).take 16, cadRe := re } } ofn i
  match d.stem.cadRe with
  | some (_, some i) => keep i none
  | some (c, none) => keep c (some (c, none))
  | none => match d.stem.cad.head? with
    | some e => keep (add32 e.2 (cadStep d ofn)) none
    | none => d

/-! ## Host commands on Rings (R432) -/

def amountOk (a : Nat) : Bool := 1 ≤ a && a ≤ 0x7FFFFFFF

/-- RING_ADD: BAD_ARG, or the amount is added (R240, R241, R432). -/
def hostRingAdd (r a key : Nat) (d : Dev) : Dev :=
  if hostMayWrite d r && amountOk a then complete (ringInc d r a) key stOk [] else complete d key stBadArg []

/-- RING_SET: BAD_ARG; BUSY with a waiter; or the value is written (R240, R432). `waiters` counts the Ring's waiters. -/
def hostRingSet (waiters : Dev → Nat → Nat) (r v key : Nat) (d : Dev) : Dev :=
  if !hostMayWrite d r then complete d key stBadArg []
  else if waiters d r != 0 then complete d key stBusy []
  else complete (ringPut d r v) key stOk []

def execRingAdd (h : Hdr) (ring : BitVec 16) (amount : Word) (s : State) : Out :=
  onDev s (request (.ringAdd h ring amount) h 0 0x11 (decide (h.length = 8))
    (hostRingAdd ring.toNat amount.toNat))

/-- A host wait is registered; it completes in its own time, at once when it is already met. A wait on a Ring that
the host may not name is BAD_ARG. -/
def hostRingWait (r t ms key : Nat) (d : Dev) : Dev :=
  if ringKind d r = 0 || isValidRing d r then complete d key stBadArg []
  else if waitGe (ringVal d r) t then complete d key stOk (le 4 (ringVal d r))
  else
    let dl := if ms = 0 then none else some (d.devTime.toNat + ms * 1000000)
    { d with usb := { d.usb with waits := d.usb.waits ++ [{ tag := key, ring := r, target := t, deadline := dl }] } }

def execRingWait (h : Hdr) (ring : BitVec 16) (target : Word) (ms : Nat) (s : State) : Out :=
  onDev s (request (.ringWait h ring target ms) h 2 0x13 (decide (h.length = 12))
    (hostRingWait ring.toNat target.toNat ms))

def dropWait (d : Dev) (key : Nat) : Dev :=
  { d with usb := { d.usb with waits := d.usb.waits.filter (fun w => w.tag != key) } }

/-- RING_WAIT_MET: the wait completes OK with the value that met it. -/
def ringWaitMetOp (tag : BitVec 16) (d : Dev) : Dev :=
  match d.usb.waits.find? (fun w => w.tag == tagKey d tag) with
  | none => d
  | some w =>
    if waitGe (ringVal d w.ring) w.target then complete (dropWait d w.tag) w.tag stOk (le 4 (ringVal d w.ring)) else d

def execRingWaitMet (tag : BitVec 16) (s : State) : Out := onDev s (ringWaitMetOp tag)

/-- RING_WAIT_TIMEOUT: TIMEOUT ms of DEV_TIME have passed, or the Ring is no longer there (R432). -/
def ringWaitTimeoutOp (tag : BitVec 16) (d : Dev) : Dev :=
  match d.usb.waits.find? (fun w => w.tag == tagKey d tag) with
  | none => d
  | some w =>
    let due := match w.deadline with | some t => decide (t ≤ d.devTime.toNat) | none => false
    if due || ringKind d w.ring == 0 then complete (dropWait d w.tag) w.tag stTimeout [] else d

def execRingWaitTimeout (tag : BitVec 16) (s : State) : Out := onDev s (ringWaitTimeoutOp tag)

/-- Neither Graft space declares the number and the host does not hold it (R432). -/
def ringFreeNumber (d : Dev) (r : Nat) : Bool :=
  (ringDecl (img0 d) r).isNone && (ringDecl (img1 d) r).isNone && !d.ring.held.contains r

/-- RING_ALLOC: the lowest free number from 0x0400 up, as a FREE Ring with value 0. -/
def hostRingAlloc (key : Nat) (d : Dev) : Dev :=
  if 256 ≤ d.ring.held.length then complete d key stNoResource []
  else match (List.range 0xFC00).find? (fun i => ringFreeNumber d (0x400 + i)) with
    | none => complete d key stNoResource []
    | some i =>
      let r := 0x400 + i
      let d := ringPut { d with ring := { d.ring with held := d.ring.held ++ [r] } } r 0
      complete d key stOk (le 2 r)

def execRingAlloc (h : Hdr) (s : State) : Out :=
  onDev s (request (.ringAlloc h) h 0 0x14 (decide (h.length = 0)) hostRingAlloc)

/-- RING_FREE: BAD_ARG when not held, BUSY with a waiter. A freed Ring reads zero. -/
def hostRingFree (waiters : Dev → Nat → Nat) (r key : Nat) (d : Dev) : Dev :=
  if !d.ring.held.contains r then complete d key stBadArg []
  else if waiters d r != 0 then complete d key stBusy []
  else
    let d := ringPut { d with ring := { d.ring with held := d.ring.held.filter (· != r) } } r 0
    complete d key stOk []

end Sys2Proof.Machine
end

