-- ==== Sys2Proof/Machine/Trunk.lean ====
section
/-! DEFINITION. The Trunk: page books, map entries, allocation, release, eviction, demand fetch, staging, line ring
credits, scrub (R62 to R92). -/

namespace Sys2Proof.Machine

/-! ## Books (R85): each transition moves the counts and keeps their sum -/

inductive Book where
  | free | alloc | transit | retired
  deriving DecidableEq, Repr

def bookGet (b : Books) : Book → Nat
  | .free => b.free | .alloc => b.alloc | .transit => b.transit | .retired => b.retired

def bookSet (b : Books) (k : Book) (v : Nat) : Books :=
  match k with
  | .free => { b with free := v } | .alloc => { b with alloc := v }
  | .transit => { b with transit := v } | .retired => { b with retired := v }

/-- `n` pages move from one count to another (Table Trunk-6), if there are as many. -/
def bookMove (b : Books) (src dst : Book) (n : Nat) : Books :=
  if n ≤ bookGet b src then
    let b1 := bookSet b src (bookGet b src - n)
    bookSet b1 dst (bookGet b1 dst + n)
  else b

def bookSum (b : Books) : Nat := b.free + b.alloc + b.transit + b.retired

def moveBooks (d : Dev) (src dst : Book) (n : Nat) : Dev :=
  { d with trk := { d.trk with books := bookMove d.trk.books src dst n } }

/-! ## Map entries (R67) -/

/-- An entry of a virtual page that nothing has written. -/
def Page.none : Page :=
  { lpn := 0, bpn := 0, loc := 0, cls := 0, dirty := false, hasBack := false, staged := false, unread := false, readers := 0,
    stamp := 0, mask := 0, move := 0 }

/-- A page of a buffer that carried over belongs to space 0, whichever Graft names it (R292). -/
def carried (d : Dev) (sp v : Nat) : Nat × Nat :=
  if sp = 0 then (0, v)
  else match d.trk.carry.find? (fun c => decide (c.1 ≤ v ∧ v < c.1 + c.2.1)) with
    | some c => (0, c.2.2 + (v - c.1))
    | none => (1, v)

def pageAt (d : Dev) (sp v : Nat) : Page :=
  let r := carried d sp v
  (if r.1 = 0 then d.trk.map0 else d.trk.map1).get Page.none r.2

def setPage (d : Dev) (sp v : Nat) (p : Page) : Dev :=
  let r := carried d sp v
  let v := r.2
  if r.1 = 0 then { d with trk := { d.trk with map0 := d.trk.map0.put Page.none v p } }
  else { d with trk := { d.trk with map1 := d.trk.map1.put Page.none v p } }

def imgSp (d : Dev) (sp : Nat) : Bytes := if sp = 0 then img0 d else img1 d
def spillOf (d : Dev) (sp : Nat) : Nat × Nat := if sp = 0 then d.trk.spill0 else d.trk.spill1

def setUsed (d : Dev) (lpn code : Nat) : Dev := { d with trk := { d.trk with used := d.trk.used.put 0 lpn code } }

/-- Pages of a bank group that hold something (R64, R91). -/
def groupUsed (d : Dev) (g : Nat) : Nat :=
  (if g = 0 then 64 else 0) + (d.trk.used.filter (fun e => e.1 / 512 == g)).length
/-- Free pages of a group: those of a bank under copy left the pool when its copy began (R88, R91). -/
def groupFree (d : Dev) (g : Nat) : Nat := 512 - groupUsed d g - (d.trk.copyFree.filter (fun l => l / 512 == g)).length
def bankUsed (d : Dev) (b : Nat) : Nat := (d.trk.used.filter (fun e => e.1 / 128 == b)).length

/-- Root region, understory ring and Stump reserve are never given to a Graft (R64). -/
def reservedLpn (lpn : Nat) : Bool := lpn < 244

/-- A bank whose free pages left the pool for a copy (R88). -/
def copying (d : Dev) (bank : Nat) : Bool := flag d copyActive && fld d copySrc == bank

/-- A free logical page of a bank, the lowest (R70). None of a bank under copy, not even one freed since its copy began (DESIGN CHOICE,
log entry 77). -/
def freeInBank (d : Dev) (bank : Nat) : Option Nat :=
  if copying d bank then none
  else ((List.range 128).map (fun i => bank * 128 + i)).find? (fun l => !reservedLpn l && d.trk.used.get 0 l == 0)

/-- The bank with the fewest allocated pages among the groups that has a free page; ties to the lower bank. -/
def pickPage (d : Dev) (groups : Nat) : Option Nat :=
  let cand := (List.range 64).filterMap (fun b =>
    if groups.testBit (b / 4) && !fenced d (0x20 + b / 4) then (freeInBank d b).map (fun l => (bankUsed d b, l)) else none)
  match cand with
  | [] => none
  | c :: cs => some (cs.foldl (fun best x => if x.1 < best.1 then x else best) c).2

/-- A free page from the pipeline's own groups, then from shared ones (R70). -/
def pickFor (d : Dev) (b : Bytes) (pipe : Nat) : Option Nat :=
  match pickPage d (pGroups b pipe) with
  | some l => some l
  | none => pickPage d (gShared b)

/-- Bank groups a demand of the pipeline draws on. -/
def demandGroups (b : Bytes) (pipe : Nat) : Nat := pGroups b pipe ||| gShared b

/-- Home group of a pipeline (R92). -/
def homeGroup (b : Bytes) (pipe : Nat) : Nat :=
  match lowest 16 (fun g => (pGroups b pipe).testBit g) with
  | some g => g
  | none => (lowest 16 (fun g => (gShared b).testBit g)).getD 0

/-! ## Freeing and eviction (R72, R77, R80) -/

/-- A logical page leaves `src` and returns to the pool; during a bank copy that has not reached it, one spare page
leaves transit too (Table Trunk-6). -/
def freeLpn (d : Dev) (src : Book) (lpn : Nat) : Dev :=
  let d := setUsed (moveBooks d src .free 1) lpn 0
  if d.trk.copyHeld.contains lpn then
    let d := moveBooks d .transit .retired 1
    { d with trk := { d.trk with copyHeld := d.trk.copyHeld.erase lpn } }
  else d

/-- A logical page is taken for use `code`, and its count moves to `dst`; a page of the bank under copy that left the pool with it
comes out of transit. -/
def takeLpn (d : Dev) (dst : Book) (lpn code : Nat) : Dev :=
  if d.trk.copyFree.contains lpn then
    let d := moveBooks d .transit dst 1
    setUsed { d with trk := { d.trk with copyFree := d.trk.copyFree.erase lpn } } lpn code
  else setUsed (moveBooks d .free dst 1) lpn code

/-- Drop a page: its logical page returns to the pool, its backing page to the spill pool. -/
def freePage (d : Dev) (sp v : Nat) : Dev :=
  let p := pageAt d sp v
  let d := if p.unread then bump d aStageWaste 1 else d
  let d := if p.loc = 1 then freeLpn d .alloc p.lpn
           else if p.loc = 3 then freeLpn d .transit p.lpn else d
  setPage d sp v Page.none

/-- Ticks since the page was last used; more than 0x7FFF counts as older than every page that is not (R76). -/
def pageAge (d : Dev) (p : Page) : Nat := (d.trk.stamp + 65536 - p.stamp % 65536) % 65536

/-- A backing page of the spill pool that no page holds. -/
def freeBacking (d : Dev) (sp : Nat) : Option Nat :=
  let (base, n) := spillOf d sp
  let m := if sp = 0 then d.trk.map0 else d.trk.map1
  ((List.range n).map (base + ·)).find? (fun b => !(m.any (fun e => e.2.hasBack && e.2.bpn == b)))

/-- The page that eviction chooses among the groups, with its space (R77): oldest SPILLABLE, else oldest PREFERRED, ties to the
lower LPN, of both Grafts (R293); staged pages are passed over; a page whose Graft has an empty spill pool only when it has a backing
page. A fenced group keeps its pages (R90). -/
def evictChoice (d : Dev) (groups : Nat) (skip : Option (Nat × Nat)) : Option (Nat × Nat) :=
  let ok (sp cls : Nat) : List ((Nat × Nat) × Page) :=
    let pool := (freeBacking d sp).isSome
    ((if sp = 0 then d.trk.map0 else d.trk.map1).filter (fun e => e.2.loc == 1 && e.2.cls == cls && !e.2.staged && skip != some (sp, e.1) &&
      groups.testBit (e.2.lpn / 512) && !fenced d (0x20 + e.2.lpn / 512) && (e.2.hasBack || pool))).map (fun e => ((sp, e.1), e.2))
  let best (l : List ((Nat × Nat) × Page)) : Option (Nat × Nat) := match l with
    | [] => none
    | c :: cs => some (cs.foldl (fun x y =>
        if pageAge d y.2 > pageAge d x.2 || (pageAge d y.2 == pageAge d x.2 && y.2.lpn < x.2.lpn) then y else x) c).1
  match best (ok 0 3 ++ ok 1 3) with
  | some e => some e
  | none => best (ok 0 1 ++ ok 1 1)

/-- A page has been evicted: it counts, as waste too when it was staged and never read (R80, R91). -/
def countEvicted (p : Page) (d : Dev) : Dev :=
  let d := bump d aEvict 1
  if p.unread then bump d aStageWaste 1 else d

/-- Evict one page (R77): a clean one is free at once, a dirty one starts its write to the backing page. -/
def evictPage (d : Dev) (sp v : Nat) : Dev :=
  let p := pageAt d sp v
  if !p.dirty && p.hasBack then
    setPage (freeLpn (countEvicted p d) .alloc p.lpn) sp v { p with loc := 2, unread := false }
  else
    let bpn := if p.hasBack then p.bpn else (freeBacking d sp).getD 0
    setPage (moveBooks d .alloc .transit 1) sp v { p with loc := 3, move := 1, hasBack := true, bpn }

/-- Free pages in the groups of a demand. -/
def freeIn (d : Dev) (groups : Nat) : Nat :=
  ((List.range 16).map (fun g => if groups.testBit g then groupFree d g else 0)).sum

/-- Pages in the groups whose eviction is in flight. -/
def leaving (d : Dev) (groups : Nat) : Nat :=
  ((d.trk.map0 ++ d.trk.map1).filter (fun e => e.2.loc == 3 && e.2.move == 1 && groups.testBit (e.2.lpn / 512))).length

/-- Eviction starts below WATERMARK and stops at WATERMARK + 16 (R76). A page on its way out counts as free (DEDUCED,
log entry 26). `skip` is the page that the demand is about to write, whose access would cancel the eviction (R81). -/
def watermark (d : Dev) (groups : Nat) (skip : Option (Nat × Nat)) : Dev :=
  let n := freeIn d groups + leaving d groups
  if n < fld d trkWatermark then
    (List.range (fld d trkWatermark + 16 - n)).foldl (fun d _ =>
      match evictChoice d groups skip with
      | some e => evictPage d e.1 e.2
      | none => d) d
  else d

/-- The watermark of every pipeline of the Graft in force (R76). -/
def watermarks (d : Dev) : Dev :=
  if hasGraft d then (pipesOf (img0 d)).foldl (fun d p => watermark d (demandGroups (img0 d) p) none) d else d

/-! ## Stalls (R78) -/

/-- Who reads or writes: space, pipeline and frame, the unit that asks and the task it works for; `host` for accesses that find the
page wherever it lies. -/
structure Who where
  sp   : Nat
  pipe : Nat
  pfn  : Nat
  unit : Nat
  task : Nat
  host : Bool
  deriving DecidableEq, Repr

def Stall.of (w : Who) (x : Stall) : Bool := x.unit == w.unit && x.task == w.task && x.pfn == w.pfn && x.sp == w.sp

/-- Time since an instant, in fc of 1 ns. -/
def sinceT (d : Dev) (t : Nat) : Nat := d.devTime.toNat - t

/-- An access waits for page `v`: the stall is counted once, however often the access is tried again (R78). -/
def stallOn (d : Dev) (w : Who) (v : Nat) : Dev :=
  let now := d.devTime.toNat
  let close (x : Stall) : Nat := x.total + match x.since with | some s => now - s.2 | none => 0
  match d.trk.stalls.find? (Stall.of w) with
  | none =>
    let x : Stall := { unit := w.unit, task := w.task, pfn := w.pfn, sp := w.sp, groups := demandGroups (imgSp d w.sp) w.pipe, since := some (v, now), total := 0 }
    bump { d with trk := { d.trk with stalls := d.trk.stalls ++ [x] } } aStalls 1
  | some x =>
    if (match x.since with | some s => s.1 == v | none => false) then d
    else bump { d with trk := { d.trk with stalls := d.trk.stalls.map (fun y => if Stall.of w y then { y with since := some (v, now), total := close y } else y) } } aStalls 1

/-- The access goes on: its stall on the page ends. -/
def stallEnd (d : Dev) (w : Who) (v : Nat) : Dev :=
  if d.trk.stalls.isEmpty then d
  else { d with trk := { d.trk with stalls := d.trk.stalls.map (fun y => match y.since with
    | some s => if Stall.of w y && s.1 == v then { y with since := none, total := y.total + sinceT d s.2 } else y
    | none => y) } }

/-- Time that the units working for a task and frame have stalled, and the longest stall still open. -/
def stallTime (d : Dev) (task pfn sp : Nat) : Nat × Nat :=
  let l := d.trk.stalls.filter (fun x => x.task == task && x.pfn == pfn && x.sp == sp)
  let run (x : Stall) : Nat := match x.since with | some s => sinceT d s.2 | none => 0
  ((l.map (fun x => x.total + run x)).sum, (l.map run).foldl max 0)

/-- No stall of a task that has ended is kept. -/
def dropStalls (d : Dev) (task pfn sp : Nat) : Dev :=
  { d with trk := { d.trk with stalls := d.trk.stalls.filter (fun x => !(x.task == task && x.pfn == pfn && x.sp == sp)) } }

/-- Stalled accesses of the groups that wait for a page to be had, those of `w` on page `v` apart. -/
def waiting (d : Dev) (w : Who) (v groups : Nat) : Nat :=
  (d.trk.stalls.filter (fun x => x.groups &&& groups != 0 && match x.since with
    | some s => !(Stall.of w x && s.1 == v) && (let l := (pageAt d x.sp s.1).loc; l == 0 || l == 2)
    | none => false)).length

/-- A free page for a first write or a fetch (R70, R76): with none free, one page is evicted at once for each access that waits. -/
def demandPage (d : Dev) (w : Who) (v : Nat) : Dev × Option Nat :=
  let b := imgSp d w.sp
  let gs := demandGroups b w.pipe
  match pickFor d b w.pipe with
  | some l => (d, some l)
  | none =>
    if leaving d gs ≤ waiting d w v gs then
      match evictChoice d gs none with
      | none => (d, none)
      | some e => let d := evictPage d e.1 e.2; (d, pickFor d b w.pipe)
    else (d, none)

/-! ## Demand fetch and staging (R78, R79) -/

/-- A fetch begins: a page is allocated and LOC is 3; false when no page is to be had yet. -/
def startFetch (d : Dev) (w : Who) (v : Nat) : Dev × Bool :=
  match demandPage d w v with
  | (d, none) => (d, false)
  | (d, some l) =>
    (watermark (setPage (takeLpn d .transit l (w.sp + 1)) w.sp v { pageAt d w.sp v with loc := 3, move := 2, lpn := l })
      (demandGroups (imgSp d w.sp) w.pipe) (some (w.sp, v)), true)

/-- A staging request of Stem `s` for a task's page. -/
def Who.staging (d : Dev) (s task : Nat) : Who :=
  { sp := 0, pipe := kPipe (img0 d) task, pfn := 0, unit := 4 + s, task := 4096 + task, host := false }

/-- Serve the staging queue in its order, within STAGE_MAX pages in transit per Stem (R79). A request that finds no page waits, and
those behind it of its Stem. -/
def serveStaging (d : Dev) : Dev :=
  (d.trk.stageQ.foldl (fun (acc : Dev × List Nat) e =>
    let (d, held) := acc
    let drop (d : Dev) : Dev := { d with trk := { d.trk with stageQ := d.trk.stageQ.erase e } }
    if held.contains e.1 then acc
    else if (pageAt d 0 e.2.2).loc ≠ 2 then (drop (stallEnd d (Who.staging d e.1 e.2.1) e.2.2), held)
    else if fld d trkStageMax ≤ (d.trk.staging.filter (fun x => x.1 == e.1)).length then (d, e.1 :: held)
    else
      let w := Who.staging d e.1 e.2.1
      match startFetch d w e.2.2 with
      | (d, true) =>
        let d := drop (stallEnd d w e.2.2)
        let d := setPage d 0 e.2.2 { pageAt d 0 e.2.2 with staged := true, unread := true }
        ({ d with trk := { d.trk with staging := d.trk.staging ++ [e] } }, held)
      | (d, false) => (stallOn d w e.2.2, e.1 :: held)) (d, [])).1

/-- EVICTION_WRITE_DONE: the backing copy is written, LOC becomes 2 and the page is free (R77). -/
def evictionWriteDoneOp (sp v : Nat) (d : Dev) : Dev :=
  let p := pageAt d sp v
  if p.loc = 3 && p.move = 1 then
    let d := writeLp6 d (p.bpn * 0x10000) (readMem d (lpnAddr p.lpn 0) 0x10000)
    serveStaging (setPage (freeLpn (countEvicted p d) .transit p.lpn) sp v { p with loc := 2, move := 0, dirty := false, unread := false })
  else d

def execEvictionWriteDone (space : Fin 2) (vpn : Nat) (s : State) : Out := onDev s (evictionWriteDoneOp space.val vpn)

/-- PAGE_FETCH_DONE: the bytes of the backing page are in the Trunk and LOC is 1 (R78). -/
def pageFetchDoneOp (sp v : Nat) (d : Dev) : Dev :=
  let p := pageAt d sp v
  if p.loc = 3 && p.move = 2 then
    let d := writeMem d (lpnAddr p.lpn 0) (readMem d (lp6Base + p.bpn * 0x10000) 0x10000)
    let d := { d with trk := { d.trk with staging := d.trk.staging.filter (fun e => e.2.2 != v + sp * 2 ^ 18) } }
    serveStaging (setPage (moveBooks d .transit .alloc 1) sp v { p with loc := 1, move := 0, dirty := false, stamp := d.trk.stamp })
  else d

/-- Tasks whose demand for page `v` of space `sp` waits: task, frame, outgoing. -/
def demanders (d : Dev) (sp v : Nat) : List (Nat × Nat × Bool) :=
  (d.trk.stalls.filter (fun x => x.sp == sp && decide (x.task < 4096) && (match x.since with | some s => s.1 == v | none => false))).map
    (fun x => (x.task, x.pfn, x.sp == 1))

/-- A Stem's staging request for a task: its input pages that are in LPDDR6 only (R79). -/
def stageTask (d : Dev) (stem task : Nat) : Dev :=
  let b := img0 d
  let vs := (kIns b task).flatMap (fun t => ((List.range (tPages b t)).map (tVpn b t + ·)).filter (fun v => (pageAt d 0 v).loc == 2))
  serveStaging { d with trk := { d.trk with stageQ := d.trk.stageQ ++ vs.map (fun v => (stem, task, v)) } }

/-- STAGED is cleared when the task runs, is fenced, or its Graft leaves force (R80). -/
def unstage (d : Dev) (task : Nat) : Dev :=
  let b := img0 d
  let vs := (kIns b task).flatMap (fun t => (List.range (tPages b t)).map (tVpn b t + ·))
  vs.foldl (fun d v => let p := pageAt d 0 v; if p.staged then setPage d 0 v { p with staged := false } else d) d

/-- STAMP_TICK: the tick of last access advances, and free pages found below the watermark start eviction (R76; the
cycle in which the engine looks is a DESIGN CHOICE, log entry 26). -/
def stampTickOp (d : Dev) : Dev := watermarks { d with trk := { d.trk with stamp := (d.trk.stamp + 1) % 65536 } }
def execStampTick (s : State) : Out := onDev s stampTickOp

/-! ## Accesses through the map (R70, R71, R78, R81) -/

/-- Parts of a range that lie in one page each: page, offset, length. -/
def pageParts : Nat → Nat → Nat → List (Nat × Nat × Nat)
  | 0, _, _ => []
  | fuel + 1, a, n =>
    if n = 0 then []
    else
      let o := a % 0x10000
      let m := min n (0x10000 - o)
      (a / 0x10000, o, m) :: pageParts fuel (a + m) (n - m)

def partsOf (a n : Nat) : List (Nat × Nat × Nat) := pageParts (n / 0x10000 + 2) a n

/-- An access that meets an eviction in flight cancels it (R81). Its LPDDR6 write is taken as not yet begun: the backing page keeps its
bytes (DESIGN CHOICE, log entry 78). -/
def cancelEvict (d : Dev) (sp v : Nat) : Dev :=
  let p := pageAt d sp v
  if p.loc = 3 && p.move = 1 then setPage (moveBooks d .transit .alloc 1) sp v { p with loc := 1, move := 0 } else d

/-- TRUNK_UNWRITTEN_READ, once per tensor, pipeline and frame, for a task's read (R71, R92). -/
def unwrittenEvent (d : Dev) (w : Who) (v : Nat) : Dev :=
  let b := imgSp d w.sp
  let key := ((tensorOf b v).getD 4096 + 65536 * w.sp, w.pipe, w.pfn)
  if w.host || 8192 ≤ w.task || d.trk.unwr.contains key then d
  else
    let d := { d with trk := { d.trk with unwr := key :: d.trk.unwr } }
    raise d 0x0404 (0x20 + homeGroup b w.pipe) 0 v

/-- A page is asked for ahead of its read: an eviction of it is cancelled, a page that is in LPDDR6 only is fetched. -/
def wantPage (d : Dev) (w : Who) (v : Nat) : Dev :=
  let d := cancelEvict d w.sp v
  if (pageAt d w.sp v).loc = 2 then (startFetch (stallOn d w v) w v).1 else d

/-- Bytes of a page whose unwritten lines read zero. -/
def maskedBytes (mask o : Nat) (bs : Bytes) : Bytes :=
  bs.mapIdx (fun i x => if mask.testBit ((o + i) / 64) then x else 0)

/-- Lines of `o .. o + n - 1` whose written-mask bit is 0 (R71). -/
def unwrittenLines (mask o n : Nat) : Nat :=
  ((List.range ((o + n - 1) / 64 + 1 - o / 64)).filter (fun i => !mask.testBit (o / 64 + i))).length

/-- Read part of one page: new state, bytes, and false when the access stalls on a page fault. -/
def readPart (d : Dev) (w : Who) (v o n : Nat) : Dev × Bytes × Bool :=
  let d := cancelEvict d w.sp v
  let p := pageAt d w.sp v
  if p.loc = 0 then
    (unwrittenEvent (bump d aUnwritten (unwrittenLines 0 o n)) w v, List.replicate n 0, true)
  else if p.loc = 2 then
    if w.host then
      (bump d aUnwritten (unwrittenLines p.mask o n), maskedBytes p.mask o (readMem d (lp6Base + p.bpn * 0x10000 + o) n), true)
    else ((startFetch (stallOn d w v) w v).1, [], false)
  else if p.loc = 3 then (stallOn d w v, [], false)
  else
    let d := setPage (stallEnd d w v) w.sp v { p with stamp := d.trk.stamp, staged := false, unread := false }
    let d := bump d aUnwritten (unwrittenLines p.mask o n)
    let bs := if fenced d (0x20 + p.lpn / 512) then List.replicate n 0
              else maskedBytes p.mask o (readMem d (lpnAddr p.lpn o) n)
    (d, bs, true)

/-- The unwritten lines counted since `d0` are given back: the access stalls, and counts them when it goes on (R71). -/
def recount (d0 d : Dev) : Dev := if reg d aUnwritten = reg d0 aUnwritten then d else setReg d aUnwritten (reg d0 aUnwritten)

/-- Read `n` bytes at virtual address `a`. -/
def vread (d : Dev) (w : Who) (a n : Nat) : Dev × Bytes × Bool :=
  let r := (partsOf a n).foldl (fun acc part =>
    let (d, bs, ok) := acc
    if ok then
      let (d, x, ok) := readPart d w part.1 part.2.1 part.2.2
      (d, bs ++ x, ok)
    else acc) (d, [], true)
  if r.2.2 then r else (recount d r.1, r.2)

/-- Lines that `n` bytes at offset `o` touch, as a mask. -/
def lineMask (o n : Nat) : Nat := ((List.range ((o + n - 1) / 64 + 1 - o / 64)).map (fun i => 2 ^ (o / 64 + i))).sum

/-- Class of a virtual page: that of its tensor (R66). -/
def pageClass_ (b : Bytes) (v : Nat) : Nat := match tensorOf b v with | some t => tClass b t | none => 0

/-- READERS_LEFT of a fresh page (R72). Pages of PINNED and STREAMING tensors are freed with their Graft only (Table Trunk-3): they hold
0, as those of persistent tensors (DEDUCED, log entry 79). -/
def pageReaders_ (b : Bytes) (v : Nat) : Nat :=
  match tensorOf b v with
  | some t => if tClass b t = 1 ∨ tClass b t = 3 then tReaders b t else 0
  | none => 0

/-- A first write allocates a page (R70): none when no page can be had now. -/
def allocPage (d : Dev) (w : Who) (v : Nat) : Dev × Bool :=
  let b := imgSp d w.sp
  match demandPage d w v with
  | (d, none) => (stallOn d w v, false)
  | (d, some l) =>
    (watermark (setPage (takeLpn d .alloc l (w.sp + 1)) w.sp v
      { Page.none with lpn := l, loc := 1, cls := pageClass_ b v, readers := pageReaders_ b v, stamp := d.trk.stamp })
      (demandGroups b w.pipe) (some (w.sp, v)), true)

/-- Write part of one page. A host's virtual write goes to the page wherever it lies (R430). -/
def writePart (d : Dev) (w : Who) (v o : Nat) (bs : Bytes) : Dev × Bool :=
  let d := cancelEvict d w.sp v
  let p := pageAt d w.sp v
  let n := bs.length
  let put (d : Dev) (p : Page) : Dev :=
    let d := if fenced d (0x20 + p.lpn / 512) then d
             else
               -- lines not yet written read zero around the bytes written
               let old := maskedBytes p.mask (o / 64 * 64) (readMem d (lpnAddr p.lpn (o / 64 * 64)) ((o + n - 1) / 64 * 64 + 64 - o / 64 * 64))
               writeMem (writeMem d (lpnAddr p.lpn (o / 64 * 64)) old) (lpnAddr p.lpn o) bs
    setPage (stallEnd d w v) w.sp v { p with mask := p.mask ||| lineMask o n, dirty := true, stamp := d.trk.stamp }
  if n = 0 then (d, true)
  else if p.loc = 0 then
    let (d, ok) := allocPage d w v
    if ok then (put d (pageAt d w.sp v), true) else (d, false)
  else if p.loc = 1 then (put d p, true)
  else if p.loc = 2 then
    if w.host then
      (setPage (writeLp6 d (p.bpn * 0x10000 + o) bs) w.sp v { p with mask := p.mask ||| lineMask o n }, true)
    else ((startFetch (stallOn d w v) w v).1, false)
  else (stallOn d w v, false)

/-- Write bytes at virtual address `a`; false when part of it stalls. -/
def vwrite (d : Dev) (w : Who) (a : Nat) (bs : Bytes) : Dev × Bool :=
  let r := (partsOf a bs.length).foldl (fun acc part =>
    let (d, rest, ok) := acc
    if ok then
      let (d, ok) := writePart d w part.1 part.2.1 (rest.take part.2.2)
      (d, rest.drop part.2.2, ok)
    else acc) (d, bs, true)
  (r.1, r.2.2)

/-- One release of a page (R72, R73): it adds to the tensor's release Ring; the count falls, and at zero the page is free. -/
def releasePage (d : Dev) (sp v : Nat) : Dev :=
  let b := imgSp d sp
  let p := pageAt d sp v
  let d := match tensorOf b v with
    | some t => if tRel b t != 0 then ringInc d (tRel b t) 1 else d
    | none => d
  if p.loc = 0 || p.readers = 0 then d
  else if p.readers = 1 then freePage d sp v
  else setPage d sp v { p with readers := p.readers - 1 }

/-! ## Reading tensors without effect -/

/-- Bytes at a virtual address of a space, wherever their page lies; lines not written read zero (R71). -/
def vpeek (d : Dev) (sp a n : Nat) : Bytes :=
  (partsOf a n).flatMap (fun part =>
    let p := pageAt d sp part.1
    if p.loc = 0 || ((p.loc = 1 || p.loc = 3) && fenced d (0x20 + p.lpn / 512)) then List.replicate part.2.2 0
    else if p.loc = 2 || (p.loc = 3 && p.move = 2) then maskedBytes p.mask part.2.1 (readMem d (lp6Base + p.bpn * 0x10000 + part.2.1) part.2.2)
    else maskedBytes p.mask part.2.1 (readMem d (lpnAddr p.lpn part.2.1) part.2.2))

/-- The elements of one channel of a line of a tensor; of a picture plane, its pixel words (R214, R215). -/
def tensorRow (d : Dev) (sp : Nat) (b : Bytes) (t f y c : Nat) : List Int :=
  let w := tW b t
  if tFmt b t = 0xF then
    let bs := vpeek d sp (tAddr b t f y 0 0) (4 * w)
    (List.range w).map (fun i => ((u32 bs (4 * i) : Nat) : Int))
  else (List.range (cdiv w 64)).flatMap (fun s =>
    let n := min 64 (w - 64 * s)
    unpackRun (tFmt b t) (vpeek d sp (tAddr b t f y c s) (runBytes (tFmt b t) (min w 64))) n)

/-! ## Line ring credits (R74, R75) -/

def LineRing.none : LineRing := { slots := 0, prod := 0, inWrite := 0, open_ := [], fin := [] }
def lineRing (d : Dev) (r : Nat) : LineRing := d.trk.lines.get LineRing.none r
def setLineRing (d : Dev) (r : Nat) (l : LineRing) : Dev :=
  { d with trk := { d.trk with lines := d.trk.lines.put LineRing.none r l } }
/-- A line ring of `n` slots at apply: the producer holds every credit. -/
def newLineRing (d : Dev) (r n : Nat) : Dev := setLineRing d r { slots := n, prod := n, inWrite := 0, open_ := [], fin := [] }
/-- The producer takes a credit for a line; none left is an overflow. -/
def takeCredit (d : Dev) (r : Nat) : Option Dev :=
  let l := lineRing d r
  if l.prod = 0 then none else some (setLineRing d r { l with prod := l.prod - 1, inWrite := l.inWrite + 1 })
/-- Credits of the lines that every consumer has finished return. -/
def settleCredits (l : LineRing) (consumers : List Nat) : LineRing :=
  let done (x : Nat) : Bool := consumers.all (fun c => match l.fin.get none c with | some f => later f x | none => false)
  { l with prod := l.prod + (l.open_.filter done).length, open_ := l.open_.filter (fun x => !done x) }
/-- The line counted `x` on the ring is written: it is unfinished until every consumer is done with it. -/
def lineWritten (d : Dev) (r x : Nat) (consumers : List Nat) : Dev :=
  let l := lineRing d r
  if l.inWrite = 0 then d
  else setLineRing d r (settleCredits { l with inWrite := l.inWrite - 1, open_ := l.open_ ++ [x] } consumers)
/-- Consumer `c` has finished every line counted below `x`. -/
def finishLines (d : Dev) (r c x : Nat) (consumers : List Nat) : Dev :=
  let l := lineRing d r
  setLineRing d r (settleCredits { l with fin := l.fin.put none c (some x) } consumers)
/-- A Branch begins to write the line counted `x`: it takes a credit, unless it has taken the line's already; false when it must wait
(R74). Each part of the line lands as it is stored, so that the line is unfinished from its first part on. -/
def branchLine (d : Dev) (r x : Nat) : Dev × Bool :=
  let l := lineRing d r
  if l.slots = 0 || l.open_.contains x then (d, true)
  else if l.prod = 0 then (d, false)
  else (setLineRing d r { l with prod := l.prod - 1, open_ := l.open_ ++ [x] }, true)

/-- The lines landed since count `x` are discarded and their credits return (R376). -/
def discardLines (d : Dev) (r x : Nat) : Dev :=
  let l := lineRing d r
  let gone (y : Nat) : Bool := y == x || later y x
  setLineRing d r { l with prod := l.prod + l.inWrite + (l.open_.filter gone).length, inWrite := 0,
                           open_ := l.open_.filter (fun y => !gone y) }

/-! ## Snapshot and lookup (R86, R91) -/

/-- TRK_BOOKS_SNAP: a write of 1 copies the four counts in one fc. -/
def booksSnapOp (value : Word) (d : Dev) : Dev :=
  if value.toNat % 2 = 1 then
    setFlds d [(booksFree, d.trk.books.free), (booksAlloc, d.trk.books.alloc),
      (booksTransit, d.trk.books.transit), (booksRetired, d.trk.books.retired)]
  else d

def execTrkBooksSnap (value : Word) (s : State) : Out := onDev s (booksSnapOp value)

/-- TRK_PAGE_CTL: SPACE is kept, and GO looks up TRK_PAGE_VPN in it. -/
def pageLookupOp (value : Word) (d : Dev) : Dev :=
  let d := setFld d pageSpace (value.toNat % 2)
  if value.toNat / 2 % 2 = 1 then
    let p := pageAt d (fld d pageSpace) (fld d pageVpn)
    setFlds d [(pageClass, if p.loc = 0 then pageClass_ (imgSp d (fld d pageSpace)) (fld d pageVpn) else p.cls), (pageLoc, p.loc), (pageDirty, p.dirty.toNat), (pageStaged, p.staged.toNat),
      (pageReaders, p.readers), (pageLpn, p.lpn), (pageBack, p.bpn + p.hasBack.toNat * 2 ^ 19)]
  else d

def execTrkPageLookup (value : Word) (s : State) : Out := onDev s (pageLookupOp value)

/-! ## Host window (R84, R429, R430) -/

/-- Fitted bytes of the LPDDR6 window (R442): 8 channels of the density, fewer when a channel is out of service are
still addressed. -/
def lp6Bytes (d : Dev) : Nat := if flag d lp6Avail then 2 ^ (33 + fld d lp6Density) else 0

end Sys2Proof.Machine
end

