-- ==== Sys2Proof/Machine/CamPort.lean ====
section
/-! DEFINITION. Camera frames as the other units see them: images they belong to, ends and drops, what an apply or a release does to
them (R367, R371, R374 to R376, R384, R385, R389, R479, R493). -/

namespace Sys2Proof.Machine

/-! ## Records -/

/-- Image whose ISP section describes a frame. -/
def camImg (d : Dev) (f : CamFrame) : Bytes := imgOf d f.out
/-- Record of a frame's context; no byte past the image when it has gone. -/
def camRec (d : Dev) (f : CamFrame) : Nat := (ctxOff (camImg d f) f.ctx).getD (camImg d f).length
/-- Line and frame Rings of a camera port (Table Sched-1). -/
def camLineRing (p : Nat) : Nat := 0x20 + 2 * p
def camFrameRing (p : Nat) : Nat := 0x21 + 2 * p
/-- Key of the landing ring of a context among the line rings; those of the outgoing Graft stand 16 higher. -/
def landKey (f : CamFrame) : Nat := 8 + f.ctx + if f.out then 16 else 0

/-- The frame of a port that is landing. -/
def landing (d : Dev) (p : Nat) : Option CamFrame := d.cam.frames.find? (fun f => f.port == p && !f.ended)
/-- The frame with the same port and number replaced. -/
def sameFrame (f g : CamFrame) : Bool := f.port == g.port && f.ctx == g.ctx && f.cfn == g.cfn
def setCam (d : Dev) (f : CamFrame) : Dev :=
  { d with cam := { d.cam with frames := d.cam.frames.map (fun g => if sameFrame f g then f else g) } }
def removeCam (d : Dev) (f : CamFrame) : Dev :=
  { d with cam := { d.cam with frames := d.cam.frames.filter (fun g => !sameFrame f g) } }

/-- ISP_STAT follows the queue. -/
def ispStat (d : Dev) : Dev :=
  match d.cam.frames.find? (·.entered) with
  | some f => setFlds d [(ispBusy, 1), (ispCtx, f.ctx), (ispWait, (d.cam.frames.any (fun g => g.port != f.port)).toNat)]
  | none => setFlds d [(ispBusy, 0), (ispCtx, 0), (ispWait, 0)]

/-! ## A port retires (R493) -/

/-- Exposures queued and not begun are discarded. -/
def dropExposures (keep : Nat → Bool) (d : Dev) : Dev :=
  let d := d.cam.expQ.foldl (fun d e => if keep e.1 then d else setFld d (cxQueued e.1) 0) d
  let waiting (l : List (Nat × Nat × Nat × Nat)) : List (Nat × Nat × Nat × Nat) := l.take 1 ++ (l.drop 1).filter (fun e => keep e.1)
  { d with cam := { d.cam with expQ := d.cam.expQ.filter (fun e => keep e.1), bus := d.cam.bus.map (fun e => (e.1, waiting e.2)) } }

/-- EN falls, and the exposures queued for the port's contexts are discarded. -/
def closePort (p : Nat) (d : Dev) : Dev := setFld (dropExposures (fun c => !ctxOnPort (img0 d) c p) d) (camEn p) 0

/-- A camera port that holds no frame in progress retires; UNIT_RETIRED gives the contexts bound to it. -/
def retirePort (p kind : Nat) (rep : Bool) (d : Dev) : Dev :=
  let d := setFld { d with flt := { d.flt with retired := (0x3D + p) :: d.flt.retired } } (fencedReg (0x3D + p)) 1
  let ctxs := (((List.range 8).filter (fun c => ctxOnPort (img0 d) c p)).map (2 ^ ·)).sum
  raise (closePort p (setBktState d (188 + p) 2)) 0x0803 (0x3D + p) 4 (kind + rep.toNat * 256 + ctxs * 65536)

/-! ## Ends (R366, R367, R374) -/

/-- What a frame reports once, as it ends or is dropped: check errors of its lines, and a shape other than the planned one. A frame with
check errors counts one CHECK against its port (R479). -/
def camReport (f : CamFrame) (d : Dev) : Dev :=
  let p := f.port
  let d := if f.chk = 0 then d else raise d 0x0601 (0x3D + p) 2 (min f.chk 65535 + f.cfn % 65536 * 65536)
  let d := if f.clamped || f.short then
      raise (bump d (aCamShape p) 1) 0x0603 (0x3D + p) 2 (f.clamped.toNat + f.short.toNat * 2 + f.ctx * 16 + f.cfn % 65536 * 65536)
    else d
  if f.chk = 0 then d
  else match countError (188 + p) 9 0 d with
    | (d, some rep) => retirePort p 9 rep d
    | (d, none) => d

/-- The landing frame of a port ends: missing lines count as zero lines, and the events of its lines are raised. The lines filled take
no place in the landing ring (DESIGN CHOICE, log entry 40). -/
def camEnd (p : Nat) (d : Dev) : Dev :=
  match landing d p with
  | none => setFld d (camInFrame p) 0
  | some f =>
    let b := camImg d f
    let o := camRec d f
    let short := f.short || decide (f.lines.length < cH b o)
    let lines := f.lines ++ List.replicate (cH b o - f.lines.length) (List.replicate (cW b o) 0)
    let f := { f with lines, short, ended := true }
    camReport f (setFld (setCam d f) (camInFrame p) 0)

/-! ## Exposure in force and the record of a frame (R382, R389) -/

/-- Exposure in force for frame `m` of a context: known, LINES, AGAIN, DGAIN. -/
def expFor (d : Dev) (c m : Nat) : Bool × Nat × Nat × Nat :=
  let l := (d.cam.expRec.get [] c).filter (fun e => e.1 == m || later m e.1)
  match l with
  | [] => (false, 0, 0, 0)
  | e :: es => let g := es.foldl (fun a x => if later x.1 a.1 then x else a) e; (true, g.2)

/-- FLAGS of Table Camera-4. -/
def camFlags (d : Dev) (f : CamFrame) (dropped : Bool) : Nat :=
  dropped.toNat + (f.chk != 0).toNat * 2 + f.clamped.toNat * 4 + f.short.toNat * 8 + (expFor d f.ctx f.cfn).1.toNat * 16 + f.newP.toNat * 32

/-- The 64 header bytes of a statistics record. -/
def camHeader (d : Dev) (f : CamFrame) (dropped : Bool) : Bytes :=
  let e := (expFor d f.ctx f.cfn).2
  le 4 f.cfn ++ le 4 (camFlags d f dropped) ++ le 2 (min f.chk 65535) ++ le 1 f.ctx ++ [0] ++ le 2 e.1 ++ le 2 e.2.1 ++ le 2 e.2.2 ++
  le 2 0 ++ le 4 f.seq ++ le 8 f.t0 ++ List.replicate 32 0

/-- The statistics record goes to its slot of STATS. -/
def writeStats (f : CamFrame) (bytes : Bytes) (d : Dev) : Dev :=
  let b := camImg d f
  let t := cStats b (camRec d f)
  if t < nTensors b then
    (vwrite d { sp := f.out.toNat, pipe := tPipe b t, pfn := f.cfn, unit := 2, task := 8192, host := true } (tAddr b t (f.cfn % max 1 (tSlots b t)) 0 0 0) bytes).1
  else d

/-- The four registers of a context's last frame (R390). -/
def camLast (f : CamFrame) (dropped : Bool) (d : Dev) : Dev :=
  let e := expFor d f.ctx f.cfn
  setReg (setReg (setReg (setReg d (cxExp f.ctx) (BitVec.ofNat 32 (e.2.1 + e.2.2.1 * 65536)))
    (cxExp2 f.ctx) (BitVec.ofNat 32 (e.2.2.2 + e.1.toNat * 65536)))
    (cxLast f.ctx) (BitVec.ofNat 32 (camFlags d f dropped))) (cxLastCfn f.ctx) (BitVec.ofNat 32 f.cfn)

/-- Steps 3 to 5 of R376. The ADD is the frame's own lines that are still owed (DEDUCED, log entry 41). -/
def dropCounts (f : CamFrame) (d : Dev) : Dev :=
  let p := f.port
  let d := ringInc d (camLineRing p) (cH (camImg d f) (camRec d f) - f.done)
  let d := writeStats f (camHeader d f true ++ List.replicate 4864 0) d
  let d := ringInc (camLast f true d) (camFrameRing p) 1
  raise (bump d (aCamDrop p) 1) 0x0602 (0x3D + p) 2 (f.ctx + f.cfn % 65536 * 65536)

/-- A frame is dropped (R376). -/
def dropCam (f : CamFrame) (d : Dev) : Dev :=
  let d := discardLines d (landKey f) f.base
  let d := if f.ended then d else camReport f (setFld d (camInFrame f.port) 0)
  ispStat (dropCounts f (removeCam d f))

/-! ## Apply and release (R371, R384, R385, R493) -/

/-- Parameters in force of a context. -/
def ctxParams (d : Dev) (c : Nat) : Bytes :=
  match d.cam.params.find? (fun e => e.1 == c) with
  | some e => e.2
  | none => match ctxOff (img0 d) c with | some o => slice (img0 d) (o + paramStart) paramBytes | none => []

/-- Pending parameters are discarded; their commands complete BUSY. -/
def dropParams (d : Dev) : Dev :=
  let d := d.cam.pend.foldl (fun d e => match e.2 with | some x => complete (setFld d (cxParamPend e.1) 0) x.1 stBusy [] | none => d) d
  { d with cam := { d.cam with pend := [], params := [] } }

/-- The Graft in force becomes the outgoing one: its frames keep the parameters they would have entered with. -/
def camExchange (d : Dev) : Dev :=
  let ps (f : CamFrame) : Bytes := if f.entered then f.params else ctxParams d f.ctx
  let d := { d with cam := { d.cam with frames := d.cam.frames.map (fun f => { f with out := true, params := ps f }) }
                    trk := { d.trk with lines := d.trk.lines.map (fun e => (if 8 ≤ e.1 then e.1 + 16 else e.1, e.2)) } }
  dropExposures (fun _ => false) (dropParams d)

/-- Contexts of the Graft that now is in force: initial contexts, landing rings, EXP0 queued for each. -/
def camApply (d : Dev) : Dev :=
  let b := img0 d
  let d := (List.range 2).foldl (fun d p =>
    let c := if hasIsp b then iInit b p else 0xFF
    let d := { d with cam := { d.cam with idle := setBit d.cam.idle p (c == 0xFF) } }
    if c = 0xFF then d else let d := setFld d (camCtx p) c; setLive d (camBase p) (fput (camCtx p) (d.live.get 0 (camBase p)) c)) d
  (ctxRecs b).foldl (fun d o =>
    let c := u8 b o
    let d := newLineRing d (8 + c) (tH b (cLand b o))
    if fenced d (0x3D + u8 b (o + 1)) then d
    else setFld { d with cam := { d.cam with expQ := d.cam.expQ.put none c (some (cExp0 b o 0, cExp0 b o 1, cExp0 b o 2)) } } (cxQueued c) 1) d

/-- The frames of a space that is released end: their Rings count and nothing more is written (DESIGN CHOICE, log entry 42). -/
def camRelease (sp : Nat) (d : Dev) : Dev :=
  let gone := d.cam.frames.filter (fun f => f.out == (sp == 1))
  let d := gone.foldl (fun d f =>
    let d := ringInc (ringInc d (camLineRing f.port) (cH (camImg d f) (camRec d f) - f.done)) (camFrameRing f.port) 1
    let d := if f.ended then d else camReport f (setFld d (camInFrame f.port) 0)
    removeCam d f) d
  let rings := if sp = 1 then d.trk.lines.filter (fun e => decide (e.1 < 24)) else d.trk.lines.filter (fun e => decide (e.1 < 8 ∨ 24 ≤ e.1))
  let d := { d with trk := { d.trk with lines := rings } }
  let d := if sp = 0 then { dropExposures (fun _ => false) (dropParams d) with cam := { (dropExposures (fun _ => false) (dropParams d)).cam with idle := 3 } } else d
  if gone.isEmpty then d else ispStat d

end Sys2Proof.Machine
end

