-- ==== Sys2Proof/Machine/Flags.lean ====
section
/-! DEFINITION. Results with their saturation counts: sat(), nearest entry, requantisation (R104, R107 to R109, R115). -/

namespace Sys2Proof.Machine

/-- sat() to a format, and 1 when the value changed. -/
def satFmt (f : Nat) (x : Int) : Int × Nat :=
  let y := clampI (fmtLo f) (fmtHi f) x
  (y, if y = x then 0 else 1)

/-- Nearest entry of an ascending codebook `e` (R115): the code, and 1 for a value beyond either end. -/
def nearestEntry (e : List Int) (y : Int) : Nat × Nat :=
  let n := e.length
  let first := e.getD 0 0
  let last := e.getD (n - 1) 0
  if y ≤ first then (0, if y < first then 1 else 0)
  else if last ≤ y then (n - 1, if last < y then 1 else 0)
  else ((List.range n).foldl (fun c i => if (y - e.getD i 0).natAbs < (y - e.getD c 0).natAbs then i else c) 0, 0)

/-- The exact product rounded by a scale word (R107): r = round_half_even(x × m, 15 − e); 0 when M is 0. -/
def scaled (x : Int) (w : Nat) : Int := if scaleM w = 0 then 0 else rheZ (x * scaleM w) (15 - scaleE w)

/-- The stored element and its saturation: target format `f`, zero point `zo`, codebook `e` for C4 and C8. -/
def storeElem (f : Nat) (e : List Int) (y : Int) : Int × Nat :=
  if f = 9 || f = 0xA then let (c, n) := nearestEntry e y; ((c : Int), n) else satFmt f y

/-- R107: requantise or convert `x` (zero point taken off) under scale word `w` with target zero point `zo`. -/
def requant (f zo : Nat) (e : List Int) (w : Nat) (x : Int) : Int × Nat := storeElem f e ((zo : Int) + scaled x w)

/-- A sum in the 40-bit accumulate path, and 1 when it saturated (R103). -/
def acc40 (x : Int) : Int × Nat :=
  let y := clampI (-(2 ^ 39 : Int)) (2 ^ 39 - 1) x
  (y, if y = x then 0 else 1)

end Sys2Proof.Machine
end

