-- ==== Sys2Proof/Machine/Isp.lean ====
section
/-! DEFINITION. The stages of the image pipeline, from landed samples to output values and statistics (R370, R378 to R382). -/

namespace Sys2Proof.Machine

/-- What the pipeline reads of a frame: parameters, shape, mosaic, landed lines, and the first of its free values. -/
structure IspIn where
  q     : Bytes
  w     : Nat
  h     : Nat
  cfa   : Nat
  px    : Nat
  py    : Nat
  lines : List (List Nat)
  fr    : Nat
  deriving DecidableEq, Repr

/-- A u16 parameter at its offset in the record. -/
def IspIn.p16 (e : IspIn) (o : Nat) : Nat := u16 e.q (o - paramStart)
/-- Colour class of a site: 0 R, 1 G, 2 B, 3 W or I (R370). -/
def IspIn.cls (e : IspIn) (x y : Nat) : Nat :=
  let n := cfaPeriod e.cfa
  ((cfaMap e.cfa).getD ((y + e.py) % n) []).getD ((x + e.px) % n) 1

/-- sat16, and 1 when it changed the value. -/
def sat16 (v : Int) : Int × Nat := let s := clampI 0 65535 v; (s, if s = v then 0 else 1)

/-- Sites within Chebyshev distance 2 inside the frame, the site itself left out. -/
def IspIn.around (e : IspIn) (x y : Nat) : List (Nat × Nat) :=
  (List.range 5).flatMap (fun j => (List.range 5).filterMap (fun i =>
    if x + i < 2 ∨ y + j < 2 ∨ e.w + 2 ≤ x + i ∨ e.h + 2 ≤ y + j ∨ (i = 2 ∧ j = 2) then none else some (x + i - 2, y + j - 2)))

/-- A landed sample. The value of a line that has not landed as the ISP reads it is stated nowhere: a free value (log entry 44). -/
def IspIn.raw (e : IspIn) (x y : Nat) : Nat :=
  if y < e.lines.length then (e.lines.getD y []).getD x 0 else Config.freeValue (e.fr + 4 * e.w * e.h + y * e.w + x) % 65536
/-- Stage 1. -/
def IspIn.s1 (e : IspIn) (x y : Nat) : Int := (e.raw x y - e.p16 (0x30 + 2 * e.cls x y) : Nat)

/-- The site stands in the static defect list. -/
def IspIn.defect (e : IspIn) (x y : Nat) : Bool :=
  (List.range (min 4096 (e.p16 0x3A))).any (fun i => e.p16 (0x6608 + 4 * i) == x && e.p16 (0x660A + 4 * i) == y)

/-- Stage 2: the value, and 1 when the site was replaced. -/
def IspIn.s2 (e : IspIn) (x y : Nat) : Int × Nat :=
  let v := e.s1 x y
  let near := ((e.around x y).filter (fun s => e.cls s.1 s.2 == e.cls x y)).map (fun s => e.s1 s.1 s.2)
  if e.defect x y then (rheDiv near.sum (max 1 near.length : Nat), 1)
  else
    let t : Int := e.p16 0x38
    let hi := near.foldl max 0
    let lo := near.foldl min 65535
    if e.p16 0x38 = 0xFFFF ∨ near = [] then (v, 0)
    else if hi + t < v then (hi, 1) else if v < lo - t then (lo, 1) else (v, 0)

/-- Lens gain of a site: bilinear between the four knots of its class. -/
def IspIn.gain (e : IspIn) (x y : Nat) : Int :=
  let sx := u8 e.q (0x3C - paramStart)
  let sy := u8 e.q (0x3D - paramStart)
  let (i, fx) := (x / 2 ^ sx, x % 2 ^ sx)
  let (j, fy) := (y / 2 ^ sy, y % 2 ^ sy)
  let knot (i j : Nat) : Nat := e.p16 (0x280 + 2 * ((49 * e.cls x y + j) * 65 + i))
  rheDiv (((2 ^ sx - fx) * (2 ^ sy - fy) * knot i j + fx * (2 ^ sy - fy) * knot (i + 1) j + (2 ^ sx - fx) * fy * knot i (j + 1) +
    fx * fy * knot (i + 1) (j + 1) : Nat)) (2 ^ (sx + sy) : Nat)

/-- Stage 3: the value, and its saturation. -/
def IspIn.s3 (e : IspIn) (x y : Nat) : Int × Nat := sat16 (rheDiv ((e.s2 x y).1 * e.gain x y) 4096)

/-- Value of colour `c` at a site by the nearest rule of R379; with no site of it in reach the spec states none (log entry 43). -/
def IspIn.nearest (e : IspIn) (x y c : Nat) : Int :=
  let dist (s : Nat × Nat) : Nat := ((s.1 : Int) - x).natAbs ^ 2 + ((s.2 : Int) - y).natAbs ^ 2
  let l := (e.around x y).filter (fun s => e.cls s.1 s.2 == c)
  let m := l.foldl (fun a s => min a (dist s)) 99
  let l := l.filter (fun s => dist s == m)
  if l.isEmpty then (Config.freeValue (e.fr + (y * e.w + x) * 4 + c) % 65536 : Nat)
  else rheDiv (l.map (fun s => (e.s3 s.1 s.2).1)).sum l.length

/-- Green at an R or B site of a Bayer mosaic whose four green neighbours lie inside the frame. -/
def IspIn.green (e : IspIn) (x y : Nat) : Int :=
  let g (x y : Nat) : Int := (e.s3 x y).1
  let (l, r, u, b) := (g (x - 1) y, g (x + 1) y, g x (y - 1), g x (y + 1))
  let dh := (l - r).natAbs
  let dv := (u - b).natAbs
  if dh < dv then rheDiv (l + r) 2 else if dv < dh then rheDiv (u + b) 2 else rheDiv (l + r + u + b) 4

/-- Stage 4 of one colour. -/
def IspIn.s4 (e : IspIn) (x y c : Nat) : Int :=
  let k := e.cls x y
  if k = c ∨ e.cfa = 3 then (e.s3 x y).1
  else if e.cfa = 0 ∧ c = 1 ∧ 1 ≤ x ∧ x + 1 < e.w ∧ 1 ≤ y ∧ y + 1 < e.h then e.green x y
  else e.nearest x y c

/-- Stage 5 of one colour. -/
def IspIn.s5 (e : IspIn) (x y c : Nat) : Int :=
  let v := e.s4 x y c
  if e.cfa = 2 then max 0 (v - rheDiv (e.s4 x y 3 * e.p16 (0x46 + 2 * c)) 4096) else v

/-- Stage 6 of one colour, and its saturation. -/
def IspIn.s6 (e : IspIn) (x y c : Nat) : Int × Nat := sat16 (rheDiv (e.s5 x y c * e.p16 (0x40 + 2 * c)) 4096)

/-- Stage 7 of one colour, and its saturation. -/
def IspIn.s7 (e : IspIn) (x y c : Nat) : Int × Nat :=
  let m (j : Nat) : Int := toS 16 (e.p16 (0x4C + 2 * (3 * c + j)))
  sat16 (rheDiv ((List.range 3).map (fun j => m j * (e.s6 x y j).1)).sum 4096 + toS 16 (e.p16 (0x5E + 2 * c)))

/-- Stage 8 of one colour. -/
def IspIn.s8 (e : IspIn) (x y c : Nat) : Int :=
  let v := (e.s7 x y c).1.toNat
  let knot (t : Nat) : Int := e.p16 (0x70 + 2 * t)
  knot (v / 256) + rheDiv ((knot (v / 256 + 1) - knot (v / 256)) * (v % 256 : Nat)) 256

/-- Stage 9 of one colour: coordinates outside the frame take the nearest edge. -/
def IspIn.s9 (e : IspIn) (x y c : Nat) : Int :=
  let u := e.s8 x y c
  let m := rheDiv ((List.range 3).flatMap (fun j => (List.range 3).map (fun i =>
    e.s8 (clampN 0 (e.w - 1) (x + i - 1)) (clampN 0 (e.h - 1) (y + j - 1)) c))).sum 9
  if (m - u).natAbs ≤ e.p16 0x64 then u + rheDiv ((m - u) * e.p16 0x66) 256 else u

/-- Stage 10 in the output format. -/
def ispOut (fmt : Nat) (u : Int) : Int := if fmt = 4 then min 1023 (rhe u 2) else if fmt = 3 then min 255 (rhe u 4) else u

/-! ## Statistics of one line (R382) -/

def zoneOf (e : IspIn) (x y : Nat) : Nat := 12 * y / e.h * 16 + 16 * x / e.w
def satAdd (m : Map Nat) (k : Nat) (v : Nat) : Map Nat := m.put 0 k (min 0xFFFFFFFF (m.get 0 k + v))

/-- Histogram, white balance and focus sums with line `y` added. -/
def ispStats (e : IspIn) (y : Nat) (f : CamFrame) : CamFrame :=
  (List.range e.w).foldl (fun f x =>
    let c (k : Nat) : Nat := (e.s7 x y k).1.toNat
    let luma := (1254 * c 0 + 2462 * c 1 + 380 * c 2) / 4096
    let z := zoneOf e x y
    let s5 (k : Nat) : Nat := (e.s5 x y k).toNat / 16
    let g (x : Nat) : Int := e.s4 x y 1
    let foc := if 1 ≤ x ∧ x + 1 < e.w then (2 * g x - g (x - 1) - g (x + 1)).natAbs / 16 else 0
    { f with hist := satAdd f.hist (luma / 256) 1
             awb := satAdd (satAdd (satAdd (satAdd f.awb (4 * z) (s5 0)) (4 * z + 1) (s5 1)) (4 * z + 2) (s5 2)) (4 * z + 3) 1
             focus := satAdd f.focus z foc }) f

/-- Sites replaced at stage 2, and saturations at stages 3, 6 and 7, on line `y`. -/
def ispCounts (e : IspIn) (y : Nat) : Nat × Nat :=
  (((List.range e.w).map (fun x => (e.s2 x y).2)).sum,
   ((List.range e.w).map (fun x => (e.s3 x y).2 + ((List.range 3).map (fun c => (e.s6 x y c).2 + (e.s7 x y c).2)).sum)).sum)

end Sys2Proof.Machine
end

