-- ==== Sys2Proof/Machine/Crypto.lean ====
section
/-! DEFINITION. SHA-384, and ECDSA over brainpoolP384r1 (R456). The constants of FIPS 180-4 and RFC 5639 are PRESUMED, log
entry 16. -/

namespace Sys2Proof.Machine

/-! ## SHA-384 -/

def shaK : List Nat :=
  [0x428a2f98d728ae22, 0x7137449123ef65cd, 0xb5c0fbcfec4d3b2f, 0xe9b5dba58189dbbc] ++
  [0x3956c25bf348b538, 0x59f111f1b605d019, 0x923f82a4af194f9b, 0xab1c5ed5da6d8118] ++
  [0xd807aa98a3030242, 0x12835b0145706fbe, 0x243185be4ee4b28c, 0x550c7dc3d5ffb4e2] ++
  [0x72be5d74f27b896f, 0x80deb1fe3b1696b1, 0x9bdc06a725c71235, 0xc19bf174cf692694] ++
  [0xe49b69c19ef14ad2, 0xefbe4786384f25e3, 0x0fc19dc68b8cd5b5, 0x240ca1cc77ac9c65] ++
  [0x2de92c6f592b0275, 0x4a7484aa6ea6e483, 0x5cb0a9dcbd41fbd4, 0x76f988da831153b5] ++
  [0x983e5152ee66dfab, 0xa831c66d2db43210, 0xb00327c898fb213f, 0xbf597fc7beef0ee4] ++
  [0xc6e00bf33da88fc2, 0xd5a79147930aa725, 0x06ca6351e003826f, 0x142929670a0e6e70] ++
  [0x27b70a8546d22ffc, 0x2e1b21385c26c926, 0x4d2c6dfc5ac42aed, 0x53380d139d95b3df] ++
  [0x650a73548baf63de, 0x766a0abb3c77b2a8, 0x81c2c92e47edaee6, 0x92722c851482353b] ++
  [0xa2bfe8a14cf10364, 0xa81a664bbc423001, 0xc24b8b70d0f89791, 0xc76c51a30654be30] ++
  [0xd192e819d6ef5218, 0xd69906245565a910, 0xf40e35855771202a, 0x106aa07032bbd1b8] ++
  [0x19a4c116b8d2d0c8, 0x1e376c085141ab53, 0x2748774cdf8eeb99, 0x34b0bcb5e19b48a8] ++
  [0x391c0cb3c5c95a63, 0x4ed8aa4ae3418acb, 0x5b9cca4f7763e373, 0x682e6ff3d6b2b8a3] ++
  [0x748f82ee5defb2fc, 0x78a5636f43172f60, 0x84c87814a1f0ab72, 0x8cc702081a6439ec] ++
  [0x90befffa23631e28, 0xa4506cebde82bde9, 0xbef9a3f7b2c67915, 0xc67178f2e372532b] ++
  [0xca273eceea26619c, 0xd186b8c721c0c207, 0xeada7dd6cde0eb1e, 0xf57d4f7fee6ed178] ++
  [0x06f067aa72176fba, 0x0a637dc5a2c898a6, 0x113f9804bef90dae, 0x1b710b35131c471b] ++
  [0x28db77f523047d84, 0x32caab7b40c72493, 0x3c9ebe0a15c9bebc, 0x431d67c49c100d4c] ++
  [0x4cc5d4becb3e42b6, 0x597f299cfc657e2a, 0x5fcb6fab3ad6faec, 0x6c44198c4a475817]

def shaIv : List Nat :=
  [0xcbbb9d5dc1059ed8, 0x629a292a367cd507, 0x9159015a3070dd17, 0x152fecd8f70e5939] ++
  [0x67332667ffc00b31, 0x8eb44a8768581511, 0xdb0c2e0d64f98fa7, 0x47b5481dbefa4fa4]

/-- A 64-bit word rotated right. -/
def rotr64 (x n : Nat) : Nat := x / 2 ^ n + x % 2 ^ n * 2 ^ (64 - n)

/-- Words 16 to 79 of the schedule, each from the sixteen before it; the newest word first. -/
def shaExtend : Nat → List Nat → List Nat
  | 0, w => w
  | n + 1, w =>
    let at_ (i : Nat) : Nat := w.getD (i - 1) 0
    let a := at_ 15
    let b := at_ 2
    let s0 := rotr64 a 1 ^^^ rotr64 a 8 ^^^ (a / 2 ^ 7)
    let s1 := rotr64 b 19 ^^^ rotr64 b 61 ^^^ (b / 2 ^ 6)
    shaExtend n (((at_ 16 + s0 + at_ 7 + s1) % 2 ^ 64) :: w)

/-- One round on the eight working words. -/
def shaRound (v : List Nat) (kw : Nat × Nat) : List Nat :=
  match v with
  | [a, b, c, d, e, f, g, h] =>
    let s1 := rotr64 e 14 ^^^ rotr64 e 18 ^^^ rotr64 e 41
    let ch := (e &&& f) ^^^ ((2 ^ 64 - 1 - e) &&& g)
    let t1 := h + s1 + ch + kw.1 + kw.2
    let s0 := rotr64 a 28 ^^^ rotr64 a 34 ^^^ rotr64 a 39
    let maj := (a &&& b) ^^^ (a &&& c) ^^^ (b &&& c)
    [(t1 + s0 + maj) % 2 ^ 64, a, b, c, (d + t1) % 2 ^ 64, e, f, g]
  | _ => v

/-- One block of 128 bytes. -/
def shaBlock (h : List Nat) (block : Bytes) : List Nat :=
  let w := (List.range 16).map (fun i => ofBe (slice block (8 * i) 8))
  let ws := (shaExtend 64 w.reverse).reverse
  List.zipWith (fun x y => (x + y) % 2 ^ 64) h ((shaK.zip ws).foldl shaRound h)

/-- The message with its padding. -/
def shaPad (m : Bytes) : Bytes :=
  let n := m.length
  m ++ [0x80] ++ List.replicate ((239 - n % 128) % 128) 0 ++ be 16 (8 * n)

/-- Blocks folded in, at most `fuel` of them. -/
def shaBlocks : Nat → List Nat → Bytes → List Nat
  | 0, h, _ => h
  | n + 1, h, m => if m.isEmpty then h else shaBlocks n (shaBlock h (m.take 128)) (m.drop 128)

/-- SHA-384: 48 bytes. -/
def sha384 (m : Bytes) : Bytes :=
  let p := shaPad m
  ((shaBlocks (p.length / 128) shaIv p).take 6).flatMap (be 8)

/-! ## brainpoolP384r1 (RFC 5639) -/

def ecP : Nat := 0x8cb91e82a3386d280f5d6f7e50e641df152f7109ed5456b412b1da197fb71123acd3a729901d1a71874700133107ec53
def ecA : Nat := 0x7bc382c63d8c150c3c72080ace05afa0c2bea28e4fb22787139165efba91f90f8aa5814a503ad4eb04a8c7dd22ce2826
def ecB : Nat := 0x4a8c7dd22ce28268b39b55416f0447c2fb77de107dcd2a62e880ea53eeb62d57cb4390295dbc9943ab78696fa504c11
def ecGx : Nat := 0x1d1c64f068cf45ffa2a63a81b7c13f6b8847a3e77ef14fe3db7fcafe0cbd10e8e826e03436d646aaef87b2e247d4af1e
def ecGy : Nat := 0x8abe1d7520f9c2a45cb1eb8e95cfd55262b70b29feec5864e19c054ff99129280e4646217791811142820341263c5315
def ecN : Nat := 0x8cb91e82a3386d280f5d6f7e50e641df152f7109ed5456b31f166e6cac0425a7cf3ab6af6b7fc3103b883202e9046565

/-- Extended Euclid: `t0` such that `t0 * a = r0` modulo `m`. -/
def euclid : Nat → Int → Int → Int → Int → Int
  | 0, _, _, t0, _ => t0
  | n + 1, r0, r1, t0, t1 => if r1 = 0 then t0 else euclid n r1 (r0 - r0 / r1 * r1) t1 (t0 - r0 / r1 * t1)

/-- Inverse modulo a prime `m`. -/
def invMod (a m : Nat) : Nat := (euclid 1200 m (a % m : Nat) 0 1 % m).toNat

/-- A point of the curve; none is the point at infinity. -/
abbrev Point := Option (Nat × Nat)

def ecAdd : Point → Point → Point
  | none, q => q
  | p, none => p
  | some (x1, y1), some (x2, y2) =>
    if x1 = x2 ∧ (y1 + y2) % ecP = 0 then none
    else
      let l := if x1 = x2 then (3 * x1 * x1 + ecA) * invMod (2 * y1) ecP % ecP
               else (y2 + ecP - y1) * invMod (x2 + ecP - x1) ecP % ecP
      let x3 := (l * l + 2 * ecP - x1 - x2) % ecP
      some (x3, (l * (x1 + ecP - x3) + ecP - y1) % ecP)

/-- `k` times a point, over the low `n` bits of `k`. -/
def ecMul : Nat → Nat → Point → Point
  | 0, _, _ => none
  | n + 1, k, p => let r := ecMul n (k / 2) (ecAdd p p); if k % 2 = 1 then ecAdd p r else r

/-- A 97-byte public key as a point of the curve (R456). -/
def keyPoint (key : Bytes) : Point :=
  let x := ofBe (slice key 1 48)
  let y := ofBe (slice key 49 48)
  if key.length = 97 ∧ u8 key 0 = 4 ∧ x < ecP ∧ y < ecP ∧ y * y % ecP = (x * x * x + ecA * x + ecB) % ecP then some (x, y) else none

/-- ECDSA verification of a 96-byte signature over a message (R456). -/
def ecdsaVerify (key msg sig : Bytes) : Bool :=
  let r := ofBe (slice sig 0 48)
  let s := ofBe (slice sig 48 48)
  match keyPoint key with
  | none => false
  | some q =>
    decide (sig.length = 96 ∧ 1 ≤ r ∧ r < ecN ∧ 1 ≤ s ∧ s < ecN) &&
    (let w := invMod s ecN
     let e := ofBe (sha384 msg)
     match ecAdd (ecMul 384 (e * w % ecN) (some (ecGx, ecGy))) (ecMul 384 (r * w % ecN) (some q)) with
     | some (x, _) => decide (x % ecN = r)
     | none => false)

end Sys2Proof.Machine
end

