-- ==== Sys2Proof/Machine/TileImage.lean ====
section
/-! DEFINITION. Reading tile programs of a Graft image: header, regions, coordinate records, words, instructions, the
loops, and the canvas of the GROVE section (R207 to R223, R405 to R408, R548). -/

namespace Sys2Proof.Machine

/-! ## TILEPROG section (R207, R208, R216, R218, R221) -/

/-- Number of tile programs, and byte offset of program `q` in the image. -/
def nProgs (b : Bytes) : Nat := u32 b (gOff b 4)
def progOff (b : Bytes) (q : Nat) : Nat := gOff b 4 + u32 b (gOff b 4 + 4 + 4 * q)

/-- Instructions of section `s`: 0 PROLOGUE, 1 PRE, 2 RED, 3 POST. -/
def hN (b : Bytes) (p s : Nat) : Nat := u16 b (p + 2 * s)
def hNr (b : Bytes) (p : Nat) : Nat := u16 b (p + 8)
def hNcref (b : Bytes) (p : Nat) : Nat := u16 b (p + 10)
def hNword (b : Bytes) (p : Nat) : Nat := u16 b (p + 12)
def hNreg (b : Bytes) (p : Nat) : Nat := u8 b (p + 14)
def hAccDepth (b : Bytes) (p : Nat) : Nat := u8 b (p + 15)
def hAccStep (b : Bytes) (p : Nat) : Nat := u8 b (p + 16)
/-- g, the lines of a row group. -/
def hG (b : Bytes) (p : Nat) : Nat := 2 ^ bits (u8 b (p + 17)) 0 2
def hLstep (b : Bytes) (p : Nat) : Nat := bits (u8 b (p + 17)) 2 1
def hTw (b : Bytes) (p : Nat) : Nat := if bits (u8 b (p + 17)) 3 1 = 1 then 32 else 64
def hPflip (b : Bytes) (p : Nat) : Nat := bits (u8 b (p + 17)) 4 1
def hTb (b : Bytes) (p : Nat) : Nat := u8 b (p + 18)
def hHold (b : Bytes) (p : Nat) : Nat := u8 b (p + 19)
def hOut (b : Bytes) (p : Nat) : Nat := u16 b (p + 20)
def hIn (b : Bytes) (p : Nat) : Nat := u16 b (p + 22)
def hNz (b : Bytes) (p : Nat) : Nat := u16 b (p + 24)
/-- Filter size, stride and dilation: 0 vertical, 1 horizontal. -/
def hK (b : Bytes) (p a : Nat) : Nat := u8 b (p + 26 + a)
def hS (b : Bytes) (p a : Nat) : Nat := u8 b (p + 28 + a)
def hD (b : Bytes) (p a : Nat) : Nat := u8 b (p + 30 + a)
/-- Padding: 0 top, 1 bottom, 2 left, 3 right. -/
def hP (b : Bytes) (p i : Nat) : Nat := u8 b (p + 32 + i)

/-- A region of the Branch store (Table Tile-3). -/
structure Region where
  base  : Nat
  size  : Nat
  slots : Nat
  fmt   : Nat
  nch   : Nat
  npx   : Nat
  deriving DecidableEq, Repr

def regionOff (p i : Nat) : Nat := p + 64 + 16 * i
def regionAt (b : Bytes) (p i : Nat) : Region :=
  let o := regionOff p i
  { base := u16 b o, size := u16 b (o + 2), slots := u8 b (o + 4), fmt := u8 b (o + 5), nch := u16 b (o + 6), npx := u16 b (o + 8) }

/-- A coordinate record (Table Tile-4). -/
structure Coord where
  trunk : Bool
  index : Nat
  lmul  : Nat
  lsh   : Nat
  pad   : Nat
  pmul  : Nat
  psh   : Nat
  loff  : Int
  poff  : Int
  cg0   : Nat
  cz    : Nat
  cr    : Nat
  ncg   : Nat
  npx   : Nat
  deriving DecidableEq, Repr

def coordOff (b : Bytes) (p i : Nat) : Nat := p + 64 + 16 * hNreg b p + 16 * i
def coordAt (b : Bytes) (p i : Nat) : Coord :=
  let o := coordOff b p i
  { trunk := bits (u16 b o) 15 1 == 1, index := bits (u16 b o) 0 15
    lmul := bits (u8 b (o + 2)) 0 4, lsh := bits (u8 b (o + 2)) 4 2, pad := bits (u8 b (o + 2)) 6 2
    pmul := bits (u8 b (o + 3)) 0 4, psh := bits (u8 b (o + 3)) 4 2
    loff := toS 16 (u16 b (o + 4)), poff := toS 16 (u16 b (o + 6)), cg0 := u16 b (o + 8), cz := u8 b (o + 10), cr := u8 b (o + 11)
    ncg := u16 b (o + 12), npx := u16 b (o + 14) }

def wordsOff (b : Bytes) (p : Nat) : Nat := coordOff b p (hNcref b p)
/-- Word table entry `i`. -/
def wordAt (b : Bytes) (p i : Nat) : Nat := u32 b (wordsOff b p + 4 * i)

/-- A tile instruction (Table Tile-5). -/
structure TInstr where
  op    : Nat
  varies : Bool
  xi0   : Bool
  xlast : Bool
  twig  : Nat
  flags : Nat
  ca    : Nat
  cb    : Nat
  w1    : Nat
  w2    : Nat
  w3    : Nat
  deriving DecidableEq, Repr

def instrOff (b : Bytes) (p : Nat) (s i : Nat) : Nat :=
  wordsOff b p + 4 * hNword b p + 16 * (((List.range s).map (hN b p)).sum + i)
def instrAt (b : Bytes) (p s i : Nat) : TInstr :=
  let o := instrOff b p s i
  let w := u32 b o
  { op := bits w 0 5, varies := bits w 5 1 == 1, xi0 := bits w 6 1 == 1, xlast := bits w 7 1 == 1, twig := bits w 8 2
    flags := bits w 10 6, ca := bits w 16 8, cb := bits w 24 8, w1 := u32 b (o + 4), w2 := u32 b (o + 8), w3 := u32 b (o + 12) }

/-- Every instruction of a program with its section and index. -/
def instrsOf (b : Bytes) (p : Nat) : List (Nat × Nat × TInstr) :=
  (List.range 4).flatMap (fun s => (List.range (hN b p s)).map (fun i => (s, i, instrAt b p s i)))

/-- A flag of FLAGS[15:10], by its bit of word 0. -/
def TInstr.flag (t : TInstr) (bit : Nat) : Bool := t.flags.testBit (bit - 10)
/-- A field of FLAGS[15:10]. -/
def TInstr.ff (t : TInstr) (lo w : Nat) : Nat := bits t.flags (lo - 10) w

/-- A TLOAD of KIND lines, or a plane. -/
def TInstr.isLines (t : TInstr) : Bool := t.op == 1 && t.ff 10 2 == 0
def TInstr.isPlane (t : TInstr) : Bool := t.op == 1 && t.ff 10 2 == 1

/-! ## Loops (R209, R210, R218, R220) -/

/-- Output extent of R220 on one axis: planned or run-time input extent `w`, paddings, filter, stride, dilation. -/
def outExtent (w lo hi k s d : Nat) : Nat :=
  if w + lo + hi < d * (k - 1) + 1 then 0 else (w + lo + hi - d * (k - 1) - 1) / max 1 s + 1
def outW (b : Bytes) (p w : Nat) : Nat := outExtent w (hP b p 2) (hP b p 3) (hK b p 1) (hS b p 1) (hD b p 1)
def outH (b : Bytes) (p h : Nat) : Nat := outExtent h (hP b p 0) (hP b p 1) (hK b p 0) (hS b p 0) (hD b p 0)

/-- The `i`-th output line dealt to logical number `j` of `nb` Branches (R210). -/
def dealtLine (b : Bytes) (p j nb i : Nat) : Nat :=
  let st := 1 + hLstep b p
  let per := max 1 (hG b p / st)
  (j + nb * (i / per)) * hG b p + i % per * st

/-- Lines below `ho` dealt to logical number `j`. -/
def dealtLines (b : Bytes) (p j nb ho : Nat) : List Nat :=
  ((List.range ho).map (dealtLine b p j nb)).filter (fun y => decide (y < ho))

/-- Pixels of one iteration, and iterations of a line. -/
def iterPx (b : Bytes) (p : Nat) : Nat := max 1 (hTw b p * hTb b p)
def nXi (b : Bytes) (p wo : Nat) : Nat := cdiv wo (iterPx b p)

/-- `y_in`, `x_in` and `group` of a record (R218). -/
def Coord.y (c : Coord) (y : Nat) : Int := ((y * c.lmul) / 2 ^ c.lsh : Nat) + c.loff
def Coord.x (c : Coord) (x : Nat) : Int := ((x * c.pmul) / 2 ^ c.psh : Nat) + c.poff
def Coord.g (c : Coord) (z r : Nat) : Nat := c.cg0 + c.cz * z + c.cr * r

/-- Padding of R219 on an axis whose image is `lo .. hi - 1`: the position read, or none for the zero point. -/
def padAxis (mode : Nat) (lo hi i : Int) : Option Int :=
  if hi ≤ lo then none
  else if lo ≤ i ∧ i < hi then some i
  else
    let n := hi - lo
    let k := i - lo
    match mode with
    | 2 => some (clampI lo (hi - 1) i)
    | 3 => if n = 1 then some lo
           else
             let m := k % (2 * (n - 1))
             some (lo + (if m < n then m else 2 * (n - 1) - m))
    | _ => none

/-! ## Weight tiles (R548) -/

/-- Input rows of a plane in a LAYOUT and weight format: 64, 128 for S4 and C4, 256 for T2. -/
def planeRows (fmt : Nat) : Nat := match fmt with | 0 => 256 | 1 => 128 | 9 => 128 | _ => 64

/-- Elements of a weight tile: LAYOUT is a mode code of Table Twig-1. -/
def tileElems (layout fmt bw kh : Nat) : Nat :=
  match layout with | 7 => 64 / bw * kh | 8 => 64 * bw | _ => planeRows fmt * 64

/-- Bytes of a weight tile. -/
def tileBytes (layout fmt bw kh : Nat) : Nat :=
  let n := cdiv (tileElems layout fmt bw kh * fmtBits fmt) 8
  if layout = 7 ∨ layout = 8 then cdiv n 64 * 64 else n

def TInstr.layout (t : TInstr) : Nat := bits t.w1 0 4
def TInstr.bw (t : TInstr) : Nat := 4 * 2 ^ bits t.w1 4 2
def TInstr.kh (t : TInstr) : Nat := bits t.w1 6 4 + 1
def TInstr.dil (t : TInstr) : Nat := bits t.w1 10 4

/-- Weight tile size of the plane loads that read region `rg`: none when no plane load does. -/
def regionTile (b : Bytes) (p rg fmt : Nat) : Option Nat :=
  ((instrsOf b p).find? (fun e => e.2.2.isPlane && !(coordAt b p e.2.2.ca).trunk && (coordAt b p e.2.2.ca).index == rg)).map
    (fun e => tileBytes e.2.2.layout fmt e.2.2.bw e.2.2.kh)

/-- The Trunk tensor that a TMCAST or a line load puts into a region. -/
def weightTensor (b : Bytes) (p rg : Nat) : Option Nat :=
  ((instrsOf b p).find? (fun e => (e.2.2.op == 0xC || e.2.2.isLines) && (coordAt b p e.2.2.cb).index == rg)).map
    (fun e => (coordAt b p e.2.2.ca).index)

/-! ## Regions and tensors

A region's image, zero point and codebook are those of the tensor whose lines it holds: the source of a line load into it,
else the destination of a store from it when it is read; the destination of a store first when it is written (DEDUCED, log
entry 20). -/

/-- Tensor that lines are loaded from into region `rg`, with the two records. -/
def loadOf (b : Bytes) (p rg : Nat) : Option (TInstr × Coord × Coord) :=
  ((instrsOf b p).find? (fun e => e.2.2.isLines && (coordAt b p e.2.2.cb).index == rg)).map
    (fun e => (e.2.2, coordAt b p e.2.2.ca, coordAt b p e.2.2.cb))

/-- Tensor that region `rg` is stored to, with the two records: source in the region, destination in the Trunk. -/
def storeOf (b : Bytes) (p rg : Nat) : Option (TInstr × Coord × Coord) :=
  ((instrsOf b p).find? (fun e => e.2.2.op == 0xF && !e.2.2.flag 10 && !(coordAt b p e.2.2.ca).trunk &&
    (coordAt b p e.2.2.ca).index == rg)).map (fun e => (e.2.2, coordAt b p e.2.2.ca, coordAt b p e.2.2.cb))

/-- Tensor whose lines a region holds when it is read. -/
def readTensor (b : Bytes) (p rg : Nat) : Option Nat :=
  match loadOf b p rg with
  | some x => some x.2.1.index
  | none => (storeOf b p rg).map (fun x => x.2.2.index)

/-- Tensor whose lines a region holds when it is written. -/
def writeTensor (b : Bytes) (p rg : Nat) : Option Nat :=
  match storeOf b p rg with
  | some x => some x.2.2.index
  | none => (loadOf b p rg).map (fun x => x.2.1.index)

/-- Tensor whose zero point and codebook the codes of a region carry: the one its lines belong to. A region tied to no tensor has
none, so its zero point is 0 (R107); its C4 or C8 codes are those of the program's output tensor when that has the region's format
(DEDUCED, log entry 20). -/
def codeTensor (b : Bytes) (p rg : Nat) (t : Option Nat) : Option Nat :=
  match t with
  | some t => some t
  | none =>
    let f := (regionAt b p rg).fmt
    if (f = 9 ∨ f = 0xA) ∧ tFmt b (hOut b p) = f then some (hOut b p) else none

/-- First tensor channel less first region channel of the records that tie a region to its tensor. -/
def chanShift (b : Bytes) (p rg : Nat) : Int :=
  match loadOf b p rg with
  | some x => 64 * ((x.2.1.cg0 : Int) - x.2.2.cg0)
  | none => match storeOf b p rg with
    | some x => 64 * ((x.2.2.cg0 : Int) - x.2.1.cg0)
    | none => 0

/-- Lines of a neighbour arrive in the region through THALO. -/
def haloFed (b : Bytes) (p rg : Nat) : Bool :=
  (instrsOf b p).any (fun e => e.2.2.op == 0xB && e.2.2.flag 10 && (coordAt b p e.2.2.ca).index == rg)

/-! ## The canvas (R405, R407) -/

def gvOff (b : Bytes) : Nat := gOff b 0xB
def hasGrove (b : Bytes) : Bool := gHas b 0xB
def gvN (b : Bytes) : Nat := u16 b (gvOff b)
def gvCanvasW (b : Bytes) : Nat := u32 b (gvOff b + 4)
def gvCanvasH (b : Bytes) : Nat := u32 b (gvOff b + 8)
def gvRefX (b : Bytes) : Nat := u32 b (gvOff b + 12)
def gvRefY (b : Bytes) : Nat := u32 b (gvOff b + 16)
def gvInMx (b : Bytes) : Nat := u16 b (gvOff b + 20)
def gvInMy (b : Bytes) : Nat := u16 b (gvOff b + 22)
def gvSeamBand (b : Bytes) : Nat := u16 b (gvOff b + 24)
def gvNpat (b : Bytes) : Nat := u8 b (gvOff b + 26)
def gvGrid (b : Bytes) (t : Nat) : Nat := u8 b (gvOff b + 0x40 + t)
def gvShift (b : Bytes) (t : Nat) : Nat := gvGrid b t % 4
def gvSeamcut (b : Bytes) (t : Nat) : Bool := (gvGrid b t).testBit 6
def gvNocanvas (b : Bytes) (t : Nat) : Bool := (gvGrid b t).testBit 7
def gvRX (b : Bytes) (i : Nat) : Nat := u32 b (gvOff b + 0x10C0 + 8 * i)
def gvRY (b : Bytes) (i : Nat) : Nat := u32 b (gvOff b + 0x10C0 + 8 * i + 4)

/-- Pattern record of a tensor (R413): TEMPORAL and SEED. -/
def patternOf (b : Bytes) (t : Nat) : Option (Bool × Nat) :=
  if hasGrove b then
    ((List.range (gvNpat b)).map (fun i => gvOff b + 0x1040 + 8 * i)).find? (fun o => u16 b o == t) |>.map
      (fun o => (u8 b (o + 2) % 2 == 1, u32 b (o + 4)))
  else none

/-- Where a tensor lies on its canvas, on one axis: canvas coordinate of its element 0, and the canvas's ends. -/
structure Place where
  org : Int
  lo  : Int
  hi  : Int
  deriving DecidableEq, Repr

/-- Places across and down of tensor `t` on the engine of index `i`. -/
def placeOf (b : Bytes) (i t : Nat) : Place × Place :=
  if !hasGrove b then
    ({ org := tX0 b t, lo := tX0 b t, hi := (tX0 b t + tW b t : Nat) }, { org := tY0 b t, lo := tY0 b t, hi := (tY0 b t + tH b t : Nat) })
  else if gvNocanvas b t then ({ org := 0, lo := 0, hi := tW b t }, { org := 0, lo := 0, hi := tH b t })
  else
    let s : Nat := 2 ^ gvShift b t
    ({ org := tX0 b t + ((gvRX b i : Int) - gvRefX b).fdiv (s : Int), lo := 0, hi := cdiv (gvCanvasW b) s },
     { org := tY0 b t + ((gvRY b i : Int) - gvRefY b).fdiv (s : Int), lo := 0, hi := cdiv (gvCanvasH b) s })

/-- The region, on a grid of shift `s`, that holds canvas point (x, y); bounds of region `i` on that grid (R415). -/
def seamBounds (b : Bytes) (s i : Nat) : (Int × Int) × (Int × Int) :=
  (((gvRX b i / 2 ^ s : Nat), ((gvRX b i + gFbW b) / 2 ^ s : Nat)), ((gvRY b i / 2 ^ s : Nat), ((gvRY b i + gFbH b) / 2 ^ s : Nat)))
def seamIndex (b : Bytes) (s : Nat) (x y : Int) : Option Nat :=
  (List.range (gvN b)).find? (fun i => let e := seamBounds b s i
    decide (e.1.1 ≤ x ∧ x < e.1.2 ∧ e.2.1 ≤ y ∧ y < e.2.2))

/-! ## Reads of a Trunk tensor by lines (R214, R224) -/

/-- Runs, as virtual address and length, that hold pixels `x .. x + n - 1` of the channels `c .. c + nc - 1` of line `y` of frame
slot `f`. A line ring holds line `y` in slot `y` mod H. -/
def lineRuns (b : Bytes) (t f : Nat) (y : Nat) (c nc x n : Nat) : List (Nat × Nat) :=
  let y := if tBind b t = 1 ∨ tBind b t = 2 then y % max 1 (tH b t) else y
  let w := min (tW b t) 64
  let segs := if n = 0 then [] else (List.range (cdiv (tW b t) 64)).filter (fun s => decide (x < 64 * s + 64 ∧ 64 * s < x + n))
  if tFmt b t = 0xF then segs.map (fun s => (tAddr b t f y 0 s, 4 * min 64 (tW b t - 64 * s)))
  else ((List.range nc).filter (fun j => decide (c + j < tC b t))).flatMap (fun j =>
    segs.map (fun s => (tAddr b t f y (c + j) s, runBytes (tFmt b t) w)))

/-- Pages that runs touch. -/
def pagesOf (l : List (Nat × Nat)) : List Nat :=
  (l.flatMap (fun e => if e.2 = 0 then [] else (List.range ((e.1 + e.2 - 1) / 0x10000 + 1 - e.1 / 0x10000)).map (e.1 / 0x10000 + ·))).eraseDups

/-- Pixels that a record spans: NPX, or the tensor's full width. -/
def spanPx (c : Coord) (full : Nat) : Nat := if c.npx = 0 then full else c.npx

/-- TBYTES of a TMCAST (R232, R548): the tile size of the plane loads that read its region, for the weight tensor's format. -/
def mcastTile (b : Bytes) (p : Nat) (i : TInstr) : Nat :=
  (regionTile b p (coordAt b p i.cb).index (tFmt b (coordAt b p i.ca).index)).getD 4096

/-- Address of tile `k` of `tb` bytes in frame slot `f` of a weight tensor. -/
def tileAddr (b : Bytes) (t f k tb : Nat) : Nat := (tVpn b t + f * tSlotPages b t) * 0x10000 + k * tb

/-- Tile size, when a line load moves whole weight tiles into a flat region (R218, R224). -/
def loadsTiles (b : Bytes) (p : Nat) (i : TInstr) : Option Nat :=
  let c := coordAt b p i.cb
  if (regionAt b p c.index).slots = 0 then regionTile b p c.index (tFmt b (coordAt b p i.ca).index) else none

/-- Bytes that a line load or a TMCAST reads at a loop instant, from frame slot `f` of a tensor whose lines are `h`. -/
def moveRuns (b : Bytes) (p : Nat) (i : TInstr) (f y z x0 r h : Nat) : List (Nat × Nat) :=
  let c := coordAt b p i.ca
  let t := c.index
  if i.op = 0xC then [(tileAddr b t f (c.g z r) (mcastTile b p i), (bits i.w1 8 4 + 1) * mcastTile b p i)]
  else match loadsTiles b p i with
    | some tb => [(tileAddr b t f (c.g z r) tb, c.ncg * tb)]
    | none => (List.range (bits i.w1 0 5)).flatMap (fun (j : Nat) =>
      match padAxis c.pad 0 h (c.y y + j) with
      | none => []
      | some y' => lineRuns b t f y'.toNat (64 * c.g z r) (64 * c.ncg) (max 0 (c.x x0)).toNat (spanPx c (tW b t)))

/-- Loop instants at which a section runs on logical number `j` of `nb` Branches: (y, z, x0, r, first, last). -/
def instants (b : Bytes) (p j nb wo ho s : Nat) : List (Nat × Nat × Nat × Nat × Bool × Bool) :=
  if s = 0 then [(0, 0, 0, 0, true, true)]
  else
    let n := nXi b p wo
    (dealtLines b p j nb ho).flatMap (fun y => (List.range (hNz b p)).flatMap (fun z => (List.range n).flatMap (fun xi =>
      (List.range (if s = 2 then hNr b p else 1)).map (fun r => (y, z, xi * iterPx b p, r, xi == 0, xi + 1 == n)))))

/-! ## Scale steps (R121, R123, R134) -/

/-- A scale step record (Table Quant-1). -/
structure OStep where
  init  : Nat
  mode  : Nat
  ch    : Nat
  cw    : Nat
  cd    : Nat
  satHi : Nat
  quietN : Nat
  emin  : Int
  emax  : Int
  table : Nat
  deriving DecidableEq, Repr

/-- Record `n`; `cw` 0 stands for the full canvas width. -/
def ostepAt (b : Bytes) (n : Nat) : OStep :=
  let o := ostepOff b n
  let m := u8 b (o + 4)
  { init := u32 b o, mode := bits m 0 2, ch := 2 ^ bits m 2 3, cw := (match bits m 5 2 with | 1 => 256 | 2 => 512 | _ => 0)
    cd := (if bits m 7 1 = 1 then 64 else 16), satHi := u8 b (o + 5), quietN := u8 b (o + 6), emin := toS 8 (u8 b (o + 7))
    emax := toS 8 (u8 b (o + 8)), table := u16 b (o + 10) }

/-- OSTEP of an instruction that names one (Table Tile-6): not the global forms of TPOOL, which skip the output step (R185), nor the
pixel mode of TCONV. -/
def TInstr.ostep (t : TInstr) : Option Nat :=
  match t.op with
  | 5 => if t.ff 10 3 < 3 then some (bits t.w2 0 12) else none
  | 6 => some (bits t.w3 0 12) | 7 => some (bits t.w1 20 12) | 8 => some (bits t.w1 20 12)
  | 9 => if t.flag 10 then none else some (bits t.w1 20 12)
  | 0xA => some (bits t.w3 19 12) | _ => none

/-- Tensor of a scale step: OUT of the programs whose instructions name it (R122). -/
def stepTensor (b : Bytes) (n : Nat) : Option Nat :=
  (((List.range (nProgs b)).map (progOff b)).find? (fun p => (instrsOf b p).any (fun e => e.2.2.ostep == some n))).map (hOut b)

/-- The MEASURED or CARRIED step that writes a tensor. -/
def stepOfTensor (b : Bytes) (t : Nat) : Option Nat :=
  (List.range (nOsteps b)).find? (fun n => (ostepAt b n).mode != 0 && stepTensor b n == some t)

/-- Cells of a step over its tensor: first cell and number of cells across, down and in depth. -/
structure Cells where
  cw  : Nat
  ch  : Nat
  cd  : Nat
  cx0 : Int
  cy0 : Int
  nx  : Nat
  ny  : Nat
  nz  : Nat
  deriving DecidableEq, Repr

/-- Cells of step record `o` over tensor `t` on engine `i` (R123, R134). Only canvas positions have cells. -/
def cellsOf (b : Bytes) (i : Nat) (o : OStep) (t : Nat) : Cells :=
  let (px, py) := placeOf b i t
  let cw := if o.cw = 0 then max 1 (px.hi - px.lo).toNat else o.cw
  let l (p : Place) (c : Nat) : Int := (max p.lo p.org).fdiv c
  let n (p : Place) (len c : Nat) : Nat := ((min p.hi (p.org + len) - 1).fdiv c - l p c + 1).toNat
  { cw, ch := o.ch, cd := o.cd, cx0 := l px cw, cy0 := l py o.ch, nx := n px (tW b t) cw, ny := n py (tH b t) o.ch,
    nz := cdiv (tC b t) o.cd }

/-- Number of cells. -/
def Cells.count (c : Cells) : Nat := c.nx * c.ny * c.nz

/-- Index of the cell of element (x, y, channel) of tensor `t`: none off the canvas (R123, R134). -/
def cellIndex (b : Bytes) (i t : Nat) (c : Cells) (x y : Int) (chan : Nat) : Option Nat :=
  let (px, py) := placeOf b i t
  let gx := px.org + x
  let gy := py.org + y
  if gx < px.lo ∨ px.hi ≤ gx ∨ gy < py.lo ∨ py.hi ≤ gy ∨ tC b t ≤ chan then none
  else some ((chan / c.cd * c.ny + (gy.fdiv c.ch - c.cy0).toNat) * c.nx + (gx.fdiv c.cw - c.cx0).toNat)

/-! ## Stores (R202, R216) -/

/-- Bytes of one line slot. -/
def Region.slotBytes (r : Region) : Nat :=
  if r.fmt = 0xF then 4 * r.npx else r.nch * cdiv r.npx 64 * runBytes r.fmt (min r.npx 64)

/-- Slot of line `n`: a flat region has none, its lines follow one another. -/
def Region.slot (r : Region) (n : Int) : Nat := if r.slots = 0 then n.toNat else (n % (r.slots : Int)).toNat

/-- Store address of the run that holds pixel `x` of channel `c` of line `n`; of the word, for pixel words. -/
def Region.addr (r : Region) (n : Int) (c x : Nat) : Nat :=
  let o := r.base * 1024 + r.slot n * r.slotBytes
  if r.fmt = 0xF then o + 4 * x
  else o + (c * cdiv r.npx 64 + x / 64) * runBytes r.fmt (min r.npx 64)

/-- Bank groups a region touches, as a mask (R202). -/
def Region.groups (r : Region) : Nat :=
  ((List.range 4).filter (fun j => decide (r.base / 1024 ≤ j ∧ j ≤ (r.base + r.size - 1) / 1024))).foldl (fun m j => m + 2 ^ j) 0

end Sys2Proof.Machine
end

