-- ==== Sys2Proof/Machine/Scale.lean ====
section
/-! DEFINITION. The scale unit: usable range, derived and carried scales, scale table entries (R120 to R142, R545). -/

namespace Sys2Proof.Machine

/-! ## Range and magnitude (R125) -/

/-- The target is unsigned with zero point 0: negative values clip and are no overrange. -/
def oneSided (f zo : Nat) : Bool := (f == 3 || f == 4 || f == 5 || f == 6) && zo == 0

/-- Usable range R of a target (Table Quant-2). -/
def usableRange (f zo : Nat) : Nat :=
  if zo = 0 then (fmtHi f).toNat else min ((fmtHi f).toNat - zo) zo

/-- What an element contributes to A. -/
def magnitude (f zo : Nat) (v : Int) : Nat := if oneSided f zo then v.toNat else v.natAbs

/-- The element is overrange: `y` is its code before sat(). -/
def overrange (f zo : Nat) (y : Int) : Bool := decide (fmtHi f < y) || (!oneSided f zo && decide (y < fmtLo f))

/-! ## Derivation and reciprocal (R126 to R128) -/

/-- `g(k)` of R126. -/
def deriveG (a r : Nat) (k : Int) : Nat := if 0 ≤ k then cdiv (a * 2 ^ k.toNat) r else cdiv a (r * 2 ^ (-k).toNat)

/-- E held between EMIN and EMAX, and whether that changed it. -/
def clampE (o : OStep) (e : Int) : Int × Bool := let c := clampI o.emin o.emax e; (c, c != e)

/-- derive(a, r): the tensor scale word, and ELIM. -/
def derive (o : OStep) (a r : Nat) : Nat × Bool :=
  if a = 0 then (o.init % 2 ^ 24, false)
  else
    let k : Int := ((lowest 160 (fun j => decide (0x8000 ≤ deriveG a r ((j : Int) - 64)))).getD 0 : Nat) - 64
    let (e, lim) := clampE o (15 - k)
    (scaleWord (deriveG a r k) e, lim)

/-- inv(t): the word that R107 applies. -/
def invScale (t : Nat) : Nat :=
  if scaleM t = 0x8000 then scaleWord 0x8000 (-scaleE t) else scaleWord (2 ^ 31 / max 1 (scaleM t)) (-1 - scaleE t)

/-- `a < r × t × 2^d`, or `≤`, exactly (R137). -/
def cmpScaled (le_ : Bool) (a r t d : Nat) : Bool :=
  let e := scaleE t + d - 15
  let x := if e < 0 then a * 2 ^ (-e).toNat else a
  let y := if e < 0 then r * scaleM t else r * scaleM t * 2 ^ e.toNat
  if le_ then decide (x ≤ y) else decide (x < y)

/-! ## Entries (R133 to R135) -/

/-- A scale table entry. -/
structure Entry where
  scale : Nat
  inv   : Nat
  a     : Nat
  run   : Nat
  ovr   : Nat
  under : Bool
  meas  : Bool
  valid : Bool
  elim  : Bool
  deriving DecidableEq, Repr

def Entry.bytes (e : Entry) : Bytes :=
  le 4 e.scale ++ le 4 e.inv ++ le 4 e.a ++
  le 4 (e.a / 2 ^ 32 % 256 + e.run % 256 * 2 ^ 8 + e.ovr % 256 * 2 ^ 16 + e.under.toNat * 2 ^ 24 + e.meas.toNat * 2 ^ 25 +
    e.valid.toNat * 2 ^ 26 + e.elim.toNat * 2 ^ 27)

def Entry.ofBytes (bs : Bytes) : Entry :=
  let w := u32 bs 12
  { scale := u32 bs 0, inv := u32 bs 4, a := u32 bs 8 + bits w 0 8 * 2 ^ 32, run := bits w 8 8, ovr := bits w 16 8
    under := w.testBit 24, meas := w.testBit 25, valid := w.testBit 26, elim := w.testBit 27 }

/-- Index of the engine in the Grove, as phase 4 of the load took it. -/
def groveIdx (d : Dev) (out : Bool) : Nat :=
  match (if out then d.root.space1 else d.root.space0) with | some g => g.idx | none => 0

/-- Cells of step `n`. -/
def stepCells (d : Dev) (out : Bool) (n : Nat) : Cells :=
  let b := imgOf d out
  cellsOf b (groveIdx d out) (ostepAt b n) ((stepTensor b n).getD 0)

/-- Virtual address of the entry of cell `i` of step `n` for frame `fn`. -/
def entryAddr (d : Dev) (out : Bool) (n i fn : Nat) : Nat :=
  let b := imgOf d out
  tVpn b (ostepAt b n).table * 0x10000 + fn % 2 * 16 * (stepCells d out n).count + 16 * i

def readEntry (d : Dev) (out : Bool) (n i fn : Nat) : Entry :=
  Entry.ofBytes (vpeek d (if out then 1 else 0) (entryAddr d out n i fn) 16)

/-- One 16-byte Trunk write of an entry. -/
def writeEntry (d : Dev) (out : Bool) (n i fn : Nat) (bs : Bytes) : Dev :=
  (vwrite d { sp := if out then 1 else 0, pipe := tPipe (imgOf d out) (ostepAt (imgOf d out) n).table, pfn := fn, unit := 2, task := 8192, host := false }
    (entryAddr d out n i fn) bs).1

/-- Every entry of both slots of a step's table is written zero (R140). -/
def zeroTable (d : Dev) (out : Bool) (n : Nat) : Dev :=
  (vwrite d { sp := if out then 1 else 0, pipe := tPipe (imgOf d out) (ostepAt (imgOf d out) n).table, pfn := 0, unit := 2, task := 8192, host := false }
    (entryAddr d out n 0 0) (List.replicate (32 * (stepCells d out n).count) 0)).1

/-- Dynamic steps of a Graft: MODE 1 and 2. -/
def dynSteps (b : Bytes) : List Nat := (List.range (nOsteps b)).filter (fun n => (ostepAt b n).mode != 0)

/-- At apply every table reads zero (R140). -/
def zeroTables (d : Dev) : Dev := (dynSteps (img0 d)).foldl (fun d n => zeroTable d false n) d

/-- Both slots of the tables of the CARRIED steps that write tensor `t` (R140, R259). -/
def clearCarried (d : Dev) (out : Bool) (t : Nat) : Dev :=
  let b := imgOf d out
  ((dynSteps b).filter (fun n => (ostepAt b n).mode == 2 && stepTensor b n == some t)).foldl (fun d n => zeroTable d out n) d

/-! ## Cell statistics (R129, R130) -/

def Partial.none : Partial := { stat := 0, conv := 0, ovr := 0, n := 0 }
def CellStat.none : CellStat :=
  { pfn := 0, parts := [], sent := 0, ready := false, scale := 0, run := 0, elim := false, cold := false, written := false }

/-- Keys of `Dev.cells` that belong to the outgoing Graft begin here. -/
def outCells : Nat := 2 ^ 48
def cellKey (out : Bool) (n i fn : Nat) : Nat := (n * 2 ^ 24 + i) * 4 + fn % 4 + (if out then outCells else 0)

/-- Statistics of a cell in frame `fn`: nothing yet when those kept are an older frame's. -/
def cellAt (d : Dev) (out : Bool) (n i fn : Nat) : CellStat :=
  let c := d.cells.get CellStat.none (cellKey out n i fn)
  if c.pfn = fn then c else { CellStat.none with pfn := fn }
def setCell (d : Dev) (out : Bool) (n i fn : Nat) (c : CellStat) : Dev :=
  { d with cells := d.cells.put CellStat.none (cellKey out n i fn) c }

/-- The cell is cold in the frame: CARRIED, and the entry before it has VALID = 0 (R140). -/
def cellCold (d : Dev) (out : Bool) (n i fn : Nat) : Bool :=
  (ostepAt (imgOf d out) n).mode == 2 && !(readEntry d out n i (sub32 fn 1)).valid

/-- A statistics pass and a maximum tree precede the conversion (R132, R546). -/
def cellMeasures (d : Dev) (out : Bool) (n i fn : Nat) : Bool :=
  (ostepAt (imgOf d out) n).mode == 1 || cellCold d out n i fn

/-- The scale of a cell of a CARRIED step that is not cold (R137): from the entry before it. -/
def carriedScale (o : OStep) (r : Nat) (prev : Entry) : Nat × Nat × Bool :=
  let e0 := scaleE prev.scale
  let (e1, run) :=
    if o.satHi < prev.ovr then
      let d := 1 + (lowest 64 (fun j => cmpScaled true prev.a r prev.scale (j + 1))).getD 63
      (e0 + min 4 d, 0)
    else if o.quietN ≤ prev.run then (e0 - 1, 0) else (e0, prev.run)
  let (e, lim) := clampE o e1
  (scaleWord (scaleM prev.scale) e, run, lim)

/-- A cell begins: a CARRIED scale that is not cold is found at once (R137). -/
def beginCell (d : Dev) (out : Bool) (n i fn : Nat) : Dev :=
  let c := cellAt d out n i fn
  let b := imgOf d out
  let o := ostepAt b n
  if c.ready || o.mode != 2 || cellCold d out n i fn then d
  else
    let t := (stepTensor b n).getD 0
    let (s, run, lim) := carriedScale o (usableRange (tFmt b t) (tZp b t)) (readEntry d out n i (sub32 fn 1))
    setCell d out n i fn { c with ready := true, scale := s, run := run, elim := lim }

/-- The maximum tree is complete: the scale is derived from the greatest partial (R126, R130). -/
def treeDone (d : Dev) (out : Bool) (n i fn : Nat) : Dev :=
  let c := cellAt d out n i fn
  let b := imgOf d out
  let o := ostepAt b n
  let t := (stepTensor b n).getD 0
  let a := (c.parts.map (fun e => e.2.stat)).foldl max 0
  let (s, lim) := derive o a (usableRange (tFmt b t) (tZp b t))
  let prev := readEntry d out n i (sub32 fn 1)
  setCell d out n i fn { c with ready := true, scale := s, elim := lim, cold := o.mode == 2,
                                run := if o.mode = 1 ∧ prev.valid then prev.run else 0 }

/-- The entry of a finished cell (R137, R545). -/
def cellEntry (d : Dev) (out : Bool) (n i fn : Nat) : Entry :=
  let c := cellAt d out n i fn
  let b := imgOf d out
  let o := ostepAt b n
  let t := (stepTensor b n).getD 0
  let r := usableRange (tFmt b t) (tZp b t)
  let meas := o.mode == 1 || c.cold
  let a := (c.parts.map (fun e => if meas then e.2.stat else e.2.conv)).foldl max 0
  let under := cmpScaled false (4 * a) r c.scale 0
  { scale := c.scale, inv := invScale c.scale, a, run := if under then min (c.run + 1) 255 else 0
    ovr := min 255 ((c.parts.map (fun e => e.2.ovr)).sum), under, meas, valid := true, elim := c.elim }

end Sys2Proof.Machine
end

