-- ==== Sys2Proof/Machine/Stem.lean ====
section
/-! DEFINITION. Stems: frames and tasks of the pipelines, waits, status records, history, readiness and ends of
tasks (R243 to R262). -/

namespace Sys2Proof.Machine

/-! ## Branches and frames -/

def branch (d : Dev) (n : Nat) : Branch := d.br.get Branch.reset n
def setBranch (d : Dev) (n : Nat) (b : Branch) : Dev := { d with br := d.br.put Branch.reset n b }

/-- Neither fenced nor retired (FLT_INSERVICE). -/
def brInService (nv : NonVol) (d : Dev) (n : Nat) : Bool := n < branchCount nv && !fenced d (0x10 + n)

/-- Physical Branch that serves logical Branch `n` (FLT_BR_HOST); 15 with bit 4 set when none. -/
def brHost (nv : NonVol) (d : Dev) (n : Nat) : Option Nat :=
  if n ≥ branchCount nv then none
  else
    let h := (reg d (hostReg n)).toNat / 2 ^ (4 * (n % 8)) % 16
    if !fenced d (0x10 + n) then some n
    else if h = n || h = 15 || fenced d (0x10 + h) then none else some h

def frameOf (d : Dev) (p pfn : Nat) (out : Bool) : Option Frame :=
  d.stem.frames.find? (fun f => f.pipe == p && f.pfn == pfn && f.out == out)

def setFrames (d : Dev) (l : List Frame) : Dev := { d with stem := { d.stem with frames := l } }

def mapFrame (d : Dev) (p pfn : Nat) (out : Bool) (g : Frame → Frame) : Dev :=
  setFrames d (d.stem.frames.map (fun f => if f.pipe == p && f.pfn == pfn && f.out == out then g f else f))

def TaskSt.new (task : Nat) : TaskSt :=
  { task, state := 0, done := 0, flags := 0, sat := 0, under := 0, elim := 0, bad := 0, slices := 0, stall := 0,
    start := 0, bases := [], sig := [], ovr := 0, cold := 0, asked := false, freed := [], glob := [] }

def taskIn (f : Frame) (k : Nat) : Option TaskSt := f.tasks.find? (fun t => t.task == k)

/-- State of task `k` in frame `pfn` of its pipeline. -/
def taskSt (d : Dev) (k pfn : Nat) (out : Bool) : Option TaskSt :=
  match frameOf d (kPipe (imgOf d out) k) pfn out with
  | none => none
  | some f => taskIn f k

def mapTask (d : Dev) (k pfn : Nat) (out : Bool) (g : TaskSt → TaskSt) : Dev :=
  mapFrame d (kPipe (imgOf d out) k) pfn out (fun f =>
    { f with tasks := f.tasks.map (fun t => if t.task == k then g t else t) })

/-- The frame that a command naming task and frame means: that of the Graft in force first, else the outgoing one's. -/
def outFlag (d : Dev) (k pfn : Nat) : Bool := (taskSt d k pfn false).isNone && (taskSt d k pfn true).isSome

/-! ## Status flags of the record (R256) -/

def fVaries : Nat := 8
def fInherited : Nat := 9
def fParity : Nat := 10
def fUncorr : Nat := 11
def fAudit : Nat := 12
def fShort : Nat := 13
def fCold : Nat := 14
def fSkipped : Nat := 15
def fShedBit : Nat := 16
def fAccShort : Nat := 17
/-- Bits above the record's: an event of the task and frame has been raised, or the shape was short. -/
def fShortW : Nat := 20
def fShortH : Nat := 21
def fEvent (i : Nat) : Nat := 24 + i

def addFlag (k pfn : Nat) (out : Bool) (f : Nat) (d : Dev) : Dev :=
  mapTask d k pfn out (fun t => { t with flags := setBit t.flags f true })

/-! ## Keys and waits (R244, R245, R550) -/

/-- STEM_CTL.KEY codes as one number: ports, output, camera context, free-running. -/
def keyOf (b : Bytes) (p : Nat) : Nat × Nat := (pKey b p, if pKey b p = 3 then pCtx b p else 0)

/-- The pipeline key of a HW line Ring. -/
def hwKey (d : Dev) (r : Nat) : Nat × Nat :=
  if r = 0 then (0, 0)
  else if r = 2 then (if hasGraft d && gUndSrc (img0 d) == 2 then (0, 0) else (1, 0)) else if r = 0x11 || r = 0x12 then (2, 0)
  else if r = 0x20 then (3, inForce d (camCtx 0)) else (3, inForce d (camCtx 1))

/-- The key frame of a Ring of key `rk` for frame `fn` of a task of key `tk` (R244): none when it is the latest one
latched, `some none` when no frame ever maps. -/
def keyFrame (d : Dev) (b : Bytes) (tk rk : Nat × Nat) (fn : Nat) : Option (Option Nat) :=
  if tk = rk then some (some fn)
  else if tk = (2, 0) && rk = (gCadPort b, 0) then some (some (cadMap d fn))
  else if tk = (gCadPort b, 0) && rk = (2, 0) then
    -- the earliest output frame, from K on, that the cadence maps to fn or later
    let opened := (d.stem.cad.map (·.1)).reverse
    let next := match d.stem.cad.head? with | some e => (List.range 64).map (fun i => add32 e.1 (i + 1)) | none => []
    some ((opened ++ next).find? (fun o => cadMap d o == fn || later (cadMap d o) fn))
  else none

/-- A wait's base as it stands: `at b`, met at once, or not yet met. -/
def waitBase (d : Dev) (b : Bytes) (k fn : Nat) (t : TaskSt) (r : Nat) : BaseAt :=
  let tk := keyOf b (kPipe b k)
  if r < 0x400 then
    if hwHasBase r then
      match keyFrame d b tk (hwKey d r) fn with
      | some (some kf) => hwBase d r kf
      | some none => .future
      | none => match t.bases.find? (fun e => e.1 == r) with | some e => .at e.2 | none => .future
    else match t.bases.find? (fun e => e.1 == r) with | some e => .at e.2 | none => .future
  else
    match keyFrame d b tk (keyOf b (ringPipe b r)) fn with
    | some (some kf) => match frameBase d r kf with
      | some x => .at x
      | none => if (match (d.ring.fbase.get [] r).head? with | some e => later e.1 kf | none => false) then .past else .future
    | some none => .future
    | none => match t.bases.find? (fun e => e.1 == r) with | some e => .at e.2 | none => .future

/-- Wait `i` of a task is met. -/
def waitMet (d : Dev) (b : Bytes) (k fn : Nat) (t : TaskSt) (i : Nat) : Bool :=
  let r := kWaitRing b k i
  match waitBase d b k fn t r with
  | .at x => waitGe (ringVal d r) (((x : Int) + kWaitOfs b k i) % 2 ^ 32).toNat
  | .past => true
  | .future => false

def unmetWaits (d : Dev) (b : Bytes) (k fn : Nat) (t : TaskSt) : Nat :=
  ((List.range (kNwait b k)).filter (fun i => !waitMet d b k fn t i)).length

/-- A TWAIT's target is reached (R229, R550). -/
def twaitMet (d : Dev) (c : Ctx) (w : Nat × Nat) : Bool :=
  match taskSt d c.task c.pfn c.out with
  | none => false
  | some t => match waitBase d (imgOf d c.out) c.task c.pfn t w.1 with
    | .at x => waitGe (ringVal d w.1) (x + w.2)
    | .past => true
    | .future => false

/-- Every waiter on a Ring (R239): host waits, task waits of waiting tasks, TWAITs held. -/
def ringWaiters (d : Dev) (r : Nat) : Nat :=
  hostWaiters d r +
  (d.stem.frames.map (fun f => (f.tasks.map (fun t =>
    let b := imgOf d f.out
    if t.state = 0 then ((List.range (kNwait b t.task)).filter (fun i =>
      kWaitRing b t.task i == r && !waitMet d b t.task f.pfn t i)).length else 0)).sum)).sum +
  (d.br.map (fun e => (e.2.ctxs.filter (fun c => match c.wait with
    | some w => w.1 == r && !twaitMet d c w | none => false)).length)).sum

/-- The frame of a writer of another pipeline that matches a task's frame (R257). -/
def writerFrame (d : Dev) (b : Bytes) (k fn w : Nat) : Nat :=
  if kPipe b w = kPipe b k then fn
  else match keyFrame d b (keyOf b (kPipe b k)) (keyOf b (kPipe b w)) fn with
    | some (some f) => f
    | _ => let r0 := d.stem.recs.get (0, 0) (2 * w); let r1 := d.stem.recs.get (0, 0) (2 * w + 1)
           if later r1.2 r0.2 then r1.2 else r0.2

/-! ## Run-time shapes (R235 to R237, R547) -/

/-- The frame whose data a task of frame `fn` reads from tensor `t` with frame offset FOFF: that of the writer's key frame
(R224, R244, R547; DEDUCED, log entry 21). -/
def dataFrame (d : Dev) (b : Bytes) (k fn t foff : Nat) : Nat :=
  let bind := tBind b t
  if bind = 1 ∨ bind = 2 then
    match keyFrame d b (keyOf b (kPipe b k)) (bind - 1, 0) fn with
    | some (some f) => f
    | _ => match (d.ring.base.get [] (2 * (bind - 1))).head? with | some e => e.1 | none => 0
  else match writerOf b t with
    | some w => sub32 (if kPipe b w = kPipe b k then fn else writerFrame d b k fn w) foff
    | none => sub32 fn foff

/-- FOFF of the line loads that read tensor `t` in a program. -/
def foffOf (b : Bytes) (p t : Nat) : Nat :=
  match (instrsOf b p).find? (fun e => e.2.2.isLines && (coordAt b p e.2.2.ca).trunk && (coordAt b p e.2.2.ca).index == t) with
  | some e => bits e.2.2.w2 0 4
  | none => 0

/-- The one task that writes a tensor; none when no task does, or two. -/
def soleWriter (b : Bytes) (t : Nat) : Option Nat :=
  match (List.range (nTasks b)).filter (fun k => (kOuts b k).contains t) with | [k] => some k | _ => none

/-- Width and height that a program writes of tensor `t` when its loops run over `wo` by `ho` (R547). -/
def writtenExtent (b : Bytes) (p t wo ho : Nat) : Nat × Nat :=
  if wo = 0 ∨ ho = 0 then (0, 0)
  else
    let l := (instrsOf b p).filter (fun e => e.2.2.op == 0xF && (coordAt b p e.2.2.cb).index == t)
    l.foldl (fun m e =>
      let i := e.2.2
      let c := coordAt b p i.cb
      let f : Nat := 2 ^ (if i.flag 10 then 0 else i.ff 12 2)
      -- the last line dealt, and the lines stored from there: the second of a pair only when it lies below H_out (R223)
      let st := 1 + hLstep b p
      let yl := (ho - 1) / st * st
      let nl := if i.flag 10 then st else bits i.w1 8 4 + 1
      let nl := if st = 2 ∧ nl = 2 ∧ ho ≤ yl + 1 then 1 else nl
      let x := (c.x (wo - 1)).toNat
      let y := (c.y yl).toNat + nl - 1
      (max m.1 (min (tW b t) ((x + 1) * f)), max m.2 (min (tH b t) ((y + 1) * f)))) (0, 0)

/-- An input frame that its port still knows. -/
def inputFrame (d : Dev) (p fn : Nat) : Option InFrame := (if p = 0 then d.inp.p0 else d.inp.p1).frames.find? (fun f => f.ifn == fn)

/-- Line `y` of an input frame was skipped: a read of it finds zeros (R302). -/
def lineSkipped (d : Dev) (b : Bytes) (t fn : Nat) (y : Int) : Bool :=
  (tBind b t == 1 || tBind b t == 2) && (match inputFrame d (tBind b t - 1) fn with | some f => f.skip.testBit y.toNat | none => false)

/-- Run-time width and height of tensor `t` for the frame `fn` that wrote it (R547); of an input frame that has ended, the lines written or
skipped (R301). -/
def tensorShape (d : Dev) (b : Bytes) : Nat → Nat → Nat → Nat × Nat
  | 0, t, _ => (tW b t, tH b t)
  | fuel + 1, t, fn =>
    let plan := (tW b t, tH b t)
    if tBind b t = 1 ∨ tBind b t = 2 then
      match inputFrame d (tBind b t - 1) fn with
      | some f => (f.width, if f.ended then f.count else f.height)
      | none => plan
    else match (if tBind b t = 0 then soleWriter b t else none) with
      | none => plan
      | some k =>
        let r := d.stem.shp.get (0, 0, 0) (t * 16 + fn % max 1 (tSlots b t))
        if r.2.1 ≠ 0 ∧ r.1 = fn then (r.2.1 - 1, r.2.2 - 1)
        else
          let p := progOff b (kProg b k)
          let ti := hIn b p
          let s := tensorShape d b fuel ti (dataFrame d b k fn ti (foffOf b p ti))
          if s.1 < tW b ti ∨ s.2 < tH b ti then
            writtenExtent b p t (outW b p (min s.1 (tW b ti))) (outH b p (min s.2 (tH b ti)))
          else plan

/-- The tensor lies on the way to the output frame buffer: task `k` writes it, or a task that reads what `k` writes does. -/
def reachesFb (b : Bytes) : Nat → Nat → Bool
  | 0, _ => false
  | fuel + 1, k => (kOuts b k).any (fun t => tBind b t == 3) ||
      (List.range (nTasks b)).any (fun j => j != k && (kOuts b k).any (fun t => (kIns b j).contains t) && reachesFb b fuel j)

/-- Output frames that input frame `f` of CAD_PORT feeds, among those opened. -/
def fedBy (d : Dev) (f : Nat) : List Nat := (d.stem.cad.filter (fun e => e.2 == f)).map (·.1)

/-- Output frame that frame `fn` of task `k` writes: its own when the output keys it; else the newest opened one that its input frame
feeds, or the first to come; a frame that feeds none counts as the output frame of its number (DESIGN CHOICE, log entry 91). -/
def ledgerFrame (d : Dev) (b : Bytes) (k fn : Nat) : Nat :=
  if keyOf b (kPipe b k) = (2, 0) then fn
  else if keyOf b (kPipe b k) ≠ (gCadPort b, 0) then fn
  else match fedBy d fn, d.stem.cad.head? with
    | o :: _, _ => o
    | [], some e => (((List.range 64).map (fun i => add32 e.1 (i + 1))).find? (fun o => cadMap d o == fn)).getD fn
    | [], none => fn

/-- Output frames of the raster that belong to frame `fn` of task `k`. -/
def outputFrames (d : Dev) (b : Bytes) (k fn : Nat) : List Nat :=
  if keyOf b (kPipe b k) = (2, 0) then fedBy d (cadMap d fn) else fedBy d fn

/-- Run-time input shape of task `k` in frame `fn`, and the output shape its loops run over. -/
def loopShape (d : Dev) (b : Bytes) (k fn : Nat) : (Nat × Nat) × (Nat × Nat) :=
  let p := progOff b (kProg b k)
  let t := hIn b p
  let s := tensorShape d b (nTasks b + 1) t (dataFrame d b k fn t (foffOf b p t))
  (s, (outW b p (min s.1 (tW b t)), outH b p (min s.2 (tH b t))))

/-- SHAPE_SHORT of a task (R235, R236, R238). -/
def shapeShort (d : Dev) (b : Bytes) (k w h z : Nat) : Dev :=
  raise d 0x0251 (4 + pStem b (kPipe b k)) 0 (w + 2 * h + 4 * z + k % 65536 * 65536)

/-! ## Releases (R72, R225) -/

/-- Frame slot of tensor `t` that a read with frame offset `foff` reads (R224). -/
def moveSlot (d : Dev) (b : Bytes) (k fn t foff : Nat) : Nat := dataFrame d b k fn t foff % max 1 (tSlots b t)

/-- Frame slot that a TLOAD reads: with LATEST that of the frame before the Ring's value, none at value 0 (R224). -/
def loadSlot (d : Dev) (b : Bytes) (k fn : Nat) (i : TInstr) (t : Nat) : Option Nat :=
  if i.flag 13 then
    let v := ringVal d (i.w2 / 65536)
    if v = 0 then none else some ((v - 1) % max 1 (tSlots b t))
  else some (moveSlot d b k fn t (bits i.w2 0 4))

/-- Bytes that an instruction marked REL reads at a loop instant, in a tensor of run-time height `h`. -/
def relRuns (d : Dev) (b : Bytes) (k fn p : Nat) (i : TInstr) (y z x0 r : Nat) (h : Nat → Nat) : List (Nat × Nat) :=
  let t := (coordAt b p i.ca).index
  match (if i.op = 0xC then some (moveSlot d b k fn t 0) else loadSlot d b k fn i t) with
  | none => []
  | some f => moveRuns b p i f y z x0 r (h t)

/-- Pages that logical number `j` of a task releases in a frame, its loops running over `wo` by `ho`: a page stands once for every REL
that covers it. -/
def relPages (d : Dev) (b : Bytes) (k fn j nb wo ho : Nat) (h : Nat → Nat) : List Nat :=
  let p := progOff b (kProg b k)
  ((instrsOf b p).filter (fun e => (e.2.2.isLines && e.2.2.flag 12) || (e.2.2.op == 0xC && e.2.2.flag 10))).flatMap (fun e =>
    (instants b p j nb wo ho e.1).flatMap (fun n =>
      if (e.2.2.xi0 && !n.2.2.2.2.1) || (e.2.2.xlast && !n.2.2.2.2.2) then []
      else pagesOf (relRuns d b k fn p e.2.2 n.1 n.2.1 n.2.2.1 n.2.2.2.1 h)))

/-- The pages that the task's planned deal would have released in the frame and that it has not released (R225). -/
def releaseRest (d : Dev) (b : Bytes) (k fn : Nat) (out : Bool) : Dev :=
  let freed := match taskSt d k fn out with | some t => t.freed | none => []
  let p := progOff b (kProg b k)
  let nb := (kBranches b k).length
  let vs := ((List.range nb).flatMap (fun j => relPages d b k fn j nb (outW b p (tW b (hIn b p))) (outH b p (tH b (hIn b p))) (tH b))).eraseDups
  (vs.filter (fun v => !freed.contains v)).foldl (fun d v => releasePage d (if out then 1 else 0) v) d

/-- PAGE_RELEASE: every Branch that issues RELs covering the page in the frame has completed them (R225). -/
def pageReleaseOp (k fn v : Nat) (d : Dev) : Dev :=
  let out := outFlag d k fn
  let b := imgOf d out
  match taskSt d k fn out with
  | none => d
  | some t =>
    let cs := d.br.flatMap (fun e => e.2.ctxs.filter (fun c => c.task == k && c.pfn == fn && c.out == out))
    let ns := kBranches b k
    let h (t : Nat) : Nat := (tensorShape d b (nTasks b + 1) t (dataFrame d b k fn t (foffOf b (progOff b (kProg b k)) t))).2
    let done (j n : Nat) : Bool := match cs.find? (fun c => c.logic == n) with
      | none => false
      | some c => decide ((relPages d b k fn j ns.length c.wo c.ho h).count v ≤ c.rels.count v)
    if t.state ≠ 3 && !t.freed.contains v && cs.any (fun c => c.rels.contains v) && (List.range ns.length).all (fun j => done j (ns.getD j 0)) then
      mapTask (releasePage d (if out then 1 else 0) v) k fn out (fun t => { t with freed := v :: t.freed })
    else d

def execPageRelease (task : Nat) (pfn : Word) (vpn : Nat) (s : State) : Out := onDev s (pageReleaseOp task pfn.toNat vpn)

/-! ## Scale steps at the end of a task (R140, R142) -/

/-- Dynamic steps that the program of task `k` names. -/
def taskSteps (b : Bytes) (k : Nat) : List Nat :=
  (dynSteps b).filter (fun n => (instrsOf b (progOff b (kProg b k))).any (fun e => e.2.2.ostep == some n))

/-- A task that ends FENCED or TIMEOUT: its frame's entries that are not written get VALID = 0. -/
def voidEntries (d : Dev) (b : Bytes) (k fn : Nat) (out : Bool) : Dev :=
  (taskSteps b k).foldl (fun d n => (List.range (stepCells d out n).count).foldl (fun d i =>
    if (cellAt d out n i fn).written then d else writeEntry d out n i fn (List.replicate 16 0)) d) d

/-- Events of Table Quant-6, each when its count is not zero. -/
def scaleEvents (d : Dev) (b : Bytes) (k : Nat) (t : TaskSt) : Dev :=
  [(0x301, 2, t.ovr), (0x302, 0, t.under), (0x303, 0, t.elim), (0x304, 0, t.cold)].foldl (fun d (e : Nat × Nat × Nat) =>
    if e.2.2 = 0 then d else raise d e.1 (4 + pStem b (kPipe b k)) e.2.1 (min e.2.2 0xFFFF + k % 65536 * 65536)) d

/-! ## Ends of tasks (R254 to R257) -/

/-- Raise a Ring to at least `v`. -/
def ringRaise (d : Dev) (r v : Nat) : Dev := if later v (ringVal d r) then ringPut d r v else d

/-- Every FRAME Ring of SIG0 to SIG3 holds what it would hold had the task finished the frame; a valid-Ring is left. -/
def raiseSigs (d : Dev) (b : Bytes) (k fn : Nat) : Dev :=
  (kSigs b k).foldl (fun d r =>
    if (validRingOf b r).isSome then d
    else match ringDecl b r, frameBase d r fn with
      | some e, some x => if e.kind = 2 then ringRaise d r (add32 x e.total) else d
      | _, _ => d) d

/-- Where the status records lie: STEM_STATUS_BASE, in the Root region (R256, DESIGN CHOICE log entry 8). -/
def statusBase : Nat := 0x20000

/-- Task `k` reads what task `w` wrote in an earlier frame: its own output, a history tensor, an earlier frame slot, or a tensor whose
writer it waits for with a negative OFFSET alone (R257). -/
def readsEarlier (b : Bytes) (k t w : Nat) : Bool :=
  let ws := (List.range (kNwait b k)).filter (fun i => kWaitRing b k i != 0 && (kDone b w == kWaitRing b k i || (kSigs b w).contains (kWaitRing b k i)))
  k == w || tHist b t || foffOf b (progOff b (kProg b k)) t != 0 || (!ws.isEmpty && ws.all (fun i => decide (kWaitOfs b k i < 0)))

/-- INHERITED and inherited VARIES, from the records of the writers of the inputs (R257, R258). -/
def inheritedFlags (d : Dev) (b : Bytes) (k fn : Nat) : Nat :=
  (kIns b k).foldl (fun acc t =>
    ((List.range (nTasks b)).filter (fun w => (kOuts b w).contains t && !readsEarlier b k t w)).foldl (fun acc w =>
      let f := writerFrame d b k fn w
      let r := d.stem.recs.get (0, 0) (2 * w + f % 2)
      if r.2 = f && r.1 != 0 then
        let st := r.1 / 2 % 256
        let fl := r.1 / 2
        let acc := if st = stFenced || st = stTimeout || fl.testBit fInherited || fl.testBit fParity || fl.testBit fUncorr ||
          fl.testBit fAudit then setBit acc fInherited true else acc
        if fl.testBit fVaries then setBit acc fVaries true else acc
      else acc) acc) 0

/-- The 32 bytes of a status record (Table Sched-4). -/
def recordBytes (t : TaskSt) (status flags pfn run time : Nat) : Bytes :=
  le 4 (status + flags / 256 * 256 % 2 ^ 18) ++ le 4 pfn ++ le 4 (min t.sat 0xFFFFFFFF) ++
  le 2 (min t.under 0xFFFF) ++ le 2 (min t.elim 0xFFFF) ++ le 4 (min run 0xFFFFFFFF) ++ le 4 (min t.stall 0xFFFFFFFF) ++
  le 2 (min t.bad 0xFFFF) ++ le 2 (min t.slices 0xFFFF) ++ le 4 (time % 2 ^ 32)

/-- The Branch stands at a tile boundary: nothing streams in its Twigs (R144, R172, R211). -/
def atBoundary (n : Nat) (d : Dev) : Dev :=
  setFlds d ((seqBoundary n, 1) :: (List.range 5).flatMap (fun t => [(twigMode n t, 0), (twigPlane n t, 0)]))

/-- A Twig whose tiles are discarded without drain. -/
def Twig.empty (w : Twig) : Twig := { w with acc := [], slotP := [], bad := 0 }

/-- Drop a task from every Branch: it issues no more, its tiles are discarded without drain (R254), so that none is held across a
change of Stem (R155). -/
def dropTask (d : Dev) (k pfn : Nat) (out : Bool) : Dev :=
  let heads (b : Branch) : Bool := b.cur.isSome && (match b.ctxs.head? with | some c => c.task == k && c.pfn == pfn && c.out == out | none => false)
  let at_ := (d.br.filter (fun e => heads e.2)).map (·.1)
  let d := at_.foldl (fun d n => atBoundary n d) d
  { d with br := d.br.foldl (fun m e =>
      let b := e.2
      m.put Branch.reset e.1 { b with
        ctxs := b.ctxs.filter (fun c => !(c.task == k && c.pfn == pfn && c.out == out))
        cur := if heads b then none else b.cur
        twig := if heads b then b.twig.map (fun w => (w.1, w.2.empty)) else b.twig
        aud := if heads b then [] else b.aud
        haloIn := b.haloIn.filter (fun x => !(x.task == k && x.pfn == pfn && x.out == out))
        haloRx := b.haloRx.filter (fun x => !(x.task == k && x.pfn == pfn && x.out == out))
        haloLog := b.haloLog.filter (fun x => !(x.task == k && x.pfn == pfn && x.out == out))
        mcast := b.mcast.filter (fun x => !(x.task == k && x.pfn == pfn && x.out == out)) }) d.br }

/-- ACLK steps in MHz (R506). -/
def aclkMhz (step : Nat) : Nat := match step with | 0 => 500 | 1 => 400 | 2 => 300 | _ => 250

/-- History tensors the task writes are invalidated when its frame closes (R260, cause 4). -/
def histFail (d : Dev) (b : Bytes) (k fn : Nat) (out : Bool) : Dev :=
  { d with stem := { d.stem with histReq := d.stem.histReq ++
      ((kOuts b k).filter (fun t => tHist b t)).map (fun t => { out, tensor := t, cause := 4, pfn := some fn }) } }

/-- Consumers of a STREAMING tensor that Branches write: the tasks that read it (R74). -/
def lineReaders (b : Bytes) (t : Nat) : List Nat := ((List.range (nTasks b)).filter (fun k => (kIns b k).contains t)).map (· + 1)

/-- The line ring of a STREAMING tensor that Branches write: of H × NSLOT slots, line `y` of frame `f` counting f × H + y; the outgoing
Graft's stand 65,536 further on (DEDUCED, log entry 81). -/
def branchRing (out : Bool) (t : Nat) : Nat := 0x10000 + t + if out then 0x10000 else 0

/-- A task that has ended has finished the lines of its frame in every STREAMING input that Branches write (R74). -/
def finishRings (d : Dev) (b : Bytes) (k fn : Nat) (out : Bool) : Dev :=
  (kIns b k).foldl (fun d t =>
    if (lineRing d (branchRing out t)).slots = 0 then d
    else
      let f := dataFrame d b k fn t (foffOf b (progOff b (kProg b k)) t)
      finishLines d (branchRing out t) (k + 1) (add32 (f * tH b t % 2 ^ 32) (tH b t)) (lineReaders b t)) d

/-- A task completes with a status: Rings as the status asks, the record written, DONE_RING added, the event raised
(R249, R254, R256). -/
def endTask (d : Dev) (k pfn : Nat) (out : Bool) (status flags : Nat) : Dev :=
  let b := imgOf d out
  match taskSt d k pfn out with
  | none => d
  | some t =>
    if t.state = 3 then d
    else
      let bad := status == stFenced || status == stTimeout
      let d := if bad || flags != 0 then raiseSigs d b k pfn else d
      let d := if bad || t.flags.testBit fUncorr then histFail d b k pfn out else d
      let d := scaleEvents (if bad then voidEntries d b k pfn out else d) b k t
      let d := releaseRest d b k pfn out
      let d := finishRings (unstage (dropTask d k pfn out) k) b k pfn out
      let fl := t.flags ||| flags ||| inheritedFlags d b k pfn
      let fl := if kVaries b k then setBit fl fVaries true else fl
      let run := if t.start = 0 then 0 else (d.devTime.toNat - t.start) * aclkMhz (fld d clkAclk) / 1000
      let d := writeMem d (trunkBase + statusBase + 32 * (2 * k + pfn % 2)) (recordBytes { t with stall := (stallTime d k pfn (if out then 1 else 0)).1 } status fl pfn run d.devTime.toNat)
      let word := (2 * (status + fl / 256 * 256) + 1, pfn)
      let d := { d with stem := { d.stem with recs := d.stem.recs.put (0, 0) (2 * k + pfn % 2) word } }
      let d := mapTask (dropStalls d k pfn (if out then 1 else 0)) k pfn out (fun t => { t with state := 3, flags := fl })
      let d := if kDone b k != 0 then ringInc d (kDone b k) 1 else d
      if bad then raise d 0x0201 (4 + pStem b (kPipe b k)) 2 (status + kPipe b k * 256 + k % 65536 * 65536) else d

/-! ## Frames open and close (R245 to R247) -/

/-- A tensor that task `k` names in IN or OUT holds a logical page in bank group `g` (R90). -/
def usesGroup (d : Dev) (b : Bytes) (out : Bool) (k g : Nat) : Bool :=
  (kIns b k ++ kOuts b k).any (fun t => (List.range (tPages b t)).any (fun i =>
    let p := pageAt d (if out then 1 else 0) (tVpn b t + i)
    (p.loc == 1 || p.loc == 3) && p.lpn / 512 == g))

/-- Units a task needs: its Stem, and Branches that are neither in service nor hosted, and fenced bank groups that held
pages of its tensors when they were fenced (R485, R90). -/
def taskFenced (nv : NonVol) (d : Dev) (b : Bytes) (out : Bool) (k : Nat) : Bool :=
  fenced d (4 + pStem b (kPipe b k)) ||
  (kBranches b k).any (fun n => (brHost nv d n).isNone) ||
  d.trk.fenceUse.any (fun e => e.1 == out && e.2.1 == k)

/-- The pipeline is shed by the governor, or Panel Replay holds the picture (R252, R356). -/
def pipeShed (d : Dev) (p : Nat) : Bool := (fld d clkShed).testBit p
def replaying (d : Dev) : Bool := decide (2 ≤ fld d prState)

/-- Every unfinished task of a frame ends with `status`. -/
def endFrame (d : Dev) (f : Frame) (status flags : Nat) : Dev :=
  f.tasks.foldl (fun d t => endTask d t.task f.pfn f.out status flags) d

/-- Bases of the Rings a pipeline's tasks signal, for frame `fn` (R243): the last base plus TOTAL, 0 for the first. -/
def openBases (d : Dev) (b : Bytes) (p fn : Nat) : Dev :=
  (ringEntries b).foldl (fun d e =>
    if e.2.kind = 2 && ringPipe b e.1 = p && (frameBase d e.1 fn).isNone then
      match (d.ring.fbase.get [] e.1).head? with
      | none => setFrameBase d e.1 fn 0
      | some x => setFrameBase d e.1 fn (add32 x.2 (e.2.total * sub32 fn x.1))
    else d) d

/-- Values that HW Rings with no matching base hold as the frame opens (R244). -/
def openWaitBases (d : Dev) (b : Bytes) (k : Nat) : List (Nat × Nat) :=
  let twaits := ((instrsOf b (progOff b (kProg b k))).filter (fun e => e.2.2.op == 0x11)).map (fun e => e.2.2.w1 % 65536)
  (((List.range (kNwait b k)).map (kWaitRing b k)) ++ twaits).eraseDups.map (fun r =>
    let latest := (d.ring.base.get [] r).head?
    (r, if hwHasBase r then (match latest with | some e => e.2 | none => 0)
        else if r < 0x400 then ringVal d r
        else (openedBase d r (fld d (stemPfnOpen (pStem b (ringPipe b r))))).getD 0))

/-- At the end of the cycle in which frames opened, their waits on HW Rings that have no frame base take the Rings' values (R244). -/
def latchWaits (l : List (Nat × Nat)) (d : Dev) : Dev :=
  l.foldl (fun d f => mapFrame d f.1 f.2 false (fun g => { g with tasks := g.tasks.map (fun t =>
    { t with bases := t.bases.map (fun e => if e.1 < 0x400 ∧ !hwHasBase e.1 then (e.1, ringVal d e.1) else e) }) })) d

/-- Invalidate a history tensor: valid-Ring 0, both scale table slots of its CARRIED steps cleared (R259 to R261). -/
def invalidate (d : Dev) (out : Bool) (t cause : Nat) : Dev :=
  let b := imgOf d out
  raise (ringPut (clearCarried d out t) (tValid b t) 0) 0x0204 (4 + pStem b (tPipe b t)) 0 (t + cause * 65536)

/-- Requests whose frame is no longer open take effect (R261). -/
def serveHist (d : Dev) : Dev :=
  let busy (e : HistReq) : Bool := match writerOf (imgOf d e.out) e.tensor, e.pfn with
    | some k, some fn => (frameOf d (kPipe (imgOf d e.out) k) fn e.out).isSome
    | _, _ => false
  let now := d.stem.histReq.filter (fun e => !busy e)
  let d := { d with stem := { d.stem with histReq := d.stem.histReq.filter busy } }
  now.foldl (fun d e => invalidate d e.out e.tensor e.cause) d

/-- The frame-end audit of the FRAME Rings a pipeline signals (R247). -/
def auditRings (d : Dev) (b : Bytes) (p fn : Nat) : Dev :=
  (ringEntries b).foldl (fun d e =>
    let r := e.1
    if e.2.kind != 2 || !((tasksOf b p).any (fun k => (kSigs b k).contains r || kDone b k == r)) then d
    else match frameBase d r fn with
      | none => d
      | some x =>
        let want := add32 x e.2.total
        let v := ringVal d r
        if v = want then d
        else
          let diff : Int := if later v want then (sub32 v want : Int) else -(sub32 want v : Int)
          let arg := r + ofS 16 (clampI (-32768) 32767 diff) * 65536
          let d := if later v want then setFrameBase d r (add32 fn 1) v else ringPut d r want
          raise (bump d (aAudit (pStem b p)) 1) 0x0203 (4 + pStem b p) 0 arg) d

/-- Frames close: PFN_DONE, the audit, and the invalidations that waited for them (R245 to R247, R261). -/
def closeThese (l : List Frame) (d : Dev) : Dev :=
  let d := setFrames d (d.stem.frames.filter (fun f => !l.any (fun g => g.pipe == f.pipe && g.pfn == f.pfn && g.out == f.out)))
  serveHist (l.foldl (fun d f => auditRings (setFld d (stemPfnDone (pStem (imgOf d f.out) f.pipe)) f.pfn) (imgOf d f.out) f.pipe f.pfn) d)

/-- Frame `fn` of pipeline `p` opens (R245, R246, R252, R485). The exit frame of Panel Replay is produced as every frame is
(R357). -/
def openFrame (nv : NonVol) (p fn : Nat) (d : Dev) : Dev :=
  let b := img0 d
  if pClass b p = 0 then d
  else
    -- R246: frame fn - 2 must not be open any more
    let d := match frameOf d p (sub32 fn 2) false with
      | none => d
      | some f =>
        let n := (f.tasks.filter (fun t => t.state != 3)).length
        closeThese [f] (if n = 0 then d
          else raise (bump (endFrame d f stTimeout 0) (aOverrun (pStem b p)) 1) 0x0202 (4 + pStem b p) 2 (p + n * 65536))
    let d := openBases d b p fn
    let d := setFld (ringInc d (0x30 + p) 1) (stemPfnOpen (pStem b p)) fn
    let tasks := (tasksOf b p).map (fun k => { TaskSt.new k with bases := openWaitBases d b k })
    let d := if d.stem.first.any (fun e => e.1 == (p, false)) then d
             else { d with stem := { d.stem with first := ((p, false), fn) :: d.stem.first } }
    let d := setFrames d (d.stem.frames ++ [{ pipe := p, pfn := fn, time := d.devTime.toNat, out := false, tasks }])
    let shed := pipeShed d p
    let d := if shed && !d.stem.shedRep.testBit p then
        raise { d with stem := { d.stem with shedRep := setBit d.stem.shedRep p true } } 0x0205 (4 + pStem b p) 1 p
      else if !shed then { d with stem := { d.stem with shedRep := setBit d.stem.shedRep p false } } else d
    let d := (tasksOf b p).foldl (fun d k =>
      if shed || (replaying d && !(pKey b p = 2 && d.ras.prExit = some fn)) then endTask d k fn false stOk (2 ^ fShedBit + 2 ^ fVaries)
      else if fn % kPeriod b k != kPhase b k then endTask d k fn false stOk (2 ^ fSkipped)
      else if taskFenced nv d b false k then endTask d k fn false stFenced 0
      else d) d
    -- a frame with nothing to run closes at once; that of a free-running pipeline at the next step (log entry 95)
    match frameOf d p fn false with
    | some f => if pKey b p ≠ 4 && f.tasks.all (fun t => t.state == 3) then closeThese [f] d else d
    | none => d

/-- Frames of pipelines, as (pipeline, frame), that open in one cycle. -/
def openFrames (nv : NonVol) (l : List (Nat × Nat)) (d : Dev) : Dev := latchWaits l (l.foldl (fun d f => openFrame nv f.1 f.2 d) d)

/-! ## Release of a space (R64, R69, R294) -/

/-- Free every page of a space, its spill pool and its page marks. -/
def releaseSpace (sp : Nat) (d : Dev) : Dev :=
  let d := camRelease sp d
  let m := if sp = 0 then d.trk.map0 else d.trk.map1
  let d := m.foldl (fun d e => freePage d sp e.1) d
  let d := { d with trk := { d.trk with unwr := d.trk.unwr.filter (fun e => (e.1 / 65536 == 1) != (sp == 1)),
                                        stalls := d.trk.stalls.filter (fun x => x.sp != sp),
                                        fenceUse := d.trk.fenceUse.filter (fun e => e.1 != (sp == 1)) } }
  if sp = 0 then { d with trk := { d.trk with spill0 := (0, 0) } }
  else { d with trk := { d.trk with spill1 := (0, 0), carry := [], lines := d.trk.lines.filter (fun e => decide (e.1 < 0x20000)) } }

/-- No host wait outlives the Graft that declares its Ring: the waits complete TIMEOUT (R432). -/
def endGraftWaits (b : Bytes) (d : Dev) : Dev :=
  (d.usb.waits.filter (fun w => (ringDecl b w.ring).isSome && ringKind d w.ring == 0)).foldl (fun d w =>
    complete (dropWait d w.tag) w.tag stTimeout []) d

/-- Packs whose version or key no longer stands leave with the last Graft that references them (R467). -/
def dropOldPacks (d : Dev) : Dev :=
  let held (p : SeedPack) : Bool := [img0 d, img1 d].any (fun b => (List.range (nSeeds b)).any (fun i => seedHash b i == p.hash))
  let l := d.root.packs.filter (fun p => !p.old || held p)
  setFld { d with root := { d.root with packs := l } } seedCount l.length

/-- The outgoing Graft is released; `n` of its tasks ended TIMEOUT by R294. -/
def releaseOutgoing (n : Nat) (d : Dev) : Dev :=
  let b := img1 d
  let d := releaseSpace 1 d
  let d := { d with root := { d.root with space1 := none }, cells := d.cells.filter (fun e => decide (e.1 < outCells)) }
  raise (endGraftWaits b (dropOldPacks (setFld d graftSpace1 0))) 0x0263 0 0 n

/-- The outgoing Graft is released when its last open frame has closed (R294). -/
def releaseIfDone (d : Dev) : Dev :=
  if fld d graftSpace1 = 5 && !(d.stem.frames.any (·.out)) then releaseOutgoing 0 d else d

/-- A frame closes when every task is Complete; for a free-running pipeline the frame after next opens (R245 to R247). -/
def closeFrames (nv : NonVol) (d : Dev) : Dev :=
  let due := d.stem.frames.filter (fun f => f.tasks.all (fun t => t.state == 3))
  let d := closeThese due d
  releaseIfDone (openFrames nv ((due.filter (fun f => !f.out && pKey (img0 d) f.pipe == 4)).map (fun f => (f.pipe, add32 f.pfn 2))) d)

/-! ## Readiness and completion (R249, R250, R254, R262) -/

/-! ## Program order (R209, R211) -/

/-- Position of a logical Branch in its task's set. -/
def logicalNo (b : Bytes) (k n : Nat) : Nat := (lowest 16 (fun j => (kBranches b k).getD j 16 == n)).getD 0

/-- The context moved on until it stands at an instruction, or at its end (`sect` 4). -/
def Ctx.norm (b : Bytes) (p j nb : Nat) : Nat → Ctx → Ctx
  | 0, c => { c with sect := 4, idx := 0 }
  | f + 1, c =>
    let start (c : Ctx) : Ctx :=
      if dealtLine b p j nb c.yi < c.ho then Ctx.norm b p j nb f { c with sect := 1, idx := 0 } else { c with sect := 4, idx := 0 }
    if c.sect = 4 ∨ c.idx < hN b p c.sect then c
    else match c.sect with
      | 0 => start c
      | 1 => Ctx.norm b p j nb f { c with sect := if hN b p 2 = 0 then 3 else 2, idx := 0, r := 0 }
      | 2 => if c.r + 1 < hNr b p then Ctx.norm b p j nb f { c with idx := 0, r := c.r + 1 }
             else Ctx.norm b p j nb f { c with sect := 3, idx := 0, r := 0 }
      | _ =>
        let c := { c with idx := 0, it := c.it + 1, edge := true }
        if c.xi + 1 < nXi b p c.wo then start { c with xi := c.xi + 1 }
        else if c.z + 1 < hNz b p then start { c with xi := 0, z := c.z + 1 }
        else start { c with xi := 0, z := 0, yi := c.yi + 1 }

/-- A context of task `k` on logical Branch `n`, at the first instruction of its program. -/
def Ctx.start (b : Bytes) (k pfn : Nat) (out : Bool) (n wo ho : Nat) : Ctx :=
  Ctx.norm b (progOff b (kProg b k)) (logicalNo b k n) (kBranches b k).length 8
    { task := k, pfn, out, logic := n, sect := 0, idx := 0, yi := 0, z := 0, xi := 0, r := 0, it := 0, edge := true,
      wait := none, sigs := [], nSig := 0, absorb := [], drains := [], rels := [], wo, ho, lat := [],
      boxes := [], sent := [], again := [], short := false }

/-! ## Run-time shapes (R235 to R237) -/

def addMark (p f : Nat) (ext : Option (Nat × Nat)) (ovr : Bool) (d : Dev) : Dev :=
  { d with stem := { d.stem with marks := ((p, f, ext, ovr) :: d.stem.marks).take 16 } }

/-- What an input frame's short or clamped task does to the output frames that the frame feeds, those opened and those to come: an output
extent, in frames that pipeline `p` writes (R236), or rows shown from the Understory (R237). -/
def markFed (p f : Nat) (ext : Option (Nat × Nat)) (ovr : Bool) (d : Dev) : Dev :=
  (fedBy d f).foldl (fun d n => setOut d (applyMark d n (p, f, ext, ovr))) (addMark p f ext ovr d)

/-- The task's run-time input exceeds its plan: it is clamped, and rows judged from now on in the output frames it feeds are
shown from the Understory (R237). -/
def clampInput (d : Dev) (b : Bytes) (k pfn : Nat) (out : Bool) (w h : Nat) : Dev :=
  let d := mapTask d k pfn out (fun t => { t with flags := t.flags / 256 * 256 + stShapeOverrun })
  let d := raise d 0x0250 (4 + pStem b (kPipe b k)) 2 (w + 2 * h + k % 65536 * 65536)
  if reachesFb b 16 k then
    if keyOf b (kPipe b k) = (2, 0) then
      (outputFrames d b k pfn).foldl (fun d n => setOut d { outFrame d n with ovr := true }) (addMark (kPipe b k) (cadMap d pfn) none true d)
    else markFed (kPipe b k) pfn none true d
  else d

/-- A task whose loops run over a smaller shape: what it writes has that shape, and the deadline tiles of its output frame that
do not lie inside are the Understory's (R236, R547). -/
def shortInput (d : Dev) (b : Bytes) (k pfn : Nat) (out : Bool) (wo ho w h : Nat) : Dev :=
  let p := progOff b (kProg b k)
  let d := mapTask d k pfn out (fun t => { t with flags := (setBit (setBit (setBit t.flags fShort true) fShortW (w == 1)) fShortH (h == 1)) })
  (kOuts b k).foldl (fun d t =>
    let e := if soleWriter b t = some k then writtenExtent b p t wo ho else (tW b t, tH b t)
    let d := { d with stem := { d.stem with shp := d.stem.shp.put (0, 0, 0) (t * 16 + pfn % max 1 (tSlots b t)) (pfn, e.1 + 1, e.2 + 1) } }
    if tBind b t ≠ 3 then d
    else
      let ext := some (writtenExtent b p t wo ho)
      if keyOf b (kPipe b k) = (2, 0) then setOut d { outFrame d pfn with ext } else markFed (kPipe b k) pfn ext false d) d

/-- The outputs of a task that runs its whole plan have their planned shape (R547). -/
def plannedOutputs (d : Dev) (b : Bytes) (k pfn : Nat) : Dev :=
  (kOuts b k).foldl (fun d t =>
    { d with stem := { d.stem with shp := d.stem.shp.put (0, 0, 0) (t * 16 + pfn % max 1 (tSlots b t)) (pfn, tW b t + 1, tH b t + 1) } }) d

/-- A task of the Graft in force with at most one wait unmet: its staging request goes out, once (R79). -/
def askStaging (k pfn : Nat) (d : Dev) : Dev :=
  match taskSt d k pfn false with
  | none => d
  | some t =>
    if t.state = 0 && !t.asked && decide (unmetWaits d (img0 d) k pfn t ≤ 1) then
      stageTask (mapTask d k pfn false (fun t => { t with asked := true })) (pStem (img0 d) (kPipe (img0 d) k)) k
    else d

/-- The staging requests that Ring values have let out since (R79). -/
def askAll (d : Dev) : Dev :=
  (d.stem.frames.filter (fun f => !f.out)).foldl (fun d f => f.tasks.foldl (fun d t => askStaging t.task f.pfn d) d) d

/-- Task `k` has completed frame `fn` on logical Branch `n`, or never ran it: its program has ended there and its tiles have drained. -/
def doneOn (d : Dev) (k fn : Nat) (out : Bool) (n : Nat) : Bool :=
  match taskSt d k fn out with
  | none => true
  | some t => t.state == 3 || d.br.any (fun x => x.2.ctxs.any (fun c => c.task == k && c.pfn == fn && c.out == out && c.logic == n && c.sect == 4 && c.drains.isEmpty))

/-- TASK_READY: every task wait is met and a Branch of the set has completed the task's previous frame, so that the task is Ready there; its
other Branches take it up as they complete that frame (R249). Coldness is read (R262) and the shape
its loops run over is fixed (R209, R235 to R237). With at most one wait unmet the staging request goes out (R79). A zero output
shape runs no instruction: the task completes at once. -/
def taskReadyOp (nv : NonVol) (k pfn : Nat) (d : Dev) : Dev :=
  let out := outFlag d k pfn
  let b := imgOf d out
  match taskSt d k pfn out with
  | none => d
  | some t =>
    let prev := (kBranches b k).isEmpty || (kBranches b k).any (doneOn d k (sub32 pfn 1) out)
    let d := askStaging k pfn d
    if t.state = 0 && unmetWaits d b k pfn t = 0 && prev then
      let cold := kHvring b k != 0 && decide (ringVal d (kHvring b k) < kHdepth b k)
      let d := mapTask d k pfn out (fun t => { t with state := 1, flags := if cold then setBit t.flags fCold true else t.flags })
      let ti := hIn b (progOff b (kProg b k))
      let (s, o) := loopShape d b k pfn
      let over_ : Nat × Nat := ((decide (tW b ti < s.1)).toNat, (decide (tH b ti < s.2)).toNat)
      let under : Nat × Nat := ((decide (s.1 < tW b ti)).toNat, (decide (s.2 < tH b ti)).toNat)
      let d := if over_ != (0, 0) then clampInput d b k pfn out over_.1 over_.2 else d
      let d := if under != (0, 0) then shortInput d b k pfn out o.1 o.2 under.1 under.2 else plannedOutputs d b k pfn
      if o.1 = 0 || o.2 = 0 then
        let d := shapeShort d b k under.1 under.2 1
        closeFrames nv (endTask d k pfn out (if over_ != (0, 0) then stShapeOverrun else stOk) (2 ^ fShort))
      else
        -- a program context on every Branch that serves the set
        (kBranches b k).foldl (fun d n =>
          match brHost nv d n with
          | none => d
          | some h =>
            let x := branch d h
            setBranch d h { x with ctxs := x.ctxs ++ [Ctx.start b k pfn out n o.1 o.2] }) d
    else d

/-- Every Branch of the set has run its program to the end. -/
def branchesDone (d : Dev) (k pfn : Nat) (out : Bool) : Bool :=
  let b := imgOf d out
  let cs := d.br.flatMap (fun e => e.2.ctxs.filter (fun c => c.task == k && c.pfn == pfn && c.out == out))
  (kBranches b k).all (fun n => cs.any (fun c => c.logic == n && c.sect == 4 && c.sigs.isEmpty && c.drains.isEmpty))

/-- TASK_COMPLETE: the record is written, then DONE_RING is added, and frames with nothing left close. -/
def taskCompleteOp (nv : NonVol) (k pfn : Nat) (d : Dev) : Dev :=
  let out := outFlag d k pfn
  match taskSt d k pfn out with
  | none => d
  | some t =>
    if (t.state = 1 || t.state = 2) && branchesDone d k pfn out then
      let st := if t.flags % 256 = stShapeOverrun then stShapeOverrun else stOk
      let b := imgOf d out
      let d := if t.flags.testBit fShort then shapeShort d b k (t.flags.testBit fShortW).toNat (t.flags.testBit fShortH).toNat 0 else d
      closeFrames nv (endTask d k pfn out st (if t.flags.testBit fShort then 2 ^ fShort else 0))
    else d

def execTaskComplete (task : Nat) (pfn : Word) (s : State) : Out := onDev s (taskCompleteOp s.nv task pfn.toNat)

/-- Line period of the timing in force in ns, as a fraction: numerator and denominator (R342). -/
def lpNs (d : Dev) : Nat × Nat :=
  let vt := inForce d dsoVactive + inForce d dsoVfp + inForce d dsoVsync + inForce d dsoVbp
  (1000000000000, max 1 (vt * inForce d dsoFrate))

/-- TASK_LIMIT_TIMEOUT: LIMIT_LP line periods have passed since the frame opened (R254). -/
def taskLimitOp (nv : NonVol) (k pfn : Nat) (d : Dev) : Dev :=
  let out := outFlag d k pfn
  let b := imgOf d out
  match frameOf d (kPipe b k) pfn out with
  | none => d
  | some f =>
    let (n, m) := lpNs d
    if kLimit b k != 0 && decide (kLimit b k * n ≤ (d.devTime.toNat - f.time) * m) then
      closeFrames nv (endTask d k pfn out stTimeout 0)
    else d

def execTaskLimitTimeout (task : Nat) (pfn : Word) (s : State) : Out := onDev s (taskLimitOp s.nv task pfn.toNat)

/-- TRUNK_STALL_TIMEOUT: a stall of the task that is still open is longer than TRK_STALL_LIMIT fc (R78). With a limit of 0 none is. -/
def trunkStallOp (nv : NonVol) (k pfn : Nat) (d : Dev) : Dev :=
  let out := outFlag d k pfn
  let b := imgOf d out
  let open_ := match taskSt d k pfn out with | some t => t.state == 1 || t.state == 2 | none => false
  if fld d trkStallLimit = 0 || !open_ || (stallTime d k pfn (if out then 1 else 0)).2 ≤ fld d trkStallLimit then d
  else
    let d := endTask d k pfn out stTimeout 0
    closeFrames nv (raise d 0x0402 (0x20 + homeGroup b (kPipe b k)) 2 (kPipe b k))

def execTrunkStallTimeout (task : Nat) (pfn : Word) (s : State) : Out := onDev s (trunkStallOp s.nv task pfn.toNat)

/-! ## History requests (R260, R265, R427) -/

def isHistory (d : Dev) (t : Nat) : Bool := hasGraft d && decide (t < nTensors (img0 d)) && tHist (img0 d) t

/-- An invalidation of the Graft in force: it takes effect when the writer's current frame, the oldest open one, closes (R261). -/
def requestHist (d : Dev) (t cause : Nat) : Dev :=
  let cur := match writerOf (img0 d) t with
    | some k => (d.stem.frames.find? (fun f => f.pipe == kPipe (img0 d) k && !f.out)).map (·.pfn)
    | none => none
  serveHist { d with stem := { d.stem with histReq := d.stem.histReq ++ [{ out := false, tensor := t, cause, pfn := cur }] } }

/-- HIST_INVALIDATE: BAD_ARG for a tensor that is not a history tensor of the Graft in force. -/
def histInvalidateOp (t key : Nat) (d : Dev) : Dev :=
  if isHistory d t then complete (requestHist d t 3) key stOk [] else complete d key stBadArg []

def execHistInvalidate (h : Hdr) (tensor : Nat) (s : State) : Out :=
  onDev s (request (.histInvalidate h tensor) h 1 0x10 (decide (h.length = 6)) (histInvalidateOp tensor))

/-- A write to STEM_HIST_INV; an index that is not a history tensor changes nothing. -/
def stemHistInvOp (value : Word) (d : Dev) : Dev :=
  let t := value.toNat % 65536
  if isHistory d t then requestHist d t 3 else d

def execStemHistInvWrite (value : Word) (s : State) : Out := onDev s (stemHistInvOp value)

/-! ## Ring commands that look for waiters (R239, R264, R432) -/

def execRingSet (h : Hdr) (ring : BitVec 16) (value : Word) (s : State) : Out :=
  onDev s (request (.ringSet h ring value) h 0 0x12 (decide (h.length = 8)) (hostRingSet ringWaiters ring.toNat value.toNat))

def execRingFree (h : Hdr) (ring : BitVec 16) (s : State) : Out :=
  onDev s (request (.ringFree h ring) h 0 0x15 (decide (h.length = 2)) (hostRingFree ringWaiters ring.toNat))

/-- RING_ADD: adds AMOUNT to the Ring that RING_SEL names, under R240 and R241; otherwise nothing changes. -/
def ringAddRegOp (value : Word) (d : Dev) : Dev :=
  let r := fld d ringSel
  if hostMayWrite d r && amountOk value.toNat then ringInc d r value.toNat else d

def execRingAddRegisterWrite (value : Word) (s : State) : Out := onDev s (ringAddRegOp value)

/-- RING_SET: writes the Ring that RING_SEL names when it has no waiter. -/
def ringSetRegOp (value : Word) (d : Dev) : Dev :=
  let r := fld d ringSel
  if hostMayWrite d r && ringWaiters d r = 0 then ringPut d r value.toNat else d

def execRingSetRegisterWrite (value : Word) (s : State) : Out := onDev s (ringSetRegOp value)

end Sys2Proof.Machine
end

