-- ==== Sys2Proof/Machine/Space.lean ====
section
/-! DEFINITION. The Graft in force as the other units see it: timing in force, admission of Strict pipelines, Panel
Replay exit, release of a space, Stump service (R54 to R60, R284, R294, R342, R357, R494 to R498). -/

namespace Sys2Proof.Machine

/-! ## Timing in force (R33, R342, R343) -/

def vactive (d : Dev) : Nat := inForce d dsoVactive
/-- Nominal VTOTAL of the timing in force. -/
def vtotalNom (d : Dev) : Nat := inForce d dsoVactive + inForce d dsoVfp + inForce d dsoVsync + inForce d dsoVbp
def htotal (d : Dev) : Nat := inForce d dsoHactive + inForce d dsoHfp + inForce d dsoHsync + inForce d dsoHbp
def dsoSplit (d : Dev) : Bool := inForce d dsoMode == 2
/-- Panel width and height (R343). -/
def panelW (d : Dev) : Nat := if dsoSplit d then 2 * inForce d dsoHactive else inForce d dsoHactive
def panelH (d : Dev) : Nat := vactive d
def pos (d : Dev) : Nat := fld d dsoPos
def ofn (d : Dev) : Nat := fld d dsoOfn

/-! ## The settings tuple (R4, R392, R393) -/

/-- GEN_SETTINGS of the grade. -/
def genSettings (nv : NonVol) : Nat := 2 + 5 * 2 ^ 4 + 1 * 2 ^ 8 + branchCount nv * 2 ^ 16

/-- Engines of the Grove of the Graft in force; 1 without a GROVE section, 0 with no Graft. -/
def groveN (d : Dev) : Nat :=
  if !hasGraft d then 0 else if gHas (img0 d) 0xB then u16 (img0 d) (gOff (img0 d) 0xB) else 1

/-- The 80 bytes of the settings tuple. -/
def settingsTuple (nv : NonVol) (d : Dev) : Bytes :=
  le 4 (genSettings nv) ++ le 1 (fld d clkAclk) ++ le 1 (fld d clkCap) ++ le 2 (groveN d) ++ le 4 (inForce d dsoFrate) ++
  le 2 (htotal d) ++ le 2 (vtotalNom d) ++ le 2 d.ras.lead ++ le 1 (inForce d dsoMode) ++ List.replicate 13 0 ++
  (match d.root.space0 with | some g => g.meas | none => List.replicate 48 0)

/-- GRV_TUPLE_TAG for the values in force. -/
def tupleTag (nv : NonVol) (d : Dev) : Nat := crc32 (settingsTuple nv d)

/-! ## Admission (R55 to R59) -/

def capWatts (c : Nat) : Nat := match c with | 0 => 40 | 1 => 55 | 2 => 70 | _ => 80

/-- a_g: the highest ACLK step (lowest index) whose P_a fits the cap (R56). -/
def guarStep (d : Dev) (b : Bytes) (i : Nat) : Option Nat :=
  lowest 4 (fun a => decide (certP b i a ≤ 100 * capWatts (fld d clkCap)))

/-- LPac at step `a`: floor(LP × f_ACLK) (R56). -/
def lpAc (d : Dev) (a : Nat) : Nat := let (n, m) := lpNs d; n * aclkMhz a / (m * 1000)

/-- R56: the pipeline fits at present clock, power, lead and Branches. -/
def admitOk (nv : NonVol) (d : Dev) (b : Bytes) (p : Nat) : Bool :=
  match certOf b p with
  | none => false
  | some i => match guarStep d b i with
    | none => false
    | some a =>
      decide (certWork b i a * (1000 + certM b i) ≤ 1000 * 8 * lpAc d a) &&
      decide (certLead b i a ≤ d.ras.lead) &&
      (pipeBranches b p).all (fun n => brInService nv d n &&
        !((List.range 16).any (fun m => m != n && brHost nv d m == some n))) &&
      decide (certNbr b i ≤ (pipeBranches b p).length) &&
      decide (fld d clkAclk ≤ a)

/-- R54: a Strict pipeline's tensors are PINNED or STREAMING. -/
def strictTensorsOk (b : Bytes) (p : Nat) : Bool :=
  (List.range (nTensors b)).all (fun t =>
    !(tPipe b t == p || (tasksOf b p).any (fun k => (kIns b k).contains t || (kOuts b k).contains t)) ||
    tClass b t == 0 || tClass b t == 2)

/-- A pipeline turns Elastic after a loss (R57). -/
def loseAdmission (p cause : Nat) (d : Dev) : Dev :=
  let d := setFlds d [(admitState p, 3), (admitCause p, cause)]
  raise d 0x0113 (4 + pStem (img0 d) p) 1 (p + cause * 256)

/-- Re-evaluate the admitted Strict pipelines that an event of Table Raster-6 touches: `hit` tells, from the index of a pipeline's
certificate record. -/
def reevaluate (nv : NonVol) (cause : Nat) (hit : Nat → Bool) (d : Dev) : Dev :=
  (List.range 4).foldl (fun d p =>
    if fld d (admitState p) = 1 && (match certOf (img0 d) p with | some i => hit i | none => false) && !admitOk nv d (img0 d) p then
      loseAdmission p cause d else d) d

/-- The lead that a LEAD gives: rounded down to a multiple of 8 and clamped by the slots of the frame buffer (R35). `vt` is the nominal
VTOTAL of the timing that LEAD goes with, not a frame's count after the cadence lock has moved its porch (DESIGN CHOICE, log entry
73). -/
def leadOf (d : Dev) (vt lead : Nat) : Nat := clampN 16 (if flag d leadSlots then vt else vt - 64) (lead / 8 * 8)

/-- R284: the certificate check at load and at apply, with the present settings. -/
def certOk (nv : NonVol) (d : Dev) (b : Bytes) : Bool :=
  (pipesOf b).all (fun p => pClass b p != 1 || (strictTensorsOk b p && admitOk nv d b p)) &&
  decide (gFbW b = panelW d) && decide (gFbH b = panelH d)

/-! ## Panel Replay exit (R357) -/

/-- A cause of Table Output-5 asks for exit. An entry that has not begun is abandoned (DEDUCED, log entry 9). -/
def replayExit (cause : Nat) (d : Dev) : Dev :=
  let d := if fld d prState ≠ 0 && (cause = 4 || cause = 5 || cause = 6) then setFld d prReq 0 else d
  if fld d prState = 2 then
    let d := setFld { d with ras := { d.ras with prExit := some (add32 (ofn d) 2), prCause := cause } } prState 3
    raise d 0x0108 0x3B 0 (3 + cause * 16)
  else if fld d prState = 1 then
    raise (setFlds { d with ras := { d.ras with entered := false } } [(prReq, 0), (prState, 0)]) 0x0108 0x3B 0 (cause * 16)
  else d

/-! ## Pages of the Root's units (R44, R64) -/

/-- Pages allocated for the understory ring under the timing in force: 64 lines of W × 4 bytes (R44, R64). -/
def undPages (d : Dev) : Nat := min 30 (cdiv (64 * panelW d * 4) 0x10000)

/-- Allocate the understory ring's pages after the Root region for the timing in force. -/
def placeUnd (d : Dev) : Dev :=
  let n := undPages d
  (List.range 30).foldl (fun d i =>
    let l := 64 + i
    let have_ := d.trk.used.get 0 l != 0
    if i < n && !have_ then takeLpn d .alloc l 3
    else if n ≤ i && have_ then freeLpn d .alloc l else d) d

/-! ## Stump service (R494 to R498) -/

/-- Step for an input size over an output size, u4.16, clamped (R494). -/
def stumpStep (w wp : Nat) : Nat :=
  if wp = 0 then 0x10000 else clampN 0x4000 0x20000 (rheDiv (w * 65536 : Nat) wp).toNat

/-- Steps from INT0's active size and the panel size; they take effect from the next line 0 the Understory produces. -/
def stumpSteps (d : Dev) : Dev :=
  if flag d stumpActive || !hasGraft d then
    { d with ras := { d.ras with undNext := some (stumpStep (fld d (intWidth 0)) (panelW d), stumpStep (fld d (intHeight 0)) (panelH d)) } }
  else d

/-- Pages of Stump service in the Stump reserve: the L0 buffer and INT0's line ring of 32 lines (R64, R494, R337). -/
def stumpRingPages (d : Dev) : Nat := min 23 (cdiv (32 * 3 * cdiv (fld d (intWidth 0)) 64 * 128) 0x10000)

/-- The pages of the Stump reserve that Stump service uses: the L0 buffer, and INT0's line ring for the width it has. -/
def stumpPages (take : Bool) (d : Dev) : Dev :=
  (List.range 150).foldl (fun d i =>
    let l := 94 + i
    let have_ := d.trk.used.get 0 l != 0
    let want := take && decide (i < 127 + stumpRingPages d)
    if want && !have_ then takeLpn d .alloc l 4
    else if !want && have_ then freeLpn d .alloc l else d) d

/-- First byte of the L0 buffer of Stump service, and of INT0's line ring. -/
def stumpL0 : Nat := lpnAddr 94 0
def stumpRing : Nat := lpnAddr 221 0

/-- No layer is declared: owner 7, disabled (R319). -/
def clearLayers (d : Dev) : Dev :=
  (List.range 8).foldl (fun d l =>
    let d := setFlds d [(cnpOwner l, 7), (cnpStateEn l, 0), (cnpStateBuf l, 0), (cnpStatePend l, 0), (cnpCached l, 0)]
    let d := (List.range 3).foldl (fun d b => setReg d (cnpBufReg l b) 0) d
    (List.range 5).foldl (fun d i => setLive d (cnpBase l + 4 * i) (resetRegs.get 0 (cnpBase l + 4 * i))) d) d

/-- Pending flip groups leave with a status. -/
def dropFlips (status : Nat) (p : FlipGroup → Bool) (d : Dev) : Dev :=
  let gone := d.cnp.groups.filter p
  let d := { d with cnp := { d.cnp with groups := d.cnp.groups.filter (fun g => !p g) } }
  let d := setFld d flipPending d.cnp.groups.length
  let d := (List.range 8).foldl (fun d l =>
    setFld d (cnpStatePend l) (d.cnp.groups.filter (fun g => g.mask.testBit l)).length) d
  gone.foldl (fun d g => raise (complete d g.tag status []) 0x0121 0x3A 0 (status + g.mask * 256)) d

/-- Layers of Stump service: L0 is the host's, with its one buffer, unless its bank group is fenced (R337). -/
def stumpLayers (d : Dev) : Dev :=
  let d := dropFlips stBusy (fun _ => true) (clearLayers d)
  let d := { d with cnp := { d.cnp with still := [], shown := [], chosen := [], off := 0, uiPend := none } }
  let d := setReg d 0x160424 0
  if fenced d 0x20 then d else setFlds d [(cnpOwner 0, 4), (cnpBufValid 0 0, 1), (cnpBufPinned 0 0, 1)]

/-- Recomputed steps of the Understory enter their registers. -/
def takeSteps (d : Dev) : Dev :=
  match d.ras.undNext with
  | some s => setFlds { d with ras := { d.ras with undNext := none } } [(undHstep, s.1), (undVstep, s.2)]
  | none => d

/-- Units take the settings of R494. -/
def stumpSettings (d : Dev) : Dev :=
  let d := stumpLayers (stumpPages true d)
  let d := newLineRing (setFlds d [(undSrc, 0), (undMode, 0)]) 0 32
  let d := setFlds d [(intWfmt 0, 0), (intCsc 0, 0), (intHpd 0, 1), (intHpd 1, 0)]
  takeSteps (stumpSteps d)

/-- Units whose fence makes Stump service unavailable, lowest first (R497). -/
def stumpBlocker_ (d : Dev) : Option Nat :=
  if fenced d 0x20 then some 0x20 else if fenced d 0x38 then some 0x38 else if fenced d 0x3A then some 0x3A
  else if fenced d 0x3B && fenced d 0x3C then some 0x3B else if fenced d 0x40 then some 0x40 else none

/-- AVAIL and BLOCKER follow the fences; STUMP_UNAVAILABLE once when AVAIL falls (R497). -/
def updateAvail (d : Dev) : Dev :=
  match stumpBlocker_ d with
  | none => setFlds d [(stumpAvail, 1), (stumpBlocker, 0)]
  | some u =>
    let fell := flag d stumpAvail
    let d := setFlds d [(stumpAvail, 0), (stumpBlocker, u)]
    if fell then raise d 0x0805 0 3 u else d

/-- Registers that the Graft in force sets: none is in force (R60, R265, R296). -/
def clearGraftRegs (d : Dev) : Dev :=
  let d := (List.range 4).foldl (fun d s => setReg d (0x40000 + 0x100 * s) 7) d
  let d := setReg d 0x40F00 0
  setFlds d [(graftInForce, 0), (graftIdLo, 0), (graftIdHi, 0), (leadSlots, 0)]

/-- The Graft in force leaves force: its open tasks end, its pages are freed (R294, R496). -/
def dropGraft0 (status : Nat) (d : Dev) : Dev :=
  let b := img0 d
  let d := (d.stem.frames.filter (fun f => !f.out)).foldl (fun d f => endFrame d f status 0) d
  let d := setFrames d (d.stem.frames.filter (·.out))
  let d := releaseSpace 0 d
  let d := { d with root := { d.root with space0 := none }, stem := { d.stem with histReq := d.stem.histReq.filter (·.out), cad := [], cadRe := none } }
  dropOldPacks (clearGraftRegs (endGraftWaits b d))

/-- Empty space 1 whatever it holds. -/
def dropGraft1 (d : Dev) : Dev :=
  let b := img1 d
  let d := (d.stem.frames.filter (·.out)).foldl (fun d f => endFrame d f stTimeout 0) d
  let d := setFrames d (d.stem.frames.filter (fun f => !f.out))
  let d := releaseSpace 1 d
  let d := { d with root := { d.root with space1 := none } }
  dropOldPacks (endGraftWaits b (setFld d graftSpace1 0))

/-- Fallback to Stump service (R496): the Graft leaves force, a pending load is BUSY, a pending apply is FENCED and its pages are freed
(R291), space 1 is emptied, replay exits, the units take the Stump settings. R291's return of space 1 to state 3 and its emptying fall in one
cycle: SPACE1 reads 0 from then on (DEDUCED, log entry 96). -/
def stumpFallback (cause : Nat) (d : Dev) : Dev :=
  let d := dropGraft0 stFenced d
  let d := match d.root.loadTag with
    | some t => progFail (complete { d with root := { d.root with loadTag := none } } t stBusy []) 1
    | none => d
  let d := match d.root.apply with
    | some a =>
      let d := complete { d with root := { d.root with apply := none } } a.tag stFenced []
      if a.ready then d else progFail d 2
    | none => d
  let d := dropGraft1 d
  let d := replayExit 5 d
  if flag d stumpAvail then
    let d := setFlds (stumpSettings d) [(stumpActive, 1), (stumpCause, cause)]
    raise d 0x0804 0 5 cause
  else d

/-- A condition of R496 is true while a Graft is in force. -/
def stumpCauseNow (nv : NonVol) (d : Dev) : Option Nat :=
  if !hasGraft d then none
  else
    let b := img0 d
    let named := (List.range 16).filter (fun n => (List.range (gNbset b)).any (fun i => (bsetList b i).contains n))
    if (pipesOf b).all (fun p => fenced d (4 + pStem b p)) then some 2
    else if named.all (fun n => (brHost nv d n).isNone) then some 3
    else match boundTensor b 3 with
      | none => none
      | some t => if (List.range (tPages b t)).any (fun i =>
          let p := pageAt d 0 (tVpn b t + i)
          (p.loc == 1 || p.loc == 3) && fenced d (0x20 + p.lpn / 512)) then some 4 else none

/-- After any fence: AVAIL, then the fallback conditions. -/
def stumpCheck (nv : NonVol) (d : Dev) : Dev :=
  let d := updateAvail d
  match stumpCauseNow nv d with
  | some c => stumpFallback c d
  | none => d

end Sys2Proof.Machine
end

