-- ==== Sys2Proof/Machine/Lock.lean ====
section
/-! DEFINITION. The frame-cadence lock (R510 to R512). -/

namespace Sys2Proof.Machine

/-- The lock enters state `st` with its events. -/
def setLock (st : Nat) (mismatch : Bool) (d : Dev) : Dev :=
  let old := fld d lockState
  let d := setFlds d [(lockState, st), (lockMismatch, mismatch.toNat)]
  if old ≠ 2 && st = 2 then raise d 0x0130 0x3B 0 (ofn d)
  else if old = 2 && st ≠ 2 then raise (setFld d clkLatency 0) 0x0131 0x3B 1 (st + mismatch.toNat * 4)
  else if st ≠ 2 then setFld d clkLatency 0 else d

/-- Source port of the lock in force: none, or the port. -/
def lockPort (d : Dev) : Option Nat :=
  match inForce d lockSrc with | 1 => some 0 | 2 => some 1 | _ => none

/-- The lock enters HOLD (R511). -/
def lockHold (mismatch : Bool) (d : Dev) : Dev :=
  setLock 3 mismatch { d with clk := { d.clk with holdIn := 0, goodE := 0 } }

/-- |FRATE - MULT / T_in| above 0.5 % of FRATE. -/
def rateMismatch (d : Dev) (t : Nat) : Bool :=
  let a : Int := (inForce d dsoFrate * t : Nat)
  let b : Int := ((inForce d lockMult + 1) * 1000000000000 : Nat)
  t != 0 && decide (a < (a - b).natAbs * 200)

/-- e in lines at position 0: prediction of the next frame's start less the nearest target (R510). -/
def cadenceError (d : Dev) (s t : Nat) : Int :=
  let (n, m) := lpNs d
  let mult := inForce d lockMult + 1
  let x : Int := (((d.devTime.toNat : Int) - s) * m + ((vtotalNom d : Int) - inForce d lockPhi) * n) * mult
  let p : Int := (max 1 (t * m) : Nat)
  let r := x.emod p
  rheDiv (if 2 * r > p then r - p else r) (n * mult : Nat)

/-- DEV_TIME of position 0 less the start of the input frame whose target it met (R512). -/
def cadenceLatency (d : Dev) (s t : Nat) : Nat :=
  let (n, m) := lpNs d
  let mult := inForce d lockMult + 1
  let now := d.devTime.toNat
  let k := rheDiv ((((now : Int) - s) * m - (inForce d lockPhi : Int) * n) * mult) (max 1 (t * m) : Nat)
  ((now : Int) - ((s : Int) + (k.fdiv mult) * t)).toNat

/-- A Grove follower (R400). -/
def isFollower (d : Dev) : Bool := inForce d grvRole == 2

/-- Front porch of the frame that begins, by the lock (R344, R510, R511). The register write to CLK_LOCK takes effect here
(R512). `align` is the front porch a Grove follower takes instead. -/
def cadencePorch (align : Option Int) (d : Dev) : Dev × Nat :=
  let src := lockPort d
  let d := setLive d 0x10020 (reg d 0x10020)
  -- of a new source no frame start is kept yet (DESIGN CHOICE, log entry 103)
  let d := if lockPort d = src then d else { d with clk := { d.clk with inStart := none, holdIn := 0 } }
  let vfp := inForce d dsoVfp
  let rest := inForce d dsoVactive + inForce d dsoVsync + inForce d dsoVbp
  let fit (v : Int) : Nat :=
    let lo := max 1 (8 - inForce d dsoVsync - inForce d dsoVbp)
    (clampI lo (8191 - rest : Nat) v).toNat
  if isFollower d then
    let d := setLock 0 false d
    (d, match align with | some v => fit v | none => vfp)
  else match lockPort d with
    | none => (setLock 0 false d, vfp)
    | some p =>
      let t := fld d (intFperiod p)
      match d.clk.inStart with
      | none => (if fld d lockState = 3 then d else lockHold false d, vfp)
      | some s =>
        if fenced d (0x38 + p) then (if fld d lockState = 3 then d else lockHold false d, vfp)
        else if rateMismatch d t then (if flag d lockMismatch then d else lockHold true d, vfp)
        else if fld d lockState = 3 then (setFld d lockMismatch 0, vfp)
        else
          let e := cadenceError d s t
          let adj : Int := max 1 (inForce d lockAdj)
          let d := setFld d lockErr (ofS 16 e)
          let good := if e.natAbs ≤ 1 then d.clk.goodE + 1 else 0
          let d := { d with clk := { d.clk with goodE := good } }
          let d := if fld d lockState = 2 then (if adj < e.natAbs then setLock 1 false d else d)
                   else if 2 ≤ good then setLock 2 false d else setLock 1 false d
          let d := if fld d lockState = 2 then setFld d clkLatency (cadenceLatency d s t) else d
          (d, fit ((vfp : Int) - clampI (-adj) adj e))

/-- An input frame of port `p` starts: the lock keeps its start; the second start after a HOLD leads to ACQUIRE. -/
def lockInput (p : Nat) (d : Dev) : Dev :=
  if lockPort d = some p then
    let d := { d with clk := { d.clk with inStart := some d.devTime.toNat, holdIn := d.clk.holdIn + 1 } }
    if fld d lockState = 3 && 2 ≤ d.clk.holdIn && !rateMismatch d (fld d (intFperiod p)) then setLock 1 false d else d
  else d

/-- A source change on port `p`, or its fence: HOLD once (R511). -/
def lockLost (p : Nat) (d : Dev) : Dev :=
  if lockPort d = some p && !isFollower d then
    let d := { d with clk := { d.clk with inStart := none } }
    if fld d lockState = 3 then { d with clk := { d.clk with holdIn := 0 } } else lockHold false d
  else d

/-- CADENCE_INPUT_TIMEOUT: no input frame start for 2 × T_in (R511). -/
def cadenceTimeoutOp (d : Dev) : Dev :=
  match lockPort d, d.clk.inStart with
  | some p, some s =>
    if !isFollower d && fld d lockState ≠ 3 && fld d lockState ≠ 0 && 2 * fld d (intFperiod p) ≤ d.devTime.toNat - s then
      lockHold (flag d lockMismatch) { d with clk := { d.clk with inStart := none } }
    else d
  | _, _ => d

def execCadenceInputTimeout (s : State) : Out := onDev s cadenceTimeoutOp

end Sys2Proof.Machine
end

