-- ==== Sys2Proof/Machine/Source.lean ====
section
/-! DEFINITION. What the Intake ports and their sources share: frames in progress, their ends, source changes
(R299 to R302, R309, R312). -/

namespace Sys2Proof.Machine

def port (d : Dev) (p : Nat) : Port := if p = 0 then d.inp.p0 else d.inp.p1
def setPort (d : Dev) (p : Nat) (x : Port) : Dev :=
  if p = 0 then { d with inp := { d.inp with p0 := x } } else { d with inp := { d.inp with p1 := x } }

/-- The latest frame, when it has not ended. -/
def liveFrame (x : Port) : Option InFrame :=
  match x.frames with | f :: _ => if f.ended then none else some f | [] => none

/-- The latest frame replaced. -/
def setFrame (x : Port) (f : InFrame) : Port := { x with frames := f :: x.frames.drop 1 }

/-- Line and frame Rings of a port (Table Sched-1). -/
def lineRingNo (p : Nat) : Nat := 2 * p
def frameRingNo (p : Nat) : Nat := 2 * p + 1

/-- Split mode is in force (R306). -/
def splitMode (d : Dev) : Bool := hasGraft d && gUndSrc (img0 d) == 2

/-- UI mode of INT1 (R313). -/
def uiMode (d : Dev) (p : Nat) : Bool := p == 1 && flag d (intUi 1)

/-- The tensor that takes the lines of a port: its line ring under the Graft in force (R303). -/
def ringTensor (d : Dev) (p : Nat) : Option Nat := if hasGraft d then boundTensor (img0 d) (p + 1) else none

/-- Consumers of a line ring (R74): 0 for the Understory in direct mode, 1 + k for each task that reads it. -/
def ringConsumers (d : Dev) (p : Nat) : List Nat :=
  let und := if flag d undMode then [] else if fld d undSrc = p || fld d undSrc = 2 then [0] else []
  und ++ match ringTensor d p with
    | some t => ((List.range (nTasks (img0 d))).filter (fun k => (kIns (img0 d) k).contains t)).map (· + 1)
    | none => []

/-- The INT1 frame of the pair whose INT0 frame this is (R306). -/
def pairOf (d : Dev) (ifn : Nat) : Nat :=
  match d.inp.pairs.find? (fun e => e.1 == ifn) with | some e => e.2.1 | none => ifn

/-- The frame of the input frame store to which frame `ifn` of port `p` belongs: its own, or in split mode the pair's, which bears the
INT0 frame's number (R45, R549). -/
def inStore (d : Dev) (p ifn : Nat) (e : Nat × Nat × Bool) : Bool :=
  (fld d undSrc == p && e.2.1 == ifn) || (fld d undSrc == 2 && (if p = 0 then e.2.1 == ifn else pairOf d e.2.1 == ifn))

/-- The other half of the frame in the store has ended, or there is none. -/
def halfEnded (d : Dev) (p : Nat) (e : Nat × Nat × Bool) : Bool :=
  fld d undSrc != 2 ||
  (match (port d (1 - p)).frames.find? (fun f => f.ifn == if p = 0 then pairOf d e.2.1 else e.2.1) with
   | some f => f.ended | none => true)

/-- A frame of the port ends: its Ring adds 1, INT_LAST describes it, and the events of the frame are raised. Lines not yet
written are dropped with their credits. -/
def endInput (p : Nat) (cut : Bool) (d : Dev) : Dev :=
  let x := port d p
  match liveFrame x with
  | none => d
  | some f =>
    if f.void then setPort d p { setFrame x { f with ended := true } with wq := [], raw := [] }
    else
      let clean := if f.prot then some 0 else x.clean.map (fun n => min 2 (n + 1))
      let d := setPort d p { setFrame x { f with ended := true } with wq := [], raw := [], clean }
      let r := lineRing d p
      let d := setLineRing d p { r with prod := r.prod + r.inWrite, inWrite := 0 }
      let d := ringInc d (frameRingNo p) 1
      let last := f.count % 2 ^ 13 + cut.toNat * 2 ^ 13 + (f.skips != 0).toNat * 2 ^ 14 + f.prot.toNat * 2 ^ 15
      let d := setFld (setReg d (intLast p) (BitVec.ofNat 32 last)) (intLastIfn p) f.ifn
      let d := setFld d (hdcpEnc p) 0
      let d := if f.skips = 0 then d else raise d 0x0403 (0x38 + p) 2 (lineRingNo p + min f.skips 65535 * 65536)
      let d := if f.skips = 0 then d else raise d 0x0502 (0x38 + p) 2 (min f.skips 65535 + f.ifn % 65536 * 65536)
      let d := if f.undec = 0 then d else raise d 0x0506 (0x38 + p) 2 (min f.undec 65535)
      -- the input frame store holds a complete frame, or loses a cut one
      let st := if cut then d.inp.store.filter (fun e => !inStore d p f.ifn e || e.2.2)
                else d.inp.store.map (fun e => if inStore d p f.ifn e && halfEnded d p e then (e.1, e.2.1, true) else e)
      let d := { d with inp := { d.inp with store := st } }
      -- R309: every port that carried protected content has delivered two unprotected frames
      let quiet (q : Nat) : Bool := match (port d q).clean with | some n => decide (2 ≤ n) | none => true
      if flag d (hdcpProt 0) && quiet 0 && quiet 1 && d.inp.clear.isNone then
        { d with inp := { d.inp with clear := some (add32 (ofn d) 1) } }
      else d

/-- HDCP_STATE of a port. -/
def hdcpEvent (p : Nat) (d : Dev) : Dev :=
  raise d 0x0701 (0x38 + p) 0 (fld d (hdcpState p) + fld d (hdcpProt p) * 16)

/-- The protected state clears at the end of the frame named (R309). -/
def clearProtected (d : Dev) : Dev :=
  let ports := (List.range 2).filter (fun p => (port d p).clean.isSome)
  let d := setFlds { d with inp := { d.inp with clear := none } } [(hdcpProt 0, 0), (hdcpProt 1, 0)]
  ports.foldl (fun d p => hdcpEvent p (setPort d p { port d p with clean := none })) d

/-- A frame of split mode that waits for its partner is given up: neither written nor counted (R306). -/
def dropUnpaired (p : Nat) (d : Dev) : Dev :=
  if (port d p).wait.isSome then
    raise (bump (setPort d p { port d p with wait := none, held := [] }) (aIntUnpaired p) 1) 0x0503 (0x38 + p) 2 1
  else d

/-- The latest frame lies outside the limits, and its arrival reported a change: a frame reports one at most (R316). -/
def voidNow (x : Port) : Bool := match liveFrame x with | some f => f.void | none => false

/-- A source change of classes `cl` (R312). -/
def sourceChange (p cl : Nat) (d : Dev) : Dev :=
  if cl = 0 then d
  else
    let ifn := fld d (intIfn p)
    let told := voidNow (port d p)
    let d := dropUnpaired p d
    let d := endInput p true (setPort d p { port d p with chg := (port d p).chg ||| cl })
    let d := bump d (aIntChg p) 1
    let d := if told then d else raise d 0x0501 (0x38 + p) 1 (cl % 16 + ifn % 65536 * 65536)
    let b := img0 d
    let hist := (List.range (nTensors b)).filter (fun t => tHist b t && pClass b (tPipe b t) != 0 && pKey b (tPipe b t) == p)
    let d := hist.foldl (fun d t => requestHist d t 2) d
    let d := if cl.testBit 0 || cl.testBit 2 then
        if fld d undSrc = p || fld d undSrc = 2 then { d with inp := { d.inp with store := [] } } else d
      else d
    let d := if hasGraft d && gCadPort b = p then { d with stem := { d.stem with cadRe := some (ifn, none) } } else d
    let d := if cl.testBit 3 then
        setReg (setFld d (intLocked p) 0) (hdrReg p 6) (reg d (hdrReg p 6) &&& 7)
      else d
    lockLost p d

end Sys2Proof.Machine
end

