-- ==== Sys2Proof/Machine/Fault.lean ====
section
/-! DEFINITION. Error buckets, retirement, fences, links, Wind, scrub and the LPDDR6 channels (R87 to R90, R441 to
R455, R475 to R505). -/

namespace Sys2Proof.Machine

/-! ## Fences (R485) -/

/-- Tasks of open frames that need a fenced unit and cannot be re-run end FENCED. -/
def endFencedTasks (nv : NonVol) (d : Dev) : Dev :=
  let ks := d.stem.frames.flatMap (fun f => (f.tasks.filter (fun t => t.state != 3 &&
    taskFenced nv d (imgOf d f.out) f.out t.task)).map (fun t => (t.task, f.pfn, f.out)))
  closeFrames nv (ks.foldl (fun d k => endTask d k.1 k.2.1 k.2.2 stFenced 0) d)

/-- A camera port stops: EN falls, its frame in progress ends as a short frame, and the exposures queued for its contexts are
discarded (R367, R493). -/
def stopCamera (p : Nat) (d : Dev) : Dev := closePort p (camEnd p d)

/-- The tasks of both Grafts that use bank group `g` as it is fenced (R90). -/
def noteUses (g : Nat) (d : Dev) : Dev :=
  let of (out : Bool) : List (Bool × Nat × Nat) :=
    let b := imgOf d out
    ((List.range (nTasks b)).filter (fun k => usesGroup d b out k g)).map (fun k => (out, k, g))
  { d with trk := { d.trk with fenceUse := d.trk.fenceUse ++ of false ++ of true } }

/-- The Twigs of a fenced Branch: state fenced, but for retired ones; nothing streams, the spare stands for none, and an audit is
over (R172). -/
def fenceTwigs (n : Nat) (d : Dev) : Dev :=
  let d := (List.range 5).foldl (fun d t =>
    setFlds d [(twigState n t, if fld d (twigState n t) = 4 then 4 else 5), (twigMode n t, 0), (twigPlane n t, 0)]) d
  setBranch (setFld d (twigStands n 4) 0) n { branch d n with armed := false, fresh := 0, aud := [] }

/-- The Twigs of a Branch rejoin. A spare that stood in for a retired Twig stands in again (R165). -/
def rejoinTwigs (n : Nat) (d : Dev) : Dev :=
  let d := (List.range 4).foldl (fun d t => if fld d (twigState n t) = 5 then setFld d (twigState n t) 0 else d) d
  if fld d (twigState n 4) ≠ 5 then d
  else match lowest 4 (fun t => fld d (twigState n t) = 4) with
    | some t => setFlds d [(twigState n 4, 2), (twigStands n 4, t)]
    | none => setFld d (twigState n 4) 1

/-- Unit `u` is fenced: what Table Fault-5 gives besides the refusals. -/
def fenceUnit (nv : NonVol) (u cause : Nat) (d : Dev) : Dev :=
  if fenced d u then d
  else
    let d := setFld d (fencedReg u) 1
    let d := if 0x10 ≤ u && u ≤ 0x1F then
        fenceTwigs (u - 0x10) d
      else if u = 0x42 then (List.range 8).foldl (fun d r => setFld d (wndArm r) 0) d
      else if u = 0x3D || u = 0x3E then stopCamera (u - 0x3D) d
      else if u = 0x41 then setFld d grvLocked 0
      else if 0x20 ≤ u && u ≤ 0x2F then noteUses (u - 0x20) d
      else if u = 0x38 || u = 0x39 then sourceChange (u - 0x38) 8 d
      else if 0x30 ≤ u && u ≤ 0x37 then setFld d lp6Inservice (setBit (fld d lp6Inservice) (u - 0x30) false)
      else d
    let d := if cause = 0 then d else raise d 0x0801 u 3 cause
    stumpCheck nv (endFencedTasks nv d)

/-! ## Retirement (R483, R484, R487, R488) -/

/-- The Branch that hosts `p` (R487 step 2): first in the halo direction, in service, hosting no other. -/
def chooseHost (nv : NonVol) (d : Dev) (p : Nat) : Option Nat :=
  let n := branchCount nv
  let up := gHaloDir (img0 d) = 0 || !hasGraft d
  let cand := (List.range (n - 1)).map (fun i => if up then (p + 1 + i) % n else (p + n - 1 - i) % n)
  cand.find? (fun h => brInService nv d h && !((List.range n).any (fun m => m != h && brHost nv d m == some h)))

def setHost (d : Dev) (n h : Nat) : Dev := setFld d ⟨hostReg n, 4 * (n % 8), 4⟩ h

/-- Bytes of the regions that programs running on Branch `p` declare, in KiB, as a union (R487 step 3). The programs of an outgoing Graft
count while its frames are open. -/
def regionKib (d : Dev) (p : Nat) : Nat :=
  let of (b : Bytes) : List (Nat × Nat) :=
    let progs := ((List.range (nTasks b)).filter (fun k => (kBranches b k).contains p)).map (kProg b)
    progs.flatMap (fun q =>
      let o := gOff b 4 + u32 b (gOff b 4 + 4 + 4 * q)
      (List.range (u8 b (o + 14))).map (fun i => (u16 b (o + 64 + 16 * i), u16 b (o + 64 + 16 * i + 2))))
  let ents := of (img0 d) ++ (if d.stem.frames.any (·.out) then of (imgOf d true) else [])
  ((List.range 4096).filter (fun x => ents.any (fun e => decide (e.1 ≤ x ∧ x < e.1 + e.2)))).length

/-- `n` spill and mailbox pages: from shared groups first, then the group with most free pages; none if too few. -/
def takeSpill (n : Nat) (d : Dev) : Option Dev :=
  (List.range n).foldl (fun acc _ => acc.bind (fun d =>
    let best := (List.range 16).foldl (fun x g => if groupFree d g > groupFree d x then g else x) 0
    match pickPage d (gShared (img0 d)) with
    | some l => some (takeLpn d .alloc l 5)
    | none => (pickPage d (2 ^ best)).map (fun l => takeLpn d .alloc l 5))) (some d)

/-- The partials of a context's Branch in scale cells that are not written (R130). -/
def lostPartials (d : Dev) (c : Ctx) : Dev :=
  let b := imgOf d c.out
  let j := (lowest 16 (fun j => (kBranches b c.task).getD j 16 == c.logic)).getD 0
  (taskSteps b c.task).foldl (fun d n => (List.range (stepCells d c.out n).count).foldl (fun d i =>
    let x := cellAt d c.out n i c.pfn
    if x.written then d
    else setCell d c.out n i c.pfn { x with parts := x.parts.put Partial.none j Partial.none, sent := setBit x.sent j false }) d) d

/-- Work of logical Branch `l` moves from Branch `p` to `h` and restarts from PROLOGUE; signals already landed are absorbed (R255, R488). -/
def moveWork (p l h : Nat) (d : Dev) : Dev :=
  let mine := ((branch d p).ctxs.filter (fun c => c.logic == l)).map (fun c =>
    let sig := match taskSt d c.task c.pfn c.out with
      | some t => (t.sig.filter (fun e => e.1 / 65536 == c.logic)).map (fun e => (e.1 % 65536, e.2))
      | none => []
    { Ctx.start (imgOf d c.out) c.task c.pfn c.out c.logic c.wo c.ho with absorb := sig, again := c.sent ++ c.again })
  -- lines that had landed land again, and partials of scale cells are formed anew
  let x := branch d l
  let d := setBranch d l { x with haloIn := x.haloLog ++ x.haloIn, haloLog := [], haloRx := [], mcast := [] }
  let x := branch d p
  let d := setBranch d p { x with ctxs := x.ctxs.filter (fun c => c.logic != l), cur := none }
  let d := mine.foldl (fun d c => lostPartials d c) d
  let y := branch d h
  setBranch d h { y with ctxs := y.ctxs ++ mine }

/-- Steps 2 to 4 of R487 for logical Branch `l`, which Branch `p` served: a host and its spill pages, or none. A logical Branch that `p`
hosted has its spill pages already (DEDUCED, log entry 106). -/
def rehost (nv : NonVol) (p l : Nat) (d : Dev) : Dev :=
  let none_ (d : Dev) : Dev := setHost d l 0xF
  match chooseHost nv d p with
  | none => none_ d
  | some h =>
    match if l = p then takeSpill (cdiv (regionKib d p) 64 + 2) d else some d with
    | none => none_ d
    | some d => moveWork p l h (setHost d l h)

/-- A Branch retires (R487). Without a stand-in it is fenced for that cause (DEDUCED, log entry 106). -/
def retireBranch (nv : NonVol) (p kind : Nat) (rep : Bool) (d : Dev) : Dev :=
  let served := p :: (List.range (branchCount nv)).filter (fun m => m != p && brHost nv d m == some p)
  let d := setBktState (setFld d (fencedReg (0x10 + p)) 1) (80 + p) 2
  let d := fenceTwigs p d
  let d := setBranch d p { branch d p with twig := [], table := [], tiles := 0, spent := false, wheel := 0 }
  let d := { d with flt := { d.flt with retired := (0x10 + p) :: d.flt.retired, hostF := d.flt.hostF.filter (· != 0x10 + p) } }
  -- cause 0x3 for the pipelines that own a Branch that the retirement touches (R57)
  let owners (ns : List Nat) (d : Dev) : Dev :=
    let b := img0 d
    (List.range 4).foldl (fun d q =>
      if fld d (admitState q) = 1 && ns.any (fun m => (pipeBranches b q).contains m) && !admitOk nv d b q then loseAdmission q 3 d else d) d
  let d := served.foldl (fun d l => rehost nv p l d) d
  let host := brHost nv d p
  let d := raise d 0x0803 (0x10 + p) 4 (kind + rep.toNat * 256 + (match host with | some h => 0x10 + h | none => 0xFF) * 65536)
  let d := if host.isNone then raise d 0x0801 (0x10 + p) 3 2 else d
  let d := owners (p :: served.filterMap (brHost nv d)) d
  stumpCheck nv (endFencedTasks nv d)

/-- A Twig retires: the spare stands in, or the Branch retires (R165, R168). -/
def retireTwig (nv : NonVol) (n t kind : Nat) (rep : Bool) (d : Dev) : Dev :=
  let spare := fld d (twigState n 4)
  if t = 4 then
    if spare = 2 then retireBranch nv n kind rep (setFld d (twigState n 4) 4)
    else
      let d := setFlds d [(twigState n 4, 4), (twigStands n 4, 0), (twigMode n 4, 0), (twigPlane n 4, 0)]
      setBranch d n { branch d n with armed := false, fresh := 0, aud := [] }
  else if spare = 1 || spare = 3 then
    let d := setFlds d [(twigState n t, 4), (twigState n 4, 2), (twigStands n 4, t), (twigMode n t, 0), (twigPlane n t, 0), (twigMode n 4, 0), (twigPlane n 4, 0)]
    let b := branch d n
    let none_ : Twig := Twig.reset
    let tw := b.twig.get none_ t
    let d := setBranch d n { b with twig := (b.twig.put none_ 4 tw).put none_ t none_, armed := false, fresh := 0, aud := []
                                    ctxs := b.ctxs.map (fun c => { c with drains := c.drains.map (fun x => if x.1 = t then (4, x.2) else x) }) }
    raise d 0x0822 (0x10 + n) 4 (5 * n + t + (5 * n + 4) * 256)
  else retireBranch nv n kind rep d

/-- A spare bank that stands in for none and has not retired. -/
def freeSpare (d : Dev) : Option Nat := lowest 4 (fun s => !flag d (spareInUse s) && (bucket d (160 + s)).state = 0)

/-- The physical bank `p` retires: the copy of the logical bank that it holds to a spare begins, or the group is fenced (R88, R90). A
spare that retires holds its bank until the copy has visited the last page. -/
def retireBank (nv : NonVol) (p : Nat) (d : Dev) : Dev :=
  let b := logicalBank d p
  if 64 ≤ p && !flag d (spareInUse (p - 64)) then setBktState d (96 + p) 2
  else match freeSpare d with
  | none => fenceUnit nv (0x20 + b / 4) 4 (raise (setBktState d (96 + p) 3) 0x0407 (0x20 + b / 4) 3 b)
  | some s =>
    let pages := (List.range 128).map (b * 128 + ·)
    let held (l : Nat) : Bool := d.trk.used.get 0 l != 0 || decide (l < 64)
    let free := pages.filter (fun l => !held l)
    let d := moveBooks (moveBooks d .retired .transit 128) .free .retired free.length
    let d := { d with trk := { d.trk with copyFree := free, copyHeld := pages.filter held }, flt := { d.flt with running := d.flt.running.put 0 0 (p + 1) } }
    let d := setFlds d [(spareBank s, b), (spareInUse s, 1), (copySrc, b), (copySpare, s), (copyActive, 1), (copyDone, 0)]
    progStart (raise d 0x0405 (0x20 + b / 4) 1 (b + s * 256)) 8 b 128

/-- An LP6 channel retires: the copy begins, or it is fenced beside one already retired (R450, R452). -/
def retireChannel (nv : NonVol) (c : Nat) (d : Dev) : Dev :=
  if flag d lp6RetValid || flag d lp6RetActive then
    fenceUnit nv (0x30 + c) 4 (raise (setBktState d (164 + c) 3) 0x0424 (0x30 + c) 3 c)
  else
    let d := { d with trk := { d.trk with noCache := true, chanBad := 0 }, flt := { d.flt with running := d.flt.running.put 0 1 (c + 1), retired := (0x30 + c) :: d.flt.retired } }
    let d := setReg d 0x160424 0
    let d := (List.range 8).foldl (fun d l => setFld d (cnpCached l) 0) d
    let d := raise d 0x0422 (0x30 + c) 1 c
    let d := setFlds d [(lp6RetChan, c), (lp6RetActive, 1), (lp6RetValid, 1), (lp6RetDone, 0),
      (lp6Inservice, setBit (fld d lp6Inservice) c false), (fencedReg (0x30 + c), 1)]
    progStart d 10 c (lp6Blocks d)

/-- A DisplayPort lane retires: fewer lanes, or the port is fenced with its lane 0 (R492). -/
def retireLane (nv : NonVol) (q l kind : Nat) (rep : Bool) (d : Dev) : Dev :=
  let u := if q < 2 then 0x38 + q else 0x39 + q
  let lanes := if l = 0 then 0 else if l = 1 then 1 else 2
  let x := if q < 2 then intMaxLanes q else dsoMaxLanes (q - 2)
  let d := if l = 0 then d else setFld d x (min (fld d x) (lanes - 1))
  let d := raise d 0x0803 u 4 (kind + rep.toNat * 256 + lanes * 65536)
  if l = 0 then fenceUnit nv u 2 d else d

/-- Act on the unit of a bucket whose error became permanent (Table Fault-4). -/
def actPermanent (nv : NonVol) (n kind : Nat) (rep : Bool) (d : Dev) : Dev :=
  if n < 80 then retireTwig nv (n / 5) (n % 5) kind rep (setBktState d n 2)
  else if n < 96 then retireBranch nv (n - 80) kind rep (setBktState d n 2)
  else if n < 164 then retireBank nv (n - 96) (setBktState d n 1)
  else if n < 172 then retireChannel nv (n - 164) (setBktState d n 1)
  else if n < 188 then retireLane nv ((n - 172) / 4) ((n - 172) % 4) kind rep (setBktState d n 2)
  else if n < 190 then
    retirePort (n - 188) kind rep (camEnd (n - 188) (setBktState d n 2))
  else fenceUnit nv (bktUnit d n) 3 (setBktState { d with flt := { d.flt with hostF := d.flt.hostF.filter (· != bktUnit d n) } } n 3)

/-- Kind of retirement that runs one at a time: 0 bank copy, 1 channel copy, 2 Branch set-up; none for the others (R484). -/
def retireKind (n : Nat) : Option Nat :=
  if 96 ≤ n && n < 164 then some 0 else if 164 ≤ n && n < 172 then some 1 else if 80 ≤ n && n < 96 then some 2 else none

/-- The error is permanent: act now, or wait for the retirement of its kind that runs (R484). -/
def permanent (nv : NonVol) (n kind : Nat) (rep : Bool) (d : Dev) : Dev :=
  match retireKind n with
  | some k => if d.flt.running.get 0 k != 0 then
      setBktState { d with flt := { d.flt with waitQ := d.flt.waitQ ++ [(k, n)] } } n 1
    else actPermanent nv n kind rep d
  | none => actPermanent nv n kind rep d

/-- One error is recorded against a bucket, and the engine acts when it becomes permanent (R479 to R484). -/
def recordError (nv : NonVol) (n kind addr : Nat) (d : Dev) : Dev :=
  match countError n kind addr d with
  | (d, some rep) => permanent nv n kind rep d
  | (d, none) => d

/-- Words of a unit's own memory fail their parity (R475, Table Fault-2). What the words hold is not changed by it (DESIGN CHOICE, log
entry 102). -/
def parityErrs (nv : NonVol) (n : Nat) (words : List Nat) (d : Dev) : Dev := words.foldl (fun d w => recordError nv n 3 w d) d

/-- A lane of port `q` (0 INT0, 1 INT1, 2 DSO0, 3 DSO1) failed training at its count (R479). -/
def laneFails (nv : NonVol) (q : Nat) (lane : Option (Fin 4)) (d : Dev) : Dev :=
  match lane with | some l => recordError nv (172 + 4 * q + l.val) 0xA 0 d | none => d

/-- BUCKET_LEAK: LEVEL falls by 1 every LEAK × 10 ms while it is above 0 (R480). -/
def bucketLeakOp (n : Nat) (d : Dev) : Dev :=
  let b := bucket d n
  let leak := fld d (polLeak (bktClass n))
  if b.level ≠ 0 && b.state = 0 && leak ≠ 0 && leak * 10000000 ≤ d.devTime.toNat - b.leakT then
    setBucket d n { b with level := b.level - 1, leakT := b.leakT + leak * 10000000 }
  else d

def execBucketLeak (bucket : Nat) (s : State) : Out := onDev s (bucketLeakOp bucket)

/-- RETIREMENT_START: the oldest waiting retirement of a kind begins once none of it runs; the lower bucket number first
among those of one cycle (R484). -/
def retirementStartOp (nv : NonVol) (k : Nat) (d : Dev) : Dev :=
  if d.flt.running.get 0 k ≠ 0 then d
  else match d.flt.waitQ.find? (fun e => e.1 == k) with
    | none => d
    | some e =>
      let kind := match (bucket d e.2).last.head? with | some x => x.kind | none => 0xB
      actPermanent nv e.2 kind false { d with flt := { d.flt with waitQ := d.flt.waitQ.filter (· != e) } }

def execRetirementStart (kind : Fin 3) (s : State) : Out := onDev s (retirementStartOp s.nv kind.val)

/-! ## FLT_CMD (R486) -/

def cmdStat (d : Dev) (err u : Nat) : Dev := setFlds d [(fltCmdErr, err), (fltCmdUnit, u)]

def isRetired (d : Dev) (u : Nat) : Bool := d.flt.retired.contains u

/-- FENCE of any unit except ROOT, CLK and the Twigs. -/
def fenceOp (nv : NonVol) (u : Nat) (d : Dev) : Dev :=
  if u = 0x1E && nv.gradeS || u = 0x1F && nv.gradeS then cmdStat d 4 u
  else if u ≤ 1 || !unitExists nv u then cmdStat d 1 u
  else if isRetired d u then cmdStat d 3 u
  else if fenced d u then cmdStat d 0 u
  else
    let d := { d with flt := { d.flt with hostF := u :: d.flt.hostF } }
    fenceUnit nv u 1 (cmdStat d 0 u)

def execFence (unit : Byte) (s : State) : Out := onDev s (fenceOp s.nv unit.toNat)

/-- UNFENCE of a unit that the host fenced: it rejoins at the next output vertical blanking. The fence of USB lifts only at reset (Table
Fault-5). -/
def unfenceOp (nv : NonVol) (u : Nat) (d : Dev) : Dev :=
  if (u = 0x1E || u = 0x1F) && nv.gradeS then cmdStat d 4 u
  else if u ≤ 2 || !unitExists nv u then cmdStat d 1 u
  else if isRetired d u then cmdStat d 3 u
  else if !d.flt.hostF.contains u then cmdStat d 2 u
  else cmdStat { d with flt := { d.flt with unfence := d.flt.unfence.filter (· != u) ++ [u] } } 0 u

def execUnfence (unit : Byte) (s : State) : Out := onDev s (unfenceOp s.nv unit.toNat)

/-- Units that were to rejoin do so at the blanking (R486). -/
def rejoinUnits (d : Dev) : Dev :=
  let l := d.flt.unfence
  let d := { d with flt := { d.flt with unfence := [], hostF := d.flt.hostF.filter (fun u => !l.contains u) } }
  updateAvail (l.foldl (fun d u =>
    if isRetired d u then d
    else
      let d := setFld d (fencedReg u) 0
      let d := if 0x20 ≤ u && u ≤ 0x2F then { d with trk := { d.trk with fenceUse := d.trk.fenceUse.filter (fun e => e.2.2 != u - 0x20) } } else d
      let d := if 0x10 ≤ u && u ≤ 0x1F then rejoinTwigs (u - 0x10) d else d
      let d := if 0x30 ≤ u && u ≤ 0x37 then setFld d lp6Inservice (setBit (fld d lp6Inservice) (u - 0x30) true) else d
      raise d 0x0802 u 0 0) d)

/-- The bucket that a host RETIRE names; none when the unit takes no RETIRE. -/
def retireTarget (d : Dev) (u sub : Nat) (twig : Bool) : Option Nat :=
  if 0x10 ≤ u && u ≤ 0x1F then some (if twig then (u - 0x10) * 5 + sub else 80 + (u - 0x10))
  else if twig then none
  else if 0x20 ≤ u && u ≤ 0x2F then some (96 + physBank d (4 * (u - 0x20) + sub) 127)
  else if 0x30 ≤ u && u ≤ 0x37 then some (164 + (u - 0x30))
  else if u = 0x38 || u = 0x39 then some (172 + 4 * (u - 0x38) + sub)
  else if u = 0x3B || u = 0x3C then some (180 + 4 * (u - 0x3B) + sub)
  else if u = 0x3D || u = 0x3E then some (188 + (u - 0x3D))
  else none

/-- RETIRE acts as a permanent error of kind HOST. A fenced unit records no error, so that its RETIRE is not applied (DEDUCED, log entry 39). -/
def retireOp (nv : NonVol) (u sub : Nat) (twig : Bool) (d : Dev) : Dev :=
  if (u = 0x1E || u = 0x1F) && nv.gradeS then cmdStat d 4 u
  else match retireTarget d u sub twig with
    | none => cmdStat d 1 u
    | some n =>
      if isRetired d u || (bucket d n).state = 1 || (bucket d n).state = 2 then cmdStat d 3 u
      else if (bucket d n).state ≠ 0 || bktFenced d n then cmdStat d 1 u
      else recordError nv n 0xB 0 (cmdStat d 0 u)

def execRetire (unit : Byte) (sub : Fin 4) (twig : Bool) (s : State) : Out :=
  onDev s (retireOp s.nv unit.toNat sub.val twig)

/-- A write to FLT_CMD: the operation its OP names; 0 does nothing. A Twig takes no FENCE and no UNFENCE (R486). -/
def fltCmdWrite (nv : NonVol) (value : Word) (d : Dev) : Dev :=
  let v := value.toNat
  let twig (f : Dev → Dev) : Dev := if bits v 12 1 = 1 then cmdStat d 1 (bits v 0 8) else f d
  match bits v 8 2 with
  | 1 => twig (fenceOp nv (bits v 0 8))
  | 2 => twig (unfenceOp nv (bits v 0 8))
  | 3 => retireOp nv (bits v 0 8) (bits v 10 2) (bits v 12 1 == 1) d
  | _ => d

/-! ## Bank copy and scrub (R87 to R89) -/

/-- BANK_PAGE_COPIED: one page index is visited; at page 127 the spare holds the bank. -/
def bankPageCopiedOp (bad : Nat) (d : Dev) : Dev :=
  if !flag d copyActive then d
  else
    let b := fld d copySrc
    let i := fld d copyDone
    let l := b * 128 + i
    let held := d.trk.copyHeld.contains l
    let d := if held then moveBooks { d with trk := { d.trk with copyHeld := d.trk.copyHeld.erase l } } .transit .retired 1 else d
    let d := if held && bad ≠ 0 then raise (bump d aUncorr bad) 0x0401 (0x20 + b / 4) 2 l else d
    let d := progAt (setFld d copyDone (i + 1)) 8 (i + 1)
    if i + 1 < 128 then d
    else
      let d := moveBooks d .transit .free d.trk.copyFree.length
      let d := { d with trk := { d.trk with copyFree := [] } }
      -- the physical bank that has been copied; a spare stands in for no bank any more
      let p := d.flt.running.get 0 0 - 1
      let d := if 64 ≤ p then setFlds d [(spareInUse (p - 64), 0), (spareBank (p - 64), 0)] else d
      let d := setBktState { d with flt := { d.flt with running := d.flt.running.put 0 0 0 } } (96 + p) 2
      let d := setFlds d [(copyActive, 0)]
      progDone (raise d 0x0406 (0x20 + b / 4) 4 (b + fld d copySpare * 256)) 8

def execBankPageCopied (uncorrectable : Nat) (s : State) : Out := onDev s (bankPageCopiedOp uncorrectable)

/-- SCRUB_PASS_START: with EN set, a pass begins every INTERVAL seconds, or at once after a longer pass. The first pass after reset
begins at once (DESIGN CHOICE, log entry 80). -/
def scrubPassStartOp (d : Dev) : Dev :=
  if flag d scrubEn && d.trk.scrub.isNone &&
      decide (d.trk.scrubT = 0 ∨ fld d scrubInterval * 1000000000 ≤ d.devTime.toNat - d.trk.scrubT) then
    progStart { d with trk := { d.trk with scrub := some 0, scrubT := max 1 d.devTime.toNat } } 4 0 8192
  else d

def execScrubPassStart (s : State) : Out := onDev s scrubPassStartOp

/-! ## Errors that reads find (R87, R202, R204) -/

/-- An error in a Trunk line: corrected, or delivered as read. -/
def trunkErr (nv : NonVol) (line : Nat) (bad : Bool) (d : Dev) : Dev :=
  let lpn := line / 1024
  let n := 96 + physBank d (lpn / 128) (lpn % 128)
  if bad then recordError nv n 2 line (raise (bump d aUncorr 1) 0x0401 (0x20 + lpn / 512) 2 lpn)
  else recordError nv n 1 line (bump d aScrubCorr 1)

/-- An error in word `w` of the store of Branch `n`: bank a >> 18 and the word's index in it; `arg` names the task. -/
def storeErr (nv : NonVol) (n w : Nat) (bad : Bool) (arg : Nat) (d : Dev) : Dev :=
  let (bank, i) := (w / 32768, w % 32768)
  if bad then recordError nv (80 + n) 2 (bank * 65536 + i) (raise (bump d (aBstUncorr n) 1) 0x0410 (0x10 + n) 2 (bank + i % 4096 * 16 + arg))
  else recordError nv (80 + n) 1 (bank * 65536 + i) (bump d (aBstCorr n) 1)

/-- Uncorrectable Trunk words stand in memory as they read. -/
def plantTrunk (errs : List MemErr) (d : Dev) : Dev :=
  errs.foldl (fun d e => if e.place == .trunk && e.bad && decide (e.addr < 2 ^ 26) then writeMem d (trunkBase + 8 * e.addr) (le 8 e.raw.toNat) else d) d

/-- Errors that a read of the Trunk met, in order. -/
def trunkErrs (nv : NonVol) (errs : List MemErr) (d : Dev) : Dev :=
  errs.foldl (fun d e => if e.place == .trunk && decide (e.addr < 2 ^ 26) then trunkErr nv (e.addr / 8) e.bad d else d) d

/-- Words of the reading unit's own memory that failed their parity count in its bucket. -/
def bufferErrs (nv : NonVol) (n : Nat) (errs : List MemErr) (d : Dev) : Dev :=
  parityErrs nv n ((errs.filter (fun e => e.place == .buffer)).map (·.addr)) d

/-- SCRUB_LINE: the next line is read; corrected errors are written back and counted, uncorrectable ones counted and
raised. -/
def scrubLineOp (nv : NonVol) (corr bad : Nat) (d : Dev) : Dev :=
  match d.trk.scrub with
  | none => d
  | some i =>
    if !flag d scrubEn then d
    else
      let d := (List.range corr).foldl (fun d _ => trunkErr nv i false d) d
      let d := (List.range bad).foldl (fun d _ => trunkErr nv i true d) d
      if i + 1 < 8192 * 1024 then
        let d := { d with trk := { d.trk with scrub := some (i + 1) } }
        if (i + 1) % 1024 = 0 then
          let q := (i + 1) / 1024
          progSet d 4 1 (min 63 (q / 128)) q 8192 (1000 * q / 8192)
        else d
      else progDone { d with trk := { d.trk with scrub := none } } 4

def execScrubLine (correctable uncorrectable : Nat) (s : State) : Out := onDev s (scrubLineOp s.nv correctable uncorrectable)

/-! ## LPDDR6 (R443 to R452) -/

/-- A Wind rule for LPDDR6 reads or flits fires on an item (R499 to R501): the action and DATA. Rules in ascending order;
one rule at most acts on an item. -/
def windMatch (d : Dev) (r kind dir index addr : Nat) : Bool :=
  let st := d.flt.wind.get { seen := 0, fired := 0, armT := 0 } r
  flag d (wndArm r) && fld d (wndKind r) == kind && (kind == 3 || kind == 4 || fld d (wndDir r) == dir) && fld d (wndIndex r) == index &&
  (match fld d (wndTrig r) with
   | 0 => decide ((st.seen + 1) % max 1 (fld d (wndParam0 r)) = 0)
   | 1 => (addr &&& fld d (wndParam1 r)) == fld d (wndParam0 r)
   | _ => let us := (d.devTime.toNat - st.armT) / 1000
          decide (fld d (wndParam0 r) ≤ us ∧ us < fld d (wndParam0 r) + fld d (wndParam1 r)))

/-- Count an eligible item against every armed rule that targets it. -/
def windSee (d : Dev) (kind dir index : Nat) : Dev :=
  (List.range 8).foldl (fun d r =>
    if flag d (wndArm r) && fld d (wndKind r) == kind && (kind == 3 || kind == 4 || fld d (wndDir r) == dir) && fld d (wndIndex r) == index then
      let st := d.flt.wind.get { seen := 0, fired := 0, armT := 0 } r
      { d with flt := { d.flt with wind := d.flt.wind.put { seen := 0, fired := 0, armT := 0 } r { st with seen := st.seen + 1 } } }
    else d) d

/-- One firing of rule `r`: HITS, and disarming at LIMIT with WIND_DONE (R501). -/
def windFire (d : Dev) (r : Nat) : Dev :=
  let st := d.flt.wind.get { seen := 0, fired := 0, armT := 0 } r
  let d := bump { d with flt := { d.flt with wind := d.flt.wind.put { seen := 0, fired := 0, armT := 0 } r { st with fired := st.fired + 1 } } } (aWndHits r) 1
  if fld d (wndLimit r) ≠ 0 && fld d (wndLimit r) ≤ st.fired + 1 then raise (setFld d (wndArm r) 0) 0x0807 0x42 0 r else d

/-- The action that Wind takes on an item: none, or (action, DATA). -/
def windOn (d : Dev) (kind dir index addr : Nat) : Dev × Option (Nat × Nat) :=
  if !flag d wndEn || fenced d 0x42 then (d, none)
  else
    let hit := lowest 8 (fun r => windMatch d r kind dir index addr)
    let act := hit.map (fun r => (fld d (wndAction r), fld d (wndData r)))
    let d := windSee d kind dir index
    (match hit with | some r => windFire d r | none => d, act)

/-- A message goes out on endpoint `ep` IN: Wind may drop its packet, which the standard's retry sends again (R500). A message counts as
one packet, and a resend as none (DESIGN CHOICE, log entry 72). -/
def usbPacket (ep : Nat) (d : Dev) : Dev := (windOn d 4 0 ep 0).1

/-- The word at window offset `a` was read from channel `c` with its syndrome: 0 good, 1 a single data-bit error, 2 an address error, 3 any
other (R446). -/
def lp6Word (nv : NonVol) (c a outcome : Nat) (d : Dev) : Dev :=
  let n := 164 + c
  let addr := a / 64 % 2 ^ 32
  let mark (d : Dev) : Dev := setFlds d [(lp6ErrLo, a % 2 ^ 32), (lp6ErrHi, a / 2 ^ 32), (lp6ErrChan, c)]
  match outcome with
  | 0 => d
  | 1 => recordError nv n 1 addr (bump d aLp6Corr 1)
  | 2 => recordError nv n 7 addr (raise (mark (bump (bump d aLp6Addr 1) aLp6Uncorr 1)) 0x0421 (0x30 + c) 2 addr)
  | _ => recordError nv n 2 addr (raise (mark (bump d aLp6Uncorr 1)) 0x0420 (0x30 + c) 2 addr)

/-- The tasks whose demand fetch reads the page at window offset `a` (R446). -/
def lp6Readers (d : Dev) (a : Nat) : List (Nat × Nat × Bool) :=
  [0, 1].flatMap (fun sp =>
    ((if sp = 0 then d.trk.map0 else d.trk.map1).filter (fun e => e.2.loc == 3 && e.2.move == 2 && e.2.bpn == a / 0x10000)).flatMap
      (fun e => demanders d sp e.1))

/-- LP6_READ_DONE: the word at a window offset returns and is checked. An uncorrectable one marks the tasks whose demand fetch read it (R446).
A link error was retried once and is counted (R447). -/
def lp6ReadDoneOp (nv : NonVol) (a outcome : Nat) (link : Bool) (d : Dev) : Dev :=
  if !flag d lp6Avail then d
  else
    let c := lp6Serves d a
    let (d, w) := windOn d 3 0 c (a / 64)
    let outcome := match w with
      | some (_, data) => let n := popcount 32 data; if n = 0 then outcome else if n = 1 && outcome = 0 then 1 else 3
      | none => outcome
    let d := if link then recordError nv (164 + c) 4 (a / 64 % 2 ^ 32) (bump d aLp6Retry 1) else d
    let d := if 2 ≤ outcome then
        (lp6Readers d a).foldl (fun d k => mapTask d k.1 k.2.1 k.2.2 (fun t => { t with flags := setBit t.flags fUncorr true })) d
      else d
    lp6Word nv c a outcome d

def execLp6ReadDone (offset : Nat) (outcome : Fin 4) (linkError : Bool) (s : State) : Out :=
  onDev s (lp6ReadDoneOp s.nv offset outcome.val linkError)

/-- LP6_REFRESH: a per-bank refresh delays accesses and changes no data; the class that the devices report is kept (R448). -/
def lp6RefreshOp (c cls : Nat) (d : Dev) : Dev := setFld d (lp6Temp c) cls
def execLp6Refresh (channel : Fin 8) (tempClass : Fin 16) (s : State) : Out := onDev s (lp6RefreshOp channel.val tempClass.val)

/-- LP6_GRANULE_COPIED: one granule of the retiring channel has its new home; addresses keep their data (R450, R451). `words`: its 64-bit
words that were read in error, with their syndromes; the copy reads through R446. -/
def lp6GranuleOp (nv : NonVol) (words : List (Nat × Nat)) (d : Dev) : Dev :=
  if !flag d lp6RetActive then d
  else
    let k := fld d lp6RetDone
    let c := fld d lp6RetChan
    let bad := (words.filter (fun w => decide (2 ≤ w.2))).length
    let d := { d with trk := { d.trk with chanBad := d.trk.chanBad + bad } }
    -- block k holds one granule of channel c
    let g := 8 * k + (lowest 8 (fun i => lp6Channel ((8 * k + i) * 2048) == c)).getD 0
    let d := words.foldl (fun d w => lp6Word nv c (g * 2048 + 8 * w.1) w.2 d) d
    let d := progAt (setFld d lp6RetDone (k + 1)) 10 (k + 1)
    if k + 1 < lp6Blocks d then d
    else
      let d := setBktState { d with flt := { d.flt with running := d.flt.running.put 0 1 0 } } (164 + c) 2
      progDone (raise (setFld d lp6RetActive 0) 0x0423 (0x30 + c) 4 (c + min d.trk.chanBad 0xFFFFFF * 256)) 10

def execLp6GranuleCopied (words : List (Fin 256 × Fin 4)) (s : State) : Out :=
  onDev s (lp6GranuleOp s.nv (words.map (fun w => (w.1.val, w.2.val))))

/-- PAGE_FETCH_DONE. A page that a fenced LPDDR6 channel serves in part is fetched as it reads, and the tasks that wait for it end FENCED
(R452, R485). -/
def fetchDoneOp (nv : NonVol) (sp v : Nat) (d : Dev) : Dev :=
  let p := pageAt d sp v
  let dead := p.loc = 3 && p.move = 2 && (List.range 32).any (fun i => lp6Dead d (p.bpn * 0x10000 + 2048 * i))
  let ks := if dead then demanders d sp v else []
  let d := pageFetchDoneOp sp v d
  if ks.isEmpty then d else closeFrames nv (ks.foldl (fun d k => endTask d k.1 k.2.1 k.2.2 stFenced 0) d)

def execPageFetchDone (space : Fin 2) (vpn : Nat) (s : State) : Out := onDev s (fetchDoneOp s.nv space.val vpn)

/-- TASK_READY, with the words of the Stem's descriptor and task state that fail their parity (R475). -/
def execTaskReady (task : Nat) (pfn : Word) (parity : List Word) (s : State) : Out :=
  onDev s (fun d =>
    let out := outFlag d task pfn.toNat
    let stem := pStem (imgOf d out) (kPipe (imgOf d out) task)
    let known := (taskSt d task pfn.toNat out).isSome
    let d := taskReadyOp s.nv task pfn.toNat d
    if known then parityErrs s.nv (190 + stem) (parity.map (·.toNat)) d else d)

/-- LP6_AREA: ignored while a pack is staged or a space is not empty; 0 is taken as 1; a value whose area would reach
7C/8 is taken as the largest that does not (R443). -/
def lp6AreaOp (value : Word) (d : Dev) : Dev :=
  if d.root.packs.isEmpty && !hasGraft d && fld d graftSpace1 = 0 then
    let v := max 1 (value.toNat % 256)
    let top := lp6Capacity d * 7 / 8
    setFld d lp6Seed (min v ((top - 0x2000000 - 1) / 0x4000000))
  else d

def execLp6AreaWrite (value : Word) (s : State) : Out := onDev s (lp6AreaOp value)

/-! ## Links (R478, R502) -/

def Link.none : Link :=
  { unacked := [], heldF := Option.none, nextRx := 0, naking := false, resend := false, fails := 0, got := [], retries := 0, lastRep := Option.none }
def linkOf (d : Dev) (l : Nat) : Link := d.flt.links.get Link.none l
def setLink (d : Dev) (l : Nat) (x : Link) : Dev := { d with flt := { d.flt with links := d.flt.links.put Link.none l x } }

/-- Credits of the sender (R263): each flit that it keeps holds one until its acknowledgement. -/
def Link.credits (x : Link) : Nat := 16 - x.unacked.length - (if x.heldF.isSome then 1 else 0)

/-- The Branch that sends on a link: the Branch itself, or on the opposite halo direction its higher neighbour. -/
def linkSender (nv : NonVol) (l : Nat) : Nat := if 0x30 ≤ l then (l % 16 + 1) % branchCount nv else l % 16

/-- One failed attempt: RETRY, or LINK_FAIL at the 16th (R478). LINK_RETRIES at most once per link per second. -/
def linkFailure (nv : NonVol) (l : Nat) (d : Dev) : Dev :=
  let x := linkOf d l
  let n := 80 + linkSender nv l
  let x := { x with fails := x.fails + 1, resend := true, retries := min 65535 (x.retries + 1) }
  if 16 ≤ x.fails then recordError nv n 5 l (setLink d l { x with fails := 0, resend := false })
  else
    let due := match x.lastRep with | some t => decide (1000000000 ≤ d.devTime.toNat - t) | none => true
    let d := if due then raise (setLink d l { x with retries := 0, lastRep := some d.devTime.toNat }) 0x0806 (0x10 + linkSender nv l) 0 (l + x.retries * 65536)
             else setLink d l x
    recordError nv n 4 l d

/-- The receiver takes a flit (R478): good and next, it is delivered and acknowledged; else NAK, and it and later flits are
discarded until the resend. -/
def linkReceive (nv : NonVol) (l seq crc : Nat) (payload : Bytes) (d : Dev) : Dev :=
  let x := linkOf d l
  let good := crc16 (BitVec.ofNat 8 seq :: payload) == crc
  if good && seq = x.nextRx && (!x.naking || !x.resend) then
    setLink d l { x with nextRx := (x.nextRx + 1) % 256, naking := false, fails := 0, got := payload,
                         unacked := x.unacked.filter (fun e => e.1 != seq) }
  else
    let keep := x.unacked.filter (fun e => e.1 != seq) ++ [(seq, payload)]
    if x.naking && (x.resend || seq ≠ x.nextRx) then setLink d l { x with unacked := keep }
    else linkFailure nv l (setLink d l { x with naking := true, unacked := keep })

/-- The flit is one that the sender keeps, or one that it had a credit to send (R263). -/
def flitDue (x : Link) (seq : Nat) : Bool := x.unacked.any (fun e => e.1 == seq) || x.credits != 0

/-- FLIT_RECEIVED: Wind may drop, corrupt, hold back or delay the flit first (R500). A delay changes timing only. -/
def flitReceivedOp (nv : NonVol) (l seq crc : Nat) (payload : Bytes) (d : Dev) : Dev :=
  if !flitDue (linkOf d l) seq then d
  else
  let held := (linkOf d l).heldF
  let d := setLink d l { linkOf d l with heldF := none }
  let (d, w) := windOn d (if l % 32 < 16 then 1 else 2) (l / 32) (if 0x30 ≤ l then linkSender nv l else l % 16) seq
  let d := match w with
    | some (0, _) => setLink d l { linkOf d l with unacked := (linkOf d l).unacked ++ [(seq, payload)] }
    | some (1, data) =>
      let p := (List.range payload.length).map (fun i => if i < 4 then (payload.getD i 0) ^^^ BitVec.ofNat 8 (data / 256 ^ i) else payload.getD i 0)
      linkReceive nv l seq crc p d
    | some (2, _) => setLink d l { linkOf d l with heldF := some (seq, payload) }
    | _ => linkReceive nv l seq crc payload d
  match held with
  | some e => linkReceive nv l e.1 (crc16 (BitVec.ofNat 8 e.1 :: e.2)) e.2 d
  | none => d

def execFlitReceived (link : Fin 64) (seq : Byte) (crc : BitVec 16) (payload : Bytes) (s : State) : Out :=
  onDev s (flitReceivedOp s.nv link.val seq.toNat crc.toNat payload)

/-- FLIT_ACK_TIMEOUT: a flit that the sender still holds was not acknowledged: it will resend, unless a resend is due. -/
def flitAckTimeoutOp (nv : NonVol) (l : Nat) (d : Dev) : Dev :=
  let x := linkOf d l
  if x.resend || x.unacked.isEmpty then d else linkFailure nv l d

def execFlitAckTimeout (link : Fin 64) (s : State) : Out := onDev s (flitAckTimeoutOp s.nv link.val)

/-- FLIT_RESEND: the resend delay has passed; the sender sends again from the failed flit. -/
def flitResendOp (l : Nat) (d : Dev) : Dev :=
  let x := linkOf d l
  if x.resend then setLink d l { x with resend := false } else d

def execFlitResend (link : Fin 64) (s : State) : Out := onDev s (flitResendOp link.val)

/-! ## Wind (R499 to R501) -/

/-- Targets and actions of Table Fault-6, with the ranges of R501. -/
def windLegal (nv : NonVol) (d : Dev) (r : Nat) : Bool :=
  let a := fld d (wndAction r)
  let i := fld d (wndIndex r)
  let target := match fld d (wndKind r) with
    | 1 => decide (i < branchCount nv) && decide (a ≤ 3)
    | 2 => decide (i < branchCount nv) && decide (a ≤ 3)
    | 3 => decide (i < 8) && a == 1
    | 4 => decide (1 ≤ i ∧ i ≤ 3) && a == 0
    | _ => false
  target && (match fld d (wndTrig r) with
    | 0 => decide (1 ≤ fld d (wndParam0 r) ∧ fld d (wndParam0 r) ≤ 65535)
    | 1 => true | 2 => true | _ => false)

/-- A write to WND_Rr_CTL. LIMIT changes only while ARM was 0; setting ARM arms a legal rule, or sets ERR. -/
def windArmOp (nv : NonVol) (r : Nat) (value : Word) (d : Dev) : Dev :=
  let v := value.toNat
  let was := flag d (wndArm r)
  let d := if was then d else setFld d (wndLimit r) (bits v 0 16)
  if bits v 16 1 = 0 then setFld d (wndArm r) 0
  else if was then d
  else if windLegal nv d r && !fenced d 0x42 then
    let z : WindRule := { seen := 0, fired := 0, armT := 0 }
    setFlds { d with flt := { d.flt with wind := d.flt.wind.put z r { z with armT := d.devTime.toNat } } } [(wndArm r, 1), (wndErr r, 0)]
  else setFld d (wndErr r) 1

def execWindRuleArm (rule : Fin 8) (value : Word) (s : State) : Out := onDev s (windArmOp s.nv rule.val value)

end Sys2Proof.Machine
end

