-- ==== Sys2Proof/Machine/Clock.lean ====
section
/-! DEFINITION. Clocks, reset, start-up steps, cadence lock and governor (R506 to R524, R533). -/

namespace Sys2Proof.Machine

/-! ## Raster start (R33, R35, R521) -/

/-- DSO_LEAD.CLAMPED and LEAD_CLAMPED for a lead `l` made from a LEAD of `want` (R35, R36). -/
def reportLead (want l : Nat) (d : Dev) : Dev :=
  let d := setFld d leadClamped (if l = want then 0 else 1)
  if l = want then d else raise d 0x0115 0x3B 0 l

/-- The lead of the timing in force under the frame buffer slots in force, where no commit brings it: as the raster starts, and when
a Graft apply or unload changes the lead that its slots allow (DESIGN CHOICE, log entry 73). -/
def setLead (d : Dev) : Dev :=
  let want := inForce d leadLead
  let l := leadOf d (vtotalNom d) want
  if l = d.ras.lead then d else reportLead want l { d with ras := { d.ras with lead := l, relead := true } }

/-- The raster runs from position 0 of the frame that DSO_OFN bears. -/
def startRaster (d : Dev) : Dev :=
  let d := setFld d dsoPos 0
  let d := { d with ras := { d.ras with running := true, vtotal := vtotalNom d, phase := 0, blank := false,
                                        read := 0, readOfn := ofn d, relead := true } }
  setLead (latchBase d 0x11 (ofn d))

/-! ## Reset (R519, R533) -/

/-- RST_N low, TEST_EN high or EXTEST: every register at its reset value, DEV_TIME clear, the engine held. -/
def holdReset (why : Nat) (d : Dev) : Dev := { Dev.reset with held := setBit d.held why true }

def execResetAssert (s : State) : Out := .next { s with dev := holdReset 0 s.dev }

/-- RESET_RELEASE: the rising edge of RST_N starts the root PLL; JTAG leaves EXTEST at a reset release. -/
def execResetRelease (s : State) : Out :=
  .next (if s.dev.held.testBit 0 then
    { s with dev := { Dev.reset with held := setBit (setBit s.dev.held 0 false) 2 false } } else s)

/-- JTAG_EXTEST: entering EXTEST holds the engine until a reset release. -/
def execJtagExtest (entered : Bool) (s : State) : Out :=
  .next (if entered then { s with dev := holdReset 2 s.dev } else s)

/-- TEST_EN_CHANGE: while high the engine is held as if RST_N were low; low again it starts as from a reset release. -/
def execTestEnChange (level : Bool) (s : State) : Out :=
  .next (if level then { s with dev := holdReset 1 s.dev }
         else if s.dev.held.testBit 1 then { s with dev := { Dev.reset with held := setBit s.dev.held 1 false } } else s)

/-! ## Start-up steps (R521, R522, R449) -/

/-- One failed bank: the lowest free spare replaces it without a copy. -/
def selfTestBank (p : Nat) (d : Dev) : Dev :=
  match freeSpare d with
  | some s => setBktState (setFlds d [(spareBank s, p), (spareInUse s, 1)]) (96 + p) 2
  | none => d

/-- Spares that fail are not used. A group with more failed banks than spares remain is fenced as R90 gives it; otherwise spares replace its
banks. Groups go in ascending order (DEDUCED, log entry 104). -/
def selfTest (nv : NonVol) (failed : List Nat) (d : Dev) : Dev :=
  let d := ([64, 65, 66, 67].filter (fun p => failed.contains p)).foldl (fun d p => setBktState d (96 + p) 2) d
  (List.range 16).foldl (fun d g =>
    let bad := ((List.range 4).map (4 * g + ·)).filter (fun p => failed.contains p)
    let free := ((List.range 4).filter (fun s => !flag d (spareInUse s) && (bucket d (160 + s)).state == 0)).length
    if free < bad.length then fenceUnit nv (0x20 + g) 4 (raise d 0x0407 (0x20 + g) 3 (bad.headD 0))
    else bad.foldl (fun d p => selfTestBank p d) d) d

/-- TRUNK_SELF_TEST_DONE: failed banks are replaced, the self-test progress ends, Stump service begins, LPDDR6 training
begins. -/
def selfTestDoneOp (nv : NonVol) (failed : List Nat) (d : Dev) : Dev :=
  if d.boot ≠ 2 then d
  else
    let d := progDone (selfTest nv failed d) 5
    let d := startRaster (placeUnd { d with boot := 3 })
    let d := if flag d stumpAvail then stumpSettings d else d
    let d := if d.clk.boardBad then raise { d with clk := { d.clk with boardBad := false } } 0x0833 1 0 0 else d
    progStart d 9 0 40

def execTrunkSelfTestDone (failed : List (Fin 68)) (s : State) : Out :=
  onDev s (selfTestDoneOp s.nv (failed.map (·.val)))

/-- LP6_TRAINING_DONE: the rate is the lesser of the board's ceiling and the devices' own; the density is the board record's, and of an invalid
record the devices'. One failed channel is retired with nothing to copy, two make LPDDR6 unavailable (R441, R449). Each counts TRAIN
(R479). USB connects. -/
def lp6TrainingDoneOp (rate density : Nat) (failed : List Nat) (d : Dev) : Dev :=
  if d.boot ≠ 3 then d
  else
    let bad := (List.range 8).filter (fun c => failed.contains c)
    let r := min rate d.clk.lp6Ceil
    let dens := d.clk.lp6Dens.getD density
    let d := progDone { d with boot := 4 } 9
    let ins := bad.foldl (fun m c => setBit m c false) 255
    let d := bad.foldl (fun d c => setFld (setBktState (countError (164 + c) 0xA 0 d).1 (164 + c) 2) (fencedReg (0x30 + c)) 1) d
    let d := { d with flt := { d.flt with retired := bad.map (0x30 + ·) ++ d.flt.retired } }
    let d := match bad with | [c] => setFlds d [(lp6RetChan, c), (lp6RetValid, 1)] | _ => d
    let ok := decide (bad.length ≤ 1)
    let d := setFlds d [(lp6Rate, r), (lp6Density, dens), (lp6Trained, 1), (lp6Avail, ok.toNat), (lp6Inservice, ins)]
    let d := raise d 0x0425 0 0 (ins + r * 256)
    if ok then d else raise d 0x0426 0 3 (255 - ins)

def execLp6TrainingDone (rate density : Nat) (failed : List (Fin 8)) (s : State) : Out :=
  onDev s (lp6TrainingDoneOp rate density (failed.map (·.val)))

/-! ## Governor (R513 to R517) -/

/-- Elastic pipelines that may still be shed, highest number first. -/
def nextShed (d : Dev) : Option Nat :=
  [3, 2, 1, 0].find? (fun p => (fld d (admitState p) == 2 || fld d (admitState p) == 3) && !(fld d clkShed).testBit p)

/-- Floor as an ACLK step index: the highest a_g among admitted Strict pipelines, 250 MHz with none (R515). -/
def floorStep (d : Dev) : Nat :=
  ((List.range 4).filter (fun p => fld d (admitState p) == 1)).foldl (fun m p =>
    match certOf (img0 d) p with
    | none => m
    | some i => match guarStep d (img0 d) i with | some a => min m a | none => m) 3

def strictAdmitted (d : Dev) : Bool := (List.range 4).any (fun p => fld d (admitState p) == 1)

/-- ACLK changes by one step: event, count, and R57 cause 0x1 for the pipelines whose a_g it falls below. -/
def aclkStep (nv : NonVol) (step : Nat) (d : Dev) : Dev :=
  let down := decide (fld d clkAclk < step)
  let d := bump (setFld d clkAclk step) aThrottles 1
  reevaluate nv 1 (fun i => down && match guarStep d (img0 d) i with | some a => decide (a < step) | none => true)
    (raise d 0x0830 1 1 (step + fld d clkCause * 256))

/-- One action of R514: shed, else step ACLK down not below `floor`; false when none is left. -/
def govAction (nv : NonVol) (floor : Nat) (d : Dev) : Dev × Bool :=
  match nextShed d with
  | some p => ({ setFld d clkShed (setBit (fld d clkShed) p true) with clk := { d.clk with acts := p :: d.clk.acts } }, true)
  | none =>
    let a := fld d clkAclk
    if a < floor then (aclkStep nv (a + 1) { d with clk := { d.clk with acts := 4 :: d.clk.acts } }, true) else (d, false)

/-- Row 2: every Elastic pipeline shed and ACLK at 250 MHz, at once. -/
def govCritical (nv : NonVol) (d : Dev) : Dev :=
  (List.range 7).foldl (fun d _ => (govAction nv 3 d).1) d

/-- Undo the most recent action, unless ACLK would rise above the ceiling (R514, R515). -/
def govUndo (nv : NonVol) (d : Dev) : Dev :=
  match d.clk.acts with
  | [] => d
  | 4 :: rest =>
    let a := fld d clkAclk
    if a = 0 || (strictAdmitted d && a ≤ floorStep d) then d
    else aclkStep nv (a - 1) { d with clk := { d.clk with acts := rest, lastUndo := d.devTime.toNat } }
  | p :: rest => { setFld d clkShed (setBit (fld d clkShed) p false) with clk := { d.clk with acts := rest, lastUndo := d.devTime.toNat } }

/-- POWER_OVER or THERMAL_LIMIT once per second when no action is left (R515). -/
def govReport (code arg : Nat) (d : Dev) : Dev :=
  if d.clk.lastRep = 0 || 1000000000 ≤ d.devTime.toNat - d.clk.lastRep then
    raise { d with clk := { d.clk with lastRep := max 1 d.devTime.toNat } } code 1 1 arg
  else d

/-- One action of row 3 or 4 at most every 10 ms. -/
def govPaced (nv : NonVol) (floor code arg : Nat) (d : Dev) : Dev :=
  if d.clk.lastAct ≠ 0 && d.devTime.toNat - d.clk.lastAct < 10000000 then d
  else
    let (d, did) := govAction nv floor d
    if did then { d with clk := { d.clk with lastAct := max 1 d.devTime.toNat } } else govReport code arg d

/-- POWER_WINDOW: the power of the last 1 ms and the hottest junction; the governor decides (Table Clocks-3). -/
def powerWindowOp (nv : NonVol) (p : Nat) (tj : Int) (d : Dev) : Dev :=
  let d := setFlds d [(clkPwr, p), (clkTj, ofS 8 tj), (clkHot, if 100 ≤ tj then 1 else 0)]
  let cap := capWatts (fld d clkCap)
  let overs := if 100 * cap < p then d.clk.overs + 1 else 0
  let unders := if p ≤ 90 * cap then d.clk.unders + 1 else 0
  let cool := if tj ≤ 95 then d.clk.coolMs + 1 else 0
  let d := { d with clk := { d.clk with overs, unders, coolMs := cool } }
  if 125 ≤ tj then { d with clk := { d.clk with trip := true } }
  else if 110 ≤ tj then
    let d := setFld d clkCause 3
    let before := d.clk.acts.length
    let d := govCritical nv d
    if d.clk.acts.length = before then govReport 0x0832 (ofS 8 tj) d else d
  else if 100 ≤ tj then govPaced nv 3 0x0832 (ofS 8 tj) (setFld d clkCause 2)
  else if 2 ≤ overs then govPaced nv (floorStep d) 0x0831 p (setFld d clkCause 1)
  else
    let d := if 1000 ≤ cool && 100 ≤ unders && (d.clk.lastUndo = 0 || 100000000 ≤ d.devTime.toNat - d.clk.lastUndo) then govUndo nv d else d
    if d.clk.acts.isEmpty then setFld d clkCause 0 else d

/-- POWER_WINDOW, with the lanes on which FEC left an error in this 1 ms, bit 4q + l for lane l of port q: each counts SYMBOL (R479; that the
window carries them is a DESIGN CHOICE, log entry 105). -/
def execPowerWindow (p : Nat) (tj : Int) (symbolErrors : BitVec 16) (s : State) : Out :=
  onDev s (fun d => powerWindowOp s.nv p tj
    (((List.range 16).filter symbolErrors.toNat.testBit).foldl (fun d i => recordError s.nv (172 + i) 8 0 d) d))

/-- CLK_CAP: the cap changes, and R57 applies with cause 0x2 where a_g falls or ceases to exist (R517). -/
def clkCapOp (nv : NonVol) (value : Word) (d : Dev) : Dev :=
  let e := setFld d clkCap (value.toNat % 4)
  reevaluate nv 2 (fun i => match guarStep d (img0 d) i, guarStep e (img0 d) i with
    | some a, some b => decide (a < b) | some _, none => true | none, _ => false) e

def execClkCapWrite (value : Word) (s : State) : Out := onDev s (clkCapOp s.nv value)

end Sys2Proof.Machine
end

