-- ==== Sys2Proof/Machine/Intake.lean ====
section
/-! DEFINITION. Video intake: links, frames, lines and their conversion, HDCP, metadata, split and UI modes (R298 to
R316). -/

namespace Sys2Proof.Machine

/-! ## Links and authentication (R298, R299, R308) -/

/-- INTAKE_LINK_TRAINING: the link trains within the ceilings of INT_CTL. A fenced port, or one that holds HPD low, trains
with nothing. -/
def intakeTrainOp (p rate lanes : Nat) (fec dsc : Bool) (d : Dev) : Dev :=
  if fenced d (0x38 + p) || !flag d (intHpd p) then d
  else
    let r := min rate (min 6 (fld d (intMaxRate p)))
    let l := min lanes (min 2 (fld d (intMaxLanes p)))
    let code := if 4 ≤ r then 1 else 0
    let w := r + l * 2 ^ 3 + 2 ^ 5 + code * 2 ^ 6 + fec.toNat * 2 ^ 7 + (dsc && flag d (intDscEn p)).toNat * 2 ^ 8
    setReg d (intLink p) (BitVec.ofNat 32 w)

/-- INTAKE_LINK_TRAINING. A lane that failed training at its count retires first (R479, R492). -/
def execIntakeLinkTraining (port : Fin 2) (rate lanes : Nat) (fec dsc : Bool) (failed : Option (Fin 4)) (s : State) : Out :=
  onDev s (fun d => intakeTrainOp port.val rate lanes fec dsc (laneFails s.nv port.val failed d))

/-- HDCP_AUTHENTICATION: the sink's state follows the source's protocol, when it advertises HDCP. -/
def hdcpAuthOp (p st : Nat) (type1 : Bool) (d : Dev) : Dev :=
  if fenced d (0x38 + p) || !flag d (intHdcpEn p) then d
  else
    let old := fld d (hdcpState p)
    let d := setFlds d [(hdcpState p, st), (hdcpType1 p, type1.toNat)]
    if old = st then d else hdcpEvent p d

def execHdcpAuthentication (port : Fin 2) (state : Fin 4) (type1 : Bool) (s : State) : Out :=
  onDev s (hdcpAuthOp port.val state.val type1)

/-! ## HDR metadata (R310) -/

/-- The seven INT_HDR words of a dynamic range and mastering infoframe: four header bytes, then version, length and the
data bytes of CTA-861.3 (PRESUMED, log entry 10). -/
def hdrWords (pk : Bytes) : Option (List Word) :=
  if u8 pk 1 = 0x87 && decide (32 ≤ pk.length) then
    let xy (i : Nat) : Word := BitVec.ofNat 32 (u32 pk i)
    some [xy 8, xy 12, xy 16, xy 20, xy 24, xy 28, BitVec.ofNat 32 (u8 pk 6 % 8 + 8)]
  else none

/-- SDP_RECEIVED: HDR metadata waits for the next frame; every other packet is discarded. -/
def sdpOp (p : Nat) (pk : Bytes) (d : Dev) : Dev :=
  if fenced d (0x38 + p) || !flag d (intLocked p) then d
  else match hdrWords pk with
    | some ws => setPort d p { port d p with hdr := some ws }
    | none => d

def execSdpReceived (port : Fin 2) (packet : Bytes) (s : State) : Out := onDev s (sdpOp port.val packet)

/-- The packet that belongs to frame `ifn` loads. -/
def loadHdr (p ifn : Nat) (d : Dev) : Dev :=
  match (port d p).hdr with
  | none => d
  | some ws =>
    let same := (List.range 7).all (fun i => reg d (hdrReg p i) == ws.getD i 0)
    let d := (List.range 7).foldl (fun d i => setReg d (hdrReg p i) (ws.getD i 0)) (setPort d p { port d p with hdr := none })
    let d := setReg d (hdrIfn p) (BitVec.ofNat 32 ifn)
    if same then d else raise d 0x0504 (0x38 + p) 0 ifn

/-! ## Frame starts (R299, R300, R306) -/

/-- Encodings, component depths and DSC streams of Table Intake-1; a DSC stream needs the link's DSC. -/
def formatOk (dsc : Bool) (v : VideoDesc) : Bool :=
  decide (v.enc ≤ 3 ∧ v.bpc ≤ 2) &&
  (v.dscBpp == 0 || (dsc && decide (96 ≤ v.dscBpp ∧ v.dscBpp ≤ 384 ∧ 1 ≤ v.dscSlices ∧ v.dscSlices ≤ 16 ∧ v.width ≤ 2560 * v.dscSlices)))

/-- Within Table Intake-2: sizes, totals, pixel rate and frame rate; and within R313 in UI mode. -/
def timingOk (ui : Bool) (v : VideoDesc) : Bool :=
  decide ((if ui then 128 else 640) ≤ v.width ∧ v.width ≤ 7680) &&
  decide (480 ≤ v.height ∧ v.height ≤ (if ui then 2160 else 4320)) &&
  decide (v.width + 32 ≤ v.htotal ∧ v.htotal ≤ 16383) && decide (v.height + 8 ≤ v.vtotal ∧ v.vtotal ≤ 8191) &&
  decide (v.htotal * v.vtotal * 1000000000 ≤ 2400000000 * v.fperiod) &&
  decide (v.fperiod * 23 ≤ 1000000000 ∧ 1000000000 ≤ v.fperiod * 240) &&
  (!ui || (v.width % 2 == 0 && v.enc == 0 && v.range == 0 && decide (v.bpc ≤ 1)))

/-- Layer and buffer tensors that INT1 UI mode writes (R314, R320). -/
def uiLayer (d : Dev) : Option Nat :=
  let l := u8 (img0 d) (gOff (img0 d) 8 + 1)
  if gHas (img0 d) 8 && decide (l ≤ 7) && fld d (cnpOwner l) == 5 then some l else none

/-- The next buffer in turn that is neither shown nor awaiting a flip. -/
def uiNextBuf (d : Dev) (l : Nat) : Nat :=
  let b := d.cnp.uiBuf
  let busy (x : Nat) : Bool := (flag d (cnpStateEn l) && fld d (cnpStateBuf l) == x) ||
    (match d.cnp.uiPend with | some e => e.1 == x | none => false)
  match [(b + 1) % 3, (b + 2) % 3, b].find? (fun x => !busy x) with | some x => x | none => (b + 1) % 3

/-- The first frame since a source change restarts the cadence mapping (R312). -/
def noteRestart (p ifn : Nat) (d : Dev) : Dev :=
  match d.stem.cadRe with
  | some (c, none) => if gCadPort (img0 d) = p then { d with stem := { d.stem with cadRe := some (c, some ifn) } } else d
  | _ => d

/-- The frame takes its slot of the input frame store (R45). -/
def claimSlot (p ifn : Nat) (d : Dev) : Dev :=
  match boundTensor (img0 d) 4 with
  | some b =>
    if fld d undSrc = p || (fld d undSrc = 2 && p = 0) then
      let slot := ifn % max 1 (tSlots (img0 d) b)
      { d with inp := { d.inp with store := (slot, ifn, false) :: d.inp.store.filter (fun e => e.1 != slot) } }
    else d
  | none => d

/-- In UI mode the frame takes the next buffer of its layer (R314). -/
def uiTurn (p : Nat) (d : Dev) : Dev :=
  if uiMode d p then
    match uiLayer d with
    | some l => { d with cnp := { d.cnp with uiBuf := uiNextBuf d l } }
    | none => d
  else d

/-- Classes of Table R311 in which stream `v` differs from the stream of the frame before. -/
def changeClasses (w v : VideoDesc) : Nat :=
  (w.width ≠ v.width ∨ w.height ≠ v.height : Bool).toNat +
  2 * (w.htotal ≠ v.htotal ∨ w.vtotal ≠ v.vtotal ∨ w.fperiod < 200 * (v.fperiod - w.fperiod) ∨ w.fperiod < 200 * (w.fperiod - v.fperiod) : Bool).toNat +
  4 * (w.enc ≠ v.enc ∨ w.bpc ≠ v.bpc ∨ w.colorimetry ≠ v.colorimetry ∨ w.range ≠ v.range ∨ (w.dscBpp = 0) ≠ (v.dscBpp = 0) : Bool).toNat

/-- A frame whose stream differs from the frame before is a source change, in the classes that no SOURCE_CHANGE has reported since (R305,
R311; DESIGN CHOICE, log entry 98); one outside the tables is a change of class `void` (R299). -/
def noteChange (p : Nat) (v : VideoDesc) (void : Nat) (d : Dev) : Dev :=
  let d := if voidNow (port d p) then endInput p false d else d
  let x := port d p
  let c := if x.begun then changeClasses x.video v else 0
  sourceChange p ((c - (c &&& x.chg)) ||| void) d

/-- A frame of the port begins and counts. -/
def beginFrame (nv : NonVol) (p : Nat) (v : VideoDesc) (t : Nat) (d : Dev) : Dev :=
  let x := port d p
  let ifn := if x.begun then add32 (fld d (intIfn p)) 1 else fld d (intIfn p)
  let last := match x.frames.head? with | some f => f.t0 | none => t
  let f : InFrame :=
    { ifn, base := ringVal d (lineRingNo p), width := v.width, height := v.height, rx := 0, count := 0, skip := 0,
      skips := 0, undec := 0, prot := false, void := false, ended := false, t0 := t }
  let d := setPort d p { x with begun := true, frames := (f :: x.frames).take 3, wq := [], raw := [], video := v,
                                chg := 0, wfmt := fld d (intWfmt p) }
  let newShape := fld d (intWidth p) ≠ v.width || fld d (intHeight p) ≠ v.height
  let d := setFlds d [(intIfn p, ifn), (intWidth p, v.width), (intHeight p, v.height), (intEnc p, v.enc), (intBpc p, v.bpc),
    (intRange p, v.range), (intColor p, min 3 v.colorimetry), (intHtotal p, v.htotal), (intVtotal p, v.vtotal),
    (intFperiod p, t - last)]
  let d := loadHdr p ifn d
  -- Ring 0x0002 counts against the INT0 key in split mode (R307)
  let key := if splitMode d && p = 1 then fld d (intIfn 0) else ifn
  let d := latchBase d (lineRingNo p) key
  let d := noteRestart p ifn d
  let d := if p = 0 && newShape && flag d stumpActive then stumpSteps (stumpPages true d) else d
  let d := uiTurn p (claimSlot p ifn d)
  let d := lockInput p d
  -- pipelines keyed to the port open a frame (R245)
  openFrames nv (((pipesOf (img0 d)).filter (fun q => pKey (img0 d) q == p)).map (fun q => (q, ifn))) d

/-- A line period of a stream in ns, times its vertical total. -/
def pairWindow (v : VideoDesc) : Nat := 2 * v.fperiod

/-- A frame that starts before the previous one ended closes it first. -/
def closeInput (p : Nat) (d : Dev) : Dev := endInput p false d

/-- Unequal sizes or totals on the two ports are a change of class TIMING on both, once until they agree again (R306; the frames are still
paired: DESIGN CHOICE, log entry 98). -/
def pairTimings (v w : VideoDesc) (d : Dev) : Dev :=
  let u := decide (v.width ≠ w.width ∨ v.height ≠ w.height ∨ v.htotal ≠ w.htotal ∨ v.vtotal ≠ w.vtotal)
  let d' := if u && !d.inp.uneq then sourceChange 1 2 (sourceChange 0 2 d) else d
  { d' with inp := { d'.inp with uneq := u } }

/-- INTAKE_FRAME_START: the first active pixel of a frame arrives. In split mode a frame counts once its partner has
started within two input line periods; its lines wait until then (DEDUCED, log entry 11). -/
def intakeStartOp (nv : NonVol) (p : Nat) (v : VideoDesc) (d : Dev) : Dev :=
  let t := d.devTime.toNat
  if fenced d (0x38 + p) || !flag d (intLocked p) then d
  else
    let void := if !timingOk (uiMode d p) v then 1 else if !formatOk (flag d (intDsc p)) v then 4 else 0
    let d := closeInput p (dropUnpaired p (noteChange p v void d))
    if void ≠ 0 then
      let x := port d p
      let f : InFrame :=
        { ifn := fld d (intIfn p), base := 0, width := v.width, height := v.height, rx := 0, count := 0, skip := 0,
          skips := 0, undec := 0, prot := false, void := true, ended := false, t0 := t }
      setPort d p { x with frames := (f :: (port d p).frames).take 3, wq := [], raw := [], wait := none, held := [] }
    else if !splitMode d then beginFrame nv p v t d
    else
      let q := 1 - p
      match (port d q).wait with
      | some (w, t1) =>
        if (t - t1) * w.vtotal ≤ pairWindow w then
          let d := pairTimings v w (setPort d q { port d q with wait := none })
          let d := if p = 0 then beginFrame nv 1 w t1 (beginFrame nv 0 v t d) else beginFrame nv 1 v t (beginFrame nv 0 w t1 d)
          let lines : Int := ((if p = 0 then -1 else 1) * (((t - t1) * w.vtotal / max 1 w.fperiod : Nat) : Int))
          let d := setFlds d [(splitActive, 1), (splitSkew, ofS 8 lines)]
          { d with inp := { d.inp with pairs := ((fld d (intIfn 0), fld d (intIfn 1), ringVal d 2) :: d.inp.pairs).take 8 } }
        else
          let d := dropUnpaired q d
          setPort d p { port d p with wait := some (v, t), held := [] }
      | none => setPort d p { port d p with wait := some (v, t), held := [] }

def execIntakeFrameStart (port : Fin 2) (video : VideoDesc) (s : State) : Out :=
  onDev s (intakeStartOp s.nv port.val video)

/-- SPLIT_PAIR_TIMEOUT: the waiting frame found no partner and is neither written nor counted (R306). -/
def splitTimeoutOp (p : Nat) (d : Dev) : Dev :=
  match (port d p).wait with
  | none => d
  | some (w, t1) =>
    if (d.devTime.toNat - t1) * w.vtotal ≤ pairWindow w then d else dropUnpaired p d

def execSplitPairTimeout (port : Fin 2) (s : State) : Out := onDev s (splitTimeoutOp port.val)

/-! ## Conversion to the working format (R304, R305, R313) -/

/-- Component `i` of a received sample. -/
def comp (s i : Nat) : Nat := s / 2 ^ (12 * i) % 4096

/-- Bit extension to 12 bits. -/
def ext12 (bpc x : Nat) : Nat :=
  match bpc with
  | 0 => x % 256 * 16 + x % 256 / 16
  | 1 => x % 1024 * 4 + x % 1024 / 256
  | _ => x % 4096

/-- Coefficients of Table Intake-3: cy, cr_r, cb_g, cr_g, cb_b. -/
def cscSet (color : Nat) (limited : Bool) : Int × Int × Int × Int × Int :=
  match color, limited with
  | 0, false => (4096, 5743, 1410, 2925, 7258)
  | 0, true => (4787, 6561, 1611, 3342, 8293)
  | 2, false => (4096, 6040, 674, 2340, 7706)
  | 2, true => (4787, 6901, 770, 2674, 8805)
  | _, false => (4096, 6450, 767, 1917, 7601)
  | _, true => (4787, 7370, 877, 2191, 8684)

/-- sat(): the value in U12, and 1 when it changed. -/
def sat12 (v : Int) : Nat × Nat :=
  let w := clampI 0 4095 v
  (w.toNat, if w = v then 0 else 1)

/-- Step 3 of R304 for YCbCr input. -/
def ycc (color : Nat) (limited : Bool) (y cb cr : Nat) : (Nat × Nat × Nat) × Nat :=
  let (cy, crr, cbg, crg, cbb) := cscSet color limited
  let l : Int := cy * ((y : Int) - (if limited then 256 else 0))
  let b : Int := (cb : Int) - 2048
  let r : Int := (cr : Int) - 2048
  let (x, n1) := sat12 (rhe (l + crr * r) 12)
  let (g, n2) := sat12 (rhe (l - cbg * b - crg * r) 12)
  let (z, n3) := sat12 (rhe (l + cbb * b) 12)
  ((x, g, z), n1 + n2 + n3)

/-- Limited-range RGB to full range. -/
def rgbLimited (v : Nat) : Nat × Nat := sat12 (rhe (4787 * ((v : Int) - 256)) 12)

/-- Element `i` of a list, held inside it. -/
def clampGet (l : List Nat) (i : Nat) : Nat := l.getD (min i (l.length - 1)) 0

/-- Chroma component `i` at column `x` of a row that carries it on even columns. -/
def chromaCol (row : Nat → Nat) (width x : Nat) : Nat :=
  let last := (width - 1) / 2
  let c (k : Nat) : Nat := row (2 * min k last)
  if x % 2 = 0 then c (x / 2) else (rheDiv ((c (x / 2) + c (x / 2 + 1) : Nat)) 2).toNat

/-- Chroma of a 4:2:0 line before the column step: three quarters of its own row and one of its neighbour. The vertical
step is taken first (DEDUCED, log entry 12). -/
def chromaRow (own other : Nat) : Nat := (rheDiv ((3 * own + other : Nat)) 4).toNat

/-- One converted pixel: three working values in 36 bits, and saturations. `y` from `line`; chroma of this line's row from
`own`, of the neighbouring row from `other`. -/
def convertPixel (v : VideoDesc) (wfmt csc : Nat) (line own other : List Nat) (x : Nat) : Nat × Nat :=
  let e (l : List Nat) (i k : Nat) : Nat := ext12 v.bpc (comp (clampGet l k) i)
  let chroma (i : Nat) : Nat :=
    match v.enc with
    | 2 => chromaCol (e line i) v.width x
    | 3 => chromaCol (fun k => chromaRow (e own i k) (e other i k)) v.width x
    | _ => e line i x
  let a := e line 0 x
  let b := chroma 1
  let c := chroma 2
  let pack (t : Nat × Nat × Nat) : Nat := t.1 + t.2.1 * 2 ^ 12 + t.2.2 * 2 ^ 24
  if wfmt = 1 then (pack (a, b, c), 0)
  else if v.enc = 0 then
    if v.range = 1 then
      let r := rgbLimited a
      let g := rgbLimited b
      let z := rgbLimited c
      (pack (r.1, g.1, z.1), r.2 + g.2 + z.2)
    else (pack (a, b, c), 0)
  else
    let color := if csc = 0 then v.colorimetry else csc - 1
    let t := ycc color (v.range == 1) a b c
    (pack t.1, t.2)

/-- A UI pixel: RGBA8888 from the left half's colour and the right half's green (R313). -/
def uiPixel (v : VideoDesc) (line : List Nat) (x : Nat) : Nat :=
  let f (c : Nat) : Nat := if v.bpc = 1 then min 255 (rhe (c % 1024 : Nat) 2).toNat else c % 256
  let s := clampGet line x
  let a := f (comp (clampGet line (v.width / 2 + x)) 1)
  f (comp s 2) + f (comp s 1) * 2 ^ 8 + f (comp s 0) * 2 ^ 16 + a * 2 ^ 24

/-! ## Lines (R302, R308, R309) -/

/-- Planned width and height that a line ring takes (R237, R301): lines and pixels past them are not written. -/
def planOf (d : Dev) (p : Nat) (v : VideoDesc) : Nat × Nat :=
  match if uiMode d p then none else ringTensor d p with
  | some t => (min v.width (tW (img0 d) t), min v.height (tH (img0 d) t))
  | none => (v.width, v.height)

/-- Size of an input frame as the Understory reads it. -/
def inputSize (d : Dev) (p ifn : Nat) : Nat × Nat :=
  match (port d p).frames.find? (fun f => f.ifn == ifn) with
  | some f => let (w, h) := planOf d p (port d p).video; (min w f.width, min h f.height)
  | none => (0, 0)

/-- The state in force is protected from now on (R309); write-back withholds its frame (R339). -/
def setProtected (p : Nat) (d : Dev) : Dev :=
  let d := setPort d p { port d p with clean := some 0 }
  let d := { d with inp := { d.inp with clear := none } }
  if flag d (hdcpProt 0) then d
  else
    let d := hdcpEvent p (setFlds d [(hdcpProt 0, 1), (hdcpProt 1, 1)])
    match d.cnp.wbFrame with
    | some n => if d.cnp.wbHeld then d
                else raise (bump { d with cnp := { d.cnp with wbHeld := true } } aWbProt 1) 0x0702 0x3A 0 n
    | none => d

/-- The line's page lies in a fenced bank group (Table Fault-5). -/
def ringPageFenced (d : Dev) (p y : Nat) : Bool :=
  match ringTensor d p with
  | some t =>
    let b := img0 d
    let pg := pageAt d 0 (tAddr b t 0 (y % max 1 (tH b t)) 0 0 / 0x10000)
    (pg.loc == 1 || pg.loc == 3) && fenced d (0x20 + pg.lpn / 512)
  | none => false

/-- A line goes to its ring: a credit is taken, or the line is skipped (R302, R75). UI lines need no credit. A line whose page lies in a
fenced group is skipped and counted as one that met no credit is, in TRK_RING_OVF too (DESIGN CHOICE, log entry 85). -/
def queueLine (p : Nat) (y : Nat) (px : List Nat) (d : Dev) : Dev :=
  let x := port d p
  match liveFrame x with
  | none => d
  | some f =>
    if uiMode d p then setPort d p { x with wq := x.wq ++ [(y, false, px)] }
    else if (ringTensor d p).isNone && !(flag d stumpActive && p = 0) then
      -- no line ring is declared: the line is counted and goes nowhere but the frame store
      setPort d p { x with wq := x.wq ++ [(y, false, px)] }
    else
      let taken := if ringPageFenced d p y then none else takeCredit d p
      match taken with
      | some d => setPort d p { port d p with wq := (port d p).wq ++ [(y, false, px)] }
      | none =>
        let d := bump (bump d (aIntSkip p) 1) aRingOvf 1
        let f := { f with skips := f.skips + 1, skip := f.skip + 2 ^ y }
        setPort d p { setFrame x f with wq := x.wq ++ [(y, true, [])] }

/-- Counted lines at the head of the queue that were skipped take their place in order. -/
def countSkipped : Nat → Nat → Dev → Dev
  | 0, _, d => d
  | n + 1, p, d =>
    let x := port d p
    match x.wq, liveFrame x with
    | (_, true, _) :: rest, some f =>
      countSkipped n p (ringInc (setPort d p { setFrame x { f with count := f.count + 1 } with wq := rest }) (lineRingNo p) 1)
    | _, _ => d

/-- Lines that are complete now that line `y` has arrived: 4:2:0 writes each line one line later (R304). -/
def readyLines (v : VideoDesc) (y : Nat) : List Nat :=
  if v.enc = 3 then (if 1 ≤ y then [y - 1] else []) ++ (if y + 1 = v.height then [y] else []) else [y]

/-- One received line, converted, with a credit or skipped. -/
def takeLine (p : Nat) (samples : List Nat) (enc : Bool) (d : Dev) : Dev :=
  let x := port d p
  match liveFrame x with
  | none => d
  | some f =>
    if fenced d (0x38 + p) || f.void then d
    else
      let v := x.video
      let y := f.rx
      let dark := enc && (fld d (hdcpState p) ≠ 2 || !flag d (intHdcpEn p))
      let f := { f with rx := y + 1, prot := f.prot || enc, undec := f.undec + dark.toNat }
      let line := if dark then List.replicate v.width 0 else samples
      let d := setPort d p { setFrame x f with raw := (line :: x.raw).take 4 }
      let d := if enc then setProtected p (setFld d (hdcpEnc p) 1) else d
      let d := if dark then bump d (aIntUndec p) 1 else d
      let (w, h) := planOf d p v
      let raws := (port d p).raw
      (readyLines v y).foldl (fun d z =>
        if h ≤ z then d
        else
          let at_ (k : Nat) : List Nat := raws.getD (y - k) []
          let me := at_ z
          let own := at_ (z / 2 * 2)
          let other := if z % 2 = 0 then (if z = 0 then own else at_ (z - 2)) else (if z + 1 < v.height then at_ (z + 1) else own)
          if uiMode d p then queueLine p z ((List.range (v.width / 2)).map (uiPixel v me)) d
          else
            let px := (List.range w).map (convertPixel v x.wfmt (fld d (intCsc p)) me own other)
            let px := if dark then px.map (fun _ => (0, 0)) else px
            let d := bump d (aIntSat p) ((px.map (·.2)).sum)
            countSkipped 4400 p (queueLine p z (px.map (·.1)) d)) d

/-- INTAKE_LINE_RECEIVED. The lines of a frame that waits for its partner are held, and taken once it counts. -/
def intakeLineOp (p : Nat) (samples : List Nat) (enc : Bool) (d : Dev) : Dev :=
  let x := port d p
  if x.wait.isSome then setPort d p { x with held := x.held ++ [(samples, enc)] }
  else (x.held ++ [(samples, enc)]).foldl (fun d l => takeLine p l.1 l.2 d) (setPort d p { x with held := [] })

def execIntakeLineReceived (port : Fin 2) (samples : List Nat) (encrypted : Bool) (s : State) : Out :=
  onDev s (intakeLineOp port.val samples encrypted)

/-- Bytes of one segment of a U12 channel: 16-bit containers, the segment padded with zeros (R97, R214). -/
def segBytes (px : List Nat) (c s w : Nat) : Bytes :=
  (List.range (min w 64)).flatMap (fun i => le 2 (if 64 * s + i < w then comp (px.getD (64 * s + i) 0) c else 0))

/-- Who writes for the hardware: space 0, the tensor's pipeline. -/
def hwWho (d : Dev) (t : Nat) : Who := { sp := 0, pipe := tPipe (img0 d) t, pfn := 0, unit := 2, task := 8192, host := true }

/-- A converted line written into a three-channel U12 tensor of the Graft in force. -/
def writeU12 (d : Dev) (t f y : Nat) (px : List Nat) : Dev :=
  let b := img0 d
  let w := tW b t
  let px := px.take w
  (List.range (min 3 (tC b t))).foldl (fun d c =>
    (List.range (cdiv w 64)).foldl (fun d s => (vwrite d (hwWho d t) (tAddr b t f y c s) (segBytes px c s w)).1) d) d

/-- A line of the port goes into the input frame store too; in split mode INT1's stands to the right of INT0's (R45, R549). -/
def storeLine (p y ifn : Nat) (px : List Nat) (d : Dev) : Dev :=
  let b := img0 d
  match boundTensor b 4, d.inp.store.find? (fun e => !e.2.2 && inStore d p ifn e) with
  | some t, some e =>
    if tH b t ≤ y then d
    else if fld d undSrc = 2 then
      let off := if p = 0 then 0 else (inputSize d 0 e.2.1).1
      let old (c : Nat) : List Int := tensorRow d 0 b t e.1 y c
      let (r, g, z) := (old 0, old 1, old 2)
      writeU12 d t e.1 y ((List.range (tW b t)).map (fun x =>
        if off ≤ x ∧ x < off + px.length then px.getD (x - off) 0
        else (r.getD x 0).toNat + (g.getD x 0).toNat * 2 ^ 12 + (z.getD x 0).toNat * 2 ^ 24))
    else writeU12 d t e.1 y px
  | _, _ => d

/-- A UI line goes into the buffer in turn, as far as the buffer reaches. -/
def uiLine (y : Nat) (px : List Nat) (d : Dev) : Dev :=
  match uiLayer d with
  | some l =>
    let t := fld d (cnpBufTensor l d.cnp.uiBuf)
    if flag d (cnpBufValid l d.cnp.uiBuf) && decide (y < tH (img0 d) t) then
      (vwrite d (hwWho d t) (tAddr (img0 d) t 0 y 0 0) ((px.take (tW (img0 d) t)).flatMap (le 4))).1
    else d
  | none => d

/-- INTAKE_LINE_WRITTEN: the Trunk has every segment of the oldest line in write; the line Ring adds 1. -/
def intakeWrittenOp (p : Nat) (d : Dev) : Dev :=
  let x := port d p
  match x.wq, liveFrame x with
  | (y, false, px) :: rest, some f =>
    let d := setPort d p { setFrame x { f with count := f.count + 1 } with wq := rest }
    let b := img0 d
    let d := if uiMode d p then uiLine y px d
      else
        let d := match ringTensor d p with
          | some t => writeU12 d t 0 (y % max 1 (tH b t)) px
          | none =>
            if flag d stumpActive && p = 0 then
              let w := px.length
              (List.range 3).foldl (fun d c =>
                (List.range (cdiv w 64)).foldl (fun d s =>
                  writeMem d (stumpRing + ((y % 32 * 3 + c) * cdiv w 64 + s) * 128) (segBytes px c s w)) d) d
            else d
        let d := storeLine p y f.ifn px d
        lineWritten d p (ringVal d (lineRingNo p)) (ringConsumers d p)
    countSkipped 4400 p (ringInc d (lineRingNo p) 1)
  | _, _ => d

def execIntakeLineWritten (port : Fin 2) (s : State) : Out := onDev s (intakeWrittenOp port.val)

/-- INTAKE_FRAME_END: every line of the frame has been received and written or skipped. -/
def intakeEndOp (p : Nat) (d : Dev) : Dev :=
  let x := port d p
  match liveFrame x with
  | some f => if f.height ≤ f.rx && x.wq.isEmpty then endInput p false d else d
  | none => d

def execIntakeFrameEnd (port : Fin 2) (s : State) : Out := onDev s (intakeEndOp port.val)

/-- SOURCE_CHANGE of the classes detected (R311). -/
def sourceChangeOp (p cl : Nat) (d : Dev) : Dev := if fenced d (0x38 + p) then d else sourceChange p cl d

def execSourceChange (port : Fin 2) (classes : Fin 16) (s : State) : Out := onDev s (sourceChangeOp port.val classes.val)

/-! ## UI mode (R314) -/

/-- UI_FRAME_COMPLETE: the frame that INT1 completed awaits the next flip instant, in place of an older one. -/
def uiCompleteOp (d : Dev) : Dev :=
  match (port d 1).frames.head? with
  | some f =>
    if uiMode d 1 && f.ended && !f.void && (uiLayer d).isSome &&
        (match d.cnp.uiPend with | some e => e.2 != f.ifn | none => true) then
      let d := match d.cnp.uiPend with
        | some e => raise (bump d (aIntUiDrop 1) 1) 0x0505 0x39 0 e.2
        | none => d
      { d with cnp := { d.cnp with uiPend := some (d.cnp.uiBuf, f.ifn) } }
    else d
  | none => d

def execUiFrameComplete (s : State) : Out := onDev s uiCompleteOp

end Sys2Proof.Machine
end

