-- ==== Sys2Proof/Machine/Understory.lean ====
section
/-! DEFINITION. Output frames and their lines as sources of the picture plane: frame records, the Understory (R41 to
R49, R494, R549). -/

namespace Sys2Proof.Machine

/-! ## Output frames -/

/-- A replay frame (R356): from entry until the exit frame; with entry begun, the next frame is the first. -/
def isReplay (d : Dev) (n : Nat) : Bool :=
  (d.ras.entered && later n (ofn d)) ||
  decide (2 ≤ fld d prState) && match d.ras.prExit with | some e => later e n | none => true

/-- A word of the DSO set that governs frame `n`: in force, or taken for the next frame (R351). -/
def dsoWord (d : Dev) (n a : Nat) : Word :=
  match d.ras.newSet with
  | some m => if n = ofn d then d.live.get 0 a else m.get 0 a
  | none => d.live.get 0 a

/-- Panel size that governs frame `n` (R343). -/
def panelOf (d : Dev) (n : Nat) : Nat × Nat :=
  let w := fget dsoHactive (dsoWord d n dsoHactive.addr)
  (if fget dsoMode (dsoWord d n dsoMode.addr) = 2 then 2 * w else w, fget dsoVactive (dsoWord d n dsoVactive.addr))

/-- A substitution or understory line is shown as fill: the frame and UND_FILL_LINES count it (R46, R47). -/
def countFill (d : Dev) (n : Nat) : Dev :=
  let f := outFrame d n
  bump (setOut d { f with fill := f.fill + 1 }) aFillLines 1

/-! ## The Understory's input (R45, R494) -/

/-- An input line of a port in its line ring: counted for frame `ifn`, not skipped, not overwritten (R45, R46). -/
def lineUsable (d : Dev) (p ifn y : Nat) : Bool :=
  match (port d p).frames.find? (fun f => f.ifn == ifn && !f.void) with
  | none => false
  | some f =>
    let slots := match ringTensor d p with | some t => tH (img0 d) t | none => if flag d stumpActive then 32 else 0
    decide (y < f.count) && !f.skip.testBit y && decide (sub32 (ringVal d (lineRingNo p)) (f.base + y) ≤ slots)

/-- Three rows of working values of line `y` of a port's ring. -/
def ringRows (d : Dev) (p w y : Nat) : List (List Nat) :=
  match ringTensor d p with
  | some t => (List.range 3).map (fun c => (tensorRow d 0 (img0 d) t 0 (y % max 1 (tH (img0 d) t)) c).map Int.toNat)
  | none => (List.range 3).map (fun c => (List.range (cdiv w 64)).flatMap (fun s =>
      (unpackRun 5 (readMem d (stumpRing + ((y % 32 * 3 + c) * cdiv w 64 + s) * 128) 128) (min 64 (w - 64 * s))).map Int.toNat))

/-- The input frame of output frame `n`, chosen as its line 0 begins: none when every line is fill. -/
def undChoose (d : Dev) (n : Nat) : Option Nat :=
  if flag d stumpActive then
    match (port d 0).frames.head? with
    | some f => if f.void || d.ras.undFed = some f.ifn then none else some f.ifn
    | none => none
  else if flag d undMode then
    match d.inp.store.find? (fun e => e.2.2) with | some e => some e.2.1 | none => none
  else if hasGraft d then some (cadMap d n)
  else match (port d (fld d undSrc % 2)).frames.head? with | some f => if f.void then none else some f.ifn | none => none

/-- Three rows of input line `y`, and whether it is usable. In split mode INT0's line is followed by INT1's (R549). -/
def undLine (d : Dev) (ifn y : Nat) : Option (List (List Nat)) :=
  if flag d undMode then
    match boundTensor (img0 d) 4, d.inp.store.find? (fun e => e.2.1 == ifn && e.2.2) with
    | some t, some e => some ((List.range 3).map (fun c => (tensorRow d 0 (img0 d) t e.1 y c).map Int.toNat))
    | _, _ => none
  else
    let src := fld d undSrc
    let p := if src = 1 then 1 else 0
    if src = 2 then
      let j := pairOf d ifn
      if lineUsable d 0 ifn y && lineUsable d 1 j y then
        let a := ringRows d 0 (inputSize d 0 ifn).1 y
        let b := ringRows d 1 (inputSize d 1 j).1 y
        some ((List.range 3).map (fun c => a.getD c [] ++ b.getD c []))
      else none
    else if lineUsable d p ifn y then some (ringRows d p (inputSize d p ifn).1 y) else none

/-- Width and height of the Understory's input frame. -/
def undInput (d : Dev) (ifn : Nat) : Nat × Nat :=
  if flag d undMode then
    match boundTensor (img0 d) 4 with | some t => (tW (img0 d) t, tH (img0 d) t) | none => (0, 0)
  else
    let src := fld d undSrc
    let p := if src = 1 then 1 else 0
    let (w, h) := inputSize d p ifn
    if src = 2 then (w + (inputSize d 1 (pairOf d ifn)).1, h) else (w, h)

/-! ## The GROVE section's canvas (R405, R407, R411) -/

/-- Placement of the Understory's input on the canvas: output origin, input position of the frame's first element, size
of the input canvas, on one axis. -/
structure Axis where
  org   : Nat
  first : Int
  size  : Nat
  deriving DecidableEq, Repr

/-- Axes of the Understory across and down, for an input of `w` by `h`. -/
def undAxes (d : Dev) (w h : Nat) : Axis × Axis :=
  let b := img0 d
  if hasGrove b then
    let i := match d.root.space0 with | some g => g.idx | none => 0
    let s := match boundTensor b (if fld d undSrc = 1 then 2 else 1) with
      | some t => gvGrid b t % 4
      | none => match boundTensor b 4 with | some t => gvGrid b t % 4 | none => 0
    ({ org := gvRX b i, first := (gvRX b i / 2 ^ s : Nat) - (gvInMx b : Int), size := cdiv (gvCanvasW b) (2 ^ s) },
     { org := gvRY b i, first := (gvRY b i / 2 ^ s : Nat) - (gvInMy b : Int), size := cdiv (gvCanvasH b) (2 ^ s) })
  else ({ org := 0, first := 0, size := w }, { org := 0, first := 0, size := h })

/-- Input position in 1/16 elements of output position `x` (R549). -/
def undPos (a : Axis) (step x : Nat) : Int := rhe ((2 * (a.org + x) + 1 : Nat) * (step : Int) - 0x10000) 13

/-- Element of the frame that tap position `i` reads: held inside the canvas, then inside the frame. -/
def undTap (a : Axis) (size : Nat) (i : Int) : Nat :=
  (clampI 0 ((size : Int) - 1) (clampI 0 ((a.size : Int) - 1) i - a.first)).toNat

/-- UND_FILL as a picture word with the tag of fill. -/
def fillWord (d : Dev) : Nat := fld d undFill + 3 * 2 ^ 30

/-- Output line `y` from the input frame: none when a line it needs is not usable. The coefficients are those of the ROM that
UND_REV names, which the spec does not print: a free function of the taps and phases (log entry 5). -/
def undRow (d : Dev) (n ifn y : Nat) : Option (List Nat) :=
  let (w, h) := undInput d ifn
  if w = 0 || h = 0 then none
  else
    let (ax, ay) := undAxes d w h
    let py := undPos ay (fld d undVstep) y
    let iy := py.fdiv 16
    let need := (List.range 6).map (fun (j : Nat) => undTap ay h (iy - 2 + j))
    let rows := need.map (undLine d ifn)
    if rows.any (fun r => r.isNone) then none
    else
      let rows := rows.map (fun r => r.getD [])
      some ((List.range (panelOf d n).1).map (fun x =>
        let px := undPos ax (fld d undHstep) x
        let ix := px.fdiv 16
        if flag d stumpActive && (decide ((w : Int) ≤ ix) || decide ((h : Int) ≤ iy)) then fillWord d
        else
          let taps (c : Nat) : List Nat := rows.flatMap (fun r => (List.range 8).map (fun j => (r.getD c []).getD (undTap ax w (ix - 3 + j)) 0))
          let v (c : Nat) : Nat := Config.undFilter (taps c) (px.fmod 16).toNat (py.fmod 16).toNat % 1024
          v 2 + v 1 * 2 ^ 10 + v 0 * 2 ^ 20 + 2 * 2 ^ 30))

/-- First byte of a line of the understory ring: 64 lines of picture words after the Root region (R44, R64). -/
def undAddr (w y : Nat) : Nat := lpnAddr 64 0 + y % 64 * w * 4

/-- Frame and line that the Understory produces in the present LP (R44). -/
def undDue (d : Dev) : Option (Nat × Nat) :=
  let p := pos d
  let va := vactive d
  if p + 33 ≤ va then some (ofn d, p + 32)
  else if d.ras.vtotal ≤ p + 32 then some (add32 (ofn d) 1, p + 32 - d.ras.vtotal)
  else none

/-- The Understory is done with the input lines that no later line of the frame needs. -/
def undFinish (d : Dev) (n ifn y : Nat) : Dev :=
  if flag d undMode then d
  else
    let src := fld d undSrc
    let (w, h) := undInput d ifn
    let (_, ay) := undAxes d w h
    let last := y + 1 = (panelOf d n).2
    let next := if last then h else undTap ay h ((undPos ay (fld d undVstep) (y + 1)).fdiv 16 - 2)
    let ports := if src = 2 then [(0, ifn), (1, pairOf d ifn)] else if src = 1 then [(1, ifn)] else [(0, ifn)]
    ports.foldl (fun d e =>
      match (port d e.1).frames.find? (fun f => f.ifn == e.2) with
      | some f => finishLines d e.1 0 (add32 f.base next) (ringConsumers d e.1)
      | none => d) d

/-- UNDERSTORY_LINE_PRODUCE: the line due in this LP, or fill, goes into the ring and Ring 0x0012 adds 1 (R44 to R46). With
the frame's first line the frame's input is chosen, recomputed Stump steps take effect, and the Ring's base is latched. -/
def undProduceOp (d : Dev) : Dev :=
  if !d.ras.running || decide (2 ≤ fld d prState) || fenced d 0x40 then d
  else match undDue d with
  | none => d
  | some (n, y) =>
    let f := outFrame d n
    if f.und.get 0 y ≠ 0 then d
    else
      let d := if !f.und.isEmpty then d
        else
          let d := match d.ras.undNext with
            | some s => setFlds { d with ras := { d.ras with undNext := none } } [(undHstep, s.1), (undVstep, s.2)]
            | none => d
          let src := undChoose d n
          let fed := match src with | some i => if flag d stumpActive then some i else d.ras.undFed | none => d.ras.undFed
          latchBase { d with ras := { d.ras with undIfn := src, undFed := fed } } 0x12 n
      let row := match d.ras.undIfn with | some i => undRow d n i y | none => none
      let (w, _) := panelOf d n
      let d := setFld d undFilling row.isNone.toNat
      let words := row.getD (List.replicate w (fillWord d))
      let d := writeMem d (undAddr w y) (words.flatMap (le 4))
      let f := outFrame d n
      let d := setOut d { f with und := f.und.put 0 y (if row.isNone then 2 else 1) }
      let d := if row.isNone then countFill d n else d
      let d := match d.ras.undIfn with | some i => undFinish d n i y | none => d
      ringInc d 0x12 1

/-- A line is due and not yet produced. -/
def undReady (d : Dev) : Bool :=
  d.ras.running && decide (fld d prState < 2) && (match undDue d with | some (n, y) => (outFrame d n).und.get 0 y == 0 | none => false)

/-- UNDERSTORY_LINE_PRODUCE, with the words of its line buffers that fail their parity (R475). -/
def execUnderstoryLineProduce (parity : List Word) (s : State) : Out :=
  onDev s (fun d => if undReady d then parityErrs s.nv 195 (parity.map (·.toNat)) (undProduceOp d) else undProduceOp d)

end Sys2Proof.Machine
end

