-- ==== Sys2Proof/Machine/Canopy.lean ====
section
/-! DEFINITION. Canopy: layers, scaling, blending, flips and write-back (R317 to R340, R354, R359). -/

namespace Sys2Proof.Machine

/-! ## Layer state (R319 to R323) -/

/-- The state of a layer, from its five words. -/
structure LayerSt where
  en    : Bool
  fmt   : Nat
  amode : Nat
  z     : Nat
  group : Nat
  csc   : Nat
  range : Nat
  buf   : Nat
  sw    : Nat
  sh    : Nat
  dx    : Int
  dy    : Int
  dw    : Nat
  dh    : Nat
  la    : Nat
  deriving DecidableEq, Repr

def layerSt (ws : List Word) : LayerSt :=
  let w (i : Nat) : Nat := (ws.getD i 0).toNat
  { en := bits (w 0) 0 1 == 1, fmt := bits (w 0) 1 4, amode := bits (w 0) 5 1, z := bits (w 0) 6 3, group := bits (w 0) 9 3,
    csc := bits (w 0) 12 2, range := bits (w 0) 14 1, buf := bits (w 0) 15 2, sw := bits (w 1) 0 16, sh := bits (w 1) 16 16,
    dx := toS 16 (w 2), dy := toS 16 (w 2 / 65536), dw := bits (w 3) 0 16, dh := bits (w 3) 16 16, la := bits (w 4) 0 8 }

/-- The five SH words of a layer as they stand in its registers, and in force. -/
def layerShadow (d : Dev) (l : Nat) : List Word := (List.range 5).map (fun i => reg d (cnpBase l + 4 * i))
def layerLive (d : Dev) (l : Nat) : List Word := (List.range 5).map (fun i => d.live.get 0 (cnpBase l + 4 * i))
def setLayerLive (d : Dev) (l : Nat) (ws : List Word) : Dev :=
  (List.range 5).foldl (fun d i => setLive d (cnpBase l + 4 * i) (ws.getD i 0)) d

/-- R322: scaling limits. -/
def scaleFits (sw sh dw dh : Nat) : Bool :=
  decide (1 ≤ sw ∧ 1 ≤ sh ∧ 1 ≤ dw ∧ 1 ≤ dh) && decide (dw ≤ 8 * sw ∧ sw ≤ 4 * dw) && decide (dh ≤ 8 * sh ∧ sh ≤ 3 * dh) &&
  decide (sw ≤ 7680)

/-- Field values that are not reserved: format, GROUP and CSC (R117, R340). -/
def layerFieldsOk (s : LayerSt) : Bool := decide (s.fmt ≤ 4) && decide (s.group ≤ 4) && decide (s.csc ≤ 2)

/-- Offset of a layer's CANOPY record (R320). -/
def cnpRec (b : Bytes) (l : Nat) : Option Nat :=
  let o := gOff b 8
  if gHas b 8 then
    ((List.range (u8 b o)).map (fun i => o + 32 + 48 * i)).find? (fun r => u8 b r == l)
  else none

/-- The WB_TENSOR, WB_RING and FLAT_HOLD of the CANOPY section. -/
def cnpWbTensor (b : Bytes) : Nat := if gHas b 8 then u16 b (gOff b 8 + 2) else 0xFFFF
def cnpWbRing (b : Bytes) : Nat := if gHas b 8 then u16 b (gOff b 8 + 4) else 0
def cnpFlatHold (b : Bytes) : Nat := u8 b (gOff b 8 + 6)

/-- Tensor and frame slot that a layer reads; none for L0 of Stump service. -/
def layerTensor (d : Dev) (l : Nat) (s : LayerSt) : Option (Nat × Nat) :=
  if flag d stumpActive then none
  else if fld d (cnpOwner l) ≤ 3 then
    let t := fld d (cnpBufTensor l 0)
    some (t, (d.cnp.shown.get 0 l - 1) % max 1 (tSlots (img0 d) t))
  else some (fld d (cnpBufTensor l s.buf), 0)

/-! ## Source pixels (R321) -/

/-- Entry `k` of TABLES record `r` as a signed number. -/
def tableEntry (b : Bytes) (r k : Nat) : Int := toS 16 (u16 b (tableBody b r + 2 * k))

/-- Colour and alpha of a pixel word. -/
def wordPixel (fmt w : Nat) : List Nat :=
  let x8 (v : Nat) : Nat := v * 4 + v / 64
  match fmt with
  | 0 => [x8 (bits w 16 8), x8 (bits w 8 8), x8 (bits w 0 8), bits w 24 8]
  | 1 => [bits w 20 10, bits w 10 10, bits w 0 10, 85 * bits w 30 2]
  | _ => [bits w 20 10, bits w 10 10, bits w 0 10, 255]

/-- Three U10 colours from 12-bit YCbCr (R321). -/
def yuvPixel (s : LayerSt) (y cb cr : Nat) : List Nat :=
  let t := (ycc s.csc (s.range == 1) y cb cr).1
  let f (v : Nat) : Nat := min 1023 (rhe v 2).toNat
  [f t.1, f t.2.1, f t.2.2, 255]

/-- Line `y` of a layer's source: one [R, G, B, a] for each of SW pixels. -/
def sourceLine (d : Dev) (l : Nat) (s : LayerSt) (y : Nat) : List (List Nat) :=
  let b := img0 d
  match layerTensor d l s with
  | none =>
    let bs := readMem d (stumpL0 + y * 1920 * 4) (s.sw * 4)
    (List.range s.sw).map (fun x => wordPixel s.fmt (u32 bs (4 * x)))
  | some (t, f) =>
    if s.fmt = 2 then
      let h := tH b t
      let e10 (v : Int) : Nat := ext12 1 v.toNat
      let luma := (tensorRow d 0 b t f y 0).map e10
      let j := y / 2
      let nb := if y % 2 = 0 then j - 1 else min (j + 1) ((h - 1) / 2)
      let row (k c : Nat) : List Nat := (tensorRow d 0 b (t + 1) f k c).map e10
      let chroma (c : Nat) : List Nat :=
        let own := row j c
        let oth := row nb c
        let v (k : Nat) : Nat := chromaRow (own.getD k 0) (oth.getD k 0)
        (List.range s.sw).map (fun x => chromaCol (fun k => v (k / 2)) (tW b t) x)
      let cb := chroma 0
      let cr := chroma 1
      (List.range s.sw).map (fun x => yuvPixel s (luma.getD x 0) (cb.getD x 0) (cr.getD x 0))
    else if s.fmt = 4 then
      let pal := match cnpRec b l with | some r => u16 b (r + 12) | none => 0xFFFF
      (tensorRow d 0 b t f y 0).map (fun c => (List.range 4).map (fun i => (tableEntry b (pal + i) c.toNat).toNat))
    else
      let bs := vpeek d 0 (tAddr b t f y 0 0) (s.sw * 4)
      (List.range s.sw).map (fun x => wordPixel s.fmt (u32 bs (4 * x)))

/-- Some page that the line needs has not arrived or lies in a fenced bank group (R354). -/
def lineLate (d : Dev) (l : Nat) (s : LayerSt) (y : Nat) : Bool :=
  match layerTensor d l s with
  | none => fenced d 0x20
  | some (t, f) =>
    let b := img0 d
    let bad (t y : Nat) : Bool :=
      (partsOf (tAddr b t f y 0 0) (if tFmt b t = 0xF then 4 * s.sw else tC b t * cdiv (tW b t) 64 * runBytes (tFmt b t) (min (tW b t) 64))).any (fun part =>
        let p := pageAt d 0 part.1
        p.loc == 2 || (p.loc == 3 && p.move == 2) || (p.loc == 1 && fenced d (0x20 + p.lpn / 512)))
    bad t y || (s.fmt == 2 && bad (t + 1) (y / 2))

/-! ## Scaling (R323) -/

/-- Taps and weights of output index `o` on an axis of `s` source and `d` destination elements. -/
def scaleTaps (s d o : Nat) : List (Nat × Nat) :=
  let step := rheDiv (s * 65536 : Nat) d
  let h := max 16 (rhe step 12)
  let b := rhe ((2 * o + 1 : Nat) * step - 0x10000) 13
  let first := (b - h).fdiv 16
  (List.range ((2 * h / 16).toNat + 2)).filterMap (fun (j : Nat) =>
    let i := first + j
    let dist := ((16 * i - b).natAbs : Int)
    if dist < h then some ((clampI 0 ((s : Int) - 1) i).toNat, (h - dist).toNat) else none)

/-- Weighted mean of values at the taps. -/
def tapMean (v : Nat → Nat) (taps : List (Nat × Nat)) : Nat :=
  (rheDiv ((taps.map (fun t => t.2 * v t.1)).sum : Nat) (max 1 ((taps.map (·.2)).sum) : Nat)).toNat

/-- Source lines that output line `y` of the panel needs. -/
def neededLines (s : LayerSt) (y : Nat) : List Nat := (scaleTaps s.sh s.dh ((y : Int) - s.dy).toNat).map (·.1)

/-- The layer covers line `y`. -/
def coversLine (s : LayerSt) (y : Nat) : Bool := decide (s.dy ≤ y ∧ (y : Int) < s.dy + s.dh)

/-- The layer's scaled row at panel line `y`: one [R, G, B, a] for each panel pixel it covers, vertically then horizontally. -/
def scaledRow (src : Nat → List (List Nat)) (s : LayerSt) (y width : Nat) : List (Option (List Nat)) :=
  let taps := scaleTaps s.sh s.dh ((y : Int) - s.dy).toNat
  let lines := taps.map (fun t => (src t.1, t.2))
  let vert := (List.range s.sw).map (fun x => (List.range 4).map (fun c =>
    (rheDiv ((lines.map (fun e => e.2 * (e.1.getD x []).getD c 0)).sum : Nat) (max 1 ((lines.map (·.2)).sum) : Nat)).toNat))
  (List.range width).map (fun (x : Nat) =>
    if s.dx ≤ x ∧ (x : Int) < s.dx + s.dw then
      let t := scaleTaps s.sw s.dw ((x : Int) - s.dx).toNat
      some ((List.range 4).map (fun c => tapMean (fun i => (vert.getD i []).getD c 0) t))
    else none)

/-! ## Blending (R325) -/

/-- Coverage A and premultiplied colours P of a member at a pixel. -/
def memberCover (s : LayerSt) (px : List Nat) : Nat × List Nat :=
  let a := px.getD 3 0 * s.la
  (a, (List.range 3).map (fun c =>
    let v := px.getD c 0
    if s.amode = 0 then (rheDiv (v * a : Nat) 65025).toNat else (rheDiv (v * s.la : Nat) 255).toNat))

/-- min(1,023, v) and 1 when it changed v. -/
def cap10 (v : Nat) : Nat × Nat := (min 1023 v, if 1023 < v then 1 else 0)

/-- A member joins its group's (Q, P): new values and saturations. -/
def groupAdd (g : Nat × List Nat) (m : Nat × List Nat) : (Nat × List Nat) × Nat :=
  let keep := 65025 - m.1
  let ps := (List.range 3).map (fun c => cap10 (m.2.getD c 0 + (rheDiv (g.2.getD c 0 * keep : Nat) 65025).toNat))
  ((m.1 + (rheDiv (g.1 * keep : Nat) 65025).toNat, ps.map (·.1)), (ps.map (·.2)).sum)

/-- A group applied over the colours beneath. -/
def groupOver (g : Nat × List Nat) (dst : List Nat) : List Nat × Nat :=
  let ps := (List.range 3).map (fun c => cap10 (g.2.getD c 0 + (rheDiv (dst.getD c 0 * (65025 - g.1) : Nat) 65025).toNat))
  (ps.map (·.1), (ps.map (·.2)).sum)

/-- What a group's members at a pixel, (state, pixel) each, accumulate: (Qg, Pg) and saturations. -/
def groupCover (g : List (LayerSt × List Nat)) : (Nat × List Nat) × Nat :=
  g.foldl (fun a m => let r := groupAdd a.1 (memberCover m.1 m.2); (r.1, a.2 + r.2)) ((0, [0, 0, 0]), 0)

/-- Groups applied one over the other: the colours and the saturations. -/
def blendCovers (qs : List ((Nat × List Nat) × Nat)) (dst : List Nat) : List Nat × Nat :=
  qs.foldl (fun acc q => let o := groupOver q.1 acc.1; (o.1, acc.2 + q.2 + o.2)) (dst, 0)

/-- One pixel through a list of groups, each a list of (state, pixel) members. -/
def blendPixel (groups : List (List (LayerSt × List Nat))) (dst : List Nat) : List Nat × Nat :=
  blendCovers ((groups.filter (fun g => !g.isEmpty)).map groupCover) dst

/-- Enabled layers split into blend groups, in ascending Z (R317, R326). -/
def splitGroups (l : List (Nat × LayerSt)) : List (List (Nat × LayerSt)) :=
  let byZ := (List.range 8).flatMap (fun z => l.filter (fun e => e.2.z == z))
  byZ.foldl (fun acc e =>
    match acc.getLast? with
    | some (m :: ms) => if e.2.group ≠ 0 && m.2.group = e.2.group then acc.dropLast ++ [(m :: ms) ++ [e]] else acc ++ [[e]]
    | _ => acc ++ [[e]]) []

/-! ## The picture plane (R50, R51) -/

/-- The output frame buffer that frame `n` is written to: its space, tensor and frame slot, that of its writer's frame (R227). Frames
before K belong to the outgoing Graft (R291). -/
def frameBuffer (d : Dev) (n : Nat) : Option (Nat × Nat × Nat) :=
  let sp := if hasGraft d && !later (kOfGraft d) n then 0
            else if d.root.space1.isSome && fld d graftSpace1 = 5 then 1
            -- released: a buffer that carried over lives on, any other one is freed (R292, R294)
            else if d.root.fbKept then 0 else 1
  let b := if sp = 1 && fld d graftSpace1 ≠ 5 then [] else imgSp d sp
  (boundTensor b 3).map (fun t => (sp, t, (outFrame d n).src % max 1 (tSlots b t)))

/-- The tile's rectangle lies wholly inside the run-time output extent (R236). -/
def tileInside (f : OutFrame) (w h k c : Nat) : Bool :=
  match f.ext with
  | none => true
  | some (ew, eh) => decide (min w (512 * c + 512) ≤ ew ∧ min h (8 * k + 8) ≤ eh)

/-- Deadline tile columns of a panel width (R37). -/
def tileCols (w : Nat) : Nat := cdiv w 512

/-- `n` picture words from a line's bytes (R7, R119). -/
def words32 (bs : Bytes) (n : Nat) : List Nat := (List.range n).map (fun x => u32 bs (4 * x))

/-- Picture plane of line `y` of frame `n`, with tags (R51): the frame buffer, the understory ring, which holds each word with its tag,
or the fill colour where the Understory produced no line. -/
def pictureLine (d : Dev) (n y : Nat) : List Nat :=
  let f := outFrame d n
  let (w, h) := panelOf d n
  let k := y / 8
  let und := f.und.get 0 y
  let uw := if fenced d 0x40 || und = 0 then [] else words32 (readMem d (undAddr w y) (4 * w)) w
  let fb := match frameBuffer d n with
    | some (sp, t, s) => words32 (vpeek d sp (tAddr (imgSp d sp) t s y 0 0) (4 * w)) w
    | none => []
  let under (c : Nat) : Bool := f.writer == 15 || f.writer == 16 || f.judged.get 0 k == 3 ||
    f.subs.get 0 (k * tileCols w + c) != 0 || !tileInside f w h k c
  let tag := if f.judged.get 0 k = 2 then 0 else 1
  (List.range w).map (fun x =>
    if under (x / 512) then
      (uw[x]?).getD (fillWord d)
    else fb.getD x 0 % 2 ^ 30 + tag * 2 ^ 30)

/-- Some pixel of the line comes from the Understory. -/
def showsUnder (l : List Nat) : Bool := l.any (fun v => v / 2 ^ 30 == 3)

/-! ## Composition (R317, R318) -/

/-- The enabled layers with the snapshot of a flip group put in. -/
def stackWith (d : Dev) (snap : List (Nat × List Word)) : List (Nat × LayerSt) :=
  (List.range 8).filterMap (fun l =>
    let ws := match snap.find? (fun e => e.1 == l) with | some e => e.2 | none => layerLive d l
    let s := layerSt ws
    if s.en && fld d (cnpOwner l) ≠ 7 then some (l, s) else none)

/-- Layers that take part in the frame. -/
def activeLayers (d : Dev) : List (Nat × LayerSt) := (stackWith d []).filter (fun e => !d.cnp.off.testBit e.1)

/-! ## The flatten cache (R327, R328) -/

/-- Enabled members of a blend group, in ascending Z. -/
def groupMembers (d : Dev) (g : Nat) : List (Nat × LayerSt) :=
  (List.range 8).flatMap (fun z => (stackWith d []).filter (fun e => e.2.group == g && e.2.z == z))

/-- Bounding rectangle of the members' destinations: left, top, width, height. -/
def groupRect (d : Dev) (g : Nat) : Int × Int × Nat × Nat :=
  match (groupMembers d g).map (·.2) with
  | [] => (0, 0, 0, 0)
  | m :: rest =>
    let x0 := rest.foldl (fun a s => min a s.dx) m.dx
    let y0 := rest.foldl (fun a s => min a s.dy) m.dy
    let x1 := rest.foldl (fun a s => max a (s.dx + (s.dw : Int))) (m.dx + (m.dw : Int))
    let y1 := rest.foldl (fun a s => max a (s.dy + (s.dh : Int))) (m.dy + (m.dh : Int))
    (x0, y0, (x1 - x0).toNat, (y1 - y0).toNat)

/-- Address of a cache in the flatten area, which is the reserve: its first or its second half (R442; DESIGN CHOICE, log entry 100). -/
def flatAddr (d : Dev) (g : Nat) : Nat :=
  lp6Base + lp6Capacity d / 8 * 7 + (if d.cnp.flat.get 0 g = 2 then lp6Capacity d / 16 else 0)

/-- Canopy composes the group from its cache in this frame. -/
def cacheUsed (d : Dev) (g : Nat) : Bool :=
  g != 0 && flag d (cacheValid g) && (groupMembers d g).all (fun e => flag d (cnpCached e.1))

/-- A page of a shared bank group is free for the cache line that Canopy stages (R328; DESIGN CHOICE, log entry 100). -/
def cacheStaged (d : Dev) : Bool :=
  (List.range 16).any (fun q => (gShared (img0 d)).testBit q && !fenced d (0x20 + q) && groupFree d q != 0)

/-- Line `y` of the group is read from its cache. -/
def lineCached (d : Dev) (g : Nat) : Bool := cacheUsed d g && cacheStaged d

/-- Groups whose cache line for `y` is not there when Canopy reads it. -/
def cacheMisses (d : Dev) (y : Nat) : Nat :=
  if cacheStaged d then 0
  else ((List.range 4).filter (fun i =>
    let r := groupRect d (i + 1)
    cacheUsed d (i + 1) && decide (r.2.1 ≤ y ∧ (y : Int) < r.2.1 + r.2.2.2))).length

/-- Writer of a frame, for a frame not judged yet (R41): frames from K on follow the Graft in force, frames before K the
outgoing one. -/
def writerNow (d : Dev) (n : Nat) : Nat :=
  let f := outFrame d n
  if f.writer ≠ 16 then f.writer
  else
    let k := fld d graftApplyOfn
    if fld d graftSpace1 = 5 && later k n then
      match d.root.space1 with
      | some g => if later g.k n then 15 else bits (cadEntry g.img (sub32 n g.k % max 1 (gCadLen g.img))) 0 4
      | none => 15
    else cadWriter d n

/-- The frame is the last that the outgoing Graft writes, released or not. -/
def writtenByOutgoing (d : Dev) (n : Nat) : Bool := decide (d.root.outAge < 2) && later (fld d graftApplyOfn) n

/-- Stem bound to the writer pipeline of a frame (R361). -/
def outputStem (d : Dev) (n : Nat) : Option Nat :=
  let w := writerNow d n
  if w ≤ 3 then
    if writtenByOutgoing d n then some (pStem (img1 d) w) else if hasGraft d then some (pStem (img0 d) w) else none
  else none

/-- Who reads a layer: Canopy, for the pipeline of the buffer's tensor. -/
def cnpWho (d : Dev) (n t : Nat) : Who := { sp := 0, pipe := tPipe (img0 d) t, pfn := n, unit := 0x3A, task := 8192, host := false }

/-- Trunk runs that hold line `y` of a layer's source. -/
def lineBytes (d : Dev) (l : Nat) (s : LayerSt) (y : Nat) : List (Nat × Nat × Nat) :=
  match layerTensor d l s with
  | none => []
  | some (t, f) =>
    let b := img0 d
    let of (t y : Nat) : Nat × Nat × Nat :=
      (t, tAddr b t f y 0 0, if tFmt b t = 0xF then 4 * s.sw else tC b t * cdiv (tW b t) 64 * runBytes (tFmt b t) (min (tW b t) 64))
    of t y :: (if s.fmt = 2 then [of (t + 1) (y / 2)] else [])

/-- Lines that the vertical pass needs for line `y` and did not need for the line before. -/
def newLines (s : LayerSt) (y : Nat) : List Nat :=
  let had := if 0 < y && coversLine s (y - 1) then neededLines s (y - 1) else []
  (neededLines s y).eraseDups.filter (fun k => !had.contains k)

/-- Canopy reads a layer's new lines for line `y` from the Trunk, and asks for the pages of those for line `y + 1` (R71, R78, R81; the
instant at which it asks is a DESIGN CHOICE, log entry 84). -/
def readLayer (n y l : Nat) (s : LayerSt) (d : Dev) : Dev :=
  let d := if coversLine s y then
      ((newLines s y).flatMap (lineBytes d l s)).foldl (fun d r => (vread d (cnpWho d n r.1) r.2.1 r.2.2).1) d
    else d
  if coversLine s (y + 1) then
    ((newLines s (y + 1)).flatMap (lineBytes d l s)).foldl (fun d r =>
      (partsOf r.2.1 r.2.2).foldl (fun d part => wantPage d (cnpWho d n r.1) part.1) d) d
  else d

/-- A layer whose lines did not arrive is switched off for the rest of the frame, and reads no more (R354). -/
def checkUnderrun (n y : Nat) (d : Dev) : Dev :=
  let stem := outputStem d n
  (activeLayers d).foldl (fun d e =>
    let (l, s) := e
    let cached := lineCached d s.group
    let late := !cached && coversLine s y && (neededLines s y).any (lineLate d l s)
    let d := if cached then d else readLayer n y l s d
    if late then
      let d := { d with cnp := { d.cnp with off := setBit d.cnp.off l true } }
      let d := setFlds (bump d aUnderrun 1) [(underrunLayer, l), (underrunLine, y)]
      raiseStem d stem 0x0104 0x3A 2 (l + y * 65536)
    else d) d

/-- The Bark layer's source line: a buffer of the Root region, words or P8 codes with the palettes after the image (R334, R335). -/
def barkAddr (buf : Nat) : Nat := lpnAddr (48 + 8 * buf) 0
def barkLine (d : Dev) (s : LayerSt) (y : Nat) : List (List Nat) :=
  if s.fmt = 4 then
    let bs := readMem d (barkAddr s.buf + y * s.sw) s.sw
    let pal := barkAddr s.buf + s.sw * s.sh
    (List.range s.sw).map (fun x => (List.range 4).map (fun c =>
      (toS 16 (u16 (readMem d (pal + 512 * c + 2 * u8 bs x) 2) 0)).toNat))
  else
    let bs := readMem d (barkAddr s.buf + y * s.sw * 4) (s.sw * 4)
    (List.range s.sw).map (fun x => wordPixel 0 (u32 bs (4 * x)))

def wordColours (w : Nat) : List Nat := [bits w 20 10, bits w 10 10, bits w 0 10]
def colourWord (tag : Nat) (c : List Nat) : Nat := c.getD 2 0 + c.getD 1 0 * 2 ^ 10 + c.getD 0 0 * 2 ^ 20 + tag * 2 ^ 30

/-- (Qg, Pg) of a group at each panel pixel of line `y` that a member covers, and saturations; `ms` are its members that take part. -/
def groupRow (d : Dev) (ms : List (Nat × LayerSt)) (y width : Nat) : List (Option ((Nat × List Nat) × Nat)) :=
  let rows := ms.filterMap (fun e => if coversLine e.2 y then some (e.2, scaledRow (sourceLine d e.1 e.2) e.2 y width) else none)
  (List.range width).map (fun x =>
    let here := rows.filterMap (fun m => match m.2.getD x none with | some p => some (m.1, p) | none => none)
    if here.isEmpty then none else some (groupCover here))

/-- The words of line `y` of a group's cache, at each panel pixel of the rectangle: Pg in bits 29:0, Qg in bits 47:32. -/
def cacheRow (d : Dev) (g y width : Nat) : List (Option ((Nat × List Nat) × Nat)) :=
  let (x0, y0, w, h) := groupRect d g
  let j := ((y : Int) - y0).toNat
  let line := if y0 ≤ y ∧ (y : Int) < y0 + h then readMem d (flatAddr d g + 8 * w * j) (8 * w) else []
  (List.range width).map (fun (x : Nat) =>
    let i := ((x : Int) - x0).toNat
    if x0 ≤ x ∧ i < w ∧ !line.isEmpty then some ((u16 line (8 * i + 4), wordColours (u32 line (8 * i))), 0) else none)

/-- The cache's words are written: (Pg, Qg) of each pixel of the rectangle, 0 where no member covers it. Pixels that lie off the panel
never show, and stand as 0. -/
def buildCache (g width height : Nat) (d : Dev) : Dev :=
  let (x0, y0, w, h) := groupRect d g
  (List.range h).foldl (fun e (j : Nat) =>
    let y := y0 + (j : Int)
    let row := if 0 ≤ y ∧ y < height then groupRow d (groupMembers d g) y.toNat width else []
    writeMem e (flatAddr d g + 8 * w * j) ((List.range w).flatMap (fun (i : Nat) =>
      let x := x0 + (i : Int)
      match if 0 ≤ x then row.getD x.toNat none else none with
      | some q => le 4 (colourWord 0 q.1.2) ++ le 4 q.1.1
      | none => le 8 0))) d

/-- The three taps of a composed line: picture plane, after L0 to L7, after the Bark layer; and blend saturations. -/
def composeLine (d : Dev) (n y : Nat) : List Nat × List Nat × List Nat × Nat :=
  let (w, _) := panelOf d n
  let pic := pictureLine d n y
  let groups := (splitGroups (activeLayers d)).map (fun g =>
    let n := match g.head? with | some e => e.2.group | none => 0
    if lineCached d n then cacheRow d n y w else groupRow d g y w)
  let bs := layerSt d.cnp.bark
  let bark := if bs.en && coversLine bs y then some (scaledRow (barkLine d bs) bs y w) else none
  let px := (List.range w).map (fun x =>
    let v := pic.getD x 0
    let r := blendCovers (groups.filterMap (fun g => g.getD x none)) (wordColours v)
    let q := match bark with
      | some row => (match row.getD x none with | some p => blendPixel [[(bs, p)]] r.1 | none => (r.1, 0))
      | none => (r.1, 0)
    (colourWord (v / 2 ^ 30) r.1, colourWord (v / 2 ^ 30) q.1, r.2 + q.2))
  (pic, px.map (·.1), px.map (·.2.1), (px.map (·.2.2)).sum)

/-- Check rectangle `i` in force over line `y`: pixel range of the line (R359). -/
def chkRange (d : Dev) (n i y : Nat) : Option (Nat × Nat) :=
  let g (x : Fld) : Nat := fget x (dsoWord d n x.addr)
  let (w, h) := panelOf d n
  if g (chkEn i) = 1 ∧ g (chkY i) ≤ y ∧ y < min h (g (chkY i) + g (chkH i)) ∧ g (chkX i) < min w (g (chkX i) + g (chkW i))
  then some (g (chkX i), min w (g (chkX i) + g (chkW i))) else none

/-- The CRC registers of the check rectangles take a composed line. -/
def checkLine (n y : Nat) (line : List Nat) (d : Dev) : Dev :=
  (List.range 16).foldl (fun d i =>
    let d := if y = 0 then { d with ras := { d.ras with crc := d.ras.crc.put 0xFFFFFFFF i 0xFFFFFFFF } } else d
    match chkRange d n i y with
    | none => d
    | some (a, z) =>
      let c := ((line.drop a).take (z - a)).foldl (fun c v => (le 4 (v % 2 ^ 30)).foldl (fun c b => crc32Byte c b.toNat) c) (d.ras.crc.get 0xFFFFFFFF i)
      { d with ras := { d.ras with crc := d.ras.crc.put 0xFFFFFFFF i c } }) d

/-- Bytes of a write-back line (R338): RGB101010 with tags, or RGBA8888. -/
def wbBytes (fmt : Nat) (line : List Nat) : Bytes :=
  line.flatMap (fun v =>
    if fmt = 0 then le 4 v
    else
      let f (x : Nat) : Nat := min 255 (rhe x 2).toNat
      le 4 (f (bits v 0 10) + f (bits v 10 10) * 2 ^ 8 + f (bits v 20 10) * 2 ^ 16 + 255 * 2 ^ 24))

/-- The write-back frame ends: WB_RING adds 1 unless it is withheld, a WB_STOP completes, the count of frames falls (R338,
R339). -/
def wbFrameEnd (d : Dev) : Dev :=
  match d.cnp.wbFrame with
  | none => d
  | some n =>
    let d := if d.cnp.wbHeld then d
      else
        let r := cnpWbRing (img0 d)
        setFld (if r = 0 then d else ringInc d r 1) wbOfn n
    let d := if d.cnp.wbDrop = 0 then d else raise d 0x0122 0x3A 2 (min d.cnp.wbDrop 65535)
    let left := d.cnp.wbLeft.map (· - 1)
    let stop := d.cnp.wbStop
    let d := { d with cnp := { d.cnp with wbFrame := none, wbHeld := false, wbDrop := 0, wbDone := 0, wbLeft := left, wbStop := [] } }
    let d := stop.foldl (fun d t => complete d t stOk []) d
    if !stop.isEmpty || left = some 0 then setFld d wbActive 0 else d

/-- One line of the frame being written back goes to the queue of 16, or is dropped (R338). -/
def wbLine (n y : Nat) (bytes : Bytes) (d : Dev) : Dev :=
  if !flag d wbActive then d
  else
    -- a frame begins with its line 0
    let d := if y ≠ 0 then d
      else
        let held := flag d (hdcpProt 0)
        let d := { d with cnp := { d.cnp with wbFrame := some n, wbHeld := held, wbDrop := 0, wbDone := 0 } }
        if held then raise (bump d aWbProt 1) 0x0702 0x3A 0 n else d
    if d.cnp.wbFrame ≠ some n then d
    else
      let last := decide (y + 1 = (panelOf d n).2)
      if d.cnp.wbHeld then (if last then wbFrameEnd d else d)
      else if d.cnp.wbQ.length < 16 then
        { d with cnp := { d.cnp with wbQ := d.cnp.wbQ ++ [{ ofn := n, line := y, bytes }] } }
      else
        let d := bump { d with cnp := { d.cnp with wbDrop := d.cnp.wbDrop + 1, wbDone := d.cnp.wbDone + 1 } } aWbDrop 1
        if d.cnp.wbDone = (panelOf d n).2 then wbFrameEnd d else d

/-- WRITEBACK_LINE_WRITTEN: the Trunk takes the oldest queued line. -/
def wbWrittenOp (d : Dev) : Dev :=
  match d.cnp.wbQ with
  | [] => d
  | l :: rest =>
    let d := { d with cnp := { d.cnp with wbQ := rest } }
    let t := cnpWbTensor (img0 d)
    let b := img0 d
    let d := if hasGraft d && decide (t < nTensors b) && !d.cnp.wbHeld then
        if tH b t ≤ l.line then d
        else (vwrite d (hwWho d t) (tAddr b t (l.ofn % max 1 (tSlots b t)) l.line 0 0) (l.bytes.take (4 * tW b t))).1
      else d
    if d.cnp.wbFrame = some l.ofn then
      let d := { d with cnp := { d.cnp with wbDone := d.cnp.wbDone + 1 } }
      if d.cnp.wbDone = (panelOf d l.ofn).2 then wbFrameEnd d else d
    else d

def execWritebackLineWritten (s : State) : Out := onDev s wbWrittenOp

/-- The line whose composition falls in the present LP: the one scanned in the next LP (R43). Line 0 of a frame that no LP came before,
as the raster starts, is composed at position 0 (DESIGN CHOICE, log entry 75). -/
def composeDue (d : Dev) : Option (Nat × Nat) :=
  let n := ofn d
  if n = 0 && d.ras.readOfn = n && d.ras.read = 0 && pos d = 0 then some (n, 0)
  else if d.ras.readOfn = n && decide (d.ras.read ≤ pos d + 1 ∧ pos d + 1 < vactive d) then some (n, pos d + 1)
  else if d.ras.readOfn = add32 n 1 && d.ras.read = 0 && d.ras.vtotal = pos d + 1 then some (add32 n 1, 0)
  else none

/-- A port in use under a mode (R346). -/
def portUsed (mode p : Nat) : Bool := mode == 2 || (mode == 1 && p == 0)

/-- Colour values that a port sends of a composed line: its half in split mode, without the tags, at 8 or 10 bits (R346, R349, R51).
Nothing without a trained link, after a change of mode, in a replay frame and from a fenced port (R351, R355). -/
def portLine (d : Dev) (p : Nat) (line : List Nat) : List Nat :=
  let ha := inForce d dsoHactive
  if !portUsed (inForce d dsoMode) p || !flag d (linkUp p) || d.ras.mute ≠ 0 || fenced d (0x3B + p) || isReplay d (ofn d) then []
  else ((line.drop (if dsoSplit d then ha * p else 0)).take ha).flatMap (fun v =>
    (wordColours v).map (fun (c : Nat) => if inForce d dsoBpc = 1 then min 255 (rhe c 2).toNat else c))

/-- The ports send the line at the scan position, when it is the line composed last. -/
def sendLine (d : Dev) : Dev :=
  let y := pos d
  let ready := (d.ras.readOfn == ofn d && d.ras.read == y + 1) ||
    (d.ras.readOfn == add32 (ofn d) 1 && d.ras.read == 0 && y + 1 == vactive d)
  let l (p : Nat) : List Nat := if ready then portLine d p d.ras.line else []
  if vactive d ≤ y then d
  else if ready || d.ras.read ≤ y then { d with ras := { d.ras with sent := (d.ras.sent.put [] 0 (l 0)).put [] 1 (l 1) } } else d

/-- CANOPY_LINE_COMPOSE: the next line is read and composed, once its tile row is judged; a replay frame is not composed. -/
def composeOp (d : Dev) : Dev :=
  if !d.ras.running then d
  else match composeDue d with
  | none => d
  | some (n, y) =>
    let f := outFrame d n
    if isReplay d n || (f.judged.get 0 (y / 8) = 0) then d
    else
      let d := if y = 0 then
          (List.range 8).foldl (fun d l =>
            let s := layerSt (layerLive d l)
            setFld d (cnpCached l) (s.en && s.group != 0 && flag d (cacheValid s.group)).toNat)
            { d with cnp := { d.cnp with off := 0 } }
        else d
      let next : Nat × Nat := if y + 1 = (panelOf d n).2 then (add32 n 1, 0) else (n, y + 1)
      let d := { d with ras := { d.ras with readOfn := next.1, read := next.2 } }
      if fenced d 0x3A then
        let zero := List.replicate (panelOf d n).1 0
        sendLine (checkLine n y zero { d with ras := { d.ras with line := zero } })
      else
        let d := checkUnderrun n y (bump d aCacheMiss (cacheMisses d y))
        let (pic, mid, top, sat) := composeLine d n y
        -- a line shown as fill counts here, unless it counted as it was produced: a line counts once (DESIGN CHOICE, log entry 76)
        let und := (outFrame d n).und.get 0 y
        let d := if showsUnder pic && (und = 0 || (und = 1 && fenced d 0x40)) then countFill d n else d
        let f := outFrame d n
        let d := if sat = 0 then d else bump (setOut d { f with sat := f.sat + sat }) aBlendSat sat
        let d := sendLine (checkLine n y top { d with ras := { d.ras with line := top } })
        let tap := match fld d wbPoint with | 0 => pic | 1 => mid | _ => top
        wbLine n y (wbBytes (fld d wbFmt) tap) d

/-- CANOPY_LINE_COMPOSE, with the Trunk words that its reads find in error (R87) and the words of its line buffers that fail their parity
(R475). -/
def composeRead (nv : NonVol) (errs : List MemErr) (d : Dev) : Dev :=
  if (composeDue d).isNone then d else bufferErrs nv 194 errs (trunkErrs nv errs (composeOp (plantTrunk errs d)))

def execCanopyLineCompose (errs : List MemErr) (s : State) : Out := onDev s (composeRead s.nv errs)

/-! ## Flips (R329 to R332, R314, R336) -/

def flipCounts (d : Dev) : Dev :=
  let d := setFld d flipPending d.cnp.groups.length
  (List.range 8).foldl (fun d l => setFld d (cnpStatePend l) (d.cnp.groups.filter (fun g => g.mask.testBit l)).length) d

/-- A flip of a layer invalidates its group's cache and restarts its FLAT_HOLD count (R327, R328). -/
def touchGroup (g : Nat) (d : Dev) : Dev :=
  if g = 0 then d
  else
    let d := setFlds { d with cnp := { d.cnp with still := d.cnp.still.put 0 g 0 } } [(cacheValid g, 0)]
    if flag d (cacheBuilding g) then progFail (setFld d (cacheBuilding g) 0) 7 else d

/-- The flip time-stamp of an owner (R362). -/
def stampFlip (o n : Nat) (d : Dev) : Dev :=
  let t := d.devTime.toNat
  setFlds d [(flipTsLo o, t % 2 ^ 32), (flipTsHi o, t / 2 ^ 32), (flipOfn o, n)]

/-- A layer takes a state for frame `n`: Ring 0x0100 + L adds 1. -/
def flipLayer (n l : Nat) (ws : List Word) (d : Dev) : Dev :=
  let old := layerSt (layerLive d l)
  let new := layerSt ws
  let d := touchGroup new.group (touchGroup old.group d)
  let d := setLayerLive d l ws
  let d := setFlds d [(cnpStateBuf l, new.buf), (cnpStateEn l, new.en.toNat)]
  stampFlip (fld d (cnpOwner l)) n (ringInc d (0x100 + l) 1)

/-- R326: no two enabled layers share a Z; a group's members stand next to one another. -/
def stackOk (l : List (Nat × LayerSt)) : Bool :=
  let zs := l.map (·.2.z)
  (List.range 8).all (fun z => decide ((zs.filter (· == z)).length ≤ 1)) &&
  (List.range 4).all (fun i =>
    decide (((splitGroups l).filter (fun g => g.any (fun e => e.2.group == i + 1))).length ≤ 1))

/-- One pending group at the flip instant of frame `n`: committed, refused, dropped or kept. `held` are the layers of groups
that stay pending before it. -/
def tryGroup (n : Nat) (g : FlipGroup) (d : Dev) (held : Nat) : Dev × Nat :=
  let leave (d : Dev) : Dev := flipCounts { d with cnp := { d.cnp with groups := d.cnp.groups.filter (fun x => x.tag != g.tag) } }
  let fence := g.ring = 0 || waitGe (ringVal d g.ring) g.value
  if fence && (g.mask &&& held) = 0 then
    if stackOk (stackWith d g.snap) then
      let d := g.snap.foldl (fun d e => flipLayer n e.1 e.2 d) (leave d)
      (complete (raise d 0x0120 0x3A 0 g.mask) g.tag stOk [], held)
    else (complete (raise (leave d) 0x0121 0x3A 0 (stBadArg + g.mask * 256)) g.tag stBadArg [], held)
  else
    let g' := { g with tries := g.tries + 1 }
    ({ d with cnp := { d.cnp with groups := d.cnp.groups.map (fun x => if x.tag == g.tag then g' else x) } }, held ||| g.mask)

/-- FLIP_GROUP_TIMEOUT: a group still pending after TIMEOUT flip instants is dropped. -/
def flipTimeoutOp (tag : Option (BitVec 16)) (d : Dev) : Dev :=
  let due (g : FlipGroup) : Bool := g.timeout != 0 && decide (g.timeout ≤ g.tries) &&
    match tag with | some t => g.tag == tagKey d t | none => g.tag / 65536 != d.usb.gen
  match d.cnp.groups.find? due with
  | some g => dropFlips stTimeout (fun x => x.tag == g.tag) d
  | none => d

def execFlipGroupTimeout (tag : Option (BitVec 16)) (s : State) : Out := onDev s (flipTimeoutOp tag)

/-- Latest frame of a pipeline whose READY_RING has reached B(f) + TOTAL (R332). -/
def readyFrame (d : Dev) (b : Bytes) (r : Nat) : Option Nat :=
  match ringDecl b r with
  | none => none
  | some e => ((d.ring.fbase.get [] r).find? (fun x => waitGe (ringVal d r) (add32 x.2 e.total))).map (·.1)

/-- A pipeline-owned layer at a flip instant: the latest ready frame is shown. -/
def pipeLayer (n l : Nat) (d : Dev) : Dev :=
  let b := img0 d
  match cnpRec b l with
  | none => d
  | some r =>
    match readyFrame d b (u16 b (r + 10)) with
    | none => d
    | some f =>
      let was := d.cnp.shown.get 0 l
      if was = 0 || later f (was - 1) then
        let d := { d with cnp := { d.cnp with shown := d.cnp.shown.put 0 l (f + 1), chosen := d.cnp.chosen.put 0 l (f + 1) } }
        raise (flipLayer n l (layerLive d l) d) 0x0120 0x3A 0 (2 ^ l)
      else d

/-- The Bark layer flips (R336). -/
def barkFlip (n : Nat) (d : Dev) : Dev :=
  match d.cnp.barkPend with
  | none => d
  | some p =>
    let s := layerSt p.regs
    let d := { d with cnp := { d.cnp with bark := p.regs, barkPend := none } }
    let d := setFlds d [(barkEn, s.en.toNat), (barkBuf, s.buf), (barkFmt, s.fmt), (barkSeq, p.seq)]
    let d := stampFlip 6 n (ringInc d 0x108 1)
    let d := raise (raise d 0x0120 0x3A 0 0x100) 0x0703 0x3A 0 (p.op + p.seq % 2 ^ 24 * 256)
    complete d p.tag stOk []

/-- The UI frame that awaits a flip (R314). -/
def uiFlip (n : Nat) (d : Dev) : Dev :=
  match d.cnp.uiPend, uiLayer d with
  | some (b, _), some l =>
    let ws := layerLive d l
    let ctl := fput ⟨0, 15, 2⟩ (ws.getD 0 0) b
    let d := { d with cnp := { d.cnp with uiPend := none } }
    raise (flipLayer n l (ctl :: ws.drop 1) d) 0x0120 0x3A 0 (2 ^ l)
  | _, _ => d

/-- The layers that the Graft in force declares take their state (R320, R331); without a Graft none is declared. Groups that
name a layer whose owner changes are dropped with BUSY. Stump service ends with the flip instant of frame K of an apply (R498). -/
def declareLayers (d : Dev) : Dev :=
  let b := img0 d
  let owner (l : Nat) : Nat := match cnpRec b l with | some r => u8 b (r + 1) | none => 7
  let moved := ((List.range 8).filter (fun l => fld d (cnpOwner l) != owner l)).map (2 ^ ·)
  let d := dropFlips stBusy (fun g => (g.mask &&& moved.sum) != 0) d
  let d := clearLayers { d with cnp := { d.cnp with still := [], shown := [], chosen := [], uiPend := none, uiBuf := 0 } }
  let d := setReg d 0x160424 0
  let d := (List.range 8).foldl (fun d l =>
    match cnpRec b l with
    | none => d
    | some r =>
      let ws := (List.range 4).map (fun i => BitVec.ofNat 32 (u32 b (r + 16 + 4 * i))) ++ [BitVec.ofNat 32 (u8 b (r + 32))]
      let s := layerSt ws
      let d := (List.range 5).foldl (fun d i => setReg d (cnpBase l + 4 * i) (ws.getD i 0)) (setLayerLive d l ws)
      let d := setFlds d [(cnpOwner l, owner l), (cnpStateEn l, s.en.toNat), (cnpStateBuf l, s.buf)]
      let nbuf := if owner l ≤ 3 then 1 else u8 b (r + 2)
      (List.range nbuf).foldl (fun d i =>
        let t := u16 b (r + 4 + 2 * i)
        setFlds d [(cnpBufTensor l i, t), (cnpBufValid l i, 1), (cnpBufPinned l i, if tClass b t = 0 then 1 else 0)]) d) d
  let d := flipCounts d
  if hasGraft d && flag d stumpActive then setFld (stumpPages false { d with trk := { d.trk with lines := if (ringTensor d 0).isNone then d.trk.lines.put LineRing.none 0 LineRing.none else d.trk.lines } }) stumpActive 0
  else d

/-- The flip instant of frame `n` (R330, R332, R314, R336). -/
def flipInstant (n : Nat) (d : Dev) : Dev :=
  let d := match d.root.flipK with
    | some k => if k = n then declareLayers { d with root := { d.root with flipK := none } } else d
    | none => d
  -- frames since each group's last flip (R327)
  let d := (List.range 4).foldl (fun d i => { d with cnp := { d.cnp with still := d.cnp.still.put 0 (i + 1) (min 255 (d.cnp.still.get 0 (i + 1) + 1)) } }) d
  let r := d.cnp.groups.foldl (fun acc g => tryGroup n g acc.1 acc.2) (d, 0)
  let d := (List.range 8).foldl (fun d l => if fld d (cnpOwner l) ≤ 3 then pipeLayer n l d else d) r.1
  barkFlip n (uiFlip n d)

/-! ## The flatten cache is built (R327, R328) -/

/-- FLATTEN_BUILD_START: a static group builds its cache; at most two groups hold one, the lower numbers first. -/
def flattenStartOp (g : Nat) (d : Dev) : Dev :=
  let held := ((List.range 4).filter (fun i => flag d (cacheValid (i + 1)) || flag d (cacheBuilding (i + 1)))).length
  let lower := (List.range (g - 1)).any (fun i => !(groupMembers d (i + 1)).isEmpty &&
    !flag d (cacheValid (i + 1)) && !flag d (cacheBuilding (i + 1)) && cnpFlatHold (img0 d) ≤ d.cnp.still.get 0 (i + 1))
  if 1 ≤ g && hasGraft d && !fenced d 0x3A && !d.trk.noCache && flag d lp6Avail && fld d lp6Inservice = 255 &&
      !(groupMembers d g).isEmpty && cnpFlatHold (img0 d) ≤ d.cnp.still.get 0 g &&
      !flag d (cacheValid g) && !flag d (cacheBuilding g) && held < 2 && !lower then
    let slot := if (List.range 4).any (fun i => i + 1 != g && (flag d (cacheValid (i + 1)) || flag d (cacheBuilding (i + 1))) &&
      d.cnp.flat.get 0 (i + 1) == 1) then 2 else 1
    progStart (setFld { d with cnp := { d.cnp with flat := d.cnp.flat.put 0 g slot } } (cacheBuilding g) 1) 7 g (groupRect d g).2.2.2
  else d

def execFlattenBuildStart (group : Fin 5) (s : State) : Out := onDev s (flattenStartOp group.val)

/-- FLATTEN_BUILT: the cache holds the group's words, and is used from the next frame whose line 0 is read. -/
def flattenBuiltOp (g : Nat) (d : Dev) : Dev :=
  if 1 ≤ g && flag d (cacheBuilding g) then
    let (w, h) := panelOf d (ofn d)
    raise (progDone (setFlds (buildCache g w h d) [(cacheBuilding g, 0), (cacheValid g, 1)]) 7) 0x0124 0x3A 0 g
  else d

def execFlattenBuilt (group : Fin 5) (s : State) : Out := onDev s (flattenBuiltOp group.val)

/-! ## Commands (R329, R331, R333, R338) -/

/-- Buffer tensor's size, or that of L0 in Stump service. -/
def bufSize (d : Dev) (l b : Nat) : Nat × Nat :=
  if flag d stumpActive then (1920, 1080) else let t := fld d (cnpBufTensor l b); (tW (img0 d) t, tH (img0 d) t)

/-- A snapshot that a flip may take (R329). In Stump service L0 holds RGBA8888 words only (R337). -/
def snapOk (d : Dev) (l : Nat) (ws : List Word) : Bool :=
  let s := layerSt ws
  let (w, h) := bufSize d l s.buf
  layerFieldsOk s && scaleFits s.sw s.sh s.dw s.dh && decide (s.buf ≤ 2) && flag d (cnpBufValid l s.buf) &&
  decide (s.sw ≤ w ∧ s.sh ≤ h) && (!flag d stumpActive || s.fmt == 0)

/-- A Ring the host may wait on that can fence a flip: FRAME or FREE; 0 is no fence (R329). -/
def fenceRingOk (d : Dev) (r : Nat) : Bool := r == 0 || ((ringKind d r == 2 || ringKind d r == 3) && !isValidRing d r)

/-- LAYER_FLIP (R329). An accepted flip asks Panel Replay to exit (Table Output-5). -/
def layerFlipOp (mask ring value timeout key : Nat) (d : Dev) : Dev :=
  let ls := (List.range 8).filter (fun l => mask.testBit l)
  if ls.isEmpty || ls.any (fun l => fld d (cnpOwner l) != 4) || !fenceRingOk d ring then complete d key stBadArg []
  else if ls.any (fun l => !snapOk d l (layerShadow d l)) then complete d key stBadArg []
  else if 4 ≤ d.cnp.groups.length then complete d key stBusy []
  else
    let g : FlipGroup :=
      { tag := key, mask, ring, value, timeout, tries := 0, stale := false, snap := ls.map (fun l => (l, layerShadow d l)) }
    replayExit 2 (flipCounts { d with cnp := { d.cnp with groups := d.cnp.groups ++ [g] } })

def execLayerFlip (h : Hdr) (mask : Byte) (ring : BitVec 16) (value : Word) (timeout : Byte) (s : State) : Out :=
  onDev s (request (.layerFlip h mask ring value timeout) h 1 0x10 (decide (h.length = 13))
    (unlessFenced 0x3A (layerFlipOp mask.toNat ring.toNat value.toNat timeout.toNat)))

/-- Bytes of a host buffer. -/
def bufBytes (d : Dev) (l b : Nat) : Nat :=
  if flag d stumpActive then 1920 * 1080 * 4 else tFrameBytes (img0 d) (fld d (cnpBufTensor l b))

/-- LAYER_WRITE (R331, R333): the bytes that EP2 OUT carries go into a buffer neither shown nor pending. -/
def layerWriteOp (l b off len key : Nat) (d : Dev) : Dev :=
  if 8 ≤ l || fld d (cnpOwner l) ≠ 4 || 3 ≤ b || !flag d (cnpBufValid l b) || bufBytes d l b < off + len then complete d key stBadArg []
  else if (flag d (cnpStateEn l) && fld d (cnpStateBuf l) = b) ||
      d.cnp.groups.any (fun g => g.snap.any (fun e => e.1 == l && (layerSt e.2).buf == b)) then complete d key stBusy []
  else
    let d := replayExit 2 d
    if len = 0 then complete d key stOk []
    else
      let x : Xfer := { tag := key, kind := .layer l b off, len, got := 0, buf := [], t0 := d.devTime.toNat, lost := false }
      { d with usb := { d.usb with xfers := d.usb.xfers ++ [x] } }

def execLayerWrite (h : Hdr) (layer buffer : Nat) (offset len : Nat) (s : State) : Out :=
  onDev s (request (.layerWrite h layer buffer offset len) h 1 0x10 (decide (h.length = 16))
    (unlessFenced 0x3A (layerWriteOp layer buffer offset len)))

/-- The bytes of a LAYER_WRITE reach its buffer, if the layer still is the host's. -/
def layerStore (l b off : Nat) (bytes : Bytes) (d : Dev) : Dev :=
  if fld d (cnpOwner l) ≠ 4 then d
  else if flag d stumpActive then writeMem d (stumpL0 + off) bytes
  else
    let t := fld d (cnpBufTensor l b)
    (vwrite d (hwWho d t) (tVpn (img0 d) t * 0x10000 + off) bytes).1

/-- WB_START (R338, R339). -/
def wbStartOp (point fmt count key : Nat) (d : Dev) : Dev :=
  if cnpWbTensor (img0 d) = 0xFFFF || !hasGraft d || 2 < point || 1 < fmt then complete d key stBadArg []
  else if flag d wbActive then complete d key stBusy []
  else if flag d (hdcpProt 0) then raise (complete d key stProtected []) 0x0702 0x3A 0 (ofn d)
  else
    let left := if count = 0 then none else some count
    let d := { d with cnp := { d.cnp with wbLeft := left, wbFrame := none, wbHeld := false, wbDrop := 0, wbDone := 0, wbStop := [] } }
    complete (setFlds d [(wbActive, 1), (wbPoint, point), (wbFmt, fmt)]) key stOk []

def execWbStart (h : Hdr) (point fmt count : Nat) (s : State) : Out :=
  onDev s (request (.wbStart h point fmt count) h 1 0x10 (decide (h.length = 12)) (unlessFenced 0x3A (wbStartOp point fmt count)))

/-- WB_STOP: write-back ends with the frame being written, at once between frames. -/
def wbStopOp (key : Nat) (d : Dev) : Dev :=
  if !flag d wbActive then complete d key stOk []
  else match d.cnp.wbFrame with
    | some _ => { d with cnp := { d.cnp with wbStop := d.cnp.wbStop ++ [key] } }
    | none => complete (setFld d wbActive 0) key stOk []

def execWbStop (h : Hdr) (s : State) : Out :=
  onDev s (request (.wbStop h) h 1 0x10 (decide (h.length = 4)) (unlessFenced 0x3A wbStopOp))

end Sys2Proof.Machine
end

