-- ==== Sys2Proof/Machine/Graft.lean ====
section
/-! DEFINITION. A Graft in space 1: preparation, apply, unload, abort, release, re-admission (R59, R286, R290 to R295). -/

namespace Sys2Proof.Machine

/-! ## Buffers that carry over (R292) -/

/-- Two declarations of a buffer are equal in W, H, C, format and NSLOT. -/
def sameBuffer (a : Bytes) (t : Nat) (b : Bytes) (u : Nat) : Bool :=
  tW a t == tW b u && tH a t == tH b u && tC a t == tC b u && tFmt a t == tFmt b u && tPix a t == tPix b u &&
  tSlots a t == tSlots b u

/-- Pairs (tensor of the outgoing Graft, tensor of the incoming one) of buffers of BIND 1 to 4 that carry over. -/
def carryPairs (old new : Bytes) : List (Nat × Nat) :=
  [1, 2, 3, 4].filterMap (fun k =>
    match boundTensor old k, boundTensor new k with
    | some t, some u => if sameBuffer old t new u then some (t, u) else none
    | _, _ => none)

/-! ## Preparation (R69, R282, R290) -/

/-- Tensors whose pages are allocated before the first frame: PINNED and STREAMING, less those that carry over. -/
def prepTensors (d : Dev) : List Nat :=
  let b := img1 d
  let kept := (carryPairs (img0 d) b).map (·.2)
  (List.range (nTensors b)).filter (fun t => (tClass b t == 0 || tClass b t == 2) && (patternOf b t).isNone && !kept.contains t)

def prepPages (d : Dev) : Nat := ((prepTensors d).map (tPages (img1 d))).sum
/-- Those that are prepared once they are allocated; pages of seed tensors are when their bytes are in place. -/
def plainPages (d : Dev) : Nat := (((prepTensors d).filter (fun t => decide (nSeeds (img1 d) ≤ tSeed (img1 d) t))).map (tPages (img1 d))).sum

/-- One page of a tensor of space 1, from the bank groups that its Graft assigns (R69, R70). -/
def prepPage (d : Dev) (t v : Nat) : Option Dev :=
  let b := img1 d
  (pickFor d b (tPipe b t)).map (fun l =>
    setPage (takeLpn d .alloc l 2) 1 v { Page.none with lpn := l, loc := 1, cls := tClass b t, stamp := d.trk.stamp })

/-- Every page to prepare, or none when the groups have too few. -/
def prepAll (d : Dev) : Option Dev :=
  let b := img1 d
  (prepTensors d).foldl (fun acc t =>
    (List.range (tPages b t)).foldl (fun acc i => acc.bind (fun d => prepPage d t (tVpn b t + i))) acc) (some d)

/-- First window page of the general area, and the page where the reserve begins (R442). -/
def generalFirst (d : Dev) : Nat := (0x2000000 + fld d lp6Seed * 0x4000000) / 0x10000
def generalEnd (d : Dev) : Nat := lp6Capacity d * 7 / 8 / 0x10000

/-- A spill pool of `n` pages in the general area, beside the pool of the other space: the lowest place that fits (log
entry 8). -/
def placeSpill (d : Dev) (n : Nat) : Option (Nat × Nat) :=
  if n = 0 then some (0, 0)
  else
    let (o, m) := d.trk.spill0
    let g := generalFirst d
    let fits (x : Nat) : Bool := flag d lp6Avail && decide (x + n ≤ generalEnd d) && (m == 0 || decide (x + n ≤ o ∨ o + m ≤ x))
    if fits g then some (g, n) else if fits (o + m) then some (o + m, n) else none

/-- The staged pack that a SEEDREFS entry names. -/
def packOf (d : Dev) (b : Bytes) (i : Nat) : Option SeedPack := d.root.packs.find? (fun p => p.hash == seedHash b i)

/-- Frame slots of a seed tensor do not all begin on pages of the payload. -/
def seedUneven (b : Bytes) (t : Nat) : Bool :=
  tClass b t != 0 && (List.range (tSlots b t)).any (fun f => f * tFrameBytes b t % 0x10000 != 0)

/-- Pages of the seed tensors of the first `n` references whose payload is laid out anew. -/
def seedExtra (b : Bytes) (n : Nat) : Nat :=
  ((List.range n).map (fun i => if seedUneven b (seedTensor b i) then tPages b (seedTensor b i) else 0)).sum

/-- Every page of a PREFERRED or SPILLABLE seed tensor starts in its pack's copy; a PINNED one is filled from it (R282). Where the
payload's frame slots do not begin on pages of the copy, its pages are laid out anew behind the spill pool, from page boundaries
(DESIGN CHOICE, log entry 82). -/
def placeSeed (d : Dev) (i : Nat) : Dev :=
  let b := img1 d
  let t := seedTensor b i
  match packOf d b i with
  | none => d
  | some p =>
    (List.range (tPages b t)).foldl (fun d j =>
      let v := tVpn b t + j
      let fb := tFrameBytes b t
      let (f, q) := (j / max 1 (tSlotPages b t), j % max 1 (tSlotPages b t))
      let a := p.addr + f * fb + q * 0x10000
      let n := min 0x10000 (fb - q * 0x10000)
      let mask := lineMask 0 n
      if tClass b t = 0 then
        let pg := pageAt d 1 v
        if pg.loc = 1 then setPage (writeMem d (lpnAddr pg.lpn 0) (readMem d a n)) 1 v { pg with mask, dirty := true } else d
      else
        let bpn := if seedUneven b t then d.trk.spill1.1 + gSpill b + seedExtra b i + j else (a - lp6Base) / 0x10000
        let d := if seedUneven b t then writeLp6 d (bpn * 0x10000) (readMem d a n) else d
        setPage d 1 v { Page.none with loc := 2, cls := tClass b t, hasBack := true, bpn, readers := tReaders b t, mask }) d

/-- The state of a Graft under preparation is left: its pages are freed and space 1 holds it, loaded. -/
def unprepare (d : Dev) : Dev :=
  setFld (releaseSpace 1 { d with root := { d.root with apply := none } }) graftSpace1 3

/-- GRAFT_APPLY: preparation begins, or the command completes BUSY or NO_RESOURCE. Every page is allocated at once, so POS counts those that
hold no seed from here on, and the others at the end (R289; DESIGN CHOICE, log entry 97). -/
def graftApplyOp (k : Nat) (earliest : Bool) (key : Nat) (d : Dev) : Dev :=
  if fld d graftSpace1 ≠ 3 then complete d key stBusy []
  else
    let d := replayExit 3 d
    let d := progStart (setFld d graftSpace1 4) 2 0 (prepPages d)
    match prepAll d, placeSpill d (gSpill (img1 d) + seedExtra (img1 d) (nSeeds (img1 d))) with
    | some e, some sp =>
      let e := progAt e 2 (plainPages d)
      { e with
        trk := { e.trk with spill1 := sp }
        root := { e.root with apply := some { tag := key, k, earliest, unload := false, ready := false } } }
    | _, _ => progFail (complete (setFld d graftSpace1 3) key stNoResource []) 2

def execGraftApply (h : Hdr) (k : Word) (flags : Byte) (s : State) : Out :=
  onDev s (request (.graftApply h k flags) h 1 0x10 (decide (h.length = 9 ∧ flags.toNat ≤ 1))
    (graftApplyOp k.toNat (flags.toNat % 2 == 1)))

/-- The first output frame whose apply instant is still to come, or the one named when its instant is (R290). -/
def applyFrame (d : Dev) (k : Nat) (earliest : Bool) : Nat :=
  if earliest || !later (sub32 k 1) (ofn d) then add32 (ofn d) 2 else k

/-- GRAFT_PREPARATION_DONE: seed tensors are in place and K is fixed. -/
def prepDoneOp (d : Dev) : Dev :=
  match d.root.apply with
  | none => d
  | some a =>
    if a.ready then d
    else
      let d := (List.range (nSeeds (img1 d))).foldl placeSeed d
      let k := applyFrame d a.k a.earliest
      let d := { d with root := { d.root with apply := some { a with k, ready := true } } }
      progDone d 2

def execGraftPreparationDone (s : State) : Out := onDev s prepDoneOp

/-- GRAFT_UNLOAD: K is fixed at once, for there is nothing to prepare (R286, R295). While an unload waits for its instant, a
second one is BUSY (log entry 14). -/
def graftUnloadOp (k : Nat) (earliest : Bool) (key : Nat) (d : Dev) : Dev :=
  if !hasGraft d then complete d key stBadArg []
  else if fld d graftSpace1 ≠ 0 || d.root.apply.isSome then complete d key stBusy []
  else
    let d := replayExit 3 d
    { d with root := { d.root with
        apply := some { tag := key, k := applyFrame d k earliest, earliest, unload := true, ready := true } } }

def execGraftUnload (h : Hdr) (k : Word) (flags : Byte) (s : State) : Out :=
  onDev s (request (.graftUnload h k flags) h 1 0x10 (decide (h.length = 9 ∧ flags.toNat ≤ 1))
    (graftUnloadOp k.toNat (flags.toNat % 2 == 1)))

/-- GRAFT_ABORT (R286): BUSY beside an outgoing Graft; otherwise space 1 is emptied and its pending command is BUSY. -/
def graftAbortOp (key : Nat) (d : Dev) : Dev :=
  if fld d graftSpace1 = 5 then complete d key stBusy []
  else
    let d := match d.root.loadTag with
      | some t => progFail (complete { d with root := { d.root with loadTag := none } } t stBusy []) 1
      | none => d
    let d := match d.root.apply with
      | some a => if a.unload then d else progFail (complete { d with root := { d.root with apply := none } } a.tag stBusy []) 2
      | none => d
    complete (setFld (releaseSpace 1 { d with root := { d.root with space1 := none } }) graftSpace1 0) key stOk []

def execGraftAbort (h : Hdr) (s : State) : Out :=
  onDev s (request (.graftAbort h) h 1 0x10 (decide (h.length = 4)) graftAbortOp)

/-! ## The apply instant (R291, R293, R295) -/

/-- The writer of the last frame before K is the outgoing Graft's, even where that Graft is released before the frame is judged
(R41, R290). -/
def lastWriter (d : Dev) : Dev :=
  let f := outFrame d (ofn d)
  if f.writer = 16 then setOut d { f with writer := cadWriter d (ofn d) } else d

/-- The Graft in force becomes the outgoing one: the spaces exchange, its frames and its Branch contexts stay open. -/
def exchange (d : Dev) : Dev :=
  let d := camExchange d
  let swap (c : Nat) : Nat := if c = 1 then 2 else if c = 2 then 1 else c
  let strict := ((List.range 4).filter (fun p => fld d (admitState p) == 1)).map (2 ^ ·)
  let t := d.trk
  let old := d.root.space0
  let d := { d with
    root := { d.root with space0 := d.root.space1, space1 := old, outStrict := strict.sum, outAge := 0 }
    trk := { t with map0 := t.map1, map1 := t.map0.map (fun e => (e.1, { e.2 with staged := false })),
                    spill0 := t.spill1, spill1 := t.spill0, used := t.used.map (fun e => (e.1, swap e.2)),
                    stageQ := [], staging := t.staging.map (fun e => (e.1, e.2.1, e.2.2 + 2 ^ 18)), carry := []
                    unwr := t.unwr.map (fun e => (if e.1 < 65536 then e.1 + 65536 else e.1 - 65536, e.2))
                    stalls := t.stalls.map (fun x => { x with sp := 1 - x.sp })
                    fenceUse := t.fenceUse.map (fun e => (!e.1, e.2))
                    lines := t.lines.map (fun e => if 0x10000 ≤ e.1 then (e.1 + 0x10000, e.2) else e) }
    stem := { d.stem with frames := d.stem.frames.map (fun f => { f with out := true }), histReq := d.stem.histReq.map (fun e => { e with out := true }),
                          cad := [], cadRe := none, shedRep := 0, shp := [], marks := []
                          first := (d.stem.first.filter (fun e => !e.1.2)).map (fun e => ((e.1.1, true), e.2)) }
    ras := { d.ras with segQ := d.ras.segQ.map (fun g => { g with out := true }) }
    br := d.br.map (fun e => (e.1, { e.2 with
      ctxs := e.2.ctxs.map (fun c => { c with out := true })
      haloIn := e.2.haloIn.map (fun h => { h with out := true })
      haloRx := e.2.haloRx.map (fun h => { h with out := true })
      haloLog := e.2.haloLog.map (fun h => { h with out := true })
      mcast := e.2.mcast.map (fun m => { m with out := true })
      twig := if fld d (twigState e.1 4) = 3 then e.2.twig.put Twig.reset 4 (e.2.twig.get Twig.reset 4).empty else e.2.twig
      armed := false, fresh := 0, aud := [] }))
    cells := d.cells.map (fun e => (e.1 + outCells, e.2)) }
  let d := (List.range 16).foldl (fun d n => 
    if fld d (twigState n 4) = 3 then setFlds d [(twigState n 4, 1), (twigStands n 4, 0), (twigMode n 4, 0), (twigPlane n 4, 0)] else d) d
  setFld d graftSpace1 (if old.isSome then 5 else 0)

/-- The pages of a buffer that carries over move to space 0. -/
def carryBuffer (d : Dev) (t u : Nat) : Dev :=
  let vt := tVpn (img1 d) t
  let vu := tVpn (img0 d) u
  let n := tPages (img0 d) u
  let d := (List.range n).foldl (fun d i =>
    let p := d.trk.map1.get Page.none (vt + i)
    let q := { p with cls := tClass (img0 d) u, readers := pageReaders_ (img0 d) (vu + i) }
    let d := { d with trk := { d.trk with map1 := d.trk.map1.put Page.none (vt + i) Page.none,
                                          map0 := d.trk.map0.put Page.none (vu + i) (if p.loc = 0 then p else q) } }
    if p.loc = 1 || p.loc = 3 then setUsed d p.lpn 1 else d) d
  -- a kept buffer in a fenced group: the tasks that name it use that group (R90)
  let gs := (List.range 16).filter (fun g => fenced d (0x20 + g) && (List.range n).any (fun i => let p := d.trk.map0.get Page.none (vu + i); p.loc == 1 && p.lpn / 512 == g))
  let ks := (List.range (nTasks (img0 d))).filter (fun k => (kIns (img0 d) k ++ kOuts (img0 d) k).contains u)
  let d := { d with trk := { d.trk with fenceUse := d.trk.fenceUse ++ gs.flatMap (fun g => ks.map (fun k => (false, k, g))) } }
  { d with trk := { d.trk with carry := (vt, n, vu) :: d.trk.carry } }

/-- Stem registers, classes and keys of the Graft in force (R60, R265). -/
def graftRegs (d : Dev) : Dev :=
  let b := img0 d
  let d := (List.range 4).foldl (fun d s =>
    match pipeOfStem b s with
    | some p => setFlds d [(stemKey s, pKey b p), (stemCtx s, if pKey b p = 3 then pCtx b p else 0), (stemPipe s, p)]
    | none => setReg d (0x40000 + 0x100 * s) 7) d
  let d := (List.range 4).foldl (fun d p => setFlds d [(admitState p, pClass b p), (admitCause p, 0)]) d
  let id := slice b 24 8
  setFlds d [(graftInForce, 1), (graftIdLo, u32 id 0), (graftIdHi, u32 id 4), (leadSlots, gFbSlots b), (undSrc, gUndSrc b),
    (undMode, gUndMode b), (undHstep, gHstep b), (undVstep, gVstep b)]

/-- Line rings of the Graft in force: those that did not carry over start with every credit at the producer (R74). A port
that has none keeps the ring of Stump service until that service ends. -/
def graftLineRings (kept : List Nat) (d : Dev) : Dev :=
  let b := img0 d
  -- STREAMING tensors that Branches write (R74)
  let d := ((List.range (nTensors b)).filter (fun t => tClass b t == 2 && tBind b t == 0 && (writerOf b t).isSome)).foldl (fun d t =>
    newLineRing d (branchRing false t) (tH b t * tSlots b t)) d
  (List.range 2).foldl (fun d p =>
    match boundTensor b (p + 1) with
    | some t => if kept.contains t then d else newLineRing d p (tH b t)
    | none => if p = 0 && flag d stumpActive then d else setLineRing d p LineRing.none) d

/-- Rings of the incoming Graft: FRAME Rings and valid-Rings read 0 and no frame has a base (R291). -/
def graftRings (d : Dev) : Dev :=
  let b := img0 d
  (ringEntries b).foldl (fun d e =>
    if e.2.kind = 2 then { ringPut d e.1 0 with ring := { (ringPut d e.1 0).ring with fbase := d.ring.fbase.put [] e.1 [] } } else d) d

/-- Free-running pipelines open their frames 0 and 1. -/
def openFree (nv : NonVol) (d : Dev) : Dev :=
  openFrames nv (((pipesOf (img0 d)).filter (fun p => pKey (img0 d) p == 4)).flatMap (fun p => [(p, 0), (p, 1)])) d

/-- Cadence: output frame K maps to the latest input frame begun on CAD_PORT, 0 when none has (R276). -/
def startCadence (k : Nat) (d : Dev) : Dev :=
  let p := gCadPort (img0 d)
  let i := if (port d p).begun then fld d (intIfn p) else 0
  newOutput { d with stem := { d.stem with cad := [(k, i)], cadRe := none } } k i

/-- Where scale tables and valid-Rings of history tensors start cold (R140, R259). -/
def freshHistory (d : Dev) : Dev :=
  let b := img0 d
  ((List.range (nTensors b)).filter (tHist b)).foldl (fun d t => invalidate d false t 1) d

/-- GRAFT_APPLY takes place: R291 items 1 to 5. Output-keyed pipelines open frame K with the other frames of this instant. -/
def applyNow (nv : NonVol) (a : PendingApply) (d : Dev) : Dev :=
  let pairs := carryPairs (img0 d) (img1 d)
  let kept3 := pairs.any (fun e => tBind (img1 d) e.2 == 3)
  let d := lastWriter d
  let d := exchange { d with root := { d.root with apply := none, fbKept := kept3 } }
  let d := pairs.foldl (fun d e => carryBuffer d e.1 e.2) d
  let d := match d.root.space0 with
    | some g => { d with root := { d.root with space0 := some { g with k := a.k }, flipK := some a.k } }
    | none => d
  let d := setFld (graftRegs d) graftApplyOfn a.k
  let d := camApply (graftLineRings (pairs.map (·.2)) d)
  let kept4 := pairs.any (fun e => tBind (img0 d) e.2 == 4)
  let d := if kept4 then d else { d with inp := { d.inp with store := [] } }
  let d := setLead (freshHistory (graftRings (zeroTables d)))
  let d := openFree nv (startCadence a.k d)
  let d := raise d 0x0261 0 0 a.k
  releaseIfDone (complete d a.tag stOk [])

/-- GRAFT_UNLOAD takes place: no Graft is in force from now on. -/
def unloadNow (a : PendingApply) (d : Dev) : Dev :=
  let d := lastWriter d
  let d := exchange { d with root := { d.root with apply := none, fbKept := false } }
  let d := { d with root := { d.root with flipK := some a.k } }
  let d := setLead (setFlds (clearGraftRegs d) [(graftApplyOfn, a.k)])
  let d := stumpSteps d
  let d := raise d 0x0264 0 0 a.k
  releaseIfDone (complete d a.tag stOk [])

/-- Position 0 of output frame K - 1: the pending apply or unload takes place, or fails R284 (R291). -/
def applyInstant (nv : NonVol) (d : Dev) : Dev :=
  match d.root.apply with
  | none => d
  | some a =>
    if !a.ready || ofn d ≠ sub32 a.k 1 then d
    else if a.unload then unloadNow a d
    else if certOk nv d (img1 d) then applyNow nv a d
    else complete (unprepare d) a.tag stAdmission []

/-- GRAFT_RELEASE_DEADLINE: two output frames after A, the tasks still open end TIMEOUT and the Graft is released (R294). -/
def releaseDeadlineOp (nv : NonVol) (d : Dev) : Dev :=
  if fld d graftSpace1 ≠ 5 || d.root.outAge < 2 then d
  else
    let fs := d.stem.frames.filter (·.out)
    let n := (fs.map (fun f => (f.tasks.filter (fun t => t.state != 3)).length)).sum
    let d := fs.foldl (fun d f => endFrame d f stTimeout 0) d
    let d := setFrames d (d.stem.frames.filter (fun f => !f.out))
    closeFrames nv (releaseOutgoing n d)

def execGraftReleaseDeadline (s : State) : Out := onDev s (releaseDeadlineOp s.nv)

/-! ## Re-admission (R59) -/

/-- READMIT: BAD_ARG for a pipeline that has not turned Elastic after a loss. -/
def readmitOp (p key : Nat) (d : Dev) : Dev :=
  if 4 ≤ p || fld d (admitState p) ≠ 3 then complete d key stBadArg []
  else { d with root := { d.root with readmits := d.root.readmits ++ [{ tag := key, pipe := p }] } }

def execReadmit (h : Hdr) (pipe : Nat) (s : State) : Out :=
  onDev s (request (.readmit h pipe) h 1 0x10 (decide (h.length = 5)) (readmitOp pipe))

/-- The re-admissions asked for before this blanking are evaluated. -/
def serveReadmits (nv : NonVol) (d : Dev) : Dev :=
  let l := d.root.readmits
  l.foldl (fun d r =>
    if fld d (admitState r.pipe) ≠ 3 then complete d r.tag stBadArg []
    else if admitOk nv d (img0 d) r.pipe then
      complete (raise (setFld d (admitState r.pipe) 1) 0x0114 (4 + pStem (img0 d) r.pipe) 0 r.pipe) r.tag stOk []
    else complete d r.tag stAdmission []) { d with root := { d.root with readmits := [] } }

end Sys2Proof.Machine
end

