-- ==== Sys2Proof/Machine/Grove.lean ====
section
/-! DEFINITION. The Grove: roles, frame pulse, time code, lock of a follower (R393, R399 to R404, R417). -/

namespace Sys2Proof.Machine

def isMaster (d : Dev) : Bool := inForce d grvRole == 1

/-- The role, or the unit's fence, lets the engine take part as master or follower. -/
def grvOn (d : Dev) : Bool := !fenced d 0x41

/-- The follower loses lock (R401). -/
def loseGrove (cause : Nat) (d : Dev) : Dev :=
  let d := { d with grv := { d.grv with good := 0 } }
  raise (bump (setFld d grvLocked 0) aLockLoss 1) 0x0902 0x41 1 cause

/-- The first lock after reset loads DEV_TIME; the instants kept move with it (R403). -/
def loadDevTime (d : Dev) : Dev :=
  match d.grv.diff with
  | some x =>
    if d.grv.synced then d
    else
      let shift (t : Nat) : Nat := ((t : Int) + x).toNat
      { d with
        devTime := BitVec.ofNat 64 (shift d.devTime.toNat)
        grv := { d.grv with synced := true, adj := 0, diff := some 0, edge := d.grv.edge.map shift, target := d.grv.target.map shift } }
  | none => d

/-- Position 0 of frame `n` on any engine: the role written takes effect, a follower measures its error, MFC follows the time
code, and the front porch that a follower takes is answered (R399 to R403). -/
def grovePos0 (n : Nat) (d : Dev) : Dev × Option Int :=
  let d := setLive d 0x1A0000 (reg d 0x1A0000)
  if !grvOn d then (d, none)
  else if isMaster d then (setFlds d [(grvLocked, 1), (grvMfc, n), (grvMfcOfs, 0)], none)
  else if !isFollower d then (setFld d grvLocked 0, none)
  else
    let d := match d.grv.mfc with
      | some m => setFlds d [(grvMfc, m), (grvMfcOfs, sub32 m n)]
      | none => if d.grv.adv then setFld d grvMfc (add32 (fld d grvMfc) 1) else d
    let d := { d with grv := { d.grv with mfc := none, adv := false } }
    match d.grv.target with
    | none => (d, none)
    | some t =>
      let err : Int := (d.devTime.toNat : Int) - t
      let (num, den) := lpNs d
      let xclk := htotal d * vtotalNom d * inForce d dsoFrate
      let near := decide (err.natAbs * xclk ≤ 1000000000000 * (if dsoSplit d then 4 else 8))
      let far := decide (num < err.natAbs * den)
      let d := setFld { d with grv := { d.grv with target := none } } grvPhase (ofS 16 (clampI (-32768) 32767 err))
      let good := if near then d.grv.good + 1 else 0
      let d := { d with grv := { d.grv with good } }
      let lost := far && flag d grvLocked
      let d := if 2 ≤ good && !flag d grvLocked then
          raise (setFld (loadDevTime d) grvLocked 1) 0x0901 0x41 0 (fld d grvMfc)
        else if lost then loseGrove 2 d else d
      -- the frame that begins with the loss has the nominal porch; the frames after it steer again (DEDUCED, log entry 99)
      (d, if lost then none else some ((inForce d dsoVfp : Int) - rheDiv (err * den) (max 1 num : Nat)))

/-- FSYNC_OUT_PULSE: the master raises GRV_FSYNC_OUT and starts the time code frame of the next position 0 (R400, R402). -/
def fsyncOutOp (d : Dev) : Dev :=
  if !isMaster d || !grvOn d || !d.ras.running then d
  else
    let tag := fld d grvTag % 4096 + (hasGraft d).toNat * 2 ^ 12 + (flag d stumpActive).toNat * 2 ^ 13
    let body := le 4 (add32 (ofn d) 1) ++ le 8 d.devTime.toNat ++ le 2 tag
    { d with grv := { d.grv with outT := some d.devTime.toNat, sent := body ++ le 2 (crc16 body) } }

def execFsyncOutPulse (s : State) : Out := onDev s fsyncOutOp

/-- FSYNC_IN_EDGE: a follower aims its position 0 and repeats the edge 20 ns later (R399, R400). -/
def fsyncInOp (d : Dev) : Dev :=
  if !isFollower d || !grvOn d then d
  else
    let t := d.devTime.toNat
    let aim : Int := (t : Int) + fld d grvAlign - fld d grvPath
    { d with grv := { d.grv with edge := some t, target := some aim.toNat, outT := some (t + 20) } }

def execFsyncInEdge (s : State) : Out := onDev s fsyncInOp

/-- FSYNC_TIMEOUT: no edge for two nominal frame periods (R401). -/
def fsyncTimeoutOp (d : Dev) : Dev :=
  match d.grv.edge with
  | some t =>
    if isFollower d && grvOn d && flag d grvLocked && 2000000000000 ≤ (d.devTime.toNat - t) * inForce d dsoFrate then loseGrove 1 d else d
  | none => d

def execFsyncTimeout (s : State) : Out := onDev s fsyncTimeoutOp

/-- TUPLE_MATCH against the master's tag; a fall raises GROVE_TUPLE_MISMATCH (R403). -/
def tupleMatch (d : Dev) : Dev :=
  match d.grv.mtag with
  | none => d
  | some t =>
    let own := fld d grvTag % 4096
    let was := flag d grvMatch
    let d := setFld d grvMatch (if t = own then 1 else 0)
    if was && t ≠ own then raise d 0x0904 0x41 1 (t + own * 65536) else d

/-- TIME_CODE_RECEIVED (R403). -/
def timeCodeOp (code : Bytes) (d : Dev) : Dev :=
  if !isFollower d || !grvOn d || code.length ≠ 16 then d
  else
    let d := { d with grv := { d.grv with since := d.grv.since + 1 } }
    if crc16 (code.take 14) = u16 code 14 then
      let flags := u16 code 12
      let diff := d.grv.edge.map (fun e => ((ofLe (slice code 4 8) + fld d grvPath : Nat) : Int) - e)
      let d := { d with grv := { d.grv with mfc := some (u32 code 0), adv := false, bad := 0, mtag := some (flags % 4096), diff } }
      let d := if d.grv.synced then { d with grv := { d.grv with adj := match diff with | some x => x | none => d.grv.adj } } else d
      let d := setFlds d [(grvTcValid, 1), (grvMGraft, bits flags 12 1), (grvMStump, bits flags 13 1)]
      let d := if flag d grvLocked then loadDevTime d else d
      tupleMatch d
    else
      let d := { d with grv := { d.grv with mfc := none, adv := true, bad := d.grv.bad + 1, badRep := d.grv.badRep + 1 } }
      let d := bump d aTcErr 1
      let d := if 4 ≤ d.grv.bad then setFld d grvTcValid 0 else d
      if 256 ≤ d.grv.since then
        raise { d with grv := { d.grv with since := 0, badRep := 0 } } 0x0903 0x41 0 d.grv.badRep
      else d

def execTimeCodeReceived (code : Bytes) (s : State) : Out := onDev s (timeCodeOp code)

/-- GROVE_TUPLE_CHANGED: GRV_TUPLE_TAG takes the CRC of the tuple in force, when a field changed (R393). -/
def tupleChangedOp (nv : NonVol) (d : Dev) : Dev :=
  let t := tupleTag nv d
  if fld d grvTag = t then d else tupleMatch (raise (setFld d grvTag t) 0x0905 0x41 0 t)

def execGroveTupleChanged (s : State) : Out := onDev s (tupleChangedOp s.nv)

end Sys2Proof.Machine
end

