-- ==== Sys2Proof/Machine/Raster.lean ====
section
/-! DEFINITION. The raster contract and the timing generator: judgement, commits, frame boundaries, Panel Replay, source ports
(R33 to R53, R342 to R361). -/

namespace Sys2Proof.Machine

/-! ## Deadline tiles (R37 to R42) -/

/-- Width and height of a deadline tile of a panel of `w` by `h`. -/
def tileW (w c : Nat) : Nat := min 512 (w - 512 * c)
def tileH (h k : Nat) : Nat := min 8 (h - 8 * k)
/-- Segments of a complete tile (R39). -/
def tileFull (w h k c : Nat) : Nat := cdiv (tileW w c) 64 * tileH h k
def tileRows (h : Nat) : Nat := cdiv h 8
/-- Segments counted in tile `i` of a frame. -/
def tileCount (f : OutFrame) (i : Nat) : Nat := popcount 64 (f.segs.get 0 i)

/-- A row of the writer is judged as Strict (R57, R293). -/
def judgedStrict (d : Dev) (n w : Nat) : Bool :=
  if 4 ≤ w then false
  else if writtenByOutgoing d n then d.root.outStrict.testBit w
  else fld d (admitState w) == 1 &&
    !(d.stem.frames.any (fun f => f.out && (pipeBranches (img1 d) f.pipe).any (fun x => (pipeBranches (img0 d) w).contains x)))

/-- The frame whose row `k` is due for judgement now: this frame's, or the next one's in the positions before its start
(R38); at position 0 of a frame with a new lead, also every row whose instant has passed (R351). Replay frames are not judged
(R356). -/
def judgeDue (d : Dev) (k : Nat) : Option Nat :=
  let n := ofn d
  let m := add32 n 1
  let l := d.ras.lead
  let open_ (n : Nat) : Bool := decide (k < tileRows (panelOf d n).2) && (outFrame d n).judged.get 0 k == 0 && !isReplay d n
  if !d.ras.running then none
  else if open_ n && (decide (8 * k = l + pos d) || (d.ras.relead && decide (pos d = 0 ∧ 8 * k ≤ l))) then some n
  else if open_ m && decide (8 * k < l) && decide (d.ras.vtotal + 8 * k = pos d + l) then some m
  else none

/-- A page of the tile lies in a fenced bank group (Table Fault-5). -/
def tileFenced (d : Dev) (n k c : Nat) : Bool :=
  let (w, h) := panelOf d n
  match frameBuffer d n with
  | none => false
  | some (sp, t, s) =>
    (List.range (tileH h k)).any (fun i =>
      (partsOf (tAddr (imgSp d sp) t s (8 * k + i) 0 0 + 2048 * c) (4 * tileW w c)).any (fun part =>
        let p := pageAt d sp part.1
        (p.loc == 1 || p.loc == 3) && fenced d (0x20 + p.lpn / 512)))

/-- Window address of a frame's substitution bitmap (R52); UND_SUB_BASE is 0x30000 (log entry 8). -/
def bitmapAddr (n : Nat) : Nat := trunkBase + 0x30000 + n % 2 * 1024

/-- Bit `i` of a bitmap set. -/
def setBitmap (n i : Nat) (d : Dev) : Dev :=
  let a := bitmapAddr n + i / 8
  writeMem d a [BitVec.ofNat 8 (setBit (u8 (readMem d a 1) 0) (i % 8) true)]

/-- Tile `c` of row `k` is substituted: bitmap and counts (R50, R52). -/
def substitute (n k c : Nat) (d : Dev) : Dev :=
  let i := k * tileCols (panelOf d n).1 + c
  let f := outFrame d n
  bump (setBitmap n i (setOut d { f with subs := f.subs.put 0 i 1, subN := f.subN + 1 })) aSubTotal 1

/-- The first tile row that a frame judges fixes its writer and clears its bitmap (R41, R52). -/
def fixWriter (n : Nat) (d : Dev) : Dev :=
  let f := outFrame d n
  if !f.judged.isEmpty then d
  else writeMem (setOut d { f with writer := writerNow d n }) (bitmapAddr n) (List.replicate 1024 0)

/-- Tiles of a row that are incomplete at judgement. -/
def incompleteTiles (d : Dev) (n k : Nat) : List Nat :=
  let f := outFrame d n
  let (w, h) := panelOf d n
  (List.range (tileCols w)).filter (fun c =>
    tileInside f w h k c && (decide (tileCount f (k * tileCols w + c) < tileFull w h k c) || tileFenced d n k c))

/-- Tiles of a row outside the run-time output extent. -/
def tilesOutside (d : Dev) (n k : Nat) : List Nat :=
  let (w, h) := panelOf d n
  (List.range (tileCols w)).filter (fun c => !tileInside (outFrame d n) w h k c)

/-- A Strict writer that missed a tile turns Elastic just before the judgement (R57 cause 0x6, R58, R293). -/
def missStrict (n w : Nat) (d : Dev) : Dev :=
  if writtenByOutgoing d n then { d with root := { d.root with outStrict := setBit d.root.outStrict w false } }
  else if fld d (admitState w) = 1 then loseAdmission w 6 d else d

/-- TILE_ROW_JUDGE: every tile of row `k` of the frame due is decided. In a frame with no writer, and in a row shown as
understory (R237), every tile is shown from the Understory and nothing is counted; with the Understory
fenced the fill of a frame that has a writer is marked and counted (R47, R52). -/
def judgeRow (n k : Nat) (d : Dev) : Dev :=
  let d := fixWriter n d
  let f := outFrame d n
  let mark (v : Nat) (d : Dev) : Dev := let f := outFrame d n; setOut d { f with judged := f.judged.put 0 k v }
  let all := List.range (tileCols (panelOf d n).1)
  if f.writer = 15 then mark 3 d
  else if f.ovr then mark 3 (if fenced d 0x40 then all.foldl (fun d c => substitute n k c d) d else d)
  else
    let bad := incompleteTiles d n k
    let strict := judgedStrict d n f.writer
    let d := if strict && !bad.isEmpty then missStrict n f.writer d else d
    let d := if fenced d 0x40 then (tilesOutside d n k).foldl (fun d c => substitute n k c d) d else d
    let d := bad.foldl (fun d c => substitute n k c d) d
    mark (if strict && bad.isEmpty then 2 else 1) d

def tileRowJudgeOp (k : Nat) (d : Dev) : Dev :=
  match judgeDue d k with
  | some n => judgeRow n k d
  | none => d

def execTileRowJudge (k : Nat) (s : State) : Out := onDev s (tileRowJudgeOp k)

/-- A segment that the ledger discards and counts (R41, R42). -/
def lateSegment (g : Segment) (d : Dev) : Dev :=
  let f := outFrame d g.ofn
  bump (setOut d { f with late := f.late + 1 }) aLateWr 1

/-- SEGMENT_ACK: the Trunk acknowledges write `i`: it counts in its tile, or is discarded (R39 to R42, R236). -/
def segmentAckOp (i : Nat) (d : Dev) : Dev :=
  match d.ras.segQ[i]? with
  | none => d
  | some g =>
    let d := { d with ras := { d.ras with segQ := d.ras.segQ.eraseIdx i } }
    let f := outFrame d g.ofn
    let (w, h) := panelOf d g.ofn
    let k := g.y / 8
    let c := g.x / 512
    let t := k * tileCols w + c
    let done := f.judged.get 0 k != 0
    if writerNow d g.ofn ≠ g.pipe then lateSegment g d
    else if !tileInside f w h k c || (done && f.judged.get 0 k = 3) then d
    else if done && f.subs.get 0 t ≠ 0 then lateSegment g d
    else
      match frameBuffer d g.ofn with
      | none => d
      | some (sp, b, _) =>
        let d := (vwrite d { sp, pipe := tPipe (imgSp d sp) b, pfn := g.ofn, unit := 2, task := 8192, host := true } g.addr g.bytes).1
        let f := outFrame d g.ofn
        let bit := g.y % 8 * 8 + g.x / 64 % 8
        setOut d { f with segs := f.segs.put 0 t (setBit (f.segs.get 0 t) bit true) }

def execSegmentAck (i : Nat) (s : State) : Out := onDev s (segmentAckOp i)

/-! ## Lines (R345, R353) -/

/-- LINE_SCANNED: the LP of an active line ends, and the ports send the next line. -/
def lineScannedOp (d : Dev) : Dev :=
  if d.ras.running && decide (pos d < vactive d) then
    let d := ringInc d 0x11 1
    sendLine (setFld { d with ras := { d.ras with lmDone := false } } dsoPos (pos d + 1))
  else d

def execLineScanned (s : State) : Out := onDev s lineScannedOp

/-- LINE_MATCH: the LP at DSO_LMATCH.POS begins, once in a frame. -/
def lineMatchOp (d : Dev) : Dev :=
  if d.ras.running && flag d lmEn && fld d lmPos = pos d && !d.ras.lmDone then
    raiseStem { d with ras := { d.ras with lmDone := true } } (outputStem d (ofn d)) 0x0102 0x3B 0 (pos d + ofn d % 65536 * 65536)
  else d

def execLineMatch (s : State) : Out := onDev s lineMatchOp

/-! ## The DSO set (R343, R350, R351) -/

/-- Registers of the shadow set of the DSO block (R350). -/
def dsoSet : List Nat :=
  [0x170000, 0x170004, 0x170008, 0x17000C, 0x170010, 0x170014, 0x170080] ++
  (List.range 16).flatMap (fun i => [chkBase i, chkBase i + 4, chkBase i + 8, chkBase i + 0xC])

/-- The set as the shadows stand. -/
def takeSet (d : Dev) : Map Word := dsoSet.foldl (fun m a => m.put 0 a (reg d a)) []

/-- A field of a set. -/
def setOf (m : Map Word) (x : Fld) : Nat := fget x (m.get 0 x.addr)

/-- Bits per second per lane that a link of a rate code carries, in kbit/s (PRESUMED, log entry 15): 8b/10b coding, and for the
UHBR rates the share that gives the 77.37 Gbit/s of UHBR20 x4. -/
def laneRate (rate : Nat) : Nat :=
  match rate with
  | 0 => 1296000 | 1 => 2160000 | 2 => 4320000 | 3 => 6480000 | 4 => 9671250 | 5 => 13056187 | _ => 19342500
def laneCount (code : Nat) : Nat := match code with | 0 => 1 | 1 => 2 | _ => 4

/-- VTOTAL, HTOTAL, panel size and pixels per XCLK of a set (R342, R343). -/
def setVtotal (m : Map Word) : Nat := setOf m dsoVactive + setOf m dsoVfp + setOf m dsoVsync + setOf m dsoVbp
def setHtotal (m : Map Word) : Nat := setOf m dsoHactive + setOf m dsoHfp + setOf m dsoHsync + setOf m dsoHbp
def setSplit (m : Map Word) : Bool := setOf m dsoMode == 2
def setPanel (m : Map Word) : Nat × Nat := (if setSplit m then 2 * setOf m dsoHactive else setOf m dsoHactive, setOf m dsoVactive)
def setPpx (m : Map Word) : Nat := if setSplit m then 4 else 8

/-- Table Output-1 without the limits that have codes of their own. -/
def setFieldsOk (m : Map Word) : Bool :=
  let q := setPpx m
  let ha := setOf m dsoHactive
  let hs := [setOf m dsoHfp, setOf m dsoHsync, setOf m dsoHbp]
  let vs := [setOf m dsoVfp, setOf m dsoVsync, setOf m dsoVbp]
  decide (setOf m dsoMode ≤ 2 ∧ setOf m dsoClr ≤ 2) &&
  decide (640 ≤ ha ∧ ha ≤ (if setSplit m then 3840 else 7680) ∧ ha % q = 0) &&
  hs.all (fun x => decide (8 ≤ x ∧ x % q = 0)) && decide (setHtotal m ≤ 16383) &&
  decide (480 ≤ setOf m dsoVactive ∧ setOf m dsoVactive ≤ 4320) &&
  vs.all (fun x => decide (1 ≤ x)) && decide (8 ≤ vs.sum) && decide (setVtotal m ≤ 8191) &&
  decide (23000 ≤ setOf m dsoFrate ∧ setOf m dsoFrate ≤ 288000)

/-- LP and frame rate within the grade. -/
def setGradeOk (gradeS : Bool) (m : Map Word) : Bool :=
  let (w, h) := setPanel m
  let big := 3840 < w || 2160 < h
  let top := if gradeS then (if big then 120000 else 240000) else (if big then 144000 else 288000)
  decide ((if gradeS then 1800 else 1500) * (setVtotal m * setOf m dsoFrate) ≤ 1000000000000) && decide (setOf m dsoFrate ≤ top)

/-- XCLK in mHz times pixels per XCLK (R343). -/
def setXclk (m : Map Word) : Nat := setHtotal m * setVtotal m * setOf m dsoFrate
def setXclkOk (m : Map Word) : Bool :=
  decide (25000000000 * setPpx m ≤ setXclk m ∧ setXclk m ≤ 700000000000 * setPpx m)

/-- Stream rate of each port in use whose link is trained (R343, R349); a link not trained limits nothing (DEDUCED, log
entry 15). -/
def setStreamOk (d : Dev) (m : Map Word) : Bool :=
  let bpp := if setOf m dsoDscEn = 1 then 8 else if setOf m dsoBpc = 1 then 24 else 30
  (List.range 2).all (fun p => !portUsed (setOf m dsoMode) p || !flag d (linkUp p) ||
    decide (setXclk m * bpp ≤ laneRate (fld d (linkRate p)) * laneCount (fld d (linkLanes p)) * 1000000))

/-- The panel of the Graft in force (R351). -/
def setGraftOk (d : Dev) (m : Map Word) : Bool := !hasGraft d || setPanel m == (gFbW (img0 d), gFbH (img0 d))

/-- First failure in the order of Table Output-3; 0 when the set may be taken. -/
def setError (nv : NonVol) (d : Dev) (m : Map Word) : Nat :=
  if !setFieldsOk m then 1 else if !setGradeOk nv.gradeS m then 2 else if !setXclkOk m then 3
  else if !setStreamOk d m then 4 else if !setGraftOk d m then 5 else 0

/-- XCLK divisor D in u8.24 (R508). -/
def xdivOf (m : Map Word) : Nat := (rheDiv (6000000000 * 2 ^ 24 * 1000 * setPpx m : Nat) (max 1 (setXclk m) : Nat)).toNat

/-- Position VACTIVE: a pending set is taken, or refused with its code (R351). -/
def takeCommit (nv : NonVol) (d : Dev) : Dev :=
  if !flag d dsoPending then d
  else
    let m := takeSet d
    let d := setFld d dsoPending 0
    match setError nv d m with
    | 0 =>
      let d := setFlds d [(dsoErr, 0), (clkXdiv, xdivOf m)]
      let d := raise { d with ras := { d.ras with newSet := some m } } 0x0107 0x3B 0 (add32 (ofn d) 1)
      reportLead (setOf m leadLead) (leadOf d (setVtotal m) (setOf m leadLead)) d
    | e => raise (setFld d dsoErr e) 0x0106 0x3B 0 e

/-! ## Start of vertical blanking (Table Output-4) -/

/-- Each enabled check rectangle stores its CRC and compares (R359, R360). -/
def checkRects (n : Nat) (d : Dev) : Dev :=
  (List.range 16).foldl (fun d i =>
    if inForce d (chkEn i) = 0 then d
    else
      let (w, h) := panelOf d n
      let empty := inForce d (chkW i) = 0 || inForce d (chkH i) = 0 || w ≤ inForce d (chkX i) || h ≤ inForce d (chkY i)
      let crc := if empty then 0 else d.ras.crc.get 0xFFFFFFFF i ^^^ 0xFFFFFFFF
      let d := setFlds d [(chkCrc i, crc), (chkOfn i, n)]
      if inForce d (chkCmp i) = 1 && crc ≠ inForce d (chkExp i) then
        raise (bump d (aChkMiss i) 1) 0x0105 0x3B 2 (i + n % 65536 * 65536)
      else d) d

/-- FRAME_DONE of frame `n` and the reports of its ledger. -/
def frameDone (n : Nat) (d : Dev) : Dev :=
  let f := outFrame d n
  let d := raiseStem d (outputStem d n) 0x0103 0x3B 0 n
  let d := setFlds d [(undSubLast, f.subN), (undSubOfn, n)]
  let d := if f.subN = 0 then d else raise d 0x0110 0x3A 2 (f.subN + f.writer % 16 * 65536)
  let d := if f.late = 0 then d else raise d 0x0111 0x3A 0 f.late
  let d := if f.fill = 0 then d else raise d 0x0112 0x40 2 f.fill
  let d := if f.sat = 0 then d else raise d 0x0123 0x3A 0 (min f.sat 65535)
  checkRects n d

/-- Entry into Panel Replay begins: history of every output-keyed pipeline is invalidated (R355). -/
def enterReplay (d : Dev) : Dev :=
  if fld d prState = 1 && !d.ras.entered then
    let b := img0 d
    let hist := (List.range (nTensors b)).filter (fun t => tHist b t && pClass b (tPipe b t) != 0 && pKey b (tPipe b t) == 2)
    hist.foldl (fun d t => requestHist d t 5) { d with ras := { d.ras with entered := true } }
  else d

/-- START_OF_BLANKING: position VACTIVE begins, and the steps of Table Output-4 follow. -/
def blankingOp (nv : NonVol) (d : Dev) : Dev :=
  if !d.ras.running || pos d ≠ vactive d || d.ras.blank then d
  else
    let n := ofn d
    let replay := isReplay d n
    let d := { d with ras := { d.ras with blank := true, phase := 0, sent := [] } }
    let d := if replay then d else takeCommit nv (frameDone n d)
    let d := raiseStem (ringInc d 0x10 1) (outputStem d n) 0x0101 0x3B 0 n
    let d := enterReplay d
    let d := serveReadmits nv (rejoinUnits d)
    let d := if isReplay d (add32 n 1) then d else flipInstant (add32 n 1) d
    match d.inp.clear with
    | some m => if m = n || later n m then clearProtected d else d
    | none => d

def execStartOfBlanking (s : State) : Out := onDev s (blankingOp s.nv)

/-! ## Position 0 (R344, R345, R351, R355, R357) -/

/-- No port in use has a sink that does not report Panel Replay. -/
def replayCapable (d : Dev) : Bool :=
  (List.range 2).all (fun p => !portUsed (inForce d dsoMode) p || d.ras.prCap.testBit p)

/-- DSO_PR.CAP follows the sinks. -/
def updateCap (d : Dev) : Dev := setFld d prCap (replayCapable d && inForce d dsoMode != 0).toNat

/-- A port that the mode does not use reads RATE, LANES and UP 0 (R346). -/
def idlePorts (d : Dev) : Dev :=
  updateCap ((List.range 2).foldl (fun d p =>
    if portUsed (inForce d dsoMode) p then d else setFlds d [(linkRate p, 0), (linkLanes p, 0), (linkUp p, 0), (linkFec p, 0)]) d)

/-- The engine chooses the bits per pixel of a port's DSC stream: the highest from 8.0 to 15.0, in steps of 1/16, at which the
stream fits the trained link; 0 without DSC or a link (R349). The sink's own limit is no operand of the training: a sink that takes 15.0
is supposed (DESIGN CHOICE, log entry 74). -/
def chooseBpp (p : Nat) (d : Dev) : Dev :=
  let rate := htotal d * vtotalNom d * inForce d dsoFrate
  let fits_ (b : Nat) : Bool := decide (rate * b ≤ 16 * (laneRate (fld d (linkRate p)) * laneCount (fld d (linkLanes p)) * 1000000))
  let bpp := if inForce d dsoDscEn = 1 && portUsed (inForce d dsoMode) p && flag d (linkUp p) then
      (((List.range 113).map (240 - ·)).find? fits_).getD 128
    else 0
  { d with ras := { d.ras with dscBpp := d.ras.dscBpp.put 0 p bpp } }

/-- The set taken at VACTIVE is in force from position 0; R57 causes 0x4 and 0x5 are evaluated where the LP is shorter and where the
lead is below MIN_LEAD. -/
def adoptSet (nv : NonVol) (d : Dev) : Dev :=
  match d.ras.newSet with
  | none => { d with ras := { d.ras with mute := d.ras.mute - 1, relead := false } }
  | some m =>
    let old := lpNs d
    let stop := inForce d dsoMode ≠ setOf m dsoMode || inForce d dsoBpc ≠ setOf m dsoBpc || inForce d dsoDscEn ≠ setOf m dsoDscEn
    let d := { d with ras := { d.ras with newSet := none, mute := if stop then 2 else d.ras.mute - 1 } }
    let d := dsoSet.foldl (fun d a => setLive d a (m.get 0 a)) d
    let d := chooseBpp 0 (chooseBpp 1 (idlePorts (placeUnd d)))
    let new := lpNs d
    -- a shorter LP: numerator over denominator falls
    let d := if new.1 * old.2 < old.1 * new.2 then reevaluate nv 4 (fun _ => true) d else d
    let l := leadOf d (vtotalNom d) (inForce d leadLead)
    let d := { d with ras := { d.ras with lead := l, relead := l != d.ras.lead } }
    let b := img0 d
    stumpSteps (reevaluate nv 5 (fun i => match guarStep d b i with | some a => decide (l < certLead b i a) | none => false) d)

/-- Panel Replay at position 0: an entry begun becomes replay; the exit frame ends it. -/
def replayStep (n : Nat) (d : Dev) : Dev :=
  if d.ras.entered then
    raise (setFld { d with ras := { d.ras with entered := false } } prState 2) 0x0108 0x3B 0 2
  else if d.ras.prExit = some n then
    raise (setFld { d with ras := { d.ras with prExit := none } } prState 0) 0x0108 0x3B 0 (d.ras.prCause * 16)
  else d

/-- Output-keyed pipelines of the Graft in force open frame `n`. -/
def openOutput (nv : NonVol) (n : Nat) (d : Dev) : Dev :=
  openFrames nv (((pipesOf (img0 d)).filter (fun p => pKey (img0 d) p == 2)).map (fun p => (p, n))) d

/-- Frame whose line 0 is read next: this frame, unless it is replayed. -/
def readFrom (n : Nat) (d : Dev) : Dev :=
  if d.ras.readOfn = n && !isReplay d n then d
  else { d with ras := { d.ras with readOfn := if isReplay d n then add32 n 1 else n, read := 0 } }

/-- OUTPUT_FRAME_START: the LP at position VTOTAL - 1 has ended and position 0 of the next frame begins (R33). -/
def frameStartOp (nv : NonVol) (d : Dev) : Dev :=
  if !d.ras.running || !d.ras.blank || pos d + 1 ≠ d.ras.vtotal then d
  else
    let n := add32 (ofn d) 1
    let d := setFlds d [(dsoVtLast, d.ras.vtotal), (dsoOfn, n), (dsoPos, 0)]
    let d := { d with ras := { d.ras with blank := false, lmDone := false, phase := 0 }
                      root := { d.root with outAge := d.root.outAge + 1 }
                      clk := { d.clk with lastPos0 := d.devTime.toNat } }
    let d := replayStep n (adoptSet nv d)
    let (d, align) := grovePos0 n d
    let (d, vfp) := cadencePorch align d
    let d := { d with ras := { d.ras with vtotal := inForce d dsoVactive + vfp + inForce d dsoVsync + inForce d dsoVbp } }
    let d := sendLine (readFrom n (latchBase d 0x11 n))
    let d := applyInstant nv d
    let m := add32 n 1
    let d := if hasGraft d && (match d.stem.cad.head? with | some e => e.1 != m | none => true) then cadOpen d m else d
    openOutput nv m d

def execOutputFrameStart (s : State) : Out := onDev s (frameStartOp s.nv)

/-! ## DSO_COMMIT, Panel Replay and links (R347, R350, R355 to R358) -/

/-- DSO_COMMIT: a write of 1 sets PENDING; it abandons an entry into replay or asks for its exit (R358). -/
def commitWriteOp (value : Word) (d : Dev) : Dev :=
  if value.toNat % 2 = 0 then d else setFld (replayExit 6 d) dsoPending 1

def execDsoCommitWrite (value : Word) (s : State) : Out := onDev s (commitWriteOp value)

/-- A write of 1 to DSO_PR.REQ (R355): ignored with ERR, or the entry is due. A request while STATE is not 0 sets REQ and asks for no
entry of its own (DESIGN CHOICE, log entry 9). -/
def replayRequestOp (d : Dev) : Dev :=
  if !replayCapable d || d.root.apply.isSome || flag d dsoPending then setFld d prErr 1
  else if fld d prState ≠ 0 then setFld d prReq 1
  else raise (setFlds d [(prReq, 1), (prState, 1)]) 0x0108 0x3B 0 1

def execPanelReplayRequest (s : State) : Out := onDev s replayRequestOp

/-- A write of 0 to DSO_PR.REQ. -/
def execPanelReplayExitRequest (s : State) : Out := onDev s (fun d => replayExit 1 (setFld d prReq 0))

/-- A sink asks to leave. -/
def execSinkReplayExitRequest (s : State) : Out := onDev s (replayExit 4)

/-- DSO_LINK_CHANGE event of a port. -/
def linkEvent (p : Nat) (d : Dev) : Dev :=
  raise d 0x0510 (0x3B + p) 1 (fld d (linkRate p) + fld d (linkLanes p) * 8 + fld d (linkUp p) * 32)

/-- DSO_LINK_CHANGE: a port's link goes down, or a link that went down sends again with what it was trained with (R347). -/
def linkChangeOp (p : Nat) (up : Bool) (d : Dev) : Dev :=
  if fenced d (0x3B + p) || !portUsed (inForce d dsoMode) p || flag d (linkUp p) = up then d
  else
    let d := setFld d (linkUp p) up.toNat
    linkEvent p (if up then d else replayExit 4 d)

def execDsoLinkChange (port : Fin 2) (up : Bool) (s : State) : Out := onDev s (linkChangeOp port.val up)

/-- DSO_LINK_TRAINING: a port trains within DSO_LCTL; a port that the mode does not use reads RATE, LANES and UP 0 (R346). -/
def linkTrainOp (p rate lanes : Nat) (hpd fec cap : Bool) (d : Dev) : Dev :=
  if fenced d (0x3B + p) then d
  else
    let d := { d with ras := { d.ras with prCap := setBit d.ras.prCap p cap } }
    if portUsed (inForce d dsoMode) p && hpd then
      let r := min rate (min 6 (fld d (dsoMaxRate p)))
      let l := min lanes (min 2 (fld d (dsoMaxLanes p)))
      let up0 := flag d (linkUp p)
      let d := updateCap (setFlds d [(linkRate p, r), (linkLanes p, l), (linkUp p, 1), (linkHpd p, 1), (linkFec p, fec.toNat)])
      let d := chooseBpp p d
      if up0 then d else linkEvent p d
    else
      let up0 := flag d (linkUp p)
      let d := updateCap (setFlds d [(linkRate p, 0), (linkLanes p, 0), (linkUp p, 0), (linkHpd p, hpd.toNat), (linkFec p, 0)])
      if up0 then linkEvent p (replayExit 4 d) else d

/-- DSO_LINK_TRAINING. A lane that failed training at its count retires first (R479, R492). -/
def execDsoLinkTraining (port : Fin 2) (rate lanes : Nat) (hpd fec replayCap : Bool) (failed : Option (Fin 4)) (s : State) : Out :=
  onDev s (fun d => linkTrainOp port.val rate lanes hpd fec replayCap (laneFails s.nv (2 + port.val) failed d))

end Sys2Proof.Machine
end

