-- ==== Sys2Proof/Machine/Security.lean ====
section
/-! DEFINITION. Start-up of the firmware, the board record, signed objects, fuses, identity and attestation, and the Bark
layer's commands (R335, R336, R456 to R474, R520, R521). -/

namespace Sys2Proof.Machine

/-! ## SPI flash (R459) -/

/-- Bytes of the flash; erased bytes read 0xFF. -/
def spiRead (nv : NonVol) (a n : Nat) : Bytes := Map.getN 0xFF nv.spi a n
def spiWrite (nv : NonVol) (a : Nat) (bs : Bytes) : NonVol := { nv with spi := Map.putN 0xFF nv.spi a bs }

def keyBlock (s : Nat) : Nat := 0x1000 + 128 * s
def chainAt : Nat := 0x2000
def bootRec (c : Nat) : Nat := 0x4000 + 32 * c
def fwSlot (s : Nat) : Nat := if s = 0 then 0x100000 else 0x600000

/-! ## Key slots (R457, R459, R465) -/

def slotState (nv : NonVol) (s : Nat) : Nat := bits nv.keyState (2 * s) 2
def setSlotState (nv : NonVol) (s st : Nat) : NonVol :=
  { nv with keyState := nv.keyState - slotState nv s * 4 ^ s + st * 4 ^ s }
def slotKey (nv : NonVol) (s : Nat) : Bytes := spiRead nv (keyBlock s) 97
def keyLoadedFld (s : Nat) : Fld := ⟨0x2010C, 8 + s, 1⟩

/-- The key of an active slot whose hash is the slot's fuse loads. -/
def slotKeyLoads (nv : NonVol) (s : Nat) : Bool :=
  slotState nv s == 1 && ofBe (sha384 (slotKey nv s)) == nv.keyHash.get 0 s

/-- An integrator signature stands under the key of slot `s` (R465). -/
def slotVerifies (nv : NonVol) (d : Dev) (s : Nat) (msg sig : Bytes) : Bool :=
  decide (s < 4) && slotState nv s == 1 && flag d (keyLoadedFld s) && ecdsaVerify (slotKey nv s) msg sig

/-- An object is refused by R465: ROOT_SIG_FAIL and SIG_REJECTED. -/
def sigRejected (object slot : Nat) (d : Dev) : Dev := raise (bump d aSigFail 1) 0x0710 0 0 (object + slot % 4 * 16)

/-! ## The board record (R520) -/

/-- Fields of a record, or of the Fallback column. -/
structure Board where
  cap  : Nat
  rate : Nat
  dens : Option Nat
  ctl  : Nat
  tim  : List Nat
  frate : Nat
  fill : Nat
  lock : Nat
  deriving DecidableEq, Repr

def Board.fallback : Board :=
  { cap := 0, rate := 0, dens := none, ctl := 0x41, tim := [3840, 176, 88, 296, 2160, 8, 10, 72], frate := 60000, fill := 0,
    lock := 0x00401001 }

/-- The DSO set that a record gives. -/
def boardSet (b : Board) : Map Word :=
  let t (i : Nat) : Nat := b.tim.getD i 0
  let pair (i : Nat) : Word := BitVec.ofNat 32 (t i + t (i + 1) * 65536)
  [(0x170000, BitVec.ofNat 32 b.ctl), (0x170004, pair 0), (0x170008, pair 2), (0x17000C, pair 4), (0x170010, pair 6),
   (0x170014, BitVec.ofNat 32 b.frate)]

/-- The record at SPI offset 0 when it is valid. -/
def readBoard (nv : NonVol) : Option Board :=
  let r := spiRead nv 0 4096
  let b : Board :=
    { cap := u8 r 6, rate := u8 r 7, dens := some (u8 r 8), ctl := u8 r 9, tim := (List.range 8).map (fun i => u16 r (16 + 2 * i)),
      frate := u32 r 32, fill := u32 r 36, lock := u32 r 40 }
  let m := boardSet b
  if u32 r 0 = 0x44425A54 ∧ u16 r 4 = 1 ∧ allZero (slice r 10 6) ∧ allZero (slice r 44 4048) ∧ crc32 (r.take 4092) = u32 r 4092 ∧
      b.cap ≤ 3 ∧ b.rate ≤ 4 ∧ u8 r 8 ≤ 2 ∧ b.frate < 2 ^ 19 ∧ b.fill < 2 ^ 30 ∧ b.lock % 4 ≤ 2 ∧ bits b.lock 5 3 = 0 ∧ bits b.lock 8 8 ≠ 0 ∧
      setFieldsOk m ∧ setGradeOk nv.gradeS m ∧ setXclkOk m then some b else none

/-- CLK_CAP, CLK_LOCK, UND_FILL and the DSO set from the record: shadows and values in force together (R521, R544). -/
def loadBoard (nv : NonVol) (d : Dev) : Dev :=
  let b := (readBoard nv).getD Board.fallback
  let m := boardSet b
  let d := setFlds d [(clkCap, b.cap), (undFill, b.fill)]
  let w := BitVec.ofNat 32 b.lock
  let d := setLive (setReg d 0x10020 w) 0x10020 w
  let d := m.foldl (fun d e => setReg d e.1 e.2) d
  let d := dsoSet.foldl (fun d a => setLive d a (reg d a)) d
  let d := setFld d clkXdiv (xdivOf m)
  { d with clk := { d.clk with boardBad := (readBoard nv).isNone, lp6Ceil := b.rate, lp6Dens := b.dens } }

/-- PLL_LOCK: CCLK, FCLK and ACLK start, ACLK at 500 MHz, DEV_TIME at 0; the Boot ROM reads the board record and loads from it (R509,
R520, R521, R544). -/
def execPllLock (s : State) : Out :=
  .next (if s.dev.held = 0 ∧ s.dev.boot = 0 then
    let d := setFlds { s.dev with boot := 1, devTime := 0 } [(clkPllLock, 1), (clkAclk, 0)]
    { s with dev := loadBoard s.nv (setFld d grvTag (tupleTag s.nv d)) } else s)

/-! ## Firmware images (R460 to R463) -/

/-- Checks of Table Security-3 on an image; 0 when it passes. -/
def fwCheck (nv : NonVol) (b : Bytes) : Nat :=
  let len := u32 b 12
  if !(u32 b 0 == 0x57465A54 && u16 b 4 == 1 && decide (u16 b 6 ≤ 1) && decide (u32 b 8 ≤ 64) &&
       decide (64 ≤ len ∧ len ≤ 0x400000 ∧ len % 64 = 0) && allZero (slice b 24 8) && allZero (slice b 129 63) &&
       b.length == 192 + len + 96) then 1
  else if ofBe (sha384 (slice b 32 97)) ≠ nv.fwKeyHash then 2
  else if u32 b 8 < nv.fwCtr then 3
  else if !ecdsaVerify (slice b 32 97) (b.take (192 + len)) (slice b (192 + len) 96) then 4
  else 0

/-- The image that a slot holds, as its LENGTH gives it. -/
def fwImage (nv : NonVol) (s : Nat) : Bytes :=
  let len := u32 (spiRead nv (fwSlot s) 16) 12
  spiRead nv (fwSlot s) (192 + min len 0x400000 + 96)

/-- A boot control record copy: sequence number and slot when it is valid (R462). -/
def bootCopy (nv : NonVol) (c : Nat) : Option (Nat × Nat) :=
  let r := spiRead nv (bootRec c) 32
  if crc32 (r.take 28) = u32 r 28 ∧ allZero (slice r 5 23) ∧ u8 r 4 ≤ 1 then some (u32 r 0, u8 r 4) else none

/-- The copy in force. -/
def bootCopyUsed (nv : NonVol) : Option Nat :=
  match bootCopy nv 0, bootCopy nv 1 with
  | some a, some b => some (if later b.1 a.1 then 1 else 0)
  | some _, none => some 0
  | none, some _ => some 1
  | none, none => none

def preferredSlot (nv : NonVol) : Nat :=
  match bootCopyUsed nv with
  | some c => match bootCopy nv c with | some r => r.2 | none => 0
  | none => 0

/-! ## Identity (R469) -/

/-- Header length and value length of the DER item at `o`. -/
def derItem (b : Bytes) (o : Nat) : Nat × Nat :=
  let l := u8 b (o + 1)
  if l < 0x80 then (2, l) else let n := l - 0x80; (2 + n, ofBe (slice b (o + 2) n))
/-- Offset of the contents of the item at `o`, and of the item after it. -/
def derIn (b : Bytes) (o : Nat) : Nat := o + (derItem b o).1
def derNext (b : Bytes) (o : Nat) : Nat := o + (derItem b o).1 + (derItem b o).2

/-- Serial number and subject public key of an X.509 certificate. -/
def certFields (b : Bytes) : Nat × Bytes :=
  let tbs := derIn b (derIn b 0)
  let ser := if u8 b tbs = 0xA0 then derNext b tbs else tbs
  -- serial, algorithm, issuer, validity, subject, subject public key
  let spki := derNext b (derNext b (derNext b (derNext b (derNext b ser))))
  let bitstr := derNext b (derIn b spki)
  (ofBe (slice b (derIn b ser) (derItem b ser).2), slice b (derIn b bitstr + 1) ((derItem b bitstr).2 - 1))

/-- Certificate `i` of a chain of certificates, each after its u16 length. -/
def chainCert (c : Bytes) : Nat → Bytes
  | 0 => slice c 2 (u16 c 0)
  | i + 1 => chainCert (c.drop (2 + u16 c 0)) i

/-- The identity public key. -/
def identPub (nv : NonVol) : Bytes :=
  match ecMul 384 nv.identKey (some (ecGx, ecGy)) with
  | some (x, y) => 4 :: (be 48 x ++ be 48 y)
  | none => []

def chainOf (nv : NonVol) : Bytes := spiRead nv chainAt 0x2000
/-- CERT_OK as the boot finds it. -/
def certOkAt (nv : NonVol) : Bool := certFields (chainCert (chainOf nv) 0) == (nv.serial, identPub nv)

/-! ## FIRMWARE_STARTED (R461, R463, R495, R521) -/

def bootSlot : Fld := ⟨0x20100, 0, 1⟩
def bootFallback : Fld := ⟨0x20100, 3, 1⟩
def bootFail (s : Nat) : Fld := ⟨0x20100, 4 + 4 * s, 4⟩
def bootCertOk : Fld := ⟨0x20100, 14, 1⟩
def fwSvn : Fld := ⟨0x20104, 0, 8⟩
def fwMeas (i : Nat) : Nat := 0x20130 + 4 * i

/-- Keys of active slots load; the chain is checked. -/
def loadKeys (nv : NonVol) (d : Dev) : Dev :=
  let d := (List.range 4).foldl (fun d s => setFld d (keyLoadedFld s) (slotKeyLoads nv s).toNat) d
  setFld d bootCertOk (certOkAt nv).toNat

/-- Slot `s` is started: FW_CTR is blown up to its SVN when COMMIT_SVN asks for it; the self-test begins. -/
def startImage (s : Nat) (st : State) : State :=
  let b := fwImage st.nv s
  let svn := u32 b 8
  let nv := if u16 b 6 = 1 && decide (st.nv.fwCtr < svn) then { st.nv with fwCtr := svn } else st.nv
  let m := sha384 b
  let d := setFlds st.dev [(bootSlot, s), (fwSvn, svn)]
  let d := (List.range 12).foldl (fun d i => setReg d (fwMeas i) (BitVec.ofNat 32 (u32 m (4 * i)))) d
  { st with nv, dev := progStart { d with boot := 2 } 5 0 4 }

/-- FIRMWARE_STARTED: the Boot ROM has checked the slots; the first that passes runs, or recovery begins. -/
def firmwareStarted (st : State) : State :=
  if st.dev.boot ≠ 1 then st
  else
    let nv := st.nv
    let d := loadKeys nv st.dev
    let p := preferredSlot nv
    let e := fwCheck nv (fwImage nv p)
    if e = 0 then startImage p { st with dev := d }
    else
      let d := setFlds d [(bootFail p, e), (bootFallback, 1)]
      let q := 1 - p
      let f := fwCheck nv (fwImage nv q)
      if f = 0 then startImage q { st with dev := raise d 0x0714 0 1 e }
      else { st with dev := setReg (setFlds { d with boot := 5 } [(bootFail q, f), (bootRecovery, 1)]) 0x1B0090 0 }

def execFirmwareStarted (s : State) : Out := .next (if alive s.dev then firmwareStarted s else s)

/-! ## FW_UPDATE and RESTORE (R464, R468) -/

/-- A transfer of EP2 OUT is announced (R286, R431). -/
def announce (key : Nat) (kind : XferKind) (len : Nat) (d : Dev) : Dev :=
  { d with usb := { d.usb with xfers := d.usb.xfers ++ [{ tag := key, kind, len, got := 0, buf := [], t0 := d.devTime.toNat, lost := false }] } }

def isFwXfer (x : Xfer) : Bool := match x.kind with | .firmware => true | _ => false
def isRestoreXfer (x : Xfer) : Bool := match x.kind with | .restore _ _ => true | _ => false
def isSeedXfer (x : Xfer) : Bool := match x.kind with | .seed => true | _ => false

/-- Slot that an update writes: the one not running, in recovery the one not preferred. -/
def updateSlot (nv : NonVol) (d : Dev) : Nat := 1 - (if inRecovery d then preferredSlot nv else fld d bootSlot)

/-- FW_UPDATE. -/
def fwUpdateOp (nv : NonVol) (len key : Nat) (d : Dev) : Dev :=
  if len < 192 + 64 + 96 || 192 + 0x400000 + 96 < len then complete d key stBadArg []
  else if d.usb.xfers.any (fun x => isFwXfer x || isRestoreXfer x) then complete d key stBusy []
  else progStart (announce key .firmware len d) 6 (updateSlot nv d) (2 * len)

def execFwUpdate (h : Hdr) (len : Nat) (s : State) : Out :=
  onDev s (request (.fwUpdate h len) h 1 0x10 (decide (h.length = 8)) (unlessFenced 3 (fwUpdateOp s.nv len)))

/-- Every byte of the image has arrived and stands in the slot: it is checked, and is recorded as preferred. -/
def fwFinish (x : Xfer) (st : State) : State :=
  let s := updateSlot st.nv st.dev
  let nv := st.nv
  let e := fwCheck nv x.buf
  let d := st.dev
  let fail (status : Nat) (d : Dev) : Dev := progFail (complete (setFld d ⟨progA 6, 10, 6⟩ s) x.tag status []) 6
  if e = 1 then { st with nv, dev := fail stBadArg d }
  else if e ≠ 0 then { st with nv, dev := fail stSigFail (sigRejected 5 0 d) }
  else
    let used := bootCopyUsed nv
    let seq := match used with | some c => (match bootCopy nv c with | some r => add32 r.1 1 | none => 0) | none => 0
    let c := match used with | some c => 1 - c | none => 0
    let r := le 4 seq ++ le 1 s ++ List.replicate 23 0
    let nv := spiWrite nv (bootRec c) (r ++ le 4 (crc32 r))
    let d := raise (progDone d 6) 0x0711 0 0 (s + u32 x.buf 8 * 256)
    let d := if inRecovery d then { d with root := { d.root with fwTag := some x.tag } } else d
    { st with nv, dev := complete d x.tag stOk [] }

/-- RESTORE. -/
def restoreOp (op slot len key : Nat) (d : Dev) : Dev :=
  if !((op = 1 && decide (slot < 4 ∧ len = 97)) || (op = 2 && slot = 0 && decide (1 ≤ len ∧ len ≤ 0x2000))) then complete d key stBadArg []
  else if d.usb.xfers.any isFwXfer then complete d key stBusy []
  else announce key (.restore op slot) len d

def execRestore (h : Hdr) (op slot len : Nat) (s : State) : Out :=
  onDev s (request (.restore h op slot len) h 1 0x10 (decide (h.length = 12)) (unlessFenced 3 (restoreOp op slot len)))

def restoreFinish (op slot : Nat) (x : Xfer) (st : State) : State :=
  if op = 1 then
    if slotState st.nv slot = 1 ∧ ofBe (sha384 x.buf) = st.nv.keyHash.get 0 slot then
      { st with nv := spiWrite st.nv (keyBlock slot) x.buf, dev := complete (setFld st.dev (keyLoadedFld slot) 1) x.tag stOk [] }
    else { st with dev := complete st.dev x.tag stBadArg [] }
  else if (certFields (chainCert x.buf 0)).2 = identPub st.nv then
    { st with nv := spiWrite st.nv chainAt x.buf, dev := complete st.dev x.tag stOk [] }
  else { st with dev := complete st.dev x.tag stBadArg [] }

/-! ## PROVISION and INT_CONTROL (R466, R467) -/

/-- A request whose effect reaches the fuses or the flash: it changes `nv` only when it executes now. -/
def nvRequest (s : State) (i : Instr) (h : Hdr) (ok : Bool) (body : Nat → NonVol → Dev → Dev) (fuse : NonVol → NonVol) : Out :=
  if alive s.dev then
    let runs := ok && h.zerosOk && addrOk h 0x10 && servedNow s.dev i && decide (h.endpoint = 1) &&
      (canRun s.dev h 1 || s.dev.usb.starting == some (tagKey s.dev h.tag))
    let d := request i h 1 0x10 ok (fun key d => body key s.nv d) s.dev
    .next { s with nv := if runs then fuse s.nv else s.nv, dev := d }
  else .next s

/-- PROVISION may act. -/
def provisionOk (nv : NonVol) (op slot : Nat) (bytes : Bytes) : Bool :=
  nv.lifecycle == 1 &&
  (match op with
   | 1 => decide (slot < 4) && slotState nv slot == 0 && bytes.length == 97
   | 2 => slot == 0 && nv.usbWord.isNone && !nv.spoiled.testBit 0 && bytes.length == 4
   | 3 => slot == 0 && !nv.spoiled.testBit 1 && (List.range 4).any (fun s => slotState nv s == 1)
   | _ => false)

/-- The fuses and flash after PROVISION. -/
def provisionFuse (op slot : Nat) (bytes : Bytes) (nv : NonVol) : NonVol :=
  match op with
  | 1 => setSlotState (spiWrite { nv with keyHash := nv.keyHash.put 0 slot (ofBe (sha384 bytes)) } (keyBlock slot) bytes) slot 1
  | 2 => { nv with usbWord := some (ofLe bytes) }
  | _ => { nv with lifecycle := 2 }

/-- PROVISION: OP 1 needs the flash (Table Fault-5). The key just written is loaded (DEDUCED, log entry 17). -/
def provisionOp (op slot : Nat) (bytes : Bytes) (key : Nat) (nv : NonVol) (d : Dev) : Dev :=
  if op = 1 && fenced d 3 then complete d key stFenced []
  else if !provisionOk nv op slot bytes then complete d key stBadArg []
  else complete (if op = 1 then setFld d (keyLoadedFld slot) 1 else d) key stOk []

def execProvision (h : Hdr) (op slot : Nat) (bytes : Bytes) (s : State) : Out :=
  let len := if op = 1 then 105 else if op = 2 then 12 else 8
  nvRequest s (.provision h op slot bytes) h (decide (h.length = len)) (provisionOp op slot bytes)
    (fun nv => if provisionOk nv op slot bytes && !(op = 1 && fenced s.dev 3) then provisionFuse op slot bytes nv else nv)

/-- INT_CONTROL waits for nothing: it is BUSY beside a load, a staging or a Bark command (R467). -/
def controlBusy (d : Dev) : Bool :=
  let s := fld d graftSpace1
  (1 ≤ s && s ≤ 4) || d.usb.xfers.any isSeedXfer || d.cnp.barkPend.isSome

def intControlOp (len key : Nat) (d : Dev) : Dev :=
  if len ≠ 160 then complete d key stBadArg []
  else if controlBusy d then complete d key stBusy []
  else announce key .intControl len d

def execIntControl (h : Hdr) (len : Nat) (s : State) : Out :=
  onDev s (request (.intControl h len) h 1 0x10 (decide (h.length = 8)) (intControlOp len))

/-- Packs whose slot is revoked or whose version fell below the counter are dropped, or with the Graft that holds them. -/
def agePacks (nv : NonVol) (d : Dev) : Dev :=
  dropOldPacks { d with root := { d.root with
    packs := d.root.packs.map (fun p => { p with old := p.old || slotState nv p.slot != 1 || decide (p.svn < nv.intCtr) }) } }

/-- The control object has arrived. -/
def controlFinish (x : Xfer) (st : State) : State :=
  let b := x.buf
  let nv := st.nv
  let d := st.dev
  let slot := u8 b 6
  let arg := u32 b 8
  let ser := ofBe (slice b 12 12)
  let done (status : Nat) (nv : NonVol) (d : Dev) : State := { st with nv, dev := complete d x.tag status [] }
  if controlBusy d then done stBusy nv d
  else if u32 b 0 ≠ 0x43495A54 || u16 b 4 ≠ 1 || !allZero (slice b 24 40) then done stBadArg nv d
  else if !slotVerifies nv d slot (b.take 64) (slice b 64 96) then done stSigFail nv (sigRejected 4 slot d)
  else if ser ≠ 0 && ser ≠ nv.serial then done stBadArg nv d
  else if u8 b 7 = 1 then
    if arg < 4 && slotState nv arg = 1 && (List.range 4).any (fun s => s != arg && slotState nv s == 1) then
      let nv := setSlotState nv arg 2
      done stOk nv (agePacks nv (raise (setFld d (keyLoadedFld arg) 0) 0x0712 0 0 arg))
    else done stBadArg nv d
  else if u8 b 7 = 2 then
    if nv.intCtr < arg && arg ≤ 128 then
      let nv := { nv with intCtr := arg }
      done stOk nv (agePacks nv (raise d 0x0713 0 0 arg))
    else done stBadArg nv d
  else done stBadArg nv d

/-! ## Certificates and attestation (R469 to R471) -/

def certReadOp (nv : NonVol) (index key : Nat) (d : Dev) : Dev :=
  if 2 < index || !flag d bootCertOk then complete d key stBadArg []
  else complete d key stOk (chainCert (chainOf nv) index)

def execCertRead (h : Hdr) (index : Nat) (s : State) : Out :=
  onDev s (request (.certRead h index) h 1 0x10 (decide (h.length = 5)) (certReadOp s.nv index))

/-- Byte strings in ascending order. -/
def bytesLe (a b : Bytes) : Bool := decide (ofBe a ≤ ofBe b)
def insertHash (h : Bytes) : List Bytes → List Bytes
  | [] => [h]
  | x :: xs => if bytesLe h x then h :: x :: xs else x :: insertHash h xs

/-- Bytes 335:0 of the report (Table Security-5). -/
def reportBytes (nv : NonVol) (d : Dev) (nonce : Bytes) : Bytes :=
  let g := hasGraft d
  let flags := g.toNat + (flag d stumpActive).toNat * 2 + fld d bootCertOk * 4 + fld d (hdcpProt 0) * 8
  let ids := d.root.packs.foldl (fun l p => insertHash p.hash l) []
  le 4 0x54415A54 ++ le 2 1 ++ le 2 flags ++ nonce.take 32 ++ be 12 nv.serial ++ le 4 0 ++ le 8 d.devTime.toNat ++
  (List.range 12).flatMap (fun i => le 4 (reg d (fwMeas i)).toNat) ++ le 4 (fld d fwSvn) ++ le 4 nv.fwCtr ++ le 4 nv.intCtr ++
  le 1 nv.keyState ++ le 1 nv.lifecycle ++ le 2 0 ++
  (match d.root.space0 with | some s => s.meas | none => List.replicate 48 0) ++
  le 4 (fld d graftIdLo) ++ le 4 (fld d graftIdHi) ++ le 4 d.root.packs.length ++ le 4 0 ++ sha384 ids.flatten ++
  settingsTuple nv d ++ le 4 (nv.usbWord.getD 0) ++ List.replicate 12 0

/-- ATTEST: the fields are taken in this cycle; one runs at a time. -/
def attestOp (nv : NonVol) (nonce : Bytes) (key : Nat) (d : Dev) : Dev :=
  if d.root.attest.isSome then complete d key stBusy []
  else
    let d := progAt (progStart d 11 0 2) 11 1
    { d with root := { d.root with attest := some (key, reportBytes nv d nonce) } }

def execAttest (h : Hdr) (nonce : Bytes) (s : State) : Out :=
  onDev s (request (.attest h nonce) h 1 0x10 (decide (h.length = 36 ∧ nonce.length = 32)) (attestOp s.nv nonce))

/-- ATTEST_REPORT_SIGNED. The signature is a free value (log entry 5). -/
def reportSignedOp (d : Dev) : Dev :=
  match d.root.attest with
  | none => d
  | some (key, r) =>
    let sig := (List.range 96).map (fun i => (Config.ecdsaSign r d.free).getD i 0)
    let d := { d with root := { d.root with attest := none }, free := d.free + 1 }
    complete (progDone d 11) key stOk (r ++ sig)

def execAttestReportSigned (s : State) : Out := onDev s reportSignedOp

/-! ## Bark commands (R335, R336) -/

/-- A Bark command is refused. -/
def barkReject (status key : Nat) (d : Dev) : Dev := complete (raise d 0x0704 0x3A 0 status) key status []

/-- BARK_COMMAND announces its image. -/
def barkCommandOp (len key : Nat) (d : Dev) : Dev :=
  if len < 160 || 160 + 524288 < len then barkReject stBadArg key d
  else if d.cnp.barkPend.isSome then barkReject stBusy key d
  else announce key .bark len d

def execBarkCommand (h : Hdr) (len : Nat) (s : State) : Out :=
  onDev s (request (.barkCommand h len) h 1 0x10 (decide (h.length = 8)) (unlessFenced 0x3A (barkCommandOp len)))

/-- State words of the Bark layer as `layerSt` reads them. -/
def barkWords (en fmt amode buf sw sh dx dy dw dh la : Nat) : List Word :=
  [BitVec.ofNat 32 (en + fmt * 2 + amode * 2 ^ 5 + buf * 2 ^ 15), BitVec.ofNat 32 (sw + sh * 65536),
   BitVec.ofNat 32 (dx + dy * 65536), BitVec.ofNat 32 (dw + dh * 65536), BitVec.ofNat 32 la]

/-- The image of a Bark command has arrived. -/
def barkFinish (nv : NonVol) (x : Xfer) (d : Dev) : Dev :=
  let b := x.buf
  let op := u8 b 4
  let slot := u8 b 5
  let pay := u32 b 32
  let now := layerSt d.cnp.bark
  let (sw, sh, dx, dy, dw, dh) := (u16 b 12, u16 b 14, u16 b 16, u16 b 18, u16 b 20, u16 b 22)
  if d.cnp.barkPend.isSome then barkReject stBusy x.tag d
  else if u32 b 0 ≠ 0x4B425A54 || b.length ≠ 160 + pay || slot > 3 || !allZero (slice b 7 1) || !allZero (slice b 26 6) ||
      !allZero (slice b 36 28) then barkReject stBadArg x.tag d
  else if !slotVerifies nv d slot (b.take (64 + pay)) (slice b (64 + pay) 96) || !later (u32 b 8) (fld d barkSeq) then
    barkReject stSigFail x.tag (sigRejected 3 slot d)
  else
    let fmt := u8 b 6
    let need := if fmt = 4 then sw * sh + 2048 else sw * sh * 4
    let ok := decide (1 ≤ op ∧ op ≤ 3) && (fmt == 0 || fmt == 4) && decide (u8 b 25 ≤ 1) &&
      (match op with
       | 1 => pay == need && decide (pay ≤ 524288) && scaleFits sw sh dw dh
       | 2 => pay == 0
       | _ => pay == 0 && scaleFits now.sw now.sh dw dh)
    if !ok then barkReject stBadArg x.tag d
    else
      let ws := match op with
        | 1 => barkWords 1 fmt (u8 b 25) (1 - now.buf) sw sh dx dy dw dh (u8 b 24)
        | 2 => barkWords 0 now.fmt (if now.amode = 1 then 1 else 0) now.buf now.sw now.sh (ofS 16 now.dx) (ofS 16 now.dy) now.dw now.dh now.la
        | _ => barkWords now.en.toNat now.fmt (if now.amode = 1 then 1 else 0) now.buf now.sw now.sh dx dy dw dh now.la
      let d := if op = 1 then writeMem d (barkAddr (1 - now.buf)) (slice b 64 pay) else d
      let d := { d with usb := { d.usb with xfers := d.usb.xfers.filter (fun y => y.tag != x.tag) } }
      replayExit 2 { d with cnp := { d.cnp with
        barkPend := some { tag := x.tag, op, seq := u32 b 8, buf := (layerSt ws).buf, fmt := (layerSt ws).fmt, regs := ws } } }

end Sys2Proof.Machine
end

