-- ==== Sys2Proof/Machine/Camera.lean ====
section
/-! DEFINITION. Camera ports, the image pipeline's progress and the exposure masters (R365 to R391). -/

namespace Sys2Proof.Machine

/-! ## Frames (R366, R367, R371, R372, R375, R377) -/

/-- Lines of the port's earlier frames that its line Ring still owes. -/
def camOwed (d : Dev) (p : Nat) : Nat :=
  ((d.cam.frames.filter (fun f => f.port == p)).map (fun f => cH (camImg d f) (camRec d f) - f.done)).sum

/-- A queued exposure of a context joins its I2C bus at a frame start (R385). -/
def beginExposure (c : Nat) (d : Dev) : Dev :=
  match d.cam.expQ.get none c, ctxOff (img0 d) c with
  | some e, some o =>
    let b := cI2c (img0 d) o % 2
    { d with cam := { d.cam with expQ := d.cam.expQ.put none c none, bus := d.cam.bus.put [] b (d.cam.bus.get [] b ++ [(c, e)]) } }
  | _, _ => d

/-- CAM_FRAME_START: the context named takes effect; a frame of a declared context counts, latches its base and opens the pipelines
keyed to it. With the ISP fenced it is dropped at once (Table Fault-5). -/
def camStartOp (nv : NonVol) (p : Nat) (d : Dev) : Dev :=
  if !flag d (camEn p) || fenced d (0x3D + p) || (landing d p).isSome then d
  else
    let d := setLive d (camBase p) (reg d (camBase p))
    let c := inForce d (camCtx p)
    if d.cam.idle.testBit p || !ctxOnPort (img0 d) c p then d
    else
      let cfn := if d.cam.begun.testBit c then add32 (fld d (cxCfn c)) 1 else fld d (cxCfn c)
      let r := camLineRing p
      let base := add32 (ringVal d r) (camOwed d p)
      let f : CamFrame :=
        { port := p, ctx := c, cfn, base, t0 := d.devTime.toNat, out := false, lines := [], chk := 0, clamped := false, short := false,
          ended := false, entered := false, done := 0, newP := false, seq := fld d (cxParamSeq c), params := [], hist := [], awb := [], focus := [], free0 := 0 }
      let d := setFld d (cxCfn c) cfn
      let d := { d with ring := { d.ring with base := d.ring.base.put [] r (((cfn, base) :: d.ring.base.get [] r).take 16) } }
      let isp := !fenced d 0x3F
      let d := { d with cam := { d.cam with begun := setBit d.cam.begun c true, frames := if isp then d.cam.frames ++ [f] else d.cam.frames } }
      let d := if isp then ispStat (setFlds d [(camInFrame p, 1), (camLine p, 0)]) else dropCounts f d
      let d := beginExposure c d
      openFrames nv (((pipesOf (img0 d)).filter (fun q => pKey (img0 d) q == 3 && pCtx (img0 d) q == c)).map (fun q => (q, cfn))) d

def execCamFrameStart (port : Fin 2) (s : State) : Out := onDev s (camStartOp s.nv port.val)

/-- A packed row of elements written into a channel of a tensor line. -/
def writeRow (d : Dev) (sp t slot y c : Nat) (l : List Int) : Dev :=
  let b := imgSp d sp
  let w := tW b t
  let who : Who := { sp, pipe := tPipe b t, pfn := 0, unit := 2, task := 8192, host := true }
  (List.range (cdiv w 64)).foldl (fun d s =>
    let run := (List.range (min w 64)).map (fun i => l.getD (64 * s + i) 0)
    (vwrite d who (tAddr b t slot y c s) (packRun (tFmt b t) run)).1) d

/-- CRC-16 of a line of words (R368). -/
def camCrc (words : List Nat) : Nat := crc16 (words.flatMap (fun w => be 2 w))

/-- CAM_LINE_LANDED: one line of the frame in progress. `check` is the word after it when the context carries check words. A line
with no credit drops its frame (R75, R376). -/
def camLineOp (p : Nat) (samples : List Nat) (check : Nat) (d : Dev) : Dev :=
  match landing d p with
  | none => d
  | some f =>
    let b := camImg d f
    let o := camRec d f
    let w := cW b o
    let y := f.lines.length
    if cH b o ≤ y then setCam d { f with clamped := true }
    else
      match takeCredit d (landKey f) with
      | none =>
        let d := raise (bump d aRingOvf 1) 0x0403 (0x3D + p) 2 (camLineRing p + 65536)
        dropCam f d
      | some d =>
        let words := samples.map (· % 2 ^ cDw b o)
        let bad := cChk b o && decide (words.length ≤ w) && camCrc words != check
        let row := (List.range w).map (fun i => words.getD i 0 * 2 ^ (16 - cDw b o))
        let f := { f with lines := f.lines ++ [row], clamped := f.clamped || decide (w < words.length),
                          short := f.short || decide (words.length < w), chk := f.chk + bad.toNat }
        let d := if bad then bump d (aCamChkErr p) 1 else d
        let t := cLand b o
        let x := add32 f.base y
        let d := writeRow (setFld (setCam d f) (camLine p) (y + 1)) f.out.toNat t 0 (x % max 1 (tH b t)) 0 (row.map (fun (v : Nat) => (v : Int)))
        lineWritten d (landKey f) x [0]

def execCamLineLanded (port : Fin 2) (samples : List Nat) (checkWord : BitVec 16) (s : State) : Out :=
  onDev s (camLineOp port.val samples checkWord.toNat)

def execCamFrameEnd (port : Fin 2) (s : State) : Out := onDev s (camEnd port.val)

/-- CAM_PCLK_MEASURE. -/
def execCamPclkMeasure (port : Fin 2) (khz : Nat) (s : State) : Out :=
  onDev s (fun d => setFld d (camPclk port.val) (min khz (2 ^ 18 - 1)))

/-- CAM_CTL: EN, and CTX when it names a declared context of the port; EN falling ends the frame in progress (R367, R371, R493). -/
def camCtlOp (p : Nat) (value : Word) (d : Dev) : Dev :=
  if fenced d (0x3D + p) then d
  else
    let v := value.toNat
    let c := bits v 1 3
    let d := if ctxOnPort (img0 d) c p then
        setFld { d with cam := { d.cam with idle := setBit d.cam.idle p false } } (camCtx p) c else d
    if v % 2 = 0 then setFld (if flag d (camEn p) then camEnd p d else d) (camEn p) 0 else setFld d (camEn p) 1

def execCamCtlWrite (port : Fin 2) (value : Word) (s : State) : Out := onDev s (camCtlOp port.val value)

/-! ## The ISP (R376 to R384) -/

/-- Complete parameters of a context apply at the entry of its frame (R384). -/
def applyParams (f : CamFrame) (d : Dev) : Dev × Bool :=
  match d.cam.pend.get none f.ctx with
  | some (tag, some ps) =>
    if f.out then (d, false)
    else
      let d := { d with cam := { d.cam with pend := d.cam.pend.put none f.ctx none, params := Map.put [] d.cam.params f.ctx ps } }
      let d := setFlds d [(cxParamPend f.ctx, 0), (cxParamSeq f.ctx, fld d (cxParamSeq f.ctx) + 1)]
      (raise (complete d tag stOk []) 0x0605 (0x3D + f.port) 0 (f.ctx + f.cfn % 65536 * 65536), true)
  | _ => (d, false)

/-- ISP_FRAME_ENTER: the oldest frame enters when the ISP holds none. -/
def ispEnterOp (d : Dev) : Dev :=
  match d.cam.frames with
  | f :: _ =>
    if fenced d 0x3F || d.cam.frames.any (·.entered) then d
    else
      let (d, newP) := applyParams f d
      let ps := if f.out then f.params else ctxParams d f.ctx
      let n := cW (camImg d f) (camRec d f) * cH (camImg d f) (camRec d f) * 5
      let d := setCam d { f with entered := true, newP, params := ps, seq := fld d (cxParamSeq f.ctx), free0 := d.free }
      ispStat { d with free := d.free + n }
  | [] => d

def execIspFrameEnter (s : State) : Out := onDev s ispEnterOp

/-- The pipeline's view of a frame. -/
def ispIn (d : Dev) (f : CamFrame) : IspIn :=
  let b := camImg d f
  let o := camRec d f
  { q := f.params, w := cW b o, h := cH b o, cfa := cCfa b o, px := cPx b o, py := cPy b o, lines := f.lines, fr := f.free0 }

/-- Line `y` of the outputs of a context (R380). -/
def ispRows (f : CamFrame) (y : Nat) (d : Dev) : Dev :=
  let b := camImg d f
  let o := camRec d f
  let e := ispIn d f
  let xs := List.range e.w
  let put (t c : Nat) (v : Nat → Int) (d : Dev) : Dev :=
    if t < nTensors b then writeRow d f.out.toNat t (f.cfn % max 1 (tSlots b t)) y c (xs.map v) else d
  let d := (List.range 3).foldl (fun d c => put (cOut b o) c (fun x => ispOut (cOutFmt b o) (e.s9 x y c)) d) d
  let d := put (cAux b o) 0 (fun x => min 4095 (rhe (e.s4 x y 3) 4)) d
  match cTap b o with
  | 1 => put (cTapt b o) 0 (fun x => e.raw x y) d
  | 2 => put (cTapt b o) 0 (fun x => (e.s3 x y).1) d
  | 3 => (List.range (tapFmtChans b o)).foldl (fun d c => put (cTapt b o) c (fun x => e.s4 x y c) d) d
  | _ => d

/-- The ISP may process the next line `y`: landed line min(y + 3, H − 1) is present (R377). -/
def ispLineReady (d : Dev) (f : CamFrame) : Bool :=
  let h := cH (camImg d f) (camRec d f)
  f.entered && decide (f.done < h) && decide (min (f.done + 4) h ≤ f.lines.length)

/-- ISP_LINE_PROCESSED: the next line of the frame in the ISP is written to every output and counted. -/
def ispLineOp (d : Dev) : Dev :=
  match d.cam.frames.find? (·.entered) with
  | none => d
  | some f =>
    if fenced d 0x3F || !ispLineReady d f then d
    else
      let y := f.done
      let e := ispIn d f
      let n := ispCounts e y
      let d := bump (bump (ispRows f y d) aIspDpc n.1) aIspSat n.2
      let d := setCam d { ispStats e y f with done := y + 1 }
      ringInc (finishLines d (landKey f) 0 (add32 f.base (y + 1)) [0]) (camLineRing f.port) 1

/-- ISP_LINE_PROCESSED, with the words of its line buffers that fail their parity (R475). -/
def execIspLineProcessed (parity : List Word) (s : State) : Out :=
  onDev s (fun d => if d.cam.frames.any (ispLineReady d) then parityErrs s.nv 196 (parity.map (·.toNat)) (ispLineOp d) else d)

/-- The statistics record of a completed frame. -/
def statsBytes (d : Dev) (f : CamFrame) : Bytes :=
  camHeader d f false ++ (List.range 256).flatMap (fun i => le 4 (f.hist.get 0 i)) ++
  (List.range 768).flatMap (fun i => le 4 (f.awb.get 0 i)) ++ (List.range 192).flatMap (fun i => le 4 (f.focus.get 0 i))

/-- ISP_FRAME_COMPLETE: the last line is written; the statistics record is written, and then the frame Ring adds 1. -/
def ispCompleteOp (d : Dev) : Dev :=
  match d.cam.frames.find? (·.entered) with
  | none => d
  | some f =>
    if fenced d 0x3F || f.done < cH (camImg d f) (camRec d f) || !f.ended then d
    else
      let d := camLast f false (writeStats f (statsBytes d f) d)
      ispStat (ringInc (removeCam d f) (camFrameRing f.port) 1)

def execIspFrameComplete (s : State) : Out := onDev s ispCompleteOp

/-- The port of a declared context is fenced or retired: the context is disabled (R493). -/
def ctxDisabled (d : Dev) (c : Nat) : Bool :=
  match ctxOff (img0 d) c with | some o => fenced d (0x3D + u8 (img0 d) (o + 1)) | none => false

/-- ISP_PARAMS announces bytes of the pending copy of a context (R383). -/
def ispParamsOp (c off len key : Nat) (d : Dev) : Dev :=
  if ctxDisabled d c then complete d key stFenced []
  else if (ctxOff (img0 d) c).isNone || paramBytes < off + len then complete d key stBadArg []
  else if (d.cam.pend.get none c).isSome then complete d key stBusy []
  else if len = 0 then
    setFld { d with cam := { d.cam with pend := d.cam.pend.put none c (some (key, some (ctxParams d c))) } } (cxParamPend c) 1
  else announce key (.isp c off) len (setFld { d with cam := { d.cam with pend := d.cam.pend.put none c (some (key, none)) } } (cxParamPend c) 1)

def execIspParams (h : Hdr) (ctx offset len : Nat) (s : State) : Out :=
  onDev s (request (.ispParams h ctx offset len) h 1 0x10 (decide (h.length = 16)) (unlessFenced 0x3F (ispParamsOp ctx offset len)))

/-- A pending ISP_PARAMS ends with a status. -/
def ispParamsEnd (c key status : Nat) (d : Dev) : Dev :=
  complete (setFld { d with cam := { d.cam with pend := d.cam.pend.put none c none } } (cxParamPend c) 0) key status []

/-- Every byte of an ISP_PARAMS has arrived: the resulting parameters wait for a frame, or are refused. -/
def ispParamsFinish (c off : Nat) (x : Xfer) (d : Dev) : Dev :=
  let old := ctxParams d c
  let ps := old.take off ++ x.buf ++ old.drop (off + x.buf.length)
  let o := (ctxOff (img0 d) c).getD 0
  if (paramFlaws ps (cW (img0 d) o) (cH (img0 d) o)).isEmpty then
    { d with usb := { d.usb with xfers := d.usb.xfers.filter (fun y => y.tag != x.tag) }
             cam := { d.cam with pend := d.cam.pend.put none c (some (x.tag, some ps)) } }
  else ispParamsEnd c x.tag stBadArg d

/-! ## Exposure (R385 to R389) -/

/-- CAM_CX_EXPREQ2: DGAIN is kept, and GO queues the exposure or replaces one that has not begun. -/
def exposureGoOp (c : Nat) (value : Word) (d : Dev) : Dev :=
  let v := value.toNat
  let d := setFld d (cxReqDgain c) (v % 65536)
  if bits v 16 1 = 0 || (ctxOff (img0 d) c).isNone || ctxDisabled d c then d
  else
    let e := (fld d (cxReqLines c), fld d (cxReqAgain c), v % 65536)
    let d := setFld d (cxQueued c) 1
    if d.cam.bus.any (fun l => (l.2.drop 1).any (fun x => x.1 == c)) then
      { d with cam := { d.cam with bus := d.cam.bus.map (fun l => (l.1, l.2.take 1 ++ (l.2.drop 1).map (fun x => if x.1 == c then (c, e) else x))) } }
    else { d with cam := { d.cam with expQ := d.cam.expQ.put none c (some e) } }

def execExposureGo (ctx : Fin 8) (value : Word) (s : State) : Out := onDev s (exposureGoOp ctx.val value)

/-- The transaction at the head of a bus ends; QUEUED clears unless another exposure of the context waits. -/
def busNext (b c : Nat) (d : Dev) : Dev :=
  let d := { d with cam := { d.cam with bus := d.cam.bus.put [] b ((d.cam.bus.get [] b).drop 1) } }
  let more := (d.cam.expQ.get none c).isSome || d.cam.bus.any (fun l => l.2.any (fun x => x.1 == c))
  if more then d else setFld d (cxQueued c) 0

/-- I2C_EXPOSURE_DONE: the last write of the exposure completes; it governs frame CFN + 1 + DELAY (R388). -/
def exposureDoneOp (b : Nat) (d : Dev) : Dev :=
  match d.cam.bus.get [] b with
  | [] => d
  | (c, e) :: _ =>
    let d := match ctxOff (img0 d) c with
      | some o =>
        let g := add32 (fld d (cxCfn c)) (1 + cDelay (img0 d) o)
        { d with cam := { d.cam with expRec := d.cam.expRec.put [] c (((g, e) :: d.cam.expRec.get [] c).take 64) } }
      | none => d
    busNext b c d

def execI2cExposureDone (bus : Fin 2) (s : State) : Out := onDev s (exposureDoneOp bus.val)

/-- CAM_I2C_NAK: the sensor does not acknowledge a byte; the exposure is abandoned (R386). -/
def i2cNakOp (b entry byte : Nat) (d : Dev) : Dev :=
  match d.cam.bus.get [] b with
  | [] => d
  | (c, _) :: _ =>
    let p := match ctxOff (img0 d) c with | some o => u8 (img0 d) (o + 1) % 2 | none => 0
    busNext b c (raise (bump d (aCamNak p) 1) 0x0604 (0x3D + p) 1 (c + entry % 4 * 16 + byte % 256 * 256))

def execCamI2cNak (bus : Fin 2) (entry byte : Nat) (s : State) : Out := onDev s (i2cNakOp bus.val entry byte)

end Sys2Proof.Machine
end

