-- ==== Sys2Proof/Machine/GraftCheck.lean ====
section
/-! DEFINITION. Load-time rules of a Graft, but for its tile programs: header, directory, STRUCTURE, TENSORS, TASKS, RINGS, TABLES,
SEEDREFS, CANOPY, ISP, GROVE and SCHEDCERT (R268 to R284). -/

namespace Sys2Proof.Machine

/-- A fault of an image: the code of its section, 0 for header and directory, and the byte offset of the faulty item. -/
abbrev Flaw := Nat × Nat

def must (ok : Bool) (sec off : Nat) : List Flaw := if ok then [] else [(sec, off)]
/-- `n` bytes from `o` are zero. -/
def zeros (b : Bytes) (o n : Nat) : Bool := allZero (slice b o n)
/-- Every bit of `v` is one of `m`. -/
def inMask (v m : Nat) : Bool := v &&& m == v
/-- The fault recorded is the one of lowest offset (log entry 50). -/
def firstFlaw : List Flaw → Option Flaw
  | [] => none
  | f :: fs => some (fs.foldl (fun x y => if y.2 < x.2 then y else x) f)
/-- No value occurs twice. -/
def distinct (l : List Nat) : Bool := l.eraseDups.length == l.length
/-- `0 .. n - 1` with every item's faults joined. -/
def each (n : Nat) (f : Nat → List Flaw) : List Flaw := (List.range n).flatMap f

/-! ## Phase 2: header and directory (R268, R269) -/

def headerFlaws (nv : NonVol) (b : Bytes) : List Flaw :=
  must (u32 b 0 == 0x46475A54) 0 0 ++ must (u16 b 4 == 1) 0 4 ++ must (decide (7 ≤ u16 b 6 ∧ u16 b 6 ≤ 12)) 0 6 ++
  must (u32 b 8 == b.length) 0 8 ++ must (decide (u8 b 12 ≤ 3)) 0 12 ++ must (zeros b 13 3) 0 13 ++
  must (u32 b 16 == genSettings nv) 0 16 ++ must (zeros b 32 32) 0 32

/-- Section codes that are listed (Table Glance-10), and those required. -/
def sectCodes : List Nat := [1, 2, 3, 4, 5, 6, 7, 8, 9, 0xA, 0xB, 0xFF]
def sectRequired : List Nat := [1, 2, 3, 4, 5, 0xA, 0xFF]

def directoryFlaws (b : Bytes) : List Flaw :=
  let n := min 12 (u16 b 6)
  let dir := (gDir b).take n
  let sig := gOff b 0xFF
  let overlap (x y : Nat × Nat × Nat) : Bool := decide (x.2.1 < y.2.1 + y.2.2 ∧ y.2.1 < x.2.1 + x.2.2)
  each n (fun i =>
    let o := 64 + 16 * i
    let e := dir.getD i (0, 0, 0)
    must (sectCodes.contains e.1 && zeros b (o + 1) 3 && (i == 0 || decide ((dir.getD (i - 1) (0, 0, 0)).1 < e.1))) 0 o ++
    must (e.2.1 % 64 == 0 && decide (64 + 16 * n ≤ e.2.1) && !((dir.take i).any (overlap e))) 0 (o + 4) ++
    must (decide (e.2.1 + e.2.2 ≤ b.length) && (if e.1 = 0xFF then e.2.2 == 96 else decide (e.2.1 + e.2.2 ≤ sig))) 0 (o + 8) ++
    must (zeros b (o + 12) 4) 0 (o + 12)) ++
  sectRequired.flatMap (fun c => must (gHas b c) 0 64)

/-! ## Section lengths -/

/-- Offset of each tile program record, and room for it in the section (R207, R271). -/
def progFits (b : Bytes) (q : Nat) : Bool :=
  let p := progOff b q
  let e := gOff b 4 + gLen b 4
  u32 b (gOff b 4 + 4 + 4 * q) % 16 == 0 && decide (gOff b 4 + 4 + 4 * nProgs b ≤ p) && decide (p + 64 ≤ e) &&
  decide (instrOff b p 4 0 ≤ e)

/-- TABLES is a run of whole records. -/
def tablesEnd (b : Bytes) : Nat :=
  match (gTables b).getLast? with
  | none => gOff b 6
  | some r => r.2 + (match r.1 with | 1 => 512 | 2 => 1032 | 3 => 16 | _ => 0)

/-- Sections whose length their contents give. -/
def layoutFlaws (b : Bytes) : List Flaw :=
  must (decide (0x360 + 32 * gNbset b ≤ gLen b 1)) 1 (sOff b) ++
  must (gLen b 2 % 32 == 0 && decide (nTensors b ≤ 4096)) 2 (gOff b 2) ++
  must (gLen b 3 % 64 == 0 && decide (1 ≤ nTasks b ∧ nTasks b ≤ 1024)) 3 (gOff b 3) ++
  must (decide (4 ≤ gLen b 4 ∧ 1 ≤ nProgs b ∧ nProgs b ≤ 1024)) 4 (gOff b 4) ++
  each (min 1024 (nProgs b)) (fun q => must (progFits b q) 4 (gOff b 4 + 4 + 4 * q)) ++
  must (gLen b 5 % 8 == 0) 5 (gOff b 5) ++
  must (tablesEnd b == gOff b 6 + gLen b 6) 6 (tablesEnd b) ++
  must (gLen b 7 % 64 == 0) 7 (gOff b 7) ++
  must (!gHas b 8 || gLen b 8 == 32 + 48 * u8 b (gOff b 8)) 8 (gOff b 8) ++
  must (!gHas b 9 || gLen b 9 == 64 + 0xA640 * u8 b (iOff b)) 9 (iOff b) ++
  must (gLen b 0xA == 64 + 64 * nCert b && zeros b (gOff b 0xA + 50) 14) 0xA (gOff b 0xA + 48) ++
  must (!gHas b 0xB || gLen b 0xB == 0x10C0 + 8 * gvN b) 0xB (gvOff b)

/-! ## STRUCTURE (R48, R273 to R276) -/

def globalFlaws (b : Bytes) : List Flaw :=
  let s := sOff b
  let step (v : Nat) : Bool := decide (0x4000 ≤ v ∧ v ≤ 0x20000)
  must (decide (u8 b s < 64) && gUndSrc b != 3) 1 s ++ must (decide (1 ≤ gNbset b ∧ gNbset b ≤ 64)) 1 (s + 1) ++
  must (decide (1 ≤ gCadLen b ∧ gCadLen b ≤ 16)) 1 (s + 2) ++ must (zeros b (s + 3) 1) 1 (s + 3) ++
  must (zeros b (s + 6) 2) 1 (s + 6) ++ must (step (gHstep b)) 1 (s + 8) ++ must (step (gVstep b)) 1 (s + 12) ++
  must (decide (gSpill b ≤ 262144)) 1 (s + 16) ++ must (zeros b (s + 24) 40) 1 (s + 24) ++
  must (gUndMode b == 0 || (boundTensor b 4).isSome) 1 s

/-- Pipeline records: ranges, one Stem each, bank groups owned once and not shared. -/
def pipeFlaws (b : Bytes) : List Flaw :=
  each 4 (fun p =>
    let o := gPipe b p
    let used := pClass b p != 0
    let before := (pipesOf b).filter (fun q => decide (q < p))
    must (decide (u8 b o < 3)) 1 o ++
    must (decide (u8 b (o + 1) < 4) && (!used || !(before.any (fun q => pStem b q == pStem b p)))) 1 (o + 1) ++
    must (decide (u8 b (o + 2) < 8) && (!used || decide (pKey b p ≤ 4))) 1 (o + 2) ++
    must (decide (u8 b (o + 3) < 16) && (!used || pKey b p != 3 || decide (pCtx b p ≤ 7))) 1 (o + 3) ++
    must (!used || (pGroups b p &&& gShared b == 0 && before.all (fun q => pGroups b q &&& pGroups b p == 0))) 1 (o + 4) ++
    must (zeros b (o + 6) 26) 1 (o + 6))

def cadenceFlaws (b : Bytes) : List Flaw :=
  each 16 (fun i =>
    let e := cadEntry b i
    must (decide (e < 64) && (decide (gCadLen b ≤ i) || e % 16 == 15 || (decide (e % 16 < 4) && pClass b (e % 16) != 0)))
      1 (sOff b + 0xC0 + 2 * i))

/-- Wheel entries: STEM, VALID, QUANTUM; valid ones come first, and none on a Branch that the grade lacks (R2). -/
def wheelFlaws (nv : NonVol) (b : Bytes) : List Flaw :=
  each 16 (fun n => each 8 (fun i =>
    let e := wheelEntry b n i
    let ok := bits e 7 1 == 1
    must (bits e 2 5 == 0 && bits e 8 8 == 0 && (!ok || decide (n < branchCount nv) && ( (decide (1 ≤ bits e 16 16 ∧ bits e 16 16 ≤ 4096) &&
      (i == 0 || bits (wheelEntry b n (i - 1)) 7 1 == 1))))) 1 (sOff b + 0xE0 + 32 * n + 4 * i)))

/-- Multicast trees name Branches that the grade has (R2, R275). -/
def treeFlaws (nv : NonVol) (b : Bytes) : List Flaw :=
  each 64 (fun t => must (decide (treeMask b t < 2 ^ branchCount nv)) 1 (sOff b + 0x2E0 + 2 * t))

/-- Branch sets: members on the grade, each once, in ring order of the halo direction, which may start anywhere. -/
def bsetOk (nv : NonVol) (b : Bytes) (i : Nat) : Bool :=
  let o := bsetOff b i
  let n := u8 b o
  let l := bsetList b i
  let up (l : List Nat) : Nat := ((List.range l.length).filter (fun j => decide (l.getD j 0 < l.getD ((j + 1) % l.length) 0))).length
  let ring := if gHaloDir b = 0 then up l else up l.reverse
  decide (1 ≤ n ∧ n ≤ 16) && zeros b (o + 1) 1 && l.all (fun x => decide (x < branchCount nv)) && distinct l &&
  decide (n ≤ 1 ∨ ring + 1 = n) && (slice b (o + 2 + n) (16 - n)).all (fun x => x == 0xFF) && zeros b (o + 18) 14

def structureFlaws (nv : NonVol) (b : Bytes) : List Flaw :=
  globalFlaws b ++ pipeFlaws b ++ cadenceFlaws b ++ wheelFlaws nv b ++ treeFlaws nv b ++
  each (min 64 (gNbset b)) (fun i => must (bsetOk nv b i) 1 (bsetOff b i))

/-! ## TENSORS (R66, R94, R110, R113, R259, R277, R303) -/

/-- A tensor whose tiles some plane load expands: a weight tensor. -/
def isWeight (b : Bytes) (t : Nat) : Bool :=
  (List.range (nProgs b)).any (fun q =>
    let p := progOff b q
    (instrsOf b p).any (fun e =>
      let i := e.2.2
      let c := coordAt b p i.ca
      (i.op == 0xC && c.index == t) ||
      (i.isPlane && (if c.trunk then c.index == t else readTensor b p c.index == some t || weightTensor b p c.index == some t))))

/-- Rules of a buffer whose producer is hardware. -/
def bindOk (b : Bytes) (t : Nat) : Bool :=
  match tBind b t with
  | 0 => true
  | 1 => tFmt b t == 5 && tC b t == 3 && tClass b t == 2
  | 2 => tFmt b t == 5 && tC b t == 3 && tClass b t == 2
  | 3 => tClass b t == 0 && tFmt b t == 0xF && tPix b t == 3 && tW b t == gFbW b && tH b t == gFbH b && tSlots b t == gFbSlots b + 1
  | 4 => tClass b t == 0 && tSlots b t == 2
  | 5 => true
  | _ => false

/-- A class code of Table Trunk-3 and the other ranges of Table Graft-5. -/
def tensorFlaws (b : Bytes) : List Flaw :=
  let n := nTensors b
  each n (fun t =>
    let o := tOff b t
    let f := tFmt b t
    let pix := f == 0xF
    let book := f == 9 || f == 0xA
    let zp := tZp b t
    must (decide (1 ≤ tW b t)) 2 o ++ must (decide (1 ≤ tH b t)) 2 (o + 2) ++
    must (decide (1 ≤ tC b t ∧ tC b t ≤ 4096) && (!pix || tC b t == 1)) 2 (o + 4) ++
    must ((fmtOk f && tPix b t == 0) || (pix && [0, 1, 3].contains (tPix b t))) 2 (o + 6) ++
    must (decide (u8 b (o + 7) < 8) && (!tHist b t || tReaders b t == 0)) 2 (o + 7) ++
    must (decide (1 ≤ tSlots b t ∧ tSlots b t ≤ 15)) 2 (o + 8) ++
    must (zp == 0 || (fmtZp f && decide ((zp : Int) ≤ fmtHi f) && !isWeight b t)) 2 (o + 10) ++
    must (tRel b t == 0 || (ringDecl b (tRel b t)).isSome) 2 (o + 12) ++
    must (if tHist b t then
        (match ringDecl b (tValid b t) with | some e => e.kind == 3 | none => false) && validRingOf b (tValid b t) == some t
      else tValid b t == 0) 2 (o + 14) ++
    must (decide (u24 b (o + 16) < 2 ^ 20)) 2 (o + 16) ++ must (decide (u24 b (o + 19) < 2 ^ 20)) 2 (o + 19) ++
    must (decide (u8 b (o + 22) < 4) && pClass b (tPipe b t) != 0) 2 (o + 22) ++
    must (bindOk b t && !((List.range t).any (fun u => tBind b u == tBind b t && tBind b t != 0 &&
      (tBind b t != 5 || tCtx b u == tCtx b t)))) 2 (o + 23) ++
    must ((f == 9 || tSub b t == 0) && (tBind b t == 5 || tCtx b t == 0) && decide (tCtx b t ≤ 7)) 2 (o + 24) ++
    must (zeros b (o + 25) 1) 2 (o + 25) ++
    must (tSeed b t == 0xFFFF || (decide (tSeed b t < nSeeds b) && seedTensor b (tSeed b t) == t)) 2 (o + 26) ++
    must (if book then ((gTables b).getD (tCb b t) (0, 0)).1 == 1 else tCb b t == 0) 2 (o + 28) ++
    must (zeros b (o + 30) 2) 2 (o + 30)) ++
  must ((boundTensor b 3).isSome) 2 (gOff b 2) ++
  must (decide (tVpn b n ≤ 2 ^ 18)) 2 (gOff b 2)

/-! ## RINGS, TABLES, SEEDREFS (R106, R113, R121, R181, R241, R278 to R281) -/

/-- Tasks that signal a Ring through SIG or DONE_RING. -/
def signallers (b : Bytes) (r : Nat) : List Nat :=
  (List.range (nTasks b)).filter (fun k => (kSigs b k).contains r || (kDone b k == r && r != 0))

def ringFlaws (b : Bytes) : List Flaw :=
  each (nRings b) (fun i =>
    let o := gOff b 5 + 8 * i
    let (r, e) := ringEntry b i
    must (decide (0x400 ≤ r) && !((List.range i).any (fun j => (ringEntry b j).1 == r))) 5 o ++
    must (e.kind == 2 || e.kind == 3) 5 (o + 2) ++
    must (inMask (u8 b (o + 3)) 0x31 && (!(e.kind == 2 && e.host) || pClass b e.pipe != 0)) 5 (o + 3) ++
    must (if e.kind = 2 then decide (1 ≤ e.total ∧ e.total ≤ 0x7FFFFFFF) else e.total == 0) 5 (o + 4) ++
    must (e.kind != 2 || decide ((signallers b r).length + e.host.toNat ≤ 1)) 5 o)

/-- Instructions that name scale step `n`, with their programs. -/
def stepUses (b : Bytes) (n : Nat) : List (Nat × TInstr) :=
  (List.range (nProgs b)).flatMap (fun q =>
    ((instrsOf b (progOff b q)).filter (fun e => e.2.2.ostep == some n)).map (fun e => (progOff b q, e.2.2)))

/-- A MEASURED or CARRIED record (R122, R124): `i` is the Grove index. -/
def stepRecOk (b : Bytes) (i n : Nat) : Bool :=
  let o := ostepOff b n
  let s := ostepAt b n
  let m := u8 b (o + 4)
  decide (bits m 2 3 ≤ 4) && bits m 5 2 != 3 && s.quietN != 0 && decide (-64 ≤ s.emin ∧ s.emin ≤ s.emax ∧ s.emax ≤ 63) &&
  scaleM s.init != 0 && decide (s.emin ≤ scaleE s.init ∧ scaleE s.init ≤ s.emax) &&
  decide (s.table < nTensors b) && tClass b s.table == 0 &&
  !((List.range n).any (fun k => (ostepAt b k).mode != 0 && (ostepAt b k).table == s.table)) &&
  match stepTensor b n with
  | none => true
  | some t =>
    let c := cellsOf b i s t
    let (px, py) := placeOf b i t
    let edge (p : Place) (len : Nat) (cell : Nat) : Bool :=
      (decide (p.org ≤ p.lo) || p.org % (cell : Int) == 0) &&
      (decide (p.hi ≤ p.org + len) || (p.org + len) % (cell : Int) == 0)
    tFmt b t != 9 && tFmt b t != 0xA && usableRange (tFmt b t) (tZp b t) != 0 &&
    tPages b s.table == cdiv (32 * c.count) 0x10000 &&
    (stepUses b n).all (fun u => hOut b u.1 == t) &&
    (if s.cw = 0 then decide (px.org ≤ px.lo ∧ px.hi ≤ px.org + tW b t) else edge px (tW b t) s.cw) && edge py (tH b t) s.ch

def tableFlaws (b : Bytes) (i : Nat) : List Flaw :=
  (gTables b).flatMap (fun r =>
    must (decide (1 ≤ r.1 ∧ r.1 ≤ 3) && zeros b (r.2 - 7) 7) 6 (r.2 - 8) ++
    (match r.1 with
     | 1 => must ((List.range 256).all (fun k => let v := toS 16 (u16 b (r.2 + 2 * k)); decide (-2048 ≤ v ∧ v ≤ 2047))) 6 r.2
     | 2 => must (decide (u8 b (r.2 + 4) ≤ 24) && zeros b (r.2 + 5) 3) 6 (r.2 + 4)
     | _ => [])) ++
  each (nOsteps b) (fun n =>
    let o := ostepOff b n
    let s := ostepAt b n
    must (scaleOk s.init) 6 o ++ must (s.mode != 3) 6 (o + 4) ++ must (zeros b (o + 9) 1) 6 (o + 9) ++
    must (zeros b (o + 12) 4) 6 (o + 12) ++ must (s.mode == 0 || stepRecOk b i n) 6 o)

/-- A tensor that some task writes. -/
def written (b : Bytes) (t : Nat) : Bool := (List.range (nTasks b)).any (fun k => (kOuts b k).contains t)

/-- Bytes of a tensor over all its frame slots (R281); the payload holds them one after another (DEDUCED, log entry 50). -/
def seedBytes (b : Bytes) (t : Nat) : Nat := tSlots b t * tFrameBytes b t

/-- SEEDREFS; the length of a staged pack's payload is checked with them. -/
def seedFlaws (d : Dev) (b : Bytes) : List Flaw :=
  each (nSeeds b) (fun i =>
    let o := gOff b 7 + 64 * i
    let t := seedTensor b i
    must (decide (t < nTensors b) && tSeed b t == i && tReaders b t == 0 && tClass b t != 2 && !written b t &&
      (match packOf d b i with | some p => p.len == seedBytes b t | none => true)) 7 (o + 48) ++
    must (zeros b (o + 50) 14) 7 (o + 50))

/-! ## TASKS (R241, R244, R248, R251, R253, R258, R332) -/

/-- A Ring that a task or TWAIT waits on may be named (R241, R251). -/
def waitRingOk (b : Bytes) (r : Nat) : Bool :=
  decide (r < 0x400) || (match ringDecl b r with | some e => e.kind == 2 && (e.host || (signallerOf b r).isSome) | none => false)

/-- A wait of pipeline `p` on Ring `r` reads the latest available frame, or follows the host (R244, R258). -/
def waitVaries (b : Bytes) (p r : Nat) : Bool :=
  let tk := keyOf b p
  let near (rk : Nat × Nat) : Bool := tk == rk || (tk == (2, 0) && rk == (gCadPort b, 0)) || (tk == (gCadPort b, 0) && rk == (2, 0))
  if r < 0x400 then
    match r with
    | 0 => !near (0, 0)
    | 2 => !near (if gUndSrc b = 2 then (0, 0) else (1, 0))
    | 0x11 => !near (2, 0)
    | 0x12 => !near (2, 0)
    | 0x20 => !(tk.1 == 3 && ctxOnPort b tk.2 0)
    | 0x22 => !(tk.1 == 3 && ctxOnPort b tk.2 1)
    | _ => true
  else (match ringDecl b r with | some e => e.host | none => false) || !near (keyOf b (ringPipe b r))

/-- A layer of owner 0 to 3 is declared. -/
def layerOfPipe (b : Bytes) : Bool :=
  gHas b 8 && (List.range (u8 b (gOff b 8))).any (fun i => decide (u8 b (gOff b 8 + 33 + 48 * i) ≤ 3))

/-- Rings and amounts of a program's TSIGs, and Rings of its TWAITs. -/
def progSigs (b : Bytes) (p : Nat) : List Nat := ((instrsOf b p).filter (fun e => e.2.2.op == 0x10)).map (fun e => bits e.2.2.w1 0 16)
def progWaits (b : Bytes) (p : Nat) : List Nat := ((instrsOf b p).filter (fun e => e.2.2.op == 0x11)).map (fun e => bits e.2.2.w1 0 16)

/-- A SIG entry: a FRAME Ring that the host does not signal, or the valid-Ring of a history tensor in OUT. -/
def sigOk (b : Bytes) (k r : Nat) : Bool :=
  match ringDecl b r with
  | some e => (e.kind == 2 && !e.host) || (match validRingOf b r with | some t => (kOuts b k).contains t | none => false)
  | none => false

/-- Rings that the program of a task waits on by TWAIT. -/
def twaitRings (b : Bytes) (k : Nat) : List Nat :=
  ((instrsOf b (progOff b (kProg b k))).filter (fun e => e.2.2.op == 0x11)).map (fun e => e.2.2.w1 % 65536)

/-- Edges of R251: tasks that wait, in one frame, on a signal of task `k`, by a wait of the descriptor or, being another task, by TWAIT. -/
def taskNext (b : Bytes) (k : Nat) : List Nat :=
  let sig := (if kDone b k = 0 then [] else [kDone b k]) ++ kSigs b k
  (List.range (nTasks b)).filter (fun j => (List.range (kNwait b j)).any (fun i =>
    sig.contains (kWaitRing b j i) && decide (0x400 ≤ kWaitRing b j i) && decide (0 ≤ kWaitOfs b j i)) ||
    (j != k && (twaitRings b j).any (fun r => sig.contains r && decide (0x400 ≤ r))))

/-- Tasks reached from `l` in up to `fuel` steps. -/
def taskReach (b : Bytes) : Nat → List Nat → List Nat
  | 0, l => l
  | n + 1, l => taskReach b n (l ++ (l.flatMap (taskNext b)).filter (fun j => !l.contains j)).eraseDups

/-- Task `k` waits, within one frame, for itself. -/
def taskCyclic (b : Bytes) (k : Nat) : Bool := (taskReach b (nTasks b) (taskNext b k)).contains k

def taskFlaws (b : Bytes) : List Flaw :=
  let nt := nTensors b
  each (nTasks b) (fun k =>
    let o := kOff b k
    let p := kPipe b k
    let q := kProg b k
    let prog := progOff b q
    let vary := kVaries b k
    let unused (n m base w : Nat) : Bool := zeros b (base + w * n) (w * (m - n))
    must (!(u8 b o).testBit 3 && pClass b p != 0 && !(vary && pClass b p == 1)) 3 o ++
    must (decide (u8 b (o + 1) < 64) && decide (kPhase b k + 1 ≤ kPeriod b k)) 3 (o + 1) ++
    must (decide (q < nProgs b)) 3 (o + 2) ++
    must (decide (kBset b k < gNbset b) && (kBranches b k).all (fun n => (List.range 8).any (fun i =>
      bits (wheelEntry b n i) 7 1 == 1 && bits (wheelEntry b n i) 0 2 == pStem b p))) 3 (o + 4) ++
    must (decide (u8 b (o + 5) < 64) && decide (kNwait b k ≤ 4 ∧ kNsig b k ≤ 4)) 3 (o + 5) ++
    must (kDone b k == 0 || (match ringDecl b (kDone b k) with | some e => e.kind == 2 && !e.host && e.total == 1 | none => false)) 3 (o + 6) ++
    must (decide (u8 b (o + 10) < 32) && decide (kNin b k ≤ 6 ∧ kNout b k ≤ 2)) 3 (o + 10) ++ must (zeros b (o + 11) 1) 3 (o + 11) ++
    each (kNwait b k) (fun i => must (waitRingOk b (kWaitRing b k i) && (vary || !waitVaries b p (kWaitRing b k i))) 3 (o + 12 + 4 * i)) ++
    must (unused (kNwait b k) 4 (o + 12) 4) 3 (o + 12 + 4 * kNwait b k) ++
    each (kNsig b k) (fun i => must (sigOk b k (kSig b k i)) 3 (o + 28 + 2 * i)) ++
    must (unused (kNsig b k) 4 (o + 28) 2) 3 (o + 28 + 2 * kNsig b k) ++
    each (kNin b k) (fun i => must (decide (kIn b k i < nt) &&
      (vary || !layerOfPipe b || cnpWbTensor b != kIn b k i)) 3 (o + 36 + 2 * i)) ++
    must (unused (kNin b k) 6 (o + 36) 2) 3 (o + 36 + 2 * kNin b k) ++
    each (kNout b k) (fun i => must (decide (kOut b k i < nt)) 3 (o + 48 + 2 * i)) ++
    must (unused (kNout b k) 2 (o + 48) 2) 3 (o + 48 + 2 * kNout b k) ++
    must (kHvring b k == 0 || (validRingOf b (kHvring b k)).isSome) 3 (o + 52) ++
    must (decide (u8 b (o + 54) < 16) && ((kHvring b k == 0) == (kHdepth b k == 0))) 3 (o + 54) ++
    must (kHvring b k == 0 || decide (kHword b k < hNword b prog)) 3 (o + 55) ++ must (zeros b (o + 56) 8) 3 (o + 56) ++
    (if q < nProgs b then
      must ((progSigs b prog).all (fun r => (kSigs b k).contains r || (kDone b k == r && r != 0)) &&
        (vary || !((instrsOf b prog).any (fun e => e.2.2.varies))) &&
        (vary || !((progWaits b prog).any (waitVaries b p)))) 3 o
    else []) ++
    must (!taskCyclic b k) 3 o)

/-! ## CANOPY (R117, R320 to R322, R332) -/

/-- TABLES record number `r` is a codebook whose entries lie in 0 to `hi`. -/
def paletteOk (b : Bytes) (r hi : Nat) : Bool :=
  ((gTables b).getD r (0, 0)).1 == 1 && (List.range 256).all (fun k => decide (0 ≤ tableEntry b r k ∧ tableEntry b r k ≤ hi))

/-- A tensor can be a buffer of pixel format `f`, with a source of `sw` by `sh` pixels. -/
def bufOk (b : Bytes) (t f sw sh : Nat) : Bool :=
  decide (t < nTensors b ∧ sw ≤ tW b t ∧ sh ≤ tH b t) &&
  (match f with
   | 2 => tFmt b t == 4 && tC b t == 1 && decide (t + 1 < nTensors b) && tFmt b (t + 1) == 4 && tC b (t + 1) == 2 &&
          tW b (t + 1) == cdiv (tW b t) 2 && tH b (t + 1) == cdiv (tH b t) 2
   | 4 => tFmt b t == 0xA && tC b t == 1
   | _ => tFmt b t == 0xF && tPix b t == f)

def layerFlaws (b : Bytes) (i : Nat) : List Flaw :=
  let o := gOff b 8 + 32 + 48 * i
  let ui := u8 b (gOff b 8 + 1)
  let own := u8 b (o + 1)
  let pipe := own ≤ 3
  let w (j : Nat) : Word := BitVec.ofNat 32 (u32 b (o + 16 + 4 * j))
  let s := layerSt [w 0, w 1, w 2, w 3, w 4]
  let nb := if pipe then 1 else u8 b (o + 2)
  let buf (j : Nat) : Nat := u16 b (o + 4 + 2 * j)
  let ready := u16 b (o + 10)
  let pal := u16 b (o + 12)
  must (decide (u8 b o ≤ 7) && !((List.range i).any (fun j => u8 b (gOff b 8 + 32 + 48 * j) == u8 b o))) 8 o ++
  must (decide (own ≤ 5) && (own != 5 || ui == u8 b o) && (!pipe || pClass b own != 0)) 8 (o + 1) ++
  must (pipe || decide (1 ≤ nb ∧ nb ≤ 3)) 8 (o + 2) ++ must (zeros b (o + 3) 1) 8 (o + 3) ++
  each 3 (fun j => must (if j < nb then bufOk b (buf j) s.fmt s.sw s.sh && (!pipe || decide (3 ≤ tSlots b (buf j))) else buf j == 0xFFFF) 8 (o + 4 + 2 * j)) ++
  must (if pipe then
      (match ringDecl b ready with | some e => e.kind == 2 && !e.host && ringPipe b ready == own | none => false)
    else ready == 0) 8 (o + 10) ++
  must (if s.fmt = 4 then paletteOk b pal 1023 && paletteOk b (pal + 1) 1023 && paletteOk b (pal + 2) 1023 && paletteOk b (pal + 3) 255
    else pal == 0xFFFF) 8 (o + 12) ++
  must (zeros b (o + 14) 2) 8 (o + 14) ++
  must (decide (u32 b (o + 16) < 2 ^ 17) && layerFieldsOk s && (pipe || decide (s.buf < nb))) 8 (o + 16) ++
  must (scaleFits s.sw s.sh s.dw s.dh) 8 (o + 20) ++ must (zeros b (o + 33) 15) 8 (o + 33)

def canopyFlaws (b : Bytes) : List Flaw :=
  let o := gOff b 8
  let ui := u8 b (o + 1)
  let wb := u16 b (o + 2)
  let ring := u16 b (o + 4)
  if !gHas b 8 then []
  else
    must (decide (u8 b o ≤ 8)) 8 o ++
    must (ui == 0xFF || (decide (ui ≤ 7) && (match cnpRec b ui with | some r => u8 b (r + 1) == 5 | none => false))) 8 (o + 1) ++
    must (wb == 0xFFFF || (decide (wb < nTensors b) && tFmt b wb == 0xF && tW b wb == gFbW b && tH b wb == gFbH b)) 8 (o + 2) ++
    must (ring == 0 || (match ringDecl b ring with | some e => e.kind == 3 | none => false)) 8 (o + 4) ++
    must (u8 b (o + 6) != 0) 8 (o + 6) ++ must (zeros b (o + 7) 25) 8 (o + 7) ++ each (u8 b o) (layerFlaws b)

/-! ## ISP (R369) -/

def ispFlaws (b : Bytes) : List Flaw :=
  let o := iOff b
  if !gHas b 9 then []
  else
    let recs := ctxRecs b
    must (decide (1 ≤ u8 b o ∧ u8 b o ≤ 8)) 9 o ++
    each 2 (fun p => must (iInit b p == 0xFF || ctxOnPort b (iInit b p) p) 9 (o + 1 + p)) ++ must (zeros b (o + 3) 61) 9 (o + 3) ++
    recs.flatMap (fun r => (contextFlaws b r).map (fun k => (9, r + k)) ++ must (ctxOff b (u8 b r) == some r) 9 r)

/-! ## GROVE (R405 to R409, R412, R415) -/

/-- Rules of a pattern tensor but for the instructions that read it. -/
def patternOk (b : Bytes) (t : Nat) : Bool :=
  decide (t < nTensors b) && tClass b t == 0 && tSlots b t == 1 && tReaders b t == 0 && tSeed b t == 0xFFFF && tBind b t == 0 &&
  [2, 3, 4, 5, 6, 7].contains (tFmt b t) && decide (1 ≤ tC b t ∧ tC b t ≤ 4) && !gvNocanvas b t && !written b t &&
  -- neither the ISP nor Canopy works on it
  !(ctxRecs b).any (fun o => [cOut b o, cAux b o, cTapt b o].contains t) &&
  !(gHas b 8 && (List.range (u8 b (gOff b 8))).any (fun i =>
    let r := gOff b 8 + 32 + 48 * i
    (List.range 3).any (fun j => let u := u16 b (r + 4 + 2 * j); u != 0xFFFF && (u == t || (bits (u8 b (r + 16)) 1 4 == 2 && u + 1 == t)))))

/-- Shape of an input buffer (R409). -/
def marginOk (b : Bytes) (t : Nat) : Bool :=
  let s := gvShift b t
  let m : Nat := 2 ^ s
  gFbW b % m == 0 && gFbH b % m == 0 && gvRefX b % m == 0 && gvRefY b % m == 0 &&
  tW b t == gFbW b / m + 2 * gvInMx b && tH b t == gFbH b / m + 2 * gvInMy b &&
  tX0 b t + gvInMx b == gvRefX b / m && tY0 b t + gvInMy b == gvRefY b / m

/-- Region edges of a SEAMCUT tensor written under scale step `n` are cell boundaries (R415). -/
def seamCells (b : Bytes) (t : Nat) : Bool :=
  match stepOfTensor b t with
  | none => true
  | some n =>
    let s := ostepAt b n
    (List.range (gvN b)).all (fun i =>
      let (x, y) := seamBounds b (gvShift b t) i
      let cw := cdiv (gvCanvasW b) (2 ^ gvShift b t)
      let chh := cdiv (gvCanvasH b) (2 ^ gvShift b t)
      let at_ (v : Int) (c len : Nat) : Bool := v == 0 || v == len || (c != 0 && v % (c : Int) == 0)
      at_ x.1 s.cw cw && at_ x.2 s.cw cw && at_ y.1 s.ch chh && at_ y.2 s.ch chh)

def groveFlaws (b : Bytes) (idx : Nat) : List Flaw :=
  let o := gvOff b
  let n := gvN b
  let nt := nTensors b
  let cut := (List.range nt).filter (gvSeamcut b)
  let overlap (i j : Nat) : Bool :=
    decide (gvRX b i < gvRX b j + gFbW b ∧ gvRX b j < gvRX b i + gFbW b ∧ gvRY b i < gvRY b j + gFbH b ∧ gvRY b j < gvRY b i + gFbH b)
  if !gHas b 0xB then []
  else
    must (decide (1 ≤ n ∧ n ≤ 4096) && decide (idx < n)) 0xB o ++ must (zeros b (o + 2) 2) 0xB (o + 2) ++
    must (decide (1 ≤ gvCanvasW b ∧ gvCanvasW b < 2 ^ 20)) 0xB (o + 4) ++ must (decide (1 ≤ gvCanvasH b ∧ gvCanvasH b < 2 ^ 20)) 0xB (o + 8) ++
    must (decide (gvRefX b < 2 ^ 20)) 0xB (o + 12) ++ must (decide (gvRefY b < 2 ^ 20)) 0xB (o + 16) ++
    must (!cut.isEmpty || gvSeamBand b == 0) 0xB (o + 24) ++ must (decide (gvNpat b ≤ 16)) 0xB (o + 26) ++
    must (zeros b (o + 27) 37) 0xB (o + 27) ++
    each 4096 (fun t =>
      let g := gvGrid b t
      let bind := tBind b t
      must (if nt ≤ t then g == 0 else
        inMask g 0xC3 && (bind != 3 || (g == 0 && tX0 b t == gvRefX b && tY0 b t == gvRefY b)) &&
        (!(bind == 1 || bind == 2 || bind == 4) || marginOk b t) &&
        (cut.isEmpty || ((!tHist b t || gvSeamcut b t) && (!gvSeamcut b t || seamCells b t)))) 0xB (o + 0x40 + t)) ++
    each 16 (fun i =>
      let r := o + 0x1040 + 8 * i
      if gvNpat b ≤ i then must (zeros b r 8) 0xB r
      else must (patternOk b (u16 b r) && !((List.range i).any (fun j => u16 b (o + 0x1040 + 8 * j) == u16 b r))) 0xB r ++
        must (decide (u8 b (r + 2) < 2) && zeros b (r + 3) 1) 0xB (r + 2)) ++
    each n (fun i =>
      let r := o + 0x10C0 + 8 * i
      must (decide (gvRX b i + gFbW b ≤ gvCanvasW b) && (gvRX b i + 8 * 2 ^ 20 - gvRefX b) % 8 == 0) 0xB r ++
      must (decide (gvRY b i + gFbH b ≤ gvCanvasH b) && (gvRY b i + 8 * 2 ^ 20 - gvRefY b) % 8 == 0) 0xB (r + 4) ++
      must (cut.isEmpty || !((List.range i).any (overlap i))) 0xB r) ++
    -- a tensor, the frame buffer apart, that a reader of a cut tensor writes is cut too
    each (nTasks b) (fun k => must (!((kIns b k).any (gvSeamcut b)) ||
      (kOuts b k).all (fun t => tBind b t == 3 || gvSeamcut b t)) 3 (kOff b k))

/-- Fields of the certificate's records (R283). -/
def certFlaws (b : Bytes) : List Flaw :=
  each (nCert b) (fun i => must (decide (certM b i ≤ 1000)) 0xA (certOff b i + 2) ++ must (zeros b (certOff b i + 36) 28) 0xA (certOff b i + 36))

/-! ## Phases 5 and 6 (R273, R284, R288, R498) -/

/-- Tensors that hold Trunk pages: patterns hold none (R412). -/
def holdsPages (b : Bytes) (t : Nat) : Bool := (patternOf b t).isNone

/-- Pages that preparation allocates for the tensors `p` picks (R69, R273). -/
def fixedPages (b : Bytes) (p : Nat → Bool) : Nat :=
  (((List.range (nTensors b)).filter (fun t => (tClass b t == 0 || tClass b t == 2) && holdsPages b t && p t)).map (tPages b)).sum

/-- Capacity of the bank groups of a mask; group 0 keeps 268 pages for Grafts. -/
def groupCap (m : Nat) : Nat := ((List.range 16).map (fun g => if m.testBit g then (if g = 0 then 268 else 512) else 0)).sum

/-- Pages beyond what a pipeline's own groups hold fall on the shared ones, with the frame buffer. -/
def capacityFlaws (b : Bytes) : List Flaw :=
  let fb := fixedPages b (fun t => tBind b t == 3)
  let own (p : Nat) : Nat := fixedPages b (fun t => tPipe b t == p && tBind b t != 3)
  let spare := ((pipesOf b).map (fun p => own p - groupCap (pGroups b p))).sum
  must (decide (fb + spare ≤ groupCap (gShared b))) 1 (sOff b + 4) ++
  (pipesOf b).flatMap (fun p => must (decide (own p ≤ groupCap (pGroups b p) + groupCap (gShared b))) 1 (gPipe b p + 4))

/-- Program memory of a Branch: the programs of its tasks, each once. -/
def progBytes (b : Bytes) (q : Nat) : Nat := instrOff b (progOff b q) 4 0 - progOff b q
def branchProgBytes (b : Bytes) (n : Nat) : Nat :=
  ((((List.range (nTasks b)).filter (fun k => (kBranches b k).contains n)).map (kProg b)).eraseDups.map (progBytes b)).sum

/-- Faults of phase 5; the section and offset of each are those of the item (log entry 50). -/
def resourceFlaws (nv : NonVol) (d : Dev) (b : Bytes) : List Flaw :=
  capacityFlaws b ++
  each (nSeeds b) (fun i => must ((packOf d b i).isSome) 7 (gOff b 7 + 64 * i)) ++
  each (nRings b) (fun i => let r := (ringEntry b i).1
    must ((ringDecl (img0 d) r).isNone && !d.ring.held.contains r) 5 (gOff b 5 + 8 * i)) ++
  each 16 (fun n => must (decide (branchProgBytes b n ≤ 131072)) 4 (gOff b 4)) ++
  (pipesOf b).flatMap (fun p => must (!fenced d (4 + pStem b p)) 1 (gPipe b p + 1) ++
    must (((List.range 16).filter (fun g => (pGroups b p ||| gShared b).testBit g)).all (fun g => !fenced d (0x20 + g)) &&
      (pipeBranches b p).all (fun n => (brHost nv d n).isSome)) 1 (gPipe b p + 4))

/-- The sections that CERT_HASH covers. -/
def certHashed (b : Bytes) : Bytes := [1, 2, 3, 4, 5, 6].flatMap (fun c => if gHas b c then gBytes b c else [])

/-- R284, but for the checks that the settings of the moment decide. -/
def certRecordsOk (b : Bytes) : Bool :=
  slice b (gOff b 0xA) 48 == sha384 (certHashed b) &&
  (List.range 4).all (fun p => ((List.range (nCert b)).filter (fun i => certPipe b i == p)).length == (if pClass b p = 1 then 1 else 0)) &&
  (List.range (nCert b)).all (fun i => decide (certPipe b i < 4) &&
    decide (certNbr b i ≤ (pipeBranches b (certPipe b i)).length))

end Sys2Proof.Machine
end

