-- ==== Sys2Proof/Machine/TileRom.lean ====
section
/-! DEFINITION. The ROM activation tables of R182: exact values of the function at each knot, in units of 2^-q, rounded half to
even. Exponentials are formed to 256 fractional bits; no knot value lies within 2^-200 of a tie but those that are exact. -/

namespace Sys2Proof.Machine

/-- One, in the fixed point of this file. -/
def fixOne : Nat := 2 ^ 256

/-- exp(-1/1024): the alternating series to 40 terms. -/
def expStep : Nat :=
  ((List.range 40).foldl (fun (acc : Int × Int) k =>
    -- term k is (-1/1024)^k / k!
    (acc.1 + acc.2, -(acc.2 / (1024 * (k + 1 : Nat))))) (0, (fixOne : Int))).1.toNat

/-- exp(-n/1024) for n below 2^15. -/
def expNeg (n : Nat) : Nat :=
  ((List.range 15).foldl (fun (acc : Nat × Nat) i =>
    (if n.testBit i then acc.1 * acc.2 / fixOne else acc.1, acc.2 * acc.2 / fixOne)) (fixOne, expStep)).1

/-- Integer nearest to 2^21 / √x, ties to even. -/
def invSqrt (x : Nat) : Nat :=
  let r := (List.range 17).foldl (fun r i => let c := r + 2 ^ (16 - i); if c * c * x ≤ 2 ^ 42 then c else r) 0
  let t := (2 * r + 1) * (2 * r + 1) * x
  if t < 2 ^ 44 then r + 1 else if t = 2 ^ 44 then r + r % 2 else r

/-- X0 and SH of ROM table 0xF0 + `t` (Table Vector-2). -/
def romX0 (t : Nat) : Int := match t with | 0 => -8192 | 1 => -4096 | 2 => -8192 | 3 => 0 | 4 => 32768 | _ => 16384
def romSh (t : Nat) : Nat := match t with | 0 => 6 | 1 => 5 | 2 => 6 | 3 => 6 | 4 => 7 | _ => 8

/-- Knot value Y_i. -/
def romY (t i : Nat) : Int :=
  let x : Int := romX0 t + (i * 2 ^ romSh t : Nat)
  let one : Int := fixOne
  let ex : Int := expNeg x.natAbs
  match t with
  | 0 => rheDiv (2 ^ 15 * (if 0 ≤ x then one else ex)) (one + ex)
  | 1 => let e2 : Int := expNeg (2 * x.natAbs)
         (if 0 ≤ x then 1 else -1) * rheDiv (2 ^ 15 * (one - e2)) (one + e2)
  | 2 => rheDiv (x * (if 0 ≤ x then one else ex)) (one + ex)
  | 3 => rheDiv (2 ^ 14 * ex) one
  | 4 => rheDiv (2 ^ 29) x
  | _ => invSqrt x.toNat

/-- Slope K_i. -/
def romK (t i : Nat) : Int := romY t (i + 1) - romY t i

end Sys2Proof.Machine
end

