-- ==== Sys2Proof/Machine/Tile.lean ====
section
/-! DEFINITION. The Branch sequencer: contexts, program order, the Branch store, and how an instruction reads elements
(R207 to R223, R253, R488). -/

namespace Sys2Proof.Machine

/-! ## The instruction that a Branch stands at -/

/-- What an instruction sees. -/
structure Env where
  nv : NonVol
  /-- physical Branch -/
  n  : Nat
  c  : Ctx
  b  : Bytes
  /-- offset of the program -/
  p  : Nat
  i  : TInstr
  /-- output line, and first output pixel of the iteration -/
  y  : Nat
  x0 : Nat
  /-- logical number in the task's set, and the set's size (R210) -/
  j  : Nat
  nb : Nat
  deriving DecidableEq, Repr

/-- Context in hand on physical Branch `n`. -/
def curCtx (d : Dev) (n : Nat) : Option Ctx := if (branch d n).cur.isSome then (branch d n).ctxs.head? else none

def mapCur (d : Dev) (n : Nat) (f : Ctx → Ctx) : Dev :=
  match (branch d n).ctxs with
  | [] => d
  | c :: cs => setBranch d n { branch d n with ctxs := f c :: cs }

/-- The Branch stands at an instruction that it may issue. -/
def envOf (nv : NonVol) (d : Dev) (n : Nat) : Option Env :=
  match curCtx d n with
  | none => none
  | some c =>
    if c.edge || c.wait.isSome || c.sect = 4 || fenced d (0x10 + n) then none
    else
      let b := imgOf d c.out
      let p := progOff b (kProg b c.task)
      let j := logicalNo b c.task c.logic
      let nb := (kBranches b c.task).length
      some { nv, n, c, b, p, i := instrAt b p c.sect c.idx, y := if c.sect = 0 then 0 else dealtLine b p j nb c.yi
             x0 := c.xi * iterPx b p, j, nb }

/-- Unit number of the Branch, and the low bits of the task's index in an event. -/
def Env.unit (e : Env) : Nat := 0x10 + e.n
def Env.taskArg (e : Env) : Nat := e.c.task % 65536 * 65536
def Env.key (e : Env) : Nat × Nat × Bool := (e.c.task, e.c.pfn, e.c.out)
def Env.sp (e : Env) : Nat := if e.c.out then 1 else 0
def Env.who (e : Env) : Who := { sp := e.sp, pipe := kPipe e.b e.c.task, pfn := e.c.pfn, unit := e.unit, task := e.c.task, host := false }
def Env.coord (e : Env) (i : Nat) : Coord := coordAt e.b e.p i
def Env.region (e : Env) (c : Coord) : Region := regionAt e.b e.p c.index
def Env.group (e : Env) (c : Coord) : Nat := c.g e.c.z e.c.r

/-- Word table entry `i`: 0 for HWORD on a cold frame (R262). -/
def Env.word (d : Dev) (e : Env) (i : Nat) : Nat :=
  let cold := match taskSt d e.c.task e.c.pfn e.c.out with | some t => t.flags.testBit fCold | none => false
  if cold && kHvring e.b e.c.task != 0 && kHword e.b e.c.task == i then 0 else wordAt e.b e.p i

def mapTaskE (e : Env) (g : TaskSt → TaskSt) (d : Dev) : Dev := mapTask d e.c.task e.c.pfn e.c.out g
/-- Saturations counted for the task (R108). -/
def addSat (e : Env) (n : Nat) (d : Dev) : Dev := mapTaskE e (fun t => { t with sat := t.sat + n }) d

/-- An event raised at most once per task per frame; `i` numbers the event's mark. -/
def onceEvent (e : Env) (i code sev arg : Nat) (d : Dev) : Dev :=
  match taskSt d e.c.task e.c.pfn e.c.out with
  | none => d
  | some t => if t.flags.testBit (fEvent i) then d
              else raise (mapTaskE e (fun t => { t with flags := setBit t.flags (fEvent i) true }) d) code e.unit sev (arg + e.taskArg)

/-! ## Cells that a Branch contributes to (R129, R135) -/

/-- Lines and pixels of the OUT tensor that line `y` of the program stands for in a store's destination, for depth-to-space `f`. -/
structure OutMap where
  f  : Nat
  lo : Int
  xo : Int
  deriving DecidableEq, Repr

/-- Factor and offsets from a region's line and pixel to the tensor it is stored to. -/
def outMap (b : Bytes) (p rg : Nat) : OutMap :=
  match storeOf b p rg with
  | some x => { f := 2 ^ x.1.ff 12 2, lo := x.2.2.loff - x.2.1.loff, xo := x.2.2.poff - x.2.1.poff }
  | none => { f := 1, lo := 0, xo := 0 }

/-- Element of the OUT tensor that region element (line, pixel, channel) becomes (R227). -/
def OutMap.at (m : OutMap) (y x : Int) (ch : Nat) : Int × Int × Nat :=
  if m.f = 1 then (y + m.lo, x + m.xo, ch)
  else
    let k := ch % (m.f * m.f)
    ((y + m.lo) * m.f + (k / m.f : Nat), (x + m.xo) * m.f + (k % m.f : Nat), ch / (m.f * m.f))

/-- Elements of cell `i` that logical number `j` converts: its lines of the cell, times the pixels and channels in it. -/
def cellShare (d : Dev) (out : Bool) (b : Bytes) (p n i j nb wo ho : Nat) : Nat :=
  let t := (stepTensor b n).getD 0
  let c := stepCells d out n
  let (px, py) := placeOf b (groveIdx d out) t
  let m := ((instrsOf b p).find? (fun e => e.2.2.ostep == some n && (e.2.2.op == 7 || e.2.2.op == 9))).map
    (fun e => outMap b p (coordAt b p e.2.2.cb).index)
  let f := match m with | some m => m.f | none => 1
  let (w, h) := if writtenExtent b p t wo ho = (0, 0) then (wo * f, ho * f) else writtenExtent b p t wo ho
  let cx := c.cx0 + (i % max 1 c.nx : Nat)
  let cy := c.cy0 + (i / max 1 c.nx % max 1 c.ny : Nat)
  let cz := i / max 1 (c.nx * c.ny)
  let x0 := max (max 0 (cx * c.cw - px.org)) (px.lo - px.org)
  let x1 := min (min (w : Int) ((cx + 1) * c.cw - px.org)) (px.hi - px.org)
  let ys := (dealtLines b p j nb ho).flatMap (fun y => (List.range ((1 + hLstep b p) * f)).map (fun k => y * f + k))
  let inCell (y : Nat) : Bool := decide (y < h) && decide ((py.org + y).fdiv c.ch = cy) && decide (py.lo ≤ py.org + y ∧ py.org + y < py.hi)
  (ys.filter inCell).length * (x1 - x0).toNat * (min (tC b t) ((cz + 1) * c.cd) - cz * c.cd)

/-- Logical numbers that contribute to a cell. -/
def contributors (d : Dev) (out : Bool) (b : Bytes) (k n i wo ho : Nat) : List Nat :=
  let nb := (kBranches b k).length
  (List.range nb).filter (fun j => cellShare d out b (progOff b (kProg b k)) n i j nb wo ho != 0)

/-- The entry of a cell is written once every contributor has converted its last element of it, or has ended its program. -/
def settleCell (e : Env) (n i : Nat) (d : Dev) : Dev :=
  let (k, fn, out) := e.key
  let c := cellAt d out n i fn
  let ended (j : Nat) : Bool := d.br.any (fun x => x.2.ctxs.any (fun c => c.task == k && c.pfn == fn && c.out == out && c.sect == 4 &&
    c.logic == (kBranches e.b k).getD j 16))
  let cs := contributors d out e.b k n i e.c.wo e.c.ho
  if c.written || !c.ready || !cs.all (fun j => ended j || decide (cellShare d out e.b e.p n i j e.nb e.c.wo e.c.ho ≤ (c.parts.get Partial.none j).n)) then d
  else
    let x := cellEntry d out n i fn
    let o := ostepAt e.b n
    let d := setCell (writeEntry d out n i fn x.bytes) out n i fn { c with written := true }
    mapTaskE e (fun t => { t with
      under := t.under + x.under.toNat, elim := t.elim + x.elim.toNat
      ovr := t.ovr + (o.mode == 2 && decide (o.satHi < x.ovr)).toNat, cold := t.cold + c.cold.toNat }) d

/-- Lines that later iterations can still read: the least line that a load of tensor `t` names at or after output line `y`. -/
def nextLine (b : Bytes) (p t y : Nat) : Nat :=
  let l := (instrsOf b p).filter (fun e => e.2.2.isLines && (coordAt b p e.2.2.ca).trunk && (coordAt b p e.2.2.ca).index == t)
  match l.map (fun e => ((coordAt b p e.2.2.ca).y y).toNat) with
  | [] => 0
  | x :: xs => xs.foldl min x

/-- The task is done with the lines of an input line ring that none of its Branches can still read (R74, DEDUCED, log
entry 23). -/
def consumeLines (e : Env) (d : Dev) : Dev :=
  (List.range 2).foldl (fun d p =>
    match boundTensor e.b (p + 1) with
    | none => d
    | some t =>
      if e.c.out || !(kIns e.b e.c.task).contains t then d
      else
        let fn := dataFrame d e.b e.c.task e.c.pfn t 0
        match inputFrame d p fn with
        | none => d
        | some f =>
          let cs := d.br.flatMap (fun x => x.2.ctxs.filter (fun c => c.task == e.c.task && c.pfn == e.c.pfn && c.out == e.c.out))
          let low := cs.map (fun c => if c.sect = 4 then f.height
            else min f.height (nextLine e.b e.p t (dealtLine e.b e.p (logicalNo e.b e.c.task c.logic) e.nb c.yi)))
          finishLines d p (e.c.task + 1) (add32 f.base (low.foldl min f.height)) (ringConsumers d p)) d

/-- The Branch's program has ended: cells that wait for it alone are written. -/
def endProgram (e : Env) (d : Dev) : Dev :=
  (taskSteps e.b e.c.task).foldl (fun d n => (List.range (stepCells d e.c.out n).count).foldl (fun d i =>
    if (cellAt d e.c.out n i e.c.pfn).ready then settleCell e n i d else d) d) d

/-! ## Moving on -/

/-- A tile of the context is accumulating or draining. -/
def inFlight (d : Dev) (n : Nat) (c : Ctx) : Bool :=
  !c.drains.isEmpty || (List.range 5).any (fun t => !((branch d n).twig.get Twig.reset t).slotP.isEmpty)

/-- At a boundary once the iteration has ended and its tiles have drained, or while a TWAIT waits with no tile in flight (R211). -/
def markBoundary (n : Nat) (d : Dev) : Dev :=
  match curCtx d n with
  | none => d
  | some c =>
    if ((c.edge || c.sect = 4) && c.drains.isEmpty) || (c.wait.isSome && !inFlight d n c) then atBoundary n d else d

/-- The instruction has been issued: the context stands at the next one. -/
def advance (e : Env) (d : Dev) : Dev :=
  let d := mapCur d e.n (fun c => Ctx.norm e.b e.p e.j e.nb 8 { c with idx := c.idx + 1, short := false })
  let d := match curCtx d e.n with
    | some c =>
      let d := if c.sect = 4 then endProgram e d else d
      if c.sect = 4 || c.edge then consumeLines e d else d
    | none => d
  markBoundary e.n d

/-- The instruction is skipped in this iteration (R221). -/
def Env.skip (e : Env) : Bool :=
  e.c.sect != 0 && ((e.i.xi0 && e.c.xi != 0) || (e.i.xlast && decide (e.c.xi + 1 < nXi e.b e.p e.c.wo)))

/-- Bytes of a logical Branch's store. -/
def sRead (d : Dev) (n a len : Nat) : Bytes := Map.getN 0 (Map.part (branch d n).store a (a + len)) a len
def sWrite (d : Dev) (n a : Nat) (bs : Bytes) : Dev :=
  setBranch d n { branch d n with store := Map.setRange 0 (branch d n).store a (a + bs.length) (bs.mapIdx (fun i x => (a + i, x))) }

/-- The Twig that carries out work for active Twig `t`: the spare once it stands in (R165). -/
def servingTwig (d : Dev) (n t : Nat) : Nat :=
  if fld d (twigState n 4) = 2 && fld d (twigStands n 4) = t && fld d (twigState n t) = 4 then 4 else t

/-- A command that issues the Branch's next instruction, when that is one of opcode `op` and nothing holds it (R212). `run`
answers the state, and whether the instruction was issued. -/
def tileOp (op : Nat) (run : Env → Dev → Dev × Bool) (nv : NonVol) (n : Nat) (d : Dev) : Dev :=
  match envOf nv d n with
  | none => d
  | some e =>
    if e.i.op ≠ op then d
    else if e.skip then advance e d
    else
      -- an instruction that must wait counts the unwritten lines it read when it runs again
      let (d', ok) := run e d
      if ok then advance e d' else recount d d'

/-- Uncorrectable words stand in the Trunk and in the Branch store as they read. -/
def plantErrs (n : Nat) (errs : List MemErr) (d : Dev) : Dev :=
  errs.foldl (fun d e => if e.place == .store && e.bad && decide (e.addr < 2 ^ 19) then sWrite d n (8 * e.addr) (le 8 e.raw.toNat) else d) (plantTrunk errs d)

/-- Physical slots of a Twig whose tiles an instruction works on: window slots of its iteration. -/
def Env.workSlots (e : Env) : List Nat :=
  let w1 := e.i.w1
  let (a, nt) := match e.i.op with
    | 2 => (bits w1 8 4, bits w1 12 4 + 1) | 4 => (bits w1 8 4, bits w1 12 4 + 1) | 3 => (bits w1 8 2, bits w1 10 2 + 1) | _ => (0, 0)
  (List.range nt).map (fun j => (a + j + hAccStep e.b e.p * e.c.it) % max 1 (hAccDepth e.b e.p))

/-- The words that an instruction read in error are corrected or delivered as read, counted, recorded and reported. An uncorrectable
one marks the task, and the tiles that read it: those that a Twig accumulates are counted as they drain, any other instruction counts as
one tile (R204, R256; DESIGN CHOICE, log entry 63). A word of the program memory that fails its parity counts against the Branch (R475). -/
def readErrs (e : Env) (t : Nat) (errs : List MemErr) (d : Dev) : Dev :=
  let d := errs.foldl (fun d x => if x.place == .store && decide (x.addr < 2 ^ 19) then storeErr e.nv e.n x.addr x.bad e.taskArg d else d) (trunkErrs e.nv errs d)
  let d := bufferErrs e.nv (80 + e.n) errs d
  if !errs.any (fun x => x.bad && x.place != .buffer && decide (x.addr < if x.place == .trunk then 2 ^ 26 else 2 ^ 19)) then d
  else
    let d := mapTaskE e (fun s => { s with flags := setBit s.flags fUncorr true, bad := s.bad + e.workSlots.isEmpty.toNat }) d
    let w := (branch d e.n).twig.get Twig.reset t
    if e.workSlots.isEmpty then d
    else
      let w' : Twig := { w with bad := e.workSlots.foldl (fun m s => if w.slotP.get 0 s = 0 then m else setBit m s true) w.bad }
      setBranch d e.n { branch d e.n with twig := (branch d e.n).twig.put Twig.reset t w' }

/-- A command that issues an instruction whose reads may meet errors. Errors count once, as the instruction issues. -/
def tileRead (op : Nat) (run : Env → Dev → Dev × Bool) (nv : NonVol) (n : Nat) (errs : List MemErr) (d : Dev) : Dev :=
  tileOp op (fun e d =>
    let (d', ok) := run e (plantErrs e.c.logic errs d)
    if ok then (readErrs e (servingTwig d e.n e.i.twig) errs d', true) else run e d) nv n d

/-! ## The Branch store (R202, R216, R217) -/

/-- Bytes of one channel of a line slot. -/
def Region.rowBytes (r : Region) : Nat := if r.fmt = 0xF then 4 * r.npx else cdiv r.npx 64 * runBytes r.fmt (min r.npx 64)

/-- The elements of one channel of a line slot; of the slot, for pixel words. -/
def rowOf (d : Dev) (n : Nat) (r : Region) (line : Int) (ch : Nat) : List Int :=
  let bs := sRead d n (r.addr line ch 0) r.rowBytes
  if r.fmt = 0xF then (List.range r.npx).map (fun i => ((u32 bs (4 * i) : Nat) : Int))
  else
    let rb := runBytes r.fmt (min r.npx 64)
    (List.range r.npx).map (fun x => elemAt r.fmt (slice bs (x / 64 * rb) rb) (x % 64))

/-- Elements of one channel of a line slot replaced: positions and values. Positions beyond the slot are not written. -/
def putRow (r : Region) (n : Nat) (line : Int) (ch : Nat) (l : List (Int × Int)) (d : Dev) : Dev :=
  if r.fmt ≠ 0xF ∧ r.nch ≤ ch then d
  else
    let a := r.addr line ch 0
    let rb := runBytes r.fmt (min r.npx 64)
    let l := (l.filter (fun e => decide (0 ≤ e.1 ∧ e.1 < (r.npx : Int)))).map (fun e => (e.1.toNat, e.2))
    if r.fmt = 0xF then
      sWrite d n a (l.foldl (fun bs e => bs.take (4 * e.1) ++ le 4 e.2.toNat ++ bs.drop (4 * e.1 + 4)) (sRead d n a r.rowBytes))
    else
      -- each 64-pixel run that takes an element is written whole
      (List.range (cdiv r.npx 64)).foldl (fun d s =>
        match (l.filter (fun e => e.1 / 64 == s)).map (fun e => (e.1 % 64, e.2)) with
        | [] => d
        | m => sWrite d n (a + s * rb) (runPut r.fmt (min r.npx 64) (min 64 (r.npx - 64 * s)) (sRead d n (a + s * rb) rb) m)) d

/-- An earlier receive or multicast of the task still writes the line slot (R212). -/
def slotBusy (d : Dev) (e : Env) (rg : Nat) (line : Int) : Bool :=
  let r := regionAt e.b e.p rg
  let x := branch d e.c.logic
  x.haloRx.any (fun h => (h.task, h.pfn, h.out) == e.key && h.region == rg && r.slot h.line == r.slot line) ||
  x.mcast.any (fun m => (m.task, m.pfn, m.out) == e.key && m.region == rg)

/-! ## Sources (R217, R219, R226) -/

/-- What a record's elements are read from: the tensor behind it, its frame, zero point, format and image. -/
structure Src where
  co   : Coord
  rg   : Region
  t    : Option Nat
  fn   : Nat
  /-- tensor of its zero point and codebook -/
  ct   : Option Nat
  fmt  : Nat
  zp   : Int
  nch  : Nat
  /-- image in tensor coordinates, across and down, before a seam cut -/
  xi   : Int × Int
  yi   : Int × Int
  /-- lines outside the image are padded as they are read -/
  padV : Bool
  seam : Bool
  /-- the scale step that the tensor is dynamically scaled by -/
  dyn  : Option Nat
  /-- frame slot of a Trunk tensor -/
  slot : Nat
  deriving DecidableEq, Repr

/-- Image of tensor `t` in frame `fn`: run-time shape held at the plan, inside the canvas (R219, R408). -/
def imageOf (d : Dev) (b : Bytes) (out : Bool) (t fn : Nat) : (Int × Int) × (Int × Int) :=
  let (w, h) := tensorShape d b (nTasks b + 1) t fn
  let (px, py) := placeOf b (groveIdx d out) t
  ((max 0 (px.lo - px.org), min (min w (tW b t) : Nat) (px.hi - px.org)), (max 0 (py.lo - py.org), min (min h (tH b t) : Nat) (py.hi - py.org)))

/-- Frame of the data in a region or tensor that record `c` reads. -/
def srcFrame (d : Dev) (e : Env) (c : Coord) : Nat :=
  if c.trunk then dataFrame d e.b e.c.task e.c.pfn c.index 0
  else match loadOf e.b e.p c.index with
    | some x =>
      if x.1.flag 13 then match e.c.lat.find? (fun l => l.1 == c.index) with | some l => l.2 | none => e.c.pfn
      else dataFrame d e.b e.c.task e.c.pfn x.2.1.index (bits x.1.w2 0 4)
    | none => e.c.pfn

/-- The source that a record names. -/
def srcOf (d : Dev) (e : Env) (c : Coord) : Src :=
  let rg := e.region c
  let t := if c.trunk then some c.index else readTensor e.b e.p c.index
  let ct := if c.trunk then t else codeTensor e.b e.p c.index t
  let fn := srcFrame d e c
  let img := match t with
    | some t => imageOf d e.b e.c.out t fn
    | none => ((0, (e.c.wo : Int)), (0, (e.c.ho : Int)))
  let cx := if c.trunk then 0 else chanShift e.b e.p c.index
  { co := c, rg, t, fn, fmt := if c.trunk then tFmt e.b c.index else rg.fmt
    ct
    zp := (match ct with | some t => (tZp e.b t : Int) | none => 0)
    nch := (match t with | some t => if c.trunk then tC e.b t else min rg.nch ((tC e.b t : Int) - cx).toNat | none => rg.nch)
    xi := img.1, yi := img.2
    padV := c.trunk || (rg.slots != 0 && ((loadOf e.b e.p c.index).isNone || haloFed e.b e.p c.index))
    seam := (match t with | some t => hasGrove e.b && gvSeamcut e.b t | none => false)
    dyn := (match t with | some t => stepOfTensor e.b t | none => none)
    slot := (match t with | some t => fn % max 1 (tSlots e.b t) | none => 0) }

/-- The image further limited to the seam tile of output pixel (x, y) (R415). A pixel in no region is not cut. -/
def Src.image (d : Dev) (e : Env) (s : Src) (x y : Int) : (Int × Int) × (Int × Int) :=
  match s.seam, s.t with
  | true, some t =>
    let g := groveIdx d e.c.out
    let o := hOut e.b e.p
    let (ox, oy) := placeOf e.b g o
    let (px, py) := placeOf e.b g t
    match seamIndex e.b (gvShift e.b o) (ox.org + x) (oy.org + y) with
    | none => (s.xi, s.yi)
    | some k =>
      let w := seamBounds e.b (gvShift e.b t) k
      ((max s.xi.1 (w.1.1 - px.org), min s.xi.2 (w.1.2 - px.org)), (max s.yi.1 (w.2.1 - py.org), min s.yi.2 (w.2.2 - py.org)))
  | _, _ => (s.xi, s.yi)

/-- The line that a source's record names: 0 of a flat region, whose line field is ignored (R218). -/
def Src.line (e : Env) (s : Src) : Int := if !s.co.trunk && s.rg.slots == 0 then 0 else s.co.y e.y

/-- The line that a destination's record names: 0 of a flat region. -/
def Env.line (e : Env) (c : Coord) : Int := if !c.trunk && (e.region c).slots == 0 then 0 else c.y e.y

/-- The tensor line whose elements line `y` of a source holds: TLOAD fills the slot of a line outside the image with line i' of the
tensor, or with the zero point, which lies in no cell (R219). -/
def Src.cellLine (d : Dev) (e : Env) (s : Src) (y : Int) : Option Int :=
  if s.co.trunk then some y
  else match loadOf e.b e.p s.co.index with
    | some x => padAxis x.2.1.pad (s.image d e e.x0 e.y).2.1 (s.image d e e.x0 e.y).2.2 y
    | none => some y

/-- The line that slot `k` of a region holds: the latest that its load, or the store from it, names in the lines dealt so far
(DEDUCED, log entry 87). -/
def Src.slotLine (e : Env) (s : Src) (k : Nat) : Int :=
  let lines (y : Nat) : List Int := match loadOf e.b e.p s.co.index with
    | some x => (List.range (bits x.1.w1 0 5)).map (fun (u : Nat) => x.2.1.y y + (u : Int))
    | none => match storeOf e.b e.p s.co.index with
      | some x => (List.range (bits x.1.w1 8 4 + 1)).map (fun (u : Nat) => x.2.1.y y + (u : Int))
      | none => []
  (((dealtLines e.b e.p e.j e.nb (e.y + 1)).reverse.flatMap lines).find? (fun l => s.rg.slot l == k)).getD k

/-- One channel of tensor line `y`, which lies inside the image. -/
def Src.rawRow (d : Dev) (e : Env) (s : Src) (y : Int) (ch : Nat) : List Int :=
  if s.co.trunk then
    match s.t with
    | some t => if lineSkipped d e.b t s.fn y then List.replicate (tW e.b t) (elemOf (tFmt e.b t) 0) else tensorRow d e.sp e.b t s.slot (if tBind e.b t = 1 ∨ tBind e.b t = 2 then y.toNat % max 1 (tH e.b t) else y.toNat) ch
    | none => []
  else rowOf d e.c.logic s.rg y ch

/-- One channel of the line that `y` names, as stored: none for the zero point. -/
def Src.row (d : Dev) (e : Env) (s : Src) (y : Int) (ch : Nat) : Option (List Int) :=
  if s.nch ≤ ch then none
  else
    let im := (s.image d e e.x0 e.y).2
    match (if s.padV then padAxis s.co.pad im.1 im.2 y else some y) with
    | none => none
    | some y => some (s.rawRow d e y ch)

/-- Position that stream element `i` reads on its line, `dx` further: none for the zero point. A flat region's is `i + dx`. -/
def Src.pos (d : Dev) (e : Env) (s : Src) (i : Nat) (dx : Int) : Option Int :=
  if !s.co.trunk && s.rg.slots == 0 then some (i + dx)
  else
    let im := (s.image d e (e.x0 + i) e.y).1
    padAxis s.co.pad im.1 im.2 (s.co.x (e.x0 + i) + dx)

/-- Element `i` of a row, `dx` further, as stored: none for the zero point. -/
def Src.stored (d : Dev) (e : Env) (s : Src) (row : Option (List Int)) (i : Nat) (dx : Int) : Option Int :=
  match row, s.pos d e i dx with
  | some l, some x => if x < 0 then none else l[x.toNat]?
  | _, _ => none

/-- Element `i` of a row, `dx` further. -/
def Src.el (d : Dev) (e : Env) (s : Src) (row : Option (List Int)) (i : Nat) (dx : Int) : Int := (s.stored d e row i dx).getD s.zp

/-- A run of pixel-wise positions read from Trunk pages that are all at hand; else a fetch is begun and the instruction waits
(R71, R78). Reads count unwritten lines. -/
def touch (e : Env) (runs : List (Nat × Nat)) (d : Dev) : Dev × Bool :=
  let r := runs.foldl (fun (acc : Dev × Bool) x =>
    if acc.2 then let (d, _, ok) := vread acc.1 e.who x.1 x.2; (d, ok) else acc) (d, true)
  r

/-- Unwritten lines that runs hold are counted (R71). -/
def countUnwritten (runs : List (Nat × Nat)) (d : Dev) : Dev := bump d aUnwritten ((runs.map (fun r => cdiv r.2 64)).sum)

/-- Lines of a tensor read, `of y` the runs of line `y`: those that Intake skipped count as unwritten and touch no page (R302). -/
def touchLines (e : Env) (t fn : Nat) (of : Int → List (Nat × Nat)) (ys : List Int) (d : Dev) : Dev × Bool :=
  let (gone, here) := ys.partition (lineSkipped d e.b t fn)
  let (d, ok) := touch e (here.flatMap of) d
  (if ok then countUnwritten (gone.flatMap of) d else d, ok)

/-- Runs of a Trunk source that a record's line of `n` elements touches. -/
def Src.runs (e : Env) (s : Src) (y : Int) (n : Nat) : List (Nat × Nat) :=
  match s.co.trunk, s.t with
  | true, some t =>
    lineRuns e.b t s.slot y.toNat (64 * e.group s.co) (64 * s.co.ncg) (max 0 (s.co.x e.x0)).toNat n
  | _, _ => []

/-- Lines of a source are at hand: no receive of them is outstanding, and the pages of a Trunk source's are. -/
def Src.touch (e : Env) (s : Src) (of : Int → List (Nat × Nat)) (ys : List Int) (d : Dev) : Dev × Bool :=
  if ys.any (fun y => !s.co.trunk && slotBusy d e s.co.index y) then (d, false)
  else if s.co.trunk then touchLines e s.co.index s.fn of (ys.filterMap (padAxis s.co.pad s.yi.1 s.yi.2)) d
  else (d, true)

/-! ## Elements of an operation -/

/-- Stream length of an instruction outside the Twigs, cut at W_out (R218, R223). -/
def Env.len (e : Env) (c : Coord) : Nat := min (spanPx c (iterPx e.b e.p)) (e.c.wo - e.x0)

/-- The second line of the last pair is not stored when H_out is odd (R223). -/
def Env.lineKept (e : Env) (u : Nat) : Bool := hLstep e.b e.p = 0 || u != 1 || decide (e.y + 1 < e.c.ho)

/-- Channels of the destination that its record spans. -/
def Env.chans (e : Env) (c : Coord) : List Nat :=
  let g := 64 * e.group c
  (List.range (64 * c.ncg)).map (g + ·) |>.filter (fun ch => decide (ch < (e.region c).nch))

/-- Values of a destination channel written: stream element and value. -/
def putEls (e : Env) (c : Coord) (line : Int) (ch : Nat) (l : List (Nat × Int)) (d : Dev) : Dev :=
  let rg := e.region c
  let flat := rg.slots == 0
  let l := l.map (fun v => (if flat then (v.1 : Int) else c.x (e.x0 + v.1), v.2))
  putRow rg e.c.logic (if flat then 0 else line) ch l d

/-- Entries of a tensor's codebook (R113, R115). -/
def cbEntries (b : Bytes) (t : Nat) : List Int :=
  let o := tableBody b (tCb b t)
  let (s, n) := if tFmt b t = 9 then (16 * tSub b t, 16) else (0, 256)
  (List.range n).map (fun i => toS 16 (u16 b (o + 2 * (s + i))))

/-- Zero point and codebook of the tensor whose lines a destination region holds. -/
def Env.target (e : Env) (c : Coord) : Nat × List Int :=
  match codeTensor e.b e.p c.index (writeTensor e.b e.p c.index) with
  | some t => (tZp e.b t, cbEntries e.b t)
  | none => (0, [])

end Sys2Proof.Machine
end

