-- ==== Sys2Proof/Machine/TileTwig.lean ====
section
/-! DEFINITION. Twigs: planes, codebooks, the modes of TMAC, TWINO and TDIAG, accumulators, drains and the Twig audit
(R101 to R103, R143 to R171, R213, R222, R548). -/

namespace Sys2Proof.Machine

def twig (d : Dev) (n t : Nat) : Twig := (branch d n).twig.get Twig.reset t
def setTwig (d : Dev) (n t : Nat) (w : Twig) : Dev :=
  setBranch d n { branch d n with twig := (branch d n).twig.put Twig.reset t w }

/-- Twig number in events (R26). -/
def twigNo (n t : Nat) : Nat := 5 * n + t

/-- The spare copies the streams of the Twig under audit (R169). -/
def audits (d : Dev) (n t : Nat) : Bool := (branch d n).armed && fld d (twigState n 4) == 3 && fld d (twigStands n 4) == t

/-- MODE and PLANE of Twig `t`, and of the spare that audits it: those of the instruction that streams. An instruction streams until the
Twig loads a plane or a codebook, a tile of it drains, or the Branch stands at a boundary (R172; DESIGN CHOICE, log entry 61). -/
def streams (n t mode plane : Nat) (d : Dev) : Dev :=
  let d := setFlds d [(twigMode n t, mode), (twigPlane n t, plane)]
  if audits d n t then setFlds d [(twigMode n 4, mode), (twigPlane n 4, plane)] else d

/-- A change of Twig `t` that the spare copies while it audits that Twig. -/
def onTwig (n t : Nat) (f : Twig → Twig) (d : Dev) : Dev :=
  let d := setTwig d n t (f (twig d n t))
  if audits d n t then setTwig d n 4 (f (twig d n 4)) else d

/-! ## Codebooks and planes (R149, R150, R548) -/

/-- Entry of a codebook slot. -/
def bookEntry (w : Twig) (slot i : Nat) : Int :=
  toS 16 ((w.book.get 0 (512 * slot + 2 * i)).toNat + 256 * (w.book.get 0 (512 * slot + 2 * i + 1)).toNat)

/-- Fill a codebook slot from a record of 256 entries. -/
def loadBook (slot : Nat) (bs : Bytes) (w : Twig) : Twig :=
  { w with book := Map.setRange 0 w.book (512 * slot) (512 * slot + 512) (bs.mapIdx (fun i x => (512 * slot + i, x))) }

/-- A weight as the Cells take it, and 1 when S16 saturated to S12 (R102). C8 codes are decoded, C4 codes are kept. -/
def weightOf (w : Twig) (fmt slot code : Nat) : Int × Nat :=
  match fmt with
  | 7 => let v := clampI (-2048) 2047 (elemOf 7 code); (v, if v = elemOf 7 code then 0 else 1)
  | 0xA => (bookEntry w slot code, 0)
  | _ => (elemOf fmt code, 0)

/-- Fill plane `p` with the `n` elements of a tile. -/
def loadPlane (p fmt slot n kh dil : Nat) (bs : Bytes) (w : Twig) : Twig :=
  { w with
    plane := Map.setRange 0 w.plane (p * 65536) (p * 65536 + 65536)
      ((List.range n).map (fun i => (p * 65536 + i, (weightOf w fmt slot (elemCode fmt bs i)).1)))
    geo := w.geo.put 0 p (kh * 16 + dil) }

/-- Saturations of a plane load. -/
def planeSat (fmt n : Nat) (bs : Bytes) (w : Twig) : Nat :=
  ((List.range n).map (fun i => (weightOf w fmt 0 (elemCode fmt bs i)).2)).sum

def planeAt (w : Twig) (p i : Nat) : Int := w.plane.get 0 (p * 65536 + i)

/-! ## Accumulator slots (R152 to R155, R213) -/

/-- Window slot of logical slot `a` in the present iteration. -/
def Env.slot (e : Env) (a : Nat) : Nat := (a + hAccStep e.b e.p * e.c.it) % max 1 (hAccDepth e.b e.p)
/-- Plane that an instruction naming `p` uses. -/
def Env.plane (e : Env) (p : Nat) : Nat := if hPflip e.b e.p = 1 then (p + e.c.it) % 2 else p

def slotHeld (w : Twig) (s : Nat) : Bool := w.slotP.get 0 s != 0
def slotPx (w : Twig) (s : Nat) : Nat := w.slotP.get 0 s / 2
def slotWino (w : Twig) (s : Nat) : Bool := w.slotP.get 0 s % 2 == 1
/-- Slots of 4,096 entries that a Twig's tiles take. -/
def slotsUsed (w : Twig) : Nat := (w.slotP.map (fun e => if e.2 % 2 = 1 then 4 else 1)).sum

/-- Stream elements of an instruction of `nt` tiles of `p` pixels, cut at W_out (R223). -/
def Env.stream (e : Env) (nt p : Nat) : Nat := min (nt * p) (e.c.wo - e.x0)

/-- Tiles that a FIRST step begins and the store has no slot for. `weight` is 4 for WINO (R154). -/
def tilesShort (d : Dev) (e : Env) (t : Nat) (slots : List Nat) (weight : Nat) : Nat :=
  let w := twig d e.n t
  (slots.eraseDups.filter (fun s => !slotHeld w s)).length - (16 - slotsUsed w) / weight

/-- Each held tile counts once in BR_TWIG_ACCSHORT, and the task once per frame (R154). -/
def holdTile (e : Env) (t n : Nat) (d : Dev) : Dev :=
  if e.c.short then d
  else
    let d := bump (mapCur d e.n (fun c => { c with short := true })) (aTwigShort e.n t) n
    match taskSt d e.c.task e.c.pfn e.c.out with
    | some s => if s.flags.testBit fAccShort then d
                else raise (mapTaskE e (fun s => { s with flags := setBit s.flags fAccShort true }) d) 0x0220 e.unit 1 (twigNo e.n t + e.taskArg)
    | none => d

/-- Accumulators `l` of a slot (index and sum to add) take one reduction step: a FIRST step writes them, and begins a slot that
holds no tile from zero; every other step adds. Answers the saturated accumulators too (R103, R223). -/
def accStep (first : Bool) (slot tag : Nat) (l : List (Nat × Int)) (w : Twig) : Twig × Nat :=
  let base := slot * 16384
  let old := if first && !slotHeld w slot then [] else Map.part w.acc base (base + 16384)
  let new := l.map (fun e => (base + e.1, acc40 ((if first then 0 else Map.get 0 old (base + e.1)) + e.2)))
  let keep := old.filter (fun e => !(new.any (fun x => x.1 == e.1)))
  let merged := new.foldl (fun m x => Map.put 0 m x.1 x.2.1) keep
  ({ w with acc := Map.setRange 0 w.acc base (base + 16384) merged
            slotP := if first then w.slotP.put 0 slot tag else w.slotP }, (new.map (fun x => x.2.2)).sum)

def accAt (w : Twig) (slot i : Nat) : Int := w.acc.get 0 (slot * 16384 + i)

/-! ## The Twig audit (R169 to R171) -/

/-- Audit period in tiles: PERIOD 0 to 3 are taken as 4. -/
def auditTiles (d : Dev) (n : Nat) : Nat := 2 ^ max 4 (fld d (auditPeriod n))

/-- The next active Twig after `t`, passing over retired ones. -/
def nextActive (d : Dev) (n t : Nat) : Nat :=
  (((List.range 4).map (fun i => (t + 1 + i) % 4)).find? (fun u => fld d (twigState n u) == 0)).getD t

def setAudit (d : Dev) (n : Nat) (armed : Bool) (aud : List Nat) (fresh : Nat) : Dev :=
  setBranch d n { branch d n with armed, aud, fresh }

/-- The audit ends and the spare is idle: it holds no tile. -/
def endAudit (n : Nat) (d : Dev) : Dev :=
  let d := setAudit d n false [] 0
  if fld d (twigState n 4) = 3 then
    setFlds (setTwig d n 4 (twig d n 4).empty) [(twigState n 4, 1), (twigStands n 4, 0), (twigMode n 4, 0), (twigPlane n 4, 0)]
  else d

/-- The audit arms for the Twig that NEXT names. -/
def arm (n : Nat) (d : Dev) : Dev :=
  setFlds (setTwig (setAudit d n true [] 0) n 4 Twig.reset) [(twigState n 4, 3), (twigStands n 4, fld d (auditNext n))]

/-- AUDIT_ARM: EN is 1, the spare is idle, and 2^PERIOD tiles have been issued since the count began (R169). -/
def auditArmOp (n : Nat) (d : Dev) : Dev :=
  if flag d (auditEn n) && fld d (twigState n 4) = 1 && !(branch d n).armed && decide (auditTiles d n ≤ (branch d n).tiles) then
    arm n (setBranch d n { branch d n with tiles := 0 })
  else d

def execAuditArm (branch : Fin 16) (s : State) : Out := onDev s (auditArmOp branch.val)

/-- A plane of the audited Twig is loaded after arming. -/
def auditPlane (n t p : Nat) (d : Dev) : Dev :=
  if audits d n t then setBranch d n { branch d n with fresh := setBit (branch d n).fresh p true } else d

/-- A reduction step on a slot; `new`: a tile begins there. Tiles of the active Twigs are counted as they begin while the spare is idle.
Of the audited Twig, a tile that begins with a plane loaded after arming may be the audited one; a step with an older plane takes it out. -/
def auditStep (n t slot p : Nat) (new : Bool) (d : Dev) : Dev :=
  let x := branch d n
  let d := if new && flag d (auditEn n) && fld d (twigState n 4) = 1 && t < 4 then setBranch d n { x with tiles := x.tiles + 1 } else d
  let x := branch d n
  if !audits d n t then d
  else if !x.fresh.testBit p then setBranch d n { x with aud := x.aud.filter (· != slot) }
  else if new then setBranch d n { x with aud := x.aud.filter (· != slot) ++ [slot] }
  else d

/-! ## Reduction steps -/

/-- An activation as it enters the array: C4 and C8 codes are decoded through their slot (R114); padding enters as the zero
point. -/
def actOf (w : Twig) (fmt slot sub : Nat) (v : Option Int) (zp : Int) : Int :=
  match v with
  | none => zp
  | some v => if fmt = 9 then bookEntry w slot (16 * sub + v.toNat) else if fmt = 0xA then bookEntry w slot v.toNat else v

/-- Element `i` of channel `ch` as an activation, `dx` further. -/
def actAt (d : Dev) (e : Env) (w : Twig) (s : Src) (fmt slot sub : Nat) (row : Option (List Int)) (i : Nat) (dx : Int) : Int :=
  actOf w fmt slot sub (s.stored d e row i dx) s.zp

/-- A reduction step of mode `tag`: holds on busy lines, slots that drain and slots that do not fit; else adds `sums tile` to each
tile's slot. A tile that does not fit is counted; with no drain in flight the Twig holds it while later instructions go on, and the
result is that of program order (R154, R212; DEDUCED, log entry 51). `mode`: its code in Table Twig-1; `p`, `nt`: pixels and tiles;
`lines`: region lines read. -/
def reduce (e : Env) (s : Src) (mode nt p slots wino plane busy : Nat) (lines : List Int) (sums : Twig → Nat → List (Nat × Int)) (d : Dev) : Dev × Bool :=
  let t := servingTwig d e.n e.i.twig
  let n := e.stream nt p
  let first := e.i.flag 10
  let pl := e.plane plane
  let tiles := (List.range nt).filter (fun j => decide (j * p < n))
  let sl := tiles.map (fun j => e.slot (slots + j))
  if n = 0 then (d, true)
  else if lines.any (fun y => !s.co.trunk && slotBusy d e s.co.index y) then (d, false)
  else if sl.any (fun x => e.c.drains.contains (t, x)) then (d, false)
  else
    let held := if first then tilesShort d e t sl (if wino = 1 then 4 else 1) else 0
    if held ≠ 0 && e.c.drains.any (fun x => x.1 == t) then (holdTile e t held d, false)
    else
    let d := streams e.n t mode pl (if held = 0 then d else holdTile e t held d)
    let r := tiles.foldl (fun (acc : Dev × Nat) j =>
      let slot := e.slot (slots + j)
      let w := twig acc.1 e.n t
      let l := sums w j
      let sat := (accStep first slot (2 * p + wino) l w).2
      let d := auditStep e.n t slot pl (first && !slotHeld w slot) acc.1
      (onTwig e.n t (fun w => (accStep first slot (2 * p + wino) l w).1) d, acc.2 + sat)) (d, 0)
    let d := bump (bump r.1 (aTwigBusy e.n t) busy) (aTwigSat e.n t) r.2
    (addSat e r.2 d, true)

/-- TMAC: each output column adds the products of its weights with the input channels of the record's group (R146, R147, R151). -/
def tmacRun (e : Env) (d : Dev) : Dev × Bool :=
  let w1 := e.i.w1
  let (fa, fw) := (bits w1 0 4, bits w1 4 4)
  let (nt, p) := (bits w1 12 4 + 1, bits w1 16 7)
  let s := srcOf d e (e.coord e.i.ca)
  let y := s.line e
  let rows := planeRows fw
  let pl := e.plane (e.i.ff 12 1)
  let n := e.stream nt p
  let mode := if fa = 6 ∨ fa = 7 then 5 else match fw with | 1 => 2 | 0 => 3 | 9 => 4 | _ => 1
  reduce e s mode nt p (bits w1 8 4) 0 (e.i.ff 12 1) (if fa = 6 ∨ fa = 7 then 2 * n else n) [y] (fun w j =>
    let lines := (List.range rows).map (fun k => s.row d e y (64 * e.group s.co + k))
    let wt (k c : Nat) : Int :=
      let v := planeAt w pl (64 * k + c)
      if fw = 9 then bookEntry w (bits e.i.w2 0 3) (16 * bits e.i.w2 3 4 + v.toNat) else v
    ((List.range p).filter (fun px => decide (j * p + px < n))).flatMap (fun px =>
      let a := lines.map (fun l => actAt d e w s fa (bits w1 23 3) (bits w1 26 4) l (j * p + px) 0)
      (List.range 64).map (fun c => (c * 64 + px, (a.mapIdx (fun k v => v * wt k c)).sum)))) d

def execTmac (branch : Fin 16) (errs : List MemErr) (s : State) : Out := onDev s (tileRead 2 tmacRun s.nv branch.val errs)

/-- TDIAG: DIAG_P gives each channel its own taps along the line; DIAG_G gives each group its block (R162, R163). In DIAG_P the
record's group counts groups of 64 / B channels (DEDUCED, log entry 22). Table Tile-6 gives the instruction no codebook fields: C4 and C8
activations are decoded through slot 0, sub-bank 0 (DESIGN CHOICE, log entry 86). -/
def tdiagRun (e : Env) (d : Dev) : Dev × Bool :=
  let w1 := e.i.w1
  let fa := bits w1 0 4
  let (nt, p) := (bits w1 12 4 + 1, bits w1 16 7)
  let bw := 4 * 2 ^ e.i.ff 14 2
  let s := srcOf d e (e.coord e.i.ca)
  let y := s.line e
  let pl := e.plane (e.i.ff 12 1)
  let n := e.stream nt p
  let g := e.group s.co
  let pxs (j : Nat) := (List.range p).filter (fun px => decide (j * p + px < n))
  reduce e s (if e.i.flag 13 then 8 else 7) nt p (bits w1 8 4) 0 (e.i.ff 12 1) (if e.i.flag 13 then n else cdiv n bw) [y] (fun w j =>
    if e.i.flag 13 then
      let lines := (List.range 64).map (fun k => s.row d e y (64 * g + k))
      (pxs j).flatMap (fun px =>
        let a := lines.map (fun l => actAt d e w s fa 0 0 l (j * p + px) 0)
        (List.range 64).map (fun c => (c * 64 + px,
          ((List.range bw).map (fun r => a.getD (c / bw * bw + r) 0 * planeAt w pl (bw * bw * (c / bw) + bw * r + c % bw))).sum)))
    else
      let geo := w.geo.get 0 pl
      let m := 64 / bw
      (List.range m).flatMap (fun q =>
        let row := s.row d e y (m * g + q)
        (pxs j).map (fun px => ((g % bw * m + q) * 64 + px,
          ((List.range (geo / 16)).map (fun t => actAt d e w s fa 0 0 row (j * p + px) (geo % 16 * t : Nat) * planeAt w pl (geo / 16 * q + t))).sum)))) d

def execTdiag (branch : Fin 16) (errs : List MemErr) (s : State) : Out := onDev s (tileRead 4 tdiagRun s.nv branch.val errs)

/-! ## Winograd (R158 to R160) -/

def winoBT : List (List Int) := [[1, 0, -1, 0], [0, 1, 1, 0], [0, -1, 1, 0], [0, 1, 0, -1]]
def winoAT : List (List Int) := [[1, 1, 1, 0], [0, 1, -1, -1]]

/-- L M L^T for the 4-column matrix `l` and the 4 × 4 matrix `m`: element (i, j). -/
def sandwich (l : List (List Int)) (m : Nat → Nat → Int) (i j : Nat) : Int :=
  ((List.range 4).map (fun a => ((List.range 4).map (fun b => (l.getD i []).getD a 0 * m a b * (l.getD j []).getD b 0)).sum)).sum

/-- The transform buffer of one tile: V at every position of every channel and block. -/
def winoTransform (d : Dev) (e : Env) (s : Src) (fa j p blocks : Nat) (w : Twig) : Twig :=
  let y := s.line e
  let rows := (List.range 64).map (fun k => (List.range 4).map (fun (u : Nat) => s.row d e (y + (u : Int)) (64 * e.group s.co + k)))
  let win (k q a c : Nat) : Int := actAt d e w s fa 0 0 ((rows.getD k []).getD a none) (j * p + 2 * q) c
  let base := j * 16384
  { w with wbuf := Map.setRange 0 w.wbuf base (base + 16384) ((List.range 16).flatMap (fun pos => (List.range 64).flatMap (fun k =>
      (List.range blocks).map (fun q => (base + (pos * 64 + k) * 16 + q, sandwich winoBT (win k q) (pos / 4) (pos % 4)))))) }

/-- TWINO: with XFORM the transform buffer is formed; the named position streams through the plane. -/
def twinoRun (e : Env) (d : Dev) : Dev × Bool :=
  let w1 := e.i.w1
  let fa := bits w1 0 4
  let (nt, p, pos) := (bits w1 10 2 + 1, bits w1 16 6, bits w1 12 4)
  let s := srcOf d e (e.coord e.i.ca)
  let y := s.line e
  let pl := e.plane (e.i.ff 12 1)
  let n := e.stream nt p
  let blocks (j : Nat) : Nat := cdiv (min p (n - j * p)) 2
  let form (w : Twig) (j : Nat) : Twig := if e.i.flag 13 then winoTransform d e s fa j p (blocks j) w else w
  let (d', ok) := reduce e s 6 nt p (bits w1 8 2) 1 (e.i.ff 12 1) (((List.range nt).map blocks).sum)
    (if e.i.flag 13 then (List.range 4).map (fun (u : Nat) => y + (u : Int)) else []) (fun w j =>
    let w := form w j
    let v (k q : Nat) : Int := w.wbuf.get 0 (j * 16384 + (pos * 64 + k) * 16 + q)
    (List.range (blocks j)).flatMap (fun q => (List.range 64).map (fun c =>
      (pos * 1024 + c * 16 + q, ((List.range 64).map (fun k => v k q * planeAt w pl (64 * k + c))).sum)))) d
  if ok then
    (onTwig e.n (servingTwig d e.n e.i.twig) (fun w => ((List.range nt).filter (fun j => decide (j * p < n))).foldl form w) d', true)
  else (d', false)

def execTwino (branch : Fin 16) (errs : List MemErr) (s : State) : Out := onDev s (tileRead 3 twinoRun s.nv branch.val errs)

/-! ## Reading a tile (R153, R160, R222) -/

/-- What a slot drains for output (line 0 or 1, channel, pixel): the accumulator, or the output transform of its block. -/
def tileOut (w : Twig) (slot u c px : Nat) : Int :=
  if slotWino w slot then
    sandwich winoAT (fun a b => accAt w slot ((a * 4 + b) * 1024 + c * 16 + px / 2)) u (px % 2) / 4
  else accAt w slot (c * 64 + px)

/-- One drained element: line offset, stream element, channel of the group, value. -/
structure Drained where
  u : Nat
  i : Nat
  c : Nat
  v : Int
  deriving DecidableEq, Repr

/-- The elements of `nt` tiles from logical slot `a`: pixel `px` of tile `j` is stream element `jP + px`, P kept for tile 0. Tiles
that were never begun give none. -/
def drainEls (d : Dev) (e : Env) (a nt : Nat) : List Drained :=
  let w := twig d e.n (servingTwig d e.n e.i.twig)
  let p0 := slotPx w (e.slot a)
  (List.range nt).flatMap (fun j =>
    let s := e.slot (a + j)
    if !slotHeld w s then []
    else (List.range (if slotWino w s then 2 else 1)).flatMap (fun u => (List.range 64).flatMap (fun c =>
      ((List.range (slotPx w s)).filter (fun px => decide (e.x0 + j * p0 + px < e.c.wo))).map (fun px =>
        { u, i := j * p0 + px, c, v := tileOut w s u c px }))))

/-- The slots of `nt` tiles begin to drain. -/
def beginDrain (e : Env) (a nt : Nat) (d : Dev) : Dev :=
  let t := servingTwig d e.n e.i.twig
  let sl := ((List.range nt).map (fun j => e.slot (a + j))).filter (slotHeld (twig d e.n t))
  let d := streams e.n t 0 0 d
  mapCur d e.n (fun c => { c with drains := c.drains ++ (sl.map (fun s => (t, s))).filter (fun x => !c.drains.contains x) })

/-- The audited tile drains: the comparison ends the audit (R169, R170). -/
def auditCompare (nv : NonVol) (n t slot : Nat) (mismatch : Bool) (task pfn : Nat) (out : Bool) (d : Dev) : Dev :=
  let d := bump d (aAuditDone n) 1
  if mismatch then
    let d := raise (bump d (aAuditMiss n) 1) 0x0821 (0x10 + n) 2 (twigNo n t + twigNo n 4 * 256 + task % 65536 * 65536)
    let d := addFlag task pfn out fAudit d
    let d := recordError nv (5 * n + 4) 6 slot (recordError nv (5 * n + t) 6 slot d)
    if fld d (twigState n 4) = 3 then arm n d else setAudit d n false [] 0
  else setFld (endAudit n d) (auditNext n) (nextActive d n t)

/-- A parity error in entries of Twig `t`: counted once for the tile, at the lowest (R156). -/
def parityError (nv : NonVol) (n t : Nat) (bad : List Nat) (c : Ctx) (d : Dev) : Dev :=
  if bad.isEmpty then d
  else
    let d := raise (bump (addFlag c.task c.pfn c.out fParity d) (aTwigParity n t) 1) 0x0820 (0x10 + n) 2 (twigNo n t + c.task % 65536 * 65536)
    recordError nv (5 * n + t) 3 (bad.foldl min (bad.headD 0)) d

/-- TILE_DRAIN: the oldest tile that drains leaves its slot. `bad`: accumulator store indices whose parity failed; `badSpare`: the same
among the spare's entries, as an audit compares them (R171); `mismatch`: the comparison found entries unequal. -/
def tileDrainOp (nv : NonVol) (n : Nat) (bad badSpare : List Nat) (mismatch : Bool) (d : Dev) : Dev :=
  match curCtx d n with
  | none => d
  | some c =>
    match c.drains with
    | [] => d
    | (t, slot) :: rest =>
      let d := mapCur d n (fun c => { c with drains := rest })
      let w := twig d n t
      let free (w : Twig) : Twig :=
        { w with slotP := w.slotP.put 0 slot 0, acc := Map.setRange 0 w.acc (slot * 16384) (slot * 16384 + 16384) [], bad := setBit w.bad slot false }
      let audited := audits d n t && (branch d n).aud.head? == some slot
      let d := if !audits d n t || audited then d else setBranch d n { branch d n with aud := (branch d n).aud.filter (· != slot) }
      let d := onTwig n t free d
      let badSpare := if audited then badSpare else []
      let parity := !bad.isEmpty || !badSpare.isEmpty
      let d := if parity || w.bad.testBit slot || (audited && mismatch) then mapTask d c.task c.pfn c.out (fun s => { s with bad := s.bad + 1 }) else d
      let d := if audited then (if parity then endAudit n d else auditCompare nv n t slot mismatch c.task c.pfn c.out d) else d
      markBoundary n (parityError nv n 4 badSpare c (parityError nv n t bad c d))

def execTileDrain (branch : Fin 16) (badEntries badSpare : List Nat) (mismatch : Bool) (s : State) : Out :=
  onDev s (tileDrainOp s.nv branch.val badEntries badSpare mismatch)

end Sys2Proof.Machine
end

