-- ==== Sys2Proof/Machine/TileVec.lean ====
section
/-! DEFINITION. The vector unit and the conversions: TACT, TPOOL, TREQ, TSTAT, TCONV, and the maximum tree (R107, R125 to R140,
R174 to R186, R226, R546). -/

namespace Sys2Proof.Machine

/-! ## Operand preparation (R174, R175) -/

/-- A value with the saturations and the invalid scale entries met on the way. -/
structure Prep where
  v   : Int
  sat : Nat
  inv : Nat
  deriving DecidableEq, Repr

/-- A stored element as the value that it stands for: C4 and C8 through the tensor's codebook. -/
def Src.decode (e : Env) (s : Src) (v : Int) : Int :=
  match s.ct with
  | some t => if s.fmt = 9 ∨ s.fmt = 0xA then (cbEntries e.b t).getD v.toNat 0 else v
  | none => v

/-- The word of an element and whether its scale entry is not valid: the operand word, or the SCALE word of its cell (R123, R174). -/
def Src.wordAt (d : Dev) (e : Env) (s : Src) (word : Nat) (x y : Int) (ch : Nat) : Nat × Nat :=
  match s.dyn, s.t with
  | some n, some t =>
    let tc := ((ch : Int) + (if s.co.trunk then 0 else chanShift e.b e.p s.co.index)).toNat
    match (s.cellLine d e y).bind (fun y => cellIndex e.b (groveIdx d e.c.out) t (stepCells d e.c.out n) x y tc) with
    | none => (word, 0)
    | some i =>
      let en := readEntry d e.c.out n i s.fn
      if en.valid then (en.scale, 0) else ((ostepAt e.b n).init, 1)
  | _, _ => (word, 0)

/-- Prepare element (x, y, ch) of the tensor's value `v`. -/
def Src.prep (d : Dev) (e : Env) (s : Src) (word : Nat) (x y : Int) (ch : Nat) (v : Int) : Prep :=
  let (w, inv) := s.wordAt d e word x y ch
  let (r, sat) := satFmt 8 (scaled (s.decode e v - s.zp) w)
  { v := r, sat, inv }

def Prep.zero : Prep := { v := 0, sat := 0, inv := 0 }

/-- Line that an operand reads after vertical padding. -/
def Src.lineOf (d : Dev) (e : Env) (s : Src) (y : Int) : Option Int :=
  if s.padV then padAxis s.co.pad (s.image d e e.x0 e.y).2.1 (s.image d e e.x0 e.y).2.2 y else some y

/-- Prepared stream elements of one channel of the record's line, `dy` further: `n` of them. Padding prepares to 0. -/
def Src.prepRow (d : Dev) (e : Env) (s : Src) (word ch n : Nat) (dy : Int) : List Prep :=
  let y := s.line e + dy
  match (if s.nch ≤ ch then none else s.lineOf d e y) with
  | none => List.replicate n Prep.zero
  | some y' =>
    let row := s.rawRow d e y' ch
    (List.range n).map (fun i => match s.pos d e i 0 with
      | none => Prep.zero
      | some x => if x < 0 then Prep.zero else match row[x.toNat]? with
        | none => Prep.zero
        | some v => s.prep d e word x y' ch v)

/-- Preparations counted: saturations, and elements prepared with INIT (R175, R205). -/
def countPrep (e : Env) (sat inv : Nat) (d : Dev) : Dev :=
  let d := addSat e sat (bump d (aVecSat e.n) sat)
  if inv = 0 then d else onceEvent e 0 0x0311 0 (min inv 0xFFFF) (bump d (aScaleInv e.n) inv)

/-- A source's line is at hand: its Trunk pages are, and no receive of it is outstanding. -/
def srcReady (e : Env) (s : Src) (ys : List Int) (n : Nat) (d : Dev) : Dev × Bool :=
  s.touch e (fun y => s.runs e y n) ys d

/-- Several sources, each at its record's line. -/
def allReady (e : Env) (l : List Src) (n : Nat) (d : Dev) : Dev × Bool :=
  l.foldl (fun (acc : Dev × Bool) s => if acc.2 then srcReady e s [s.line e] n acc.1 else acc) (d, true)

/-! ## TACT (R178 to R181) -/

/-- Table activation: x0, sh, and knot and slope of an entry (R180). -/
def tableAct (x0 : Int) (sh : Nat) (y k : Nat → Int) (x : Int) : Int :=
  let xc := clampI x0 (x0 + (256 * 2 ^ sh : Nat)) x
  let i := min 255 ((xc - x0).toNat / 2 ^ sh)
  y i + rhe (k i * (xc - x0 - (i * 2 ^ sh : Nat))) sh

/-- Table `t` of an instruction: a slot of the Branch, or a ROM table. -/
def tableOp (d : Dev) (e : Env) (t : Nat) (x : Int) : Int :=
  if 0xF0 ≤ t then tableAct (romX0 (t - 0xF0)) (romSh (t - 0xF0)) (romY (t - 0xF0)) (romK (t - 0xF0)) x
  else
    let bs := Map.getN 0 (Map.part (branch d e.n).table (1032 * t) (1032 * t + 1032)) (1032 * t) 1032
    tableAct (toS 32 (u32 bs 0)) (u8 bs 4) (fun i => toS 16 (u16 bs (8 + 4 * i))) (fun i => toS 16 (u16 bs (10 + 4 * i))) x

/-- Result of a TACT operation on prepared operands (Table Vector-1). -/
def tactOp (op : Nat) (tab : Int → Int) (c0 c1 a b s : Int) : Int :=
  match op with
  | 0 => a | 1 => a + b | 2 => a - b | 3 => a * b | 4 => min a b | 5 => max a b | 6 => a.natAbs
  | 7 => min (max a c0) c1 | 8 => if b < a then 1 else 0 | 9 => if 0 < s then a else b
  | 0xA => a * (256 - c0) + b * c0 | 0xB => max a 0 | _ => tab a

/-- Operands of a TACT operation. -/
def tactArity (op : Nat) : Nat := match op with | 0 => 1 | 6 => 1 | 7 => 1 | 0xB => 1 | 0xC => 1 | 9 => 3 | _ => 2

/-- Extra ac of further operands that share a bank group with the first (R179). -/
def bankCost (l : List Region) (n : Nat) : Nat :=
  match l with
  | [] => 0
  | r :: rs => cdiv n 256 * (rs.filter (fun x => r.groups &&& x.groups != 0)).length

/-- Output step of R176: the FIXED record's word, without bias. -/
def outStep (e : Env) (n : Nat) (c : Coord) (v : Int) : Int × Nat :=
  let (zo, cb) := e.target c
  requant (e.region c).fmt zo cb ((ostepAt e.b n).init % 2 ^ 24) v

/-- TACT. -/
def tactRun (e : Env) (d : Dev) : Dev × Bool :=
  let i := e.i
  let op := i.ff 10 4
  let c := e.coord i.cb
  let n := e.len c
  let refs := ([i.ca, bits i.w1 0 8, bits i.w1 8 8].take (tactArity op)).map e.coord
  let opw := [bits i.w1 16 8, bits i.w1 24 8, bits i.w2 0 8]
  let ss := refs.map (srcOf d e)
  let y := e.line c
  let (d, ok) := allReady e ss n d
  if n = 0 then (d, true)
  else if !ok || slotBusy d e c.index y then (d, false)
  else
    let k (j : Nat) : Int := toS 32 (e.word d j)
    let (c0, c1) := (k (bits i.w2 8 8), k (bits i.w2 16 8))
    let chs := e.chans c
    let rows := chs.map (fun ch =>
      let q := ch - 64 * e.group c
      let ps := ss.mapIdx (fun j s => s.prepRow d e (e.word d (opw.getD j 0)) (64 * e.group s.co + q) n 0)
      let at_ (j m : Nat) : Prep := (ps.getD j []).getD m Prep.zero
      let out := (List.range n).map (fun m => outStep e (bits i.w3 0 12) c
        (tactOp op (tableOp d e (bits i.w2 24 8)) c0 c1 (at_ 0 m).v (at_ 1 m).v (at_ 2 m).v))
      (ch, out.mapIdx (fun m r => (m, r.1)), (out.map (·.2)).sum + ((ps.flatten).map (·.sat)).sum, ((ps.flatten).map (·.inv)).sum))
    let d := rows.foldl (fun d r => putEls e c y r.1 r.2.1 d) d
    let total := n * chs.length
    let d := bump d (aVecBusy e.n) (cdiv total 256 + bankCost ((refs.filter (fun r => !r.trunk)).map e.region) total)
    (countPrep e ((rows.map (fun r => r.2.2.1)).sum) ((rows.map (fun r => r.2.2.2)).sum) d, true)

def execTact (branch : Fin 16) (errs : List MemErr) (s : State) : Out := onDev s (tileRead 6 tactRun s.nv branch.val errs)

/-! ## TPOOL (R183 to R186) -/

/-- The source record of a TPOOL: a stride S of the instruction above 1 takes the place of the factor in the record, which folds a
stride of at most 15 (R183, R218; DEDUCED, log entry 24). -/
def TInstr.poolCoord (i : TInstr) (c : Coord) : Coord :=
  let (sh, sw) := (bits i.w1 8 4 + 1, bits i.w1 12 4 + 1)
  { c with lmul := if sh = 1 then c.lmul else sh, lsh := if sh = 1 then c.lsh else 0
           pmul := if sw = 1 then c.pmul else sw, psh := if sw = 1 then c.psh else 0 }

/-- One window: the taps inside the image, and how many there are (R183). The record names the first tap. -/
def poolTaps (d : Dev) (e : Env) (s : Src) (word ch i kh kw : Nat) : List Prep :=
  let im := s.image d e (e.x0 + i) e.y
  (List.range kh).flatMap (fun (ky : Nat) =>
    let y := s.line e + (ky : Int)
    if y < im.2.1 ∨ im.2.2 ≤ y ∨ s.nch ≤ ch then []
    else
      let row := s.rawRow d e y ch
      (List.range kw).filterMap (fun (kx : Nat) =>
        let x := s.co.x (e.x0 + i) + (kx : Int)
        if x < im.1.1 ∨ im.1.2 ≤ x then none else (row[x.toNat]?).map (fun v => s.prep d e word x y ch v)))

/-- Result of a window form. -/
def poolWindow (form kh kw : Nat) (l : List Int) : Int :=
  match form with
  | 0 => match l with | [] => 0 | x :: xs => xs.foldl max x
  | 1 => rheDiv l.sum (kh * kw : Nat)
  | _ => if l.isEmpty then 0 else rheDiv l.sum (l.length : Nat)

/-- A Branch's partial of a global form over one channel of its region, and partials combined. -/
def globPart (form : Nat) (l : List Int) : Int :=
  match form with
  | 3 => l.sum
  | 4 => (l.map (fun v => v * v)).sum
  | 5 => match l with | [] => 0 | x :: xs => xs.foldl min x
  | _ => match l with | [] => 0 | x :: xs => xs.foldl max x

def globJoin (form : Nat) (a b : Int) : Int := match form with | 3 => a + b | 4 => a + b | 5 => min a b | _ => max a b

/-- The elements of one channel of a whole region, prepared. -/
def regionEls (d : Dev) (e : Env) (s : Src) (word ch : Nat) : List Prep :=
  (List.range (max 1 s.rg.slots)).flatMap (fun (k : Nat) =>
    (rowOf d e.c.logic s.rg k ch).mapIdx (fun x v => s.prep d e word x (s.slotLine e k) ch v))

/-- A global form: the Branch's partial is kept at its first attempt; the result is written once every Branch of the task that has
not ended has sent its own (R185). -/
def poolGlobal (e : Env) (form word : Nat) (s : Src) (c : Coord) (d : Dev) : Dev × Bool :=
  let key := (e.c.sect, e.c.idx, e.c.it)
  let chs := e.chans c
  let src (ch : Nat) : Nat := 64 * e.group s.co + (ch - 64 * e.group c)
  match taskSt d e.c.task e.c.pfn e.c.out with
  | none => (d, false)
  | some t =>
    let d := if t.glob.any (fun g => g.1 == key && g.2.1 == e.c.logic) then d
      else
        let ps := chs.map (fun ch => regionEls d e s word (src ch))
        let n := (ps.map List.length).sum
        let d := mapTaskE e (fun t => { t with glob := t.glob ++ [(key, e.c.logic, ps.map (fun l => globPart form (l.map (·.v))))] }) d
        countPrep e ((ps.flatten).map (·.sat)).sum ((ps.flatten).map (·.inv)).sum (bump d (aVecBusy e.n) (cdiv n 256))
    match taskSt d e.c.task e.c.pfn e.c.out with
    | none => (d, false)
    | some t =>
      let got (n : Nat) : Bool := t.glob.any (fun g => g.1 == key && g.2.1 == n)
      let ended (n : Nat) : Bool := d.br.any (fun x => x.2.ctxs.any (fun y => y.task == e.c.task && y.pfn == e.c.pfn && y.out == e.c.out &&
        y.logic == n && y.sect == 4))
      if !(kBranches e.b e.c.task).all (fun n => got n || ended n) then (d, false)
      else
        let parts := (t.glob.filter (fun g => g.1 == key)).map (·.2.2)
        let rg := e.region c
        let r := chs.mapIdx (fun j ch =>
          let v := match parts.map (fun p => p.getD j 0) with | [] => 0 | x :: xs => xs.foldl (globJoin form) x
          if form = 3 ∨ form = 4 then
            let s := clampI (-(2 ^ 63 : Int)) (2 ^ 63 - 1) v
            (ch, le 8 (ofS 64 s), if s = v then 0 else 1)
          else (ch, le 4 (ofS 32 v), 0))
        let d := r.foldl (fun d x => sWrite d e.c.logic (rg.addr (e.line c) x.1 0) x.2.1) d
        (countPrep e ((r.map (fun x => x.2.2)).sum) 0 d, true)

/-- TPOOL. -/
def tpoolRun (e : Env) (d : Dev) : Dev × Bool :=
  let i := e.i
  let form := i.ff 10 3
  let c := e.coord i.cb
  let s := srcOf d e (i.poolCoord (e.coord i.ca))
  let word := e.word d (bits i.w1 16 8)
  let (kh, kw) := (bits i.w1 0 4 + 1, bits i.w1 4 4 + 1)
  let n := e.len c
  let y := e.line c
  if 3 ≤ form then
    if (List.range (max 1 s.rg.slots)).any (fun (y : Nat) => slotBusy d e s.co.index y) || slotBusy d e c.index y then (d, false)
    else poolGlobal e form word s c d
  else
    let ys := (List.range kh).map (fun (ky : Nat) => s.line e + (ky : Int))
    let (d, ok) := srcReady e s ys (n + kw) d
    if n = 0 then (d, true)
    else if !ok || slotBusy d e c.index y then (d, false)
    else
      let chs := e.chans c
      let rows := chs.map (fun ch =>
        let q := 64 * e.group s.co + (ch - 64 * e.group c)
        let taps := (List.range n).map (fun m => poolTaps d e s word q m kh kw)
        let out := taps.map (fun l => outStep e (bits i.w2 0 12) c (poolWindow form kh kw (l.map (·.v))))
        (ch, out.mapIdx (fun m r => (m, r.1)), (out.map (·.2)).sum + ((taps.flatten).map (·.sat)).sum, ((taps.flatten).map (·.inv)).sum))
      let d := rows.foldl (fun d r => putEls e c y r.1 r.2.1 d) d
      let total := n * chs.length
      let d := bump d (aVecBusy e.n) (cdiv total 256 * (kh + kw + if form = 0 then 0 else 2))
      (countPrep e ((rows.map (fun r => r.2.2.1)).sum) ((rows.map (fun r => r.2.2.2)).sum) d, true)

def execTpool (branch : Fin 16) (errs : List MemErr) (s : State) : Out := onDev s (tileRead 5 tpoolRun s.nv branch.val errs)

/-! ## Conversion under a scale step (R107, R120, R132, R137) -/

/-- One element to convert: destination line, stream element, destination channel, value v, and the cell of a dynamic step. -/
structure Conv where
  y    : Int
  i    : Nat
  ch   : Nat
  v    : Int
  cell : Option Nat
  /-- channel of the record's groups that the element is read from -/
  q    : Nat
  deriving DecidableEq, Repr

/-- Element (line, pixel, channel) of the OUT tensor that an element of region `rg` becomes (R122, R123). -/
def destPos (b : Bytes) (p rg : Nat) (y x : Int) (ch : Nat) : Int × Int × Nat :=
  let tc := match storeOf b p rg with | some x => (ch : Int) + 64 * ((x.2.2.cg0 : Int) - x.2.1.cg0) | none => ch
  (outMap b p rg).at y x tc.toNat

/-- Cell of a destination element: that of the OUT tensor's element it becomes. -/
def destCell (d : Dev) (e : Env) (n : Nat) (c : Coord) (y : Int) (x : Int) (ch : Nat) : Option Nat :=
  if (ostepAt e.b n).mode = 0 then none
  else
    let (oy, ox, oc) := destPos e.b e.p c.index y x ch
    cellIndex e.b (groveIdx d e.c.out) ((stepTensor e.b n).getD 0) (stepCells d e.c.out n) ox oy oc

/-- The bias source of an instruction over `m` output channels, read through record `r` (R109, R226). -/
def biasSrc (d : Dev) (e : Env) (r m : Nat) : Src := srcOf d e { e.coord r with ncg := cdiv m 64 }

/-- The bias elements of the first `m` output channels of the record's group. -/
def biasRow (d : Dev) (e : Env) (r m : Nat) : List Int :=
  let s := biasSrc d e r m
  (List.range m).map (fun q => match s.row d e (s.line e) (64 * e.group s.co + q) with
    | some l => s.el d e (some l) 0 0
    | none => 0)

/-- The bias is at hand: a Trunk page of it that is not resident is fetched, and a line still to be received is waited for. -/
def biasReady (e : Env) (r : Option Nat) (m : Nat) (d : Dev) : Dev × Bool :=
  match r with
  | none => (d, true)
  | some r => let s := biasSrc d e r m; srcReady e s [s.line e] 1 d

/-- Cells of a list of elements. -/
def cellsIn (l : List Conv) : List Nat := (l.filterMap (·.cell)).eraseDups

/-- Convert elements into a region under step `n`, target format `f`: every cell that measures waits for its tree; statistics of
the others are gathered on the way, and finished entries are written. An element off the canvas lies in no cell (R123): under a dynamic
step it is not converted, and its place in the region stays as it was (DESIGN CHOICE, log entry 89). -/
def convert (e : Env) (n f : Nat) (c : Coord) (word : Conv → Nat) (l : List Conv) (d : Dev) : Dev × Bool :=
  let o := ostepAt e.b n
  let (zo, cb) := e.target c
  let cells := cellsIn l
  let d := cells.foldl (fun d i => beginCell d e.c.out n i e.c.pfn) d
  if cells.any (fun i => !(cellAt d e.c.out n i e.c.pfn).ready) then (d, false)
  else
    let l := if o.mode = 0 then l else l.filter (fun x => x.cell.isSome)
    let w (x : Conv) : Nat := match x.cell with | some i => invScale (cellAt d e.c.out n i e.c.pfn).scale | none => word x
    let out := l.map (fun x => (x, requant f zo cb (w x) x.v, overrange f zo ((zo : Int) + scaled x.v (w x))))
    let rows := (out.map (fun r => (r.1.y, r.1.ch))).eraseDups
    let d := rows.foldl (fun d k => putEls e c k.1 k.2
      ((out.filter (fun r => r.1.y == k.1 && r.1.ch == k.2)).map (fun r => (r.1.i, r.2.1.1))) d) d
    let d := addSat e ((out.map (fun r => r.2.1.2)).sum) d
    let d := cells.foldl (fun d i =>
      let m := out.filter (fun r => r.1.cell == some i)
      let x := cellAt d e.c.out n i e.c.pfn
      let p := x.parts.get Partial.none e.j
      let p' : Partial := { p with conv := (m.map (fun r => magnitude f zo r.1.v)).foldl max p.conv, ovr := p.ovr + (m.filter (·.2.2)).length, n := p.n + m.length }
      settleCell e n i (setCell d e.c.out n i e.c.pfn { x with parts := x.parts.put Partial.none e.j p' })) d
    (d, true)

/-- Elements of tiles that drain, with their bias, at the lines and channels of destination record `c`. -/
def tileConvs (d : Dev) (e : Env) (n a nt : Nat) (bias : Option Nat) (c : Coord) : List Conv :=
  let bs := match bias with | some r => biasRow d e r 64 | none => []
  ((drainEls d e a nt).filter (fun x => e.lineKept x.u)).map (fun x =>
    let y := e.line c + (x.u : Int)
    let ch := 64 * e.group c + x.c
    { y, i := x.i, ch, v := x.v + bs.getD x.c 0, cell := destCell d e n c y (c.x (e.x0 + x.i)) ch, q := x.c })

/-- Elements of a source record `s`, less its zero point, at the lines and channels of destination record `c`; `at_`: lines, pixels and
channels by which the source lies beyond the one that the conversion of the record `c` reads. -/
def srcConvs (d : Dev) (e : Env) (n : Nat) (s : Src) (bias : Option Nat) (c : Coord) (len : Nat) (at_ : Int × Int × Int) : List Conv :=
  let bs := match bias with | some r => biasRow d e r (64 * c.ncg) | none => []
  (e.chans c).flatMap (fun ch =>
    let q := ch - 64 * e.group c
    let row := s.row d e (s.line e) (64 * e.group s.co + q)
    let y := e.line c
    (List.range len).map (fun i =>
      { y, i, ch, v := (match s.stored d e row i 0 with | some v => s.decode e v - s.zp | none => 0) + bs.getD q 0
        cell := destCell d e n c (y + at_.1) (c.x (e.x0 + i) + at_.2.1) (ch + at_.2.2).toNat, q }))

/-- The word that converts an element of source `s`: of a dynamically scaled one its cell's SCALE word (R136), and 1 when that entry is
not valid; else `base`. -/
def convWord (d : Dev) (e : Env) (s : Src) (base : Nat) (x : Conv) : Nat × Nat :=
  match s.lineOf d e (s.line e), s.pos d e x.i 0 with
  | some sy, some sx => s.wordAt d e base sx sy (64 * e.group s.co + x.q)
  | _, _ => (base, 0)

/-- The v of a TCONV of a dynamically scaled source under a dynamic step: each element rebased by its cell's SCALE word into S32
(R136, R546; DEDUCED, log entry 90), with the saturations. -/
def rebased (d : Dev) (e : Env) (s : Src) (l : List Conv) : List (Conv × Nat) :=
  l.map (fun x => let (v, sat) := satFmt 8 (scaled x.v (convWord d e s scaleIdentity x).1); ({ x with v }, sat))

/-- The TSTATs of step `n` over the region or tensor that record `c` names. -/
def statsOver (b : Bytes) (p n : Nat) (c : Coord) : List TInstr :=
  ((instrsOf b p).map (·.2.2)).filter (fun x => x.op == 8 && x.ostep == some n && x.flag 10 &&
    (coordAt b p x.ca).index == c.index && (coordAt b p x.ca).trunk == c.trunk)

/-- The bias record of a TREQ. With SRC = 1 after TSTATs with BIAS 0 over its region, it has none (R546; DEDUCED, log entry 88). -/
def TInstr.bias (b : Bytes) (p : Nat) (i : TInstr) : Option Nat :=
  if i.flag 10 && (statsOver b p (bits i.w1 20 12) (coordAt b p (bits i.w1 12 8))).any (fun x => !x.flag 12) then none else some i.ca

/-- TREQ: drains tiles, or reads an S32 region, adds the bias and requantises (R226). -/
def treqRun (e : Env) (d : Dev) : Dev × Bool :=
  let w1 := e.i.w1
  let (f, n) := (bits w1 0 4, bits w1 20 12)
  let c := e.coord e.i.cb
  let word (_ : Conv) : Nat := (ostepAt e.b n).init % 2 ^ 24
  let bias := e.i.bias e.b e.p
  let s := srcOf d e (e.coord (bits w1 12 8))
  let len := if e.i.flag 10 then min (e.len s.co) (e.len c) else 0
  if e.i.flag 10 && len = 0 then (d, true)
  else if slotBusy d e c.index (e.line c) then (d, false)
  else
    let (d, ok) := biasReady e bias (if e.i.flag 10 then 64 * c.ncg else 64) d
    let (d, ok) := if ok && e.i.flag 10 then srcReady e s [s.line e] len d else (d, ok)
    if !ok then (d, false)
    else if e.i.flag 10 then convert e n f c word (srcConvs d e n s bias c len (0, 0, 0)) d
    else
      let (a, nt) := (bits w1 4 4, bits w1 8 4 + 1)
      let (d, ok) := convert e n f c word (tileConvs d e n a nt bias c) d
      (if ok then beginDrain e a nt d else d, ok)

def execTreq (branch : Fin 16) (errs : List MemErr) (s : State) : Out := onDev s (tileRead 7 treqRun s.nv branch.val errs)

/-- The conversion that a TSTAT precedes: the TREQ of the same tiles, or the TREQ or TCONV of the same region (R546). -/
def statConv (e : Env) (n : Nat) : Option TInstr :=
  let hit (i : TInstr) : Bool :=
    i.ostep == some n &&
    if e.i.flag 10 then
      (i.op == 9 && (e.coord i.ca).index == (e.coord e.i.ca).index) ||
      (i.op == 7 && i.flag 10 && (e.coord (bits i.w1 12 8)).index == (e.coord e.i.ca).index)
    else i.op == 7 && !i.flag 10 && i.twig == e.i.twig && bits i.w1 4 4 == bits e.i.w1 4 4
  ((instrsOf e.b e.p).find? (fun x => hit x.2.2)).map (·.2.2)

/-- The source record of a conversion. -/
def TInstr.convSrc (i : TInstr) : Nat := if i.op = 7 then bits i.w1 12 8 else i.ca

/-- TSTAT: statistics of the cells that measure; CELL_END sends the Branch's partials (R129, R130, R226, R546). -/
def tstatRun (e : Env) (d : Dev) : Dev × Bool :=
  let w1 := e.i.w1
  let n := bits w1 20 12
  match statConv e n with
  | none => (d, true)
  | some i =>
    let c := e.coord i.cb
    let s := srcOf d e (e.coord e.i.ca)
    let a := srcOf d e (e.coord i.convSrc)
    let at_ : Int × Int × Int := (s.line e - a.line e, s.co.x e.x0 - a.co.x e.x0, 64 * ((e.group s.co : Int) - e.group a.co))
    let bias := if e.i.flag 12 then some e.i.cb else none
    let len := if e.i.flag 10 then min (e.len s.co) (e.len c) else 0
    let (d, ok) := biasReady e bias (if e.i.flag 10 then 64 * c.ncg else 64) d
    let (d, ok) := if ok && e.i.flag 10 then srcReady e s [s.line e] len d else (d, ok)
    if !ok then (d, false)
    else
      let l := if !e.i.flag 10 then tileConvs d e n (bits w1 4 4) (bits w1 8 4 + 1) bias c
        else if i.op = 9 && s.dyn.isSome then (rebased d e s (srcConvs d e n s bias c len at_)).map (·.1)
        else srcConvs d e n s bias c len at_
      let t := (stepTensor e.b n).getD 0
      ((cellsIn l).filter (cellMeasures d e.c.out n · e.c.pfn)).foldl (fun d i =>
        let x := cellAt d e.c.out n i e.c.pfn
        let p := x.parts.get Partial.none e.j
        let m := ((l.filter (fun r => r.cell == some i)).map (fun r => magnitude (tFmt e.b t) (tZp e.b t) r.v)).foldl max p.stat
        let sent := if e.i.flag 11 then setBit x.sent e.j true else x.sent
        setCell d e.c.out n i e.c.pfn { x with parts := x.parts.put Partial.none e.j { p with stat := m }, sent }) d
      |> fun d => (d, true)

def execTstat (branch : Fin 16) (errs : List MemErr) (s : State) : Out := onDev s (tileRead 8 tstatRun s.nv branch.val errs)

/-- MAXIMUM_TREE_DONE: every contributor of the cell has sent its partial, and the scale is derived (R130, R132). -/
def treeDoneOp (n i pfn : Nat) (d : Dev) : Dev :=
  let find (out : Bool) : Option Ctx := (d.br.flatMap (fun x => x.2.ctxs)).find? (fun c => c.pfn == pfn && c.out == out &&
    (taskSteps (imgOf d out) c.task).contains n)
  let go (c : Ctx) : Dev :=
    let b := imgOf d c.out
    let x := cellAt d c.out n i pfn
    let cs := contributors d c.out b c.task n i c.wo c.ho
    if x.ready || cs.isEmpty || !cellMeasures d c.out n i pfn || !cs.all (x.sent.testBit ·) then d else treeDone d c.out n i pfn
  match find false with
  | some c => go c
  | none => match find true with | some c => go c | none => d

def execMaximumTreeDone (ostep cell : Nat) (pfn : Word) (s : State) : Out := onDev s (treeDoneOp ostep cell pfn.toNat)

/-! ## TCONV (R107, R119, R226) -/

/-- A pixel word from channel codes R, G, B and A. -/
def packPixel (pf : Nat) (r g b a : Nat) : Nat :=
  if pf = 0 then b % 256 + g % 256 * 2 ^ 8 + r % 256 * 2 ^ 16 + a % 256 * 2 ^ 24
  else b % 1024 + g % 1024 * 2 ^ 10 + r % 1024 * 2 ^ 20 + (if pf = 1 then a / 256 % 4 else 0) * 2 ^ 30

/-- Channel `c` of a pixel word. -/
def unpackPixel (pf w c : Nat) : Nat :=
  if pf = 0 then (match c with | 0 => bits w 16 8 | 1 => bits w 8 8 | 2 => bits w 0 8 | _ => bits w 24 8)
  else (match c with | 0 => bits w 20 10 | 1 => bits w 10 10 | 2 => bits w 0 10 | _ => bits w 30 2 * 256)

/-- Channel elements that a pixel word stands for. -/
def pixelChannels (pf : Nat) : Nat := if pf = 3 then 3 else 4

/-- TCONV in pixel mode. -/
def convPixels (e : Env) (s : Src) (c : Coord) (pf n : Nat) (d : Dev) : Dev :=
  let y := e.line c
  if e.i.flag 11 then
    let row := s.row d e (s.line e) 0
    ((List.range (pixelChannels pf)).map (fun q => 64 * e.group c + q)).foldl (fun d ch =>
      putEls e c y ch ((List.range n).map (fun i => (i, (unpackPixel pf (s.el d e row i 0).toNat (ch - 64 * e.group c) : Nat)))) d) d
  else
    let rows := (List.range 4).map (fun q => s.row d e (s.line e) (64 * e.group s.co + q))
    let v (q i : Nat) : Nat := (s.el d e (rows.getD q none) i 0).toNat
    putEls e c y 0 ((List.range n).map (fun i => (i, (packPixel pf (v 0 i) (v 1 i) (v 2 i) (v 3 i) : Nat)))) d

/-- TCONV: pixel words packed or unpacked; else each element less its source zero point converted under the record. A dynamically
scaled source takes its cell's SCALE word in place of the record's (R136). -/
def tconvRun (e : Env) (d : Dev) : Dev × Bool :=
  let w1 := e.i.w1
  let n := bits w1 20 12
  let c := e.coord e.i.cb
  let s := srcOf d e (e.coord e.i.ca)
  let len := min (e.len s.co) (e.len c)
  let y := e.line c
  let (d, ok) := srcReady e s [s.line e] len d
  if len = 0 then (d, true)
  else if !ok || slotBusy d e c.index y then (d, false)
  else if e.i.flag 10 then (bump (convPixels e s c (bits w1 4 3) len d) (aVecBusy e.n) (cdiv (pixelChannels (bits w1 4 3) * len) 256), true)
  else
    let l := srcConvs d e n s none c len (0, 0, 0)
    let wordOf := convWord d e s ((ostepAt e.b n).init % 2 ^ 24)
    let inv := if s.dyn.isSome then (l.map (fun x => (wordOf x).2)).sum else 0
    let r := if s.dyn.isSome && (ostepAt e.b n).mode != 0 then rebased d e s l else l.map (fun x => (x, 0))
    let (d, ok) := convert e n (bits w1 0 4) c (fun x => (wordOf x).1) (r.map (·.1)) d
    if !ok then (d, false)
    else
      let walk := l.map (fun x => (wordOf x).1)
      let cells := if s.dyn.isSome then ((walk.zip (walk.drop 1)).filter (fun p => p.1 != p.2)).length else 0
      (countPrep e 0 inv (addSat e (r.map (·.2)).sum (bump d (aVecBusy e.n) (cdiv l.length 256 + cells))), true)

def execTconv (branch : Fin 16) (errs : List MemErr) (s : State) : Out := onDev s (tileRead 9 tconvRun s.nv branch.val errs)

end Sys2Proof.Machine
end

