-- ==== Sys2Proof/Machine/TileDet.lean ====
section
/-! DEFINITION. The warp unit, the box decoder and non-maximum suppression: TWARP, TBOX, TNMS (R187 to R200, R205, R206). -/

namespace Sys2Proof.Machine

/-- Runs of a Trunk source's whole line. -/
def Src.fullRuns (e : Env) (s : Src) (y : Int) : List (Nat × Nat) :=
  match s.co.trunk, s.t with
  | true, some t => lineRuns e.b t s.slot y.toNat (64 * e.group s.co) (64 * s.co.ncg) 0 (tW e.b t)
  | _, _ => []

/-- Lines of a source are at hand. -/
def linesReady (e : Env) (s : Src) (ys : List Int) (d : Dev) : Dev × Bool :=
  s.touch e (s.fullRuns e) ys d

/-! ## TWARP (R187 to R193) -/

/-- Bicubic taps of phases 0 to 8 (Table Warp-1). -/
def bicubicTable : List (List Int) :=
  [[0, 64, 0, 0], [-2, 64, 2, 0], [-3, 61, 6, 0], [-4, 59, 10, -1], [-4, 56, 14, -2], [-5, 51, 20, -2], [-5, 47, 25, -3],
   [-4, 41, 30, -3], [-4, 36, 36, -4]]

/-- Bicubic weight `k` of phase `f`; phases 9 to 15 mirror (R190). -/
def bicubicTap (f k : Nat) : Int :=
  if f ≤ 8 then (bicubicTable.getD f []).getD k 0 else (bicubicTable.getD (16 - f) []).getD (3 - k) 0

/-- Weight of tap (k, l), horizontal then vertical, at phases fx, fy: 2 × 2 or 4 × 4 taps (R189, R190). -/
def warpWeight (cubic : Bool) (fx fy k l : Nat) : Int :=
  if cubic then bicubicTap fx k * bicubicTap fy l
  else (if k = 0 then (16 : Int) - fx else fx) * (if l = 0 then (16 : Int) - fy else fy)

/-- A component of a vector clamped to ±16 × MAX, and whether it changed (R188). -/
def satMv (v : Int) (m : Nat) : Int × Nat :=
  let r := clampI (-(16 * m : Nat)) (16 * m : Nat) v
  (r, if r = v then 0 else 1)

/-- Position on one axis in 1/16 source pixels, from coordinate `x`, a step, a clamped vector component, phase and direction. -/
def warpPos (x : Int) (step : Nat) (dv : Int) (ph : Nat) (dir : Bool) : Int :=
  let o := rhe (dv * ph) 8
  let b := rhe ((2 * x + 1) * step - 0x10000) 13
  if dir then b + o else b - o

/-- The position of a tap on an axis whose image is `lo .. hi - 1`: kept inside it, or none for the CONST border; and whether it lay
outside (R191). -/
def warpTap (const : Bool) (lo hi i : Int) : Option Int × Bool :=
  if lo ≤ i ∧ i < hi then (some i, false) else (if const then none else some (clampI lo (hi - 1) i), true)

/-- TWARP. The records of source and vectors name tensors and groups; positions come from R188. A CONST tap of a dynamically scaled
source lies in no cell: its prepared value is free (log entry 5). -/
def twarpRun (e : Env) (d : Dev) : Dev × Bool :=
  let i := e.i
  let c := e.coord i.cb
  let s := srcOf d e (e.coord i.ca)
  let v := srcOf d e (e.coord (bits i.w1 0 8))
  let n := e.len c
  let y := e.line c
  let (dir, cubic, const) := (i.flag 10, i.flag 11, i.flag 12)
  let mb : Int := (2 ^ i.ff 13 2 : Nat)
  let par := e.word d (bits i.w1 17 8)
  let g := groveIdx d e.c.out
  let (ox, oy) := placeOf e.b g (hOut e.b e.p)
  let org (s : Src) : Int × Int := match s.t with
    | some t => ((placeOf e.b g t).1.org, (placeOf e.b g t).2.org)
    | none => (0, 0)
  let (vo, so) := (org v, org s)
  -- canvas coordinates of the output pixels, where the destination record places them (R187)
  let om := outMap e.b e.p c.index
  let flat := !c.trunk && (e.region c).slots == 0
  let gy : Int := oy.org + (if flat then (e.y : Int) else c.y e.y) + om.lo
  let gxAt (k : Nat) : Int := ox.org + (if flat then ((e.x0 + k : Nat) : Int) else c.x (e.x0 + k)) + om.xo
  let vy := gy.fdiv mb - vo.2
  let vline := padAxis v.co.pad v.yi.1 v.yi.2 vy
  let (d, ok) := linesReady e v (vline.toList) d
  if n = 0 then (d, true)
  else if !ok || slotBusy d e c.index y then (d, false)
  else
    let rowV (q : Nat) : List Int := match vline with
      | some y => v.rawRow d e y (64 * e.group v.co + q)
      | none => []
    let (rx, ry) := (rowV 0, rowV 1)
    let vec (row : List Int) (gx : Int) : Int := match padAxis v.co.pad v.xi.1 v.xi.2 (gx.fdiv mb - vo.1) with
      | some x => row.getD x.toNat 0
      | none => 0
    let pos := (List.range n).map (fun (k : Nat) =>
      let gx := gxAt k
      let mx := satMv (vec rx gx) (bits par 0 10)
      let my := satMv (vec ry gx) (bits par 10 8)
      (warpPos gx (bits i.w2 0 19) mx.1 (bits i.w1 8 9) dir, warpPos gy (bits i.w3 0 19) my.1 (bits i.w1 8 9) dir, mx.2 + my.2))
    let (m, off) : Nat × Int := if cubic then (4, 1) else (2, 0)
    let im (k : Nat) : (Int × Int) × (Int × Int) := s.image d e (gxAt k - ox.org) (gy - oy.org)
    let taps := pos.mapIdx (fun k p =>
      let ix := p.1.fdiv 16 - off - so.1
      let iy := p.2.1.fdiv 16 - off - so.2
      let xs := (List.range m).map (fun (a : Nat) => warpTap const (im k).1.1 (im k).1.2 (ix + a))
      let ys := (List.range m).map (fun (a : Nat) => warpTap const (im k).2.1 (im k).2.2 (iy + a))
      (xs, ys, (p.1 % 16).toNat, (p.2.1 % 16).toNat, (xs ++ ys).any (·.2)))
    let lines := (taps.flatMap (fun t => t.2.1.filterMap (·.1))).eraseDups
    let (d, ok) := linesReady e s lines d
    if !ok then (d, false)
    else
      let chs := (e.chans c).take 4
      let cw := toS 32 (e.word d (bits i.w2 19 8))
      let rows := chs.mapIdx (fun j ch =>
        let q := 64 * e.group s.co + (ch - 64 * e.group c)
        let table := lines.map (fun y => (y, s.rawRow d e y q))
        let raw (x y : Int) : Int := match table.find? (fun r => r.1 == y) with | some r => r.2.getD x.toNat s.zp | none => s.zp
        let out : List ((Nat × Int) × Nat × Nat × Nat) := taps.mapIdx (fun k t =>
          let (xs, ys, fx, fy, _) := t
          let parts : List (Int × Nat × Nat) := (List.range m).flatMap (fun l => (List.range m).map (fun h =>
            let w := warpWeight cubic fx fy h l
            match (xs.getD h (none, true)).1, (ys.getD l (none, true)).1 with
            | some x, some y =>
              if s.dyn.isSome then let p := s.prep d e scaleIdentity x y q (raw x y); (w * p.v, p.sat, p.inv) else (w * raw x y, 0, 0)
            | _, _ =>
              let f : Int := if s.dyn.isSome then toS 32 (Config.freeValue (d.free + ((j * n + k) * 16 + l * 4 + h))) else cw
              (w * f, 0, 0)))
          let sum := (parts.map (·.1)).sum
          let r := if s.dyn.isSome then outStep e (bits i.w3 19 12) c sum
            else if cubic then satFmt s.fmt (rhe sum 12) else (rhe sum 8, 0)
          ((k, r.1), r.2, (parts.map (·.2.1)).sum, (parts.map (·.2.2)).sum))
        (ch, out))
      let d := rows.foldl (fun d r => putEls e c y r.1 (r.2.map (·.1)) d) d
      let outs := rows.flatMap (·.2)
      let sat := (outs.map (fun o => o.2.1 + o.2.2.1)).sum
      let d := if s.dyn.isSome then countPrep e sat (outs.map (·.2.2.2)).sum { d with free := d.free + 64 * n } else addSat e sat d
      let mv := (pos.map (·.2.2)).sum
      let d := if mv = 0 then d else onceEvent e 1 0x0310 0 (min mv 0xFFFF) (bump d (aMvClamp e.n) mv)
      let d := bump d (aWarpEdge e.n) (taps.filter (fun t => t.2.2.2.2)).length
      (bump d (aWarpBusy e.n) (if cubic then cdiv n 8 else cdiv n 32), true)

def execTwarp (branch : Fin 16) (errs : List MemErr) (s : State) : Out := onDev s (tileRead 0xA twarpRun s.nv branch.val errs)

/-! ## Candidate records (R195, R198) -/

/-- A candidate (Table Detect-1). -/
structure Cand where
  x0 : Int
  y0 : Int
  x1 : Int
  y1 : Int
  score  : Int
  cls    : Nat
  flags  : Nat
  anchor : Nat
  deriving DecidableEq, Repr

def Cand.bytes (c : Cand) : Bytes :=
  le 4 (ofS 32 c.x0) ++ le 4 (ofS 32 c.y0) ++ le 4 (ofS 32 c.x1) ++ le 4 (ofS 32 c.y1) ++ le 4 (ofS 32 c.score) ++ le 2 c.cls ++
  le 2 c.flags ++ le 4 c.anchor ++ le 4 0

def Cand.read (b : Bytes) (o : Nat) : Cand :=
  { x0 := toS 32 (u32 b o), y0 := toS 32 (u32 b (o + 4)), x1 := toS 32 (u32 b (o + 8)), y1 := toS 32 (u32 b (o + 12))
    score := toS 32 (u32 b (o + 16)), cls := u16 b (o + 20), flags := u16 b (o + 22), anchor := u32 b (o + 24) }

/-- `a` comes strictly before `b` in the order of R198. -/
def Cand.before (a b : Cand) : Bool :=
  decide (b.score < a.score) || (a.score == b.score && (decide (a.anchor < b.anchor) || (a.anchor == b.anchor && decide (a.cls < b.cls))))

/-- Placed after every record that it does not come before. -/
def Cand.place (x : Cand) : List Cand → List Cand
  | [] => [x]
  | c :: cs => if x.before c then x :: c :: cs else c :: Cand.place x cs

/-- Records in the order of R198; equal ones keep their order. -/
def Cand.sort (l : List Cand) : List Cand := l.foldl (fun acc x => x.place acc) []

/-- A list with its header: records, dropped count, frame number. -/
def listBytes (l : List Cand) (dropped fn : Nat) : Bytes :=
  le 4 l.length ++ le 4 dropped ++ le 4 fn ++ List.replicate 20 0 ++ l.flatMap Cand.bytes

/-- The records and the dropped count of the list in region `rg` of the instruction's Branch; at most `m` records. -/
def listRead (d : Dev) (e : Env) (rg m : Nat) : List Cand × Nat :=
  let a := (regionAt e.b e.p rg).base * 1024
  let h := sRead d e.c.logic a 32
  let n := min m (u32 h 0)
  let bs := sRead d e.c.logic (a + 32) (32 * n)
  ((List.range n).map (fun i => Cand.read bs (32 * i)), u32 h 4)

def listWrite (e : Env) (rg : Nat) (l : List Cand) (dropped : Nat) (d : Dev) : Dev :=
  sWrite d e.c.logic ((regionAt e.b e.p rg).base * 1024) (listBytes l dropped e.c.pfn)

/-! ## TBOX (R194 to R197) -/

/-- A coordinate held to the canvas when CLIP is set, and whether it changed; a value outside S32 is free (log entry 5). -/
def boxCoord (clip : Bool) (hi : Int) (free : Nat) (v : Int) : Int × Bool :=
  let w := if clip then clampI 0 hi v else v
  (if -(2 ^ 31 : Int) ≤ w ∧ w < 2 ^ 31 then w else toS 32 (Config.freeValue free), w != v)

/-- Canvas width and height in pixels for a score tensor on a grid of stride `s`. -/
def boxCanvas (b : Bytes) (t : Option Nat) (s : Nat) : Nat × Nat :=
  match t with
  | some t => if hasGrove b && !gvNocanvas b t then (gvCanvasW b, gvCanvasH b) else (tW b t * s, tH b t * s)
  | none => (0, 0)

/-- The largest class score, and the lowest class that attains it. -/
def bestClass (l : List Int) : Int × Nat :=
  match l with
  | [] => (0, 0)
  | x :: xs => (xs.foldl (fun (a : (Int × Nat) × Nat) v => (if a.1.1 < v then (v, a.2) else a.1, a.2 + 1)) ((x, 0), 1)).1

/-- TBOX. The first TBOX of the frame on a list region begins the list; each further one adds to it (DEDUCED, log entry 25). -/
def tboxRun (e : Env) (d : Dev) : Dev × Bool :=
  let i := e.i
  let s := srcOf d e (e.coord i.ca)
  let v := srcOf d e (e.coord (bits i.w1 0 8))
  let list := (e.coord i.cb).index
  let (st, nc, cap) := (bits i.w1 8 6 + 1, bits i.w1 14 8 + 1, bits i.w2 0 12 + 1)
  let thresh := toS 32 (e.word d (bits i.w2 12 8))
  let n := e.len s.co
  let (d, ok) := allReady e [s, v] n d
  if n = 0 then (d, true)
  else if !ok || slotBusy d e list 0 then (d, false)
  else
    let g := groveIdx d e.c.out
    let (ox, oy) : Int × Int := match s.t with
      | some t => ((placeOf e.b g t).1.org, (placeOf e.b g t).2.org)
      | none => (0, 0)
    let (cw, ch) := boxCanvas e.b s.t st
    let rows (s : Src) (word k : Nat) : List (List Prep) :=
      (List.range k).map (fun q => s.prepRow d e (e.word d word) (64 * e.group s.co + q) n 0)
    let sc := rows s (bits i.w2 20 8) nc
    let di := rows v (bits i.w3 0 8) 4
    let at_ (l : List (List Prep)) (q m : Nat) : Int := ((l.getD q []).getD m Prep.zero).v
    let gy : Int := oy + s.line e
    let hits := (List.range n).filterMap (fun m =>
      match s.lineOf d e (s.line e), s.pos d e m 0 with
      | some _, some x =>
        let gx : Int := ox + x
        let (score, cls) := bestClass ((List.range nc).map (fun q => at_ sc q m))
        if score < thresh then none
        else
          let cx := 16 * gx * st + 8 * st
          let cy := 16 * gy * st + 8 * st
          let f (k : Nat) (hi : Nat) (v : Int) : Int × Bool := boxCoord (i.flag 10) (16 * hi : Nat) (d.free + 4 * m + k) v
          let (x0, y0) := (f 0 cw (cx - at_ di 0 m * st), f 1 ch (cy - at_ di 1 m * st))
          let (x1, y1) := (f 2 cw (cx + at_ di 2 m * st), f 3 ch (cy + at_ di 3 m * st))
          some ({ x0 := x0.1, y0 := y0.1, x1 := x1.1, y1 := y1.1, score, cls
                  flags := if x0.2 || y0.2 || x1.2 || y1.2 then 2 else 0
                  anchor := (gy * (cdiv cw st : Nat) + gx).toNat } : Cand)
      | _, _ => none)
    let (old, dr) := if e.c.boxes.contains list then listRead d e list cap else ([], 0)
    let all := Cand.sort (old ++ hits)
    let kept := all.take cap
    let drop := all.length - kept.length
    let d := listWrite e list kept (dr + drop) { d with free := d.free + 4 * n }
    let d := mapCur d e.n (fun c => { c with boxes := if c.boxes.contains list then c.boxes else list :: c.boxes })
    let d := bump (bump d (aBoxCand e.n) (kept.length - old.length)) (aBoxDrop e.n) drop
    let d := if drop = 0 then d else onceEvent e 2 0x0240 2 (min drop 0xFFFF) d
    let all := (sc ++ di).flatten
    (countPrep e (all.map (·.sat)).sum (all.map (·.inv)).sum d, true)

def execTbox (branch : Fin 16) (errs : List MemErr) (s : State) : Out := onDev s (tileRead 0xD tboxRun s.nv branch.val errs)

/-! ## TNMS (R198 to R201) -/

/-- Area of a box side pair; 0 when either side is not positive. -/
def boxArea (x0 y0 x1 y1 : Int) : Int := if x1 ≤ x0 ∨ y1 ≤ y0 then 0 else (x1 - x0) * (y1 - y0)

/-- Kept record `a` suppresses record `b` (R199). -/
def suppresses (agnostic : Bool) (t : Nat) (a b : Cand) : Bool :=
  let inter := boxArea (max a.x0 b.x0) (max a.y0 b.y0) (min a.x1 b.x1) (min a.y1 b.y1)
  let union := boxArea a.x0 a.y0 a.x1 a.y1 + boxArea b.x0 b.y0 b.x1 b.y1 - inter
  (agnostic || a.cls == b.cls) && union != 0 && decide ((t : Int) * union < 1024 * inter)

/-- The walk of R199 and R200: records kept, first kept last, and records left unwalked. -/
def nmsWalk (agnostic : Bool) (t cap : Nat) : List Cand → List Cand → List Cand × Nat
  | kept, [] => (kept, 0)
  | kept, x :: xs =>
    if cap ≤ kept.length then (kept, xs.length + 1)
    else if kept.any (fun a => suppresses agnostic t a x) then nmsWalk agnostic t cap kept xs
    else nmsWalk agnostic t cap (x :: kept) xs

/-- TNMS: the lists are those of NLIST regions from the first on (DEDUCED, log entry 25). -/
def tnmsRun (e : Env) (d : Dev) : Dev × Bool :=
  let i := e.i
  let first := (e.coord i.ca).index
  let out := (e.coord i.cb).index
  let lists := (List.range (bits i.w1 0 4 + 1)).map (first + ·)
  if (out :: lists).any (fun r => slotBusy d e r 0) then (d, false)
  else
    let l := Cand.sort ((lists.flatMap (fun r => (listRead d e r 16384).1)).take 16384)
    let (kept, left) := nmsWalk (i.flag 10) (bits i.w1 16 11) (bits i.w2 0 10 + 1) [] l
    let d := listWrite e out (kept.reverse.map (fun c => { c with flags := setBit c.flags 0 true })) left d
    let d := bump (bump d (aNmsKept e.n) kept.length) (aNmsDrop e.n) left
    (if left = 0 then d else onceEvent e 3 0x0241 2 (min left 0xFFFF) d, true)

def execTnms (branch : Fin 16) (errs : List MemErr) (s : State) : Out := onDev s (tileRead 0xE tnmsRun s.nv branch.val errs)

end Sys2Proof.Machine
end

