-- ==== Sys2Proof/Machine/TileMove.lean ====
section
/-! DEFINITION. Moves between Trunk, Branch stores and Twigs: TLOAD, TMCAST, THALO, TSTORE (R72, R100, R224 to R232, R412,
R413, R490). -/

namespace Sys2Proof.Machine

/-! ## Pattern tensors (R412, R413) -/

def mix32 (v : Nat) : Nat :=
  let v := v ^^^ (v / 2 ^ 16)
  let v := v * 0x7FEB352D % 2 ^ 32
  let v := v ^^^ (v / 2 ^ 15)
  let v := v * 0x846CA68B % 2 ^ 32
  v ^^^ (v / 2 ^ 16)

/-- Bits of a pattern value: the width of the element. -/
def patternBits (f : Nat) : Nat := match f with | 5 => 12 | _ => elemBits f

/-- Element at canvas (X, Y) of channel `c`, `f` frames since apply for a TEMPORAL pattern. -/
def patternEl (fmt seed f c : Nat) (x y : Int) : Int :=
  let h := mix32 (mix32 (mix32 (seed ^^^ ofS 32 x) ^^^ ofS 32 y) ^^^ ((f * 4 + c) % 2 ^ 32))
  let b := patternBits fmt
  if fmt = 2 ∨ fmt = 7 then (toS 32 h).fdiv (2 ^ (32 - b)) else (h / 2 ^ (32 - b) : Nat)

/-- First frame that pipeline `p` opened under its Graft (R413). -/
def firstPfn (d : Dev) (out : Bool) (p : Nat) : Nat :=
  match d.stem.first.find? (fun e => e.1 == (p, out)) with | some e => e.2 | none => 0

/-! ## TLOAD (R224, R225) -/

/-- Values of a line of frame `fn` of tensor `t`, in frame slot `slot`: position and element, of `n` positions from stream element 0.
Without a slot, and of a line that Intake skipped, zeros are read (R71, R302). -/
def loadLine (d : Dev) (e : Env) (a : Coord) (slot : Option Nat) (fn : Nat) (y : Int) (ch n : Nat) (img : Int × Int) : List (Int × Int) :=
  let t := a.index
  let inside (l : List Int) : List Int := l.filter (fun x => decide (0 ≤ x ∧ x < (tW e.b t : Int)))
  let zp : Int := tZp e.b t
  let xs := (List.range n).map (fun i => a.x (e.x0 + i))
  match (if tC e.b t ≤ ch then none else padAxis a.pad img.1 img.2 y) with
  | none => xs.map (fun x => (x, zp))
  | some y' =>
    match patternOf e.b t, slot with
    | some (temporal, seed), _ =>
      let (px, py) := placeOf e.b (groveIdx d e.c.out) t
      let f := if temporal then sub32 e.c.pfn (firstPfn d e.c.out (kPipe e.b e.c.task)) else 0
      (inside xs).map (fun x =>
        (x, patternEl (tFmt e.b t) seed f ch (px.org + x) (py.org + y')))
    | none, none => (inside xs).map (fun x => (x, elemOf (tFmt e.b t) 0))
    | none, some slot =>
      if lineSkipped d e.b t fn y' then (inside xs).map (fun x => (x, elemOf (tFmt e.b t) 0))
      else
        let y' := if tBind e.b t = 1 ∨ tBind e.b t = 2 then y'.toNat % max 1 (tH e.b t) else y'.toNat
        let row : List Int := tensorRow d e.sp e.b t slot y' ch
        (inside xs).map (fun x => (x, row.getD x.toNat zp))

/-- Pages that a REL leaves to the Branch's release of them. -/
def relDone (e : Env) (pages : List Nat) (d : Dev) : Dev := mapCur d e.n (fun c => { c with rels := c.rels ++ pages })

/-- Runs read from a frame slot; without one they are unwritten lines of a page that holds nothing (R71, R224). -/
def touchSlot (e : Env) (slot : Option Nat) (runs : List (Nat × Nat)) (d : Dev) : Dev × Bool :=
  if slot.isSome then touch e runs d
  else
    let d := countUnwritten runs d
    match (pagesOf runs).find? (fun v => (pageAt d e.sp v).loc == 0) with
    | some v => (unwrittenEvent d e.who v, true)
    | none => (d, true)

/-- Frame slot that the TLOAD reads of tensor `t`. -/
def Env.loadSlot (e : Env) (d : Dev) (t : Nat) : Option Nat := Machine.loadSlot d e.b e.c.task e.c.pfn e.i t

/-- `n` bytes of a slot, zeros without one. -/
def slotBytes (d : Dev) (e : Env) (slot : Option Nat) (a n : Nat) : Bytes := if slot.isSome then vpeek d e.sp a n else List.replicate n 0

/-- Whole weight tiles of a tensor go into a flat region that plane loads read. -/
def loadTiles (e : Env) (a dst : Coord) (tb : Nat) (d : Dev) : Dev × Bool :=
  let rg := e.region dst
  let cap := max 1 (rg.size * 1024 / tb)
  let slot := e.loadSlot d a.index
  let at_ (k : Nat) : Nat := tileAddr e.b a.index (slot.getD 0) (e.group a + k) tb
  let (d, ok) := touchSlot e slot [(at_ 0, a.ncg * tb)] d
  if !ok then (d, false)
  else
    let d := (List.range a.ncg).foldl (fun d k =>
      sWrite d e.c.logic (rg.base * 1024 + (e.group dst + k) % cap * tb) (slotBytes d e slot (at_ k) tb)) d
    (if e.i.flag 12 && slot.isSome then relDone e (pagesOf [(at_ 0, a.ncg * tb)]) d else d, true)

/-- Frame whose data a TLOAD reads: with LATEST the one before the Ring's value (R224, R547). -/
def Env.loadFrame (e : Env) (d : Dev) (t : Nat) : Nat :=
  if e.i.flag 13 then sub32 (ringVal d (e.i.w2 / 65536)) 1 else dataFrame d e.b e.c.task e.c.pfn t (bits e.i.w2 0 4)

/-- TLOAD of KIND lines. -/
def loadLines (e : Env) (d : Dev) : Dev × Bool :=
  let a := e.coord e.i.ca
  let dst := e.coord e.i.cb
  let rg := e.region dst
  let t := a.index
  let nl := bits e.i.w1 0 5
  let lines := (List.range nl).map (fun (j : Nat) => a.y e.y + (j : Int))
  let n := spanPx a (tW e.b t)
  if lines.any (slotBusy d e dst.index) then (d, false)
  else match loadsTiles e.b e.p e.i with
  | some tb => loadTiles e a dst tb d
  | none =>
    let fn := e.loadFrame d t
    let s : Src := { srcOf d e { a with trunk := true } with fn, xi := (imageOf d e.b e.c.out t fn).1, yi := (imageOf d e.b e.c.out t fn).2 }
    let img := (s.image d e e.x0 e.y).2
    let slot := e.loadSlot d t
    let runs (y : Int) : List (Nat × Nat) :=
      if (patternOf e.b t).isSome then []
      else lineRuns e.b t (slot.getD 0) y.toNat (64 * e.group a) (64 * a.ncg) (max 0 (a.x e.x0)).toNat n
    let ys := lines.filterMap (padAxis a.pad img.1 img.2)
    let (d, ok) := if slot.isSome then touchLines e t fn runs ys d else touchSlot e none (ys.flatMap runs) d
    if !ok then (d, false)
    else
      let chs := if rg.fmt = 0xF then 1 else 64 * a.ncg
      let d := lines.foldl (fun d y => (List.range chs).foldl (fun d q =>
        let l := loadLine d e a slot fn y (64 * e.group a + q) n img
        let l := if rg.slots = 0 then l.map (fun v => (v.1 - a.x e.x0, v.2)) else l
        putRow rg e.c.logic (if rg.slots = 0 then y - a.y e.y else y) (64 * e.group dst + q) l d) d) d
      let d := if e.i.flag 13 then mapCur d e.n (fun c => { c with lat := (dst.index, fn) :: c.lat.filter (fun x => x.1 != dst.index) }) else d
      (if e.i.flag 12 && slot.isSome then relDone e (pagesOf (ys.flatMap runs)) d else d, true)

/-- Bytes of the weight tile that a record names: in a region, or in the Trunk; none while they are not at hand. -/
def tileSource (d : Dev) (e : Env) (c : Coord) (tb : Nat) : Dev × Option Bytes :=
  if c.trunk then
    let slot := e.loadSlot d c.index
    let a := tileAddr e.b c.index (slot.getD 0) (e.group c) tb
    let (d, ok) := touchSlot e slot [(a, tb)] d
    (d, if ok then some (slotBytes d e slot a tb) else none)
  else if slotBusy d e c.index 0 then (d, none)
  else
    let rg := e.region c
    (d, some (sRead d e.c.logic (rg.base * 1024 + e.group c % max 1 (rg.size * 1024 / max 1 tb) * tb) tb))

/-- TLOAD of KIND plane: fills a plane of a Twig with a tile (R149, R548). -/
def loadPlaneRun (e : Env) (d : Dev) : Dev × Bool :=
  let c := e.coord e.i.ca
  let fmt := if c.trunk then tFmt e.b c.index
    else match weightTensor e.b e.p c.index with | some t => tFmt e.b t | none => (e.region c).fmt
  let t := servingTwig d e.n e.i.twig
  let n := tileElems e.i.layout fmt e.i.bw e.i.kh
  match tileSource d e c (tileBytes e.i.layout fmt e.i.bw e.i.kh) with
  | (d, none) => (d, false)
  | (d, some bs) =>
    let pl := e.plane (e.i.ff 14 1)
    let sat := planeSat fmt n bs (twig d e.n t)
    let d := auditPlane e.n t pl d
    (addSat e sat (onTwig e.n t (loadPlane pl fmt (bits e.i.w1 14 3) n e.i.kh e.i.dil bs) (streams e.n t 0 0 d)), true)

/-- TLOAD: lines, plane, codebook slot or activation table slot. -/
def tloadRun (e : Env) (d : Dev) : Dev × Bool :=
  let body := tableBody e.b (e.i.w1 / 65536)
  let slot := bits e.i.w1 0 3
  match e.i.ff 10 2 with
  | 0 => loadLines e d
  | 1 => loadPlaneRun e d
  | 2 =>
    let t := servingTwig d e.n e.i.twig
    (onTwig e.n t (loadBook slot (slice e.b body 512)) (streams e.n t 0 0 d), true)
  | _ =>
    let x := branch d e.n
    let rec_ := (slice e.b body 1032).mapIdx (fun i v => (1032 * slot + i, v))
    (setBranch d e.n { x with table := Map.setRange 0 x.table (1032 * slot) (1032 * slot + 1032) rec_ }, true)

def execTload (branch : Fin 16) (errs : List MemErr) (s : State) : Out := onDev s (tileRead 1 tloadRun s.nv branch.val errs)

/-! ## Multicast (R232, R490) -/

/-- TMCAST: the Branch's request for tiles on a tree. -/
def tmcastRun (e : Env) (d : Dev) : Dev × Bool :=
  let a := e.coord e.i.ca
  let c := e.coord e.i.cb
  let m : Mcast :=
    { tree := bits e.i.w1 0 6, tensor := a.index, slot := moveSlot d e.b e.c.task e.c.pfn a.index 0, tile := e.group a, ntile := bits e.i.w1 8 4 + 1, region := c.index, t0 := e.group c,
      rel := e.i.flag 10, task := e.c.task, pfn := e.c.pfn, out := e.c.out, logic := e.c.logic, sigNo := e.c.nSig }
  let x := branch d e.c.logic
  (setBranch d e.c.logic { x with mcast := x.mcast ++ [m] }, true)

def execTmcast (branch : Fin 16) (s : State) : Out := onDev s (tileOp 0xC tmcastRun s.nv branch.val)

/-- Same tree, tensor and tile index in one frame. -/
def Mcast.pairs (x y : Mcast) : Bool :=
  x.tree == y.tree && x.tensor == y.tensor && x.tile == y.tile && x.task == y.task && x.pfn == y.pfn && x.out == y.out

/-- Tile size of a request: that of the plane loads of its task's program. -/
def mcastTb (b : Bytes) (m : Mcast) : Nat := (regionTile b (progOff b (kProg b m.task)) m.region (tFmt b m.tensor)).getD 4096

/-- Address of the first tile of a request. -/
def Mcast.addr (b : Bytes) (m : Mcast) : Nat := tileAddr b m.tensor m.slot m.tile (mcastTb b m)

/-- A member's copy lands: its tiles go into its region, and its REL is complete. -/
def mcastLand (bs : Bytes) (m : Mcast) (d : Dev) : Dev :=
  let b := imgOf d m.out
  let rg := regionAt b (progOff b (kProg b m.task)) m.region
  let tb := mcastTb b m
  let x := branch d m.logic
  let gone := (lowest x.mcast.length (fun i => match x.mcast[i]? with | some y => y.pairs m | none => false)).getD 0
  let d := setBranch d m.logic { x with mcast := x.mcast.eraseIdx gone }
  let d := (List.range m.ntile).foldl (fun d k =>
    sWrite d m.logic (rg.base * 1024 + (m.t0 + k) % max 1 (rg.size * 1024 / tb) * tb) (slice bs (k * tb) tb)) d
  if m.rel then
    let l := pagesOf [(m.addr b, m.ntile * tb)]
    let upd (c : Ctx) : Ctx :=
      if c.task == m.task && c.pfn == m.pfn && c.out == m.out && c.logic == m.logic then { c with rels := c.rels ++ l } else c
    { d with br := d.br.map (fun e => (e.1, { e.2 with ctxs := e.2.ctxs.map upd })) }
  else d

/-- Requests of each Branch on a tree, the first of each tile: a later one of the same tile is its next occurrence (R232). -/
def mcastReqs (d : Dev) (tree : Nat) : List Mcast :=
  d.br.flatMap (fun x => (x.2.mcast.filter (fun m => m.tree == tree)).foldl (fun l m => if l.any m.pairs then l else l ++ [m]) [])

/-- MULTICAST_FETCH: the oldest request of the tree that every member in service has made is fetched once and lands at all of
them. A Branch whose work is hosted fetches alone. -/
def multicastFetchOp (nv : NonVol) (tree : Nat) (errs : List MemErr) (d : Dev) : Dev :=
  let reqs := mcastReqs d tree
  let due (m : Mcast) : Bool :=
    !brInService nv d m.logic || (List.range 16).all (fun n => !(treeMask (imgOf d m.out) tree).testBit n || !brInService nv d n ||
      reqs.any (fun r => r.logic == n && r.pairs m))
  match reqs.find? due with
  | none => d
  | some m =>
    let b := imgOf d m.out
    let a := m.addr b
    let w : Who := { sp := if m.out then 1 else 0, pipe := kPipe b m.task, pfn := m.pfn, unit := 0x10 + m.logic, task := m.task, host := false }
    match vread (plantTrunk errs d) w a (m.ntile * mcastTb b m) with
    | (_, _, false) => (vread d w a (m.ntile * mcastTb b m)).1
    | (d, bs, true) =>
      let all := if brInService nv d m.logic then reqs.filter (fun r => r.pairs m && brInService nv d r.logic) else [m]
      let d := all.foldl (fun d r => mcastLand bs r d) (trunkErrs nv errs d)
      -- an uncorrectable word marks the task, and counts one tile (R256)
      if !errs.any (fun x => x.place == .trunk && x.bad) then d
      else mapTask d m.task m.pfn m.out (fun s => { s with flags := setBit s.flags fUncorr true, bad := s.bad + 1 })

def execMulticastFetch (tree : Fin 64) (errs : List MemErr) (s : State) : Out := onDev s (multicastFetchOp s.nv tree.val errs)

/-! ## Halo exchange (R230, R490) -/

/-- The neighbour of logical Branch `n` in a direction: 0 the next in the halo direction, 1 the one before. -/
def haloNeighbour (nv : NonVol) (b : Bytes) (n dir : Nat) : Nat :=
  let m := branchCount nv
  if (gHaloDir b + dir) % 2 = 0 then (n + 1) % m else (n + m - 1) % m

/-- Lines of a region that a THALO names, inside the image. -/
def haloLines (d : Dev) (e : Env) : List Int :=
  let c := e.coord e.i.ca
  let s := srcOf d e c
  ((List.range (bits e.i.w1 0 5)).map (fun (u : Nat) => c.y e.y + (u : Int))).filter (fun y => decide (s.yi.1 ≤ y ∧ y < s.yi.2))

/-- THALO: a send puts its lines on the way to the neighbour; a receive names the lines expected. Re-run work passes over the lines
it had sent (R488). -/
def thaloRun (e : Env) (d : Dev) : Dev × Bool :=
  let c := e.coord e.i.ca
  let rg := e.region c
  let ls := haloLines d e
  if ls.any (slotBusy d e c.index) then (d, false)
  else
    let mk (y : Int) (bs : Bytes) : Halo :=
      { region := c.index, line := y.toNat, bytes := bs, task := e.c.task, pfn := e.c.pfn, out := e.c.out, logic := e.c.logic, sigNo := e.c.nSig }
    if e.i.flag 10 then
      let x := branch d e.c.logic
      (setBranch d e.c.logic { x with haloRx := x.haloRx ++ ls.map (fun y => mk y []) }, true)
    else
      let m := haloNeighbour e.nv e.b e.c.logic (e.i.ff 11 1)
      (ls.foldl (fun d y =>
        let key := (m, c.index, y.toNat)
        match curCtx d e.n with
        | none => d
        | some ctx =>
          let d := mapCur d e.n (fun c => { c with sent := c.sent ++ [key], again := c.again.erase key })
          if ctx.again.contains key then d
          else
            let x := branch d m
            setBranch d m { x with haloIn := x.haloIn ++ [mk y (sRead d e.c.logic (rg.addr y 0 0) rg.slotBytes)] }) d, true)

def execThalo (branch : Fin 16) (errs : List MemErr) (s : State) : Out := onDev s (tileRead 0xB thaloRun s.nv branch.val errs)

/-- HALO_LINE_LANDED: the oldest line on its way to the logical Branch that a receive of it names lands in its slot. -/
def haloLandedOp (n : Nat) (d : Dev) : Dev :=
  let x := branch d n
  let hit (h r : Halo) : Bool := h.task == r.task && h.pfn == r.pfn && h.out == r.out && h.region == r.region && h.line == r.line
  match x.haloIn.find? (fun h => x.haloRx.any (hit h)) with
  | none => d
  | some h =>
    let b := imgOf d h.out
    let rg := regionAt b (progOff b (kProg b h.task)) h.region
    let rx := match x.haloRx.find? (hit h) with | some r => x.haloRx.erase r | none => x.haloRx
    sWrite (setBranch d n { x with haloIn := x.haloIn.erase h, haloRx := rx, haloLog := x.haloLog ++ [h] }) n (rg.addr h.line 0 0) h.bytes

def execHaloLineLanded (branch : Fin 16) (s : State) : Out := onDev s (haloLandedOp branch.val)

/-! ## TSTORE (R43, R227, R332) -/

/-- Canopy has not yet read the row of the frame that a store would overwrite (R43). -/
def storeTooEarly (d : Dev) (b : Bytes) (t m y : Nat) : Bool :=
  let k := y / 8
  let n := sub32 m (tSlots b t)
  let last := 8 * k + min 8 (tH b t - 8 * k) - 1
  !(later d.ras.readOfn n || (d.ras.readOfn == n && decide (last < d.ras.read)))

/-- The slot is shown, or was chosen at the last flip instant, by a layer that a pipeline owns (R332). -/
def storeShown (d : Dev) (b : Bytes) (out : Bool) (t slot : Nat) : Bool :=
  !out && (List.range 8).any (fun l => fld d (cnpOwner l) < 4 && fld d (cnpBufValid l 0) == 1 && fld d (cnpBufTensor l 0) == t &&
    [d.cnp.shown.get 0 l, d.cnp.chosen.get 0 l].any (fun f => f != 0 && (f - 1) % max 1 (tSlots b t) == slot))

/-- Elements of one channel of a destination line: position and value, into the runs that hold them. -/
def storeRow (e : Env) (t slot y ch : Nat) (l : List (Int × Int)) (d : Dev) : Dev × Bool :=
  let w := tW e.b t
  let rb := runBytes (tFmt e.b t) (min w 64)
  (List.range (cdiv w 64)).foldl (fun (acc : Dev × Bool) (s : Nat) =>
    let m := l.filter (fun v => decide (64 * (s : Int) ≤ v.1 ∧ v.1 < 64 * (s : Int) + 64 ∧ v.1 < (w : Int)))
    if m.isEmpty || !acc.2 then acc
    else
      let a := tAddr e.b t slot y ch s
      vwrite acc.1 e.who a (runPut (tFmt e.b t) (min w 64) (min 64 (w - 64 * s)) (vpeek acc.1 e.sp a rb)
        (m.map (fun v => (v.1.toNat % 64, v.2))))) (d, true)

/-- One line of pixel words: into the output frame buffer each 64-pixel segment is a write of its own, with bits 31:30 zero
(R39, R119); into another plane the words are copied. -/
def storeWords (e : Env) (t slot : Nat) (y : Nat) (l : List (Int × Int)) (d : Dev) : Dev × Bool :=
  let segs := (List.range (cdiv (tW e.b t) 64)).filterMap (fun (s : Nat) =>
    let m := l.filter (fun v => decide (64 * (s : Int) ≤ v.1 ∧ v.1 < 64 * (s : Int) + 64 ∧ v.1 < (tW e.b t : Int)))
    match m with | [] => none | v :: _ => some (v.1.toNat, m.map (·.2.toNat)))
  if tBind e.b t = 3 then
    let q := segs.map (fun s =>
      ({ ofn := ledgerFrame d e.b e.c.task e.c.pfn, pipe := kPipe e.b e.c.task, x := s.1, y, addr := tAddr e.b t slot y 0 0 + 4 * s.1,
         bytes := s.2.flatMap (fun v => le 4 (v % 2 ^ 30)), task := e.c.task, pfn := e.c.pfn, out := e.c.out, logic := e.c.logic,
         sigNo := e.c.nSig } : Segment))
    ({ d with ras := { d.ras with segQ := d.ras.segQ ++ q } }, true)
  else segs.foldl (fun (acc : Dev × Bool) s =>
    if acc.2 then vwrite acc.1 e.who (tAddr e.b t slot y 0 0 + 4 * s.1) (s.2.flatMap (le 4)) else acc) (d, true)

/-- Lines of tensor rows written in order; a write that must wait leaves the rest, and the instruction runs again. -/
def storeRows (e : Env) (t slot : Nat) (l : List (Int × Nat × List (Int × Int))) (d : Dev) : Dev × Bool :=
  l.foldl (fun (acc : Dev × Bool) r =>
    if !acc.2 then acc
    else if r.1 < 0 ∨ (tH e.b t : Int) ≤ r.1 ∨ tC e.b t ≤ r.2.1 then acc
    else storeRow e t slot r.1.toNat r.2.1 r.2.2 acc.1) (d, true)

/-- The lines of a STREAMING tensor that a store begins each take a producer credit; without one the store waits (R74). -/
def lineCredits (e : Env) (t : Nat) (ys : List Int) (d : Dev) : Dev × Bool :=
  let r := branchRing e.c.out t
  if (lineRing d r).slots = 0 then (d, true)
  else (ys.filter (fun y => decide (0 ≤ y ∧ y < (tH e.b t : Int)))).foldl (fun (acc : Dev × Bool) y =>
    if acc.2 then branchLine acc.1 r (add32 (e.c.pfn * tH e.b t % 2 ^ 32) y.toNat) else acc) (d, true)

/-- TSTORE of region lines. -/
def storeLines (e : Env) (d : Dev) : Dev × Bool :=
  let a := e.coord e.i.ca
  let c := e.coord e.i.cb
  let t := c.index
  let slot := e.c.pfn % max 1 (tSlots e.b t)
  let nl := bits e.i.w1 8 4 + 1
  let us := (List.range nl).filter e.lineKept
  let f := if e.i.flag 11 then 1 else 2 ^ e.i.ff 12 2
  let full := tW e.b t / f
  -- a span of 0 is the tensor's full width; both spans are cut at W_out (R218, R223; DEDUCED, log entry 24)
  let n := min (min (spanPx a full) (spanPx c full)) (e.c.wo - e.x0)
  let rg := e.region a
  let line (u : Nat) : Int := if rg.slots = 0 then u else a.y e.y + u
  -- lines of the destination, each of which takes a credit of a line ring (R74)
  let dest := us.flatMap (fun (u : Nat) => (List.range f).map (fun (k : Nat) => (c.y e.y + (u : Int)) * (f : Nat) + (k : Nat)))
  let pos (i : Nat) : Nat := if rg.slots = 0 then i else (a.x (e.x0 + i)).toNat
  -- each line into the output frame buffer waits until Canopy has read the row that it overwrites (R43)
  let early (y : Int) : Bool := decide (0 ≤ y ∧ y < (tH e.b t : Int)) && storeTooEarly d e.b t (ledgerFrame d e.b e.c.task e.c.pfn) y.toNat
  if us.any (fun u => slotBusy d e a.index (line u)) || storeShown d e.b e.c.out t slot ||
    (e.i.flag 11 && tBind e.b t == 3 && us.any (fun u => early (c.y e.y + (u : Int)))) then (d, false)
  else
  let (d, ok) := lineCredits e t dest d
  if !ok then (d, false)
  else if e.i.flag 11 then
    us.foldl (fun (acc : Dev × Bool) u =>
      let row := rowOf d e.c.logic rg (line u) 0
      let y := c.y e.y + (u : Int)
      if !acc.2 || y < 0 || (tH e.b t : Int) ≤ y then acc
      else storeWords e t slot y.toNat (((List.range n).map (fun i => (c.x (e.x0 + i), row.getD (pos i) 0))).filter (fun v => decide (0 ≤ v.1))) acc.1)
      (d, true)
  else
    -- channels that the destination record spans; depth-to-space takes those of the source record (log entry 24)
    let m := 64 * (if f = 1 then c.ncg else a.ncg)
    let zp := (srcOf d e a).zp
    storeRows e t slot (us.flatMap (fun u => (List.range m).map (fun q =>
      let sc := 64 * e.group a + q
      -- channels beyond the source's read as the zero point (R219)
      let row := if rg.nch ≤ sc then List.replicate rg.npx zp else rowOf d e.c.logic rg (line u) sc
      let y := c.y e.y + (u : Int)
      let k := sc % (f * f)
      let els := ((List.range n).filter (fun i => decide (pos i < row.length))).map (fun i => (c.x (e.x0 + i), row.getD (pos i) 0))
      if f = 1 then (y, 64 * e.group c + q, els)
      else (y * f + (k / f : Nat), sc / (f * f), els.map (fun v => (v.1 * f + (k % f : Nat), v.2)))))) d

/-- TSTORE of accumulator tiles into an S32 tensor (R153). -/
def storeTiles (e : Env) (d : Dev) : Dev × Bool :=
  let c := e.coord e.i.cb
  let t := c.index
  let slot := e.c.pfn % max 1 (tSlots e.b t)
  let a := bits e.i.w1 0 4
  let nt := bits e.i.w1 4 4 + 1
  let els := (drainEls d e a nt).filter (fun x => e.lineKept x.u)
  let rows := ((List.range 2).flatMap (fun (u : Nat) => (List.range 64).map (fun (q : Nat) =>
    (c.y e.y + (u : Int), 64 * e.group c + q, (els.filter (fun x => x.u == u && x.c == q)).map (fun x => (c.x (e.x0 + x.i), (satFmt 8 x.v).1)))))).filter
      (fun r => !r.2.2.isEmpty)
  let (d, ok) := lineCredits e t (rows.map (·.1)).eraseDups d
  if !ok then (d, false)
  else
  let (d, ok) := storeRows e t slot rows d
  if !ok then (d, false)
  else
    let sat := ((els.filter (fun x => decide (64 * e.group c + x.c < tC e.b t))).map (fun x => (satFmt 8 x.v).2)).sum
    (addSat e sat (beginDrain e a nt d), true)

/-- TSTORE. -/
def tstoreRun (e : Env) (d : Dev) : Dev × Bool := if e.i.flag 10 then storeTiles e d else storeLines e d

def execTstore (branch : Fin 16) (errs : List MemErr) (s : State) : Out := onDev s (tileRead 0xF tstoreRun s.nv branch.val errs)

end Sys2Proof.Machine
end

