-- ==== Sys2Proof/Machine/InstrRules.lean ====
section
/-! DEFINITION. Load-time rules of tile programs, one part at a time: header, regions, coordinate records, instructions (R94, R100, R116, R119,
R145, R162, R178, R188, R191, R208, R216 to R232). -/

namespace Sys2Proof.Machine

/-- A fault in TILEPROG. -/
def tp (ok : Bool) (off : Nat) : List Flaw := must ok 4 off

/-! ## Header and regions (R208, R216) -/

/-- Instructions that put work on a Twig. -/
def twigWork (i : TInstr) : Bool := i.op == 2 || i.op == 3 || i.op == 4
def hasOp (b : Bytes) (p op : Nat) : Bool := (instrsOf b p).any (fun e => e.2.2.op == op)

def progHeaderFlaws (b : Bytes) (p : Nat) : List Flaw :=
  let within (lo hi v : Nat) : Bool := decide (lo ≤ v ∧ v ≤ hi)
  let wino := hasOp b p 3
  (each 4 (fun s => tp (within 0 1024 (hN b p s)) (p + 2 * s))) ++
  tp (within 0 2048 ((List.range 4).map (hN b p)).sum) p ++ tp (hN b p 2 == 0 || hNr b p != 0) (p + 8) ++
  tp (within 0 256 (hNcref b p)) (p + 10) ++ tp (within 0 256 (hNword b p)) (p + 12) ++ tp (within 1 32 (hNreg b p)) (p + 14) ++
  tp (within 1 16 (hAccDepth b p)) (p + 15) ++
  tp (if hAccStep b p = 0 then !((instrsOf b p).any (fun e => twigWork e.2.2)) else within 1 16 (hAccStep b p) && hAccDepth b p % hAccStep b p == 0) (p + 16) ++
  tp (within 0 31 (u8 b (p + 17)) && (hLstep b p == 1) == wino && (hTw b p == 32) == wino) (p + 17) ++
  tp (within 1 16 (hTb b p)) (p + 18) ++ tp (hHold b p == 0xFF || decide (hHold b p < hNreg b p)) (p + 19) ++
  tp (decide (hOut b p < nTensors b)) (p + 20) ++ tp (decide (hIn b p < nTensors b)) (p + 22) ++ tp (within 1 4096 (hNz b p)) (p + 24) ++
  each 2 (fun a => tp (within 1 64 (hK b p a)) (p + 26 + a) ++ tp (within 1 16 (hS b p a)) (p + 28 + a) ++ tp (within 1 64 (hD b p a)) (p + 30 + a)) ++
  tp (zeros b (p + 36) 28) (p + 36)

def regionsMeet (r s : Region) : Bool := decide (r.base < s.base + s.size ∧ s.base < r.base + r.size)

def regionFlaws (b : Bytes) (p : Nat) : List Flaw :=
  each (hNreg b p) (fun i =>
    let o := regionOff p i
    let r := regionAt b p i
    tp (decide (r.base ≤ 4095)) o ++
    tp (decide (1 ≤ r.size ∧ r.base + r.size ≤ 4096) && !((List.range i).any (fun j => regionsMeet (regionAt b p j) r))) (o + 2) ++
    tp (decide (r.slots ≤ 64 ∧ r.slots * r.slotBytes ≤ r.size * 1024)) (o + 4) ++ tp (fmtOk r.fmt || r.fmt == 0xF) (o + 5) ++
    tp (decide (1 ≤ r.nch ∧ r.nch ≤ 4096)) (o + 6) ++ tp (decide (1 ≤ r.npx)) (o + 8) ++ tp (zeros b (o + 10) 6) (o + 10))

/-! ## Coordinate records (R218) -/

/-- The record's line and pixel fields are ignored: a flat region or a weight tensor. -/
def flatRecord (b : Bytes) (p : Nat) (c : Coord) : Bool :=
  if c.trunk then isWeight b c.index else (regionAt b p c.index).slots == 0

def coordFlaws (b : Bytes) (p : Nat) : List Flaw :=
  each (hNcref b p) (fun i =>
    let o := coordOff b p i
    let c := coordAt b p i
    let flat := flatRecord b p c
    tp (decide (c.index < if c.trunk then nTensors b else hNreg b p)) o ++ tp (flat || c.lmul != 0) (o + 2) ++
    tp (flat || (c.pmul != 0 && decide (u8 b (o + 3) < 64))) (o + 3) ++ tp (decide (1 ≤ c.ncg ∧ c.ncg ≤ 4096)) (o + 12))

/-! ## One instruction (R100, R106, R116, R145, R221 to R227) -/

/-- Bits that Table Tile-6 names: FLAGS, and words 1 to 3. -/
def namedBits (i : TInstr) : Nat × Nat × Nat × Nat :=
  match i.op with
  | 1 => if i.isLines then (0x1F, 0x1F, 0xFFFF000F, 0) else if i.isPlane then (0x1F, 0x1FFFF, 0xFFFF000F, 0) else (0x1F, 0xFFFF0007, 0, 0)
  | 2 => (7, 0x3FFFFFFF, 0x7F, 0)
  | 3 => (0xF, 0x3FFFFF, 0, 0)
  | 4 => (0x3F, 0x7FFFFF, 0, 0)
  | 5 => (7, 0xFFFFFF, 0xFFF, 0)
  | 6 => (0xF, 0xFFFFFFFF, 0xFFFFFFFF, 0xFFF)
  | 7 => (1, 0xFFFFFFFF, 0, 0)
  | 8 => (7, 0xFFF00FF0, 0, 0)
  | 9 => (3, 0xFFF0007F, 0, 0)
  | 0xA => (0x1F, 0x1FFFFFF, 0x7FFFFFF, 0x7FFFFFFF)
  | 0xB => (3, 0x1F, 0, 0)
  | 0xC => (1, 0xF3F, 0, 0)
  | 0xD => (1, 0x3FFFFF, 0xFFFFFFF, 0xFF)
  | 0xE => (1, 0x7FF000F, 0x3FF, 0)
  | 0xF => (0xF, 0xFFF, 0, 0)
  | 0x10 => (0, 0xFFFF, 0xFFFFFFFF, 0)
  | _ => (0, 0xFFFF, 0xFFFFFFFF, 0xFFFF)

/-- The instruction works on a Twig: TWIG is zero for all others. -/
def namesTwig (i : TInstr) : Bool :=
  twigWork i || (i.op == 1 && (i.ff 10 2 == 1 || i.ff 10 2 == 2)) || ((i.op == 7 || i.op == 8) && !i.flag 10) || (i.op == 0xF && i.flag 10)

/-- Which of CREF_A and CREF_B the instruction uses; a field shown as "—" is zero. -/
def usesCrefs (i : TInstr) : Bool × Bool :=
  match i.op with
  | 1 => (i.isLines || i.isPlane, i.isLines)
  | 2 => (true, false) | 3 => (true, false) | 4 => (true, false)
  | 8 => (i.flag 10, i.flag 12)
  | 0xB => (true, false)
  | 0x10 => (false, false) | 0x11 => (false, false)
  | _ => (true, true)

/-- Further records that an instruction names in its words. -/
def moreCrefs (i : TInstr) : List Nat :=
  match i.op with
  | 6 => (if 2 ≤ tactArity (i.ff 10 4) then [bits i.w1 0 8] else []) ++ (if tactArity (i.ff 10 4) = 3 then [bits i.w1 8 8] else [])
  | 7 => if i.flag 10 then [bits i.w1 12 8] else []
  | 0xA => [bits i.w1 0 8]
  | 0xD => [bits i.w1 0 8]
  | _ => []

/-- Records that Table Tile-6 names and the instruction does not use: in range, or zero (R222). -/
def spareCrefs (i : TInstr) : List Nat :=
  match i.op with
  | 6 => [bits i.w1 0 8, bits i.w1 8 8]
  | 7 => [bits i.w1 12 8]
  | 8 => [i.ca, i.cb]
  | _ => []

/-- The same for word table entries. -/
def spareWords (i : TInstr) : List Nat :=
  match i.op with
  | 6 => [bits i.w1 24 8, bits i.w2 0 8, bits i.w2 8 8, bits i.w2 16 8]
  | 0xA => [bits i.w2 19 8]
  | _ => []

/-- The same for scale step records. -/
def spareSteps (i : TInstr) : List Nat :=
  match i.op with
  | 5 => [bits i.w2 0 12] | 9 => [bits i.w1 20 12] | 0xA => [bits i.w3 19 12] | _ => []

/-- Word table entries used as operand words, and as constants. -/
def operandWords (i : TInstr) : List Nat :=
  match i.op with
  | 5 => [bits i.w1 16 8]
  | 6 => let n := tactArity (i.ff 10 4)
         [bits i.w1 16 8] ++ (if 2 ≤ n then [bits i.w1 24 8] else []) ++ (if n = 3 then [bits i.w2 0 8] else [])
  | 0xD => [bits i.w2 20 8, bits i.w3 0 8]
  | _ => []
def constWords (i : TInstr) : List Nat :=
  match i.op with
  | 6 => match i.ff 10 4 with | 7 => [bits i.w2 8 8, bits i.w2 16 8] | 0xA => [bits i.w2 8 8] | _ => []
  | 0xA => [bits i.w1 17 8] ++ (if i.flag 12 then [bits i.w2 19 8] else [])
  | 0xD => [bits i.w2 12 8]
  | _ => []

/-- Weight and activation formats that a row of Table Twig-1 pairs; a C8 weight is decoded to S12 at its load (R114, R145). -/
def pairOk (fa fw : Nat) : Bool :=
  let narrow := [2, 3, 4, 5, 9, 0xA].contains fa
  let wide := fa == 6 || fa == 7
  match fw with
  | 2 => narrow || wide | 7 => narrow || wide | 0xA => narrow || wide
  | 0 => narrow | 1 => narrow | 9 => narrow
  | _ => false

/-- Weight formats of a plane LAYOUT (Tables Twig-1 and Twig-2). -/
def layoutOk (layout fmt : Nat) : Bool :=
  match layout with
  | 1 => [2, 7, 0xA].contains fmt | 2 => fmt == 1 | 3 => fmt == 0 | 4 => fmt == 9 | 5 => [2, 7, 0xA].contains fmt
  | 6 => fmt == 7 | 7 => fmt == 2 || fmt == 7 | 8 => fmt == 2 || fmt == 7 | _ => false

/-- The weight format of a plane load's source. -/
def planeFmt (b : Bytes) (p : Nat) (c : Coord) : Nat :=
  if c.trunk then tFmt b c.index
  else match weightTensor b p c.index with | some t => tFmt b t | none => (regionAt b p c.index).fmt

/-- The codebook of a C4 or C8 target is ascending (R116). -/
def ascending (b : Bytes) (t : Nat) : Bool :=
  let l := cbEntries b t
  (List.range (l.length - 1)).all (fun k => decide (l.getD k 0 ≤ l.getD (k + 1) 0))

/-- A target format, that of the region written, and the codebook that its region's tensor names (R100, R116). -/
def targetOk (b : Bytes) (p : Nat) (c : Coord) (f : Nat) : Bool :=
  roleTarget f && (regionAt b p c.index).fmt == f && (!(f == 9 || f == 0xA) || (match codeTensor b p c.index (writeTensor b p c.index) with | some t => ascending b t | none => true))

/-- Greatest group that a record gives in section `s`. -/
def topGroup (b : Bytes) (p s : Nat) (c : Coord) : Nat :=
  c.cg0 + (if s = 0 then 0 else c.cz * (hNz b p - 1)) + (if s = 2 then c.cr * (hNr b p - 1) else 0)

/-- A FIXED record as an output step (R176, R546). -/
def fixedStep (b : Bytes) (n : Nat) : Bool := decide (n < nOsteps b) && (ostepAt b n).mode == 0

/-- LATEST goes with VARIES, and LRING stands only with it (R224). -/
def latestOk (i : TInstr) : Bool := if i.flag 13 then i.varies else i.w2 / 65536 == 0

/-- Rules of TLOAD. -/
def tloadOk (b : Bytes) (p s : Nat) (i : TInstr) : Bool :=
  let a := coordAt b p i.ca
  let c := coordAt b p i.cb
  let r := regionAt b p c.index
  let record := ((gTables b).getD (i.w1 / 65536) (0, 0)).1
  match i.ff 10 2 with
  | 0 =>
    let nl := bits i.w1 0 5
    !i.flag 14 && a.trunk && !c.trunk && decide (1 ≤ nl ∧ nl ≤ 16) && decide (bits i.w2 0 4 < tSlots b a.index) &&
    latestOk i && decide (topGroup b p s c + c.ncg - 1 + (a.ncg - c.ncg) < cdiv r.nch 64)
  | 1 =>
    !i.flag 12 && latestOk i && (if a.trunk then decide (bits i.w2 0 4 < tSlots b a.index) else i.w2 == 0 && !i.flag 13) && decide (bits i.w1 4 2 ≤ 2) && i.dil != 0 && layoutOk i.layout (planeFmt b p a) &&
    (i.layout != 7 || decide (i.dil * (i.kh - 1) + 1 ≤ i.bw)) && (!a.trunk || (patternOf b a.index).isNone)
  | k => !i.flag 12 && !i.flag 13 && !i.flag 14 && record == k - 1

/-- Rules of TMAC, TWINO and TDIAG. -/
def twigOk (b : Bytes) (p : Nat) (i : TInstr) : Bool :=
  let (fa, fw) := (bits i.w1 0 4, bits i.w1 4 4)
  let px := bits i.w1 16 7
  -- the streamed region's format is an activation format, and the one that the instruction names (R100, R145)
  !(coordAt b p i.ca).trunk && roleAct fa && (regionAt b p (coordAt b p i.ca).index).fmt == fa &&
  match i.op with
  | 2 => pairOk fa fw && decide (1 ≤ px ∧ px ≤ 64)
  | 3 =>
    let px := bits i.w1 16 6
    [2, 3, 4].contains fa && fw == 2 && decide (1 ≤ px ∧ px ≤ 32) && (px % 2 == 0 || i.xlast || nXi b p (outW b p (tW b (hIn b p))) == 1) &&
    [0, 1].all (fun k => hK b p k == 3 && hS b p k == 1 && hD b p k == 1) && decide (2 ≤ hG b p)
  | _ => (fw == 2 || fw == 7) && pairOk fa fw && fa != 6 && fa != 7 && decide (1 ≤ px ∧ px ≤ 64) && i.ff 14 2 != 3

/-- Rules of TPOOL, TACT, TREQ, TSTAT and TCONV. -/
def vectorOk (b : Bytes) (p : Nat) (i : TInstr) : Bool :=
  let c := coordAt b p i.cb
  let r := regionAt b p c.index
  let word (k : Nat) : Int := toS 32 (wordAt b p k)
  match i.op with
  | 5 => decide (i.ff 10 3 ≤ 6) && !c.trunk && (decide (3 ≤ i.ff 10 3) || (fixedStep b (bits i.w2 0 12) && targetOk b p c r.fmt))
  | 6 =>
    let op := i.ff 10 4
    let tab := bits i.w2 24 8
    decide (op ≤ 0xC) && !c.trunk && fixedStep b (bits i.w3 0 12) && targetOk b p c r.fmt &&
    (op != 7 || decide (word (bits i.w2 8 8) ≤ word (bits i.w2 16 8))) &&
    (op != 0xA || decide (0 ≤ word (bits i.w2 8 8) ∧ word (bits i.w2 8 8) ≤ 256)) &&
    decide (tab ≤ 7 ∨ (0xF0 ≤ tab ∧ tab ≤ 0xF5))
  | 7 => !c.trunk && decide (bits i.w1 20 12 < nOsteps b) && targetOk b p c (bits i.w1 0 4) &&
         (!i.flag 10 || (let s := coordAt b p (bits i.w1 12 8); (if s.trunk then tFmt b s.index else (regionAt b p s.index).fmt) == 8)) &&
         ((ostepAt b (bits i.w1 20 12)).mode == 0 || (bits i.w1 0 4 != 9 && bits i.w1 0 4 != 0xA))
  | 8 => decide (bits i.w1 20 12 < nOsteps b)
  | _ =>
    if i.flag 10 then [0, 1, 3].contains (bits i.w1 4 3) && !c.trunk && fmtOk (bits i.w1 0 4)
    else !c.trunk && decide (bits i.w1 4 3 ≤ 4) && decide (bits i.w1 20 12 < nOsteps b) && targetOk b p c (bits i.w1 0 4) &&
         ((ostepAt b (bits i.w1 20 12)).mode == 0 || (bits i.w1 0 4 != 9 && bits i.w1 0 4 != 0xA))

/-- Rules of TWARP (R187, R188, R191, R192). -/
def twarpOk (b : Bytes) (p : Nat) (i : TInstr) : Bool :=
  let a := coordAt b p i.ca
  let c := coordAt b p i.cb
  let v := coordAt b p (bits i.w1 0 8)
  let (ra, rc, rv) := (regionAt b p a.index, regionAt b p c.index, regionAt b p v.index)
  let par := wordAt b p (bits i.w1 17 8)
  let step (w : Nat) : Bool := decide (0x4000 ≤ w ∧ w ≤ 0x40000)
  let dyn := match readTensor b p a.index with | some t => (stepOfTensor b t).isSome | none => false
  let zp (t : Option Nat) : Nat := match t with | some t => tZp b t | none => 0
  !a.trunk && !c.trunk && !v.trunk && [2, 3, 4, 5, 6, 7].contains ra.fmt && decide (ra.nch ≤ 4) && rv.fmt == 7 && decide (2 ≤ rv.nch) &&
  (if dyn then fixedStep b (bits i.w3 19 12) && targetOk b p c rc.fmt
   else (i.w3 / 2 ^ 19 == 0 || fixedStep b (bits i.w3 19 12)) && rc.fmt == ra.fmt && zp (codeTensor b p a.index (readTensor b p a.index)) == zp (codeTensor b p c.index (writeTensor b p c.index))) &&
  decide (bits i.w1 8 9 ≤ 256) && step (bits i.w2 0 19) && step (bits i.w3 0 19) &&
  decide (par < 2 ^ 18) && decide (bits par 0 10 ≤ 512) && decide (bits par 10 8 ≤ 128) &&
  decide (hG b p + 2 * (bits par 10 8 + 2) ≤ ra.slots)

/-- Rules of the other instructions. -/
def otherOk (b : Bytes) (p : Nat) (i : TInstr) : Bool :=
  let a := coordAt b p i.ca
  let c := coordAt b p i.cb
  match i.op with
  | 0xB => decide (1 ≤ bits i.w1 0 5 ∧ bits i.w1 0 5 ≤ 16) && !a.trunk
  | 0xC => a.trunk && !c.trunk && (patternOf b a.index).isNone
  | 0xD => let d := coordAt b p (bits i.w1 0 8)
           !c.trunk && (if d.trunk then tFmt b d.index == 6 else (regionAt b p d.index).fmt == 6)
  | 0xE => !a.trunk && !c.trunk && decide (bits i.w1 16 11 ≤ 1024) && decide (a.index + bits i.w1 0 4 < hNreg b p)
  | 0xF => c.trunk && (i.flag 10 || !a.trunk) && decide (i.ff 12 2 ≤ 2) && (i.ff 12 2 == 0 || !(i.flag 10 || i.flag 11)) &&
           (!i.flag 10 || tFmt b c.index == 8) && (i.flag 11 == (tFmt b c.index == 0xF))
  | 0x10 => decide (1 ≤ i.w2 ∧ i.w2 ≤ 0x7FFFFFFF)
  | _ => waitRingOk b (bits i.w1 0 16)

def instrFlaws (b : Bytes) (p s k : Nat) : List Flaw :=
  let o := instrOff b p s k
  let i := instrAt b p s k
  let m := namedBits i
  let u := usesCrefs i
  let named (x : Nat) : Bool := decide (x < hNcref b p)
  tp (decide (1 ≤ i.op ∧ i.op ≤ 0x11)) o ++ tp (inMask i.flags m.1 && (namesTwig i || i.twig == 0)) (o + 1) ++
  tp (if u.1 then named i.ca else i.ca == 0 || i.op == 8) (o + 2) ++ tp (if u.2 then named i.cb else i.cb == 0 || i.op == 8) (o + 3) ++
  tp (inMask i.w1 m.2.1 && (moreCrefs i).all named && (spareCrefs i).all (fun c => c == 0 || named c) &&
    (spareWords i).all (fun w => w == 0 || decide (w < hNword b p)) && (spareSteps i).all (fun n => n == 0 || decide (n < nOsteps b)) && (operandWords i ++ constWords i).all (fun w => decide (w < hNword b p)) &&
    (operandWords i).all (fun w => scaleOk (wordAt b p w))) (o + 4) ++
  tp (inMask i.w2 m.2.2.1) (o + 8) ++ tp (inMask i.w3 m.2.2.2) (o + 12) ++
  tp (match i.op with
      | 1 => tloadOk b p s i
      | 2 => twigOk b p i | 3 => twigOk b p i | 4 => twigOk b p i
      | 5 => vectorOk b p i | 6 => vectorOk b p i | 7 => vectorOk b p i | 8 => vectorOk b p i | 9 => vectorOk b p i
      | 0xA => twarpOk b p i
      | _ => otherOk b p i) o

end Sys2Proof.Machine
end

