-- ==== Sys2Proof/Machine/PlanRules.lean ====
section
/-! DEFINITION. Load-time rules that the order of issue decides: tiles and planes of the Twigs, statistics before conversions, releases, and
halo lines (R145, R157, R162, R163, R222, R225, R231, R546). -/

namespace Sys2Proof.Machine

/-! ## The order of issue (R209, R210) -/

/-- Planned output width and height of a program. -/
def planW (b : Bytes) (p : Nat) : Nat := outW b p (tW b (hIn b p))
def planH (b : Bytes) (p : Nat) : Nat := outH b p (tH b (hIn b p))

/-- An instruction as it issues: loop instant, reduction repeat and iteration. -/
structure Issue where
  i  : TInstr
  y  : Nat
  z  : Nat
  x0 : Nat
  r  : Nat
  it : Nat
  deriving DecidableEq, Repr

/-- Instructions in the order that logical number `j` of `nb` issues them: PROLOGUE, then PRE, RED as often as it repeats, and POST of each
iteration. -/
def issueOrder (b : Bytes) (p j nb : Nat) : List Issue :=
  let of (s : Nat) : List TInstr := (List.range (hN b p s)).map (instrAt b p s)
  let run (n : (Nat × Nat × Nat × Nat × Bool × Bool) × Nat) (s r : Nat) : List Issue :=
    ((of s).filter (fun i => !((i.xi0 && !n.1.2.2.2.2.1) || (i.xlast && !n.1.2.2.2.2.2)))).map (fun i =>
      { i, y := n.1.1, z := n.1.2.1, x0 := n.1.2.2.1, r, it := n.2 })
  (of 0).map (fun i => { i, y := 0, z := 0, x0 := 0, r := 0, it := 0 }) ++
  ((instants b p j nb (planW b p) (planH b p) 1).zipIdx).flatMap (fun n =>
    run n 1 0 ++ (List.range (hNr b p)).flatMap (fun r => run n 2 r) ++ run n 3 0)

/-- Accumulator slots of an instruction: first and number. -/
def accSlots (i : TInstr) : Nat × Nat :=
  match i.op with
  | 2 => (bits i.w1 8 4, bits i.w1 12 4 + 1) | 4 => (bits i.w1 8 4, bits i.w1 12 4 + 1) | 3 => (bits i.w1 8 2, bits i.w1 10 2 + 1)
  | 7 => (bits i.w1 4 4, bits i.w1 8 4 + 1) | 8 => (bits i.w1 4 4, bits i.w1 8 4 + 1) | _ => (bits i.w1 0 4, bits i.w1 4 4 + 1)
def holdsSlot (i : TInstr) (s : Nat) : Bool := decide ((accSlots i).1 ≤ s ∧ s < (accSlots i).1 + (accSlots i).2)

/-- An instruction that handles filled tiles: TREQ or TSTAT of accumulators, TSTORE of tiles. -/
def handlesTiles (i : TInstr) : Bool := ((i.op == 7 || i.op == 8) && !i.flag 10) || (i.op == 0xF && i.flag 10)

/-- Window slots of an instruction, as numbers of the Branch: 16 to a Twig (R213). -/
def Issue.slots (b : Bytes) (p : Nat) (x : Issue) : List Nat :=
  (List.range (accSlots x.i).2).map (fun j => 16 * x.i.twig + ((accSlots x.i).1 + j + hAccStep b p * x.it) % max 1 (hAccDepth b p))

/-- The plane that an instruction uses, as a number of the Branch: two to a Twig. -/
def Issue.plane (b : Bytes) (p : Nat) (x : Issue) (bit : Nat) : Nat :=
  2 * x.i.twig + (if hPflip b p = 1 then (x.i.ff bit 1 + x.it) % 2 else x.i.ff bit 1)

/-! ## Tiles and planes of the Twigs (R145, R157, R162, R163, R222) -/

/-- What the walk keeps: the plane load that each plane holds, P of each slot, the fill each slot holds, and for WINO the steps that each
position of a slot has taken. -/
structure TwigPlan where
  planes : Map (Option (TInstr × Nat))
  ps     : Map Nat
  fills  : Map Nat
  steps  : Map Nat
  nFill  : Nat
  ok     : Bool
  deriving DecidableEq, Repr

/-- The plane's LAYOUT, weight format and geometry are those that the instruction names; a C8 plane holds S12 weights (R114). -/
def planeFits (i l : TInstr) (fmt : Nat) : Bool :=
  let fw := bits i.w1 4 4
  match i.op with
  | 2 => (match fw with | 0 => l.layout == 3 | 1 => l.layout == 2 | 9 => l.layout == 4 | _ => l.layout == 1 || l.layout == 5) &&
         (fmt == fw || (fmt == 0xA && fw == 7))
  | 3 => l.layout == 6 && fmt == 7
  | _ => l.layout == (if i.flag 13 then 8 else 7) && fmt == fw && bits l.w1 4 2 == i.ff 14 2

/-- Tiles that an instruction streams, before the cut at W_out and after it (R223). -/
def Issue.tiles (b : Bytes) (p : Nat) (x : Issue) : Nat :=
  let px := if x.i.op = 3 then bits x.i.w1 16 6 else bits x.i.w1 16 7
  min (accSlots x.i).2 (cdiv (planW b p - x.x0) (max 1 px))

/-- One instruction of the walk. -/
def TwigPlan.step (b : Bytes) (p : Nat) (s : TwigPlan) (x : Issue) : TwigPlan :=
  let i := x.i
  if i.isPlane then { s with planes := s.planes.put none (x.plane b p 14) (some (i, planeFmt b p (coordAt b p i.ca))) }
  else if twigWork i then
    let fits := match s.planes.get none (x.plane b p 12) with | some l => planeFits i l.1 l.2 | none => true
    let px := if i.op = 3 then bits i.w1 16 6 else bits i.w1 16 7
    let sl := (x.slots b p).take (x.tiles b p)
    let s := { s with ok := s.ok && fits }
    let s := if !i.flag 10 then s
      else sl.foldl (fun s k => { s with ps := s.ps.put 0 k px, fills := s.fills.put 0 k (s.nFill + 1), nFill := s.nFill + 1 }) s
    if i.op ≠ 3 then s
    else
      -- 64 channels for each complete set of 16 positions since FIRST (R157)
      sl.foldl (fun s k =>
        let q := 16 * k + bits i.w1 12 4
        let n := if i.flag 10 then 1 else s.steps.get 0 q + 1
        let m := s.steps.put 0 q n
        { s with steps := m, ok := s.ok && (decide (64 * n ≤ 7281) || (List.range 16).any (fun j => decide (64 * m.get 0 (16 * k + j) ≤ 7281))) }) s
  else if handlesTiles i then
    let ps := ((x.slots b p).map (s.ps.get 0)).filter (· != 0)
    let p0 := ps.headD 0
    { s with ok := s.ok && ps.dropLast.all (· == p0) && decide (ps.getLastD p0 ≤ p0) }
  else s

def TwigPlan.start : TwigPlan := { planes := [], ps := [], fills := [], steps := [], nFill := 0, ok := true }

/-- Every tile and plane is used as it was filled, on the Branch with the most lines: all others issue a beginning of its order. -/
def twigPlanOk (b : Bytes) (p nb : Nat) : Bool :=
  if (instrsOf b p).any (fun e => twigWork e.2.2) then ((issueOrder b p 0 nb).foldl (TwigPlan.step b p) TwigPlan.start).ok else true

/-! ## Statistics before conversions (R546) -/

/-- A conversion under a MEASURED or CARRIED step, and its record. -/
def dynConv (b : Bytes) (i : TInstr) : Option Nat :=
  if i.op == 7 || (i.op == 9 && !i.flag 10) then
    let n := bits i.w1 20 12
    if (ostepAt b n).mode != 0 then some n else none
  else none

/-- A TSTAT takes its statistics over the elements that instruction `i` converts: the tiles of the same slots, or the same source. -/
def statFor (b : Bytes) (p n : Nat) (i x : TInstr) : Bool :=
  x.op == 8 && x.ostep == some n &&
  (if i.op = 7 ∧ !i.flag 10 then !x.flag 10 && x.twig == i.twig && (List.range 16).any (fun s => holdsSlot i s && holdsSlot x s)
   else x.flag 10 && (coordAt b p x.ca).index == (coordAt b p i.convSrc).index && (coordAt b p x.ca).trunk == (coordAt b p i.convSrc).trunk)

/-- A TSTAT and the TREQ of the same elements agree in BIAS and in its record; a TCONV has none. -/
def biasMatch (b : Bytes) (p : Nat) : Bool :=
  let l := (instrsOf b p).map (·.2.2)
  l.all (fun i => match dynConv b i with
    | none => true
    | some n => (l.filter (statFor b p n i)).all (fun x =>
        if i.op = 9 then !x.flag 12 else if i.flag 10 then !x.flag 12 || x.cb == i.ca else x.flag 12 && x.cb == i.ca))

/-- A run of elements: step, what it lies in, line, channel group, and pixels `a .. z - 1`. What it lies in is a fill of a slot, or a
region or tensor. -/
structure Run where
  n    : Nat
  src  : Nat × Nat
  line : Int
  g    : Nat
  a    : Int
  z    : Int
  deriving DecidableEq, Repr

/-- Runs together hold all of `r`. -/
def Run.covered (l : List Run) (r : Run) : Bool :=
  let m := l.filter (fun x => x.n == r.n && x.src == r.src && x.line == r.line && x.g == r.g)
  decide (r.z ≤ m.foldl (fun a _ => match m.find? (fun x => decide (x.a ≤ a ∧ a < x.z)) with | some x => x.z | none => a) r.a) || decide (r.z ≤ r.a)

/-- Least and greatest of two. -/
def span (a b : Int) : Int × Int := (min a b, max a b)

/-- Cells that a rectangle of region `rg` lies in: lines, pixels and channels from the first element to the last. -/
def rectCells (b : Bytes) (idx p n rg : Nat) (y0 y1 x0 x1 : Int) (c0 c1 : Nat) : List Nat :=
  let t := (stepTensor b n).getD 0
  let cs := cellsOf b idx (ostepAt b n) t
  let (px, py) := placeOf b idx t
  let u := destPos b p rg y0 x0 c0
  let f := (outMap b p rg).f
  let v := destPos b p rg y1 x1 c1
  let lo (pl : Place) (a : Int) (c : Nat) : Int := (max a (pl.lo - pl.org) + pl.org).fdiv c
  let hi (pl : Place) (z : Int) (c : Nat) : Int := (min z (pl.hi - pl.org - 1) + pl.org).fdiv c
  let rng (a z : Int) : List Int := (List.range (z - a + 1).toNat).map (fun (k : Nat) => a + (k : Int))
  let ys := rng (lo py (min u.1 v.1 / f * f) cs.ch) (hi py (max u.1 v.1 / f * f + f - 1) cs.ch)
  let xs := rng (lo px (min u.2.1 v.2.1 / f * f) cs.cw) (hi px (max u.2.1 v.2.1 / f * f + f - 1) cs.cw)
  let zs := (List.range (min v.2.2 (tC b t - 1) / cs.cd + 1)).filter (fun z => decide (u.2.2 / cs.cd ≤ z))
  zs.flatMap (fun z => ys.flatMap (fun y => xs.map (fun x => (z * cs.ny + (y - cs.cy0).toNat) * cs.nx + (x - cs.cx0).toNat)))

/-- Runs and cells that a conversion `i` of step `n`, or a TSTAT `x` ahead of it, works on. -/
def statReach (b : Bytes) (idx p n : Nat) (s : TwigPlan) (i : TInstr) (x : Issue) : List Run × List Nat :=
  let c := coordAt b p i.cb
  let left := planW b p - x.x0
  if i.op = 7 ∧ !i.flag 10 then
    let sl := (x.slots b p).filter (fun k => s.ps.get 0 k != 0)
    let px := (sl.map (s.ps.get 0)).sum
    let u : Int := if hasOp b p 3 then 1 else 0
    (sl.map (fun k => { n, src := (0, s.fills.get 0 k), line := 0, g := 0, a := 0, z := 1 }),
     if px = 0 ∨ left = 0 then [] else rectCells b idx p n c.index (c.y x.y) (c.y x.y + u) (c.x x.x0) (c.x (x.x0 + min px left - 1))
       (64 * c.g x.z x.r) (64 * c.g x.z x.r + 63))
  else
    -- the source record of the instruction itself, and that of the conversion
    let a := coordAt b p (if x.i.op = 8 then x.i.ca else i.convSrc)
    let o := coordAt b p i.convSrc
    let len := min (min (spanPx a (iterPx b p)) (spanPx c (iterPx b p))) left
    let flat := !a.trunk && (regionAt b p a.index).slots == 0
    let line : Int := if flat then 0 else a.y x.y
    let px (k : Nat) : Int := if flat then k else a.x (x.x0 + k)
    let dy : Int := if flat then 0 else a.y x.y - o.y x.y
    let dx : Int := if flat then 0 else a.x x.x0 - o.x x.x0
    let g := c.g x.z x.r
    if len = 0 then ([], [])
    else
      ((List.range c.ncg).map (fun k => { n, src := (if a.trunk then 2 else 1, a.index), line, g := a.g x.z x.r + k, a := px 0, z := px (len - 1) + 1 }),
       rectCells b idx p n c.index (c.y x.y + dy) (c.y x.y + dy) (c.x x.x0 + dx) (c.x (x.x0 + len - 1) + dx) (64 * g) (64 * (g + c.ncg) - 1))

/-- What the walk of statistics keeps: the Twigs' tiles, the runs that TSTATs have covered, and for each cell whether the last TSTAT over it
carried CELL_END. -/
structure StatPlan where
  tw   : TwigPlan
  runs : List Run
  ends : Map Nat
  ok   : Bool
  deriving DecidableEq, Repr

def StatPlan.step (b : Bytes) (idx p : Nat) (convs : List TInstr) (s : StatPlan) (x : Issue) : StatPlan :=
  let s := { s with tw := s.tw.step b p x }
  let key (n k : Nat) : Nat := 4096 * k + n
  match (if x.i.op = 8 then (convs.find? (fun i => statFor b p (bits x.i.w1 20 12) i x.i)) else none) with
  | some i =>
    let n := bits x.i.w1 20 12
    let (rs, cs) := statReach b idx p n s.tw i x
    { s with runs := rs ++ s.runs, ends := cs.foldl (fun m k => m.put 0 (key n k) (if x.i.flag 11 then 2 else 1)) s.ends }
  | none => match dynConv b x.i with
    | none => s
    | some n =>
      let (rs, cs) := statReach b idx p n s.tw x.i x
      { s with ok := s.ok && rs.all (Run.covered s.runs) && cs.all (fun k => s.ends.get 0 (key n k) == 2) }

/-- Before logical number `j` of `nb` converts an element under a MEASURED or CARRIED step, TSTATs of the step have covered it, and the
last of them over each of its cells carries CELL_END (R546). -/
def statsOk (b : Bytes) (idx p j nb : Nat) : Bool :=
  let convs := ((instrsOf b p).map (·.2.2)).filter (fun i => (dynConv b i).isSome)
  if convs.isEmpty then true
  else ((issueOrder b p j nb).foldl (StatPlan.step b idx p convs) { tw := TwigPlan.start, runs := [], ends := [], ok := true }).ok

/-! ## Reads after a release (R225) -/

/-- Records of a vector, warp or detection instruction that may name a Trunk tensor, with the pixels and lines read beyond the record's. -/
def reachRecords (b : Bytes) (p : Nat) (i : TInstr) : List (Coord × Nat × Nat) :=
  let own := coordAt b p i.ca
  let more := (moreCrefs i).map (fun c => (coordAt b p c, 0, 0))
  match i.op with
  | 1 => if i.isLines then [(own, 0, bits i.w1 0 5 - 1)] else []
  | 2 => [(own, 0, 0)]
  | 3 => [(own, 2, 3)]
  | 4 => [(own, if i.flag 13 then 0 else 4 * 2 ^ i.ff 14 2 - 1, 0)]
  | 5 => [(i.poolCoord own, bits i.w1 4 4, bits i.w1 0 4)]
  | 6 => (own, 0, 0) :: more
  | 7 => more
  | 8 => if i.flag 10 then [(own, 0, 0)] else []
  | 9 => [(own, 0, 0)]
  | 0xD => (own, 0, 0) :: more
  | _ => []

/-- Bias records that an instruction reads. -/
def biasRecords (b : Bytes) (p : Nat) (i : TInstr) : List Coord :=
  match i.op with
  | 7 => ((i.bias b p).toList).map (coordAt b p)
  | 8 => if i.flag 12 then [coordAt b p i.cb] else []
  | _ => []

/-- Frame slots that a move reads, as offsets from the task's frame; all of them with LATEST. -/
def planSlots (b : Bytes) (i : TInstr) (t : Nat) : List Nat :=
  let m := max 1 (tSlots b t)
  if i.op = 1 ∧ i.flag 13 then List.range m else [(m - (if i.op = 1 then bits i.w2 0 4 else 0) % m) % m]

/-- Trunk pages that an instruction reads under the plan. -/
def planPages (b : Bytes) (p : Nat) (x : Issue) : List Nat :=
  let i := x.i
  let c := coordAt b p i.ca
  let t := c.index
  if i.op = 0xC ∨ i.isLines then
    if (patternOf b t).isSome then [] else pagesOf ((planSlots b i t).flatMap (fun f => moveRuns b p i f x.y x.z x.x0 x.r (tH b t)))
  else if i.isPlane then
    let tb := tileBytes i.layout (tFmt b t) i.bw i.kh
    if c.trunk then pagesOf ((planSlots b i t).map (fun f => (tileAddr b t f (c.g x.z x.r) tb, tb))) else []
  else
    let lines (c : Coord) (dx dy n : Nat) : List (Nat × Nat) :=
      if !c.trunk then []
      else (List.range (dy + 1)).flatMap (fun (k : Nat) => match padAxis c.pad 0 (tH b c.index) (c.y x.y + (k : Int)) with
        | none => []
        | some y => lineRuns b c.index 0 y.toNat (64 * c.g x.z x.r) (64 * c.ncg) (max 0 (c.x x.x0)).toNat (n + dx))
    pagesOf ((reachRecords b p i).flatMap (fun e => lines e.1 e.2.1 e.2.2 (if i.op = 0xD then tW b e.1.index else spanPx e.1 (iterPx b p))) ++
      (biasRecords b p i).flatMap (fun c => lines c 0 0 1))

/-- The instruction is marked REL. -/
def TInstr.rel (i : TInstr) : Bool := (i.isLines && i.flag 12) || (i.op == 0xC && i.flag 10)

/-- Pages that logical number `j` releases, and pages that it reads with no release of them at the read or after it. -/
def relPlan (b : Bytes) (p j nb : Nat) : List Nat × List Nat :=
  (issueOrder b p j nb).foldr (fun x (acc : List Nat × List Nat) =>
    let pages := planPages b p x
    if x.i.rel then ((pages ++ acc.1).eraseDups, acc.2)
    else (acc.1, ((pages.filter (fun v => !acc.1.contains v)) ++ acc.2).eraseDups)) ([], [])

/-- No Branch can read a page after the releases of it: each one that reads a page that the task releases ends with a release of its own. -/
def relsOk (b : Bytes) (p nb : Nat) : Bool :=
  if !(instrsOf b p).any (fun e => e.2.2.rel) then true
  else
    let l := (List.range nb).map (fun j => relPlan b p j nb)
    let rels := (l.flatMap (·.1)).eraseDups
    l.all (fun e => e.2.all (fun v => !rels.contains v))

/-! ## Halo lines (R231) -/

/-- Planned image of the tensor behind a region, in lines. -/
def regionLines (b : Bytes) (idx p rg : Nat) : Int × Int :=
  match readTensor b p rg with
  | none => (0, planH b p)
  | some t => let py := (placeOf b idx t).2; (max 0 (py.lo - py.org), min (tH b t) (py.hi - py.org))

/-- A line that a Branch sends or expects: the Branch, its neighbour, region, line, and the row group of the loop line. -/
structure HaloPlan where
  own  : Nat
  nbr  : Nat
  rg   : Nat
  line : Int
  q    : Nat
  deriving DecidableEq, Repr

/-- Lines that logical number `j` sends (`rx` 0) or expects. -/
def haloPlan (nv : NonVol) (b : Bytes) (idx k rx j : Nat) : List HaloPlan :=
  let p := progOff b (kProg b k)
  let ns := kBranches b k
  ((issueOrder b p j ns.length).filter (fun x => x.i.op == 0xB && x.i.flag 10 == (rx == 1))).flatMap (fun x =>
    let c := coordAt b p x.i.ca
    let e := regionLines b idx p c.index
    (((List.range (bits x.i.w1 0 5)).map (fun (u : Nat) => c.y x.y + (u : Int))).filter (fun y => decide (e.1 ≤ y ∧ y < e.2))).map
      (fun y => { own := ns.getD j 0, nbr := haloNeighbour nv b (ns.getD j 0) (x.i.ff 11 1), rg := c.index, line := y, q := x.y / max 1 (hG b p) }))

/-- Every line sent is expected by the neighbour, every line expected is sent, by a neighbour that holds the row group of the loop line at
which it sends (DEDUCED, log entry 92). -/
def haloOk (nv : NonVol) (b : Bytes) (idx k : Nat) : Bool :=
  let ns := kBranches b k
  let plan (rx : Nat) : List HaloPlan := (List.range ns.length).flatMap (haloPlan nv b idx k rx)
  let meets (x y : HaloPlan) : Bool := x.own == y.nbr && y.own == x.nbr && x.rg == y.rg && x.line == y.line
  let holds (x : HaloPlan) : Bool := ns.getD (x.q % max 1 ns.length) 16 == x.own
  (plan 0).all (fun x => holds x && (plan 1).any (meets x)) && (plan 1).all (fun x => (plan 0).any (meets x))

end Sys2Proof.Machine
end

