-- ==== Sys2Proof/Machine/GraftRules.lean ====
section
/-! DEFINITION. Load-time rules that join instructions, tasks and the canvas, and phase 4 as a whole (R136, R207 to R232, R275, R408, R415,
R548). -/

namespace Sys2Proof.Machine

/-! ## Rules between the instructions of a program -/

/-- Plane loads of one region have one tile size (R548). -/
def tileSizesOk (b : Bytes) (p : Nat) : Bool :=
  let l := (instrsOf b p).filterMap (fun e =>
    let i := e.2.2
    let c := coordAt b p i.ca
    if i.isPlane && !c.trunk then some (c.index, tileBytes i.layout (planeFmt b p c) i.bw i.kh) else none)
  l.all (fun x => l.all (fun y => x.1 != y.1 || x.2 == y.2))

/-- A dynamically scaled tensor is never loaded into a region whose activations or tiles a Twig reads (R136). -/
def dynToTwig (b : Bytes) (p : Nat) : Bool :=
  let ins := (instrsOf b p).map (·.2.2)
  let read := (ins.filter (fun i => twigWork i || i.isPlane)).map (fun i => coordAt b p i.ca)
  ins.any (fun i => (i.isLines || i.op == 0xC) && (stepOfTensor b (coordAt b p i.ca).index).isSome &&
    read.any (fun c => !c.trunk && c.index == (coordAt b p i.cb).index)) ||
  read.any (fun c => c.trunk && (stepOfTensor b c.index).isSome)

def programFlaws (b : Bytes) (p : Nat) : List Flaw :=
  let h := progHeaderFlaws b p
  if !h.isEmpty then h
  else
    regionFlaws b p ++ coordFlaws b p ++ each 4 (fun s => each (hN b p s) (instrFlaws b p s)) ++
    tp (tileSizesOk b p) p ++ tp (!dynToTwig b p) p ++ tp (biasMatch b p) p

/-! ## Rules that the loops decide -/

/-- Tensor positions `a .. z` on an axis: some lies inside the canvas and outside the extent of `len` (R408). -/
def leavesExtent (pl : Place) (len : Nat) (a z : Int) : Bool :=
  let lo := max (a + pl.org) pl.lo
  let hi := min (z + pl.org) (pl.hi - 1)
  decide (lo ≤ hi) && (decide (lo < pl.org) || decide (pl.org + len ≤ hi))

/-- A record never reads a canvas position outside the extent. Lines are those a load takes from the Trunk, pixels those that
stream out of a region. -/
def reachOk (b : Bytes) (idx p : Nat) (i : TInstr) : Bool :=
  (reachRecords b p i).all (fun e =>
    let c := e.1
    match (if c.trunk then some c.index else readTensor b p c.index) with
    | none => true
    | some t =>
      let (px, py) := placeOf b idx t
      flatRecord b p c || planW b p == 0 || planH b p == 0 ||
      ((i.isLines || !leavesExtent px (tW b t) (c.x 0) (c.x (planW b p - 1) + e.2.1)) &&
       (!c.trunk || !leavesExtent py (tH b t) (c.y 0) (c.y (planH b p - 1) + e.2.2))))

/-- A warp's taps, at the greatest vectors, lie inside the extent wherever they lie inside the canvas (R188, R408). -/
def warpReachOk (b : Bytes) (idx p : Nat) (i : TInstr) : Bool :=
  let c := coordAt b p i.ca
  let par := wordAt b p (bits i.w1 17 8)
  match readTensor b p c.index with
  | none => true
  | some t =>
    let (px, py) := placeOf b idx t
    let (ox, oy) := placeOf b idx (hOut b p)
    let axis (pl : Place) (len : Nat) (o : Int) (n : Int × Int) (step m : Nat) : Bool :=
      let tap (x : Int) (v : Int) : Int := (warpPos x step v (bits i.w1 8 9) true).fdiv 16
      !leavesExtent pl len (tap (o + n.1) (-16 * (m : Int)) - 1 - pl.org) (tap (o + n.2) (16 * (m : Int)) + 2 - pl.org)
    -- destination coordinates (R187)
    let q := coordAt b p i.cb
    planW b p == 0 || planH b p == 0 ||
    (axis px (tW b t) ox.org (q.x 0, q.x (planW b p - 1)) (bits i.w2 0 19) (bits par 0 10) && axis py (tH b t) oy.org (q.y 0, q.y (planH b p - 1)) (bits i.w3 0 19) (bits par 10 8))

/-- A record that reads a SEAMCUT tensor reaches at most SEAM_BAND output pixels from the element it serves (R415). -/
def bandOk (b : Bytes) (idx p : Nat) (i : TInstr) : Bool :=
  (reachRecords b p i).all (fun e =>
    let c := e.1
    match (if c.trunk then some c.index else readTensor b p c.index) with
    | none => true
    | some t =>
      let o := hOut b p
      let s : Int := 2 ^ gvShift b t
      let so : Int := 2 ^ gvShift b o
      let band : Int := (gvSeamBand b / 2 ^ gvShift b t : Nat)
      let near (org oorg a z : Int) (x : Nat) : Bool :=
        let at_ := ((x + oorg) * so).fdiv s - org
        decide (-band ≤ a - at_ ∧ z - at_ ≤ band)
      let (px, py) := placeOf b idx t
      let (ox, oy) := placeOf b idx o
      !gvSeamcut b t || flatRecord b p c ||
      ((i.isLines || (List.range (planW b p)).all (fun x => near px.org ox.org (c.x x) (c.x x + e.2.1) x)) &&
       (!c.trunk || (List.range (planH b p)).all (fun y => near py.org oy.org (c.y y) (c.y y + e.2.2) y))))

/-- Rules that need tasks: regions of programs that share a Branch, multicast trees, releases, halo lines, reach. -/
def taskProgFlaws (nv : NonVol) (b : Bytes) (idx : Nat) : List Flaw :=
  each (nTasks b) (fun k =>
    let p := progOff b (kProg b k)
    let ns := kBranches b k
    let mask := (ns.map (2 ^ ·)).sum
    let regs (q : Nat) : List Region := (List.range (hNreg b q)).map (regionAt b q)
    let shares (m : Nat) : Bool := kProg b m != kProg b k && (kBranches b m).any ns.contains
    tp ((List.range k).all (fun m => !shares m || (regs p).all (fun r => (regs (progOff b (kProg b m))).all (fun s => !regionsMeet r s)))) p ++
    tp ((instrsOf b p).all (fun e => e.2.2.op != 0xC || treeMask b (bits e.2.2.w1 0 6) == mask)) p ++
    tp (twigPlanOk b p ns.length) p ++ tp ((List.range ns.length).all (fun j => statsOk b idx p j ns.length)) p ++
    tp (relsOk b p ns.length) p ++
    tp (!hasOp b p 0xB || haloOk nv b idx k) p ++
    tp (!hasGrove b || (instrsOf b p).all (fun e =>
      reachOk b idx p e.2.2 && (e.2.2.op != 0xA || warpReachOk b idx p e.2.2) && bandOk b idx p e.2.2)) p)

/-! ## Phase 4 -/

/-- The first fault of phase 4: lengths first, then fields, then the rules that join them (log entry 50). -/
def sectionFlaw (nv : NonVol) (d : Dev) (b : Bytes) : Option Flaw :=
  let idx := fld d grvIndex
  match firstFlaw (layoutFlaws b) with
  | some f => some f
  | none =>
    match firstFlaw (structureFlaws nv b ++ tensorFlaws b ++ ringFlaws b ++ seedFlaws d b ++ canopyFlaws b ++ ispFlaws b ++ groveFlaws b idx ++
        certFlaws b ++ each (nProgs b) (fun q => programFlaws b (progOff b q))) with
    | some f => some f
    | none =>
      match firstFlaw (taskFlaws b ++ tableFlaws b idx) with
      | some f => some f
      | none => firstFlaw (taskProgFlaws nv b idx)

end Sys2Proof.Machine
end

