-- ==== Sys2Proof/Machine/GraftLoad.lean ====
section
/-! DEFINITION. Loading a Graft and staging seed packs (R280, R282, R285 to R289, R449, R465). -/

namespace Sys2Proof.Machine

/-! ## GRAFT_LOAD (R286, R287) -/

/-- The image area that the Graft in force leaves free (R442). -/
def freeArea (d : Dev) : Nat := match d.root.space0 with | some g => 1 - g.area | none => 0
def areaAddr (k : Nat) : Nat := lp6Base + k * 0x1000000

/-- The pair of GRAFT_LOAD stands at a phase; PERMILLE counts bytes in phase 1 and reads 1,000 afterwards (R289, R542). -/
def loadPhase (phase : Nat) (d : Dev) : Dev := progSet d 1 1 0 phase 6 (if phase = 1 then 0 else 1000)

/-- GRAFT_LOAD begins to receive, or completes BUSY, BAD_ARG or NO_RESOURCE. -/
def graftLoadOp (len key : Nat) (d : Dev) : Dev :=
  if fld d graftSpace1 ≠ 0 || d.root.apply.isSome then complete d key stBusy []
  else if len = 0 || 0x1000000 < len then complete d key stBadArg []
  else if !flag d lp6Avail then complete d key stNoResource []
  else
    let d := loadPhase 1 (setFld (announce key .graft len d) graftSpace1 1)
    { d with root := { d.root with loadTag := some key } }

def execGraftLoad (h : Hdr) (len : Nat) (s : State) : Out :=
  onDev s (request (.graftLoad h len) h 1 0x10 (decide (h.length = 8)) (graftLoadOp len))

/-- A load fails at a phase: space 1 is emptied, the cause is recorded, GRAFT_REFUSED is raised. -/
def loadFail (key phase status : Nat) (f : Flaw) (d : Dev) : Dev :=
  let d := setFlds { d with root := { d.root with space1 := none, loadTag := none } }
    [(graftSpace1, 0), (graftErrStatus, status), (graftErrPhase, phase), (graftErrSect, f.1), (graftErrOff, f.2)]
  let d := raise d 0x0262 0 0 (status + phase * 2 ^ 8 + f.1 * 2 ^ 16)
  progFail (complete (if phase = 1 then d else loadPhase phase d) key status []) 1

/-- Phases 2 to 6: the phase, status and place of the first failure. -/
def loadVerdict (nv : NonVol) (d : Dev) (b : Bytes) : Option (Nat × Nat × Flaw) :=
  let sig := gOff b 0xFF
  let cert : Flaw := (0xA, gOff b 0xA)
  match firstFlaw (headerFlaws nv b ++ directoryFlaws b) with
  | some f => some (2, stBadArg, f)
  | none =>
    if !slotVerifies nv d (u8 b 12) (b.take sig) (slice b sig 96) then some (3, stSigFail, (0xFF, sig))
    else if u32 b 20 < nv.intCtr then some (3, stSigFail, (0, 20))
    else match sectionFlaw nv d b with
      | some f => some (4, stBadArg, f)
      | none => match firstFlaw (resourceFlaws nv d b) with
        | some f => some (5, stNoResource, f)
        | none => if certRecordsOk b && certOk nv d b then none else some (6, stAdmission, cert)

/-- Every byte of the image has arrived. -/
def graftFinish (nv : NonVol) (x : Xfer) (d : Dev) : Dev :=
  let b := x.buf
  let d := setFld d graftSpace1 2
  match loadVerdict nv d b with
  | some (phase, status, f) =>
    loadFail x.tag phase status f (if status = stSigFail then sigRejected 1 (u8 b 12) d else d)
  | none =>
    let g : Graft := { img := b, meas := sha384 (b.take (gOff b 0xFF)), k := 0, idx := fld d grvIndex, area := freeArea d }
    let d := setFld { d with root := { d.root with space1 := some g, loadTag := none } } graftSpace1 3
    let d := raise d 0x0260 0 0 (u32 b 24)
    complete (progDone d 1) x.tag stOk []

/-! ## SEED_STAGE and SEED_DROP (R280, R282, R286) -/

def packMax : Nat := 0x40000000

/-- SEED_STAGE: one pack is staged at a time. -/
def seedStageOp (len key : Nat) (d : Dev) : Dev :=
  if d.usb.xfers.any isSeedXfer then complete d key stBusy []
  else if !decide (64 + 64 + 96 ≤ len ∧ len ≤ 160 + packMax ∧ len % 64 = 32) then complete d key stBadArg []
  else if !flag d lp6Avail then complete d key stNoResource []
  else progStart (announce key .seed len d) 3 0 (2 * len)

def execSeedStage (h : Hdr) (len : Nat) (s : State) : Out :=
  onDev s (request (.seedStage h len) h 1 0x10 (decide (h.length = 8)) (seedStageOp len))

/-- First fit in the seed area for `n` bytes, on a 64 KiB boundary (R442). -/
def placePack (d : Dev) (n : Nat) : Option Nat :=
  let first := lp6Base + 0x2000000
  let top := first + fld d lp6Seed * 0x4000000
  let ends := d.root.packs.map (fun p => cdiv (p.addr + p.len) 0x10000 * 0x10000)
  let fits (a : Nat) : Bool := decide (a + n ≤ top) && d.root.packs.all (fun p => decide (a + n ≤ p.addr ∨ p.addr + p.len ≤ a))
  match (first :: ends).filter fits with
  | [] => none
  | a :: l => some (l.foldl min a)

def seedEnd (status key : Nat) (d : Dev) : Dev := progFail (complete d key status []) 3

/-- Every byte of a pack has arrived. -/
def seedFinish (nv : NonVol) (x : Xfer) (d : Dev) : Dev :=
  let b := x.buf
  let pay := u32 b 12
  let slot := u8 b 6
  let hash := sha384 b
  let ok := u32 b 0 == 0x50535A54 && u16 b 4 == 1 && decide (slot < 4) && zeros b 7 1 && zeros b 16 48 &&
    decide (64 ≤ pay ∧ pay ≤ packMax ∧ pay % 64 = 0) && b.length == 160 + pay
  if !ok then seedEnd stBadArg x.tag d
  else if !slotVerifies nv d slot (b.take (64 + pay)) (slice b (64 + pay) 96) || u32 b 8 < nv.intCtr then
    seedEnd stSigFail x.tag (sigRejected 2 slot d)
  else if d.root.packs.any (fun p => p.hash == hash) then complete (progDone d 3) x.tag stOk []
  else if 64 ≤ d.root.packs.length then seedEnd stNoResource x.tag d
  else match placePack d pay with
    | none => seedEnd stNoResource x.tag d
    | some a =>
      let d := writeLp6 d (a - lp6Base) (slice b 64 pay)
      let l := d.root.packs ++ [{ hash, addr := a, len := pay, slot, svn := u32 b 8, old := false }]
      let d := setFld { d with root := { d.root with packs := l } } seedCount l.length
      complete (progDone d 3) x.tag stOk []

/-- A Graft in either space references the pack. -/
def packHeld (d : Dev) (hash : Bytes) : Bool :=
  [img0 d, img1 d].any (fun b => (List.range (nSeeds b)).any (fun i => seedHash b i == hash))

def seedDropOp (hash : Bytes) (key : Nat) (d : Dev) : Dev :=
  if !d.root.packs.any (fun p => p.hash == hash) then complete d key stBadArg []
  else if packHeld d hash then complete d key stBusy []
  else
    let l := d.root.packs.filter (fun p => p.hash != hash)
    complete (setFld { d with root := { d.root with packs := l } } seedCount l.length) key stOk []

def execSeedDrop (h : Hdr) (hash : Bytes) (s : State) : Out :=
  onDev s (request (.seedDrop h hash) h 1 0x10 (decide (h.length = 52 ∧ hash.length = 48)) (seedDropOp hash))

end Sys2Proof.Machine
end

