-- ==== Sys2Proof/Machine/Slice.lean ====
section
/-! DEFINITION. Tile boundaries, slice wheels, TWAIT and TSIG (R209 to R212, R228, R229, R250, R253, R255, R293). -/

namespace Sys2Proof.Machine

/-! ## The choice at a boundary (R250, R293) -/

/-- A context that can issue: not at its end, not held at a TWAIT, the task's frame before it completed on the Branch (R249, R250). -/
def canIssue (d : Dev) (c : Ctx) : Bool := c.sect != 4 && c.wait.isNone && doneOn d c.task (sub32 c.pfn 1) c.out c.logic

/-- Lowest PRIO, then the older PFN, then the lower task index. -/
def before (b : Bytes) (x y : Ctx) : Bool :=
  let (p, q) := (kPrio b x.task, kPrio b y.task)
  decide (p < q) || (p == q && (later y.pfn x.pfn || (x.pfn == y.pfn && decide (x.task < y.task))))

def choose (b : Bytes) : List Ctx → Option Ctx
  | [] => none
  | c :: cs => some (cs.foldl (fun m x => if before b x m then x else m) c)

/-- Entries of a Branch's slice wheel: logical Branch, Stem, QUANTUM. Those of a Branch it hosts follow its own (R253, R275). -/
def wheelOf (nv : NonVol) (d : Dev) (n : Nat) : List (Nat × Nat × Nat) :=
  let own (m : Nat) : List (Nat × Nat × Nat) := ((List.range 8).map (wheelEntry (img0 d) m)).filter (fun w => w.testBit 7) |>.map
    (fun w => (m, w % 4, w / 65536))
  own n ++ ((List.range 16).filter (fun m => m != n && brHost nv d m == some n)).flatMap own

/-- Contexts of the Graft in force that an entry may issue. -/
def entryCtxs (d : Dev) (n : Nat) (w : Nat × Nat × Nat) : List Ctx :=
  (branch d n).ctxs.filter (fun c => canIssue d c && !c.out && c.logic == w.1 && pStem (img0 d) (kPipe (img0 d) c.task) == w.2.1 &&
    !fenced d (4 + w.2.1))

/-- The Branch takes context `c` for Stem `s`: its task is Running from the first issue on. -/
def take (n s : Nat) (c : Ctx) (d : Dev) : Dev :=
  let x := branch d n
  let rest := x.ctxs.filter (fun y => !(y.task == c.task && y.pfn == c.pfn && y.out == c.out && y.logic == c.logic))
  let d := setBranch d n { x with ctxs := { c with edge := false } :: rest, cur := some (c.task, c.pfn) }
  let first := match taskSt d c.task c.pfn c.out with | some t => t.state == 1 | none => false
  let d := if first && !c.out then unstage d c.task else d
  let d := mapTask d c.task c.pfn c.out (fun t => if t.state = 1 then { t with state := 2, start := d.devTime.toNat } else t)
  setFlds d [(seqHolder n, s), (seqTask n, c.task), (seqBoundary n, 0)]

/-- A hand-over to Stem `s`: the Branch and the Stem count it, and every Running task of the Branch (R253, R256). -/
def countHandover (n s : Nat) (d : Dev) : Dev :=
  let d := bump (bump d (aHandover n) 1) (aSlices s) 1
  (branch d n).ctxs.foldl (fun d c => mapTask d c.task c.pfn c.out (fun t => if t.state = 2 then { t with slices := t.slices + 1 } else t)) d

/-- No Stem has work: the Branch idles. -/
def idle (n : Nat) (d : Dev) : Dev :=
  setFlds (setBranch d n { branch d n with cur := none, spent := false }) [(seqHolder n, 7), (seqTask n, 0), (seqBoundary n, 1)]

/-- TILE_BOUNDARY: an outgoing task first; else the entry in turn; else the next entry whose Stem can issue, at once; else the
Branch idles. An expired quantum waits for the hand-over (R250, R253, R293). -/
def tileBoundaryOp (nv : NonVol) (n : Nat) (d : Dev) : Dev :=
  if !flag d (seqBoundary n) || fenced d (0x10 + n) then d
  else
    let x := branch d n
    match choose (img1 d) (x.ctxs.filter (fun c => canIssue d c && c.out && !fenced d (4 + pStem (img1 d) (kPipe (img1 d) c.task)))) with
    | some c => take n (pStem (img1 d) (kPipe (img1 d) c.task)) c d
    | none =>
      let wh := wheelOf nv d n
      if wh.isEmpty then idle n d
      else if x.spent && decide (1 < wh.length) then d
      else
        let w0 := x.wheel % wh.length
        let turn := (List.range wh.length).map (fun i => (w0 + i) % wh.length)
        match turn.find? (fun i => !(entryCtxs d n (wh.getD i (0, 0, 0))).isEmpty) with
        | none => idle n d
        | some i =>
          let w := wh.getD i (0, 0, 0)
          match choose (img0 d) (entryCtxs d n w) with
          | none => idle n d
          | some c =>
            let d := if i ≠ w0 && fld d (seqHolder n) ≠ 7 then countHandover n w.2.1 d else d
            take n w.2.1 c (setBranch d n { branch d n with wheel := i, spent := false })

def execTileBoundary (branch : Fin 16) (s : State) : Out := onDev s (tileBoundaryOp s.nv branch.val)

/-- SLICE_QUANTUM_EXPIRE: the entry in turn has had its quantum. A wheel of one entry never hands over. -/
def sliceExpireOp (nv : NonVol) (n : Nat) (d : Dev) : Dev :=
  if fld d (seqHolder n) ≠ 7 && decide (1 < (wheelOf nv d n).length) then setBranch d n { branch d n with spent := true } else d

def execSliceQuantumExpire (branch : Fin 16) (s : State) : Out := onDev s (sliceExpireOp s.nv branch.val)

/-- SLICE_HANDOVER: after the last drain the Branch passes to the next entry; entries of a fenced Stem are passed over. -/
def sliceHandoverOp (nv : NonVol) (n : Nat) (d : Dev) : Dev :=
  let x := branch d n
  let wh := wheelOf nv d n
  if x.spent && flag d (seqBoundary n) && decide (1 < wh.length) && !(x.ctxs.any (fun c => !c.drains.isEmpty)) then
    let turn := (List.range wh.length).map (fun i => (x.wheel + 1 + i) % wh.length)
    match turn.find? (fun i => !fenced d (4 + (wh.getD i (0, 0, 0)).2.1)) with
    | none => d
    | some i =>
      let s := (wh.getD i (0, 0, 0)).2.1
      let d := setBranch d n { branch d n with wheel := i, spent := false, cur := none }
      setFlds (countHandover n s d) [(seqHolder n, s), (seqTask n, 0)]
  else d

def execSliceHandover (branch : Fin 16) (s : State) : Out := onDev s (sliceHandoverOp s.nv branch.val)

/-! ## TWAIT (R211, R229) -/

/-- TOTAL of a Ring: declared, or the lines that the Graft plans for a frame of a HW line Ring (R243). -/
def ringTotal (d : Dev) (b : Bytes) (r : Nat) : Nat :=
  let h (bind : Nat) : Nat := match boundTensor b bind with | some t => tH b t | none => 0
  if r = 0 then h 1 else if r = 2 then h 2 else if r = 0x11 ∨ r = 0x12 then gFbH b
  else if r = 0x20 ∨ r = 0x22 then
    match ctxOff b (inForce d (camCtx ((r - 0x20) / 2))) with
    | some o => cH b o | none => 0
  else match ringDecl b r with | some e => e.total | none => 0

/-- TWAIT: goes on at once when its Ring has reached the target; else the context is held, at a tile boundary when no tile of it is
in flight. -/
def twaitOp (nv : NonVol) (n : Nat) (d : Dev) : Dev :=
  match envOf nv d n with
  | none => d
  | some e =>
    if e.i.op ≠ 0x11 then d
    else if e.skip then advance e d
    else
      let r := e.i.w1 % 65536
      let w := (r, min (e.i.w2 + e.i.w3 % 65536 * e.y) (ringTotal d e.b r))
      if twaitMet d e.c w then advance e d
      else
        markBoundary n (mapCur d n (fun c => { c with wait := some w }))

def execTwait (branch : Fin 16) (s : State) : Out := onDev s (twaitOp s.nv branch.val)

/-- The same context. -/
def Ctx.same (x y : Ctx) : Bool := x.task == y.task && x.pfn == y.pfn && x.out == y.out && x.logic == y.logic

/-- TWAIT_MET: the oldest held context whose Ring has reached its target goes on; one that yielded the Branch waits to be chosen
again. -/
def twaitMetOp (nv : NonVol) (n : Nat) (d : Dev) : Dev :=
  let x := branch d n
  match x.ctxs.find? (fun c => match c.wait with | some w => twaitMet d c w | none => false) with
  | none => d
  | some c =>
    let b := imgOf d c.out
    let p := progOff b (kProg b c.task)
    let j := logicalNo b c.task c.logic
    let nb := (kBranches b c.task).length
    let held := (match x.ctxs.head? with | some h => h.same c | none => false) && x.cur.isSome && !flag d (seqBoundary n)
    let c' := Ctx.norm b p j nb 8 { c with wait := none, idx := c.idx + 1, edge := c.edge || !held }
    let d := setBranch d n { x with ctxs := x.ctxs.map (fun y => if y.same c then c' else y) }
    let e : Env := { nv, n, c := c', b, p, i := instrAt b p 0 0, y := 0, x0 := 0, j, nb }
    let d := if c'.sect = 4 then endProgram e d else d
    markBoundary n (if c'.sect = 4 || c'.edge then consumeLines e d else d)

def execTwaitMet (branch : Fin 16) (s : State) : Out := onDev s (twaitMetOp s.nv branch.val)

/-! ## TSIG (R228, R255) -/

/-- TSIG: the signal is issued; it lands once every earlier write of the Branch in the task is acknowledged. -/
def tsigRun (e : Env) (d : Dev) : Dev × Bool :=
  (mapCur d e.n (fun c => { c with sigs := c.sigs ++ [(e.i.w1 % 65536, e.i.w2)], nSig := c.nSig + 1 }), true)

def execTsig (branch : Fin 16) (s : State) : Out := onDev s (tileOp 0x10 tsigRun s.nv branch.val)

/-- A write that the context issued before its oldest signal is not acknowledged. -/
def writesOut (d : Dev) (c : Ctx) : Bool :=
  let landed := c.nSig - c.sigs.length
  let mine (k pfn : Nat) (out : Bool) (l sig : Nat) : Bool := k == c.task && pfn == c.pfn && out == c.out && l == c.logic && decide (sig ≤ landed)
  d.ras.segQ.any (fun g => mine g.task g.pfn g.out g.logic g.sigNo) ||
  d.br.any (fun x => x.2.haloIn.any (fun h => mine h.task h.pfn h.out h.logic h.sigNo) ||
    x.2.mcast.any (fun m => mine m.task m.pfn m.out m.logic m.sigNo))

/-- An amount of a Ring, less what re-run work has still to absorb. -/
def absorb (c : Ctx) (r a : Nat) : Nat × List (Nat × Nat) :=
  match c.absorb.find? (fun e => e.1 == r) with
  | none => (a, c.absorb)
  | some e =>
    let m := min a e.2
    (a - m, (c.absorb.map (fun x => if x.1 == r then (x.1, x.2 - m) else x)).filter (fun x => x.2 != 0))

/-- TSIG_LAND: the oldest signal of a context of the Branch whose earlier writes are acknowledged is added to its Ring. -/
def tsigLandOp (n : Nat) (d : Dev) : Dev :=
  let x := branch d n
  match x.ctxs.find? (fun c => !c.sigs.isEmpty && !writesOut d c) with
  | none => d
  | some c =>
    match c.sigs with
    | [] => d
    | (r, a) :: rest =>
      let (v, l) := absorb c r a
      let d := setBranch d n { x with ctxs := x.ctxs.map (fun y => if y.same c then { y with sigs := rest, absorb := l } else y) }
      let d := mapTask d c.task c.pfn c.out (fun t => { t with sig := t.sig.put 0 (c.logic * 65536 + r) (t.sig.get 0 (c.logic * 65536 + r) + v) })
      if v = 0 then d else ringInc d r v

def execTsigLand (branch : Fin 16) (s : State) : Out := onDev s (tsigLandOp branch.val)

end Sys2Proof.Machine
end

