-- ==== Sys2Proof/Machine/RegMap.lean ====
section
/-! DEFINITION. Host access to registers: what a word reads as, what a read does, what a write does (R8 to R13, R537 to R539, R543). -/

namespace Sys2Proof.Machine

/-! ## Words that the engine computes when they are read -/

/-- Deadline ledger: complete lines ahead of scan (R53). A tile outside the run-time output extent, which no write completes (R236), counts
as complete (DESIGN CHOICE, log entry 93). -/
def undAhead (d : Dev) : Nat :=
  let scan := decide (pos d < vactive d)
  let n := if scan then ofn d else add32 (ofn d) 1
  let f := outFrame d n
  let (w, h) := panelOf d n
  let row (k : Nat) : Bool := (List.range (tileCols w)).all (fun c =>
    let t := k * tileCols w + c
    f.subs.get 0 t == 0 && (!tileInside f w h k c || decide (tileFull w h k c ≤ tileCount f t)))
  let k0 := if scan then pos d / 8 else 0
  let run := ((List.range (tileRows h - k0)).takeWhile (fun i => row (k0 + i))).length
  if !d.ras.running || writerNow d n = 15 then 0
  else min h (8 * (k0 + run)) - (if scan then pos d else 0)

/-- Owner of a bank group (R91). -/
def groupOwner (d : Dev) (g : Nat) : Nat :=
  let b := img0 d
  if !hasGraft d then 7
  else if (gShared b).testBit g then 4
  else match (pipesOf b).find? (fun p => (pGroups b p).testBit g) with | some p => p | none => 7

/-- Task-frames of a Stem in a state. -/
def stemCount (d : Dev) (s st : Nat) : Nat :=
  ((d.stem.frames.filter (fun f => pStem (imgOf d f.out) f.pipe == s)).map (fun f =>
    (f.tasks.filter (fun t => t.state == st)).length)).sum

/-- Word at `a` of the GEN, CLK, ROOT, RING and STEM blocks; `w` is the word stored. -/
def viewLow (nv : NonVol) (d : Dev) (a w : Nat) : Nat :=
  let r := fld d ringSel
  if a = 0 then (if nv.gradeS then 0x01A18120 else 0x00A18120)
  else if a = 4 then genSettings nv
  else if 0x108 ≤ a ∧ a ≤ 0x158 ∧ a % 8 = 0 then w - w % 256 + (a - 0x100) / 8
  else if a = 0x10030 then d.devTime.toNat % 2 ^ 32
  else if a = 0x10034 then d.devTime.toNat / 2 ^ 32
  else if a = 0x20100 then w + nv.lifecycle % 4 * 2 ^ 12
  else if a = 0x20104 then w + nv.fwCtr % 256 * 2 ^ 8
  else if a = 0x20108 then nv.intCtr % 256
  else if a = 0x2010C then w + nv.keyState % 256
  else if a = 0x20110 then nv.usbWord.getD 0
  else if a = 0x20120 ∨ a = 0x20124 ∨ a = 0x20128 then u32 (be 12 nv.serial) (a - 0x20120)
  else if a = 0x30004 then ringVal d r
  else if a = 0x30010 then min 255 (ringWaiters d r)
  else if a = 0x30014 then
    (match ringKind d r with
     | 1 => (match (d.ring.base.get [] r).head? with | some e => e.2 | none => 0)
     | 2 => (match declaredIn d r with | some b => (openedBase d r (fld d (stemPfnOpen (pStem b (ringPipe b r))))).getD 0 | none => 0)
     | _ => 0)
  else if a = 0x30018 then
    (match ringKind d r with
     | 1 => ringTotal d (img0 d) r
     | 2 => (match declaredIn d r with | some b => ringTotal d b r | none => 0)
     | _ => 0)
  else if a = 0x3001C then ringKind d r
  else if a = 0x4000C ∨ a = 0x4010C ∨ a = 0x4020C ∨ a = 0x4030C then
    let s := (a - 0x4000C) / 0x100
    stemCount d s 2 + stemCount d s 1 * 65536
  else if a = 0x40F04 then 0x20000
  else w

/-- Word at `a` of a Branch block: absent Branches read zero (R24). -/
def viewBranch (nv : NonVol) (d : Dev) (a w : Nat) : Nat :=
  let n := (a - 0x80000) / 0x4000
  if branchCount nv ≤ n then 0
  else if a = brBase n + 0x2014 then
    let t := fld d (romTable n)
    let i := fld d (romEntry n)
    if 6 ≤ t then 0 else ofS 16 (romY t i) + ofS 16 (romK t i) * 65536
  else w

/-- Word at `a` of the GRV, FLT, USB and UND blocks. -/
def viewHigh (nv : NonVol) (d : Dev) (a w : Nat) : Nat :=
  let b := img0 d
  let k := bucket d (fld d bktSel)
  let last := k.last.head?
  if a = 0x1A0028 then (if hasGraft d ∧ hasGrove b then gvRX b (groveIdx d false) else 0)
  else if a = 0x1A002C then (if hasGraft d ∧ hasGrove b then gvRY b (groveIdx d false) else 0)
  else if a = 0x1A0030 then groveN d
  else if 0x1A0040 ≤ a ∧ a < 0x1A0090 then u32 (settingsTuple nv d) (a - 0x1A0040)
  else if a = 0x1B0018 then ((List.range 16).filter (brInService nv d)).foldl (fun m n => m + 2 ^ n) 0
  else if a = 0x1B001C ∨ a = 0x1B0020 then
    (List.range 8).foldl (fun m i => m + (match brHost nv d (8 * ((a - 0x1B001C) / 4) + i) with | some h => h | none => 15) * 16 ^ i) 0
  else if a = 0x1B0084 then
    (if 197 ≤ fld d bktSel then 0 else k.level + (match last with | some e => e.kind | none => 0) * 65536 + (if k.state = 0 && bktFenced d (fld d bktSel) then 3 else k.state) * 2 ^ 20)
  else if a = 0x1B0088 then (if 197 ≤ fld d bktSel then 0 else match last with | some e => e.addr | none => 0)
  else if a = 0x1D0008 then
    d.usb.tags.length + (d.usb.xfers.filter (fun x => decide (0 < x.got))).length % 8 * 256
  else if a = 0x1D0010 then d.usb.evq.length
  else if a = 0x1D0024 then d.ring.held.length
  else if a = 0x1E0010 then 0x30000
  else if a = 0x1E0028 then undAhead d
  else w

/-- The word that a register reads as, before any holding copy. -/
def viewWord (nv : NonVol) (d : Dev) (a : Nat) : Word :=
  let w := (reg d a).toNat
  BitVec.ofNat 32 (
    if a < 0x80000 then viewLow nv d a w
    else if a < 0xC0000 then viewBranch nv d a w
    else if 0x100080 ≤ a ∧ a < 0x1000C0 then groupOwner d ((a - 0x100080) / 4) + groupFree d ((a - 0x100080) / 4) * 65536
    else if 0x1A0000 ≤ a then viewHigh nv d a w
    else w)

/-! ## Reads (R10, R12, R13, R539) -/

/-- Registers whose fields are RC. -/
def rcRegs (nv : NonVol) : List Nat :=
  [aThrottles, aSigFail] ++ (List.range 4).flatMap (fun s => [aSlices s, aOverrun s, aAudit s]) ++
  (List.range (branchCount nv)).flatMap (fun n =>
    [aHandover n] ++ (List.range 5).flatMap (fun t => (List.range 5).map (fun i => brBase n + 0x1004 + 0x40 * t + 4 * i)) ++
    [aAuditDone n, aAuditMiss n, aVecBusy n, aVecSat n, aScaleInv n, aWarpBusy n, aMvClamp n, aWarpEdge n, aBoxCand n, aBoxDrop n,
     aNmsKept n, aNmsDrop n, aBstCorr n, aBstUncorr n, brBase n + 0x2308]) ++
  [aScrubCorr, aUncorr, aUnwritten, aRingOvf, aStalls, aEvict, aStageWaste, aLp6Corr, aLp6Uncorr, aLp6Addr, aLp6Retry] ++
  (List.range 2).flatMap (fun p => [aIntChg p, aIntSkip p, aIntUndec p, aIntSat p, aIntUnpaired p, aIntUiDrop p, aCamChkErr p, aCamDrop p,
    aCamShape p, aCamNak p]) ++
  [aWbDrop, aWbProt, aBlendSat, aCacheMiss, aUnderrun] ++ (List.range 16).map aChkMiss ++ [aIspDpc, aIspSat, aTcErr, aLockLoss, aErrTotal] ++
  (List.range 8).map aWndHits ++ [aEvtLost, aBadMsg, aOrphan, aUsbResets, aSubTotal, aLateWr, aFillLines]

/-- Registers that a read of `a` latches (Table Regmap-2). -/
def latched (a : Nat) : List Nat :=
  if 0x108 ≤ a ∧ a ≤ 0x158 ∧ a % 8 = 0 then [a + 4]
  else if a = 0x10030 ∨ a = 0x20204 ∨ a = 0x120020 then [a + 4]
  else if 0x170600 ≤ a ∧ a ≤ 0x170660 ∧ a % 16 = 0 then [a + 4]
  else if a = hdrIfn 0 ∨ a = hdrIfn 1 then (List.range 7).map (fun i => a + 4 + 4 * i)
  else match (List.range 8).find? (fun c => a == cxLastCfn c) with
    | some c => [cxExp c, cxExp2 c, cxLast c]
    | none => []

/-- A host read of the register at `a`: the word, a holding copy where one stands; latches, and RC fields that clear. -/
def regRead (nv : NonVol) (a : Nat) (d : Dev) : Word × Dev :=
  let w := match d.hold.get none a with | some w => w | none => viewWord nv d a
  let d := (latched a).foldl (fun d x => { d with hold := d.hold.put none x (some (viewWord nv d x)) }) d
  (w, if (rcRegs nv).contains a then setReg d a 0 else d)

/-- A register access has an aligned address below the memory windows (R8, R24, R537). -/
def regAddrOk (a : Nat) : Bool := a % 4 == 0 && decide (a < 0x100000000)

/-- A host read by a row of its own: the word is what the access returned. -/
def readRowOp (nv : NonVol) (a : Nat) (d : Dev) : Dev :=
  if regAddrOk a then
    let r := regRead nv a d
    { r.2 with usb := { r.2.usb with lastRead := r.1 } }
  else d

/-! ## Writes (R9, R10, R543, R544) -/

/-- RW and SH bits of the registers that a write only stores to. -/
def storeMask (nv : NonVol) (a : Nat) : Nat :=
  if a = 0x30000 then 0xFFFF
  else if 0x80000 ≤ a ∧ a < 0xC0000 then
    let n := (a - 0x80000) / 0x4000
    if branchCount nv ≤ n then 0 else if a = brBase n + 0x1200 then 0xF1 else if a = brBase n + 0x2010 then 0x7FF else 0
  else if a = 0x100004 then 0xFFFFFFFF
  else if a = 0x100044 then 0x3FFFF
  else if 0x160000 ≤ a ∧ a < 0x160200 then
    (match a % 0x40 with | 0 => 0x1FFFF | 4 => 0xFFFFFFFF | 8 => 0xFFFFFFFF | 0xC => 0xFFFFFFFF | 0x10 => 0xFF | _ => 0)
  else if a = 0x170000 then 0xFF
  else if a = 0x170004 ∨ a = 0x170008 ∨ a = 0x17000C ∨ a = 0x170010 then 0xFFFFFFFF
  else if a = 0x170014 then 0x7FFFF
  else if a = 0x170028 then 0x9FFF
  else if a = 0x170080 then 0xFFFF
  else if 0x170400 ≤ a ∧ a < 0x170600 then
    (match a % 0x20 with | 0 => 3 | 4 => 0xFFFFFFFF | 8 => 0xFFFFFFFF | 0xC => 0xFFFFFFFF | _ => 0)
  else if a = 0x182004 then 0xF
  else if 0x183000 ≤ a ∧ a < 0x183800 then (if a % 0x100 = 4 then 0xFFFFFFFF else 0)
  else if a = 0x1A0010 ∨ a = 0x1A0014 then 0xFFFF
  else if 0x1B0040 ≤ a ∧ a < 0x1B005C then 0xFFFFFFF
  else if a = 0x1B0080 then 0xFF
  else if a = 0x1C0000 then 1
  else if a = 0x1D0004 then 1
  else if a = 0x1D000C then 0x3FE
  else if a = 0x1E000C then 0x3FFFFFFF
  else 0

/-- The bits of `mask` taken from `v`, the others kept. -/
def storeBits (mask : Nat) (v : Word) (d : Dev) (a : Nat) : Dev :=
  let m : Word := BitVec.ofNat 32 mask
  setReg d a ((reg d a &&& ~~~m) ||| (v &&& m))

/-- MAXLANES of port `q` after a write: a count above what a retired lane leaves is ignored (R492). `old`: the word before. -/
def keepLanes (q : Nat) (x : Fld) (old : Word) (d : Dev) : Dev :=
  let dead (l : Nat) : Bool := (bucket d (172 + 4 * q + l)).state == 2
  let most := if dead 0 || dead 1 then 0 else if dead 2 || dead 3 then 1 else 3
  if most < fld d x then setFld d x (fget x old) else d

/-- INT_CTL: UI reads 0 in INT0 and cannot be set in split mode; HPD falling is a source change of class LINK (R311, R313, R315). -/
def intCtlWrite (p : Nat) (v : Word) (d : Dev) : Dev :=
  let noUi := p = 0 ∨ (splitMode d ∧ v.toNat.testBit 4)
  let fall := flag d (intHpd p) && v.toNat % 2 == 0
  let d := keepLanes p (intMaxLanes p) (reg d (intBase p)) (storeBits (if noUi then 0xFEF else 0xFFF) v d (intBase p))
  if fall && !fenced d (0x38 + p) then sourceChange p 8 d else d

/-- CLK_LOCK: SRC 3 is ignored, ADJMAX 0 is taken as 1 (R523). It takes effect at position 0 (R512). -/
def clkLockWrite (v : Word) (d : Dev) : Dev :=
  let d := storeBits (if v.toNat % 4 = 3 then 0xFFFFFF1C else 0xFFFFFF1F) v d 0x10020
  if fld d lockAdj = 0 then setFld d lockAdj 1 else d

/-- DSO_PR: ERR is W1C and ends set when the hardware sets it in the same cycle; REQ asks for replay or its exit (R11, R355). -/
def dsoPrWrite (v hwSet : Word) (d : Dev) : Dev :=
  let d := if v.toNat.testBit 4 then setFld d prErr 0 else d
  let d := if v.toNat % 2 = 1 then replayRequestOp d else replayExit 1 (setFld d prReq 0)
  if hwSet.toNat.testBit 4 then setFld d prErr 1 else d

/-- A host write to the register at `a`: the status, and the state after it. `hwSet` are the W1C bits that the hardware sets in the
same cycle. -/
def regWrite (nv : NonVol) (a : Nat) (v hwSet : Word) (d : Dev) : Nat × Dev :=
  let ok (d : Dev) : Nat × Dev := (stOk, d)
  if a = 0x10004 then ok (clkCapOp nv v d)
  else if a = 0x10020 then ok (clkLockWrite v d)
  else if a = 0x30008 then
    (if hostMayWrite d (fld d ringSel) && amountOk v.toNat then ok (ringAddRegOp v d) else (stBadArg, d))
  else if a = 0x3000C then
    (if !hostMayWrite d (fld d ringSel) then (stBadArg, d)
     else if ringWaiters d (fld d ringSel) ≠ 0 then (stBusy, d) else ok (ringSetRegOp v d))
  else if a = 0x40F08 then (if isHistory d (v.toNat % 65536) then ok (stemHistInvOp v d) else (stBadArg, d))
  else if a = 0x100000 then ok (watermarks (storeBits 0xFF03FF v d a))
  else if a = 0x100010 then ok (booksSnapOp v d)
  else if a = 0x100040 then ok (pageLookupOp v d)
  else if a = 0x100050 then
    let d := storeBits 0xFF01 v d a
    ok (if fld d scrubInterval = 0 then setFld d scrubInterval 1 else d)
  else if a = 0x120004 then ok (lp6AreaOp v d)
  else if a = intBase 0 then ok (intCtlWrite 0 v d)
  else if a = intBase 1 then ok (intCtlWrite 1 v d)
  else if a = 0x170018 then ok (commitWriteOp v d)
  else if a = 0x170030 then ok (dsoPrWrite v hwSet d)
  else if a = 0x171000 then ok (keepLanes 2 (dsoMaxLanes 0) (reg d a) (storeBits 0x1F v d a))
  else if a = 0x172000 then ok (keepLanes 3 (dsoMaxLanes 1) (reg d a) (storeBits 0x1F v d a))
  else if a = camBase 0 then ok (camCtlOp 0 v d)
  else if a = camBase 1 then ok (camCtlOp 1 v d)
  else if a = 0x1A0000 then ok (storeBits (if v.toNat % 4 = 3 then 0xFFF0000 else 0xFFF0003) v d a)
  else if a = 0x1B0010 then ok (fltCmdWrite nv v d)
  else if 0x1C0100 ≤ a ∧ a < 0x1C0200 then
    let r := (a - 0x1C0100) / 0x20
    (match a % 0x20 with
     | 0 => ok (if flag d (wndArm r) then d else storeBits 0x37FF v d a)
     | 4 => ok (if flag d (wndArm r) then d else storeBits 0xFFFFFFFF v d a)
     | 8 => ok (if flag d (wndArm r) then d else storeBits 0xFFFFFFFF v d a)
     | 0xC => ok (if flag d (wndArm r) then d else storeBits 0xFFFFFFFF v d a)
     | 0x10 => ok (windArmOp nv r v d)
     | _ => ok d)
  else match (List.range 8).find? (fun c => a == cxBase c + 8) with
    | some c => ok (exposureGoOp c v d)
    | none => ok (let m := storeMask nv a; if m = 0 then d else storeBits m v d a)

/-- REGISTER_WRITE. -/
def registerWriteOp (nv : NonVol) (a : Nat) (v hwSet : Word) (d : Dev) : Dev :=
  if regAddrOk a then (regWrite nv a v hwSet d).2 else d

def execRegisterWrite (addr : BitVec 40) (value hwSet : Word) (s : State) : Out :=
  onDev s (registerWriteOp s.nv addr.toNat value hwSet)

/-- RC_REGISTER_READ: the value before this cycle is returned; the field ends holding what the hardware adds in it (R12). -/
def rcReadOp (nv : NonVol) (a hwInc : Nat) (d : Dev) : Dev :=
  let d := readRowOp nv a d
  if (rcRegs nv).contains a then setReg d a (BitVec.ofNat 32 (min hwInc 0xFFFFFFFF)) else d

def execRcRegisterRead (addr : BitVec 40) (hwInc : Nat) (s : State) : Out := onDev s (rcReadOp s.nv addr.toNat hwInc)

/-- LOW_WORD_READ. -/
def execLowWordRead (addr : BitVec 40) (s : State) : Out := onDev s (readRowOp s.nv addr.toNat)

/-- GEN_PROGRESS_A_READ of pair `k`, 1 to 11. -/
def progReadOp (nv : NonVol) (k : Nat) (d : Dev) : Dev := if 1 ≤ k ∧ k ≤ 11 then readRowOp nv (progA k) d else d

def execGenProgressARead (k : Nat) (s : State) : Out := onDev s (progReadOp s.nv k)

/-- INT_HDR_IFN_READ. -/
def execIntHdrIfnRead (port : Fin 2) (s : State) : Out := onDev s (readRowOp s.nv (hdrIfn port.val))

/-- CAM_CX_LAST_CFN_READ. -/
def execCamCxLastCfnRead (ctx : Fin 8) (s : State) : Out := onDev s (readRowOp s.nv (cxLastCfn ctx.val))

end Sys2Proof.Machine
end

