-- ==== Sys2Proof/Machine/Host.lean ====
section
/-! DEFINITION. The USB device and the host protocol: enumeration, EP0, register and memory access, data transfers, completions,
events, metadata (R419 to R438, R84, R286, R443). -/

namespace Sys2Proof.Machine

/-! ## Enumeration and resets (R419, R438, R521) -/

/-- The USB device connects once LPDDR6 training is over, and in recovery. -/
def usbPresent (d : Dev) : Bool := decide (d.boot = 4 ∨ d.boot = 5)

/-- USB_LINK_CHANGE: DEGRADED at High-Speed (R438, R440). -/
def usbLinkChange (d : Dev) : Dev :=
  raise d 0x0520 2 (if fld d usbSpeed = 2 then 1 else 0) (fld d usbSpeed + 4 * fld d usbConfigured)

/-- An upper-case hex digit. -/
def hexDigit (n : Nat) : Byte := BitVec.ofNat 8 (if n < 10 then 0x30 + n else 0x37 + n)

/-- Descriptors: the integrator's USB_WORD, or those of an unfused engine; the serial number of the identity certificate. -/
def usbDesc (nv : NonVol) : UsbDesc :=
  let w := nv.usbWord.getD (0x8120 * 65536)
  let ser := (certFields (chainCert (chainOf nv) 0)).1
  { vendor := w % 65536, product := w / 65536 % 65536, bcd := 0x00A1, iface := (0xFF, 0x52, 0x01),
    serial := (List.range 24).map (fun i => hexDigit (ser / 16 ^ (23 - i) % 16)) }

/-- USB_ENUMERATION: the link trains at a speed; faster than Full-Speed the host configures the interface. -/
def enumerateOp (nv : NonVol) (speed : Nat) (d : Dev) : Dev :=
  if !usbPresent d || speed = 0 then d
  else usbLinkChange (setFlds { d with usb := { d.usb with desc := some (usbDesc nv) } } [(usbSpeed, speed), (usbConfigured, if 2 ≤ speed then 1 else 0), (usbUlink, 0)])

def execUsbEnumeration (speed : Fin 4) (s : State) : Out := onDev s (enumerateOp s.nv speed.val)

/-- A transfer whose bytes did not all arrive ends TIMEOUT under its command's rules (R286, R431). -/
def xferFail (x : Xfer) (d : Dev) : Dev :=
  match x.kind with
  | .graft => loadFail x.tag 1 stTimeout (0, 0) d
  | .seed => seedEnd stTimeout x.tag d
  | .bark => barkReject stTimeout x.tag d
  | .isp c _ => ispParamsEnd c x.tag stTimeout d
  | .firmware => progFail (complete d x.tag stTimeout []) 6
  | _ => complete d x.tag stTimeout []

/-- A bus reset, a disconnect or a change of configuration (R438). -/
def busResetOp (speed : Nat) (configured : Bool) (d : Dev) : Dev :=
  let d := (d.usb.xfers.filter (fun x => decide (x.got < x.len))).foldl (fun d x => xferFail x d) d
  let d := d.ring.held.foldl (fun d r => ringPut d r 0) d
  let d := { d with
    usb := { d.usb with tags := [], ep1in := [], reads := [], xfers := [], waits := [], deferred := [], starting := none,
                        gen := d.usb.gen + 1, ep0 := none, ep1 := [], ep2 := [], ep3 := [],
                        desc := if speed = 0 then none else d.usb.desc }
    ring := { d.ring with held := [] }
    root := { d.root with fwTag := none } }
  let d := setFlds d [(usbSpeed, speed), (usbConfigured, (configured && decide (2 ≤ speed)).toNat), (usbUlink, 0)]
  usbLinkChange (bump d aUsbResets 1)

def execUsbBusReset (speed : Fin 4) (configured : Bool) (s : State) : Out :=
  onDev s (fun d => if usbPresent d then busResetOp speed.val configured d else d)

/-! ## EP0 (R421) -/

/-- EP0 is served: the device is attached and not fenced. -/
def ep0Served (d : Dev) : Bool := usbPresent d && decide (1 ≤ fld d usbSpeed) && !fenced d 2

def ep0ReadOp (nv : NonVol) (a : Nat) (d : Dev) : Dev :=
  if !ep0Served d then d
  else if !regAddrOk a then { d with usb := { d.usb with ep0 := none } }
  else
    let r := regRead nv a d
    { r.2 with usb := { r.2.usb with ep0 := some r.1 } }

def execEp0RegisterRead (addr : BitVec 32) (s : State) : Out := onDev s (ep0ReadOp s.nv addr.toNat)

/-- A write that its register refuses STALLs and changes nothing. -/
def ep0WriteOp (nv : NonVol) (a : Nat) (v : Word) (d : Dev) : Dev :=
  if !ep0Served d then d
  else if !regAddrOk a then { d with usb := { d.usb with ep0 := none } }
  else
    let r := regWrite nv a v 0 d
    if r.1 = stOk then { r.2 with usb := { r.2.usb with ep0 := some 0 } } else { d with usb := { d.usb with ep0 := none } }

def execEp0RegisterWrite (addr value : BitVec 32) (s : State) : Out := onDev s (ep0WriteOp s.nv addr.toNat value)

/-! ## REG_READ and REG_WRITE (R423) -/

/-- Words of consecutive registers; none when one fails. -/
def readRegs (nv : NonVol) : Nat → Nat → Dev → Option (List Word) × Dev
  | _, 0, d => (some [], d)
  | a, n + 1, d =>
    if regAddrOk a then
      let r := regRead nv a d
      let rest := readRegs nv (a + 4) n r.2
      (rest.1.map (r.1 :: ·), rest.2)
    else (none, d)

def regReadOp (nv : NonVol) (a n key : Nat) (d : Dev) : Dev :=
  let r := readRegs nv a n d
  match r.1 with
  | some ws => complete r.2 key stOk (ws.flatMap (fun w => le 4 w.toNat))
  | none => complete r.2 key stBadArg []

def execRegRead (h : Hdr) (count : Nat) (s : State) : Out :=
  onDev s (request (.regRead h count) h 0 1 (decide (h.length = 4 ∧ 1 ≤ count ∧ count ≤ 256)) (regReadOp s.nv h.addr.toNat count))

/-- Consecutive registers written; the first that fails ends the message with its status. -/
def writeRegs (nv : NonVol) : Nat → List Word → Dev → Nat × Dev
  | _, [], d => (stOk, d)
  | a, w :: ws, d =>
    if regAddrOk a then
      let r := regWrite nv a w 0 d
      if r.1 = stOk then writeRegs nv (a + 4) ws r.2 else (r.1, d)
    else (stBadArg, d)

def regWriteOp (nv : NonVol) (a : Nat) (ws : List Word) (key : Nat) (d : Dev) : Dev :=
  let r := writeRegs nv a ws d
  complete r.2 key r.1 []

def execRegWrite (h : Hdr) (words : List Word) (s : State) : Out :=
  onDev s (request (.regWrite h words) h 0 2
    (decide (h.length = 4 * words.length ∧ 1 ≤ words.length ∧ words.length ≤ 256)) (regWriteOp s.nv h.addr.toNat words))

/-! ## Memory (R84, R429, R430, R443) -/

/-- BYTES of a MEM_READ or MEM_WRITE. -/
def memLenOk (n : Nat) : Bool := decide (4 ≤ n ∧ n ≤ 0x10000000) && n % 4 == 0

def inTrunk (a n : Nat) : Bool := decide (trunkBase ≤ a ∧ a + n ≤ trunkBase + 0x20000000)
/-- Below the reserve of the fitted LPDDR6 window. -/
def inLp6 (d : Dev) (a n : Nat) : Bool := flag d lp6Avail && decide (lp6Base ≤ a ∧ a + n ≤ lp6Base + lp6Capacity d / 8 * 7)
/-- The range meets the Graft area or the seed area. -/
def inLoadAreas (d : Dev) (a : Nat) : Bool := decide (a < lp6Base + 0x2000000 + fld d lp6Seed * 0x4000000)
def pagesBetween (a n : Nat) : List Nat := (partsOf (a - trunkBase) n).map (·.1)

/-- A read of the range is refused as PROTECTED now (R84, R309, R430). -/
def readHeld (d : Dev) (virt : Bool) (a n : Nat) : Bool :=
  flag d (hdcpProt 0) && (virt || (inTrunk a n && decide (trunkBase + 64 * 0x10000 < a + n)))

/-- Status that a memory access gets before any byte moves. -/
def memCheck (d : Dev) (write virt : Bool) (a n : Nat) : Nat :=
  if !memLenOk n || a % 4 ≠ 0 then stBadArg
  else if virt then
    if 2 ^ 34 < a + n || !hasGraft d then stBadArg
    else if !write && readHeld d virt a n then stProtected
    else if write && (partsOf a n).any (fun p => (tensorOf (img0 d) p.1).isNone) then stBadArg
    else stOk
  else if inTrunk a n then
    if write && (pagesBetween a n).any (fun l => decide (48 ≤ l ∧ l < 64)) then stProtected
    else if !write && readHeld d virt a n then stProtected else stOk
  else if inLp6 d a n then (if write && inLoadAreas d a then stBadArg else stOk)
  else stBadArg

def memReadOp (virt : Bool) (a n key : Nat) (d : Dev) : Dev :=
  let st := memCheck d false virt a n
  if st ≠ stOk then complete d key st []
  else { d with usb := { d.usb with reads := d.usb.reads ++ [{ tag := key, addr := a, virt, len := n, pos := 0 }] } }

def execMemRead (h : Hdr) (bytes : Nat) (s : State) : Out :=
  onDev s (request (.memRead h bytes) h 0 3 (decide (h.length = 4)) (memReadOp h.virt h.addr.toNat bytes))

def memWriteOp (virt : Bool) (a n key : Nat) (d : Dev) : Dev :=
  let st := memCheck d true virt a n
  if st ≠ stOk then complete d key st [] else announce key (.memWrite a virt) n d

def execMemWrite (h : Hdr) (bytes : Nat) (s : State) : Out :=
  onDev s (request (.memWrite h bytes) h 0 4 (decide (h.length = 4)) (memWriteOp h.virt h.addr.toNat bytes))

/-- A host's access to a page of space 0, for the pipeline that holds its tensor. -/
def hostWho (d : Dev) (v : Nat) : Who :=
  { sp := 0, pipe := match tensorOf (img0 d) v with | some t => tPipe (img0 d) t | none => 0, pfn := 0, unit := 2, task := 8192, host := true }

/-- A virtual write, part by part; false when part of it waits for a page. -/
def hostVwrite (a : Nat) (bs : Bytes) (d : Dev) : Dev × Bool :=
  let r := (partsOf a bs.length).foldl (fun acc part =>
    let (d, rest, ok) := acc
    if ok then
      let (d, ok) := writePart d (hostWho d part.1) part.1 part.2.1 (rest.take part.2.2)
      (d, rest.drop part.2.2, ok)
    else acc) (d, bs, true)
  (r.1, r.2.2)

/-- Physical bytes of the Trunk window: a fenced bank group reads zero and discards writes (Table Fault-5). -/
def physRead (d : Dev) (a n : Nat) : Bytes :=
  if inTrunk a n then
    (partsOf (a - trunkBase) n).flatMap (fun p =>
      if fenced d (0x20 + p.1 / 512) then List.replicate p.2.2 0 else readMem d (lpnAddr p.1 p.2.1) p.2.2)
  else readMem d a n

def physWrite (a : Nat) (bs : Bytes) (d : Dev) : Dev :=
  if inTrunk a bs.length then
    ((partsOf (a - trunkBase) bs.length).foldl (fun (acc : Dev × Bytes) p =>
      let d := acc.1
      (if fenced d (0x20 + p.1 / 512) then d else writeMem d (lpnAddr p.1 p.2.1) (acc.2.take p.2.2), acc.2.drop p.2.2)) (d, bs)).1
  else if lp6Base ≤ a then writeLp6 d (a - lp6Base) bs
  else writeMem d a bs

/-- Every byte of a MEM_WRITE has arrived: it completes when all of them are in place. -/
def memFinish (addr : Nat) (virt : Bool) (x : Xfer) (d : Dev) : Dev :=
  if !virt then complete (physWrite addr x.buf d) x.tag stOk []
  else if !hasGraft d then complete d x.tag stBadArg []
  else
    let r := hostVwrite addr x.buf d
    if r.2 then complete r.1 x.tag stOk [] else r.1

/-- EP2_IN_DATA_TAKEN: the host takes the next DATA message of the oldest read. A page with LOC 3 is waited for (R430, R431). `errs`: the
Trunk words that the read finds in error (R87). -/
def dataTakenOp (nv : NonVol) (errs : List MemErr) (d : Dev) : Dev :=
  match d.usb.reads with
  | [] => d
  | x :: rest =>
    let n := min 65536 (x.len - x.pos)
    let drop (d : Dev) : Dev := { d with usb := { d.usb with reads := rest } }
    if !linkUpHost d then d
    else if readHeld d x.virt x.addr x.len then complete (drop d) x.tag stProtected []
    else if x.virt && !hasGraft d then complete (drop d) x.tag stBadArg []
    else
      let read (d : Dev) : Dev × Bytes × Bool :=
        if x.virt then vread d (hostWho d ((x.addr + x.pos) / 0x10000)) (x.addr + x.pos) n else (d, physRead d (x.addr + x.pos) n, true)
      let r := read (plantTrunk errs d)
      if !r.2.2 then d
      else
        let e := trunkErrs nv errs r.1
        let last := decide (x.len ≤ x.pos + n)
        let m := rhpMessage 0x20 (if last then 4 else 0) (x.tag % 65536) x.pos 0 r.2.1
        let e := { e with usb := { e.usb with ep2 := m, reads := { x with pos := x.pos + n } :: rest } }
        usbPacket 2 (if last then complete (drop e) x.tag stOk [] else e)

def execEp2InDataTaken (errs : List MemErr) (s : State) : Out := onDev s (dataTakenOp s.nv errs)

/-! ## DATA on EP2 OUT (R431) -/

/-- Progress of a transfer (R289, R464). -/
def xferProgress (x : Xfer) (d : Dev) : Dev :=
  match x.kind with
  | .graft => progSet d 1 1 0 1 6 (1000 * x.got / max 1 x.len)
  | .seed => progAt d 3 x.got
  | .firmware => progAt d 6 x.got
  | _ => d

/-- Bytes of a Graft image reach the Graft area as they arrive (Table Graft-7, R442). -/
def xferPlace (x : Xfer) (off : Nat) (bs : Bytes) (d : Dev) : Dev :=
  match x.kind with
  | .graft => writeLp6 d (areaAddr (freeArea d) + off - lp6Base) bs
  | _ => d

/-- Bytes of a firmware image stand in their slot as they arrive (R464). -/
def xferFlash (x : Xfer) (off : Nat) (bs : Bytes) (s : State) : State :=
  match x.kind with
  | .firmware => { s with nv := spiWrite s.nv (fwSlot (updateSlot s.nv s.dev) + off) bs }
  | _ => s

/-- Every byte of a transfer has arrived. -/
def xferFinish (x : Xfer) (s : State) : State :=
  let on (f : Dev → Dev) : State := { s with dev := f s.dev }
  match x.kind with
  | .memWrite a virt => on (memFinish a virt x)
  | .graft => on (graftFinish s.nv x)
  | .seed => on (seedFinish s.nv x)
  | .layer l b off => on (fun d => complete (layerStore l b off x.buf d) x.tag stOk [])
  | .bark => on (barkFinish s.nv x)
  | .isp c off => on (ispParamsFinish c off x)
  | .firmware => fwFinish x s
  | .intControl => controlFinish x s
  | .restore op slot => restoreFinish op slot x s

def putXfer (x : Xfer) (d : Dev) : Dev :=
  { d with usb := { d.usb with xfers := d.usb.xfers.map (fun y => if y.tag == x.tag then x else y) } }

/-- Transfers of which some bytes have come and some are to come. -/
def openXfers (d : Dev) : List Xfer := d.usb.xfers.filter (fun x => decide (0 < x.got ∧ x.got < x.len))

/-- A DATA message on EP2 OUT. Of a request not yet started, or of a fifth transfer, it waits behind NRDY. -/
def dataOp (h : Hdr) (last : Bool) (bs : Bytes) (s : State) : State :=
  let d := s.dev
  let key := tagKey d h.tag
  let orphan (d : Dev) : State := { s with dev := bump d aOrphan 1 }
  if !linkUpHost d then s
  else if !(h.zerosOk && decide (h.length = bs.length ∧ 1 ≤ bs.length ∧ bs.length ≤ 65536)) then orphan d
  else if d.usb.tags.any (fun t => t.tag == key && t.waiting) then s
  else match d.usb.xfers.find? (fun x => x.tag == key) with
    | none => orphan d
    | some x =>
      if x.lost || x.got == x.len then orphan d
      else if x.got ≠ h.addr.toNat || x.len < x.got + bs.length then orphan (putXfer { x with lost := true } d)
      else if x.got = 0 && decide (4 ≤ (openXfers d).length) then s
      else
        let y := { x with got := x.got + bs.length, buf := x.buf ++ bs, lost := last && decide (x.got + bs.length < x.len) }
        let d := xferProgress y (xferPlace x x.got bs (putXfer y d))
        let s := xferFlash y x.got bs { s with dev := d }
        if y.got = y.len then xferFinish y s else s

def execData (h : Hdr) (last : Bool) (payload : Bytes) (s : State) : Out :=
  if h.endpoint = 2 then .next (if alive s.dev then dataOp h last payload s else s)
  else onDev s (request (.data h last payload) h 0 0x20 false (fun _ d => d))

/-- LENGTH_TIMEOUT: 10 s have passed since the announcement and bytes are missing (R286). -/
def lengthTimeoutOp (tag : BitVec 16) (d : Dev) : Dev :=
  match d.usb.xfers.find? (fun x => x.tag == tagKey d tag) with
  | none => d
  | some x => if x.got < x.len && decide (x.t0 + 10000000000 ≤ d.devTime.toNat) then xferFail x d else d

def execLengthTimeout (tag : BitVec 16) (s : State) : Out := onDev s (lengthTimeoutOp tag)

/-! ## Completions and events (R424, R436, R463) -/

/-- COMPLETION_TAKEN: the tag is free again. In recovery the completion of a good FW_UPDATE lets the Boot ROM reset the engine. -/
def completionTakenOp (d : Dev) : Dev :=
  match d.usb.ep1in with
  | [] => d
  | c :: rest =>
    if !linkUpHost d then d
    else
      let d := { d with usb := { d.usb with ep1 := c.bytes } }
      let key := d.usb.gen * 65536 + c.tag
      if d.root.fwTag = some key then { Dev.reset with held := d.held }
      else usbPacket 1 { d with usb := { d.usb with ep1in := rest, tags := d.usb.tags.filter (fun t => t.tag != key || !t.done) } }

def execCompletionTaken (s : State) : Out := onDev s completionTakenOp

/-- EVENT_MESSAGE_SEND: up to 63 records, oldest first; then EVENTS_LOST when it is owed and two places are free. -/
def eventSendOp (d : Dev) : Dev :=
  if !linkUpHost d || d.usb.evq.isEmpty then d
  else
    let m := rhpMessage 0x31 0 0 0 0 ((d.usb.evq.take 63).flatMap EventRec.bytes)
    let d := usbPacket 3 { d with usb := { d.usb with ep3 := m, evq := d.usb.evq.drop 63 } }
    if d.usb.evDrop && decide (d.usb.evq.length ≤ 254) then
      let n := d.usb.evSince
      raise { d with usb := { d.usb with evDrop := false, evSince := 0 } } 0x0521 2 1 n
    else d

def execEventMessageSend (s : State) : Out := onDev s eventSendOp

/-! ## METADATA (R433, R434) -/

/-- A metadata tensor of the Graft in force. -/
def metaTensor (b : Bytes) (t : Nat) : Bool :=
  decide (t < nTensors b) && tFmt b t == 3 && tC b t == 1 && tW b t == 4096 && tH b t == 1 && decide (2 ≤ tSlots b t ∧ tSlots b t ≤ 15) &&
  tClass b t == 0 && tReaders b t == 0 && (!gHas b 0xB || gvNocanvas b t) && !written b t

/-- The 4,096 bytes of a slot (Table Host-6). -/
def metaSlot (ifn : Word) (port : Nat) (items : Bytes) (t : Nat) : Bytes :=
  let l := le 4 ifn.toNat ++ le 1 port ++ le 1 0 ++ le 2 items.length ++ le 8 t ++ List.replicate 48 0 ++ items
  l ++ List.replicate (4096 - l.length) 0

def metadataOp (ifn : Word) (port t ring : Nat) (items : Bytes) (key : Nat) (d : Dev) : Dev :=
  let b := img0 d
  let host := match ringDecl b ring with | some e => e.host | none => false
  if !(hasGraft d && decide (port ≤ 1) && metaTensor b t && host) then complete d key stBadArg []
  else
    let f := ringVal d ring % tSlots b t
    let d := (vwrite d (hwWho d t) (tAddr b t f 0 0 0) (metaSlot ifn port items d.devTime.toNat)).1
    complete (ringInc d ring 1) key stOk []

def execMetadata (h : Hdr) (ifn : Word) (port tensor : Nat) (ring : BitVec 16) (items : Bytes) (s : State) : Out :=
  onDev s (request (.metadata h ifn port tensor ring items) h 0 0x18 (decide (h.length = 16 + items.length ∧ items.length ≤ 4032))
    (metadataOp ifn port tensor ring.toNat items))

end Sys2Proof.Machine
end

