-- ==== Sys2Proof/Machine/Dispatch.lean ====
section
/-! DEFINITION. The meaning of every command: one arm for each constructor. -/

namespace Sys2Proof.Machine

def exec (i : Instr) (s : State) : Host.Outcome State Fault Refusal :=
  match i with
  -- register access
  | .registerWrite addr value hwSet => Sys2Proof.Machine.execRegisterWrite addr value hwSet s
  | .rcRegisterRead addr hwInc => Sys2Proof.Machine.execRcRegisterRead addr hwInc s
  | .lowWordRead addr => Sys2Proof.Machine.execLowWordRead addr s
  | .genProgressARead k => Sys2Proof.Machine.execGenProgressARead k s
  | .intHdrIfnRead port => Sys2Proof.Machine.execIntHdrIfnRead port s
  | .camCxLastCfnRead ctx => Sys2Proof.Machine.execCamCxLastCfnRead ctx s
  -- reset and start-up
  | .resetAssert => Sys2Proof.Machine.execResetAssert s
  | .resetRelease => Sys2Proof.Machine.execResetRelease s
  | .pllLock => Sys2Proof.Machine.execPllLock s
  | .firmwareStarted => Sys2Proof.Machine.execFirmwareStarted s
  | .trunkSelfTestDone failed => Sys2Proof.Machine.execTrunkSelfTestDone failed s
  | .lp6TrainingDone rate density failed => Sys2Proof.Machine.execLp6TrainingDone rate density failed s
  | .usbEnumeration speed => Sys2Proof.Machine.execUsbEnumeration speed s
  | .usbBusReset speed configured => Sys2Proof.Machine.execUsbBusReset speed configured s
  -- host protocol
  | .ep0RegisterRead addr => Sys2Proof.Machine.execEp0RegisterRead addr s
  | .ep0RegisterWrite addr value => Sys2Proof.Machine.execEp0RegisterWrite addr value s
  | .regRead h count => Sys2Proof.Machine.execRegRead h count s
  | .regWrite h words => Sys2Proof.Machine.execRegWrite h words s
  | .memRead h bytes => Sys2Proof.Machine.execMemRead h bytes s
  | .memWrite h bytes => Sys2Proof.Machine.execMemWrite h bytes s
  | .data h last payload => Sys2Proof.Machine.execData h last payload s
  | .completionTaken => Sys2Proof.Machine.execCompletionTaken s
  | .eventMessageSend => Sys2Proof.Machine.execEventMessageSend s
  | .lengthTimeout tag => Sys2Proof.Machine.execLengthTimeout tag s
  | .ringAdd h ring amount => Sys2Proof.Machine.execRingAdd h ring amount s
  | .ringSet h ring value => Sys2Proof.Machine.execRingSet h ring value s
  | .ringWait h ring target timeoutMs => Sys2Proof.Machine.execRingWait h ring target timeoutMs s
  | .ringWaitMet tag => Sys2Proof.Machine.execRingWaitMet tag s
  | .ringWaitTimeout tag => Sys2Proof.Machine.execRingWaitTimeout tag s
  | .ringAlloc h => Sys2Proof.Machine.execRingAlloc h s
  | .ringFree h ring => Sys2Proof.Machine.execRingFree h ring s
  | .ringAddRegisterWrite value => Sys2Proof.Machine.execRingAddRegisterWrite value s
  | .ringSetRegisterWrite value => Sys2Proof.Machine.execRingSetRegisterWrite value s
  | .metadata h ifn port tensor ring items => Sys2Proof.Machine.execMetadata h ifn port tensor ring items s
  -- Graft
  | .graftLoad h len => Sys2Proof.Machine.execGraftLoad h len s
  | .graftApply h k flags => Sys2Proof.Machine.execGraftApply h k flags s
  | .graftPreparationDone => Sys2Proof.Machine.execGraftPreparationDone s
  | .graftAbort h => Sys2Proof.Machine.execGraftAbort h s
  | .graftUnload h k flags => Sys2Proof.Machine.execGraftUnload h k flags s
  | .graftReleaseDeadline => Sys2Proof.Machine.execGraftReleaseDeadline s
  | .readmit h pipe => Sys2Proof.Machine.execReadmit h pipe s
  | .seedStage h len => Sys2Proof.Machine.execSeedStage h len s
  | .seedDrop h hash => Sys2Proof.Machine.execSeedDrop h hash s
  | .histInvalidate h tensor => Sys2Proof.Machine.execHistInvalidate h tensor s
  | .stemHistInvWrite value => Sys2Proof.Machine.execStemHistInvWrite value s
  -- layers and objects
  | .layerFlip h mask ring value timeout => Sys2Proof.Machine.execLayerFlip h mask ring value timeout s
  | .layerWrite h layer buffer offset len => Sys2Proof.Machine.execLayerWrite h layer buffer offset len s
  | .wbStart h point fmt count => Sys2Proof.Machine.execWbStart h point fmt count s
  | .wbStop h => Sys2Proof.Machine.execWbStop h s
  | .barkCommand h len => Sys2Proof.Machine.execBarkCommand h len s
  | .ispParams h ctx offset len => Sys2Proof.Machine.execIspParams h ctx offset len s
  | .attest h nonce => Sys2Proof.Machine.execAttest h nonce s
  | .certRead h index => Sys2Proof.Machine.execCertRead h index s
  | .fwUpdate h len => Sys2Proof.Machine.execFwUpdate h len s
  | .intControl h len => Sys2Proof.Machine.execIntControl h len s
  | .provision h op slot bytes => Sys2Proof.Machine.execProvision h op slot bytes s
  | .restore h op slot len => Sys2Proof.Machine.execRestore h op slot len s
  -- raster
  | .outputFrameStart => Sys2Proof.Machine.execOutputFrameStart s
  | .cadenceInputTimeout => Sys2Proof.Machine.execCadenceInputTimeout s
  | .understoryLineProduce parity => Sys2Proof.Machine.execUnderstoryLineProduce parity s
  | .tileRowJudge k => Sys2Proof.Machine.execTileRowJudge k s
  | .segmentAck index => Sys2Proof.Machine.execSegmentAck index s
  | .canopyLineCompose errs => Sys2Proof.Machine.execCanopyLineCompose errs s
  | .lineScanned => Sys2Proof.Machine.execLineScanned s
  | .lineMatch => Sys2Proof.Machine.execLineMatch s
  | .startOfBlanking => Sys2Proof.Machine.execStartOfBlanking s
  | .flipGroupTimeout tag => Sys2Proof.Machine.execFlipGroupTimeout tag s
  | .flattenBuildStart group => Sys2Proof.Machine.execFlattenBuildStart group s
  | .flattenBuilt group => Sys2Proof.Machine.execFlattenBuilt group s
  | .dsoCommitWrite value => Sys2Proof.Machine.execDsoCommitWrite value s
  | .panelReplayRequest => Sys2Proof.Machine.execPanelReplayRequest s
  | .panelReplayExitRequest => Sys2Proof.Machine.execPanelReplayExitRequest s
  | .sinkReplayExitRequest => Sys2Proof.Machine.execSinkReplayExitRequest s
  | .dsoLinkChange port up => Sys2Proof.Machine.execDsoLinkChange port up s
  | .dsoLinkTraining port rate lanes hpd fec replayCap failed => Sys2Proof.Machine.execDsoLinkTraining port rate lanes hpd fec replayCap failed s
  -- intake
  | .intakeLinkTraining port rate lanes fec dsc failed => Sys2Proof.Machine.execIntakeLinkTraining port rate lanes fec dsc failed s
  | .hdcpAuthentication port state type1 => Sys2Proof.Machine.execHdcpAuthentication port state type1 s
  | .intakeFrameStart port video => Sys2Proof.Machine.execIntakeFrameStart port video s
  | .sdpReceived port packet => Sys2Proof.Machine.execSdpReceived port packet s
  | .intakeLineReceived port samples encrypted => Sys2Proof.Machine.execIntakeLineReceived port samples encrypted s
  | .intakeLineWritten port => Sys2Proof.Machine.execIntakeLineWritten port s
  | .intakeFrameEnd port => Sys2Proof.Machine.execIntakeFrameEnd port s
  | .sourceChange port classes => Sys2Proof.Machine.execSourceChange port classes s
  | .splitPairTimeout port => Sys2Proof.Machine.execSplitPairTimeout port s
  | .uiFrameComplete => Sys2Proof.Machine.execUiFrameComplete s
  -- scheduling
  | .taskReady task pfn parity => Sys2Proof.Machine.execTaskReady task pfn parity s
  | .tileBoundary branch => Sys2Proof.Machine.execTileBoundary branch s
  | .sliceQuantumExpire branch => Sys2Proof.Machine.execSliceQuantumExpire branch s
  | .sliceHandover branch => Sys2Proof.Machine.execSliceHandover branch s
  | .taskComplete task pfn => Sys2Proof.Machine.execTaskComplete task pfn s
  | .taskLimitTimeout task pfn => Sys2Proof.Machine.execTaskLimitTimeout task pfn s
  -- tile instructions
  | .tload branch errs => Sys2Proof.Machine.execTload branch errs s
  | .pageRelease task pfn vpn => Sys2Proof.Machine.execPageRelease task pfn vpn s
  | .tmac branch errs => Sys2Proof.Machine.execTmac branch errs s
  | .twino branch errs => Sys2Proof.Machine.execTwino branch errs s
  | .tdiag branch errs => Sys2Proof.Machine.execTdiag branch errs s
  | .tileDrain branch badEntries badSpare mismatch => Sys2Proof.Machine.execTileDrain branch badEntries badSpare mismatch s
  | .auditArm branch => Sys2Proof.Machine.execAuditArm branch s
  | .tpool branch errs => Sys2Proof.Machine.execTpool branch errs s
  | .tact branch errs => Sys2Proof.Machine.execTact branch errs s
  | .treq branch errs => Sys2Proof.Machine.execTreq branch errs s
  | .tstat branch errs => Sys2Proof.Machine.execTstat branch errs s
  | .maximumTreeDone ostep cell pfn => Sys2Proof.Machine.execMaximumTreeDone ostep cell pfn s
  | .tconv branch errs => Sys2Proof.Machine.execTconv branch errs s
  | .twarp branch errs => Sys2Proof.Machine.execTwarp branch errs s
  | .thalo branch errs => Sys2Proof.Machine.execThalo branch errs s
  | .haloLineLanded branch => Sys2Proof.Machine.execHaloLineLanded branch s
  | .tmcast branch => Sys2Proof.Machine.execTmcast branch s
  | .multicastFetch tree errs => Sys2Proof.Machine.execMulticastFetch tree errs s
  | .tbox branch errs => Sys2Proof.Machine.execTbox branch errs s
  | .tnms branch errs => Sys2Proof.Machine.execTnms branch errs s
  | .tstore branch errs => Sys2Proof.Machine.execTstore branch errs s
  | .tsig branch => Sys2Proof.Machine.execTsig branch s
  | .tsigLand branch => Sys2Proof.Machine.execTsigLand branch s
  | .twait branch => Sys2Proof.Machine.execTwait branch s
  | .twaitMet branch => Sys2Proof.Machine.execTwaitMet branch s
  -- Trunk
  | .evictionWriteDone space vpn => Sys2Proof.Machine.execEvictionWriteDone space vpn s
  | .pageFetchDone space vpn => Sys2Proof.Machine.execPageFetchDone space vpn s
  | .trunkStallTimeout task pfn => Sys2Proof.Machine.execTrunkStallTimeout task pfn s
  | .stampTick => Sys2Proof.Machine.execStampTick s
  | .trkBooksSnap value => Sys2Proof.Machine.execTrkBooksSnap value s
  | .trkPageLookup value => Sys2Proof.Machine.execTrkPageLookup value s
  | .scrubPassStart => Sys2Proof.Machine.execScrubPassStart s
  | .scrubLine correctable uncorrectable => Sys2Proof.Machine.execScrubLine correctable uncorrectable s
  | .bankPageCopied uncorrectable => Sys2Proof.Machine.execBankPageCopied uncorrectable s
  -- LPDDR6
  | .lp6ReadDone offset outcome linkError => Sys2Proof.Machine.execLp6ReadDone offset outcome linkError s
  | .lp6Refresh channel tempClass => Sys2Proof.Machine.execLp6Refresh channel tempClass s
  | .lp6GranuleCopied words => Sys2Proof.Machine.execLp6GranuleCopied words s
  | .lp6AreaWrite value => Sys2Proof.Machine.execLp6AreaWrite value s
  -- cameras
  | .camFrameStart port => Sys2Proof.Machine.execCamFrameStart port s
  | .camLineLanded port samples checkWord => Sys2Proof.Machine.execCamLineLanded port samples checkWord s
  | .camFrameEnd port => Sys2Proof.Machine.execCamFrameEnd port s
  | .camPclkMeasure port khz => Sys2Proof.Machine.execCamPclkMeasure port khz s
  | .camCtlWrite port value => Sys2Proof.Machine.execCamCtlWrite port value s
  | .ispFrameEnter => Sys2Proof.Machine.execIspFrameEnter s
  | .ispLineProcessed parity => Sys2Proof.Machine.execIspLineProcessed parity s
  | .ispFrameComplete => Sys2Proof.Machine.execIspFrameComplete s
  | .exposureGo ctx value => Sys2Proof.Machine.execExposureGo ctx value s
  | .i2cExposureDone bus => Sys2Proof.Machine.execI2cExposureDone bus s
  | .camI2cNak bus entry byte => Sys2Proof.Machine.execCamI2cNak bus entry byte s
  -- Grove
  | .fsyncOutPulse => Sys2Proof.Machine.execFsyncOutPulse s
  | .fsyncInEdge => Sys2Proof.Machine.execFsyncInEdge s
  | .fsyncTimeout => Sys2Proof.Machine.execFsyncTimeout s
  | .timeCodeReceived code => Sys2Proof.Machine.execTimeCodeReceived code s
  | .groveTupleChanged => Sys2Proof.Machine.execGroveTupleChanged s
  -- power, pins
  | .powerWindow p tj symbolErrors => Sys2Proof.Machine.execPowerWindow p tj symbolErrors s
  | .clkCapWrite value => Sys2Proof.Machine.execClkCapWrite value s
  | .jtagExtest entered => Sys2Proof.Machine.execJtagExtest entered s
  -- faults
  | .bucketLeak bucket => Sys2Proof.Machine.execBucketLeak bucket s
  | .retirementStart kind => Sys2Proof.Machine.execRetirementStart kind s
  | .flitReceived link seq crc payload => Sys2Proof.Machine.execFlitReceived link seq crc payload s
  | .flitAckTimeout link => Sys2Proof.Machine.execFlitAckTimeout link s
  | .flitResend link => Sys2Proof.Machine.execFlitResend link s
  | .fence unit => Sys2Proof.Machine.execFence unit s
  | .unfence unit => Sys2Proof.Machine.execUnfence unit s
  | .retire unit sub twig => Sys2Proof.Machine.execRetire unit sub twig s
  | .windRuleArm rule value => Sys2Proof.Machine.execWindRuleArm rule value s
  -- ends of transfers
  | .ep2InDataTaken errs => Sys2Proof.Machine.execEp2InDataTaken errs s
  | .attestReportSigned => Sys2Proof.Machine.execAttestReportSigned s
  | .writebackLineWritten => Sys2Proof.Machine.execWritebackLineWritten s
  | .testEnChange level => Sys2Proof.Machine.execTestEnChange level s

end Sys2Proof.Machine
end

