-- ==== Sys2Proof/Machine/Tick.lean ====
section
/-! DEFINITION. What a CCLK cycle does with no command waiting: DEV_TIME, the scan through blanking, requests held back, writes that
wait for a page, staging requests (R79, R403, R425, R426, R430, R509; DESIGN CHOICE, log entry 1). -/

namespace Sys2Proof.Machine

/-- DEV_TIME adds 4 ns; a follower that corrects adds 0 or 8 until the two clocks agree within 4 ns (R403, R509). -/
def timeTick (d : Dev) : Dev :=
  let a := d.grv.adj
  let step (n : Nat) (a : Int) : Dev := { d with devTime := d.devTime + BitVec.ofNat 64 n, grv := { d.grv with adj := a } }
  if isFollower d && decide (4 < a) then step 8 (a - 4)
  else if isFollower d && decide (a < -4) then step 0 (a + 4)
  else step 4 a

/-- The scan moves on through the lines of blanking: 4 ns of the line period in units of 10^-12 line (R33, R342). -/
def blankTick (d : Dev) : Dev :=
  if d.ras.running && d.ras.blank && decide (pos d + 1 < d.ras.vtotal) then
    let p := d.ras.phase + 4 * (lpNs d).2
    let d := { d with ras := { d.ras with phase := p % 1000000000000 } }
    if 1000000000000 ≤ p then setFld { d with ras := { d.ras with lmDone := false } } dsoPos (pos d + 1) else d
  else d

/-- Host writes whose bytes have all arrived and that wait for a page (R430). -/
def retryWrites (d : Dev) : Dev :=
  (d.usb.xfers.filter (fun x => x.got == x.len)).foldl (fun d x =>
    match x.kind with
    | .memWrite a virt => memFinish a virt x d
    | _ => d) d

/-- The header of a request. -/
def hdrOf (i : Instr) : Option Hdr :=
  match i with
  | .regRead h _ => some h
  | .regWrite h _ => some h
  | .memRead h _ => some h
  | .memWrite h _ => some h
  | .ringAdd h _ _ => some h
  | .ringSet h _ _ => some h
  | .ringWait h _ _ _ => some h
  | .ringAlloc h => some h
  | .ringFree h _ => some h
  | .metadata h _ _ _ _ _ => some h
  | .graftLoad h _ => some h
  | .graftApply h _ _ => some h
  | .graftAbort h => some h
  | .graftUnload h _ _ => some h
  | .readmit h _ => some h
  | .seedStage h _ => some h
  | .seedDrop h _ => some h
  | .histInvalidate h _ => some h
  | .layerFlip h _ _ _ _ => some h
  | .layerWrite h _ _ _ _ => some h
  | .wbStart h _ _ _ => some h
  | .wbStop h => some h
  | .barkCommand h _ => some h
  | .ispParams h _ _ _ => some h
  | .attest h _ => some h
  | .certRead h _ => some h
  | .fwUpdate h _ => some h
  | .intControl h _ => some h
  | .provision h _ _ _ => some h
  | .restore h _ _ _ => some h
  | _ => none

/-- Nothing holds a deferred request back any more (R425, R426). -/
def mayStart (d : Dev) (i : Instr) : Bool :=
  match hdrOf i with
  | none => false
  | some h =>
    let key := tagKey d h.tag
    match d.usb.tags.find? (fun t => t.tag == key) with
    | none => false
    | some t => t.waiting && !mustWait (d.usb.tags.takeWhile (fun x => x.tag != key)) t.kind h.ordered

/-- The oldest request that may start does so next. -/
def startDeferred (s : State) : State :=
  match s.dev.usb.starting, s.dev.usb.deferred.find? (mayStart s.dev) with
  | none, some i =>
    match hdrOf i with
    | some h => { s with
        dev := { s.dev with usb := { s.dev.usb with starting := some (tagKey s.dev h.tag), deferred := s.dev.usb.deferred.erase i } }
        pending := s.pending ++ [i] }
    | none => s
  | _, _ => s

/-- Frames of free-running pipelines that ran nothing close, and the frames after them open (R245, R252). -/
def closeIdle (nv : NonVol) (d : Dev) : Dev :=
  if d.stem.frames.any (fun f => f.tasks.all (fun t => t.state == 3)) then closeFrames nv d else d

/-- One CCLK cycle; with no clock running nothing happens. -/
def tick (s : State) : State :=
  if alive s.dev then startDeferred { s with dev := serveStaging (askAll (closeIdle s.nv (retryWrites (blankTick (timeTick s.dev))))) } else s

end Sys2Proof.Machine
end

