-- ==== Sys2Proof/Safety.lean ====
section
/-! DEFINITION. The terms in which claims speak of the whole block: its parts, what an operation leaves alone, the invariant of every
state, and what only grows. -/

namespace Sys2Proof.Machine

/-- The parts of the volatile state. -/
inductive Part where
  | regs | live | hold | devTime | held | boot | clk | usb | ring | root | stem | trk | mem | ras | cnp | inp | cam | flt | br
  | cells | grv | free
  deriving DecidableEq, Repr

/-- Two devices agree in a part. -/
def Part.same : Part → Dev → Dev → Prop
  | .regs, d, e => e.regs = d.regs
  | .live, d, e => e.live = d.live
  | .hold, d, e => e.hold = d.hold
  | .devTime, d, e => e.devTime = d.devTime
  | .held, d, e => e.held = d.held
  | .boot, d, e => e.boot = d.boot
  | .clk, d, e => e.clk = d.clk
  | .usb, d, e => e.usb = d.usb
  | .ring, d, e => e.ring = d.ring
  | .root, d, e => e.root = d.root
  | .stem, d, e => e.stem = d.stem
  | .trk, d, e => e.trk = d.trk
  | .mem, d, e => e.mem = d.mem
  | .ras, d, e => e.ras = d.ras
  | .cnp, d, e => e.cnp = d.cnp
  | .inp, d, e => e.inp = d.inp
  | .cam, d, e => e.cam = d.cam
  | .flt, d, e => e.flt = d.flt
  | .br, d, e => e.br = d.br
  | .cells, d, e => e.cells = d.cells
  | .grv, d, e => e.grv = d.grv
  | .free, d, e => e.free = d.free

/-- `e` is `d` but for the parts listed. -/
def Only (l : List Part) (d e : Dev) : Prop := ∀ p, p ∉ l → p.same d e

/-- Every part. -/
def Part.all : List Part :=
  [.regs, .live, .hold, .devTime, .held, .boot, .clk, .usb, .ring, .root, .stem, .trk, .mem, .ras, .cnp, .inp, .cam, .flt, .br,
   .cells, .grv, .free]

/-- Everything that units at work change: all but the holding copies, the clock's count, what holds the engine in reset, the
start-up step, the Grove wiring and the free values. -/
def Part.engine : List Part :=
  [.regs, .live, .clk, .usb, .ring, .root, .stem, .trk, .mem, .ras, .cnp, .inp, .cam, .flt, .br, .cells]

/-- The parts that a command of each row may change. One that meets an error may start a retirement, which reaches into every unit. -/
def touches : Instr → List Part
  | .registerWrite _ _ _ => Part.engine
  | .rcRegisterRead _ _ => [.regs, .hold, .usb]
  | .lowWordRead _ => [.regs, .hold, .usb]
  | .genProgressARead _ => [.regs, .hold, .usb]
  | .intHdrIfnRead _ => [.regs, .hold, .usb]
  | .camCxLastCfnRead _ => [.regs, .hold, .usb]
  | .resetAssert => Part.all
  | .resetRelease => Part.all
  | .pllLock => [.regs, .live, .devTime, .boot, .clk]
  | .firmwareStarted => [.regs, .boot, .usb, .root, .stem]
  | .trunkSelfTestDone _ => [.regs, .live, .boot, .clk, .usb, .ring, .root, .stem, .trk, .mem, .ras, .cnp, .inp, .cam, .flt, .br, .cells]
  | .lp6TrainingDone _ _ _ => [.regs, .boot, .usb, .root, .stem, .flt]
  | .usbEnumeration _ => [.regs, .usb, .root, .stem]
  | .usbBusReset _ _ => [.regs, .usb, .ring, .root, .stem, .cam]
  | .ep0RegisterRead _ => [.regs, .hold, .usb]
  | .ep0RegisterWrite _ _ => Part.engine
  | .regRead _ _ => [.regs, .hold, .usb, .root, .stem]
  | .regWrite _ _ => Part.engine
  | .memRead _ _ => [.regs, .usb, .root, .stem]
  | .memWrite _ _ => [.regs, .usb, .root, .stem]
  | .data _ _ _ => [.regs, .usb, .root, .stem, .trk, .mem, .ras, .cnp, .cam]
  | .completionTaken => Part.all
  | .eventMessageSend => [.regs, .usb, .root, .stem, .flt]
  | .lengthTimeout _ => [.regs, .usb, .root, .stem, .cam]
  | .ringAdd _ _ _ => [.regs, .usb, .ring, .root, .stem]
  | .ringSet _ _ _ => [.regs, .usb, .ring, .root, .stem]
  | .ringWait _ _ _ _ => [.regs, .usb, .root, .stem]
  | .ringWaitMet _ => [.usb]
  | .ringWaitTimeout _ => [.usb]
  | .ringAlloc _ => [.regs, .usb, .ring, .root, .stem]
  | .ringFree _ _ => [.regs, .usb, .ring, .root, .stem]
  | .ringAddRegisterWrite _ => [.ring]
  | .ringSetRegisterWrite _ => [.ring]
  | .metadata _ _ _ _ _ _ => [.regs, .usb, .ring, .root, .stem, .trk, .mem]
  | .graftLoad _ _ => [.regs, .usb, .root, .stem]
  | .graftApply _ _ _ => [.regs, .usb, .root, .stem, .trk, .ras]
  | .graftPreparationDone => [.regs, .root, .trk, .mem]
  | .graftAbort _ => [.regs, .usb, .ring, .root, .stem, .trk, .cam, .flt]
  | .graftUnload _ _ _ => [.regs, .usb, .root, .stem, .ras]
  | .graftReleaseDeadline => [.regs, .usb, .ring, .root, .stem, .trk, .mem, .cam, .flt, .br, .cells]
  | .readmit _ _ => [.regs, .usb, .root, .stem]
  | .seedStage _ _ => [.regs, .usb, .root, .stem]
  | .seedDrop _ _ => [.regs, .usb, .root, .stem]
  | .histInvalidate _ _ => [.regs, .usb, .ring, .root, .stem, .trk, .mem]
  | .stemHistInvWrite _ => [.regs, .usb, .ring, .root, .stem, .trk, .mem]
  | .layerFlip _ _ _ _ _ => [.regs, .usb, .root, .stem, .ras, .cnp]
  | .layerWrite _ _ _ _ _ => [.regs, .usb, .root, .stem, .ras]
  | .wbStart _ _ _ _ => [.regs, .usb, .root, .stem, .cnp]
  | .wbStop _ => [.regs, .usb, .root, .stem, .cnp]
  | .barkCommand _ _ => [.regs, .usb, .root, .stem]
  | .ispParams _ _ _ _ => [.regs, .usb, .root, .stem, .cam]
  | .attest _ _ => [.regs, .usb, .root, .stem]
  | .certRead _ _ => [.regs, .usb, .root, .stem]
  | .fwUpdate _ _ => [.regs, .usb, .root, .stem]
  | .intControl _ _ => [.regs, .usb, .root, .stem]
  | .provision _ _ _ _ => [.regs, .usb, .root, .stem]
  | .restore _ _ _ _ => [.regs, .usb, .root, .stem]
  | .outputFrameStart => [.regs, .live, .devTime, .clk, .usb, .ring, .root, .stem, .trk, .mem, .ras, .inp, .cam, .flt, .br, .cells, .grv]
  | .cadenceInputTimeout => [.regs, .clk, .usb, .root, .stem]
  | .understoryLineProduce parity => if parity.isEmpty then [.regs, .ring, .trk, .mem, .ras] else Part.engine
  | .tileRowJudge _ => [.regs, .usb, .root, .stem, .mem, .ras]
  | .segmentAck _ => [.regs, .trk, .mem, .ras]
  | .canopyLineCompose errs => if errs.isEmpty then [.regs, .usb, .ring, .root, .stem, .trk, .ras, .cnp] else Part.engine
  | .lineScanned => [.regs, .ring, .ras]
  | .lineMatch => [.root, .stem, .ras]
  | .startOfBlanking => [.regs, .live, .usb, .ring, .root, .stem, .trk, .mem, .ras, .cnp, .inp, .flt]
  | .flipGroupTimeout _ => [.regs, .usb, .root, .stem, .cnp]
  | .flattenBuildStart _ => [.regs, .root, .cnp]
  | .flattenBuilt _ => [.regs, .usb, .root, .stem, .mem]
  | .dsoCommitWrite _ => [.regs, .usb, .root, .stem, .ras]
  | .panelReplayRequest => [.regs, .usb, .root, .stem]
  | .panelReplayExitRequest => [.regs, .usb, .root, .stem, .ras]
  | .sinkReplayExitRequest => [.regs, .usb, .root, .stem, .ras]
  | .dsoLinkChange _ _ => [.regs, .usb, .root, .stem, .ras]
  | .dsoLinkTraining _ _ _ _ _ _ failed => if failed.isNone then [.regs, .usb, .root, .stem, .ras] else Part.engine
  | .intakeLinkTraining _ _ _ _ _ failed => if failed.isNone then [.regs] else Part.engine
  | .hdcpAuthentication _ _ _ => [.regs, .usb, .root, .stem]
  | .intakeFrameStart _ _ => [.regs, .clk, .usb, .ring, .root, .stem, .trk, .mem, .ras, .cnp, .inp, .br]
  | .sdpReceived _ _ => [.inp]
  | .intakeLineReceived _ _ _ => [.regs, .usb, .ring, .root, .stem, .trk, .cnp, .inp]
  | .intakeLineWritten _ => [.regs, .ring, .trk, .mem, .inp]
  | .intakeFrameEnd _ => [.regs, .usb, .ring, .root, .stem, .trk, .inp]
  | .sourceChange _ _ => [.regs, .clk, .usb, .ring, .root, .stem, .trk, .mem, .inp]
  | .splitPairTimeout _ => [.regs, .usb, .root, .stem, .inp]
  | .uiFrameComplete => [.regs, .usb, .root, .stem, .cnp]
  | .taskReady _ _ parity => if parity.isEmpty then [.regs, .usb, .ring, .root, .stem, .trk, .mem, .ras, .cam, .flt, .br, .cells] else Part.engine
  | .tileBoundary _ => [.regs, .stem, .trk, .br]
  | .sliceQuantumExpire _ => [.br]
  | .sliceHandover _ => [.regs, .stem, .br]
  | .taskComplete _ _ => [.regs, .usb, .ring, .root, .stem, .trk, .mem, .cam, .flt, .br, .cells]
  | .taskLimitTimeout _ _ => [.regs, .usb, .ring, .root, .stem, .trk, .mem, .cam, .flt, .br, .cells]
  | .tload _ errs => if errs.isEmpty then [.regs, .usb, .root, .stem, .trk, .mem, .br, .cells] else Part.engine
  | .pageRelease _ _ _ => [.regs, .ring, .stem, .trk]
  | .tmac _ errs => if errs.isEmpty then [.regs, .usb, .root, .stem, .trk, .mem, .br, .cells] else Part.engine
  | .twino _ errs => if errs.isEmpty then [.regs, .usb, .root, .stem, .trk, .mem, .br, .cells] else Part.engine
  | .tdiag _ errs => if errs.isEmpty then [.regs, .usb, .root, .stem, .trk, .mem, .br, .cells] else Part.engine
  | .tileDrain _ _ _ _ => Part.engine
  | .auditArm _ => [.regs, .br]
  | .tpool _ errs => if errs.isEmpty then [.regs, .usb, .root, .stem, .trk, .mem, .br, .cells] else Part.engine
  | .tact _ errs => if errs.isEmpty then [.regs, .usb, .root, .stem, .trk, .mem, .br, .cells] else Part.engine
  | .treq _ errs => if errs.isEmpty then [.regs, .usb, .root, .stem, .trk, .mem, .br, .cells] else Part.engine
  | .tstat _ errs => if errs.isEmpty then [.regs, .usb, .root, .stem, .trk, .mem, .br, .cells] else Part.engine
  | .maximumTreeDone _ _ _ => [.cells]
  | .tconv _ errs => if errs.isEmpty then [.regs, .usb, .root, .stem, .trk, .mem, .br, .cells] else Part.engine
  | .twarp _ errs => if errs.isEmpty then [.regs, .usb, .root, .stem, .trk, .mem, .br, .cells, .free] else [.regs, .live, .clk, .usb, .ring, .root, .stem, .trk, .mem, .ras, .cnp, .inp, .cam, .flt, .br, .cells, .free]
  | .thalo _ errs => if errs.isEmpty then [.regs, .stem, .trk, .mem, .br, .cells] else Part.engine
  | .haloLineLanded _ => [.br]
  | .tmcast _ => [.regs, .stem, .trk, .mem, .br, .cells]
  | .multicastFetch _ errs => if errs.isEmpty then [.regs, .usb, .root, .stem, .trk, .br] else Part.engine
  | .tbox _ errs => if errs.isEmpty then [.regs, .usb, .root, .stem, .trk, .mem, .br, .cells, .free] else [.regs, .live, .clk, .usb, .ring, .root, .stem, .trk, .mem, .ras, .cnp, .inp, .cam, .flt, .br, .cells, .free]
  | .tnms _ errs => if errs.isEmpty then [.regs, .usb, .root, .stem, .trk, .mem, .br, .cells] else Part.engine
  | .tstore _ errs => if errs.isEmpty then [.regs, .stem, .trk, .mem, .ras, .br, .cells] else Part.engine
  | .tsig _ => [.regs, .stem, .trk, .mem, .br, .cells]
  | .tsigLand _ => [.ring, .stem, .br]
  | .twait _ => [.regs, .stem, .trk, .mem, .br, .cells]
  | .twaitMet _ => [.regs, .stem, .trk, .mem, .br, .cells]
  | .evictionWriteDone _ _ => [.regs, .trk, .mem]
  | .pageFetchDone _ _ => [.regs, .usb, .ring, .root, .stem, .trk, .mem, .cam, .flt, .br, .cells]
  | .trunkStallTimeout _ _ => [.regs, .usb, .ring, .root, .stem, .trk, .mem, .cam, .flt, .br, .cells]
  | .stampTick => [.regs, .trk]
  | .trkBooksSnap _ => [.regs]
  | .trkPageLookup _ => [.regs]
  | .scrubPassStart => [.regs, .root, .trk]
  | .scrubLine _ _ => Part.engine
  | .bankPageCopied _ => [.regs, .usb, .root, .stem, .trk, .flt]
  | .lp6ReadDone _ _ _ => Part.engine
  | .lp6Refresh _ _ => [.regs]
  | .lp6GranuleCopied _ => Part.engine
  | .lp6AreaWrite _ => [.regs]
  | .camFrameStart _ => [.regs, .live, .usb, .ring, .root, .stem, .trk, .mem, .cam, .br]
  | .camLineLanded _ _ _ => [.regs, .usb, .ring, .root, .stem, .trk, .mem, .cam, .flt]
  | .camFrameEnd _ => [.regs, .usb, .root, .stem, .cam, .flt]
  | .camPclkMeasure _ _ => [.regs]
  | .camCtlWrite _ _ => [.regs, .usb, .root, .stem, .cam, .flt]
  | .ispFrameEnter => [.regs, .usb, .root, .stem, .cam, .free]
  | .ispLineProcessed parity => if parity.isEmpty then [.regs, .ring, .trk, .mem, .cam] else Part.engine
  | .ispFrameComplete => [.regs, .ring, .trk, .mem, .cam]
  | .exposureGo _ _ => [.regs, .cam]
  | .i2cExposureDone _ => [.regs, .cam]
  | .camI2cNak _ _ _ => [.regs, .usb, .root, .stem, .cam]
  | .fsyncOutPulse => [.grv]
  | .fsyncInEdge => [.grv]
  | .fsyncTimeout => [.regs, .usb, .root, .stem, .grv]
  | .timeCodeReceived _ => [.regs, .devTime, .usb, .root, .stem, .grv]
  | .groveTupleChanged => [.regs, .usb, .root, .stem]
  | .powerWindow _ _ _ => Part.engine
  | .clkCapWrite _ => [.regs, .usb, .root, .stem]
  | .jtagExtest _ => Part.all
  | .bucketLeak _ => [.flt]
  | .retirementStart _ => Part.engine
  | .flitReceived _ _ _ _ => Part.engine
  | .flitAckTimeout _ => Part.engine
  | .flitResend _ => [.flt]
  | .fence _ => Part.engine
  | .unfence _ => [.regs, .flt]
  | .retire _ _ _ => Part.engine
  | .windRuleArm _ _ => [.regs, .flt]
  | .ep2InDataTaken errs => if errs.isEmpty then [.regs, .usb, .root, .stem, .trk, .flt] else Part.engine
  | .attestReportSigned => [.regs, .usb, .root, .free]
  | .writebackLineWritten => [.regs, .usb, .ring, .root, .stem, .trk, .mem, .cnp]
  | .testEnChange _ => Part.all

/-- The commands that are host reads of one register: its address, and what the hardware adds to it in the same cycle. -/
def readOf : Instr → Option (Nat × Nat)
  | .rcRegisterRead a hw => some (a.toNat, hw)
  | .lowWordRead a => some (a.toNat, 0)
  | .genProgressARead k => if 1 ≤ k ∧ k ≤ 11 then some (progA k, 0) else none
  | .intHdrIfnRead port => some (hdrIfn port.val, 0)
  | .camCxLastCfnRead ctx => some (cxLastCfn ctx.val, 0)
  | _ => none

/-- What a host read of a register returns: the holding copy where one stands (R13). -/
def readWord (nv : NonVol) (d : Dev) (a : Nat) : Word :=
  match d.hold.get none a with | some w => w | none => viewWord nv d a

/-- The commands of the pins and the root PLL, which act with no clock running. -/
def ofPins : Instr → Prop
  | .resetAssert => True
  | .resetRelease => True
  | .pllLock => True
  | .jtagExtest _ => True
  | .testEnChange _ => True
  | _ => False

/-- What no command undoes: the identity, the life cycle, the counters, the state of each key slot, the key of a slot once it is
provisioned, the USB word (R456, R457). -/
structure Grows (a b : NonVol) : Prop where
  gradeS : b.gradeS = a.gradeS
  serial : b.serial = a.serial
  identKey : b.identKey = a.identKey
  fwKeyHash : b.fwKeyHash = a.fwKeyHash
  lifecycle : a.lifecycle ≤ b.lifecycle
  fwCtr : a.fwCtr ≤ b.fwCtr
  intCtr : a.intCtr ≤ b.intCtr
  slots : ∀ s, s < 4 → slotState a s ≤ slotState b s
  keys : ∀ s, s < 4 → slotState a s ≠ 0 → b.keyHash.get 0 s = a.keyHash.get 0 s
  usbWord : ∀ w, a.usbWord = some w → b.usbWord = some w

/-- What holds of every state the block can be in: memory in canonical form, and the page books that add up to the 8,704 pages
of the Trunk (R85). -/
def Inv (s : State) : Prop := Memory.wf s.dev.mem ∧ bookSum s.dev.trk.books = 8704

/-- Every register word stands, but those at the addresses listed. -/
def RegsBut (l : List Nat) (d e : Dev) : Prop := ∀ a, a ∉ l → reg e a = reg d a

/-- The command answers a next state; fuses, flash and queue stand, only the parts listed change, and `P` holds of the device
after it. -/
def Does (c : Instr) (s : State) (l : List Part) (P : Dev → Prop) : Prop :=
  ∃ e, exec c s = .next { s with dev := e } ∧ Only l s.dev e ∧ P e

/-- A request with header `h` executes as soon as it arrives: clocks run, EP1 serves it, its tag is free, nothing earlier is in its
way, and the header is one that its type takes. -/
def Ready (d : Dev) (h : Hdr) (kind type : Nat) : Prop :=
  alive d = true ∧ canRun d h kind = true ∧ h.zerosOk = true ∧ addrOk h type = true ∧ h.endpoint = 1

/-- The COMPLETION that a request with header `h` gets. -/
def answer (h : Hdr) (status : Nat) (payload : Bytes) : Completion :=
  { tag := h.tag.toNat, addr := h.addr.toNat, status, payload }

/-- A completion joins EP1 IN; of the host side nothing else changes but the tags and the transfers. -/
def Answered (h : Hdr) (status : Nat) (payload : Bytes) (d e : Dev) : Prop :=
  e.usb = { d.usb with tags := e.usb.tags, xfers := e.usb.xfers, ep1in := d.usb.ep1in ++ [answer h status payload] }

/-- A transfer of EP2 OUT is announced; of the host side nothing else changes but the tags. -/
def Announced (h : Hdr) (kind : XferKind) (len : Nat) (d e : Dev) : Prop :=
  e.usb = { d.usb with tags := e.usb.tags, xfers := d.usb.xfers ++
    [{ tag := tagKey d h.tag, kind, len, got := 0, buf := [], t0 := d.devTime.toNat, lost := false }] }

/-- A request whose status is `st`: with OK it does `P`; with any other it completes at once and does nothing else. -/
def Takes (c : Instr) (s : State) (h : Hdr) (st : Nat) (l : List Part) (P : Dev → Prop) : Prop :=
  (st = stOk → Does c s l P) ∧ (st ≠ stOk → Does c s [.usb] (Answered h st [] s.dev))

/-- Completions that join EP1 IN; the rest of the host side is not constrained. -/
def Queued (l : List Completion) (d e : Dev) : Prop := e.usb.ep1in = d.usb.ep1in ++ l

/-- The last event given to the Root controller. -/
def Raised (code unit sev arg : Nat) (d e : Dev) : Prop :=
  e.root.lastEv = some { code, unit, sev, arg, time := d.devTime.toNat }

/-- The Branch for which a tile command issues, and the opcode that it issues (Table Tile-6). -/
def issues : Instr → Option (Fin 16 × Nat)
  | .tload n _ => some (n, 1)
  | .tmac n _ => some (n, 2)
  | .twino n _ => some (n, 3)
  | .tdiag n _ => some (n, 4)
  | .tpool n _ => some (n, 5)
  | .tact n _ => some (n, 6)
  | .treq n _ => some (n, 7)
  | .tstat n _ => some (n, 8)
  | .tconv n _ => some (n, 9)
  | .twarp n _ => some (n, 0xA)
  | .thalo n _ => some (n, 0xB)
  | .tmcast n => some (n, 0xC)
  | .tbox n _ => some (n, 0xD)
  | .tnms n _ => some (n, 0xE)
  | .tstore n _ => some (n, 0xF)
  | .tsig n => some (n, 0x10)
  | .twait n => some (n, 0x11)
  | _ => none

/-- Branch `n` stands at an instruction of opcode `op` that is not skipped. -/
def StandsAt (s : State) (n : Fin 16) (op : Nat) (e : Env) : Prop :=
  alive s.dev = true ∧ envOf s.nv s.dev n.val = some e ∧ e.i.op = op ∧ e.skip = false

/-- Where a context stands in its program. -/
def Ctx.place (c : Ctx) : Nat × Nat × Nat × Nat × Nat × Nat × Nat := (c.sect, c.idx, c.yi, c.z, c.xi, c.r, c.it)

/-- The context in hand stands at the instruction after that of `e`. -/
def Stepped (e : Env) (d : Dev) : Prop :=
  (curCtx d e.n).map Ctx.place = some (Ctx.norm e.b e.p e.j e.nb 8 { e.c with idx := e.c.idx + 1, short := false }).place

/-- The Twig that the instruction of `e` works on. -/
def Env.onTwig (e : Env) (d : Dev) : Nat := servingTwig d e.n e.i.twig

/-- A reduction step may run on the tiles of the slots: its lines stand, no slot drains, no slot stands twice, and the tiles fit or no
drain of the Twig could make room. -/
def CanReduce (d : Dev) (e : Env) (s : Src) (lines : List Int) (slots : List Nat) (weight : Nat) : Prop :=
  (∀ y, y ∈ lines → s.co.trunk = true ∨ slotBusy d e s.co.index y = false) ∧ slots.Nodup ∧
  (∀ x, x ∈ slots → (e.onTwig d, x) ∉ e.c.drains) ∧
  (e.i.flag 10 = true → tilesShort d e (e.onTwig d) slots weight = 0 ∨ ∀ x, x ∈ e.c.drains → x.1 ≠ e.onTwig d)

/-- The Twigs that a step of the instruction works on: the one that serves it, and the spare while it audits that one (R165, R169). -/
def Env.worksOn (e : Env) (d : Dev) (u : Nat) : Prop := u = e.onTwig d ∨ (u = 4 ∧ audits d e.n (e.onTwig d) = true)

/-- Tiles of `p` pixels that an instruction of up to `nt` tiles streams in its iteration, each with its slot (R151, R223). -/
def Env.tiles (e : Env) (a nt p : Nat) : List (Nat × Nat) :=
  ((List.range nt).filter (fun j => decide (j * p < e.c.wo - e.x0))).map (fun j => (j, e.slot (a + j)))

/-- Accumulator `i` of a slot takes one reduction step of `sum`, on every Twig at work: FIRST writes it, any other step adds; the sum
saturates. -/
def Accumulates (e : Env) (slot i : Nat) (sum : Int) (d d' : Dev) : Prop :=
  ∀ u, e.worksOn d u → accAt (twig d' e.n u) slot i = (acc40 ((if e.i.flag 10 then 0 else accAt (twig d e.n u) slot i) + sum)).1

/-- Of the Branches, the stores are those of `w` and the Twigs those of `d`. -/
def StoresAs (d w e : Dev) : Prop := (∀ m, (branch e m).store = (branch w m).store) ∧ ∀ m t, twig e m t = twig d m t

/-- The pages that runs of bytes lie in hold their bytes or nothing yet, or an eviction of them can still be cancelled: a read of them
goes on (R71, R78, R81). -/
def AtHand (d : Dev) (sp : Nat) (runs : List (Nat × Nat)) : Prop :=
  ∀ r, r ∈ runs → ∀ q, q ∈ partsOf r.1 r.2 → (pageAt d sp q.1).loc < 2 ∨ ((pageAt d sp q.1).loc = 3 ∧ (pageAt d sp q.1).move = 1)

/-- The same of pages that a write goes to: it goes on and allocates none (R70, R78, R81). -/
def Resident (d : Dev) (sp : Nat) (runs : List (Nat × Nat)) : Prop :=
  ∀ r, r ∈ runs → ∀ q, q ∈ partsOf r.1 r.2 → (pageAt d sp q.1).loc = 1 ∨ ((pageAt d sp q.1).loc = 3 ∧ (pageAt d sp q.1).move = 1)

/-- Lines of a source are at hand: in a region, no earlier receive still writes one of them; in the Trunk, the pages of those that
Intake has not skipped are (R212, R219, R302). `of`: the runs of a tensor line. -/
def Src.Ready (d : Dev) (e : Env) (s : Src) (of : Int → List (Nat × Nat)) (ys : List Int) : Prop :=
  (s.co.trunk = false ∧ ∀ y, y ∈ ys → slotBusy d e s.co.index y = false) ∨
  (s.co.trunk = true ∧ ∀ y, y ∈ ys.filterMap (padAxis s.co.pad s.yi.1 s.yi.2) → lineSkipped d e.b s.co.index s.fn y = false →
    AtHand d e.sp (of y))

/-- The record's line of `n` stream elements is at hand. -/
def Src.Free (d : Dev) (e : Env) (s : Src) (ys : List Int) (n : Nat) : Prop := s.Ready d e (fun y => s.runs e y n) ys

/-- Every line of a source is at hand, whole. -/
def Src.Whole (d : Dev) (e : Env) (s : Src) : Prop :=
  (s.co.trunk = false ∧ ∀ y, slotBusy d e s.co.index y = false) ∨
  (s.co.trunk = true ∧ ∀ y : Int, y < (tH e.b s.co.index : Int) → AtHand d e.sp (s.fullRuns e y))

/-- The bias of `m` output channels is at hand. -/
def BiasReady (d : Dev) (e : Env) (r : Option Nat) (m : Nat) : Prop :=
  ∀ i, r = some i → (biasSrc d e i m).Free d e [(biasSrc d e i m).line e] 1

/-- The biases of `m` output channels: none count as 0. -/
def biasOf (d : Dev) (e : Env) (r : Option Nat) (m q : Nat) : Int :=
  match r with | some i => (biasRow d e i m).getD q 0 | none => 0

/-- The Branch still stands at the instruction, and its store and Twigs are as they were: it waits. -/
def Waits (e : Env) (d d' : Dev) : Prop :=
  curCtx d' e.n = some e.c ∧ (∀ m, (branch d' m).store = (branch d m).store) ∧ ∀ m t, twig d' m t = twig d m t

/-- The registers that a tile boundary writes: the sequencer's, and MODE and PLANE of the Twigs (R172, R211). -/
def boundaryRegs (n : Nat) : List Nat := brBase n :: (List.range 5).map (fun t => (twigState n t).addr)

/-- Stream elements 0 to `n - 1` of the channels `chs` of a destination line take the values `f`. -/
def Env.putRows (e : Env) (c : Coord) (y : Int) (chs : List Nat) (n : Nat) (f : Nat → Nat → Int) (d : Dev) : Dev :=
  chs.foldl (fun d ch => putEls e c y ch ((List.range n).map (fun m => (m, f ch m))) d) d

/-- Source channel that stands for channel `ch` of destination `c`. -/
def Src.chan (e : Env) (s : Src) (c : Coord) (ch : Nat) : Nat := 64 * e.group s.co + (ch - 64 * e.group c)

/-- The camera frames with one of them replaced. -/
def framesWith (d : Dev) (f : CamFrame) : List CamFrame := d.cam.frames.map (fun g => if sameFrame f g then f else g)

/-- The camera frames with one of them gone. -/
def framesBut (d : Dev) (f : CamFrame) : List CamFrame := d.cam.frames.filter (fun g => !sameFrame f g)

/-- Lines of a camera frame, as its context declares them. -/
def CamFrame.height (d : Dev) (f : CamFrame) : Nat := cH (camImg d f) (camRec d f)

/-- A camera frame that has ended: missing lines count as lines of zeros. -/
def CamFrame.closed (d : Dev) (f : CamFrame) : CamFrame :=
  { f with lines := f.lines ++ List.replicate (f.height d - f.lines.length) (List.replicate (cW (camImg d f) (camRec d f)) 0)
           short := f.short || decide (f.lines.length < f.height d), ended := true }

/-- A pipeline of the Graft in force is keyed to a camera context. -/
def keyedToCam (d : Dev) (c : Nat) : Bool := (pipesOf (img0 d)).any (fun q => pKey (img0 d) q == 3 && pCtx (img0 d) q == c)

end Sys2Proof.Machine
end

