-- ==== Sys2Proof/Certificates/Slice0/Obligations.lean ====
section
/-! DEFINITION. What is claimed of the model: statements for the provers. A rule named in a docstring is one that the statement rests on;
the rules that a statement gives whole are those that OBLIGATIONS.json cites for it. -/

open Sys2Proof Sys2Proof.Machine

/-! ## The whole block -/

/-- A step runs the command at the front with the rest of the queue. -/
def Obligations.StepRunsFrontCommand : Prop :=
  ∀ (c : Instr) (rest : List Instr) (s : State), step { s with pending := c :: rest } = exec c { s with pending := rest }

/-- With nothing waiting and the clocks running, one CCLK cycle passes: a device that follows nobody adds 4 ns to DEV_TIME. With the
clocks stopped nothing happens. The model's choice of a step on an empty queue: log entry 1. -/
def Obligations.IdleStepAdvancesTime : Prop :=
  ∀ s : State, s.pending = [] →
    (alive s.dev = true → isFollower s.dev = false →
      ∃ t, step s = .next t ∧ t.nv = s.nv ∧ t.dev.devTime = s.dev.devTime + 4) ∧
    (alive s.dev = false → step s = .next s)

/-- The state after reset meets the invariant, and nothing waits in it. The model's own choices in it: log entry 4. -/
def Obligations.ResetMeetsInvariant : Prop := Inv State.reset ∧ State.reset.pending = []

/-- Memory keeps its canonical form and the books their sum through every step, from any state (R85). The model's own choices in it: log
entry 4. -/
def Obligations.StepKeepsInvariant : Prop :=
  ∀ s t : State, Inv s → step s = .next t → Inv t

/-- Every command answers a next state: it leaves the queue alone, and changes no part of the device that its row does not name. -/
def Obligations.CommandsChangeOnlyTheirParts : Prop :=
  ∀ (c : Instr) (s : State), ∃ t, exec c s = .next t ∧ t.pending = s.pending ∧ Only (touches c) s.dev t.dev

/-- Fuses only ever rise: the life cycle, the counters, each key slot, the USB word; the identity never changes (R456, R457). -/
def Obligations.FusesOnlyRise : Prop :=
  ∀ (c : Instr) (s t : State), exec c s = .next t → Grows s.nv t.nv

/-- With the clocks stopped, a command other than those of the pins changes nothing. -/
def Obligations.NothingRunsWithoutClocks : Prop :=
  ∀ (c : Instr) (s : State), alive s.dev = false → ¬ ofPins c → exec c s = .next s

/-! ## Register access -/

/-- A host write to a register whose bits are only stored: the writable bits take the value, all others and every other register stand
(R9, R10). An access that is not aligned, or beyond the registers, changes nothing (R8). -/
def Obligations.RegisterWriteStoresWritableBits : Prop :=
  ∀ (a : BitVec 40) (v hw : Word) (s : State), alive s.dev = true →
    (regAddrOk a.toNat = true → storeMask s.nv a.toNat ≠ 0 →
      Does (.registerWrite a v hw) s [.regs] (fun e => RegsBut [a.toNat] s.dev e ∧
        ∀ i, i < 32 → (reg e a.toNat).getLsbD i =
          if (storeMask s.nv a.toNat).testBit i then v.getLsbD i else (reg s.dev a.toNat).getLsbD i)) ∧
    (regAddrOk a.toNat = false → Does (.registerWrite a v hw) s [] (fun _ => True))

/-- A write to a register that has a row of its own is that row's command. -/
def Obligations.RegisterWriteRunsItsRow : Prop :=
  ∀ (v hw : Word) (s : State),
    exec (.registerWrite 0x10004 v hw) s = exec (.clkCapWrite v) s ∧
    exec (.registerWrite 0x30008 v hw) s = exec (.ringAddRegisterWrite v) s ∧
    exec (.registerWrite 0x3000C v hw) s = exec (.ringSetRegisterWrite v) s ∧
    exec (.registerWrite 0x40F08 v hw) s = exec (.stemHistInvWrite v) s ∧
    exec (.registerWrite 0x100010 v hw) s = exec (.trkBooksSnap v) s ∧
    exec (.registerWrite 0x100040 v hw) s = exec (.trkPageLookup v) s ∧
    exec (.registerWrite 0x120004 v hw) s = exec (.lp6AreaWrite v) s ∧
    exec (.registerWrite 0x170018 v hw) s = exec (.dsoCommitWrite v) s ∧
    exec (.registerWrite 0x180000 v hw) s = exec (.camCtlWrite 0 v) s ∧
    exec (.registerWrite 0x181000 v hw) s = exec (.camCtlWrite 1 v) s

/-- A host read returns the holding copy or the word itself, latches the words of its group, and clears the register's RC fields;
RC_REGISTER_READ leaves what the hardware adds in that cycle (R10, R12, R13). -/
def Obligations.RegisterReadReturnsAndLatches : Prop :=
  ∀ (c : Instr) (a hw : Nat) (s : State), alive s.dev = true → regAddrOk a = true → readOf c = some (a, hw) →
    Does c s [.regs, .hold, .usb] (fun e =>
      e.usb = { s.dev.usb with lastRead := readWord s.nv s.dev a } ∧
      (∀ x, e.hold.get none x = if x ∈ latched a then some (viewWord s.nv s.dev x) else s.dev.hold.get none x) ∧
      RegsBut [a] s.dev e ∧
      reg e a = if (rcRegs s.nv).contains a then BitVec.ofNat 32 (min hw 0xFFFFFFFF) else reg s.dev a)

/-- EP0 reads and writes a register, and STALLs a misaligned one or a write that its register refuses, with no effect (R8, R421). The
model's own choices in it: log entries 31, 38. -/
def Obligations.Ep0AccessesRegisters : Prop :=
  ∀ (a v : BitVec 32) (s : State), alive s.dev = true → ep0Served s.dev = true →
    (regAddrOk a.toNat = true →
      Does (.ep0RegisterRead a) s [.regs, .hold, .usb] (fun e =>
        e.usb = { s.dev.usb with ep0 := some (readWord s.nv s.dev a.toNat) } ∧
        (∀ x, e.hold.get none x = if x ∈ latched a.toNat then some (viewWord s.nv s.dev x) else s.dev.hold.get none x) ∧
        RegsBut [a.toNat] s.dev e ∧ reg e a.toNat = if (rcRegs s.nv).contains a.toNat then 0 else reg s.dev a.toNat)) ∧
    (regAddrOk a.toNat = true → storeMask s.nv a.toNat ≠ 0 →
      Does (.ep0RegisterWrite a v) s [.regs, .usb] (fun e =>
        e.usb = { s.dev.usb with ep0 := some 0 } ∧ RegsBut [a.toNat] s.dev e ∧
        ∀ i, i < 32 → (reg e a.toNat).getLsbD i =
          if (storeMask s.nv a.toNat).testBit i then v.getLsbD i else (reg s.dev a.toNat).getLsbD i)) ∧
    (regAddrOk a.toNat = false ∨ (regWrite s.nv a.toNat v 0 s.dev).1 ≠ stOk →
      Does (.ep0RegisterWrite a v) s [.usb] (fun e => e.usb = { s.dev.usb with ep0 := none })) ∧
    (regAddrOk a.toNat = false →
      Does (.ep0RegisterRead a) s [.usb] (fun e => e.usb = { s.dev.usb with ep0 := none }))

/-- REG_READ and REG_WRITE access consecutive registers in order and answer OK with the words read. The first register that would fail
ends the message with BAD_ARG, the registers before it accessed; at a misaligned address nothing else changes (R8, R423). The model's own
choices in it: log entry 31. -/
def Obligations.RegisterMessagesAccessInOrder : Prop :=
  ∀ (h : Hdr) (n : Nat) (ws : List Word) (s : State),
    (Ready s.dev h 0 1 → h.length = 4 → 1 ≤ n ∧ n ≤ 256 →
      (h.addr.toNat % 4 = 0 → h.addr.toNat + 4 * n ≤ 0x100000000 → ∃ l : List Word, l.length = n ∧
        l.head? = some (readWord s.nv (addTag s.dev h 0 false) h.addr.toNat) ∧
        (readRegs s.nv h.addr.toNat n (addTag s.dev h 0 false)).1 = some l ∧
        Does (.regRead h n) s [.regs, .hold, .usb] (fun e => Answered h stOk (l.flatMap (fun w => le 4 w.toNat)) s.dev e ∧
          RegsBut ((List.range n).map (fun i => h.addr.toNat + 4 * i)) s.dev e)) ∧
      (h.addr.toNat % 4 = 0 → 0x100000000 < h.addr.toNat + 4 * n → Does (.regRead h n) s [.regs, .hold, .usb] (fun e =>
        Answered h stBadArg [] s.dev e ∧ e.regs = (readRegs s.nv h.addr.toNat n (addTag s.dev h 0 false)).2.regs)) ∧
      (∀ l, (readRegs s.nv h.addr.toNat n (addTag s.dev h 0 false)).1 = some l →
        Does (.regRead h n) s [.regs, .hold, .usb] (fun e => Answered h stOk (l.flatMap (fun w => le 4 w.toNat)) s.dev e ∧
          e.regs = (readRegs s.nv h.addr.toNat n (addTag s.dev h 0 false)).2.regs ∧
          e.hold = (readRegs s.nv h.addr.toNat n (addTag s.dev h 0 false)).2.hold)) ∧
      (h.addr.toNat % 4 ≠ 0 → Does (.regRead h n) s [.usb] (Answered h stBadArg [] s.dev))) ∧
    (Ready s.dev h 0 2 → h.length = 4 * ws.length → 1 ≤ ws.length ∧ ws.length ≤ 256 →
      ((∀ i, i < ws.length → regAddrOk (h.addr.toNat + 4 * i) = true ∧ storeMask s.nv (h.addr.toNat + 4 * i) ≠ 0) →
        Does (.regWrite h ws) s [.regs, .usb] (fun e => Answered h stOk [] s.dev e ∧
          RegsBut ((List.range ws.length).map (fun i => h.addr.toNat + 4 * i)) s.dev e ∧
          ∀ i b, i < ws.length → b < 32 → (reg e (h.addr.toNat + 4 * i)).getLsbD b =
            if (storeMask s.nv (h.addr.toNat + 4 * i)).testBit b then (ws.getD i 0).getLsbD b
            else (reg s.dev (h.addr.toNat + 4 * i)).getLsbD b)) ∧
      (∀ r, r = writeRegs s.nv h.addr.toNat ws (addTag s.dev h 0 false) →
        exec (.regWrite h ws) s = .next { s with dev := complete r.2 (tagKey s.dev h.tag) r.1 [] }) ∧
      (h.addr.toNat % 4 ≠ 0 → Does (.regWrite h ws) s [.usb] (Answered h stBadArg [] s.dev)))

/-! ## Reset, clocks and start-up -/

/-- RST_N low, TEST_EN high and EXTEST put every volatile part at its reset value and hold the engine (R519, R533). The model's own
choices in it: log entry 66. -/
def Obligations.PinsHoldTheEngineInReset : Prop :=
  ∀ s : State,
    exec .resetAssert s = .next { s with dev := { Dev.reset with held := setBit s.dev.held 0 true } } ∧
    exec (.testEnChange true) s = .next { s with dev := { Dev.reset with held := setBit s.dev.held 1 true } } ∧
    exec (.jtagExtest true) s = .next { s with dev := { Dev.reset with held := setBit s.dev.held 2 true } } ∧
    (s.dev.held.testBit 0 = true →
      exec .resetRelease s = .next { s with dev := { Dev.reset with held := setBit (setBit s.dev.held 0 false) 2 false } }) ∧
    (s.dev.held.testBit 1 = true →
      exec (.testEnChange false) s = .next { s with dev := { Dev.reset with held := setBit s.dev.held 1 false } }) ∧
    exec (.jtagExtest false) s = .next s

/-- The root PLL locks: the clocks run, ACLK at 500 MHz, DEV_TIME at 0. The cap, the fill colour, the lock and the timing of the board
record, or of the fallback when the record is not valid, stand in their registers and in force at once (R509, R520, R521, R544). The
model's own choices in it: log entries 18, 66. -/
def Obligations.PllLockStartsClocks : Prop :=
  ∀ (s : State) (b : Board), s.dev.held = 0 → s.dev.boot = 0 → b = (readBoard s.nv).getD Board.fallback →
    Does .pllLock s [.regs, .live, .devTime, .boot, .clk] (fun e => e.boot = 1 ∧ e.devTime = 0 ∧ fld e clkPllLock = 1 ∧ fld e clkAclk = 0 ∧
      fld e clkCap = b.cap ∧ fld e undFill = b.fill ∧ reg e 0x10020 = BitVec.ofNat 32 b.lock ∧
      e.live.get 0 0x10020 = BitVec.ofNat 32 b.lock ∧ (∀ x, x ∈ boardSet b → reg e x.1 = x.2 ∧ e.live.get 0 x.1 = x.2) ∧
      e.clk.boardBad = (readBoard s.nv).isNone ∧ e.clk.lp6Ceil = b.rate ∧ e.clk.lp6Dens = b.dens ∧
      RegsBut ([clkPllLock.addr, clkXdiv.addr, grvTag.addr, clkCap.addr, undFill.addr, 0x10020] ++ (boardSet b).map (·.1)) s.dev e ∧
      (s.dev.clk.trip = false → alive e = true))
/-! ## The host link -/

/-- The link trains: SPEED and CONFIGURED follow, and USB_LINK_CHANGE is raised, DEGRADED at High-Speed. A bus reset forgets every tag,
wait, transfer and queued completion, releases the held Rings at 0 and counts; the event queue is kept (R419, R438). The model's own
choices in it: log entries 19, 33. -/
def Obligations.HostLinkTrainsAndResets : Prop :=
  (∀ (speed : Fin 4) (s : State), alive s.dev = true → usbPresent s.dev = true → speed ≠ 0 →
     Does (.usbEnumeration speed) s [.regs, .usb, .root] (fun e =>
       fld e usbSpeed = speed.val ∧ fld e usbConfigured = (if 2 ≤ speed.val then 1 else 0) ∧
       RegsBut [usbSpeed.addr, aEvtLost] s.dev e ∧
       Raised 0x0520 2 (if speed.val = 2 then 1 else 0) (speed.val + 4 * (if 2 ≤ speed.val then 1 else 0)) s.dev e)) ∧
  (∀ (speed : Fin 4) (conf : Bool) (s : State), alive s.dev = true → usbPresent s.dev = true →
     s.dev.usb.xfers.all (fun x => decide (x.len ≤ x.got)) = true →
     Does (.usbBusReset speed conf) s [.regs, .usb, .ring, .root] (fun e =>
       e.usb.tags = [] ∧ e.usb.ep1in = [] ∧ e.usb.reads = [] ∧ e.usb.xfers = [] ∧ e.usb.waits = [] ∧ e.usb.deferred = [] ∧
       e.usb.gen = s.dev.usb.gen + 1 ∧ (s.dev.usb.evq <+: e.usb.evq) ∧ e.ring.held = [] ∧
       (∀ r, ringVal e r = if r ∈ s.dev.ring.held then 0 else ringVal s.dev r) ∧
       (reg e aUsbResets).toNat = min ((reg s.dev aUsbResets).toNat + 1) 0xFFFFFFFF ∧
       fld e usbConfigured = (conf && decide (2 ≤ speed.val)).toNat ∧ RegsBut [usbSpeed.addr, aUsbResets, aEvtLost] s.dev e))

/-- COMPLETION_TAKEN delivers the oldest completion as a message and frees its tag; that of the update that recovery waited for resets the
engine instead. An EVENT message carries up to 63 records of 16 bytes, oldest first, every value little-endian; EVENTS_LOST follows when
it is owed and there is room (R7, R28, R422, R424, R436, R463). The model's own choices in it: log entry 72. -/
def Obligations.HostTakesCompletionsAndEvents : Prop :=
  (∀ (c : Completion) (l : List Completion) (s : State), alive s.dev = true → linkUpHost s.dev = true → s.dev.usb.ep1in = c :: l →
     (s.dev.root.fwTag ≠ some (s.dev.usb.gen * 65536 + c.tag) → flag s.dev wndEn = false →
       Does .completionTaken s [.usb] (fun e => e.usb = { s.dev.usb with
         ep1 := le 1 0x30 ++ le 1 0 ++ le 2 c.tag ++ le 4 c.payload.length ++ le 5 c.addr ++ le 1 c.status ++ le 2 0 ++ c.payload ++
           List.replicate ((16 - c.payload.length % 16) % 16) 0
         ep1in := l, tags := s.dev.usb.tags.filter (fun t => t.tag != s.dev.usb.gen * 65536 + c.tag || !t.done) })) ∧
     (s.dev.root.fwTag = some (s.dev.usb.gen * 65536 + c.tag) →
       exec .completionTaken s = .next { s with dev := { Dev.reset with held := s.dev.held } })) ∧
  (∀ (s : State) (m : Bytes), alive s.dev = true → linkUpHost s.dev = true → s.dev.usb.evq ≠ [] → flag s.dev wndEn = false →
     m = le 4 0x31 ++ le 4 (16 * min 63 s.dev.usb.evq.length) ++ le 8 0 ++ (s.dev.usb.evq.take 63).flatMap (fun r =>
       le 2 r.code ++ le 1 r.unit ++ le 1 r.sev ++ le 4 r.arg ++ le 8 r.time) →
     (s.dev.usb.evDrop = false → Does .eventMessageSend s [.usb] (fun e =>
       e.usb = { s.dev.usb with ep3 := m, evq := s.dev.usb.evq.drop 63 })) ∧
     (s.dev.usb.evDrop = true → s.dev.usb.evq.length ≤ 256 → Does .eventMessageSend s [.regs, .usb, .root] (fun e =>
       e.regs = s.dev.regs ∧ e.usb = { s.dev.usb with
         ep3 := m, evDrop := false, evSince := 0, evq := s.dev.usb.evq.drop 63 ++
           [{ code := 0x0521, unit := 2, sev := 1, arg := s.dev.usb.evSince % 2 ^ 32, time := s.dev.devTime.toNat }] })))

/-- A DATA message appends its bytes to the transfer of its tag, and those of a Graft image go to their place in LPDDR6 at once. The last
one of a physical MEM_WRITE puts the bytes in place, every other byte of memory stands, and the write completes OK. A transfer whose bytes
have not all come 10 s after its announcement ends TIMEOUT (R286, R428, R431, R442). The model's own choices in it: log entries 31, 32,
97. -/
def Obligations.TransfersFillOrTimeOut : Prop :=
  (∀ (tag : BitVec 16) (x : Xfer) (t : TagRec) (s : State), alive s.dev = true →
     s.dev.usb.xfers.find? (fun x => x.tag == tagKey s.dev tag) = some x → x.got < x.len → x.t0 + 10000000000 ≤ s.dev.devTime.toNat →
     s.dev.usb.tags.find? (fun t => t.tag == x.tag && !t.done) = some t →
     Does (.lengthTimeout tag) s [.regs, .usb, .root, .cam] (fun e => e.usb.ep1in = s.dev.usb.ep1in ++
       [{ tag := x.tag % 65536, addr := t.addr, status := stTimeout, payload := [] }])) ∧
  (∀ (h : Hdr) (last : Bool) (bs : Bytes) (x : Xfer) (s : State), alive s.dev = true →
     linkUpHost s.dev = true → h.endpoint = 2 → h.zerosOk = true → h.length = bs.length → 1 ≤ bs.length ∧ bs.length ≤ 65536 →
     s.dev.usb.tags.any (fun t => t.tag == tagKey s.dev h.tag && t.waiting) = false →
     s.dev.usb.xfers.find? (fun x => x.tag == tagKey s.dev h.tag) = some x → x.lost = false → x.got = h.addr.toNat →
     ¬ (x.got = 0 ∧ 4 ≤ (openXfers s.dev).length) →
     (x.got + bs.length < x.len →
       Does (.data h last bs) s [.regs, .root, .usb, .mem] (fun e =>
         e.usb = { s.dev.usb with xfers := s.dev.usb.xfers.map (fun y =>
           if y.tag == x.tag then { x with got := x.got + bs.length, buf := x.buf ++ bs, lost := last } else y) } ∧
         (if x.kind = .graft then
           readMem e (areaAddr (freeArea s.dev) + x.got) bs.length = bs ∧
           ∀ j, j < areaAddr (freeArea s.dev) + x.got ∨ areaAddr (freeArea s.dev) + x.got + bs.length ≤ j → readMem e j 1 = readMem s.dev j 1
          else e.mem = s.dev.mem))) ∧
     (∀ (a : Nat) (t : TagRec), x.kind = .memWrite a false → x.got + bs.length = x.len → inLp6 s.dev a x.len = true → (x.buf ++ bs).length = x.len →
       s.dev.usb.tags.find? (fun t => t.tag == x.tag && !t.done) = some t →
       Does (.data h last bs) s [.usb, .mem] (fun e =>
         readMem e a x.len = x.buf ++ bs ∧ (∀ j, j < a ∨ a + x.len ≤ j → readMem e j 1 = readMem s.dev j 1) ∧
         e.usb.ep1in = s.dev.usb.ep1in ++ [{ tag := x.tag % 65536, addr := t.addr, status := stOk, payload := [] }])))

/-- A MEM_READ of a range in a fitted window that nothing protects, or of virtual addresses of the Graft in force, is queued for EP2 IN; a
MEM_WRITE to where the host may write announces its bytes. Any other request gets its status at once (R84, R429, R430, R443). The model's
own choices in it: log entries 31, 69. -/
def Obligations.MemoryRequestsAreChecked : Prop :=
  (∀ (h : Hdr) (n : Nat) (s : State), h.length = 4 → h.addr.toNat % 4 = 0 → 4 ≤ n → n ≤ 0x10000000 → n % 4 = 0 →
    (Ready s.dev h 0 3 →
      (h.virt = true ∧ hasGraft s.dev = true ∧ h.addr.toNat + n ≤ 2 ^ 34 ∧ flag s.dev (hdcpProt 0) = false) ∨
      (h.virt = false ∧ trunkBase ≤ h.addr.toNat ∧ h.addr.toNat + n ≤ trunkBase + 0x20000000 ∧
        (flag s.dev (hdcpProt 0) = false ∨ h.addr.toNat + n ≤ trunkBase + 64 * 0x10000)) ∨
      (h.virt = false ∧ flag s.dev lp6Avail = true ∧ lp6Base ≤ h.addr.toNat ∧
        h.addr.toNat + n ≤ lp6Base + lp6Capacity s.dev / 8 * 7) →
      Does (.memRead h n) s [.usb] (fun e => e.usb = { s.dev.usb with tags := e.usb.tags, reads := s.dev.usb.reads ++
        [{ tag := tagKey s.dev h.tag, addr := h.addr.toNat, virt := h.virt, len := n, pos := 0 }] })) ∧
    (Ready s.dev h 0 4 →
      (h.virt = true ∧ hasGraft s.dev = true ∧ h.addr.toNat + n ≤ 2 ^ 34 ∧
        ∀ v, h.addr.toNat / 0x10000 ≤ v → v ≤ (h.addr.toNat + n - 1) / 0x10000 → tensorOf (img0 s.dev) v ≠ none) ∨
      (h.virt = false ∧ trunkBase ≤ h.addr.toNat ∧ h.addr.toNat + n ≤ trunkBase + 0x20000000 ∧
        (h.addr.toNat + n ≤ trunkBase + 48 * 0x10000 ∨ trunkBase + 64 * 0x10000 ≤ h.addr.toNat)) ∨
      (h.virt = false ∧ flag s.dev lp6Avail = true ∧ lp6Base + 0x2000000 + fld s.dev lp6Seed * 0x4000000 ≤ h.addr.toNat ∧
        h.addr.toNat + n ≤ lp6Base + lp6Capacity s.dev / 8 * 7) →
      Does (.memWrite h n) s [.usb] (Announced h (.memWrite h.addr.toNat h.virt) n s.dev))) ∧
  ∀ (h : Hdr) (n : Nat) (s : State), h.length = 4 →
    (Ready s.dev h 0 3 → memCheck s.dev false h.virt h.addr.toNat n = stOk →
      Does (.memRead h n) s [.usb] (fun e => e.usb = { s.dev.usb with tags := e.usb.tags, reads := s.dev.usb.reads ++
        [{ tag := tagKey s.dev h.tag, addr := h.addr.toNat, virt := h.virt, len := n, pos := 0 }] })) ∧
    (Ready s.dev h 0 3 → memCheck s.dev false h.virt h.addr.toNat n ≠ stOk →
      Does (.memRead h n) s [.usb] (Answered h (memCheck s.dev false h.virt h.addr.toNat n) [] s.dev)) ∧
    (Ready s.dev h 0 4 → memCheck s.dev true h.virt h.addr.toNat n = stOk →
      Does (.memWrite h n) s [.usb] (Announced h (.memWrite h.addr.toNat h.virt) n s.dev)) ∧
    (Ready s.dev h 0 4 → memCheck s.dev true h.virt h.addr.toNat n ≠ stOk →
      Does (.memWrite h n) s [.usb] (Answered h (memCheck s.dev true h.virt h.addr.toNat n) [] s.dev))

/-- The host takes the next bytes of the oldest read as a DATA message; with its last bytes the read completes OK. A virtual read waits
only for a page whose transfer has not ended, other than one that leaves, whose eviction it cancels (R7, R81, R422, R428, R430, R431). The
model's own choices in it: log entries 31, 72. -/
def Obligations.DataTakenMovesReadOn : Prop :=
  ∀ (x : ReadXfer) (l : List ReadXfer) (s : State) (r : Dev × Bytes × Bool) (n : Nat) (m : Bytes), alive s.dev = true → linkUpHost s.dev = true →
    flag s.dev wndEn = false → s.dev.usb.reads = x :: l → readHeld s.dev x.virt x.addr x.len = false → (x.virt = true → hasGraft s.dev = true) →
    n = min 65536 (x.len - x.pos) →
    (x.virt = false ∨ ∀ v, (x.addr + x.pos) / 0x10000 ≤ v → v ≤ (x.addr + x.pos + n - 1) / 0x10000 →
      (pageAt s.dev 0 v).loc ≠ 3 ∨ (pageAt s.dev 0 v).move = 1) →
    r = (if x.virt then vread s.dev (hostWho s.dev ((x.addr + x.pos) / 0x10000)) (x.addr + x.pos) n
      else (s.dev, physRead s.dev (x.addr + x.pos) n, true)) →
    m = le 1 0x20 ++ le 1 (if x.pos + 65536 < x.len then 0 else 4) ++ le 2 (x.tag % 65536) ++ le 4 n ++ le 5 x.pos ++ le 3 0 ++ r.2.1 ++
      List.replicate ((16 - n % 16) % 16) 0 →
    (x.pos + 65536 < x.len → Does (.ep2InDataTaken []) s [.regs, .usb, .root, .trk] (fun e => e.usb = { r.1.usb with
      ep2 := m, reads := { x with pos := x.pos + 65536 } :: l } ∧ (x.virt = false → Only [.usb] s.dev e))) ∧
    (x.len ≤ x.pos + 65536 → Does (.ep2InDataTaken []) s [.regs, .usb, .root, .trk] (fun e =>
      e.usb.ep2 = m ∧ e.usb.reads = l ∧ (x.virt = false → Only [.usb] s.dev e) ∧
      ∀ t, r.1.usb.tags.find? (fun t => t.tag == x.tag && !t.done) = some t → e.usb.ep1in = r.1.usb.ep1in ++
        [{ tag := x.tag % 65536, addr := t.addr, status := stOk, payload := [] }]))

/-! ## Rings -/

/-- RING_ADD adds modulo 2^32 and RING_SET writes a Ring that no one waits on; both leave every other Ring. A Ring that the host may not
name, or an amount out of range, is BAD_ARG; a waiter makes RING_SET BUSY. The RING_ADD and RING_SET registers do the same to the Ring
that RING_SEL names, or nothing (R239, R240, R241, R264, R432). -/
def Obligations.HostAddsToAndSetsRings : Prop :=
  (∀ (h : Hdr) (r : BitVec 16) (v : Word) (s : State), h.length = 8 →
     (Ready s.dev h 0 0x11 → hostMayWrite s.dev r.toNat = true → amountOk v.toNat = true →
       Does (.ringAdd h r v) s [.usb, .ring] (fun e => Answered h stOk [] s.dev e ∧ e.ring = { s.dev.ring with val := e.ring.val } ∧
         ∀ q, ringVal e q = if q = r.toNat then (ringVal s.dev q + v.toNat) % 2 ^ 32 else ringVal s.dev q)) ∧
     (Ready s.dev h 0 0x11 → hostMayWrite s.dev r.toNat = false ∨ amountOk v.toNat = false →
       Does (.ringAdd h r v) s [.usb] (Answered h stBadArg [] s.dev)) ∧
     (Ready s.dev h 0 0x12 → hostMayWrite s.dev r.toNat = true → ringWaiters s.dev r.toNat = 0 →
       Does (.ringSet h r v) s [.usb, .ring] (fun e => Answered h stOk [] s.dev e ∧ e.ring = { s.dev.ring with val := e.ring.val } ∧
         ∀ q, ringVal e q = if q = r.toNat then v.toNat else ringVal s.dev q)) ∧
     (Ready s.dev h 0 0x12 → hostMayWrite s.dev r.toNat = true → ringWaiters s.dev r.toNat ≠ 0 →
       Does (.ringSet h r v) s [.usb] (Answered h stBusy [] s.dev)) ∧
     (Ready s.dev h 0 0x12 → hostMayWrite s.dev r.toNat = false →
       Does (.ringSet h r v) s [.usb] (Answered h stBadArg [] s.dev))) ∧
  (∀ (v : Word) (s : State), alive s.dev = true →
     (hostMayWrite s.dev (fld s.dev ringSel) = true → amountOk v.toNat = true →
       Does (.ringAddRegisterWrite v) s [.ring] (fun e => e.ring = { s.dev.ring with val := e.ring.val } ∧
         ∀ q, ringVal e q = if q = fld s.dev ringSel then (ringVal s.dev q + v.toNat) % 2 ^ 32 else ringVal s.dev q)) ∧
     (hostMayWrite s.dev (fld s.dev ringSel) = false ∨ amountOk v.toNat = false →
       Does (.ringAddRegisterWrite v) s [] (fun _ => True)) ∧
     (hostMayWrite s.dev (fld s.dev ringSel) = true → ringWaiters s.dev (fld s.dev ringSel) = 0 →
       Does (.ringSetRegisterWrite v) s [.ring] (fun e => e.ring = { s.dev.ring with val := e.ring.val } ∧
         ∀ q, ringVal e q = if q = fld s.dev ringSel then v.toNat else ringVal s.dev q)) ∧
     (hostMayWrite s.dev (fld s.dev ringSel) = false ∨ ringWaiters s.dev (fld s.dev ringSel) ≠ 0 →
       Does (.ringSetRegisterWrite v) s [] (fun _ => True)))

/-- RING_WAIT completes at once when the Ring is there and the target met, and otherwise waits; a wait that is met completes OK with the
value, and one whose time is up TIMEOUT. RING_ALLOC gives the host the lowest number from 0x0400 that neither Graft declares and it does
not hold; RING_FREE takes a held Ring back at 0 when no one waits on it (R239, R432). -/
def Obligations.RingWaitsEndAndRingsAreHeld : Prop :=
  (∀ (h : Hdr) (r : BitVec 16) (t : Word) (ms : Nat) (s : State), Ready s.dev h 2 0x13 → h.length = 12 →
    (ringKind s.dev r.toNat = 0 ∨ isValidRing s.dev r.toNat = true →
      Does (.ringWait h r t ms) s [.usb] (Answered h stBadArg [] s.dev)) ∧
    (ringKind s.dev r.toNat ≠ 0 → isValidRing s.dev r.toNat = false → waitGe (ringVal s.dev r.toNat) t.toNat = true →
      Does (.ringWait h r t ms) s [.usb] (Answered h stOk (le 4 (ringVal s.dev r.toNat)) s.dev)) ∧
    (ringKind s.dev r.toNat ≠ 0 → isValidRing s.dev r.toNat = false → waitGe (ringVal s.dev r.toNat) t.toNat = false →
      Does (.ringWait h r t ms) s [.usb] (fun e => e.usb = { s.dev.usb with tags := e.usb.tags, waits := s.dev.usb.waits ++
        [{ tag := tagKey s.dev h.tag, ring := r.toNat, target := t.toNat,
           deadline := if ms = 0 then none else some (s.dev.devTime.toNat + ms * 1000000) }] }))) ∧
  (∀ (tag : BitVec 16) (w : HostWait) (t : TagRec) (s : State), alive s.dev = true →
    s.dev.usb.waits.find? (fun w => w.tag == tagKey s.dev tag) = some w →
    s.dev.usb.tags.find? (fun t => t.tag == w.tag && !t.done) = some t →
    (waitGe (ringVal s.dev w.ring) w.target = true → Does (.ringWaitMet tag) s [.usb] (fun e =>
      e.usb.waits = s.dev.usb.waits.filter (fun x => x.tag != w.tag) ∧ e.usb.ep1in = s.dev.usb.ep1in ++
        [{ tag := w.tag % 65536, addr := t.addr, status := stOk, payload := le 4 (ringVal s.dev w.ring) }])) ∧
    ((∃ u, w.deadline = some u ∧ u ≤ s.dev.devTime.toNat) ∨ ringKind s.dev w.ring = 0 →
      Does (.ringWaitTimeout tag) s [.usb] (fun e =>
        e.usb.waits = s.dev.usb.waits.filter (fun x => x.tag != w.tag) ∧ e.usb.ep1in = s.dev.usb.ep1in ++
          [{ tag := w.tag % 65536, addr := t.addr, status := stTimeout, payload := [] }]))) ∧
  (∀ (h : Hdr) (i : Nat) (s : State), Ready s.dev h 0 0x14 → h.length = 0 → s.dev.ring.held.length < 256 → i < 0xFC00 →
    ringFreeNumber s.dev (0x400 + i) = true → (∀ j, j < i → ringFreeNumber s.dev (0x400 + j) = false) →
    Does (.ringAlloc h) s [.usb, .ring] (fun e => Answered h stOk (le 2 (0x400 + i)) s.dev e ∧
      e.ring.held = s.dev.ring.held ++ [0x400 + i] ∧
      ∀ q, ringVal e q = if q = 0x400 + i then 0 else ringVal s.dev q)) ∧
  (∀ (h : Hdr) (s : State), Ready s.dev h 0 0x14 → h.length = 0 → 256 ≤ s.dev.ring.held.length →
    Does (.ringAlloc h) s [.usb] (Answered h stNoResource [] s.dev)) ∧
  (∀ (h : Hdr) (r : BitVec 16) (s : State), Ready s.dev h 0 0x15 → h.length = 2 →
    (s.dev.ring.held.contains r.toNat = true → ringWaiters s.dev r.toNat = 0 →
      Does (.ringFree h r) s [.usb, .ring] (fun e => Answered h stOk [] s.dev e ∧
        e.ring.held = s.dev.ring.held.filter (· != r.toNat) ∧
        ∀ q, ringVal e q = if q = r.toNat then 0 else ringVal s.dev q)) ∧
    (s.dev.ring.held.contains r.toNat = true → ringWaiters s.dev r.toNat ≠ 0 →
      Does (.ringFree h r) s [.usb] (Answered h stBusy [] s.dev)) ∧
    (s.dev.ring.held.contains r.toNat = false → Does (.ringFree h r) s [.usb] (Answered h stBadArg [] s.dev)))
/-! ## Start-up, clocks and power -/

/-- FIRMWARE_STARTED runs the preferred slot when it passes, else the other one, and blows FW_CTR up to the version of an image that asks
for it; with no slot left, recovery. It loads the keys of active slots whose hash agrees (R461, R463, R465, R521). The model's own choices
in it: log entries 18, 104. -/
def Obligations.FirmwareStartsOrRecovers : Prop :=
  (∀ (s : State) (p q : Nat) (img : Bytes), alive s.dev = true → s.dev.boot = 1 → p = preferredSlot s.nv → q = 1 - p →
     (∀ r, (r = p ∧ fwCheck s.nv (fwImage s.nv p) = 0) ∨
         (r = q ∧ fwCheck s.nv (fwImage s.nv p) ≠ 0 ∧ fwCheck s.nv (fwImage s.nv q) = 0) → img = fwImage s.nv r →
       ∃ t, exec .firmwareStarted s = .next t ∧ t.pending = s.pending ∧ Only [.regs, .boot, .usb, .root] s.dev t.dev ∧
         t.nv = { s.nv with fwCtr := if u16 img 6 = 1 then max s.nv.fwCtr (u32 img 8) else s.nv.fwCtr } ∧
         t.dev.boot = 2 ∧ fld t.dev bootSlot = r ∧ fld t.dev fwSvn = u32 img 8 ∧ fld t.dev ⟨progA 5, 8, 2⟩ = 1 ∧
         (r = q → fld t.dev bootFallback = 1 ∧ fld t.dev (bootFail p) = fwCheck s.nv (fwImage s.nv p) ∧
           Raised 0x0714 0 1 (fwCheck s.nv (fwImage s.nv p)) s.dev t.dev)) ∧
     (fwCheck s.nv (fwImage s.nv p) ≠ 0 → fwCheck s.nv (fwImage s.nv q) ≠ 0 →
       Does .firmwareStarted s [.regs, .boot] (fun e => e.boot = 5 ∧ fld e bootRecovery = 1 ∧
         fld e (bootFail p) = fwCheck s.nv (fwImage s.nv p) ∧ fld e (bootFail q) = fwCheck s.nv (fwImage s.nv q)))) ∧
  (∀ s : State, alive s.dev = true → s.dev.boot = 1 →
     ∃ t, exec .firmwareStarted s = .next t ∧ t.dev.live = s.dev.live ∧ t.dev.clk = s.dev.clk ∧
       ∀ k, k < 4 → flag t.dev (keyLoadedFld k) = slotKeyLoads s.nv k)

/-- The self-test ends, whichever banks failed: the raster starts at position 0 and LPDDR6 training begins; a failed bank has a spare in
its place, and a group for which no spare is left is fenced. LPDDR6 training ends: the lesser rate, the density of the board or else of
the devices; a channel that failed is out of service, two make LPDDR6 unavailable; the host link may connect (R441, R449, R521, R522). The
model's own choices in it: log entries 104, 107. -/
def Obligations.SelfTestAndTrainingStartService : Prop :=
  (∀ s : State, alive s.dev = true → s.dev.boot = 2 →
     (∀ failed : List (Fin 68), Does (.trunkSelfTestDone failed) s (.boot :: Part.engine) (fun e => e.boot = 3 ∧ e.ras.running = true ∧
       pos e = 0 ∧ fld e ⟨progA 5, 8, 2⟩ = 2 ∧ fld e ⟨progA 9, 8, 2⟩ = 1 ∧
       ∀ p : Fin 68, p ∈ failed → p.val < 64 → (∀ q : Fin 68, 64 ≤ q.val → q ∈ failed) → fenced e (0x20 + p.val / 4) = true)) ∧
     Does (.trunkSelfTestDone []) s (.boot :: Part.engine) (fun e => e.boot = 3 ∧ e.ras.running = true ∧ pos e = 0 ∧ e.flt = s.dev.flt ∧
       fld e ⟨progA 5, 8, 2⟩ = 2 ∧ fld e ⟨progA 9, 8, 2⟩ = 1) ∧
     ∀ p : Fin 68, p.val < 64 → flag s.dev (spareInUse 0) = false → (bucket s.dev 160).state = 0 → flag s.dev copyActive = false →
       Does (.trunkSelfTestDone [p]) s (.boot :: Part.engine) (fun e => e.boot = 3 ∧ e.ras.running = true ∧ pos e = 0 ∧
         (∀ i, physBank e p.val i = 64) ∧ (bucket e (96 + p.val)).state = 2)) ∧
  (∀ (rate density : Nat) (failed : List (Fin 8)) (s : State), alive s.dev = true → s.dev.boot = 3 →
     Does (.lp6TrainingDone rate density failed) s [.regs, .boot, .usb, .root, .flt] (fun e => usbPresent e = true ∧
       fld e lp6Rate = min rate s.dev.clk.lp6Ceil % 8 ∧
       fld e lp6Density = (match s.dev.clk.lp6Dens with | some x => x | none => density) % 4 ∧
       fld e lp6Trained = 1 ∧ (fld e lp6Avail = if failed.eraseDups.length ≤ 1 then 1 else 0) ∧
       (∀ c : Fin 8, (fld e lp6Inservice).testBit c.val = !failed.contains c ∧
         fenced e (0x30 + c.val) = (failed.contains c || fenced s.dev (0x30 + c.val))) ∧
       (failed.eraseDups.length ≤ 1 → Raised 0x0425 0 0 ((fld e lp6Inservice + min rate s.dev.clk.lp6Ceil * 256) % 2 ^ 32) s.dev e) ∧
       (2 ≤ failed.eraseDups.length → Raised 0x0426 0 3 (255 - fld e lp6Inservice) s.dev e)))

/-- The governor's millisecond: power, temperature and the lanes on which FEC left an error are taken; 125 °C trips the engine; from 110
°C everything that may be shed is shed and ACLK runs at 250 MHz; from 100 °C, or on the second window above the cap, one action is taken
at most every 10 ms, a shed before a step of ACLK (R513 to R517, Table Clocks-3). The model's own choices in it: log entries 65, 105, 107.
-/
def Obligations.GovernorActsOnPowerAndHeat : Prop :=
  ∀ (p : Nat) (tj : Int) (x : BitVec 16) (s : State), alive s.dev = true →
    x = 0 ∨ (fld s.dev (polThresh 4) = 0 ∧ fld s.dev (polRepeat 4) = 0) →
    Does (.powerWindow p tj x) s [.regs, .clk, .usb, .root, .flt] (fun e => (x = 0 → e.flt = s.dev.flt) ∧ fld e clkPwr = p % 65536 ∧ fld e clkTj = ofS 8 tj ∧
      flag e clkHot = decide (100 ≤ tj) ∧ e.clk.trip = (s.dev.clk.trip || decide (125 ≤ tj)) ∧
      (125 ≤ tj → alive e = false) ∧
      (110 ≤ tj → tj < 125 → nextShed e = none ∧ fld e clkAclk = 3) ∧
      (∀ q, 100 ≤ tj → tj < 110 → s.dev.clk.lastAct = 0 → nextShed s.dev = some q →
        (fld e clkShed).testBit q = true ∧ e.clk.acts = q :: s.dev.clk.acts ∧ fld e clkAclk = fld s.dev clkAclk) ∧
      (100 ≤ tj → tj < 110 → s.dev.clk.lastAct = 0 → nextShed s.dev = none → fld s.dev clkAclk < 3 →
        fld e clkAclk = fld s.dev clkAclk + 1 ∧ fld e clkShed = fld s.dev clkShed ∧ e.clk.acts = 4 :: s.dev.clk.acts) ∧
      (∀ q, tj < 100 → 1 ≤ s.dev.clk.overs → 100 * capWatts (fld s.dev clkCap) < p → s.dev.clk.lastAct = 0 →
        nextShed s.dev = some q → (fld e clkShed).testBit q = true ∧ e.clk.acts = q :: s.dev.clk.acts) ∧
      (96 ≤ tj → tj < 100 → p ≤ 100 * capWatts (fld s.dev clkCap) → e.clk.overs = 0 ∧ e.clk.coolMs = 0 ∧
        fld e clkShed = fld s.dev clkShed ∧ fld e clkAclk = fld s.dev clkAclk ∧ e.clk.acts = s.dev.clk.acts)) ∧
    ∀ v : Word, Does (.clkCapWrite v) s [.regs, .usb, .root] (fun e => fld e clkCap = v.toNat % 4 ∧
      (strictAdmitted s.dev = false → Only [.regs] s.dev e ∧ RegsBut [clkCap.addr] s.dev e))

/-! ## The Grove -/

/-- The master raises the frame pulse and sends its time code frame; a follower aims position 0 by the pulse it receives and repeats it 20
ns later, and without one for two frame periods loses lock (R399 to R402). The model's own choices in it: log entry 99. -/
def Obligations.GrovePulseIsSentAndFollowed : Prop :=
  ∀ s : State, alive s.dev = true → fenced s.dev 0x41 = false →
    (isMaster s.dev = true → s.dev.ras.running = true → Does .fsyncOutPulse s [.grv] (fun e =>
      e.grv = { s.dev.grv with outT := some s.dev.devTime.toNat, sent := e.grv.sent } ∧
      e.grv.sent.length = 16 ∧ u32 e.grv.sent 0 = add32 (ofn s.dev) 1 ∧ slice e.grv.sent 4 8 = le 8 s.dev.devTime.toNat ∧
      u16 e.grv.sent 12 % 4096 = fld s.dev grvTag % 4096 ∧ u16 e.grv.sent 14 = crc16 (e.grv.sent.take 14) % 65536)) ∧
    (isFollower s.dev = true → Does .fsyncInEdge s [.grv] (fun e => e.grv = { s.dev.grv with
      edge := some s.dev.devTime.toNat, outT := some (s.dev.devTime.toNat + 20)
      target := some ((s.dev.devTime.toNat : Int) + fld s.dev grvAlign - fld s.dev grvPath).toNat })) ∧
    (∀ u, isFollower s.dev = true → flag s.dev grvLocked = true → s.dev.grv.edge = some u →
      2000000000000 ≤ (s.dev.devTime.toNat - u) * inForce s.dev dsoFrate → Does .fsyncTimeout s [.regs, .usb, .root, .grv] (fun e =>
        fld e grvLocked = 0 ∧ (reg e aLockLoss).toNat = min ((reg s.dev aLockLoss).toNat + 1) 0xFFFFFFFF ∧
        Raised 0x0902 0x41 1 1 s.dev e ∧ e.grv = { s.dev.grv with good := 0 } ∧
        RegsBut [grvLocked.addr, aLockLoss, aEvtLost] s.dev e))

/-- A good time code frame gives the next MFC and the master's state; a bad one is counted, and the fourth in a row clears TC_VALID. A
change of the settings tuple moves GRV_TUPLE_TAG to the CRC of the new one (R393, R402, R403). -/
def Obligations.TimeCodeAndTagAreChecked : Prop :=
  (∀ (code : Bytes) (s : State), alive s.dev = true → fenced s.dev 0x41 = false → isFollower s.dev = true → code.length = 16 →
     (crc16 (code.take 14) = u16 code 14 → flag s.dev grvLocked = false →
       Does (.timeCodeReceived code) s [.regs, .usb, .root, .grv] (fun e => e.grv.mfc = some (u32 code 0) ∧ e.grv.adv = false ∧
         e.grv.bad = 0 ∧ e.grv.mtag = some (u16 code 12 % 4096) ∧ fld e grvTcValid = 1 ∧ fld e grvMGraft = bits (u16 code 12) 12 1 ∧
         fld e grvMStump = bits (u16 code 12) 13 1 ∧ flag e grvMatch = decide (u16 code 12 % 4096 = fld s.dev grvTag % 4096))) ∧
     (crc16 (code.take 14) ≠ u16 code 14 →
       Does (.timeCodeReceived code) s [.regs, .usb, .root, .grv] (fun e => e.grv.mfc = none ∧ e.grv.adv = true ∧
         e.grv.bad = s.dev.grv.bad + 1 ∧ (reg e aTcErr).toNat = min ((reg s.dev aTcErr).toNat + 1) 0xFFFFFFFF ∧
         (3 ≤ s.dev.grv.bad → fld e grvTcValid = 0) ∧ (s.dev.grv.bad < 3 → fld e grvTcValid = fld s.dev grvTcValid)))) ∧
  (∀ s : State, alive s.dev = true → fld s.dev grvTag ≠ tupleTag s.nv s.dev →
     Does .groveTupleChanged s [.regs, .usb, .root] (fun e => fld e grvTag = tupleTag s.nv s.dev % 2 ^ 32 ∧
       RegsBut [grvTag.addr, grvMatch.addr, aEvtLost] s.dev e ∧
       (s.dev.grv.mtag = none → Raised 0x0905 0x41 0 (tupleTag s.nv s.dev % 2 ^ 32) s.dev e)))

/-! ## The Trunk and LPDDR6 -/

/-- A write to the backing copy ends: the bytes stand in LPDDR6 and the page is free; one that a bank copy held leaves transit for good. A
fetch ends: the bytes stand in the Trunk. Every other byte and every other page stand, when no staging request waits and no fenced channel
serves the page (R77, R78, R85, R452). The model's own choices in it: log entries 26, 78, 82. -/
def Obligations.PageMovesCarryTheBytes : Prop :=
  ∀ (sp : Fin 2) (v : Nat) (p : Page) (s : State), alive s.dev = true → p = pageAt s.dev sp.val v → p.loc = 3 →
    s.dev.trk.stageQ = [] → (∀ i, i < 32 → lp6Dead s.dev (p.bpn * 0x10000 + 2048 * i) = false) →
    (p.move = 1 →
      Does (.evictionWriteDone sp v) s [.regs, .trk, .mem] (fun e =>
        pageAt e sp.val v = { p with loc := 2, move := 0, dirty := false, unread := false } ∧
        (reg e aEvict).toNat = min ((reg s.dev aEvict).toNat + 1) 0xFFFFFFFF ∧ RegsBut [aEvict, aStageWaste] s.dev e ∧
        (∀ q w, carried s.dev q w ≠ carried s.dev sp.val v → pageAt e q w = pageAt s.dev q w) ∧
        e.trk.used.get 0 p.lpn = 0 ∧
        e.trk.books = (if s.dev.trk.copyHeld.contains p.lpn then bookMove (bookMove s.dev.trk.books .transit .free 1) .transit .retired 1
          else bookMove s.dev.trk.books .transit .free 1) ∧
        readMem e (lp6Base + p.bpn * 0x10000) 0x10000 = readMem s.dev (lpnAddr p.lpn 0) 0x10000 ∧
        ∀ j, j < lp6Base + p.bpn * 0x10000 ∨ lp6Base + (p.bpn + 1) * 0x10000 ≤ j → readMem e j 1 = readMem s.dev j 1)) ∧
    (p.move = 2 →
      Does (.pageFetchDone sp v) s [.trk, .mem] (fun e =>
        pageAt e sp.val v = { p with loc := 1, move := 0, dirty := false, stamp := s.dev.trk.stamp } ∧
        (∀ q w, carried s.dev q w ≠ carried s.dev sp.val v → pageAt e q w = pageAt s.dev q w) ∧
        e.trk.used = s.dev.trk.used ∧ e.trk.books = bookMove s.dev.trk.books .transit .alloc 1 ∧
        readMem e (lpnAddr p.lpn 0) 0x10000 = readMem s.dev (lp6Base + p.bpn * 0x10000) 0x10000 ∧
        ∀ j, j < lpnAddr p.lpn 0 ∨ lpnAddr (p.lpn + 1) 0 ≤ j → readMem e j 1 = readMem s.dev j 1))

/-- The stamp tick counts; TRK_BOOKS_SNAP copies the four counts; TRK_PAGE_CTL shows the page looked up (R76, R86, R91). The model's own
choices in it: log entry 79. -/
def Obligations.BooksAndPagesAreShown : Prop :=
  ∀ s : State, alive s.dev = true →
    (hasGraft s.dev = false → Does .stampTick s [.trk] (fun e => e.trk = { s.dev.trk with stamp := (s.dev.trk.stamp + 1) % 65536 })) ∧
    Does .stampTick s [.regs, .trk] (fun e => e.trk.stamp = (s.dev.trk.stamp + 1) % 65536) ∧
    (∀ v : Word, v.toNat % 2 = 1 → Does (.trkBooksSnap v) s [.regs] (fun e =>
      fld e booksFree = s.dev.trk.books.free % 16384 ∧ fld e booksAlloc = s.dev.trk.books.alloc % 16384 ∧
      fld e booksTransit = s.dev.trk.books.transit % 16384 ∧ fld e booksRetired = s.dev.trk.books.retired % 16384 ∧
      RegsBut [booksFree.addr, booksAlloc.addr, booksTransit.addr, booksRetired.addr] s.dev e)) ∧
    (∀ v : Word, v.toNat % 2 = 0 → Does (.trkBooksSnap v) s [] (fun _ => True)) ∧
    (∀ (v : Word) (p : Page), p = pageAt s.dev (v.toNat % 2) (fld s.dev pageVpn) → bits v.toNat 1 1 = 1 →
      Does (.trkPageLookup v) s [.regs] (fun e => fld e pageSpace = v.toNat % 2 ∧ fld e pageLoc = p.loc % 4 ∧ 
        fld e pageClass = (if p.loc = 0 then pageClass_ (imgSp s.dev (v.toNat % 2)) (fld s.dev pageVpn) else p.cls) % 4 ∧
        flag e pageDirty = p.dirty ∧ flag e pageStaged = p.staged ∧ fld e pageReaders = p.readers % 256 ∧ fld e pageLpn = p.lpn % 8192 ∧
        fld e pageBack = (p.bpn + p.hasBack.toNat * 2 ^ 19) % 2 ^ 20 ∧
        RegsBut [pageCtl, pageLpn.addr, pageBack.addr] s.dev e)) ∧
    (∀ v : Word, bits v.toNat 1 1 = 0 → Does (.trkPageLookup v) s [.regs] (fun e => fld e pageSpace = v.toNat % 2 ∧
      RegsBut [pageCtl] s.dev e))

/-- A scrub pass starts with its interval over; each line read moves it on, counts what was found, and the last line ends it. With the
policy of its class off no unit is retired (R87, R480). The model's own choices in it: log entries 49, 80. -/
def Obligations.ScrubPassesOverEveryLine : Prop :=
  ∀ s : State, alive s.dev = true → flag s.dev scrubEn = true →
    (s.dev.trk.scrub = none → s.dev.trk.scrubT = 0 ∨ fld s.dev scrubInterval * 1000000000 ≤ s.dev.devTime.toNat - s.dev.trk.scrubT →
      Does .scrubPassStart s [.regs, .root, .trk] (fun e => fld e ⟨progA 4, 8, 2⟩ = 1 ∧ RegsBut [progA 4, progB 4] s.dev e ∧
        e.trk = { s.dev.trk with scrub := some 0, scrubT := max 1 s.dev.devTime.toNat })) ∧
    ∀ i corr bad n, s.dev.trk.scrub = some i → i < 8192 * 1024 → n = 96 + physBank s.dev (i / 1024 / 128) (i / 1024 % 128) → fld s.dev (polThresh (bktClass n)) = 0 →
      fld s.dev (polRepeat (bktClass n)) = 0 →
      Does (.scrubLine corr bad) s [.regs, .usb, .root, .trk, .flt] (fun e =>
        e.trk = { s.dev.trk with scrub := if i + 1 < 8192 * 1024 then some (i + 1) else none } ∧
        (reg e aScrubCorr).toNat = min ((reg s.dev aScrubCorr).toNat + corr) 0xFFFFFFFF ∧
        (reg e aUncorr).toNat = min ((reg s.dev aUncorr).toNat + bad) 0xFFFFFFFF ∧
        ((bucket s.dev n).state = 0 → bktFenced s.dev n = false → (bucket e n).level = min 4095 (min 4095 ((bucket s.dev n).level + corr) + 16 * bad) ∨ corr + bad = 0) ∧
        (bad ≠ 0 → Raised 0x0401 (0x20 + i / 1024 / 512) 2 (i / 1024) s.dev e))

/-- Each page of a retiring bank is copied in turn; held pages leave transit, and with page 127 the spare holds the bank (R88, R89). The
model's own choices in it: log entry 77. -/
def Obligations.BankCopyEndsAtTheLastPage : Prop :=
  ∀ (s : State) (b i : Nat), alive s.dev = true → flag s.dev copyActive = true → b = fld s.dev copySrc → i = fld s.dev copyDone →
    (i < 127 → Does (.bankPageCopied 0) s [.regs, .root, .trk] (fun e => fld e copyDone = i + 1 ∧
      e.trk = (if s.dev.trk.copyHeld.contains (b * 128 + i) then { s.dev.trk with
        books := bookMove s.dev.trk.books .transit .retired 1, copyHeld := s.dev.trk.copyHeld.erase (b * 128 + i) } else s.dev.trk) ∧ RegsBut [copyDone.addr, progA 8, progB 8] s.dev e)) ∧
    (i = 127 → Does (.bankPageCopied 0) s [.regs, .usb, .root, .trk, .flt] (fun e => flag e copyActive = false ∧
      Raised 0x0406 (0x20 + b / 4) 4 (b + fld s.dev copySpare * 256) s.dev e ∧ e.flt.running.get 0 0 = 0 ∧ fld e ⟨progA 8, 8, 2⟩ = 2 ∧
      (bucket e (96 + (s.dev.flt.running.get 0 0 - 1))).state = 2 ∧ e.trk.copyFree = [])) ∧
    (∀ bad, bad ≠ 0 → i < 127 → s.dev.trk.copyHeld.contains (b * 128 + i) = true →
      Does (.bankPageCopied bad) s [.regs, .usb, .root, .trk] (fun e => fld e copyDone = i + 1 ∧
        Raised 0x0401 (0x20 + b / 4) 2 (b * 128 + i) s.dev e ∧
        (reg e aUncorr).toNat = min ((reg s.dev aUncorr).toNat + bad) 0xFFFFFFFF))

/-- A read of LPDDR6 counts what its check finds: a corrected bit, an address error, any other error; the register pair holds the offset
of the last uncorrected one, and a task whose demand fetch read it is marked. Wind off, and the policy of the class off (R446, R447). The
model's own choices in it: log entries 49, 107. -/
def Obligations.Lp6ReadsCountTheirErrors : Prop :=
  ∀ (a : Nat) (s : State), alive s.dev = true → flag s.dev lp6Avail = true → a < 2 ^ 35 → flag s.dev wndEn = false →
    fld s.dev (polThresh 3) = 0 → fld s.dev (polRepeat 3) = 0 →
    Does (.lp6ReadDone a 0 false) s [] (fun _ => True) ∧
    Does (.lp6ReadDone a 1 false) s [.regs, .flt] (fun e =>
      (reg e aLp6Corr).toNat = min ((reg s.dev aLp6Corr).toNat + 1) 0xFFFFFFFF ∧ RegsBut [aLp6Corr, aErrTotal] s.dev e) ∧
    (∀ o : Fin 4, 2 ≤ o.val → Does (.lp6ReadDone a o false) s [.regs, .usb, .root, .stem, .flt] (fun e =>
      (lp6Readers s.dev a = [] → e.stem = s.dev.stem) ∧
      (∀ k t, k ∈ lp6Readers s.dev a → taskSt e k.1 k.2.1 k.2.2 = some t → t.flags.testBit fUncorr = true) ∧
      (reg e aLp6Uncorr).toNat = min ((reg s.dev aLp6Uncorr).toNat + 1) 0xFFFFFFFF ∧
      (reg e aLp6Addr).toNat = min ((reg s.dev aLp6Addr).toNat + if o = 2 then 1 else 0) 0xFFFFFFFF ∧
      fld e lp6ErrLo = a % 2 ^ 32 ∧ fld e lp6ErrHi = a / 2 ^ 32 ∧ fld e lp6ErrChan = lp6Serves s.dev a ∧
      Raised (if o = 2 then 0x0421 else 0x0420) (0x30 + lp6Serves s.dev a) 2 (a / 64 % 2 ^ 32) s.dev e)) ∧
    Does (.lp6ReadDone a 0 true) s [.regs, .flt] (fun e =>
      (reg e aLp6Retry).toNat = min ((reg s.dev aLp6Retry).toNat + 1) 0xFFFFFFFF ∧ RegsBut [aLp6Retry, aErrTotal] s.dev e)

/-- A refresh reports its temperature class; a granule copied moves the retirement of its channel on, its words read as any are, and the
last one ends it; LP6_AREA sets the seed area while nothing uses it (R443, R448, R450, R451). -/
def Obligations.Lp6RefreshCopyAndArea : Prop :=
  ∀ s : State, alive s.dev = true →
    (∀ (c : Fin 8) (t : Fin 16), Does (.lp6Refresh c t) s [.regs] (fun e => fld e (lp6Temp c.val) = t.val ∧
      (∀ q : Fin 8, q ≠ c → fld e (lp6Temp q.val) = fld s.dev (lp6Temp q.val)) ∧ RegsBut [(lp6Temp 0).addr] s.dev e)) ∧
    (flag s.dev lp6RetActive = true → fld s.dev lp6RetDone + 1 < lp6Blocks s.dev →
      ∀ words : List (Fin 256 × Fin 4), (∀ w, w ∈ words → w.2 = 1) → words = [] ∨ (fld s.dev (polThresh 3) = 0 ∧ fld s.dev (polRepeat 3) = 0) →
      Does (.lp6GranuleCopied words) s [.regs, .root, .flt] (fun e => fld e lp6RetDone = (fld s.dev lp6RetDone + 1) % 2 ^ 21 ∧
        (reg e aLp6Corr).toNat = min ((reg s.dev aLp6Corr).toNat + words.length) 0xFFFFFFFF ∧
        (words = [] → e.flt = s.dev.flt ∧ RegsBut [lp6RetDone.addr, progA 10, progB 10] s.dev e) ∧
        RegsBut [lp6RetDone.addr, progA 10, progB 10, aLp6Corr, aErrTotal] s.dev e)) ∧
    (flag s.dev lp6RetActive = true → lp6Blocks s.dev ≤ fld s.dev lp6RetDone + 1 →
      Does (.lp6GranuleCopied []) s [.regs, .usb, .root, .trk, .flt] (fun e => flag e lp6RetActive = false ∧
        (bucket e (164 + fld s.dev lp6RetChan)).state = 2 ∧ e.flt.running.get 0 1 = 0 ∧ e.trk = s.dev.trk ∧
        Raised 0x0423 (0x30 + fld s.dev lp6RetChan) 4 (fld s.dev lp6RetChan + min s.dev.trk.chanBad 0xFFFFFF * 256) s.dev e)) ∧
    (∀ v : Word, s.dev.root.packs = [] → hasGraft s.dev = false → fld s.dev graftSpace1 = 0 →
      Does (.lp6AreaWrite v) s [.regs] (fun e => RegsBut [lp6Seed.addr] s.dev e ∧
        fld e lp6Seed = min (max 1 (v.toNat % 256)) ((lp6Capacity s.dev * 7 / 8 - 0x2000000 - 1) / 0x4000000) % 256)) ∧
    (∀ v : Word, s.dev.root.packs ≠ [] ∨ hasGraft s.dev = true ∨ fld s.dev graftSpace1 ≠ 0 →
      Does (.lp6AreaWrite v) s [] (fun _ => True))

/-! ## Faults -/

/-- FENCE stops a unit and remembers that the host did it; UNFENCE lets such a unit rejoin at the next blanking. A unit that does not
exist, is absent on the grade, is retired or was not fenced by the host is refused by number (R485, R486). -/
def Obligations.HostFencesAndUnfencesUnits : Prop :=
  ∀ (u : Byte) (s : State), alive s.dev = true →
    (2 ≤ u.toNat → unitExists s.nv u.toNat = true → isRetired s.dev u.toNat = false → fenced s.dev u.toNat = false →
      Does (.fence u) s Part.engine (fun e => fenced e u.toNat = true ∧ e.flt.hostF = u.toNat :: s.dev.flt.hostF ∧
        fld e fltCmdErr = 0 ∧ fld e fltCmdUnit = u.toNat)) ∧
    (3 ≤ u.toNat → unitExists s.nv u.toNat = true → isRetired s.dev u.toNat = false → s.dev.flt.hostF.contains u.toNat = true →
      Does (.unfence u) s [.regs, .flt] (fun e => fld e fltCmdErr = 0 ∧ fld e fltCmdUnit = u.toNat ∧
        e.flt = { s.dev.flt with unfence := s.dev.flt.unfence.filter (· != u.toNat) ++ [u.toNat] })) ∧
    (∀ err, (err = 4 ∧ (u = 0x1E ∨ u = 0x1F) ∧ s.nv.gradeS = true) ∨
        (err = 1 ∧ (u.toNat ≤ 1 ∨ (unitExists s.nv u.toNat = false ∧ u ≠ 0x1E ∧ u ≠ 0x1F))) ∨
        (err = 3 ∧ 2 ≤ u.toNat ∧ unitExists s.nv u.toNat = true ∧ isRetired s.dev u.toNat = true) →
      Does (.fence u) s [.regs] (fun e => fld e fltCmdErr = err ∧ fld e fltCmdUnit = u.toNat ∧ RegsBut [fltCmdErr.addr] s.dev e) ∧
      ((err = 3 → u ≠ 2) → Does (.unfence u) s [.regs] (fun e => fld e fltCmdErr = err ∧ fld e fltCmdUnit = u.toNat ∧
        RegsBut [fltCmdErr.addr] s.dev e))) ∧
    (u = 2 → Does (.unfence u) s [.regs] (fun e => fld e fltCmdErr = 1 ∧ fld e fltCmdUnit = 2 ∧ RegsBut [fltCmdErr.addr] s.dev e)) ∧
    (3 ≤ u.toNat → unitExists s.nv u.toNat = true → isRetired s.dev u.toNat = false → s.dev.flt.hostF.contains u.toNat = false →
      Does (.unfence u) s [.regs] (fun e => fld e fltCmdErr = 2 ∧ fld e fltCmdUnit = u.toNat ∧ RegsBut [fltCmdErr.addr] s.dev e))

/-- RETIRE is a permanent error of the unit that it names: its bucket leaves service. A Twig with a good spare is replaced by it (R165,
R168, R486). The model's own choices in it: log entries 39, 106. -/
def Obligations.RetireTakesTheUnitOut : Prop :=
  ∀ (u : Byte) (sub : Fin 4) (twig : Bool) (n : Nat) (s : State), alive s.dev = true → (u ≠ 0x1E ∧ u ≠ 0x1F) ∨ s.nv.gradeS = false →
    (retireTarget s.dev u.toNat sub.val twig = some n → (bucket s.dev n).state = 0 → isRetired s.dev u.toNat = false →
      fenced s.dev u.toNat = false →
      Does (.retire u sub twig) s Part.engine (fun e => (bucket e n).state ≠ 0 ∧ fld e fltCmdErr = 0 ∧ fld e fltCmdUnit = u.toNat ∧
        (twig = true → fld s.dev (twigState (u.toNat - 0x10) 4) = 1 → fld e (twigState (u.toNat - 0x10) sub.val) = 4 ∧
          fld e (twigState (u.toNat - 0x10) 4) = 2 ∧ fld e (twigStands (u.toNat - 0x10) 4) = sub.val))) ∧
    (retireTarget s.dev u.toNat sub.val twig = some n → (bucket s.dev n).state = 1 ∨ (bucket s.dev n).state = 2 ∨ isRetired s.dev u.toNat = true →
      Does (.retire u sub twig) s [.regs] (fun e => fld e fltCmdErr = 3 ∧ fld e fltCmdUnit = u.toNat ∧ RegsBut [fltCmdErr.addr] s.dev e)) ∧
    (retireTarget s.dev u.toNat sub.val twig = some n → isRetired s.dev u.toNat = false → (bucket s.dev n).state = 0 →
      bktFenced s.dev n = true →
      Does (.retire u sub twig) s [.regs] (fun e => fld e fltCmdErr = 1 ∧ fld e fltCmdUnit = u.toNat ∧ RegsBut [fltCmdErr.addr] s.dev e)) ∧
    (retireTarget s.dev u.toNat sub.val twig = none →
      Does (.retire u sub twig) s [.regs] (fun e => fld e fltCmdErr = 1 ∧ fld e fltCmdUnit = u.toNat ∧ RegsBut [fltCmdErr.addr] s.dev e))

/-- A bucket leaks one unit when its time is up; a waiting retirement starts once none of its kind runs, that of an LPDDR6 channel by the
copy of its granules (R450, R480, R484). -/
def Obligations.BucketsLeakAndRetirementsStart : Prop :=
  ∀ s : State, alive s.dev = true →
    (∀ n b, b = bucket s.dev n → b.level ≠ 0 → b.state = 0 → fld s.dev (polLeak (bktClass n)) ≠ 0 →
      fld s.dev (polLeak (bktClass n)) * 10000000 ≤ s.dev.devTime.toNat - b.leakT →
      Does (.bucketLeak n) s [.flt] (fun e => e.flt = { s.dev.flt with bkt := e.flt.bkt } ∧ ∀ m, bucket e m = if m = n then
        { b with level := b.level - 1, leakT := b.leakT + fld s.dev (polLeak (bktClass n)) * 10000000 } else bucket s.dev m)) ∧
    (∀ (k : Fin 3) (n : Nat), s.dev.flt.running.get 0 k.val = 0 → s.dev.flt.waitQ.find? (fun w => w.1 == k.val) = some (k.val, n) →
      retireKind n = some k.val →
      Does (.retirementStart k) s Part.engine (fun e => e.flt.waitQ = s.dev.flt.waitQ.filter (· != (k.val, n)) ∧
        (bucket e n).state = (if k = 2 ∨ (160 ≤ n ∧ n < 164 ∧ flag s.dev (spareInUse (n - 160)) = false) then 2
          else if (k = 0 ∧ freeSpare s.dev = none) ∨ (k = 1 ∧ (flag s.dev lp6RetValid = true ∨ flag s.dev lp6RetActive = true)) then 3 else 1) ∧
        (∀ sp, k = 0 → n < 160 ∨ flag s.dev (spareInUse (n - 160)) = true → freeSpare s.dev = some sp → flag e copyActive = true ∧
          fld e copySpare = sp ∧ fld e copyDone = 0 ∧ e.flt.running.get 0 0 = n - 96 + 1) ∧
        (k = 1 → flag s.dev lp6RetValid = false → flag s.dev lp6RetActive = false → flag e lp6RetActive = true ∧
          fld e lp6RetChan = n - 164 ∧ fld e lp6RetDone = 0 ∧ e.flt.running.get 0 1 = n - 164 + 1)))

/-- A good flit that is next is delivered; a bad one makes the receiver wait for the resend and counts an attempt; an overdue
acknowledgement counts one too; the resend goes out when its delay is over. A flit for which the sender had no credit of the 16 is none
(R263, R478). The model's own choices in it: log entries 49, 94. -/
def Obligations.LinksDeliverFlitsInOrder : Prop :=
  ∀ (l : Fin 64) (x : Link) (s : State), alive s.dev = true → x = linkOf s.dev l.val → flag s.dev wndEn = false →
    (∀ (seq : Byte) (crc : BitVec 16) (pay : Bytes), x.heldF = none → x.naking = false → seq.toNat = x.nextRx →
      x.unacked.any (fun q => q.1 == seq.toNat) = true ∨ x.unacked.length < 16 →
      (crc16 (seq :: pay) = crc.toNat → Does (.flitReceived l seq crc pay) s [.flt] (fun e =>
        linkOf e l.val = { x with nextRx := (x.nextRx + 1) % 256, fails := 0, got := pay, unacked := x.unacked.filter (fun q => q.1 != seq.toNat) } ∧
        ∀ m, m ≠ l.val → linkOf e m = linkOf s.dev m)) ∧
      (crc16 (seq :: pay) ≠ crc.toNat → x.fails < 15 → Does (.flitReceived l seq crc pay) s Part.engine (fun e =>
        (linkOf e l.val).naking = true ∧ (linkOf e l.val).resend = true ∧ (linkOf e l.val).fails = x.fails + 1 ∧
        (linkOf e l.val).nextRx = x.nextRx ∧ (linkOf e l.val).got = x.got ∧
        (seq.toNat, pay) ∈ (linkOf e l.val).unacked))) ∧
    (∀ (seq : Byte) (crc : BitVec 16) (pay : Bytes), x.unacked.any (fun q => q.1 == seq.toNat) = false →
      16 ≤ x.unacked.length + (if x.heldF.isSome then 1 else 0) → Does (.flitReceived l seq crc pay) s [] (fun _ => True)) ∧
    (x.resend = false → x.unacked ≠ [] → x.fails < 15 → Does (.flitAckTimeout l) s Part.engine (fun e =>
      (linkOf e l.val).resend = true ∧ (linkOf e l.val).fails = x.fails + 1 ∧ (linkOf e l.val).unacked = x.unacked)) ∧
    (x.resend = true → Does (.flitResend l) s [.flt] (fun e => linkOf e l.val = { x with resend := false } ∧
      ∀ m, m ≠ l.val → linkOf e m = linkOf s.dev m))

/-- A write of ARM to a legal rule arms it with its counts at zero, to any other sets ERR; a write without ARM disarms it. LIMIT changes
only while the rule is not armed (R499, R501). The model's own choices in it: log entries 64, 72, 107. -/
def Obligations.WindRulesArm : Prop :=
  ∀ (r : Fin 8) (v : Word) (s : State), alive s.dev = true →
    (bits v.toNat 16 1 = 1 → flag s.dev (wndArm r.val) = false → windLegal s.nv s.dev r.val = true → fenced s.dev 0x42 = false →
      Does (.windRuleArm r v) s [.regs, .flt] (fun e => flag e (wndArm r.val) = true ∧ flag e (wndErr r.val) = false ∧
        fld e (wndLimit r.val) = v.toNat % 65536 ∧ RegsBut [wndBase r.val + 0x10] s.dev e ∧
        e.flt = { s.dev.flt with wind := e.flt.wind } ∧
        e.flt.wind.get { seen := 0, fired := 0, armT := 0 } r.val = { seen := 0, fired := 0, armT := s.dev.devTime.toNat })) ∧
    (bits v.toNat 16 1 = 1 → flag s.dev (wndArm r.val) = false → windLegal s.nv s.dev r.val = false ∨ fenced s.dev 0x42 = true →
      Does (.windRuleArm r v) s [.regs] (fun e => flag e (wndArm r.val) = false ∧ flag e (wndErr r.val) = true ∧
        fld e (wndLimit r.val) = v.toNat % 65536 ∧ RegsBut [wndBase r.val + 0x10] s.dev e)) ∧
    (bits v.toNat 16 1 = 1 → flag s.dev (wndArm r.val) = true → Does (.windRuleArm r v) s [] (fun _ => True)) ∧
    (bits v.toNat 16 1 = 0 → Does (.windRuleArm r v) s [.regs] (fun e => flag e (wndArm r.val) = false ∧
      fld e (wndErr r.val) = fld s.dev (wndErr r.val) ∧
      fld e (wndLimit r.val) = (if flag s.dev (wndArm r.val) then fld s.dev (wndLimit r.val) else v.toNat % 65536) ∧
      RegsBut [wndBase r.val + 0x10] s.dev e)) ∧
    (∀ (n : Nat) (c : Completion) (l : List Completion), flag s.dev wndEn = true → fenced s.dev 0x42 = false → linkUpHost s.dev = true →
      s.dev.usb.ep1in = c :: l → s.dev.root.fwTag ≠ some (s.dev.usb.gen * 65536 + c.tag) → windMatch s.dev r.val 4 0 1 0 = true →
      (∀ q, q < 8 → q ≠ r.val → flag s.dev (wndArm q) = false) →
      n = (s.dev.flt.wind.get { seen := 0, fired := 0, armT := 0 } r.val).fired + 1 →
      Does .completionTaken s [.regs, .usb, .root, .flt] (fun e => e.usb.ep1in = l ∧
        (reg e (aWndHits r.val)).toNat = min ((reg s.dev (aWndHits r.val)).toNat + 1) 0xFFFFFFFF ∧
        (e.flt.wind.get { seen := 0, fired := 0, armT := 0 } r.val).fired = n ∧
        (fld s.dev (wndLimit r.val) ≠ 0 → fld s.dev (wndLimit r.val) ≤ n →
          flag e (wndArm r.val) = false ∧ Raised 0x0807 0x42 0 r.val s.dev e) ∧
        (fld s.dev (wndLimit r.val) = 0 ∨ n < fld s.dev (wndLimit r.val) → flag e (wndArm r.val) = true ∧ e.root = s.dev.root)))
/-! ## Requests of the host -/

/-- The commands that announce a transfer of EP2 OUT: each is refused with the first status that applies, in the order given, or announces
its bytes and completes later. In recovery FW_UPDATE is served (R286, R331, R335, R383, R463 to R468). The model's own choices in it: log
entries 14, 35, 36, 48, 68. -/
def Obligations.TransfersAreAnnounced : Prop :=
  (∀ (h : Hdr) (n : Nat) (s : State), Ready s.dev h 1 0x10 → h.length = 8 →
    Takes (.graftLoad h n) s h
      (if fld s.dev graftSpace1 ≠ 0 ∨ s.dev.root.apply.isSome = true then stBusy else if n = 0 ∨ 0x1000000 < n then stBadArg
        else if flag s.dev lp6Avail = false then stNoResource else stOk) [.regs, .usb, .root]
      (fun e => Announced h .graft n s.dev e ∧ fld e graftSpace1 = 1 ∧ e.root.loadTag = some (tagKey s.dev h.tag) ∧
        RegsBut [graftSpace1.addr, progA 1, progB 1] s.dev e) ∧
    Takes (.seedStage h n) s h
      (if s.dev.usb.xfers.any isSeedXfer = true then stBusy else if ¬ (224 ≤ n ∧ n ≤ 160 + 0x40000000 ∧ n % 64 = 32) then stBadArg
        else if flag s.dev lp6Avail = false then stNoResource else stOk) [.regs, .usb, .root]
      (fun e => Announced h .seed n s.dev e ∧ RegsBut [progA 3, progB 3] s.dev e) ∧
    Takes (.fwUpdate h n) s h
      (if fenced s.dev 3 = true then stFenced else if n < 352 ∨ 4194592 < n then stBadArg
        else if s.dev.usb.xfers.any (fun x => isFwXfer x || isRestoreXfer x) = true then stBusy else stOk) [.regs, .usb, .root]
      (fun e => Announced h .firmware n s.dev e ∧ RegsBut [progA 6, progB 6] s.dev e) ∧
    Takes (.intControl h n) s h (if n ≠ 160 then stBadArg else if controlBusy s.dev = true then stBusy else stOk) [.usb]
      (Announced h .intControl n s.dev) ∧
    (fenced s.dev 0x3A = true → Does (.barkCommand h n) s [.usb] (Answered h stFenced [] s.dev)) ∧
    (∀ st, fenced s.dev 0x3A = false →
      st = (if n < 160 ∨ 524448 < n then stBadArg else if s.dev.cnp.barkPend.isSome = true then stBusy else stOk) →
      (st = stOk → Does (.barkCommand h n) s [.usb] (Announced h .bark n s.dev)) ∧
      (st ≠ stOk → Does (.barkCommand h n) s [.regs, .usb, .root] (fun e => Queued [answer h st []] s.dev e ∧
        Raised 0x0704 0x3A 0 st s.dev e ∧ RegsBut [aEvtLost] s.dev e)))) ∧
  (∀ (h : Hdr) (op slot n : Nat) (s : State), Ready s.dev h 1 0x10 → h.length = 12 →
    Takes (.restore h op slot n) s h
      (if fenced s.dev 3 = true then stFenced
        else if ¬ ((op = 1 ∧ slot < 4 ∧ n = 97) ∨ (op = 2 ∧ slot = 0 ∧ 1 ≤ n ∧ n ≤ 8192)) then stBadArg
        else if s.dev.usb.xfers.any isFwXfer = true then stBusy else stOk) [.usb] (Announced h (.restore op slot) n s.dev)) ∧
  (∀ (h : Hdr) (c off n : Nat) (s : State), Ready s.dev h 1 0x10 → h.length = 16 →
    Takes (.ispParams h c off n) s h
      (if fenced s.dev 0x3F = true ∨ ctxDisabled s.dev c = true then stFenced
        else if (ctxOff (img0 s.dev) c).isNone = true ∨ paramBytes < off + n then stBadArg
        else if (s.dev.cam.pend.get none c).isSome = true then stBusy else stOk) [.regs, .usb, .cam]
      (fun e => (n ≠ 0 → Announced h (.isp c off) n s.dev e) ∧ (n = 0 → e.usb = { s.dev.usb with tags := e.usb.tags }) ∧
        e.cam = { s.dev.cam with pend := e.cam.pend } ∧
        e.cam.pend.get none c = some (tagKey s.dev h.tag, if n = 0 then some (ctxParams s.dev c) else none) ∧ flag e (cxParamPend c) = true ∧ RegsBut [(cxParamPend c).addr] s.dev e)) ∧
  (∀ (h : Hdr) (l b off n : Nat) (s : State), Ready s.dev h 1 0x10 → h.length = 16 →
    Takes (.layerWrite h l b off n) s h
      (if fenced s.dev 0x3A = true then stFenced
        else if 8 ≤ l ∨ fld s.dev (cnpOwner l) ≠ 4 ∨ 3 ≤ b ∨ flag s.dev (cnpBufValid l b) = false ∨ bufBytes s.dev l b < off + n then stBadArg
        else if (flag s.dev (cnpStateEn l) = true ∧ fld s.dev (cnpStateBuf l) = b) ∨
          s.dev.cnp.groups.any (fun g => g.snap.any (fun e => e.1 == l && (layerSt e.2).buf == b)) = true then stBusy else stOk)
      [.regs, .usb, .root, .ras]
      (fun e => (n = 0 → Queued [answer h stOk []] s.dev e) ∧
        (n ≠ 0 → e.usb.xfers = s.dev.usb.xfers ++ [⟨tagKey s.dev h.tag, .layer l b off, n, 0, [],
          s.dev.devTime.toNat, false⟩] ∧ Queued [] s.dev e) ∧
        (fld s.dev prState = 0 → Only [.usb] s.dev e) ∧ (fld s.dev prState = 2 → fld e prState = 3))) ∧
  (∀ (h : Hdr) (n : Nat) (s : State), alive s.dev = true → linkUpHost s.dev = true → inRecovery s.dev = true → s.dev.usb.tags = [] →
    s.dev.usb.starting = none → h.zerosOk = true → h.addr = 0 → h.endpoint = 1 → h.length = 8 → fenced s.dev 3 = false → 352 ≤ n →
    n ≤ 4194592 → s.dev.usb.xfers = [] → Does (.fwUpdate h n) s [.regs, .usb, .root] (Announced h .firmware n s.dev))

/-- GRAFT_APPLY prepares space 1 or is refused; the end of preparation and GRAFT_UNLOAD fix frame K; GRAFT_ABORT empties space 1 and
answers what was pending BUSY; the release deadline ends an outgoing Graft (R286, R290, R294, R295). The model's own choices in it: log
entries 8, 14, 68, 97. -/
def Obligations.GraftIsPreparedAndReleased : Prop :=
  (∀ (h : Hdr) (k : Word) (flags : Byte) (s : State), Ready s.dev h 1 0x10 → h.length = 9 → flags.toNat ≤ 1 →
    (fld s.dev graftSpace1 ≠ 3 → Does (.graftApply h k flags) s [.usb] (Answered h stBusy [] s.dev)) ∧
    (∀ m, fld s.dev graftSpace1 = 3 → m = progStart (setFld (replayExit 3 (addTag s.dev h 1 false)) graftSpace1 4) 2 0 (prepPages s.dev) →
      (∀ r sp, prepAll m = some r → placeSpill m (gSpill (img1 s.dev) + seedExtra (img1 s.dev) (nSeeds (img1 s.dev))) = some sp →
        Does (.graftApply h k flags) s [.regs, .usb, .root, .trk, .ras] (fun e => fld e graftSpace1 = 4 ∧
          e.trk = { r.trk with spill1 := sp } ∧ Queued [] s.dev e ∧ e.root.apply =
            some { tag := tagKey s.dev h.tag, k := k.toNat, earliest := flags.toNat == 1, unload := false, ready := false })) ∧
      (prepAll m = none ∨ placeSpill m (gSpill (img1 s.dev) + seedExtra (img1 s.dev) (nSeeds (img1 s.dev))) = none →
        Does (.graftApply h k flags) s [.regs, .usb, .root, .ras] (fun e => fld e graftSpace1 = 3 ∧ e.root.apply = s.dev.root.apply ∧
          Queued [answer h stNoResource []] s.dev e))) ∧
    Takes (.graftUnload h k flags) s h
      (if hasGraft s.dev = false then stBadArg else if fld s.dev graftSpace1 ≠ 0 ∨ s.dev.root.apply.isSome = true then stBusy else stOk)
      [.regs, .usb, .root, .ras] (fun e => Queued [] s.dev e ∧ (fld s.dev prState = 0 → Only [.usb, .root] s.dev e) ∧
        ∃ a, e.root.apply = some a ∧ a.tag = tagKey s.dev h.tag ∧ a.k = applyFrame s.dev k.toNat (flags.toNat == 1) ∧
          a.unload = true ∧ a.ready = true)) ∧
  (∀ (a : PendingApply) (s : State), alive s.dev = true → s.dev.root.apply = some a →
    (a.ready = false → Does .graftPreparationDone s [.regs, .root, .trk, .mem] (fun e =>
      e.root.apply = some { a with k := applyFrame s.dev a.k a.earliest, ready := true } ∧
      (nSeeds (img1 s.dev) = 0 → Only [.regs, .root] s.dev e ∧ RegsBut [progA 2, progB 2] s.dev e))) ∧
    (a.ready = true → Does .graftPreparationDone s [] (fun _ => True))) ∧
  (∀ (h : Hdr) (s : State), Ready s.dev h 1 0x10 → h.length = 4 →
    (fld s.dev graftSpace1 = 5 → Does (.graftAbort h) s [.usb] (Answered h stBusy [] s.dev)) ∧
    (fld s.dev graftSpace1 ≠ 5 → s.dev.root.loadTag = none → (∀ a, s.dev.root.apply = some a → a.unload = true) →
      Does (.graftAbort h) s (touches (.graftAbort h)) (fun e => e.root.space1 = none ∧ fld e graftSpace1 = 0 ∧
        e.root.apply = s.dev.root.apply ∧ Queued [answer h stOk []] s.dev e ∧ ((∀ f, f ∈ s.dev.cam.frames → f.out = false) →
          Answered h stOk [] s.dev e ∧ Only [.regs, .usb, .ring, .root, .trk, .cam] s.dev e))) ∧
    (∀ t r, fld s.dev graftSpace1 ≠ 5 → s.dev.usb.tags.find? (fun x => x.tag == t && !x.done) = some r →
      (s.dev.root.loadTag = some t ∧ s.dev.root.apply = none) ∨
        (s.dev.root.loadTag = none ∧ ∃ a, s.dev.root.apply = some a ∧ a.unload = false ∧ a.tag = t) →
      Does (.graftAbort h) s (touches (.graftAbort h)) (fun e => e.root.space1 = none ∧ fld e graftSpace1 = 0 ∧
        e.root.loadTag = none ∧ e.root.apply = none ∧
        Queued [{ tag := t % 65536, addr := r.addr, status := stBusy, payload := [] }, answer h stOk []] s.dev e))) ∧
  (∀ s : State, alive s.dev = true →
    (fld s.dev graftSpace1 = 5 → 2 ≤ s.dev.root.outAge → Does .graftReleaseDeadline s
      [.regs, .usb, .ring, .root, .stem, .trk, .mem, .cam, .flt, .br, .cells] (fun e => e.root.space1 = none)) ∧
    (fld s.dev graftSpace1 ≠ 5 ∨ s.dev.root.outAge < 2 → Does .graftReleaseDeadline s [] (fun _ => True)))

/-- READMIT, SEED_DROP, LAYER_FLIP, WB_START, WB_STOP and METADATA: each is refused with the first status that applies, or waits or acts
(R59, R282, R329, R338, R339, R434). The model's own choices in it: log entry 68. -/
def Obligations.HostActsOnGraftLayersAndData : Prop :=
  (∀ (h : Hdr) (p : Nat) (s : State), Ready s.dev h 1 0x10 → h.length = 5 →
    Takes (.readmit h p) s h (if 4 ≤ p ∨ fld s.dev (admitState p) ≠ 3 then stBadArg else stOk) [.usb, .root]
      (fun e => e.usb = (addTag s.dev h 1 false).usb ∧ e.root = { s.dev.root with readmits := s.dev.root.readmits ++ [⟨tagKey s.dev h.tag, p⟩] })) ∧
  (∀ (h : Hdr) (hash : Bytes) (s : State), Ready s.dev h 1 0x10 → h.length = 52 → hash.length = 48 →
    Takes (.seedDrop h hash) s h
      (if s.dev.root.packs.any (fun p => p.hash == hash) = false then stBadArg else if packHeld s.dev hash = true then stBusy else stOk)
      [.regs, .usb, .root] (fun e => Answered h stOk [] s.dev e ∧ RegsBut [seedCount.addr] s.dev e ∧
        e.root = { s.dev.root with packs := s.dev.root.packs.filter (fun p => p.hash != hash) } ∧
        fld e seedCount = e.root.packs.length % 128)) ∧
  (∀ (h : Hdr) (mask t : Byte) (ring : BitVec 16) (v : Word) (ls : List Nat) (s : State), Ready s.dev h 1 0x10 → h.length = 13 →
    ls = (List.range 8).filter (fun l => mask.toNat.testBit l) →
    Takes (.layerFlip h mask ring v t) s h
      (if fenced s.dev 0x3A = true then stFenced
        else if ls = [] ∨ (∃ l ∈ ls, fld s.dev (cnpOwner l) ≠ 4) ∨ fenceRingOk s.dev ring.toNat = false then stBadArg
        else if ∃ l ∈ ls, snapOk s.dev l (layerShadow s.dev l) = false then stBadArg
        else if 4 ≤ s.dev.cnp.groups.length then stBusy else stOk) [.regs, .usb, .root, .ras, .cnp]
      (fun e => Queued [] s.dev e ∧ (∃ g, e.cnp = { s.dev.cnp with groups := s.dev.cnp.groups ++ [g] } ∧
          g.tag = tagKey s.dev h.tag ∧ g.mask = mask.toNat ∧ g.ring = ring.toNat ∧ g.value = v.toNat ∧ g.timeout = t.toNat ∧ g.tries = 0 ∧
          g.snap = ls.map (fun l => (l, layerShadow s.dev l))) ∧ (fld s.dev prState = 0 → Only [.regs, .usb, .cnp] s.dev e))) ∧
  (∀ (h : Hdr) (point fmt n : Nat) (s : State), Ready s.dev h 1 0x10 → h.length = 12 →
    (fenced s.dev 0x3A = true ∨ flag s.dev (hdcpProt 0) = false → Takes (.wbStart h point fmt n) s h
      (if fenced s.dev 0x3A = true then stFenced
        else if cnpWbTensor (img0 s.dev) = 0xFFFF ∨ hasGraft s.dev = false ∨ 2 < point ∨ 1 < fmt then stBadArg
        else if flag s.dev wbActive = true then stBusy else stOk) [.regs, .usb, .cnp]
      (fun e => Answered h stOk [] s.dev e ∧ flag e wbActive = true ∧ fld e wbPoint = point ∧ fld e wbFmt = fmt ∧
        e.cnp = { s.dev.cnp with
          wbLeft := if n = 0 then none else some n, wbFrame := none, wbHeld := false, wbDrop := 0, wbDone := 0, wbStop := [] })) ∧
    (fenced s.dev 0x3A = false → cnpWbTensor (img0 s.dev) ≠ 0xFFFF → hasGraft s.dev = true → point ≤ 2 → fmt ≤ 1 →
      flag s.dev wbActive = false → flag s.dev (hdcpProt 0) = true → Does (.wbStart h point fmt n) s [.regs, .usb, .root] (fun e =>
        Queued [answer h stProtected []] s.dev e ∧ Raised 0x0702 0x3A 0 (ofn s.dev) s.dev e ∧ RegsBut [aEvtLost] s.dev e))) ∧
  (∀ (h : Hdr) (s : State), Ready s.dev h 1 0x10 → h.length = 4 →
    (fenced s.dev 0x3A = true → Does (.wbStop h) s [.usb] (Answered h stFenced [] s.dev)) ∧
    (fenced s.dev 0x3A = false → flag s.dev wbActive = false → Does (.wbStop h) s [.usb] (Answered h stOk [] s.dev)) ∧
    (fenced s.dev 0x3A = false → flag s.dev wbActive = true → s.dev.cnp.wbFrame = none → Does (.wbStop h) s [.regs, .usb] (fun e =>
      Answered h stOk [] s.dev e ∧ flag e wbActive = false ∧ RegsBut [wbActive.addr] s.dev e)) ∧
    (fenced s.dev 0x3A = false → flag s.dev wbActive = true → s.dev.cnp.wbFrame ≠ none → Does (.wbStop h) s [.usb, .cnp] (fun e =>
      e.usb = (addTag s.dev h 1 false).usb ∧ e.cnp = { s.dev.cnp with wbStop := s.dev.cnp.wbStop ++ [tagKey s.dev h.tag] }))) ∧
  (∀ (h : Hdr) (ifn : Word) (p t : Nat) (r : BitVec 16) (items : Bytes) (s : State), Ready s.dev h 0 0x18 →
    h.length = 16 + items.length → items.length ≤ 4032 →
    (hasGraft s.dev = false ∨ 2 ≤ p ∨ metaTensor (img0 s.dev) t = false ∨ (∀ y, ringDecl (img0 s.dev) r.toNat = some y → y.host = false) →
      Does (.metadata h ifn p t r items) s [.usb] (Answered h stBadArg [] s.dev)) ∧
    (∀ x : RingDecl, hasGraft s.dev = true → p ≤ 1 → metaTensor (img0 s.dev) t = true → ringDecl (img0 s.dev) r.toNat = some x → x.host = true →
      Does (.metadata h ifn p t r items) s [.regs, .usb, .ring, .root, .trk, .mem] (fun e => Answered h stOk [] s.dev e ∧
        (∀ q, ringVal e q = if q = r.toNat then (ringVal s.dev q + 1) % 2 ^ 32 else ringVal s.dev q) ∧
        ∀ a v o, a = tAddr (img0 s.dev) t (ringVal s.dev r.toNat % tSlots (img0 s.dev) t) 0 0 0 → partsOf a 4096 = [(v, o, 4096)] →
          (pageAt s.dev 0 v).loc = 1 → fenced s.dev (0x20 + (pageAt s.dev 0 v).lpn / 512) = false → o % 64 = 0 →
          readMem e (lpnAddr (pageAt s.dev 0 v).lpn o) 4096 = metaSlot ifn p items s.dev.devTime.toNat ∧
          ∀ j, j < lpnAddr (pageAt s.dev 0 v).lpn o ∨ lpnAddr (pageAt s.dev 0 v).lpn o + 4096 ≤ j → readMem e j 1 = readMem s.dev j 1)))

/-- A write of a history tensor's number to STEM_HIST_INV, or HIST_INVALIDATE of it, empties its valid-Ring at once while no frame of its
writer is open, and waits for that frame otherwise; any other number does nothing, or is BAD_ARG (R260, R261, R265). The model's own
choices in it: log entry 68. -/
def Obligations.HistoryIsInvalidated : Prop :=
  ∀ (c : Instr) (t : Nat) (s : State) (b : Bytes), b = img0 s.dev →
    (alive s.dev = true ∧ ∃ v, c = .stemHistInvWrite v ∧ t = v.toNat % 65536) ∨
      (∃ h, c = .histInvalidate h t ∧ Ready s.dev h 1 0x10 ∧ h.length = 6) →
    (isHistory s.dev t = true → (∀ k, writerOf b t = some k → s.dev.stem.frames.any (fun f => f.pipe == kPipe b k && !f.out) = false) →
      Does c s [.regs, .usb, .ring, .root, .stem, .trk, .mem] (fun e => ringVal e (tValid b t) = 0 ∧
        (s.dev.stem.histReq = [] → e.stem.histReq = [] ∧ (∀ r, r ≠ tValid b t → ringVal e r = ringVal s.dev r) ∧
          Raised 0x0204 (4 + pStem b (tPipe b t)) 0 (t + 3 * 65536) s.dev e))) ∧
    (∀ k, isHistory s.dev t = true → writerOf b t = some k → s.dev.stem.frames.any (fun f => f.pipe == kPipe b k && !f.out) = true →
      Does c s [.regs, .usb, .ring, .root, .stem, .trk, .mem] (fun e => (∀ f, s.dev.stem.frames.find? (fun f => f.pipe == kPipe b k && !f.out) = some f →
          ({ out := false, tensor := t, cause := 3, pfn := some f.pfn } : HistReq) ∈ e.stem.histReq) ∧
        (s.dev.stem.histReq = [] → Only [.usb, .stem] s.dev e))) ∧
    (∀ v, isHistory s.dev t = false → c = .stemHistInvWrite v → Does c s [] (fun _ => True)) ∧
    (∀ h, isHistory s.dev t = false → c = .histInvalidate h t → Does c s [.usb] (Answered h stBadArg [] s.dev)) ∧
    (∀ h, isHistory s.dev t = true → c = .histInvalidate h t → Does c s [.regs, .usb, .ring, .root, .stem, .trk, .mem]
      (Queued [answer h stOk []] s.dev))

/-- PROVISION blows the fuses and writes the flash that its operation names, or is refused; CERT_READ answers a certificate; ATTEST takes
the report's fields at once and answers them with a signature later (R466, R469 to R471). The signature is a free value: log entry 5.
Further choices of the model in it: log entries 17, 68. -/
def Obligations.SecurityRequestsAnswer : Prop :=
  (∀ (h : Hdr) (op slot : Nat) (bs : Bytes) (s : State), Ready s.dev h 1 0x10 →
    h.length = (if op = 1 then 105 else if op = 2 then 12 else 8) →
    (provisionOk s.nv op slot bs = true → ¬ (op = 1 ∧ fenced s.dev 3 = true) →
      ∃ t, exec (.provision h op slot bs) s = .next t ∧ t.pending = s.pending ∧ Only [.regs, .usb] s.dev t.dev ∧
        Answered h stOk [] s.dev t.dev ∧ t.nv = provisionFuse op slot bs s.nv ∧ (op = 1 → flag t.dev (keyLoadedFld slot) = true ∧
          slotState t.nv slot = 1 ∧ t.nv.keyHash.get 0 slot = ofBe (sha384 bs) ∧ RegsBut [(keyLoadedFld slot).addr] s.dev t.dev) ∧
        (op = 2 → t.nv.usbWord = some (ofLe bs)) ∧ (op = 3 → t.nv.lifecycle = 2) ∧ (op ≠ 1 → t.dev.regs = s.dev.regs)) ∧
    (op = 1 → fenced s.dev 3 = true → Does (.provision h op slot bs) s [.usb] (Answered h stFenced [] s.dev)) ∧
    (provisionOk s.nv op slot bs = false → ¬ (op = 1 ∧ fenced s.dev 3 = true) →
      Does (.provision h op slot bs) s [.usb] (Answered h stBadArg [] s.dev))) ∧
  (∀ (h : Hdr) (i : Nat) (s : State), Ready s.dev h 1 0x10 → h.length = 5 →
    (i ≤ 2 → flag s.dev bootCertOk = true → Does (.certRead h i) s [.usb] (Answered h stOk (chainCert (chainOf s.nv) i) s.dev)) ∧
    (2 < i ∨ flag s.dev bootCertOk = false → Does (.certRead h i) s [.usb] (Answered h stBadArg [] s.dev))) ∧
  (∀ (h : Hdr) (nonce : Bytes) (s : State), Ready s.dev h 1 0x10 → h.length = 36 → nonce.length = 32 →
    Takes (.attest h nonce) s h (if s.dev.root.attest.isSome = true then stBusy else stOk) [.regs, .usb, .root]
      (fun e => e.usb = (addTag s.dev h 1 false).usb ∧ e.root.attest = some (tagKey s.dev h.tag, reportBytes s.nv s.dev nonce) ∧
        RegsBut [progA 11, progB 11] s.dev e)) ∧
  (∀ s : State, alive s.dev = true →
    (∀ (k : Nat) (r : Bytes) (t : TagRec), s.dev.root.attest = some (k, r) → s.dev.usb.tags.find? (fun t => t.tag == k && !t.done) = some t →
      Does .attestReportSigned s [.regs, .usb, .root, .free] (fun e => e.root.attest = none ∧ RegsBut [progA 11, progB 11] s.dev e ∧
        ∃ sig : Bytes, sig.length = 96 ∧ Queued [{ tag := k % 65536, addr := t.addr, status := stOk, payload := r ++ sig }] s.dev e)) ∧
    (s.dev.root.attest = none → Does .attestReportSigned s [] (fun _ => True)))

/-! ## The raster -/

/-- LINE_MATCH is raised once at the start of the line period at position POS of a frame while EN is 1, to the Root controller and the
output Stem; a POS at or beyond the frame's VTOTAL never matches (R353). -/
def Obligations.LineMatchIsRaisedAtItsPosition : Prop :=
  ∀ s : State, alive s.dev = true →
    (s.dev.ras.running = true → flag s.dev lmEn = true → fld s.dev lmPos = pos s.dev → s.dev.ras.lmDone = false →
      Does .lineMatch s [.root, .stem, .ras] (fun e => e.ras = { s.dev.ras with lmDone := true } ∧
        Raised 0x0102 0x3B 0 (pos s.dev + ofn s.dev % 65536 * 65536) s.dev e ∧
        ∀ x, outputStem s.dev (ofn s.dev) = some x → e.stem.ev.get none x = e.root.lastEv)) ∧
    (s.dev.ras.running = false ∨ flag s.dev lmEn = false ∨ fld s.dev lmPos ≠ pos s.dev ∨ s.dev.ras.lmDone = true →
      Does .lineMatch s [] (fun _ => True)) ∧
    (pos s.dev < s.dev.ras.vtotal → s.dev.ras.vtotal ≤ fld s.dev lmPos → Does .lineMatch s [] (fun _ => True))

/-- Lines are scanned; the start of blanking sets the phase, takes a pending set that is legal and signals Ring 0x0010; position 0 of the
next frame begins and latches the base of Ring 0x0011 (R243, R345, R351, Table Output-4). The model's own choices in it: log entries 29,
30, 73, 75, 95, 99, 103. -/
def Obligations.RasterScansItsFrames : Prop :=
  ∀ s : State, alive s.dev = true →
    (s.dev.ras.running = true → pos s.dev < vactive s.dev → Does .lineScanned s [.regs, .ring, .ras] (fun e =>
      fld e dsoPos = (pos s.dev + 1) % 8192 ∧ RegsBut [dsoPos.addr] s.dev e ∧ e.ras = { s.dev.ras with lmDone := false, sent := e.ras.sent } ∧
      (pos s.dev + 1 < vactive s.dev → s.dev.ras.readOfn = ofn s.dev → s.dev.ras.read = pos s.dev + 2 →
        ∀ p, p < 2 → e.ras.sent.get [] p = portLine s.dev p s.dev.ras.line) ∧
      ∀ r, ringVal e r = if r = 0x11 then (ringVal s.dev r + 1) % 2 ^ 32 else ringVal s.dev r)) ∧
    (s.dev.ras.running = false ∨ vactive s.dev ≤ pos s.dev → Does .lineScanned s [] (fun _ => True)) ∧
    (s.dev.ras.running = true → pos s.dev = vactive s.dev → s.dev.ras.blank = false →
      Does .startOfBlanking s [.regs, .live, .usb, .ring, .root, .stem, .trk, .mem, .ras, .cnp, .inp, .flt] (fun e =>
        e.ras.blank = true ∧ e.ras.phase = 0 ∧ e.flt.unfence = [] ∧
        (isReplay s.dev (ofn s.dev) = true ∨ flag s.dev dsoPending = false → e.ras.newSet = s.dev.ras.newSet) ∧
        (isReplay s.dev (ofn s.dev) = false → flag s.dev dsoPending = true → setError s.nv s.dev (takeSet s.dev) = 0 →
          e.ras.newSet = some (takeSet s.dev)) ∧
        (fld s.dev prState = 0 → s.dev.cnp.groups = [] → s.dev.root.flipK = none → s.dev.cnp.uiPend = none → s.dev.cnp.barkPend = none →
          (∀ l, l < 8 → 4 ≤ fld s.dev (cnpOwner l)) →
          ∀ r, ringVal e r = if r = 0x10 then (ringVal s.dev r + 1) % 2 ^ 32 else ringVal s.dev r))) ∧
    (s.dev.ras.running = false ∨ pos s.dev ≠ vactive s.dev ∨ s.dev.ras.blank = true → Does .startOfBlanking s [] (fun _ => True)) ∧
    (s.dev.ras.running = true → s.dev.ras.blank = true → pos s.dev + 1 = s.dev.ras.vtotal →
      Does .outputFrameStart s (touches .outputFrameStart)
        (fun e => e.ras.blank = false ∧ e.clk.lastPos0 = s.dev.devTime.toNat ∧
          (hasGraft s.dev = false → s.dev.root.apply = none → s.dev.ras.newSet = none → s.dev.ras.entered = false →
            s.dev.ras.prExit = none → fld s.dev grvRole = 0 →
            ofn e = add32 (ofn s.dev) 1 ∧ pos e = 0 ∧ fld e dsoVtLast = s.dev.ras.vtotal % 8192 ∧ e.ras.lmDone = false ∧
            (e.ring.base.get [] 0x11).head? = some (add32 (ofn s.dev) 1, ringVal s.dev 0x11)))) ∧
    (s.dev.ras.running = false ∨ s.dev.ras.blank = false ∨ pos s.dev + 1 ≠ s.dev.ras.vtotal → Does .outputFrameStart s [] (fun _ => True))

/-- The Understory fills its ring; each tile row is judged once, tile by tile; segments count in their tile or are late; a line is read
from the picture plane (R39 to R52, R318). The model's own choices in it: log entries 5, 8, 60, 91, 93, 101. -/
def Obligations.PictureIsJudgedAndRead : Prop :=
  (∀ (n y : Nat) (s : State), alive s.dev = true → s.dev.ras.running = true → fld s.dev prState ≤ 1 → fenced s.dev 0x40 = false →
    undDue s.dev = some (n, y) → (outFrame s.dev n).und.get 0 y = 0 →
    Does (.understoryLineProduce []) s [.regs, .ring, .trk, .mem, .ras] (fun e =>
      (∀ r, ringVal e r = if r = 0x12 then (ringVal s.dev r + 1) % 2 ^ 32 else ringVal s.dev r) ∧
      ((outFrame e n).und.get 0 y = 1 ∨ (outFrame e n).und.get 0 y = 2) ∧
      (e.ras.undIfn = none → (outFrame e n).und.get 0 y = 2 ∧ (outFrame e n).fill = (outFrame s.dev n).fill + 1 ∧
        readMem e (undAddr (panelOf s.dev n).1 y) (4 * (panelOf s.dev n).1) =
          (List.replicate (panelOf s.dev n).1 (fillWord s.dev)).flatMap (le 4)) ∧
      ∀ j, j < undAddr (panelOf s.dev n).1 y ∨ undAddr (panelOf s.dev n).1 y + 4 * (panelOf s.dev n).1 ≤ j →
        readMem e j 1 = readMem s.dev j 1)) ∧
  (∀ (k n w : Nat) (f : OutFrame) (bad : List Nat) (strict : Bool) (s : State), alive s.dev = true → judgeDue s.dev k = some n →
    f = outFrame s.dev n → w = (if f.judged = [] then writerNow s.dev n else f.writer) → bad = incompleteTiles s.dev n k →
    strict = judgedStrict s.dev n w →
    Does (.tileRowJudge k) s [.regs, .usb, .root, .mem, .ras] (fun e => (outFrame e n).writer = w ∧
      (outFrame e n).judged.get 0 k = (if w = 15 ∨ f.ovr = true then 3 else if strict = true ∧ bad = [] then 2 else 1) ∧
      (∀ j, j ≠ k → (outFrame e n).judged.get 0 j = f.judged.get 0 j) ∧
      (w ≠ 15 → f.ovr = false → fenced s.dev 0x40 = false →
        (∀ c, c < tileCols (panelOf s.dev n).1 → (outFrame e n).subs.get 0 (k * tileCols (panelOf s.dev n).1 + c) =
          if c ∈ bad then 1 else f.subs.get 0 (k * tileCols (panelOf s.dev n).1 + c)) ∧
        (outFrame e n).subN = f.subN + bad.length))) ∧
  (∀ (k : Nat) (s : State), alive s.dev = true → judgeDue s.dev k = none → Does (.tileRowJudge k) s [] (fun _ => True)) ∧
  (∀ (i k c t : Nat) (g : Segment) (f : OutFrame) (s : State), alive s.dev = true → s.dev.ras.segQ[i]? = some g →
    f = outFrame s.dev g.ofn → k = g.y / 8 → c = g.x / 512 → t = k * tileCols (panelOf s.dev g.ofn).1 + c →
    Does (.segmentAck i) s [.regs, .trk, .mem, .ras] (fun e => e.ras.segQ = s.dev.ras.segQ.eraseIdx i ∧
      (writerNow s.dev g.ofn ≠ g.pipe ∨ (tileInside f (panelOf s.dev g.ofn).1 (panelOf s.dev g.ofn).2 k c = true ∧
          f.judged.get 0 k ≠ 0 ∧ f.judged.get 0 k ≠ 3 ∧ f.subs.get 0 t ≠ 0) →
        (outFrame e g.ofn).late = f.late + 1 ∧ (outFrame e g.ofn).segs = f.segs ∧ Only [.regs, .ras] s.dev e ∧ RegsBut [aLateWr] s.dev e ∧
        (reg e aLateWr).toNat = min ((reg s.dev aLateWr).toNat + 1) 0xFFFFFFFF) ∧
      (writerNow s.dev g.ofn = g.pipe → tileInside f (panelOf s.dev g.ofn).1 (panelOf s.dev g.ofn).2 k c = true →
        f.judged.get 0 k = 0 ∨ (f.judged.get 0 k ≠ 3 ∧ f.subs.get 0 t = 0) → frameBuffer s.dev g.ofn ≠ none →
        (outFrame e g.ofn).segs.get 0 t = setBit (f.segs.get 0 t) (g.y % 8 * 8 + g.x / 64 % 8) true ∧
        (outFrame e g.ofn).late = f.late ∧ ∀ j, j ≠ t → (outFrame e g.ofn).segs.get 0 j = f.segs.get 0 j))) ∧
  (∀ (i : Nat) (s : State), alive s.dev = true → s.dev.ras.segQ[i]? = none → Does (.segmentAck i) s [] (fun _ => True)) ∧
  (∀ (n y : Nat) (s : State), alive s.dev = true → s.dev.ras.running = true → composeDue s.dev = some (n, y) →
    isReplay s.dev n = false → (outFrame s.dev n).judged.get 0 (y / 8) ≠ 0 →
    Does (.canopyLineCompose []) s [.regs, .usb, .ring, .root, .stem, .ras, .cnp] (fun e =>
      (e.ras.readOfn, e.ras.read) = (if y + 1 = (panelOf s.dev n).2 then (add32 n 1, 0) else (n, y + 1)) ∧
      (fenced s.dev 0x3A = true → e.ras.line = List.replicate (panelOf s.dev n).1 0) ∧
      (fenced s.dev 0x3A = false → (∀ l, l < 8 → (layerSt (layerLive s.dev l)).en = false) → (layerSt s.dev.cnp.bark).en = false →
        e.ras.line = pictureLine s.dev n y))) ∧
  (∀ s : State, alive s.dev = true → s.dev.ras.running = false ∨ composeDue s.dev = none → Does (.canopyLineCompose []) s [] (fun _ => True))

/-- DSO_COMMIT, the requests and exits of Panel Replay, and what the links and the cadence lock report (R346, R347, R350, R355 to R358,
R511). An entry into replay that has not begun is abandoned: the model's choice, log entry 9. Further choices of the model in it: log
entries 30, 74, 101. -/
def Obligations.OutputFollowsRequestsAndLinks : Prop :=
  ∀ s : State, alive s.dev = true →
    (∀ v : Word, v.toNat % 2 = 0 → Does (.dsoCommitWrite v) s [] (fun _ => True)) ∧
    (∀ v : Word, v.toNat % 2 = 1 → Does (.dsoCommitWrite v) s [.regs, .usb, .root, .ras] (fun e => flag e dsoPending = true ∧
      (fld s.dev prState = 0 → Only [.regs] s.dev e ∧ RegsBut [dsoPending.addr] s.dev e) ∧
      (fld s.dev prState = 2 → fld e prState = 3 ∧ e.ras.prExit = some (add32 (ofn s.dev) 2)) ∧
      (fld s.dev prState = 1 → fld e prState = 0 ∧ e.ras.entered = false))) ∧
    (fld s.dev prState ≠ 0 → replayCapable s.dev = true → s.dev.root.apply = none → flag s.dev dsoPending = false →
      Does .panelReplayRequest s [.regs] (fun e => flag e prReq = true ∧ fld e prState = fld s.dev prState ∧
      RegsBut [prReq.addr] s.dev e)) ∧
    (replayCapable s.dev = false ∨ s.dev.root.apply ≠ none ∨ flag s.dev dsoPending = true →
      Does .panelReplayRequest s [.regs] (fun e => flag e prErr = true ∧ fld e prState = fld s.dev prState ∧
        RegsBut [prErr.addr] s.dev e)) ∧
    (fld s.dev prState = 0 → replayCapable s.dev = true → s.dev.root.apply = none → flag s.dev dsoPending = false →
      Does .panelReplayRequest s [.regs, .usb, .root] (fun e => flag e prReq = true ∧ fld e prState = 1 ∧ Raised 0x0108 0x3B 0 1 s.dev e ∧
        RegsBut [prReq.addr, aEvtLost] s.dev e)) ∧
    (∀ c cause, (c = .panelReplayExitRequest ∧ cause = 1) ∨ (c = .sinkReplayExitRequest ∧ cause = 4) →
      (fld s.dev prState = 2 → Does c s [.regs, .usb, .root, .ras] (fun e => fld e prState = 3 ∧ flag e prReq = false ∧
        e.ras = { s.dev.ras with prExit := some (add32 (ofn s.dev) 2), prCause := cause } ∧ Raised 0x0108 0x3B 0 (3 + cause * 16) s.dev e ∧
        RegsBut [prReq.addr, aEvtLost] s.dev e)) ∧
      (fld s.dev prState = 1 → Does c s [.regs, .usb, .root, .ras] (fun e => fld e prState = 0 ∧ flag e prReq = false ∧
        e.ras = { s.dev.ras with entered := false } ∧ Raised 0x0108 0x3B 0 (cause * 16) s.dev e)) ∧
      (fld s.dev prState = 0 ∨ fld s.dev prState = 3 → Does c s [.regs] (fun e => fld e prState = fld s.dev prState ∧
        RegsBut [prReq.addr] s.dev e ∧ (c = .panelReplayExitRequest → flag e prReq = false)))) ∧
    (∀ (p : Fin 2) (up : Bool), fenced s.dev (0x3B + p.val) = false → portUsed (inForce s.dev dsoMode) p.val = true →
      flag s.dev (linkUp p.val) ≠ up → Does (.dsoLinkChange p up) s [.regs, .usb, .root, .ras] (fun e => flag e (linkUp p.val) = up ∧
        Raised 0x0510 (0x3B + p.val) 1 (fld s.dev (linkRate p.val) + fld s.dev (linkLanes p.val) * 8 + up.toNat * 32) s.dev e ∧
        (up = true → e.ras = s.dev.ras) ∧ (up = false → fld s.dev prState = 2 → fld e prState = 3))) ∧
    (∀ (p : Fin 2) (up : Bool), fenced s.dev (0x3B + p.val) = true ∨ portUsed (inForce s.dev dsoMode) p.val = false ∨
      flag s.dev (linkUp p.val) = up → Does (.dsoLinkChange p up) s [] (fun _ => True)) ∧
    (∀ (p : Fin 2) (rate lanes : Nat) (hpd fec cap : Bool), fenced s.dev (0x3B + p.val) = false →
      Does (.dsoLinkTraining p rate lanes hpd fec cap none) s [.regs, .usb, .root, .ras] (fun e =>
        e.ras.prCap = setBit s.dev.ras.prCap p.val cap ∧
        (portUsed (inForce s.dev dsoMode) p.val = true ∧ hpd = true →
          fld e (linkRate p.val) = min rate (min 6 (fld s.dev (dsoMaxRate p.val))) ∧
          fld e (linkLanes p.val) = min lanes (min 2 (fld s.dev (dsoMaxLanes p.val))) ∧ flag e (linkUp p.val) = true ∧
          flag e (linkHpd p.val) = true ∧ flag e (linkFec p.val) = fec) ∧
        (portUsed (inForce s.dev dsoMode) p.val = false ∨ hpd = false →
          fld e (linkRate p.val) = 0 ∧ fld e (linkLanes p.val) = 0 ∧ flag e (linkUp p.val) = false ∧ flag e (linkHpd p.val) = hpd))) ∧
    (∀ (p : Fin 2) (rate lanes : Nat) (hpd fec cap : Bool), fenced s.dev (0x3B + p.val) = true →
      Does (.dsoLinkTraining p rate lanes hpd fec cap none) s [] (fun _ => True)) ∧
    (∀ p t, lockPort s.dev = some p → s.dev.clk.inStart = some t → isFollower s.dev = false → fld s.dev lockState ≠ 3 →
      fld s.dev lockState ≠ 0 → 2 * fld s.dev (intFperiod p) ≤ s.dev.devTime.toNat - t →
      Does .cadenceInputTimeout s [.regs, .clk, .usb, .root] (fun e => fld e lockState = 3 ∧
        fld e lockMismatch = (flag s.dev lockMismatch).toNat ∧ e.clk = { s.dev.clk with inStart := none, holdIn := 0, goodE := 0 } ∧
        (fld s.dev lockState = 2 → Raised 0x0131 0x3B 1 (3 + (flag s.dev lockMismatch).toNat * 4) s.dev e))) ∧
    (lockPort s.dev = none ∨ s.dev.clk.inStart = none → Does .cadenceInputTimeout s [] (fun _ => True))

/-- The flatten cache of a static group is built and reported; a flip group that waited too long is dropped TIMEOUT; a queued line is
written back and counted; a UI frame that is complete awaits the flip in place of an older one (R314, R327 to R329, R338). The model's own
choices in it: log entries 13, 62, 75, 76, 83, 84, 100. -/
def Obligations.CanopyKeepsCachesFlipsAndLines : Prop :=
  ∀ s : State, alive s.dev = true →
    (∀ g : Fin 5, 1 ≤ g.val → hasGraft s.dev = true → fenced s.dev 0x3A = false → s.dev.trk.noCache = false → flag s.dev lp6Avail = true →
      fld s.dev lp6Inservice = 255 → groupMembers s.dev g.val ≠ [] → cnpFlatHold (img0 s.dev) ≤ s.dev.cnp.still.get 0 g.val →
      (∀ i, 1 ≤ i → i ≤ 4 → flag s.dev (cacheBuilding i) = false) → flag s.dev (cacheValid g.val) = false →
      ((List.range 4).filter (fun i => flag s.dev (cacheValid (i + 1)))).length < 2 →
      (∀ i, 1 ≤ i → i < g.val → groupMembers s.dev i = [] ∨ flag s.dev (cacheValid i) = true) →
      Does (.flattenBuildStart g) s [.regs, .root, .cnp] (fun e => flag e (cacheBuilding g.val) = true ∧
        e.cnp = { s.dev.cnp with flat := e.cnp.flat } ∧ (∀ i, 1 ≤ i → i ≤ 4 → i ≠ g.val → flag s.dev (cacheValid i) = true →
          e.cnp.flat.get 0 i = s.dev.cnp.flat.get 0 i ∧ (s.dev.cnp.flat.get 0 i = 1 → e.cnp.flat.get 0 g.val = 2)) ∧
        (∀ i, 1 ≤ i → i ≤ 4 → flag e (cacheValid i) = flag s.dev (cacheValid i)) ∧
        RegsBut [(cacheBuilding 1).addr, progA 7, progB 7] s.dev e)) ∧
    (∀ g : Fin 5, g = 0 ∨ hasGraft s.dev = false ∨ fenced s.dev 0x3A = true ∨ groupMembers s.dev g.val = [] ∨
      flag s.dev (cacheBuilding g.val) = true → Does (.flattenBuildStart g) s [] (fun _ => True)) ∧
    (∀ g : Fin 5, 1 ≤ g.val → flag s.dev (cacheBuilding g.val) = true → Does (.flattenBuilt g) s [.regs, .usb, .root, .mem] (fun e =>
      (∀ x y w h, groupRect s.dev g.val = (x, y, w, h) → ∀ j, j < flatAddr s.dev g.val ∨ flatAddr s.dev g.val + 8 * w * h ≤ j →
        readMem e j 1 = readMem s.dev j 1) ∧
      flag e (cacheBuilding g.val) = false ∧ flag e (cacheValid g.val) = true ∧ Raised 0x0124 0x3A 0 g.val s.dev e ∧
      RegsBut [(cacheBuilding 1).addr, progA 7, progB 7, aEvtLost] s.dev e)) ∧
    (∀ g : Fin 5, g = 0 ∨ flag s.dev (cacheBuilding g.val) = false → Does (.flattenBuilt g) s [] (fun _ => True)) ∧
    (∀ (t : BitVec 16) (g : FlipGroup) (r : TagRec), s.dev.cnp.groups = [g] → g.tag = tagKey s.dev t → g.timeout ≠ 0 →
      s.dev.usb.tags.find? (fun x => x.tag == g.tag && !x.done) = some r →
      (g.timeout ≤ g.tries → Does (.flipGroupTimeout (some t)) s [.regs, .usb, .root, .cnp] (fun e =>
        e.cnp = { s.dev.cnp with groups := [] } ∧ fld e flipPending = 0 ∧
        Queued [{ tag := g.tag % 65536, addr := r.addr, status := stTimeout, payload := [] }] s.dev e ∧
        Raised 0x0121 0x3A 0 ((stTimeout + g.mask * 256) % 2 ^ 32) s.dev e)) ∧
      (g.tries < g.timeout → Does (.flipGroupTimeout (some t)) s [] (fun _ => True))) ∧
    (∀ (x : WbLine) (l : List WbLine), s.dev.cnp.wbQ = x :: l → Does .writebackLineWritten s [.regs, .usb, .ring, .root, .trk, .mem, .cnp]
      (fun e => e.cnp.wbQ = l ∧
        (s.dev.cnp.wbFrame = some x.ofn → s.dev.cnp.wbDone + 1 ≠ (panelOf s.dev x.ofn).2 →
          e.cnp = { s.dev.cnp with wbQ := l, wbDone := s.dev.cnp.wbDone + 1 }) ∧
        (s.dev.cnp.wbFrame = some x.ofn → s.dev.cnp.wbDone + 1 = (panelOf s.dev x.ofn).2 → e.cnp.wbFrame = none ∧
          (s.dev.cnp.wbHeld = false → s.dev.cnp.wbDrop = 0 → fld e wbOfn = x.ofn % 2 ^ 32 ∧
            ringVal e (cnpWbRing (img0 s.dev)) = (ringVal s.dev (cnpWbRing (img0 s.dev)) +
              if cnpWbRing (img0 s.dev) = 0 then 0 else 1) % 2 ^ 32)) ∧
        (s.dev.cnp.wbHeld = true → e.mem = s.dev.mem))) ∧
    (s.dev.cnp.wbQ = [] → Does .writebackLineWritten s [] (fun _ => True)) ∧
    (∀ f l, (port s.dev 1).frames = f :: l → uiMode s.dev 1 = true → f.ended = true → f.void = false → uiLayer s.dev ≠ none →
      (s.dev.cnp.uiPend = none → Does .uiFrameComplete s [.cnp] (fun e => e.cnp = { s.dev.cnp with uiPend := some (s.dev.cnp.uiBuf, f.ifn) })) ∧
      (∀ b i, s.dev.cnp.uiPend = some (b, i) → i ≠ f.ifn → Does .uiFrameComplete s [.regs, .usb, .root, .cnp] (fun e =>
        e.cnp = { s.dev.cnp with uiPend := some (s.dev.cnp.uiBuf, f.ifn) } ∧ Raised 0x0505 0x39 0 (i % 2 ^ 32) s.dev e ∧
        (reg e (aIntUiDrop 1)).toNat = min ((reg s.dev (aIntUiDrop 1)).toNat + 1) 0xFFFFFFFF)) ∧
      (∀ b, s.dev.cnp.uiPend = some (b, f.ifn) → Does .uiFrameComplete s [] (fun _ => True)))

/-- Links train within the ceilings; HDCP and metadata follow the source; a source change cuts the frame in progress, and a frame of split
mode that finds no partner in time is dropped (R298, R299, R306, R308, R310 to R312). The model's own choices in it: log entries 10, 11,
28, 98. -/
def Obligations.IntakePortsFollowTheirSources : Prop :=
  ∀ (s : State) (p : Fin 2), alive s.dev = true →
    (∀ (r l : Nat) (fec dsc : Bool), fenced s.dev (0x38 + p.val) = false → flag s.dev (intHpd p.val) = true →
      Does (.intakeLinkTraining p r l fec dsc none) s [.regs] (fun e => RegsBut [intLink p.val] s.dev e ∧
        (reg e (intLink p.val)).toNat = min r (min 6 (fld s.dev (intMaxRate p.val))) +
          min l (min 2 (fld s.dev (intMaxLanes p.val))) * 8 + 32 +
          (if 4 ≤ min r (min 6 (fld s.dev (intMaxRate p.val))) then 64 else 0) + fec.toNat * 128 +
          (dsc && flag s.dev (intDscEn p.val)).toNat * 256)) ∧
    (∀ (r l : Nat) (fec dsc : Bool), fenced s.dev (0x38 + p.val) = true ∨ flag s.dev (intHpd p.val) = false →
      Does (.intakeLinkTraining p r l fec dsc none) s [] (fun _ => True)) ∧
    (∀ (st : Fin 4) (t1 : Bool), fenced s.dev (0x38 + p.val) = false → flag s.dev (intHdcpEn p.val) = true →
      Does (.hdcpAuthentication p st t1) s [.regs, .usb, .root] (fun e => fld e (hdcpState p.val) = st.val ∧
        flag e (hdcpType1 p.val) = t1 ∧ RegsBut [(hdcpState p.val).addr, aEvtLost] s.dev e ∧
        (st.val ≠ fld s.dev (hdcpState p.val) →
          Raised 0x0701 (0x38 + p.val) 0 (st.val + fld s.dev (hdcpProt p.val) * 16) s.dev e) ∧
        (st.val = fld s.dev (hdcpState p.val) → Only [.regs] s.dev e))) ∧
    (∀ (st : Fin 4) (t1 : Bool), fenced s.dev (0x38 + p.val) = true ∨ flag s.dev (intHdcpEn p.val) = false →
      Does (.hdcpAuthentication p st t1) s [] (fun _ => True)) ∧
    (∀ (pk : Bytes) (ws : List Word), fenced s.dev (0x38 + p.val) = false → flag s.dev (intLocked p.val) = true →
      hdrWords pk = some ws → Does (.sdpReceived p pk) s [.inp] (fun e =>
        port e p.val = { port s.dev p.val with hdr := some ws } ∧ port e (1 - p.val) = port s.dev (1 - p.val))) ∧
    (∀ pk : Bytes, fenced s.dev (0x38 + p.val) = true ∨ flag s.dev (intLocked p.val) = false ∨ hdrWords pk = none →
      Does (.sdpReceived p pk) s [] (fun _ => True)) ∧
    (∀ cl : Fin 16, cl ≠ 0 → fenced s.dev (0x38 + p.val) = false →
      Does (.sourceChange p cl) s (touches (.sourceChange p cl)) (fun e => liveFrame (port e p.val) = none ∧
        (port e p.val).wait = none ∧ ((port s.dev p.val).wait ≠ none → (port e p.val).held = []) ∧
        (reg e (aIntChg p.val)).toNat = min ((reg s.dev (aIntChg p.val)).toNat + 1) 0xFFFFFFFF ∧
        (8 ≤ cl.val → flag e (intLocked p.val) = false) ∧
        (hasGraft s.dev = false → lockPort s.dev ≠ some p.val → voidNow (port s.dev p.val) = false →
          Raised 0x0501 (0x38 + p.val) 1 (cl.val + fld s.dev (intIfn p.val) % 65536 * 65536) s.dev e))) ∧
    (∀ cl : Fin 16, cl = 0 ∨ fenced s.dev (0x38 + p.val) = true → Does (.sourceChange p cl) s [] (fun _ => True)) ∧
    (∀ w t, (port s.dev p.val).wait = some (w, t) → 2 * w.fperiod < (s.dev.devTime.toNat - t) * w.vtotal →
      Does (.splitPairTimeout p) s [.regs, .usb, .root, .inp] (fun e =>
        port e p.val = { port s.dev p.val with wait := none, held := [] } ∧ Raised 0x0503 (0x38 + p.val) 2 1 s.dev e ∧
        (reg e (aIntUnpaired p.val)).toNat = min ((reg s.dev (aIntUnpaired p.val)).toNat + 1) 0xFFFFFFFF ∧
        RegsBut [aIntUnpaired p.val, aEvtLost] s.dev e)) ∧
    ((port s.dev p.val).wait = none → Does (.splitPairTimeout p) s [] (fun _ => True))

/-- A frame within the limits begins and counts, in split mode once its partner has started; a line is converted and queued, or skipped
without a credit, written in order and counted; the frame ends on its Ring (R299 to R302, R304 to R306, R75). The model's own choices in
it: log entries 11, 12, 27, 85, 98. -/
def Obligations.IntakeFramesBeginFillAndEnd : Prop :=
  ∀ (s : State) (p : Fin 2), alive s.dev = true →
    (∀ v : VideoDesc, fenced s.dev (0x38 + p.val) = true ∨ flag s.dev (intLocked p.val) = false →
      Does (.intakeFrameStart p v) s [] (fun _ => True)) ∧
    (∀ v : VideoDesc, fenced s.dev (0x38 + p.val) = false → flag s.dev (intLocked p.val) = true → liveFrame (port s.dev p.val) = none →
      timingOk (uiMode s.dev p.val) v = true → formatOk (flag s.dev (intDsc p.val)) v = true → splitMode s.dev = false →
      Does (.intakeFrameStart p v) s (touches (.intakeFrameStart p v)) (fun e =>
        (port e p.val).begun = true ∧ (port e p.val).wq = [] ∧ (port e p.val).video = v ∧ (port e p.val).hdr = none ∧
        (∃ f, (port e p.val).frames.head? = some f ∧ f.base = ringVal s.dev (2 * p.val) ∧ f.rx = 0 ∧ f.count = 0 ∧ f.void = false ∧
          f.ended = false ∧ (f.width, f.height) = (v.width, v.height) ∧
          f.ifn = if (port s.dev p.val).begun then add32 (fld s.dev (intIfn p.val)) 1 else fld s.dev (intIfn p.val)) ∧
        (hasGraft s.dev = false → fld e (intWidth p.val) = v.width ∧ fld e (intHeight p.val) = v.height ∧
          fld e (intHtotal p.val) = v.htotal ∧ fld e (intVtotal p.val) = v.vtotal ∧
          fld e (intIfn p.val) = (if (port s.dev p.val).begun then add32 (fld s.dev (intIfn p.val)) 1 else fld s.dev (intIfn p.val)) ∧
          (e.ring.base.get [] (2 * p.val)).head? = some (fld e (intIfn p.val), ringVal s.dev (2 * p.val))))) ∧
    (∀ v : VideoDesc, fenced s.dev (0x38 + p.val) = false → flag s.dev (intLocked p.val) = true → liveFrame (port s.dev p.val) = none →
      timingOk (uiMode s.dev p.val) v = false ∨ formatOk (flag s.dev (intDsc p.val)) v = false →
      Does (.intakeFrameStart p v) s (touches (.intakeFrameStart p v)) (fun e => (port e p.val).wait = none ∧ (port e p.val).wq = [] ∧
        fld e (intIfn p.val) = fld s.dev (intIfn p.val) ∧
        (reg e (aIntChg p.val)).toNat = min ((reg s.dev (aIntChg p.val)).toNat + 1) 0xFFFFFFFF ∧
        ∃ f, (port e p.val).frames.head? = some f ∧ f.void = true ∧ f.ended = false)) ∧
    (∀ v : VideoDesc, fenced s.dev (0x38 + p.val) = false → flag s.dev (intLocked p.val) = true → liveFrame (port s.dev p.val) = none →
      timingOk (uiMode s.dev p.val) v = true → formatOk (flag s.dev (intDsc p.val)) v = true → splitMode s.dev = true →
      ((port s.dev (1 - p.val)).wait = none → (port s.dev p.val).wait = none → Does (.intakeFrameStart p v) s (touches (.intakeFrameStart p v)) (fun e =>
        (port e p.val).wait = some (v, s.dev.devTime.toNat) ∧ (port e p.val).held = [] ∧
        ((port s.dev p.val).begun = false ∨ changeClasses (port s.dev p.val).video v = 0 → Only [.inp] s.dev e ∧
          port e p.val = { port s.dev p.val with wait := some (v, s.dev.devTime.toNat), held := [] } ∧
          port e (1 - p.val) = port s.dev (1 - p.val)))) ∧
      (∀ w t, (port s.dev (1 - p.val)).wait = some (w, t) → (s.dev.devTime.toNat - t) * w.vtotal ≤ 2 * w.fperiod →
        Does (.intakeFrameStart p v) s (touches (.intakeFrameStart p v)) (fun e => (port e (1 - p.val)).wait = none ∧
          flag e splitActive = true ∧ (port e p.val).video = v ∧ (port e (1 - p.val)).video = w ∧ (port e 0).begun = true ∧
          (port e 1).begun = true ∧ e.inp.pairs.head? = some (fld e (intIfn 0), fld e (intIfn 1), ringVal e 2)))) ∧
    (∀ (l : List Nat) (enc : Bool), (port s.dev p.val).wait ≠ none → Does (.intakeLineReceived p l enc) s [.inp] (fun e =>
      port e p.val = { port s.dev p.val with held := (port s.dev p.val).held ++ [(l, enc)] })) ∧
    (∀ (l : List Nat) (enc : Bool), (port s.dev p.val).wait = none → (port s.dev p.val).held = [] → liveFrame (port s.dev p.val) = none →
      Does (.intakeLineReceived p l enc) s [] (fun _ => True)) ∧
    (∀ (l : List Nat) (f : InFrame), (port s.dev p.val).wait = none → (port s.dev p.val).held = [] →
      liveFrame (port s.dev p.val) = some f → fenced s.dev (0x38 + p.val) = false → f.void = false → uiMode s.dev p.val = false →
      (port s.dev p.val).video.enc ≠ 3 → f.rx < (port s.dev p.val).video.height → (port s.dev p.val).wq = [] →
      hasGraft s.dev = false → flag s.dev stumpActive = false → Does (.intakeLineReceived p l false) s [.regs, .inp] (fun e =>
        liveFrame (port e p.val) = some { f with rx := f.rx + 1 } ∧
        (port e p.val).wq = [(f.rx, false, (List.range (port s.dev p.val).video.width).map (fun x =>
          (convertPixel (port s.dev p.val).video (port s.dev p.val).wfmt (fld s.dev (intCsc p.val)) l l l x).1))] ∧
        RegsBut [aIntSat p.val] s.dev e)) ∧
    (∀ (l : List Nat) (f : InFrame), p = 0 → (port s.dev 0).wait = none → (port s.dev 0).held = [] → (port s.dev 0).wq = [] →
      liveFrame (port s.dev 0) = some f → fenced s.dev 0x38 = false → f.void = false → (port s.dev 0).video.enc ≠ 3 →
      f.rx < (port s.dev 0).video.height → hasGraft s.dev = false → flag s.dev stumpActive = true → (lineRing s.dev 0).prod = 0 →
      Does (.intakeLineReceived p l false) s [.regs, .ring, .inp] (fun e =>
        liveFrame (port e 0) = some { f with rx := f.rx + 1, skips := f.skips + 1, skip := f.skip + 2 ^ f.rx, count := f.count + 1 } ∧
        (port e 0).wq = [] ∧ ringVal e 0 = (ringVal s.dev 0 + 1) % 2 ^ 32 ∧
        (reg e (aIntSkip 0)).toNat = min ((reg s.dev (aIntSkip 0)).toNat + 1) 0xFFFFFFFF ∧
        (reg e aRingOvf).toNat = min ((reg s.dev aRingOvf).toNat + 1) 0xFFFFFFFF)) ∧
    (∀ (y : Nat) (px : List Nat) (l : List (Nat × Bool × List Nat)) (f : InFrame), (port s.dev p.val).wq = (y, false, px) :: l →
      (∀ z, l.head? = some z → z.2.1 = false) → liveFrame (port s.dev p.val) = some f →
      Does (.intakeLineWritten p) s [.regs, .ring, .trk, .mem, .inp] (fun e => (port e p.val).wq = l ∧
        liveFrame (port e p.val) = some { f with count := f.count + 1 } ∧
        ∀ r, ringVal e r = if r = 2 * p.val then (ringVal s.dev r + 1) % 2 ^ 32 else ringVal s.dev r)) ∧
    ((port s.dev p.val).wq = [] ∨ liveFrame (port s.dev p.val) = none → Does (.intakeLineWritten p) s [] (fun _ => True)) ∧
    (∀ f, liveFrame (port s.dev p.val) = some f → f.height ≤ f.rx → (port s.dev p.val).wq = [] →
      Does (.intakeFrameEnd p) s [.regs, .usb, .ring, .root, .trk, .inp] (fun e => liveFrame (port e p.val) = none ∧
        (f.void = true → Only [.inp] s.dev e) ∧
        (f.void = false → (∀ r, ringVal e r = if r = 2 * p.val + 1 then (ringVal s.dev r + 1) % 2 ^ 32 else ringVal s.dev r) ∧
          fld e (intLastIfn p.val) = f.ifn % 2 ^ 32 ∧
          (reg e (intLast p.val)).toNat = f.count % 8192 + (if f.skips = 0 then 0 else 16384) + f.prot.toNat * 32768 ∧
          (f.undec = 0 → f.skips ≠ 0 → Raised 0x0502 (0x38 + p.val) 2 (min f.skips 65535 + f.ifn % 65536 * 65536) s.dev e)))) ∧
    (∀ f, liveFrame (port s.dev p.val) = some f → f.rx < f.height ∨ (port s.dev p.val).wq ≠ [] →
      Does (.intakeFrameEnd p) s [] (fun _ => True))

/-- A task becomes Ready when its waits are met and its previous frame has completed; it completes once every Branch has run its program,
or ends TIMEOUT past its limit or its stall; a page released by every Branch that names it loses a reader (R72, R78, R225, R249, R250,
R254, R256). The model's own choices in it: log entries 21, 50, 67, 81, 95, 101. -/
def Obligations.TasksBecomeReadyAndEnd : Prop :=
  (∀ (k : Nat) (pfn : Word) (b : Bytes) (out : Bool) (t : TaskSt) (s : State), alive s.dev = true → out = outFlag s.dev k pfn.toNat →
    b = imgOf s.dev out → taskSt s.dev k pfn.toNat out = some t →
    (t.state = 0 → unmetWaits s.dev b k pfn.toNat t = 0 →
      kBranches b k = [] ∨ (∃ n, n ∈ kBranches b k ∧ doneOn s.dev k (sub32 pfn.toNat 1) out n = true) →
      (loopShape s.dev b k pfn.toNat).1 = (tW b (hIn b (progOff b (kProg b k))), tH b (hIn b (progOff b (kProg b k)))) →
      (loopShape s.dev b k pfn.toNat).2.1 ≠ 0 → (loopShape s.dev b k pfn.toNat).2.2 ≠ 0 →
      Does (.taskReady k pfn []) s (touches (.taskReady k pfn [])) (fun e =>
        taskSt e k pfn.toNat out = some { t with state := 1, asked := t.asked || !out, flags := if kHvring b k ≠ 0 ∧ ringVal s.dev (kHvring b k) < kHdepth b k then setBit t.flags fCold true else t.flags } ∧
        e.ring = s.dev.ring ∧ e.mem = s.dev.mem ∧
        ∀ n h, n ∈ kBranches b k → brHost s.nv s.dev n = some h →
          Ctx.start b k pfn.toNat out n (loopShape s.dev b k pfn.toNat).2.1 (loopShape s.dev b k pfn.toNat).2.2 ∈ (branch e h).ctxs)) ∧
    (t.state ≠ 0 ∨ 2 ≤ unmetWaits s.dev b k pfn.toNat t → Does (.taskReady k pfn []) s [] (fun _ => True)) ∧
    (t.state = 0 → unmetWaits s.dev b k pfn.toNat t = 1 → Does (.taskReady k pfn []) s [.regs, .stem, .trk] (fun e =>
      (taskSt e k pfn.toNat out).map (·.state) = some 0)) ∧
    (t.state = 1 ∨ t.state = 2 → branchesDone s.dev k pfn.toNat out = true → t.flags.testBit fShort = false →
      t.flags.testBit fUncorr = false → (∀ f, f ∈ s.dev.stem.frames → ∃ u, u ∈ f.tasks ∧ u.task ≠ k ∧ u.state ≠ 3) →
      s.dev.stem.histReq = [] → fld s.dev graftSpace1 ≠ 5 → (∀ x, tRel b x ≠ 0 → tRel b x ≠ kDone b k) →
      Does (.taskComplete k pfn) s (touches (.taskComplete k pfn)) (fun e =>
        (taskSt e k pfn.toNat out).map (·.state) = some 3 ∧
        (∀ n c, c ∈ (branch e n).ctxs → ¬ (c.task = k ∧ c.pfn = pfn.toNat ∧ c.out = out)) ∧
        ringVal e (kDone b k) = (if kDone b k = 0 then ringVal s.dev 0 else (ringVal s.dev (kDone b k) + 1) % 2 ^ 32) ∧
        readMem e (trunkBase + statusBase + 32 * (2 * k + pfn.toNat % 2)) 1 = le 1 (if t.flags % 256 = stShapeOverrun then 7 else 0) ∧
        readMem e (trunkBase + statusBase + 32 * (2 * k + pfn.toNat % 2) + 4) 4 = le 4 pfn.toNat)) ∧
    (t.state = 0 ∨ t.state = 3 ∨ branchesDone s.dev k pfn.toNat out = false → Does (.taskComplete k pfn) s [] (fun _ => True)) ∧
    (∀ (f : Frame) (c : Instr), frameOf s.dev (kPipe b k) pfn.toNat out = some f →
      (c = .taskLimitTimeout k pfn ∧ t.state ≠ 3 ∧ kLimit b k ≠ 0 ∧
          kLimit b k * (lpNs s.dev).1 ≤ (s.dev.devTime.toNat - f.time) * (lpNs s.dev).2) ∨
        (c = .trunkStallTimeout k pfn ∧ (t.state = 1 ∨ t.state = 2) ∧ fld s.dev trkStallLimit ≠ 0 ∧
          fld s.dev trkStallLimit < (stallTime s.dev k pfn.toNat out.toNat).2) →
      (∀ g, g ∈ s.dev.stem.frames → ∃ u, u ∈ g.tasks ∧ u.task ≠ k ∧ u.state ≠ 3) → s.dev.stem.histReq = [] →
      fld s.dev graftSpace1 ≠ 5 → (∀ x, x ∈ kOuts b k → tHist b x = false) → Does c s (touches c) (fun e =>
        (taskSt e k pfn.toNat out).map (·.state) = some 3 ∧
        (∀ n c, c ∈ (branch e n).ctxs → ¬ (c.task = k ∧ c.pfn = pfn.toNat ∧ c.out = out)) ∧
        readMem e (trunkBase + statusBase + 32 * (2 * k + pfn.toNat % 2)) 1 = le 1 stTimeout ∧
        (c = .taskLimitTimeout k pfn →
          Raised 0x0201 (4 + pStem b (kPipe b k)) 2 (stTimeout + kPipe b k * 256 + k % 65536 * 65536) s.dev e) ∧
        (c = .trunkStallTimeout k pfn → Raised 0x0402 (0x20 + homeGroup b (kPipe b k)) 2 (kPipe b k) s.dev e))) ∧
    (∀ f : Frame, frameOf s.dev (kPipe b k) pfn.toNat out = some f → kLimit b k = 0 ∨
      (s.dev.devTime.toNat - f.time) * (lpNs s.dev).2 < kLimit b k * (lpNs s.dev).1 →
      Does (.taskLimitTimeout k pfn) s [] (fun _ => True)) ∧
    (t.state = 0 ∨ t.state = 3 ∨ fld s.dev trkStallLimit = 0 ∨
      (stallTime s.dev k pfn.toNat out.toNat).2 ≤ fld s.dev trkStallLimit → Does (.trunkStallTimeout k pfn) s [] (fun _ => True)) ∧
    (∀ (v : Nat) (p : Page), t.state ≠ 3 → v ∉ t.freed → p = pageAt s.dev out.toNat v →
      (∃ n c, (n, c) ∈ s.dev.br ∧ ∃ x, x ∈ c.ctxs ∧ x.task = k ∧ x.pfn = pfn.toNat ∧ x.out = out ∧ v ∈ x.rels) →
      (∀ j n, (kBranches b k)[j]? = some n → ∃ x, (s.dev.br.flatMap (fun e => e.2.ctxs.filter (fun c =>
          c.task == k && c.pfn == pfn.toNat && c.out == out))).find? (fun c => c.logic == n) = some x ∧
        (relPages s.dev b k pfn.toNat j (kBranches b k).length x.wo x.ho (fun y => (tensorShape s.dev b (nTasks b + 1) y
          (dataFrame s.dev b k pfn.toNat y (foffOf b (progOff b (kProg b k)) y))).2)).count v ≤ x.rels.count v) →
      Does (.pageRelease k pfn v) s [.regs, .ring, .stem, .trk] (fun e =>
        taskSt e k pfn.toNat out = some { t with freed := v :: t.freed } ∧
        pageAt e out.toNat v = (if p.loc = 0 ∨ p.readers = 0 then p else if p.readers = 1 then Page.none
          else { p with readers := p.readers - 1 }) ∧
        ∀ r, ringVal e r = if ∃ x, tensorOf (imgSp s.dev out.toNat) v = some x ∧ tRel (imgSp s.dev out.toNat) x = r ∧ r ≠ 0
          then (ringVal s.dev r + 1) % 2 ^ 32 else ringVal s.dev r)) ∧
    (∀ v : Nat, t.state = 3 ∨ v ∈ t.freed → Does (.pageRelease k pfn v) s [] (fun _ => True))) ∧
  (∀ (k : Nat) (pfn : Word) (c : Instr) (s : State), alive s.dev = true →
    taskSt s.dev k pfn.toNat (outFlag s.dev k pfn.toNat) = none →
    (c = .taskReady k pfn [] ∨ c = .taskComplete k pfn ∨ c = .trunkStallTimeout k pfn ∨ ∃ v, c = .pageRelease k pfn v) →
    Does c s [] (fun _ => True))

/-- At a tile boundary a Branch takes up an outgoing task first, else the first entry of its wheel that can issue; an expired quantum
hands over to the next entry once nothing drains (R250, R253, R275, R293). -/
def Obligations.BranchesPassAlongTheirWheels : Prop :=
  ∀ (n : Fin 16) (x : Branch) (wh : List (Nat × Nat × Nat)) (s : State), alive s.dev = true → x = branch s.dev n.val →
    wh = wheelOf s.nv s.dev n.val →
    (flag s.dev (seqBoundary n.val) = false ∨ fenced s.dev (0x10 + n.val) = true → Does (.tileBoundary n) s [] (fun _ => True)) ∧
    (∀ c, flag s.dev (seqBoundary n.val) = true → fenced s.dev (0x10 + n.val) = false →
      choose (img1 s.dev) (x.ctxs.filter (fun c => canIssue s.dev c && c.out &&
        !fenced s.dev (4 + pStem (img1 s.dev) (kPipe (img1 s.dev) c.task)))) = some c →
      Does (.tileBoundary n) s [.regs, .stem, .br] (fun e => curCtx e n.val = some { c with edge := false } ∧
        fld e (seqHolder n.val) = pStem (img1 s.dev) (kPipe (img1 s.dev) c.task) % 8 ∧ fld e (seqTask n.val) = c.task % 1024 ∧
        flag e (seqBoundary n.val) = false ∧ RegsBut [brBase n.val] s.dev e)) ∧
    (∀ i c w, flag s.dev (seqBoundary n.val) = true → fenced s.dev (0x10 + n.val) = false → (∀ c, c ∈ x.ctxs → c.out = false) →
      x.spent = false → i < wh.length → (∀ j, j < i → entryCtxs s.dev n.val (wh.getD ((x.wheel % wh.length + j) % wh.length) (0, 0, 0)) = []) →
      w = wh.getD ((x.wheel % wh.length + i) % wh.length) (0, 0, 0) → choose (img0 s.dev) (entryCtxs s.dev n.val w) = some c →
      Does (.tileBoundary n) s [.regs, .stem, .trk, .br] (fun e => curCtx e n.val = some { c with edge := false } ∧
        (branch e n.val).wheel = (x.wheel % wh.length + i) % wh.length ∧ fld e (seqHolder n.val) = w.2.1 ∧
        fld e (seqTask n.val) = c.task % 1024 ∧ flag e (seqBoundary n.val) = false ∧
        (taskSt e c.task c.pfn c.out).map (·.state) =
          (taskSt s.dev c.task c.pfn c.out).map (fun t => if t.state = 1 then 2 else t.state) ∧
        (i ≠ 0 → fld s.dev (seqHolder n.val) ≠ 7 →
          (reg e (aHandover n.val)).toNat = min ((reg s.dev (aHandover n.val)).toNat + 1) 0xFFFFFFFF ∧
          (reg e (aSlices w.2.1)).toNat = min ((reg s.dev (aSlices w.2.1)).toNat + 1) 0xFFFFFFFF))) ∧
    (flag s.dev (seqBoundary n.val) = true → fenced s.dev (0x10 + n.val) = false → (∀ c, c ∈ x.ctxs → canIssue s.dev c = false) →
      x.spent = false → Does (.tileBoundary n) s [.regs, .br] (fun e => fld e (seqHolder n.val) = 7 ∧ fld e (seqTask n.val) = 0 ∧
        flag e (seqBoundary n.val) = true ∧ curCtx e n.val = none ∧ RegsBut [brBase n.val] s.dev e)) ∧
    (fld s.dev (seqHolder n.val) ≠ 7 → 1 < wh.length → Does (.sliceQuantumExpire n) s [.br] (fun e =>
      branch e n.val = { x with spent := true } ∧ ∀ m, m ≠ n.val → branch e m = branch s.dev m)) ∧
    (fld s.dev (seqHolder n.val) = 7 ∨ wh.length ≤ 1 → Does (.sliceQuantumExpire n) s [] (fun _ => True)) ∧
    (∀ i w, x.spent = true → flag s.dev (seqBoundary n.val) = true → 1 < wh.length → (∀ c, c ∈ x.ctxs → c.drains = []) →
      i < wh.length → (∀ j, j < i → fenced s.dev (4 + (wh.getD ((x.wheel + 1 + j) % wh.length) (0, 0, 0)).2.1) = true) →
      w = wh.getD ((x.wheel + 1 + i) % wh.length) (0, 0, 0) → fenced s.dev (4 + w.2.1) = false →
      Does (.sliceHandover n) s [.regs, .stem, .br] (fun e =>
        branch e n.val = { x with wheel := (x.wheel + 1 + i) % wh.length, spent := false, cur := none } ∧
        (∀ m, m ≠ n.val → branch e m = branch s.dev m) ∧ fld e (seqHolder n.val) = w.2.1 ∧ fld e (seqTask n.val) = 0 ∧
        (reg e (aHandover n.val)).toNat = min ((reg s.dev (aHandover n.val)).toNat + 1) 0xFFFFFFFF ∧
        (reg e (aSlices w.2.1)).toNat = min ((reg s.dev (aSlices w.2.1)).toNat + 1) 0xFFFFFFFF)) ∧
    (x.spent = false ∨ flag s.dev (seqBoundary n.val) = false ∨ wh.length ≤ 1 ∨ (∃ c, c ∈ x.ctxs ∧ c.drains ≠ []) →
      Does (.sliceHandover n) s [] (fun _ => True))

/-- A tile command issues only the instruction at which the Branch stands, and passes over one that is skipped; a reduction step adds its
products to the accumulators of its tile, and a tile that does not fit waits for a drain (R146, R151, R154, R158 to R163, R209, R212,
R221, R223). The model's own choices in it: log entries 22, 51, 52, 54, 61, 63, 86, 102. -/
def Obligations.TwigsReduceTheirTiles : Prop :=
  (∀ (c : Instr) (n : Fin 16) (op : Nat) (s : State), issues c = some (n, op) → alive s.dev = true →
    (envOf s.nv s.dev n.val = none → Does c s [] (fun _ => True)) ∧
    (∀ e, envOf s.nv s.dev n.val = some e → e.i.op ≠ op → Does c s [] (fun _ => True)) ∧
    (∀ e, envOf s.nv s.dev n.val = some e → e.i.op = op → e.skip = true → Does c s [.regs, .stem, .trk, .mem, .br, .cells] (Stepped e))) ∧
  (∀ (n : Fin 16) (e : Env) (s : State), StandsAt s n 2 e ∨ StandsAt s n 3 e ∨ StandsAt s n 4 e → e.c.wo ≤ e.x0 → ∀ c,
    (c = .tmac n [] ∨ c = .twino n [] ∨ c = .tdiag n []) → issues c = some (n, e.i.op) → Does c s (touches c) (fun d => Stepped e d ∧ ∀ m t, twig d m t = twig s.dev m t)) ∧
  (∀ (n : Fin 16) (e : Env) (x : Src) (a nt p : Nat) (s : State), StandsAt s n 2 e → x = srcOf s.dev e (e.coord e.i.ca) →
    a = bits e.i.w1 8 4 → nt = bits e.i.w1 12 4 + 1 → p = bits e.i.w1 16 7 → 0 < p → p ≤ 64 → e.x0 < e.c.wo →
    (CanReduce s.dev e x [x.line e] ((e.tiles a nt p).map (·.2)) 1 → Does (.tmac n []) s (touches (.tmac n [])) (fun d => Stepped e d ∧
      ∀ j slot, (j, slot) ∈ e.tiles a nt p →
      (e.i.flag 10 = true → ∀ u, e.worksOn s.dev u → (twig d e.n u).slotP.get 0 slot = 2 * p) ∧
      ∀ px c, px < p → e.x0 + (j * p + px) < e.c.wo → c < 64 → Accumulates e slot (c * 64 + px)
        (((List.range (planeRows (bits e.i.w1 4 4))).map (fun k =>
          actAt s.dev e (twig s.dev e.n (e.onTwig s.dev)) x (bits e.i.w1 0 4) (bits e.i.w1 23 3) (bits e.i.w1 26 4)
            (x.row s.dev e (x.line e) (64 * e.group x.co + k)) (j * p + px) 0 *
          (if bits e.i.w1 4 4 = 9 then bookEntry (twig s.dev e.n (e.onTwig s.dev)) (bits e.i.w2 0 3) (16 * bits e.i.w2 3 4 +
              (planeAt (twig s.dev e.n (e.onTwig s.dev)) (e.plane (e.i.ff 12 1)) (64 * k + c)).toNat)
            else planeAt (twig s.dev e.n (e.onTwig s.dev)) (e.plane (e.i.ff 12 1)) (64 * k + c)))).sum) s.dev d)) ∧
    (x.co.trunk = true ∨ slotBusy s.dev e x.co.index (x.line e) = false →
      (∀ t, t ∈ (e.tiles a nt p).map (·.2) → (e.onTwig s.dev, t) ∉ e.c.drains) → e.i.flag 10 = true →
      tilesShort s.dev e (e.onTwig s.dev) ((e.tiles a nt p).map (·.2)) 1 ≠ 0 → e.c.drains.any (fun y => y.1 == e.onTwig s.dev) = true →
      e.c.short = false →
      Does (.tmac n []) s (touches (.tmac n [])) (fun d => curCtx d e.n = some { e.c with short := true } ∧
        (∀ m t, twig d m t = twig s.dev m t) ∧ (reg d (aTwigShort e.n (e.onTwig s.dev))).toNat =
          min ((reg s.dev (aTwigShort e.n (e.onTwig s.dev))).toNat +
            tilesShort s.dev e (e.onTwig s.dev) ((e.tiles a nt p).map (·.2)) 1) 0xFFFFFFFF)) ∧
    (x.co.trunk = false ∧ slotBusy s.dev e x.co.index (x.line e) = true ∨
        (∃ t, t ∈ (e.tiles a nt p).map (·.2) ∧ (e.onTwig s.dev, t) ∈ e.c.drains) →
      Does (.tmac n []) s (touches (.tmac n [])) (Waits e s.dev))) ∧
  (∀ (n : Fin 16) (e : Env) (x : Src) (a nt p bw : Nat) (s : State), StandsAt s n 4 e → x = srcOf s.dev e (e.coord e.i.ca) →
    a = bits e.i.w1 8 4 → nt = bits e.i.w1 12 4 + 1 → p = bits e.i.w1 16 7 → bw = 4 * 2 ^ e.i.ff 14 2 → 0 < p → p ≤ 64 → e.x0 < e.c.wo →
    CanReduce s.dev e x [x.line e] ((e.tiles a nt p).map (·.2)) 1 → Does (.tdiag n []) s (touches (.tdiag n [])) (fun d => Stepped e d ∧
      ∀ j slot, (j, slot) ∈ e.tiles a nt p →
      (e.i.flag 10 = true → ∀ u, e.worksOn s.dev u → (twig d e.n u).slotP.get 0 slot = 2 * p) ∧
      (e.i.flag 13 = true → ∀ px c, px < p → e.x0 + (j * p + px) < e.c.wo → c < 64 → Accumulates e slot (c * 64 + px)
        (((List.range bw).map (fun r => actAt s.dev e (twig s.dev e.n (e.onTwig s.dev)) x (bits e.i.w1 0 4) 0 0
            (x.row s.dev e (x.line e) (64 * e.group x.co + (c / bw * bw + r))) (j * p + px) 0 *
          planeAt (twig s.dev e.n (e.onTwig s.dev)) (e.plane (e.i.ff 12 1)) (bw * bw * (c / bw) + bw * r + c % bw))).sum) s.dev d) ∧
      (e.i.flag 13 = false → ∀ px q geo, px < p → e.x0 + (j * p + px) < e.c.wo → q < 64 / bw →
        geo = (twig s.dev e.n (e.onTwig s.dev)).geo.get 0 (e.plane (e.i.ff 12 1)) →
        Accumulates e slot ((e.group x.co % bw * (64 / bw) + q) * 64 + px) (((List.range (geo / 16)).map (fun t =>
          actAt s.dev e (twig s.dev e.n (e.onTwig s.dev)) x (bits e.i.w1 0 4) 0 0
            (x.row s.dev e (x.line e) (64 / bw * e.group x.co + q)) (j * p + px) (geo % 16 * t : Nat) *
          planeAt (twig s.dev e.n (e.onTwig s.dev)) (e.plane (e.i.ff 12 1)) (geo / 16 * q + t))).sum) s.dev d))) ∧
  (∀ (n : Fin 16) (e : Env) (x : Src) (a nt p pos : Nat) (s : State), StandsAt s n 3 e → x = srcOf s.dev e (e.coord e.i.ca) →
    a = bits e.i.w1 8 2 → nt = bits e.i.w1 10 2 + 1 → p = bits e.i.w1 16 6 → pos = bits e.i.w1 12 4 → 0 < p → p ≤ 32 →
    e.x0 < e.c.wo →
    CanReduce s.dev e x (if e.i.flag 13 then (List.range 4).map (fun (u : Nat) => x.line e + (u : Int)) else [])
      ((e.tiles a nt p).map (·.2)) 4 →
    Does (.twino n []) s (touches (.twino n [])) (fun d => Stepped e d ∧ ∀ j slot, (j, slot) ∈ e.tiles a nt p →
      (e.i.flag 10 = true → ∀ u, e.worksOn s.dev u → (twig d e.n u).slotP.get 0 slot = 2 * p + 1) ∧
      ∀ q c, 2 * q < min p (e.c.wo - e.x0 - j * p) → c < 64 → Accumulates e slot (pos * 1024 + c * 16 + q) (((List.range 64).map (fun k =>
        (if e.i.flag 13 then sandwich winoBT (fun a b => actAt s.dev e (twig s.dev e.n (e.onTwig s.dev)) x (bits e.i.w1 0 4) 0 0
            (x.row s.dev e (x.line e + (a : Int)) (64 * e.group x.co + k)) (j * p + 2 * q) b) (pos / 4) (pos % 4)
          else (twig s.dev e.n (e.onTwig s.dev)).wbuf.get 0 (j * 16384 + (pos * 64 + k) * 16 + q)) *
        planeAt (twig s.dev e.n (e.onTwig s.dev)) (e.plane (e.i.ff 12 1)) (64 * k + c))).sum) s.dev d))

/-- A drained tile frees its slot; the audited tile's comparison ends the audit, an unequal one and a parity error are counted, and the
audit arms in its turn (R153, R156, R169 to R171, R211, R213). The model's own choices in it: log entries 49, 56, 63. -/
def Obligations.TilesDrainAndAuditsArm : Prop :=
  ∀ (n : Fin 16) (bad spare : List Nat) (mis : Bool) (s : State), alive s.dev = true →
    (curCtx s.dev n.val = none → Does (.tileDrain n bad spare mis) s [] (fun _ => True)) ∧
    (∀ c, curCtx s.dev n.val = some c → c.drains = [] → Does (.tileDrain n bad spare mis) s [] (fun _ => True)) ∧
    (∀ c t slot l, curCtx s.dev n.val = some c → c.drains = (t, slot) :: l → bad = [] → audits s.dev n.val t = false →
      Does (.tileDrain n bad spare mis) s [.regs, .stem, .br] (fun d => curCtx d n.val = some { c with drains := l } ∧
        (twig d n.val t).slotP.get 0 slot = 0 ∧ (∀ i, i < 16384 → accAt (twig d n.val t) slot i = 0) ∧
        (∀ u, u ≠ t → twig d n.val u = twig s.dev n.val u) ∧ RegsBut (boundaryRegs n.val) s.dev d ∧
        (taskSt d c.task c.pfn c.out).map (·.bad) =
          (taskSt s.dev c.task c.pfn c.out).map (fun x => x.bad + ((twig s.dev n.val t).bad.testBit slot).toNat) ∧
        (l = [] → c.edge = true ∨ c.sect = 4 → flag d (seqBoundary n.val) = true))) ∧
    (∀ c t slot l, curCtx s.dev n.val = some c → c.drains = (t, slot) :: l → bad = [] → spare = [] → mis = false → audits s.dev n.val t = true →
      (branch s.dev n.val).aud.head? = some slot → Does (.tileDrain n bad spare mis) s [.regs, .stem, .br] (fun d =>
        (branch d n.val).armed = false ∧ (branch d n.val).aud = [] ∧ fld d (twigState n.val 4) = 1 ∧
        (twig d n.val 4).slotP = [] ∧ (twig d n.val t).slotP.get 0 slot = 0 ∧ fld d (auditNext n.val) = nextActive s.dev n.val t % 4 ∧
        (reg d (aAuditDone n.val)).toNat = min ((reg s.dev (aAuditDone n.val)).toNat + 1) 0xFFFFFFFF)) ∧
    (∀ c t slot l, curCtx s.dev n.val = some c → c.drains = (t, slot) :: l → bad = [] → spare = [] → mis = true →
      audits s.dev n.val t = true → (branch s.dev n.val).aud.head? = some slot →
      Does (.tileDrain n bad spare mis) s (touches (.tileDrain n bad spare mis)) (fun d =>
        (reg d (aAuditMiss n.val)).toNat = min ((reg s.dev (aAuditMiss n.val)).toNat + 1) 0xFFFFFFFF)) ∧
    (∀ c t slot l, curCtx s.dev n.val = some c → c.drains = (t, slot) :: l → bad ≠ [] →
      Does (.tileDrain n bad spare mis) s (touches (.tileDrain n bad spare mis)) (fun d =>
        (reg d (aTwigParity n.val t)).toNat = min ((reg s.dev (aTwigParity n.val t)).toNat + 1) 0xFFFFFFFF)) ∧
    (flag s.dev (auditEn n.val) = true → fld s.dev (twigState n.val 4) = 1 → (branch s.dev n.val).armed = false →
      auditTiles s.dev n.val ≤ (branch s.dev n.val).tiles → Does (.auditArm n) s [.regs, .br] (fun d =>
        fld d (twigState n.val 4) = 3 ∧ fld d (twigStands n.val 4) = fld s.dev (auditNext n.val) ∧ twig d n.val 4 = Twig.reset ∧
        (branch d n.val).armed = true ∧ (branch d n.val).tiles = 0 ∧ RegsBut [(twigState n.val 4).addr] s.dev d)) ∧
    (flag s.dev (auditEn n.val) = false ∨ fld s.dev (twigState n.val 4) ≠ 1 ∨ (branch s.dev n.val).armed = true ∨
      (branch s.dev n.val).tiles < auditTiles s.dev n.val → Does (.auditArm n) s [] (fun _ => True))

/-- TACT applies its operation to the prepared operands, and TPOOL its window to the taps inside the image, and both requantise into the
destination; a global TPOOL keeps the Branch's partial until every Branch of the task has sent its own (R174, R176, R178 to R186). The
model's own choices in it: log entries 20, 24, 53, 63, 87, 102. -/
def Obligations.VectorUnitWritesItsResults : Prop :=
  (∀ (n : Fin 16) (e : Env) (s : State), (StandsAt s n 6 e ∨ StandsAt s n 5 e ∧ e.i.ff 10 3 < 3) → e.c.wo ≤ e.x0 → ∀ i,
    (i = .tact n [] ∨ i = .tpool n []) → issues i = some (n, e.i.op) → Does i s (touches i) (fun d => Stepped e d ∧ StoresAs s.dev s.dev d)) ∧
  (∀ (n : Fin 16) (e : Env) (c : Coord) (len op : Nat) (v : Nat → Nat → Nat → Int) (s : State), StandsAt s n 6 e →
    c = e.coord e.i.cb → len = e.len c → 0 < len → op = e.i.ff 10 4 → slotBusy s.dev e c.index (e.line c) = false →
    (∀ j x, j < tactArity op → x = srcOf s.dev e (e.coord ([e.i.ca, bits e.i.w1 0 8, bits e.i.w1 8 8].getD j 0)) →
      x.Free s.dev e [x.line e] len ∧ ∀ ch m, m < len → v j ch m = ((x.prepRow s.dev e
        (e.word s.dev ([bits e.i.w1 16 8, bits e.i.w1 24 8, bits e.i.w2 0 8].getD j 0)) (x.chan e c ch) len 0).getD m Prep.zero).v) →
    (∀ j ch m, tactArity op ≤ j → v j ch m = 0) →
    Does (.tact n []) s (touches (.tact n [])) (fun d => Stepped e d ∧ StoresAs s.dev (e.putRows c (e.line c) (e.chans c) len (fun ch m =>
      (outStep e (bits e.i.w3 0 12) c (tactOp op (tableOp s.dev e (bits e.i.w2 24 8)) (toS 32 (e.word s.dev (bits e.i.w2 8 8)))
        (toS 32 (e.word s.dev (bits e.i.w2 16 8))) (v 0 ch m) (v 1 ch m) (v 2 ch m))).1) s.dev) d)) ∧
  (∀ (n : Fin 16) (e : Env) (c : Coord) (x : Src) (len form kh kw : Nat) (s : State), StandsAt s n 5 e → c = e.coord e.i.cb →
    x = srcOf s.dev e (e.i.poolCoord (e.coord e.i.ca)) → len = e.len c → 0 < len → form = e.i.ff 10 3 → form < 3 →
    kh = bits e.i.w1 0 4 + 1 → kw = bits e.i.w1 4 4 + 1 → slotBusy s.dev e c.index (e.line c) = false →
    x.Free s.dev e ((List.range kh).map (fun (k : Nat) => x.line e + (k : Int))) (len + kw) →
    Does (.tpool n []) s (touches (.tpool n [])) (fun d => Stepped e d ∧ StoresAs s.dev (e.putRows c (e.line c) (e.chans c) len (fun ch m =>
      (outStep e (bits e.i.w2 0 12) c (poolWindow form kh kw
        ((poolTaps s.dev e x (e.word s.dev (bits e.i.w1 16 8)) (x.chan e c ch) m kh kw).map (·.v)))).1) s.dev) d)) ∧
  (∀ (n : Fin 16) (e : Env) (c : Coord) (x : Src) (t : TaskSt) (form : Nat) (s : State), StandsAt s n 5 e → c = e.coord e.i.cb →
    x = srcOf s.dev e (e.i.poolCoord (e.coord e.i.ca)) → form = e.i.ff 10 3 → 3 ≤ form → slotBusy s.dev e c.index (e.line c) = false →
    (∀ y, slotBusy s.dev e x.co.index y = false) → taskSt s.dev e.c.task e.c.pfn e.c.out = some t → t.glob = [] →
    (kBranches e.b e.c.task = [e.c.logic] → Does (.tpool n []) s (touches (.tpool n [])) (fun d => Stepped e d ∧ StoresAs s.dev
      ((e.chans c).foldl (fun d ch => sWrite d e.c.logic ((e.region c).addr (e.line c) ch 0)
        (if form = 3 ∨ form = 4 then le 8 (ofS 64 (clampI (-(2 ^ 63 : Int)) (2 ^ 63 - 1)
            (globPart form ((regionEls s.dev e x (e.word s.dev (bits e.i.w1 16 8)) (x.chan e c ch)).map (·.v)))))
          else le 4 (ofS 32 (globPart form ((regionEls s.dev e x (e.word s.dev (bits e.i.w1 16 8)) (x.chan e c ch)).map (·.v)))))) s.dev) d)) ∧
    (∀ m, m ∈ kBranches e.b e.c.task → m ≠ e.c.logic →
      (∀ q b y, (q, b) ∈ s.dev.br → y ∈ b.ctxs → y.task = e.c.task → y.logic = m → y.sect ≠ 4) →
      Does (.tpool n []) s (touches (.tpool n [])) (fun d => Waits e s.dev d ∧
        (taskSt d e.c.task e.c.pfn e.c.out).map (·.glob) = some [((e.c.sect, e.c.idx, e.c.it), e.c.logic, (e.chans c).map (fun ch =>
          globPart form ((regionEls s.dev e x (e.word s.dev (bits e.i.w1 16 8)) (x.chan e c ch)).map (·.v))))]))) ∧
  (∀ (n : Fin 16) (e : Env) (c : Coord) (s : State), StandsAt s n 6 e ∨ StandsAt s n 5 e → c = e.coord e.i.cb → 0 < e.len c →
    slotBusy s.dev e c.index (e.line c) = true → ∀ i, (i = .tact n [] ∨ i = .tpool n []) → issues i = some (n, e.i.op) →
      Does i s (touches i) (Waits e s.dev))

/-- TREQ and TCONV convert under a FIXED step by its word, and under a MEASURED one wait for the cell's tree; pixel words are packed and
unpacked; TSTAT takes each cell's greatest magnitude, and the tree that every contributor has fed derives the scale (R107, R109, R119,
R126, R129, R130, R132, R136, R226, R546). The model's own choices in it: log entries 53, 56, 58, 63, 87, 88, 89, 90, 102. -/
def Obligations.ConversionsFollowTheirStep : Prop :=
  (∀ (n : Fin 16) (e : Env) (c : Coord) (o t a nt p : Nat) (s : State), StandsAt s n 7 e → e.i.flag 10 = false →
    c = e.coord e.i.cb → o = bits e.i.w1 20 12 → t = e.onTwig s.dev → a = bits e.i.w1 4 4 → nt = bits e.i.w1 8 4 + 1 →
    p = slotPx (twig s.dev e.n t) (e.slot a) →
    ((ostepAt e.b o).mode = 0 → slotBusy s.dev e c.index (e.line c) = false → BiasReady s.dev e (e.i.bias e.b e.p) 64 →
      (∀ j, j < nt → slotHeld (twig s.dev e.n t) (e.slot (a + j)) = true ∧
        slotWino (twig s.dev e.n t) (e.slot (a + j)) = slotWino (twig s.dev e.n t) (e.slot a) ∧
        slotPx (twig s.dev e.n t) (e.slot (a + j)) = p ∧ (t, e.slot (a + j)) ∉ e.c.drains) →
      0 < p → e.x0 < e.c.wo → Does (.treq n []) s (touches (.treq n [])) (fun d => Stepped e d ∧
        (curCtx d e.n).map (·.drains) = some (e.c.drains ++ (List.range nt).map (fun j => (t, e.slot (a + j)))) ∧
        StoresAs s.dev (((List.range (if slotWino (twig s.dev e.n t) (e.slot a) then 2 else 1)).filter e.lineKept).foldl (fun (w : Dev) (u : Nat) =>
          e.putRows c (e.line c + (u : Int)) ((List.range 64).map (64 * e.group c + ·)) (min (nt * p) (e.c.wo - e.x0)) (fun ch m =>
            (requant (bits e.i.w1 0 4) (e.target c).1 (e.target c).2 ((ostepAt e.b o).init % 2 ^ 24)
              (tileOut (twig s.dev e.n t) (e.slot (a + m / p)) u (ch - 64 * e.group c) (m % p) +
                biasOf s.dev e (e.i.bias e.b e.p) 64 (ch - 64 * e.group c))).1) w) s.dev) d)) ∧
    (∀ i, (ostepAt e.b o).mode = 1 → i ∈ cellsIn (tileConvs s.dev e o a nt (e.i.bias e.b e.p) c) →
      (cellAt s.dev e.c.out o i e.c.pfn).ready = false → Does (.treq n []) s (touches (.treq n [])) (Waits e s.dev)) ∧
    (slotBusy s.dev e c.index (e.line c) = true → Does (.treq n []) s [] (fun _ => True))) ∧
  (∀ (n : Fin 16) (e : Env) (c : Coord) (x : Src) (o len : Nat) (s : State), StandsAt s n 7 e → e.i.flag 10 = true →
    c = e.coord e.i.cb → o = bits e.i.w1 20 12 → slotBusy s.dev e c.index (e.line c) = false →
    BiasReady s.dev e (e.i.bias e.b e.p) (64 * c.ncg) → x = srcOf s.dev e (e.coord (bits e.i.w1 12 8)) →
    len = min (e.len x.co) (e.len c) → x.Free s.dev e [x.line e] len → 0 < len → (ostepAt e.b o).mode = 0 →
    Does (.treq n []) s (touches (.treq n [])) (fun d => Stepped e d ∧ StoresAs s.dev (e.putRows c (e.line c) (e.chans c) len (fun ch m =>
      (requant (bits e.i.w1 0 4) (e.target c).1 (e.target c).2 ((ostepAt e.b o).init % 2 ^ 24)
        ((match x.stored s.dev e (x.row s.dev e (x.line e) (x.chan e c ch)) m 0 with | some v => x.decode e v - x.zp | none => 0) +
          biasOf s.dev e (e.i.bias e.b e.p) (64 * c.ncg) (ch - 64 * e.group c))).1) s.dev) d)) ∧
  (∀ (n : Fin 16) (e : Env) (c : Coord) (x : Src) (o len pf : Nat) (s : State), StandsAt s n 9 e → c = e.coord e.i.cb →
    o = bits e.i.w1 20 12 → x = srcOf s.dev e (e.coord e.i.ca) → len = min (e.len x.co) (e.len c) → x.Free s.dev e [x.line e] len →
    0 < len → slotBusy s.dev e c.index (e.line c) = false → pf = bits e.i.w1 4 3 →
    (e.i.flag 10 = false → (ostepAt e.b o).mode = 0 →
      Does (.tconv n []) s (touches (.tconv n [])) (fun d => Stepped e d ∧ StoresAs s.dev (e.putRows c (e.line c) (e.chans c) len (fun ch m =>
        (requant (bits e.i.w1 0 4) (e.target c).1 (e.target c).2
          (convWord s.dev e x ((ostepAt e.b o).init % 2 ^ 24)
            { y := e.line c, i := m, ch := ch, v := 0, cell := none, q := ch - 64 * e.group c }).1
          (match x.stored s.dev e (x.row s.dev e (x.line e) (x.chan e c ch)) m 0 with | some v => x.decode e v - x.zp | none => 0)).1)
        s.dev) d)) ∧
    (e.i.flag 10 = true → e.i.flag 11 = true →
      Does (.tconv n []) s (touches (.tconv n [])) (fun d => Stepped e d ∧
        StoresAs s.dev (e.putRows c (e.line c) ((List.range (pixelChannels pf)).map (64 * e.group c + ·)) len (fun ch m =>
          ((unpackPixel pf (x.el s.dev e (x.row s.dev e (x.line e) 0) m 0).toNat (ch - 64 * e.group c) : Nat) : Int)) s.dev) d)) ∧
    (e.i.flag 10 = true → e.i.flag 11 = false → ∀ f : Nat → Nat → Nat,
      (∀ q m, f q m = (x.el s.dev e (x.row s.dev e (x.line e) (64 * e.group x.co + q)) m 0).toNat) →
      Does (.tconv n []) s (touches (.tconv n [])) (fun d => Stepped e d ∧ StoresAs s.dev (e.putRows c (e.line c) [0] len (fun _ m =>
        ((packPixel pf (f 0 m) (f 1 m) (f 2 m) (f 3 m) : Nat) : Int)) s.dev) d))) ∧
  (∀ (n : Fin 16) (e : Env) (o : Nat) (s : State), StandsAt s n 8 e → o = bits e.i.w1 20 12 →
    (statConv e o = none → Does (.tstat n []) s (touches (.tstat n [])) (fun d => Stepped e d ∧ StoresAs s.dev s.dev d)) ∧
    (∀ (i : TInstr) (c : Coord) (x y : Src) (bias : Option Nat) (at_ : Int × Int × Int) (len : Nat) (l : List Conv) (t : Nat),
      statConv e o = some i → c = e.coord i.cb → x = srcOf s.dev e (e.coord e.i.ca) → y = srcOf s.dev e (e.coord i.convSrc) →
      bias = (if e.i.flag 12 then some e.i.cb else none) → len = (if e.i.flag 10 then min (e.len x.co) (e.len c) else 0) →
      at_ = (x.line e - y.line e, x.co.x e.x0 - y.co.x e.x0, 64 * ((e.group x.co : Int) - e.group y.co)) →
      BiasReady s.dev e bias (if e.i.flag 10 then 64 * c.ncg else 64) → (e.i.flag 10 = true → x.Free s.dev e [x.line e] len) →
      l = (if e.i.flag 10 = false then tileConvs s.dev e o (bits e.i.w1 4 4) (bits e.i.w1 8 4 + 1) bias c
        else if i.op = 9 ∧ x.dyn.isSome = true then (rebased s.dev e x (srcConvs s.dev e o x bias c len at_)).map (·.1)
        else srcConvs s.dev e o x bias c len at_) → t = (stepTensor e.b o).getD 0 →
      Does (.tstat n []) s (touches (.tstat n [])) (fun d => Stepped e d ∧ StoresAs s.dev s.dev d ∧
        ∀ k, k ∈ cellsIn l → cellMeasures s.dev e.c.out o k e.c.pfn = true →
        ((cellAt d e.c.out o k e.c.pfn).parts.get Partial.none e.j).stat =
          ((l.filter (fun r => r.cell == some k)).map (fun r => magnitude (tFmt e.b t) (tZp e.b t) r.v)).foldl max
            ((cellAt s.dev e.c.out o k e.c.pfn).parts.get Partial.none e.j).stat ∧
        (e.i.flag 11 = true → (cellAt d e.c.out o k e.c.pfn).sent.testBit e.j = true)))) ∧
  (∀ (o i : Nat) (pfn : Word) (c : Ctx) (s : State), alive s.dev = true →
    (s.dev.br.flatMap (fun x => x.2.ctxs)).find? (fun c => c.pfn == pfn.toNat && c.out == false &&
      (taskSteps (img0 s.dev) c.task).contains o) = some c →
    ((cellAt s.dev false o i pfn.toNat).ready = true ∨ cellMeasures s.dev false o i pfn.toNat = false →
      Does (.maximumTreeDone o i pfn) s [] (fun _ => True)) ∧
    ((cellAt s.dev false o i pfn.toNat).ready = false → cellMeasures s.dev false o i pfn.toNat = true →
      contributors s.dev false (img0 s.dev) c.task o i c.wo c.ho ≠ [] →
      (∀ j, j ∈ contributors s.dev false (img0 s.dev) c.task o i c.wo c.ho → (cellAt s.dev false o i pfn.toNat).sent.testBit j = true) →
      Does (.maximumTreeDone o i pfn) s [.cells] (fun d => (cellAt d false o i pfn.toNat).ready = true ∧
        (cellAt d false o i pfn.toNat).parts = (cellAt s.dev false o i pfn.toNat).parts ∧
        (cellAt d false o i pfn.toNat).scale = (derive (ostepAt (img0 s.dev) o)
          (((cellAt s.dev false o i pfn.toNat).parts.map (fun x => x.2.stat)).foldl max 0)
          (usableRange (tFmt (img0 s.dev) ((stepTensor (img0 s.dev) o).getD 0)) (tZp (img0 s.dev) ((stepTensor (img0 s.dev) o).getD 0)))).1)))

/-- TWARP weights the taps around each position; TBOX keeps the candidates whose best score reaches the threshold, in order, up to the
list's size; TNMS keeps the records that no kept record suppresses (R187 to R191, R194 to R200). The model's own choices in it: log
entries 5, 25, 59, 63, 87. -/
def Obligations.DetectionUnitsWriteTheirLists : Prop :=
  (∀ (n : Fin 16) (e : Env) (c : Coord) (x v : Src) (len m : Nat) (vline : Option Int) (gy : Int) (gx ix iy : Nat → Int)
      (vec : Nat → Nat → Int) (posx posy : Nat → Int) (s : State), StandsAt s n 0xA e → c = e.coord e.i.cb →
    x = srcOf s.dev e (e.coord e.i.ca) → v = srcOf s.dev e (e.coord (bits e.i.w1 0 8)) → len = e.len c → 0 < len → c.trunk = false →
    slotBusy s.dev e c.index (e.line c) = false → x.Whole s.dev e → v.Whole s.dev e → (x.dyn = none ∨ e.i.flag 12 = false) →
    m = (if e.i.flag 11 then 4 else 2) →
    (∀ (o vo : Place × Place) (om : OutMap) (flat : Bool), o = placeOf e.b (groveIdx s.dev e.c.out) (hOut e.b e.p) →
      vo = (match v.t with
        | some t => placeOf e.b (groveIdx s.dev e.c.out) t
        | none => (⟨0, 0, 0⟩, ⟨0, 0, 0⟩)) → om = outMap e.b e.p c.index → flat = decide ((e.region c).slots = 0) →
      gy = o.2.org + (if flat then (e.y : Int) else c.y e.y) + om.lo ∧
      vline = padAxis v.co.pad v.yi.1 v.yi.2 (gy.fdiv (2 ^ e.i.ff 13 2 : Nat) - vo.2.org) ∧
      ∀ k, k < len → gx k = o.1.org + (if flat then ((e.x0 + k : Nat) : Int) else c.x (e.x0 + k)) + om.xo ∧
        (∀ q, vec q k = (match padAxis v.co.pad v.xi.1 v.xi.2 ((gx k).fdiv (2 ^ e.i.ff 13 2 : Nat) - vo.1.org), vline with
          | some px, some y => (v.rawRow s.dev e y (64 * e.group v.co + q)).getD px.toNat 0
          | _, _ => 0)) ∧
        posx k = warpPos (gx k) (bits e.i.w2 0 19) (satMv (vec 0 k) (bits (e.word s.dev (bits e.i.w1 17 8)) 0 10)).1
          (bits e.i.w1 8 9) (e.i.flag 10) ∧
        posy k = warpPos gy (bits e.i.w3 0 19) (satMv (vec 1 k) (bits (e.word s.dev (bits e.i.w1 17 8)) 10 8)).1
          (bits e.i.w1 8 9) (e.i.flag 10)) →
    (∀ (o so : Place × Place) (im : Nat → (Int × Int) × (Int × Int)), o = placeOf e.b (groveIdx s.dev e.c.out) (hOut e.b e.p) →
      so = (match x.t with
        | some t => placeOf e.b (groveIdx s.dev e.c.out) t
        | none => (⟨0, 0, 0⟩, ⟨0, 0, 0⟩)) →
      (∀ k, im k = x.image s.dev e (gx k - o.1.org) (gy - o.2.org)) →
      (∀ k, k < len → ix k = (posx k).fdiv 16 - (if e.i.flag 11 then 1 else 0) - so.1.org ∧
        iy k = (posy k).fdiv 16 - (if e.i.flag 11 then 1 else 0) - so.2.org) →
      Does (.twarp n []) s (touches (.twarp n [])) (fun d => Stepped e d ∧
        StoresAs s.dev (e.putRows c (e.line c) ((e.chans c).take 4) len (fun ch k =>
          (fun sum : Int => if x.dyn.isSome then (outStep e (bits e.i.w3 19 12) c sum).1
              else if e.i.flag 11 then (satFmt x.fmt (rhe sum 12)).1 else rhe sum 8)
            (((List.range m).flatMap (fun (l : Nat) => (List.range m).map (fun (h : Nat) =>
              warpWeight (e.i.flag 11) ((posx k) % 16).toNat ((posy k) % 16).toNat h l *
              (match (warpTap (e.i.flag 12) (im k).1.1 (im k).1.2 (ix k + h)).1, (warpTap (e.i.flag 12) (im k).2.1 (im k).2.2 (iy k + l)).1 with
                | some a, some b => (fun el : Int => if x.dyn.isSome then (x.prep s.dev e scaleIdentity a b (x.chan e c ch) el).v else el)
                    ((x.rawRow s.dev e b (x.chan e c ch)).getD a.toNat x.zp)
                | _, _ => toS 32 (e.word s.dev (bits e.i.w2 19 8)))))).sum)) s.dev) d))) ∧
  (∀ (n : Fin 16) (e : Env) (x v : Src) (len list nc cap : Nat) (best : Nat → Int × Nat) (s : State), StandsAt s n 0xD e →
    x = srcOf s.dev e (e.coord e.i.ca) → v = srcOf s.dev e (e.coord (bits e.i.w1 0 8)) → list = (e.coord e.i.cb).index →
    len = e.len x.co → 0 < len → slotBusy s.dev e list 0 = false → x.Free s.dev e [x.line e] len → v.Free s.dev e [v.line e] len →
    nc = bits e.i.w1 14 8 + 1 → cap = bits e.i.w2 0 12 + 1 →
    (∀ m, m < len → best m = bestClass ((List.range nc).map (fun q =>
      ((x.prepRow s.dev e (e.word s.dev (bits e.i.w2 20 8)) (64 * e.group x.co + q) len 0).getD m Prep.zero).v))) →
    Does (.tbox n []) s (touches (.tbox n [])) (fun d => Stepped e d ∧ (∀ i t, twig d i t = twig s.dev i t) ∧
      ∃ hits old : List Cand, ∃ dr : Nat, (old, dr) = (if e.c.boxes.contains list then listRead s.dev e list cap else ([], 0)) ∧
        hits.map (fun h => (h.score, h.cls)) = ((List.range len).filter (fun m => (x.lineOf s.dev e (x.line e)).isSome &&
          (x.pos s.dev e m 0).isSome && decide (toS 32 (e.word s.dev (bits e.i.w2 12 8)) ≤ (best m).1))).map best ∧
        (∀ i, (branch d i).store = (branch (listWrite e list ((Cand.sort (old ++ hits)).take cap)
          (dr + ((Cand.sort (old ++ hits)).length - cap)) s.dev) i).store) ∧
        (curCtx d e.n).map (fun c => c.boxes.contains list) = some true)) ∧
  (∀ (n : Fin 16) (e : Env) (out first : Nat) (l : List Cand) (r : List Cand × Nat) (s : State), StandsAt s n 0xE e →
    first = (e.coord e.i.ca).index → out = (e.coord e.i.cb).index → slotBusy s.dev e out 0 = false →
    (∀ i, i < bits e.i.w1 0 4 + 1 → slotBusy s.dev e (first + i) 0 = false) →
    l = Cand.sort (((List.range (bits e.i.w1 0 4 + 1)).flatMap (fun i => (listRead s.dev e (first + i) 16384).1)).take 16384) →
    r = nmsWalk (e.i.flag 10) (bits e.i.w1 16 11) (bits e.i.w2 0 10 + 1) [] l →
    Does (.tnms n []) s (touches (.tnms n [])) (fun d => Stepped e d ∧
      StoresAs s.dev (listWrite e out (r.1.reverse.map (fun c => { c with flags := setBit c.flags 0 true })) r.2 s.dev) d ∧
      (reg d (aNmsKept e.n)).toNat = min ((reg s.dev (aNmsKept e.n)).toNat + r.1.length) 0xFFFFFFFF ∧
      (reg d (aNmsDrop e.n)).toNat = min ((reg s.dev (aNmsDrop e.n)).toNat + r.2) 0xFFFFFFFF))
/-- TLOAD puts lines of a tensor or whole weight tiles into a region, a weight tile into a plane, a codebook or an activation table into
its slot; TSTORE writes region lines and accumulator tiles to their tensor, and pixel words for the output frame buffer by segments; a
multicast tile lands at the members that asked for it; each waits for pages and lines not at hand (R39, R43, R74, R78, R149, R153, R224 to
R227, R232, R332, R548). The model's own choices in it: log entries 20, 21, 24, 63, 81, 91. -/
def Obligations.TilesMoveBetweenTrunkAndBranch : Prop :=
  (∀ (n : Fin 16) (e : Env) (t slot : Nat) (s : State), StandsAt s n 1 e → t = e.onTwig s.dev → slot = bits e.i.w1 0 3 →
    (e.i.ff 10 2 = 2 → (slice e.b (tableBody e.b (e.i.w1 / 65536)) 512).length = 512 →
      Does (.tload n []) s (touches (.tload n [])) (fun d => Stepped e d ∧ (∀ m, (branch d m).store = (branch s.dev m).store) ∧
        ∀ u i, e.worksOn s.dev u → i < 256 →
          bookEntry (twig d e.n u) slot i = toS 16 (u16 (slice e.b (tableBody e.b (e.i.w1 / 65536)) 512) (2 * i)))) ∧
    (e.i.ff 10 2 = 3 → (slice e.b (tableBody e.b (e.i.w1 / 65536)) 1032).length = 1032 →
      Does (.tload n []) s (touches (.tload n [])) (fun d => Stepped e d ∧ StoresAs s.dev s.dev d ∧
        Map.getN 0 (branch d e.n).table (1032 * slot) 1032 = slice e.b (tableBody e.b (e.i.w1 / 65536)) 1032)) ∧
    (∀ (c : Coord) (fmt pl tb : Nat) (f : Option Nat) (bs : Bytes), e.i.ff 10 2 = 1 → c = e.coord e.i.ca →
      tb = tileBytes e.i.layout fmt e.i.bw e.i.kh → f = e.loadSlot s.dev c.index → pl = e.plane (e.i.ff 14 1) →
      (c.trunk = false → slotBusy s.dev e c.index 0 = false) →
      (c.trunk = true → f ≠ none → AtHand s.dev e.sp [(tileAddr e.b c.index (f.getD 0) (e.group c) tb, tb)]) →
      fmt = (if c.trunk then tFmt e.b c.index
        else match weightTensor e.b e.p c.index with | some t => tFmt e.b t | none => (e.region c).fmt) →
      bs = (if c.trunk then slotBytes s.dev e f (tileAddr e.b c.index (f.getD 0) (e.group c) tb) tb
        else sRead s.dev e.c.logic ((e.region c).base * 1024 + e.group c % max 1 ((e.region c).size * 1024 / max 1 tb) * tb) tb) →
      Does (.tload n []) s (touches (.tload n [])) (fun d => Stepped e d ∧ (∀ m, (branch d m).store = (branch s.dev m).store) ∧
        ∀ u, e.worksOn s.dev u → (twig d e.n u).geo.get 0 pl = e.i.kh * 16 + e.i.dil ∧ ∀ i, i < tileElems e.i.layout fmt e.i.bw e.i.kh →
          i < 65536 → planeAt (twig d e.n u) pl i = (weightOf (twig s.dev e.n u) fmt (bits e.i.w1 14 3) (elemCode fmt bs i)).1)) ∧
    (∀ (a dst : Coord) (f : Option Nat) (tb : Nat), e.i.ff 10 2 = 0 → a = e.coord e.i.ca → dst = e.coord e.i.cb →
      (∀ j, j < bits e.i.w1 0 5 → slotBusy s.dev e dst.index (a.y e.y + (j : Int)) = false) → loadsTiles e.b e.p e.i = some tb →
      f = e.loadSlot s.dev a.index → (f ≠ none → AtHand s.dev e.sp [(tileAddr e.b a.index (f.getD 0) (e.group a) tb, a.ncg * tb)]) →
      Does (.tload n []) s (touches (.tload n [])) (fun d => Stepped e d ∧ StoresAs s.dev ((List.range a.ncg).foldl (fun w k =>
        sWrite w e.c.logic ((e.region dst).base * 1024 + (e.group dst + k) % max 1 ((e.region dst).size * 1024 / tb) * tb)
          (slotBytes s.dev e f (tileAddr e.b a.index (f.getD 0) (e.group a + k) tb) tb)) s.dev) d ∧
        (curCtx d e.n).map (·.rels) = some (e.c.rels ++ if e.i.flag 12 = true ∧ f ≠ none then
          pagesOf [(tileAddr e.b a.index (f.getD 0) (e.group a) tb, a.ncg * tb)] else []))) ∧
    (∀ (a dst : Coord) (f : Option Nat) (lines ys : List Int) (fn : Nat) (img : Int × Int) (runs : Int → List (Nat × Nat)) (x : Src),
      e.i.ff 10 2 = 0 → a = e.coord e.i.ca → dst = e.coord e.i.cb → loadsTiles e.b e.p e.i = none →
      lines = (List.range (bits e.i.w1 0 5)).map (fun (j : Nat) => a.y e.y + (j : Int)) → fn = e.loadFrame s.dev a.index →
      x = { srcOf s.dev e { a with trunk := true } with
        fn, xi := (imageOf s.dev e.b e.c.out a.index fn).1, yi := (imageOf s.dev e.b e.c.out a.index fn).2 } →
      img = (x.image s.dev e e.x0 e.y).2 → f = e.loadSlot s.dev a.index → ys = lines.filterMap (padAxis a.pad img.1 img.2) →
      (∀ y, runs y = if (patternOf e.b a.index).isSome then []
        else lineRuns e.b a.index (f.getD 0) y.toNat (64 * e.group a) (64 * a.ncg) (max 0 (a.x e.x0)).toNat (spanPx a (tW e.b a.index))) →
      ((∃ y, y ∈ lines ∧ slotBusy s.dev e dst.index y = true) → Does (.tload n []) s [] (fun _ => True)) ∧
      ((∀ y, y ∈ lines → slotBusy s.dev e dst.index y = false) →
        (f ≠ none → (∃ y, y ∈ ys ∧ lineSkipped s.dev e.b a.index fn y = false ∧ ¬ AtHand s.dev e.sp (runs y)) →
          Does (.tload n []) s (touches (.tload n [])) (Waits e s.dev)) ∧
        ((f ≠ none → ∀ y, y ∈ ys → lineSkipped s.dev e.b a.index fn y = false → AtHand s.dev e.sp (runs y)) →
          Does (.tload n []) s (touches (.tload n [])) (fun d => Stepped e d ∧ StoresAs s.dev
            (lines.foldl (fun w y => (List.range (if (e.region dst).fmt = 0xF then 1 else 64 * a.ncg)).foldl (fun w q =>
              putRow (e.region dst) e.c.logic (if (e.region dst).slots = 0 then y - a.y e.y else y) (64 * e.group dst + q)
                (if (e.region dst).slots = 0 then (loadLine s.dev e a f fn y (64 * e.group a + q) (spanPx a (tW e.b a.index)) img).map
                    (fun v => (v.1 - a.x e.x0, v.2))
                  else loadLine s.dev e a f fn y (64 * e.group a + q) (spanPx a (tW e.b a.index)) img) w) w) s.dev) d ∧
            (curCtx d e.n).map (·.rels) = some (e.c.rels ++ if e.i.flag 12 = true ∧ f ≠ none then pagesOf (ys.flatMap runs) else []) ∧
            (e.i.flag 13 = true → (dst.index, fn) ∈ ((curCtx d e.n).map (·.lat)).getD [])))))) ∧
  (∀ (n : Fin 16) (e : Env) (a c : Coord) (t slot nl : Nat) (s : State), StandsAt s n 0xF e → a = e.coord e.i.ca → c = e.coord e.i.cb →
    t = c.index → slot = e.c.pfn % max 1 (tSlots e.b t) → nl = bits e.i.w1 8 4 + 1 →
    (e.i.flag 10 = false → storeShown s.dev e.b e.c.out t slot = true → Does (.tstore n []) s [] (fun _ => True)) ∧
    (∀ (o len : Nat) (us : List Nat) (line : Nat → Int) (ok : Bool), e.i.flag 10 = false → e.i.flag 11 = true →
      storeShown s.dev e.b e.c.out t slot = false → us = (List.range nl).filter e.lineKept →
      (∀ u, line u = if (e.region a).slots = 0 then (u : Int) else a.y e.y + u) →
      (∀ u, u ∈ us → slotBusy s.dev e a.index (line u) = false) → (lineRing s.dev (branchRing e.c.out t)).slots = 0 →
      len = min (min (spanPx a (tW e.b t)) (spanPx c (tW e.b t))) (e.c.wo - e.x0) →
      o = ledgerFrame s.dev e.b e.c.task e.c.pfn → tBind e.b t = 3 →
      ok = us.all (fun (u : Nat) => !(decide (0 ≤ c.y e.y + (u : Int) ∧ c.y e.y + (u : Int) < (tH e.b t : Int)) &&
        storeTooEarly s.dev e.b t o (c.y e.y + (u : Int)).toNat)) →
      (ok = false → Does (.tstore n []) s [] (fun _ => True)) ∧
      (ok = true → Does (.tstore n []) s (touches (.tstore n [])) (fun d => Stepped e d ∧ StoresAs s.dev s.dev d ∧
        ∃ l, d.ras = { s.dev.ras with segQ := s.dev.ras.segQ ++ l } ∧
        (c.pmul = 1 → c.psh = 0 → c.poff = 0 → l.flatMap (·.bytes) =
          (us.filter (fun (u : Nat) => decide (0 ≤ c.y e.y + (u : Int) ∧ c.y e.y + (u : Int) < (tH e.b t : Int)))).flatMap (fun (u : Nat) =>
            ((List.range len).filter (fun i => decide (e.x0 + i < tW e.b t))).flatMap (fun i =>
            le 4 (((rowOf s.dev e.c.logic (e.region a) (line u) 0).getD
              (if (e.region a).slots = 0 then i else (a.x (e.x0 + i)).toNat) 0).toNat % 2 ^ 30)))) ∧
        ∀ g, g ∈ l → g.ofn = o ∧ (∃ u, u ∈ us ∧ (g.y : Int) = c.y e.y + (u : Int)) ∧ g.pipe = kPipe e.b e.c.task ∧ g.logic = e.c.logic ∧
          g.sigNo = e.c.nSig ∧ g.addr = tAddr e.b t slot g.y 0 0 + 4 * g.x))) ∧
    (∀ (len f : Nat) (us : List Nat) (line : Nat → Int) (pos : Nat → Nat) (row : Nat → Nat → List Int) (rows : List (Int × Nat × List (Int × Int))),
      e.i.flag 10 = false → e.i.flag 11 = false → storeShown s.dev e.b e.c.out t slot = false →
      us = (List.range nl).filter e.lineKept → f = 2 ^ e.i.ff 12 2 →
      (∀ u, line u = if (e.region a).slots = 0 then (u : Int) else a.y e.y + u) →
      (∀ u, u ∈ us → slotBusy s.dev e a.index (line u) = false) →
      (lineRing s.dev (branchRing e.c.out t)).slots = 0 ∨ us.length * f ≤ (lineRing s.dev (branchRing e.c.out t)).prod →
      len = min (min (spanPx a (tW e.b t / f)) (spanPx c (tW e.b t / f))) (e.c.wo - e.x0) →
      (∀ i, pos i = if (e.region a).slots = 0 then i else (a.x (e.x0 + i)).toNat) →
      (∀ u q, row u q = if (e.region a).nch ≤ q then List.replicate (e.region a).npx (srcOf s.dev e a).zp
        else rowOf s.dev e.c.logic (e.region a) (line u) q) →
      rows = us.flatMap (fun (u : Nat) => (List.range (64 * if f = 1 then c.ncg else a.ncg)).map (fun q =>
        let els := ((List.range len).filter (fun i => decide (pos i < (row u (64 * e.group a + q)).length))).map (fun i =>
          (c.x (e.x0 + i), (row u (64 * e.group a + q)).getD (pos i) 0))
        if f = 1 then (c.y e.y + (u : Int), 64 * e.group c + q, els)
        else ((c.y e.y + (u : Int)) * f + ((64 * e.group a + q) % (f * f) / f : Nat), (64 * e.group a + q) / (f * f),
          els.map (fun v => (v.1 * f + ((64 * e.group a + q) % (f * f) % f : Nat), v.2))))) →
      (∀ r, r ∈ rows → 0 ≤ r.1 → r.1 < (tH e.b t : Int) → r.2.1 < tC e.b t → ∀ k, k < cdiv (tW e.b t) 64 →
        Resident s.dev e.sp [(tAddr e.b t slot r.1.toNat r.2.1 k, runBytes (tFmt e.b t) (min (tW e.b t) 64))]) →
      Does (.tstore n []) s (touches (.tstore n [])) (fun d => Stepped e d ∧ StoresAs s.dev s.dev d ∧
        ((Ctx.norm e.b e.p e.j e.nb 8 { e.c with idx := e.c.idx + 1, short := false }).sect ≠ 4 →
          d.mem = (storeRows e t slot rows s.dev).1.mem))) ∧
    (∀ (els : List Drained) (rows : List (Int × Nat × List (Int × Int))), e.i.flag 10 = true →
      els = (drainEls s.dev e (bits e.i.w1 0 4) (bits e.i.w1 4 4 + 1)).filter (fun x => e.lineKept x.u) →
      rows = ((List.range 2).flatMap (fun (u : Nat) => (List.range 64).map (fun (q : Nat) =>
        (c.y e.y + (u : Int), 64 * e.group c + q, (els.filter (fun x => x.u == u && x.c == q)).map (fun x =>
          (c.x (e.x0 + x.i), (satFmt 8 x.v).1)))))).filter (fun r => !r.2.2.isEmpty) →
      (lineRing s.dev (branchRing e.c.out t)).slots = 0 ∨ 2 ≤ (lineRing s.dev (branchRing e.c.out t)).prod →
      (∀ r, r ∈ rows → 0 ≤ r.1 → r.1 < (tH e.b t : Int) → r.2.1 < tC e.b t → ∀ k, k < cdiv (tW e.b t) 64 →
        Resident s.dev e.sp [(tAddr e.b t slot r.1.toNat r.2.1 k, runBytes (tFmt e.b t) (min (tW e.b t) 64))]) →
      Does (.tstore n []) s (touches (.tstore n [])) (fun d => Stepped e d ∧ StoresAs s.dev s.dev d ∧
        ((Ctx.norm e.b e.p e.j e.nb 8 { e.c with idx := e.c.idx + 1, short := false }).sect ≠ 4 →
          d.mem = (storeRows e t slot rows s.dev).1.mem) ∧
        ∀ j, j < bits e.i.w1 4 4 + 1 → slotHeld (twig s.dev e.n (e.onTwig s.dev)) (e.slot (bits e.i.w1 0 4 + j)) = true →
          (curCtx d e.n).map (fun c => c.drains.contains (e.onTwig s.dev, e.slot (bits e.i.w1 0 4 + j))) = some true))) ∧
  (∀ (n : Fin 16) (e : Env) (s : State), StandsAt s n 0xC e → Does (.tmcast n) s (touches (.tmcast n)) (fun d => Stepped e d ∧
    StoresAs s.dev s.dev d ∧ (branch d e.c.logic).mcast = (branch s.dev e.c.logic).mcast ++
      [{ tree := bits e.i.w1 0 6, tensor := (e.coord e.i.ca).index, slot := moveSlot s.dev e.b e.c.task e.c.pfn (e.coord e.i.ca).index 0,
         tile := e.group (e.coord e.i.ca), ntile := bits e.i.w1 8 4 + 1, region := (e.coord e.i.cb).index, t0 := e.group (e.coord e.i.cb),
         rel := e.i.flag 10, task := e.c.task, pfn := e.c.pfn, out := e.c.out, logic := e.c.logic, sigNo := e.c.nSig }])) ∧
  (∀ (tree : Fin 64) (l : List Mcast) (s : State), alive s.dev = true → l = mcastReqs s.dev tree.val →
    ((∀ m, m ∈ l → brInService s.nv s.dev m.logic = true ∧ ∃ q, q < 16 ∧ (treeMask (imgOf s.dev m.out) tree.val).testBit q = true ∧
        brInService s.nv s.dev q = true ∧ ∀ r, r ∈ l → r.logic = q → r.pairs m = false) →
      Does (.multicastFetch tree []) s [] (fun _ => True)) ∧
    (∀ (m : Mcast) (b : Bytes) (sp : Nat) (run : Nat × Nat) (all : List Mcast), l.find? (fun m => !brInService s.nv s.dev m.logic ||
        (List.range 16).all (fun q => !(treeMask (imgOf s.dev m.out) tree.val).testBit q || !brInService s.nv s.dev q ||
          l.any (fun r => r.logic == q && r.pairs m))) = some m → b = imgOf s.dev m.out → sp = m.out.toNat →
      run = (tileAddr b m.tensor m.slot m.tile (mcastTb b m), m.ntile * mcastTb b m) →
      all = (if brInService s.nv s.dev m.logic then l.filter (fun r => r.pairs m && brInService s.nv s.dev r.logic) else [m]) →
      (¬ AtHand s.dev sp [run] → Does (.multicastFetch tree []) s (touches (.multicastFetch tree [])) (fun d =>
        StoresAs s.dev s.dev d ∧ ∀ q, (branch d q).mcast = (branch s.dev q).mcast)) ∧
      (AtHand s.dev sp [run] → Does (.multicastFetch tree []) s (touches (.multicastFetch tree [])) (fun d =>
        StoresAs s.dev (all.foldl (fun w r => (List.range r.ntile).foldl (fun w k =>
          sWrite w r.logic ((regionAt b (progOff b (kProg b r.task)) r.region).base * 1024 +
            (r.t0 + k) % max 1 ((regionAt b (progOff b (kProg b r.task)) r.region).size * 1024 / mcastTb b r) * mcastTb b r)
            (slice (vpeek s.dev sp run.1 run.2) (k * mcastTb b r) (mcastTb b r))) w) s.dev) d ∧
        (∀ q r, r ∈ (branch d q).mcast → r ∈ (branch s.dev q).mcast) ∧
        (all = [m] → m ∈ (branch s.dev m.logic).mcast →
          (branch d m.logic).mcast.length + 1 = (branch s.dev m.logic).mcast.length)))))

/-- THALO sends lines to the neighbour or names those expected, and a line lands in its slot; a TSIG lands once every earlier write of its
Branch is acknowledged; a TWAIT goes on at its target, else the context is held and goes on when the Ring gets there (R211, R228 to R230,
R255, R488). The model's own choices in it: log entries 57, 63, 92. -/
def Obligations.BranchesExchangeSignalAndWait : Prop :=
  (∀ (n : Fin 16) (e : Env) (c : Coord) (s : State), StandsAt s n 0xB e → c = e.coord e.i.ca →
    ((∃ y, y ∈ haloLines s.dev e ∧ slotBusy s.dev e c.index y = true) → Does (.thalo n []) s [] (fun _ => True)) ∧
    ((∀ y, y ∈ haloLines s.dev e → slotBusy s.dev e c.index y = false) →
      (e.i.flag 10 = true → Does (.thalo n []) s (touches (.thalo n [])) (fun d => Stepped e d ∧ StoresAs s.dev s.dev d ∧
        (branch d e.c.logic).haloRx = (branch s.dev e.c.logic).haloRx ++ (haloLines s.dev e).map (fun y =>
          ⟨c.index, y.toNat, [], e.c.task, e.c.pfn, e.c.out, e.c.logic, e.c.nSig⟩))) ∧
      (∀ m, e.i.flag 10 = false → m = haloNeighbour s.nv e.b e.c.logic (e.i.ff 11 1) → e.c.again = [] →
        Does (.thalo n []) s (touches (.thalo n [])) (fun d => Stepped e d ∧ StoresAs s.dev s.dev d ∧
          (curCtx d e.n).map (·.sent) = some (e.c.sent ++ (haloLines s.dev e).map (fun y => (m, c.index, y.toNat))) ∧
          (branch d m).haloIn = (branch s.dev m).haloIn ++ (haloLines s.dev e).map (fun y =>
            ⟨c.index, y.toNat, sRead s.dev e.c.logic ((e.region c).addr y 0 0) (e.region c).slotBytes, e.c.task, e.c.pfn, e.c.out,
              e.c.logic, e.c.nSig⟩))))) ∧
  (∀ (n : Fin 16) (x : Branch) (s : State), alive s.dev = true → x = branch s.dev n.val →
    ((∀ h r, h ∈ x.haloIn → r ∈ x.haloRx → (h.task, h.pfn, h.out, h.region, h.line) ≠ (r.task, r.pfn, r.out, r.region, r.line)) →
      Does (.haloLineLanded n) s [] (fun _ => True)) ∧
    (∀ h r l l', x.haloIn = h :: l → x.haloRx = r :: l' → (h.task, h.pfn, h.out, h.region, h.line) = (r.task, r.pfn, r.out, r.region, r.line) →
      Does (.haloLineLanded n) s [.br] (fun d => StoresAs s.dev (sWrite s.dev n.val ((regionAt (imgOf s.dev h.out)
          (progOff (imgOf s.dev h.out) (kProg (imgOf s.dev h.out) h.task)) h.region).addr h.line 0 0) h.bytes) d ∧
        (branch d n.val).haloIn = l ∧ (branch d n.val).haloRx = l' ∧ (branch d n.val).haloLog = x.haloLog ++ [h]))) ∧
  (∀ (n : Fin 16) (e : Env) (s : State), StandsAt s n 0x10 e → Does (.tsig n) s (touches (.tsig n)) (fun d => Stepped e d ∧
    StoresAs s.dev s.dev d ∧ d.ring = s.dev.ring ∧
    (curCtx d e.n).map (fun c => (c.sigs, c.nSig)) = some (e.c.sigs ++ [(e.i.w1 % 65536, e.i.w2)], e.c.nSig + 1))) ∧
  (∀ (n : Fin 16) (x : Branch) (s : State), alive s.dev = true → x = branch s.dev n.val →
    ((∀ c, c ∈ x.ctxs → c.sigs = [] ∨ writesOut s.dev c = true) → Does (.tsigLand n) s [] (fun _ => True)) ∧
    (∀ c r a l, x.ctxs.find? (fun c => !c.sigs.isEmpty && !writesOut s.dev c) = some c → c.sigs = (r, a) :: l → c.absorb = [] →
      Does (.tsigLand n) s [.ring, .stem, .br] (fun d =>
        (∀ q, ringVal d q = if q = r then (ringVal s.dev q + a) % 2 ^ 32 else ringVal s.dev q) ∧
        (∀ y, y ∈ (branch d n.val).ctxs → y.same c = true → y.sigs = l) ∧
        (taskSt d c.task c.pfn c.out).map (fun t => t.sig.get 0 (c.logic * 65536 + r)) =
          (taskSt s.dev c.task c.pfn c.out).map (fun t => t.sig.get 0 (c.logic * 65536 + r) + a)))) ∧
  (∀ (n : Fin 16) (e : Env) (w : Nat × Nat) (s : State), StandsAt s n 0x11 e →
    w = (e.i.w1 % 65536, min (e.i.w2 + e.i.w3 % 65536 * e.y) (ringTotal s.dev e.b (e.i.w1 % 65536))) →
    (twaitMet s.dev e.c w = true → Does (.twait n) s (touches (.twait n)) (fun d => Stepped e d ∧ StoresAs s.dev s.dev d)) ∧
    (twaitMet s.dev e.c w = false → Does (.twait n) s [.regs, .br] (fun d => curCtx d n.val = some { e.c with wait := some w } ∧
      RegsBut (boundaryRegs n.val) s.dev d ∧ (inFlight s.dev n.val e.c = false → flag d (seqBoundary n.val) = true) ∧
      (inFlight s.dev n.val e.c = true → Only [.br] s.dev d)))) ∧
  (∀ (n : Fin 16) (x : Branch) (s : State), alive s.dev = true → x = branch s.dev n.val →
    ((∀ c w, c ∈ x.ctxs → c.wait = some w → twaitMet s.dev c w = false) → Does (.twaitMet n) s [] (fun _ => True)) ∧
    (∀ c w l b, x.ctxs = c :: l → c.wait = some w → twaitMet s.dev c w = true → b = imgOf s.dev c.out → (∀ y, y ∈ l → y.same c = false) →
      Does (.twaitMet n) s (touches (.twaitMet n)) (fun d => (branch d n.val).ctxs =
        Ctx.norm b (progOff b (kProg b c.task)) (logicalNo b c.task c.logic) (kBranches b c.task).length 8
          { c with wait := none, idx := c.idx + 1, edge := c.edge || !(x.cur.isSome && !flag s.dev (seqBoundary n.val)) } :: l)))

/-- A camera frame start puts the context named into force and begins, counts and places a frame, or drops it where the ISP is fenced; a
line lands for a credit, else its frame is dropped; the end fills the frame and reports its shape; CAM_CTL turns the port on and off
(R366, R367, R371, R372, R375, R376, R493). The model's own choices in it: log entries 40, 41, 45, 46, 47. -/
def Obligations.CameraPortsTakeFrames : Prop :=
  ∀ (s : State) (p : Fin 2) (c : Nat), alive s.dev = true → c = fld s.dev (camCtx p.val) →
    (flag s.dev (camEn p.val) = false ∨ fenced s.dev (0x3D + p.val) = true ∨ (landing s.dev p.val).isSome = true →
      Does (.camFrameStart p) s [] (fun _ => True)) ∧
    (flag s.dev (camEn p.val) = true → fenced s.dev (0x3D + p.val) = false → landing s.dev p.val = none →
      s.dev.cam.idle.testBit p.val = true ∨ ctxOnPort (img0 s.dev) c p.val = false →
      Does (.camFrameStart p) s [.live] (fun e => inForce e (camCtx p.val) = c)) ∧
    (∀ n, flag s.dev (camEn p.val) = true → fenced s.dev (0x3D + p.val) = false → landing s.dev p.val = none →
      s.dev.cam.idle.testBit p.val = false → ctxOnPort (img0 s.dev) c p.val = true →
      n = (if s.dev.cam.begun.testBit c then add32 (fld s.dev (cxCfn c)) 1 else fld s.dev (cxCfn c)) →
      (fenced s.dev 0x3F = false → Does (.camFrameStart p) s (touches (.camFrameStart p)) (fun e =>
        (∃ f, e.cam.frames = s.dev.cam.frames ++ [f] ∧ (f.port, f.ctx, f.cfn, f.done, f.chk) = (p.val, c, n, 0, 0) ∧ f.lines = [] ∧
          f.base = add32 (ringVal s.dev (camLineRing p.val)) (camOwed s.dev p.val) ∧ f.t0 = s.dev.devTime.toNat ∧ f.out = false ∧
          f.ended = false ∧ f.entered = false ∧ f.clamped = false ∧ f.short = false) ∧
        e.cam.begun = setBit s.dev.cam.begun c true ∧ inForce e (camCtx p.val) = c ∧
        (∀ x o, s.dev.cam.expQ.get none c = some x → ctxOff (img0 s.dev) c = some o → e.cam.expQ.get none c = none ∧
          e.cam.bus.get [] (cI2c (img0 s.dev) o % 2) = s.dev.cam.bus.get [] (cI2c (img0 s.dev) o % 2) ++ [(c, x)]) ∧
        (keyedToCam s.dev c = false → Only [.regs, .live, .ring, .cam] s.dev e ∧ fld e (cxCfn c) = n ∧
          flag e (camInFrame p.val) = true ∧ fld e (camLine p.val) = 0 ∧ (∀ r, ringVal e r = ringVal s.dev r) ∧
          (e.ring.base.get [] (camLineRing p.val)).head? =
            some (n, add32 (ringVal s.dev (camLineRing p.val)) (camOwed s.dev p.val))))) ∧
      (∀ o, fenced s.dev 0x3F = true → keyedToCam s.dev c = false → ctxOff (img0 s.dev) c = some o →
        Does (.camFrameStart p) s (touches (.camFrameStart p)) (fun e => e.cam.frames = s.dev.cam.frames ∧ fld e (cxCfn c) = n ∧
          (∀ r, ringVal e r = if r = camLineRing p.val then (ringVal s.dev r + cH (img0 s.dev) o) % 2 ^ 32
            else if r = camFrameRing p.val then (ringVal s.dev r + 1) % 2 ^ 32 else ringVal s.dev r) ∧
          (reg e (aCamDrop p.val)).toNat = min ((reg s.dev (aCamDrop p.val)).toNat + 1) 0xFFFFFFFF ∧
          Raised 0x0602 (0x3D + p.val) 2 (c + n % 65536 * 65536) s.dev e))) ∧
    (∀ (l : List Nat) (k : BitVec 16), landing s.dev p.val = none → Does (.camLineLanded p l k) s [] (fun _ => True)) ∧
    (∀ (l : List Nat) (k : BitVec 16) (f : CamFrame), landing s.dev p.val = some f → f.height s.dev ≤ f.lines.length →
      Does (.camLineLanded p l k) s [.cam] (fun e => e.cam = { s.dev.cam with frames := framesWith s.dev { f with clamped := true } })) ∧
    (∀ (l : List Nat) (k : BitVec 16) (f : CamFrame), landing s.dev p.val = some f → f.lines.length < f.height s.dev → f.ctx < 8 →
      (lineRing s.dev (landKey f)).prod = 0 → Does (.camLineLanded p l k) s (touches (.camLineLanded p l k)) (fun e =>
        e.cam = { s.dev.cam with frames := framesBut s.dev f } ∧ flag e (camInFrame p.val) = false ∧
        (reg e aRingOvf).toNat = min ((reg s.dev aRingOvf).toNat + 1) 0xFFFFFFFF ∧
        (reg e (aCamDrop p.val)).toNat = min ((reg s.dev (aCamDrop p.val)).toNat + 1) 0xFFFFFFFF ∧
        (∀ r, ringVal e r = if r = camLineRing p.val then (ringVal s.dev r + (f.height s.dev - f.done)) % 2 ^ 32
          else if r = camFrameRing p.val then (ringVal s.dev r + 1) % 2 ^ 32 else ringVal s.dev r) ∧
        Raised 0x0602 (0x3D + p.val) 2 (f.ctx + f.cfn % 65536 * 65536) s.dev e)) ∧
    (∀ (l : List Nat) (k : BitVec 16) (f : CamFrame) (w dw : Nat) (bad : Bool), landing s.dev p.val = some f →
      f.lines.length < f.height s.dev → (lineRing s.dev (landKey f)).prod ≠ 0 → w = cW (camImg s.dev f) (camRec s.dev f) →
      dw = cDw (camImg s.dev f) (camRec s.dev f) →
      bad = (cChk (camImg s.dev f) (camRec s.dev f) && decide (l.length ≤ w) && camCrc (l.map (· % 2 ^ dw)) != k.toNat) →
      Does (.camLineLanded p l k) s (touches (.camLineLanded p l k)) (fun e =>
        e.cam = { s.dev.cam with frames := framesWith s.dev { f with lines := f.lines ++ [(List.range w).map (fun i => (l.map (· % 2 ^ dw)).getD i 0 * 2 ^ (16 - dw))], clamped := f.clamped || decide (w < l.length), short := f.short || decide (l.length < w), chk := f.chk + bad.toNat } } ∧
        fld e (camLine p.val) = (f.lines.length + 1) % 8192 ∧ e.ring = s.dev.ring ∧
        (reg e (aCamChkErr p.val)).toNat = (if bad then min ((reg s.dev (aCamChkErr p.val)).toNat + 1) 0xFFFFFFFF
          else (reg s.dev (aCamChkErr p.val)).toNat))) ∧
    (landing s.dev p.val = none → Does (.camFrameEnd p) s [.regs] (fun e => flag e (camInFrame p.val) = false ∧
      RegsBut [(camInFrame p.val).addr] s.dev e)) ∧
    (∀ f, landing s.dev p.val = some f → f.ctx < 8 → Does (.camFrameEnd p) s (touches (.camFrameEnd p)) (fun e =>
      e.cam = { s.dev.cam with frames := framesWith s.dev (f.closed s.dev) } ∧ flag e (camInFrame p.val) = false ∧
      (f.clamped = true ∨ (f.closed s.dev).short = true →
        (reg e (aCamShape p.val)).toNat = min ((reg s.dev (aCamShape p.val)).toNat + 1) 0xFFFFFFFF ∧
        Raised 0x0603 (0x3D + p.val) 2
          (f.clamped.toNat + (f.closed s.dev).short.toNat * 2 + f.ctx * 16 + f.cfn % 65536 * 65536) s.dev e) ∧
      (f.clamped = false → (f.closed s.dev).short = false → f.chk ≠ 0 →
        Raised 0x0601 (0x3D + p.val) 2 (min f.chk 65535 + f.cfn % 65536 * 65536) s.dev e) ∧
      (f.clamped = false → (f.closed s.dev).short = false → f.chk = 0 → Only [.regs, .cam] s.dev e ∧
        RegsBut [(camInFrame p.val).addr] s.dev e))) ∧
    (∀ khz : Nat, Does (.camPclkMeasure p khz) s [.regs] (fun e => fld e (camPclk p.val) = min khz (2 ^ 18 - 1) ∧
      RegsBut [(camPclk p.val).addr] s.dev e)) ∧
    (∀ v : Word, fenced s.dev (0x3D + p.val) = true → Does (.camCtlWrite p v) s [] (fun _ => True)) ∧
    (∀ v : Word, fenced s.dev (0x3D + p.val) = false → v.toNat % 2 = 1 → Does (.camCtlWrite p v) s [.regs, .cam] (fun e =>
      flag e (camEn p.val) = true ∧ RegsBut [camBase p.val] s.dev e ∧
      (ctxOnPort (img0 s.dev) (bits v.toNat 1 3) p.val = true → fld e (camCtx p.val) = bits v.toNat 1 3 ∧
        e.cam = { s.dev.cam with idle := setBit s.dev.cam.idle p.val false }) ∧
      (ctxOnPort (img0 s.dev) (bits v.toNat 1 3) p.val = false → fld e (camCtx p.val) = c ∧ e.cam = s.dev.cam))) ∧
    (∀ v : Word, fenced s.dev (0x3D + p.val) = false → v.toNat % 2 = 0 → Does (.camCtlWrite p v) s (touches (.camCtlWrite p v)) (fun e =>
      flag e (camEn p.val) = false ∧
      (flag s.dev (camEn p.val) = false → RegsBut [camBase p.val] s.dev e ∧ Only [.regs, .cam] s.dev e ∧
        e.cam.frames = s.dev.cam.frames) ∧
      (∀ f, flag s.dev (camEn p.val) = true → landing s.dev p.val = some f →
        flag e (camInFrame p.val) = false ∧ e.cam.frames = framesWith s.dev (f.closed s.dev))))
/-- The oldest frame enters the ISP with the parameters that are complete; a line is processed once the lines it reads have landed, with
its outputs, statistics and counts; a complete frame leaves its record and counts on its Ring; GO queues an exposure, its last write names
the frame that it governs, and a byte not acknowledged abandons it (R376, R377, R380, R382, R384 to R386, R388, R390). The model's own
choices in it: log entries 43, 44, 47, 48, 101. -/
def Obligations.IspProcessesAndExposes : Prop :=
  (∀ s : State, alive s.dev = true →
    (fenced s.dev 0x3F = true ∨ s.dev.cam.frames = [] ∨ s.dev.cam.frames.any (·.entered) = true →
      Does .ispFrameEnter s [] (fun _ => True)) ∧
    (∀ f l, fenced s.dev 0x3F = false → s.dev.cam.frames = f :: l → s.dev.cam.frames.any (·.entered) = false → f.ctx < 8 →
      ((∀ tag ps, s.dev.cam.pend.get none f.ctx = some (tag, some ps) → f.out = true) →
        Does .ispFrameEnter s [.regs, .cam, .free] (fun e =>
          e.cam = { s.dev.cam with frames := framesWith s.dev { f with entered := true, newP := false, params := if f.out then f.params else ctxParams s.dev f.ctx, seq := fld s.dev (cxParamSeq f.ctx), free0 := s.dev.free } } ∧
          flag e ispBusy = true ∧ fld e ispCtx = f.ctx ∧ RegsBut [0x182000] s.dev e)) ∧
      (∀ tag ps, s.dev.cam.pend.get none f.ctx = some (tag, some ps) → ps ≠ [] → f.out = false →
        Does .ispFrameEnter s (touches .ispFrameEnter) (fun e => e.cam.frames = framesWith s.dev { f with entered := true, newP := true, params := ps, seq := (fld s.dev (cxParamSeq f.ctx) + 1) % 65536, free0 := s.dev.free } ∧
          e.cam.pend.get none f.ctx = none ∧ ctxParams e f.ctx = ps ∧ flag e ispBusy = true ∧ fld e ispCtx = f.ctx ∧
          flag e (cxParamPend f.ctx) = false ∧ fld e (cxParamSeq f.ctx) = (fld s.dev (cxParamSeq f.ctx) + 1) % 65536 ∧
          (∀ t, s.dev.usb.tags.find? (fun t => t.tag == tag && !t.done) = some t →
            Queued [{ tag := tag % 65536, addr := t.addr, status := stOk, payload := [] }] s.dev e) ∧
          Raised 0x0605 (0x3D + f.port) 0 (f.ctx + f.cfn % 65536 * 65536) s.dev e)))) ∧
  (∀ s : State, alive s.dev = true →
    ((∀ f, s.dev.cam.frames.find? (·.entered) = some f → fenced s.dev 0x3F = true ∨ ispLineReady s.dev f = false) →
      Does (.ispLineProcessed []) s [] (fun _ => True)) ∧
    (∀ f, s.dev.cam.frames.find? (·.entered) = some f → fenced s.dev 0x3F = false → f.entered = true → f.done < f.height s.dev →
      min (f.done + 4) (f.height s.dev) ≤ f.lines.length →
      Does (.ispLineProcessed []) s [.regs, .ring, .trk, .mem, .cam] (fun e =>
        e.cam = { s.dev.cam with frames := framesWith s.dev { ispStats (ispIn s.dev f) f.done f with done := f.done + 1 } } ∧
        e.mem = (ispRows f f.done s.dev).mem ∧
        (∀ r, ringVal e r = if r = camLineRing f.port then (ringVal s.dev r + 1) % 2 ^ 32 else ringVal s.dev r) ∧
        (reg e aIspDpc).toNat = min ((reg s.dev aIspDpc).toNat + (ispCounts (ispIn s.dev f) f.done).1) 0xFFFFFFFF ∧
        (reg e aIspSat).toNat = min ((reg s.dev aIspSat).toNat + (ispCounts (ispIn s.dev f) f.done).2) 0xFFFFFFFF)) ∧
    ((∀ f, s.dev.cam.frames.find? (·.entered) = some f → fenced s.dev 0x3F = true ∨ f.done < f.height s.dev ∨ f.ended = false) →
      Does .ispFrameComplete s [] (fun _ => True)) ∧
    (∀ f, s.dev.cam.frames.find? (·.entered) = some f → fenced s.dev 0x3F = false → f.height s.dev ≤ f.done → f.ended = true → f.ctx < 8 →
      Does .ispFrameComplete s [.regs, .ring, .trk, .mem, .cam] (fun e => e.cam = { s.dev.cam with frames := framesBut s.dev f } ∧
        e.mem = (writeStats f (statsBytes s.dev f) s.dev).mem ∧
        (∀ r, ringVal e r = if r = camFrameRing f.port then (ringVal s.dev r + 1) % 2 ^ 32 else ringVal s.dev r) ∧
        reg e (cxLastCfn f.ctx) = BitVec.ofNat 32 f.cfn ∧ reg e (cxLast f.ctx) = BitVec.ofNat 32 (camFlags s.dev f false) ∧
        ((framesBut s.dev f).any (·.entered) = false → flag e ispBusy = false)))) ∧
  (∀ (s : State) (c : Fin 8) (v : Word), alive s.dev = true →
    ((bits v.toNat 16 1 = 0 ∨ ctxOff (img0 s.dev) c.val = none ∨ ctxDisabled s.dev c.val = true) →
      Does (.exposureGo c v) s [.regs] (fun e => fld e (cxReqDgain c.val) = v.toNat % 65536 ∧
        flag e (cxQueued c.val) = flag s.dev (cxQueued c.val) ∧ RegsBut [(cxQueued c.val).addr] s.dev e)) ∧
    (∀ x o, bits v.toNat 16 1 = 1 → ctxOff (img0 s.dev) c.val = some o → ctxDisabled s.dev c.val = false →
      x = (fld s.dev (cxReqLines c.val), fld s.dev (cxReqAgain c.val), v.toNat % 65536) →
      Does (.exposureGo c v) s [.regs, .cam] (fun e => fld e (cxReqDgain c.val) = v.toNat % 65536 ∧ flag e (cxQueued c.val) = true ∧
        RegsBut [(cxQueued c.val).addr] s.dev e ∧
        (s.dev.cam.bus.any (fun l => (l.2.drop 1).any (fun y => y.1 == c.val)) = false → e.cam.bus = s.dev.cam.bus ∧
          e.cam.expQ.get none c.val = some x) ∧
        (s.dev.cam.bus.any (fun l => (l.2.drop 1).any (fun y => y.1 == c.val)) = true → e.cam.expQ = s.dev.cam.expQ ∧
          ∀ b, e.cam.bus.get [] b = (s.dev.cam.bus.get [] b).take 1 ++
            ((s.dev.cam.bus.get [] b).drop 1).map (fun y => if y.1 == c.val then (c.val, x) else y))))) ∧
  (∀ (s : State) (b : Fin 2), alive s.dev = true →
    (s.dev.cam.bus.get [] b.val = [] → Does (.i2cExposureDone b) s [] (fun _ => True) ∧
      ∀ n k : Nat, Does (.camI2cNak b n k) s [] (fun _ => True)) ∧
    (∀ c x l, s.dev.cam.bus.get [] b.val = (c, x) :: l → c < 8 →
      (∀ o, ctxOff (img0 s.dev) c = some o → Does (.i2cExposureDone b) s [.regs, .cam] (fun e => e.cam.bus.get [] b.val = l ∧
        e.cam.expRec.get [] c = ((add32 (fld s.dev (cxCfn c)) (1 + cDelay (img0 s.dev) o), x) :: s.dev.cam.expRec.get [] c).take 64 ∧
        e.cam.expQ = s.dev.cam.expQ ∧ e.cam.frames = s.dev.cam.frames ∧ RegsBut [(cxQueued c).addr] s.dev e ∧
        (flag e (cxQueued c) = if (s.dev.cam.expQ.get none c).isSome || (s.dev.cam.bus.put [] b.val l).any (fun m => m.2.any (fun y => y.1 == c))
          then flag s.dev (cxQueued c) else false))) ∧
      (∀ n k q : Nat, q = ((ctxOff (img0 s.dev) c).map (fun o => u8 (img0 s.dev) (o + 1) % 2)).getD 0 →
        Does (.camI2cNak b n k) s [.regs, .usb, .root, .cam] (fun e => e.cam.bus.get [] b.val = l ∧
          e.cam.expRec = s.dev.cam.expRec ∧ e.cam.expQ = s.dev.cam.expQ ∧
          (reg e (aCamNak q)).toNat = min ((reg s.dev (aCamNak q)).toNat + 1) 0xFFFFFFFF ∧
          Raised 0x0604 (0x3D + q) 1 (c + n % 4 * 16 + k % 256 * 256) s.dev e))))
end

