-- ==== Sys2Proof/Laws/Map.lean ====
section
/-! SUPPORT. Sparse data by key: a read after a write, and that every operation keeps the canonical form. -/

namespace Sys2Proof

variable {α : Type}

theorem Map.get_nil (d : α) (k : Nat) : Map.get d [] k = d := rfl

theorem Map.get_of_absent (d : α) {m : Map α} {k : Nat} (h : ∀ e ∈ m, e.1 ≠ k) : m.get d k = d := by
  induction m with
  | nil => rfl
  | cons e m ih =>
    have h1 := h e (by simp)
    have h2 := ih (fun x hx => h x (by simp [hx]))
    simp [Map.get, h1, h2]

theorem Map.get_erase_same (d : α) (m : Map α) (k : Nat) : (m.erase k).get d k = d :=
  Map.get_of_absent d (fun e he => by simpa [Map.erase] using (List.mem_filter.mp he).2)

theorem Map.get_erase_other (d : α) (m : Map α) {k j : Nat} (h : j ≠ k) : (m.erase k).get d j = m.get d j := by
  induction m with
  | nil => rfl
  | cons e m ih =>
    by_cases he : e.1 = k
    · have : e.1 ≠ j := fun hj => h (hj.symm.trans he)
      simp only [Map.erase, ne_eq, he, not_true_eq_false, decide_false, Bool.false_eq_true, not_false_eq_true,
        List.filter_cons_of_neg, Map.get, this.symm, h.symm, if_false] at ih ⊢
      exact ih
    · simp only [Map.erase, ne_eq, he, not_false_eq_true, decide_true, List.filter_cons_of_pos, Map.get] at ih ⊢
      rw [ih]

theorem Map.get_insert_same (d : α) {m : Map α} {k : Nat} (v : α) (h : ∀ e ∈ m, e.1 ≠ k) : (m.insert k v).get d k = v := by
  induction m with
  | nil => simp [Map.insert, Map.get]
  | cons e m ih =>
    have h1 := h e (by simp)
    by_cases hk : k < e.1
    · simp [Map.insert, hk, Map.get]
    · simp [Map.insert, hk, Map.get, h1, ih (fun x hx => h x (by simp [hx]))]

theorem Map.get_insert_other (d : α) (m : Map α) {k j : Nat} (v : α) (h : j ≠ k) : (m.insert k v).get d j = m.get d j := by
  induction m with
  | nil => simp [Map.insert, Map.get, h.symm]
  | cons e m ih =>
    by_cases hk : k < e.1
    · simp [Map.insert, hk, Map.get, h.symm]
    · simp [Map.insert, hk, Map.get, ih]

/-- A read of the key just written gives the value written. -/
@[simp] theorem Map.get_put_same [DecidableEq α] (d : α) (m : Map α) (k : Nat) (v : α) : (m.put d k v).get d k = v := by
  unfold Map.put
  split
  · next h => rw [Map.get_erase_same, h]
  · exact Map.get_insert_same d v (fun e he => by simpa [Map.erase] using (List.mem_filter.mp he).2)

/-- A write leaves every other key alone. -/
theorem Map.get_put_other [DecidableEq α] (d : α) (m : Map α) {k j : Nat} (v : α) (h : j ≠ k) : (m.put d k v).get d j = m.get d j := by
  unfold Map.put
  split
  · exact Map.get_erase_other d m h
  · rw [Map.get_insert_other d _ v h, Map.get_erase_other d m h]

theorem Map.get_put [DecidableEq α] (d : α) (m : Map α) (k j : Nat) (v : α) :
    (m.put d k v).get d j = if j = k then v else m.get d j := by
  split
  · next h => rw [h, Map.get_put_same]
  · next h => exact Map.get_put_other d m v h

/-! ## The canonical form -/

theorem Map.wf_nil (d : α) : Map.wf d ([] : Map α) := ⟨List.Pairwise.nil, fun _ h => by cases h⟩

theorem Map.wf_filter {d : α} {m : Map α} (p : Nat × α → Bool) (h : Map.wf d m) : Map.wf d (m.filter p) :=
  ⟨h.1.filter p, fun e he => h.2 e (List.mem_filter.mp he).1⟩

theorem Map.mem_insert {m : Map α} {k : Nat} {v : α} {e : Nat × α} (h : e ∈ m.insert k v) : e = (k, v) ∨ e ∈ m := by
  induction m with
  | nil => simpa [Map.insert] using h
  | cons x m ih =>
    by_cases hk : k < x.1
    · simpa [Map.insert, hk] using h
    · simp only [Map.insert, hk, if_false, List.mem_cons] at h
      rcases h with h | h
      · exact .inr (by simp [h])
      · rcases ih h with h | h
        · exact .inl h
        · exact .inr (by simp [h])

theorem Map.wf_insert {d : α} {m : Map α} {k : Nat} {v : α} (h : Map.wf d m) (hk : ∀ e ∈ m, e.1 ≠ k) (hv : v ≠ d) :
    Map.wf d (m.insert k v) := by
  refine ⟨?_, fun e he => ?_⟩
  · obtain ⟨h1, -⟩ := h
    induction m with
    | nil => simp [Map.insert]
    | cons x m ih =>
      have hx := List.pairwise_cons.mp h1
      by_cases hlt : k < x.1
      · simp only [Map.insert, hlt, if_true]
        refine List.pairwise_cons.mpr ⟨fun e he => ?_, h1⟩
        rcases List.mem_cons.mp he with he | he
        · simpa [he] using hlt
        · exact Nat.lt_trans hlt (hx.1 e he)
      · simp only [Map.insert, hlt, if_false]
        refine List.pairwise_cons.mpr ⟨fun e he => ?_, ih (fun e he => hk e (by simp [he])) hx.2⟩
        rcases Map.mem_insert he with he | he
        · have := hk x (by simp)
          simp only [he]; omega
        · exact hx.1 e he
  · rcases Map.mem_insert he with he | he
    · simpa [he] using hv
    · exact h.2 e he

/-- A write keeps the canonical form. -/
theorem Map.wf_put [DecidableEq α] {d : α} {m : Map α} (k : Nat) (v : α) (h : Map.wf d m) : Map.wf d (m.put d k v) := by
  unfold Map.put
  split
  · exact Map.wf_filter _ h
  · next hv => exact Map.wf_insert (Map.wf_filter _ h) (fun e he => by simpa [Map.erase] using (List.mem_filter.mp he).2) hv

/-- Consecutive writes keep the canonical form. -/
theorem Map.wf_putN [DecidableEq α] {d : α} {m : Map α} (k : Nat) (vs : List α) (h : Map.wf d m) : Map.wf d (m.putN d k vs) := by
  induction vs generalizing m k with
  | nil => exact h
  | cons v vs ih => exact ih (k + 1) (Map.wf_put k v h)

/-- A key outside the run written reads as before. -/
theorem Map.get_putN_outside [DecidableEq α] (d : α) (m : Map α) (k : Nat) (vs : List α) {j : Nat} (h : j < k ∨ k + vs.length ≤ j) :
    (m.putN d k vs).get d j = m.get d j := by
  induction vs generalizing m k with
  | nil => rfl
  | cons v vs ih =>
    simp only [List.length_cons] at h
    rw [Map.putN, ih _ _ (by omega), Map.get_put_other d m v (by omega)]

/-- A key inside the run written reads as the value written there. -/
theorem Map.get_putN_inside [DecidableEq α] (d : α) (m : Map α) (k : Nat) (vs : List α) {i : Nat} (h : i < vs.length) :
    (m.putN d k vs).get d (k + i) = vs[i] := by
  induction vs generalizing m k i with
  | nil => simp at h
  | cons v vs ih =>
    cases i with
    | zero => rw [Map.putN, Map.get_putN_outside d _ _ _ (by omega)]; simp
    | succ i =>
      have := ih (m.put d k v) (k + 1) (i := i) (by simpa using h)
      rw [Map.putN, show k + (i + 1) = k + 1 + i by omega, this]; simp

/-- Two canonical maps that read alike are the same data. -/
theorem Map.ext_of_get {d : α} {m n : Map α} (hm : Map.wf d m) (hn : Map.wf d n) (h : ∀ k, m.get d k = n.get d k) : m = n := by
  induction m generalizing n with
  | nil =>
    cases n with
    | nil => rfl
    | cons e n =>
      have := h e.1
      simp only [Map.get, if_true] at this
      exact absurd this.symm (hn.2 e (by simp))
  | cons e m ih =>
    cases n with
    | nil =>
      have := h e.1
      simp only [Map.get, if_true] at this
      exact absurd this (hm.2 e (by simp))
    | cons f n =>
      have pm := List.pairwise_cons.mp hm.1
      have pn := List.pairwise_cons.mp hn.1
      have absent {x : Nat × α} {l : Map α} (hx : ∀ a ∈ l, x.1 < a.1) {k : Nat} (hk : k ≤ x.1) : l.get d k = d :=
        Map.get_of_absent d (fun a ha => by have := hx a ha; omega)
      have hef : e.1 = f.1 := by
        rcases Nat.lt_trichotomy e.1 f.1 with hl | hl | hl
        · have := h e.1
          simp only [Map.get, if_true, show f.1 ≠ e.1 by omega, if_false] at this
          rw [absent pn.1 (by omega)] at this
          exact absurd this (hm.2 e (by simp))
        · exact hl
        · have := h f.1
          simp only [Map.get, if_true, show e.1 ≠ f.1 by omega, if_false] at this
          rw [absent pm.1 (by omega)] at this
          exact absurd this.symm (hn.2 f (by simp))
      have hv : e.2 = f.2 := by
        have := h e.1
        simpa only [Map.get, if_true, hef] using this
      have he : e = f := Prod.ext hef hv
      subst he
      congr 1
      refine ih ⟨pm.2, fun a ha => hm.2 a (by simp [ha])⟩ ⟨pn.2, fun a ha => hn.2 a (by simp [ha])⟩ (fun k => ?_)
      by_cases hk : e.1 = k
      · rw [absent pm.1 (by omega), absent pn.1 (by omega)]
      · have := h k
        simpa only [Map.get, hk, if_false] using this

end Sys2Proof
end

