-- ==== Sys2Proof/Laws/State.lean ====
section
/-! SUPPORT. What each update of the state leaves alone: one lemma per field, true by unfolding the update once. -/

namespace Sys2Proof.Machine

/-! ## setReg -/

@[simp] theorem setReg_regs (d : Dev) (a : Nat) (w : Word) : (setReg d a w).regs = d.regs.put 0 a w := rfl
@[simp] theorem setReg_live (d : Dev) (a : Nat) (w : Word) : (setReg d a w).live = d.live := rfl
@[simp] theorem setReg_hold (d : Dev) (a : Nat) (w : Word) : (setReg d a w).hold = d.hold := rfl
@[simp] theorem setReg_devTime (d : Dev) (a : Nat) (w : Word) : (setReg d a w).devTime = d.devTime := rfl
@[simp] theorem setReg_held (d : Dev) (a : Nat) (w : Word) : (setReg d a w).held = d.held := rfl
@[simp] theorem setReg_boot (d : Dev) (a : Nat) (w : Word) : (setReg d a w).boot = d.boot := rfl
@[simp] theorem setReg_clk (d : Dev) (a : Nat) (w : Word) : (setReg d a w).clk = d.clk := rfl
@[simp] theorem setReg_usb (d : Dev) (a : Nat) (w : Word) : (setReg d a w).usb = d.usb := rfl
@[simp] theorem setReg_ring (d : Dev) (a : Nat) (w : Word) : (setReg d a w).ring = d.ring := rfl
@[simp] theorem setReg_root (d : Dev) (a : Nat) (w : Word) : (setReg d a w).root = d.root := rfl
@[simp] theorem setReg_stem (d : Dev) (a : Nat) (w : Word) : (setReg d a w).stem = d.stem := rfl
@[simp] theorem setReg_trk (d : Dev) (a : Nat) (w : Word) : (setReg d a w).trk = d.trk := rfl
@[simp] theorem setReg_mem (d : Dev) (a : Nat) (w : Word) : (setReg d a w).mem = d.mem := rfl
@[simp] theorem setReg_ras (d : Dev) (a : Nat) (w : Word) : (setReg d a w).ras = d.ras := rfl
@[simp] theorem setReg_cnp (d : Dev) (a : Nat) (w : Word) : (setReg d a w).cnp = d.cnp := rfl
@[simp] theorem setReg_inp (d : Dev) (a : Nat) (w : Word) : (setReg d a w).inp = d.inp := rfl
@[simp] theorem setReg_cam (d : Dev) (a : Nat) (w : Word) : (setReg d a w).cam = d.cam := rfl
@[simp] theorem setReg_flt (d : Dev) (a : Nat) (w : Word) : (setReg d a w).flt = d.flt := rfl
@[simp] theorem setReg_br (d : Dev) (a : Nat) (w : Word) : (setReg d a w).br = d.br := rfl
@[simp] theorem setReg_cells (d : Dev) (a : Nat) (w : Word) : (setReg d a w).cells = d.cells := rfl
@[simp] theorem setReg_grv (d : Dev) (a : Nat) (w : Word) : (setReg d a w).grv = d.grv := rfl
@[simp] theorem setReg_free (d : Dev) (a : Nat) (w : Word) : (setReg d a w).free = d.free := rfl

/-! ## setLive -/

@[simp] theorem setLive_regs (d : Dev) (a : Nat) (w : Word) : (setLive d a w).regs = d.regs := rfl
@[simp] theorem setLive_live (d : Dev) (a : Nat) (w : Word) : (setLive d a w).live = d.live.put 0 a w := rfl
@[simp] theorem setLive_hold (d : Dev) (a : Nat) (w : Word) : (setLive d a w).hold = d.hold := rfl
@[simp] theorem setLive_devTime (d : Dev) (a : Nat) (w : Word) : (setLive d a w).devTime = d.devTime := rfl
@[simp] theorem setLive_held (d : Dev) (a : Nat) (w : Word) : (setLive d a w).held = d.held := rfl
@[simp] theorem setLive_boot (d : Dev) (a : Nat) (w : Word) : (setLive d a w).boot = d.boot := rfl
@[simp] theorem setLive_clk (d : Dev) (a : Nat) (w : Word) : (setLive d a w).clk = d.clk := rfl
@[simp] theorem setLive_usb (d : Dev) (a : Nat) (w : Word) : (setLive d a w).usb = d.usb := rfl
@[simp] theorem setLive_ring (d : Dev) (a : Nat) (w : Word) : (setLive d a w).ring = d.ring := rfl
@[simp] theorem setLive_root (d : Dev) (a : Nat) (w : Word) : (setLive d a w).root = d.root := rfl
@[simp] theorem setLive_stem (d : Dev) (a : Nat) (w : Word) : (setLive d a w).stem = d.stem := rfl
@[simp] theorem setLive_trk (d : Dev) (a : Nat) (w : Word) : (setLive d a w).trk = d.trk := rfl
@[simp] theorem setLive_mem (d : Dev) (a : Nat) (w : Word) : (setLive d a w).mem = d.mem := rfl
@[simp] theorem setLive_ras (d : Dev) (a : Nat) (w : Word) : (setLive d a w).ras = d.ras := rfl
@[simp] theorem setLive_cnp (d : Dev) (a : Nat) (w : Word) : (setLive d a w).cnp = d.cnp := rfl
@[simp] theorem setLive_inp (d : Dev) (a : Nat) (w : Word) : (setLive d a w).inp = d.inp := rfl
@[simp] theorem setLive_cam (d : Dev) (a : Nat) (w : Word) : (setLive d a w).cam = d.cam := rfl
@[simp] theorem setLive_flt (d : Dev) (a : Nat) (w : Word) : (setLive d a w).flt = d.flt := rfl
@[simp] theorem setLive_br (d : Dev) (a : Nat) (w : Word) : (setLive d a w).br = d.br := rfl
@[simp] theorem setLive_cells (d : Dev) (a : Nat) (w : Word) : (setLive d a w).cells = d.cells := rfl
@[simp] theorem setLive_grv (d : Dev) (a : Nat) (w : Word) : (setLive d a w).grv = d.grv := rfl
@[simp] theorem setLive_free (d : Dev) (a : Nat) (w : Word) : (setLive d a w).free = d.free := rfl

/-! ## setFld -/

@[simp] theorem setFld_live (d : Dev) (x : Fld) (v : Nat) : (setFld d x v).live = d.live := rfl
@[simp] theorem setFld_hold (d : Dev) (x : Fld) (v : Nat) : (setFld d x v).hold = d.hold := rfl
@[simp] theorem setFld_devTime (d : Dev) (x : Fld) (v : Nat) : (setFld d x v).devTime = d.devTime := rfl
@[simp] theorem setFld_held (d : Dev) (x : Fld) (v : Nat) : (setFld d x v).held = d.held := rfl
@[simp] theorem setFld_boot (d : Dev) (x : Fld) (v : Nat) : (setFld d x v).boot = d.boot := rfl
@[simp] theorem setFld_clk (d : Dev) (x : Fld) (v : Nat) : (setFld d x v).clk = d.clk := rfl
@[simp] theorem setFld_usb (d : Dev) (x : Fld) (v : Nat) : (setFld d x v).usb = d.usb := rfl
@[simp] theorem setFld_ring (d : Dev) (x : Fld) (v : Nat) : (setFld d x v).ring = d.ring := rfl
@[simp] theorem setFld_root (d : Dev) (x : Fld) (v : Nat) : (setFld d x v).root = d.root := rfl
@[simp] theorem setFld_stem (d : Dev) (x : Fld) (v : Nat) : (setFld d x v).stem = d.stem := rfl
@[simp] theorem setFld_trk (d : Dev) (x : Fld) (v : Nat) : (setFld d x v).trk = d.trk := rfl
@[simp] theorem setFld_mem (d : Dev) (x : Fld) (v : Nat) : (setFld d x v).mem = d.mem := rfl
@[simp] theorem setFld_ras (d : Dev) (x : Fld) (v : Nat) : (setFld d x v).ras = d.ras := rfl
@[simp] theorem setFld_cnp (d : Dev) (x : Fld) (v : Nat) : (setFld d x v).cnp = d.cnp := rfl
@[simp] theorem setFld_inp (d : Dev) (x : Fld) (v : Nat) : (setFld d x v).inp = d.inp := rfl
@[simp] theorem setFld_cam (d : Dev) (x : Fld) (v : Nat) : (setFld d x v).cam = d.cam := rfl
@[simp] theorem setFld_flt (d : Dev) (x : Fld) (v : Nat) : (setFld d x v).flt = d.flt := rfl
@[simp] theorem setFld_br (d : Dev) (x : Fld) (v : Nat) : (setFld d x v).br = d.br := rfl
@[simp] theorem setFld_cells (d : Dev) (x : Fld) (v : Nat) : (setFld d x v).cells = d.cells := rfl
@[simp] theorem setFld_grv (d : Dev) (x : Fld) (v : Nat) : (setFld d x v).grv = d.grv := rfl
@[simp] theorem setFld_free (d : Dev) (x : Fld) (v : Nat) : (setFld d x v).free = d.free := rfl

/-! ## bump -/

@[simp] theorem bump_live (d : Dev) (a n : Nat) : (bump d a n).live = d.live := rfl
@[simp] theorem bump_hold (d : Dev) (a n : Nat) : (bump d a n).hold = d.hold := rfl
@[simp] theorem bump_devTime (d : Dev) (a n : Nat) : (bump d a n).devTime = d.devTime := rfl
@[simp] theorem bump_held (d : Dev) (a n : Nat) : (bump d a n).held = d.held := rfl
@[simp] theorem bump_boot (d : Dev) (a n : Nat) : (bump d a n).boot = d.boot := rfl
@[simp] theorem bump_clk (d : Dev) (a n : Nat) : (bump d a n).clk = d.clk := rfl
@[simp] theorem bump_usb (d : Dev) (a n : Nat) : (bump d a n).usb = d.usb := rfl
@[simp] theorem bump_ring (d : Dev) (a n : Nat) : (bump d a n).ring = d.ring := rfl
@[simp] theorem bump_root (d : Dev) (a n : Nat) : (bump d a n).root = d.root := rfl
@[simp] theorem bump_stem (d : Dev) (a n : Nat) : (bump d a n).stem = d.stem := rfl
@[simp] theorem bump_trk (d : Dev) (a n : Nat) : (bump d a n).trk = d.trk := rfl
@[simp] theorem bump_mem (d : Dev) (a n : Nat) : (bump d a n).mem = d.mem := rfl
@[simp] theorem bump_ras (d : Dev) (a n : Nat) : (bump d a n).ras = d.ras := rfl
@[simp] theorem bump_cnp (d : Dev) (a n : Nat) : (bump d a n).cnp = d.cnp := rfl
@[simp] theorem bump_inp (d : Dev) (a n : Nat) : (bump d a n).inp = d.inp := rfl
@[simp] theorem bump_cam (d : Dev) (a n : Nat) : (bump d a n).cam = d.cam := rfl
@[simp] theorem bump_flt (d : Dev) (a n : Nat) : (bump d a n).flt = d.flt := rfl
@[simp] theorem bump_br (d : Dev) (a n : Nat) : (bump d a n).br = d.br := rfl
@[simp] theorem bump_cells (d : Dev) (a n : Nat) : (bump d a n).cells = d.cells := rfl
@[simp] theorem bump_grv (d : Dev) (a n : Nat) : (bump d a n).grv = d.grv := rfl
@[simp] theorem bump_free (d : Dev) (a n : Nat) : (bump d a n).free = d.free := rfl

/-! ## writeMem -/

@[simp] theorem writeMem_regs (d : Dev) (a : Nat) (bs : Bytes) : (writeMem d a bs).regs = d.regs := rfl
@[simp] theorem writeMem_live (d : Dev) (a : Nat) (bs : Bytes) : (writeMem d a bs).live = d.live := rfl
@[simp] theorem writeMem_hold (d : Dev) (a : Nat) (bs : Bytes) : (writeMem d a bs).hold = d.hold := rfl
@[simp] theorem writeMem_devTime (d : Dev) (a : Nat) (bs : Bytes) : (writeMem d a bs).devTime = d.devTime := rfl
@[simp] theorem writeMem_held (d : Dev) (a : Nat) (bs : Bytes) : (writeMem d a bs).held = d.held := rfl
@[simp] theorem writeMem_boot (d : Dev) (a : Nat) (bs : Bytes) : (writeMem d a bs).boot = d.boot := rfl
@[simp] theorem writeMem_clk (d : Dev) (a : Nat) (bs : Bytes) : (writeMem d a bs).clk = d.clk := rfl
@[simp] theorem writeMem_usb (d : Dev) (a : Nat) (bs : Bytes) : (writeMem d a bs).usb = d.usb := rfl
@[simp] theorem writeMem_ring (d : Dev) (a : Nat) (bs : Bytes) : (writeMem d a bs).ring = d.ring := rfl
@[simp] theorem writeMem_root (d : Dev) (a : Nat) (bs : Bytes) : (writeMem d a bs).root = d.root := rfl
@[simp] theorem writeMem_stem (d : Dev) (a : Nat) (bs : Bytes) : (writeMem d a bs).stem = d.stem := rfl
@[simp] theorem writeMem_trk (d : Dev) (a : Nat) (bs : Bytes) : (writeMem d a bs).trk = d.trk := rfl
@[simp] theorem writeMem_mem (d : Dev) (a : Nat) (bs : Bytes) : (writeMem d a bs).mem = Map.putN 0 d.mem a bs := rfl
@[simp] theorem writeMem_ras (d : Dev) (a : Nat) (bs : Bytes) : (writeMem d a bs).ras = d.ras := rfl
@[simp] theorem writeMem_cnp (d : Dev) (a : Nat) (bs : Bytes) : (writeMem d a bs).cnp = d.cnp := rfl
@[simp] theorem writeMem_inp (d : Dev) (a : Nat) (bs : Bytes) : (writeMem d a bs).inp = d.inp := rfl
@[simp] theorem writeMem_cam (d : Dev) (a : Nat) (bs : Bytes) : (writeMem d a bs).cam = d.cam := rfl
@[simp] theorem writeMem_flt (d : Dev) (a : Nat) (bs : Bytes) : (writeMem d a bs).flt = d.flt := rfl
@[simp] theorem writeMem_br (d : Dev) (a : Nat) (bs : Bytes) : (writeMem d a bs).br = d.br := rfl
@[simp] theorem writeMem_cells (d : Dev) (a : Nat) (bs : Bytes) : (writeMem d a bs).cells = d.cells := rfl
@[simp] theorem writeMem_grv (d : Dev) (a : Nat) (bs : Bytes) : (writeMem d a bs).grv = d.grv := rfl
@[simp] theorem writeMem_free (d : Dev) (a : Nat) (bs : Bytes) : (writeMem d a bs).free = d.free := rfl

/-! ## setFlds -/

theorem setFlds_shape (d : Dev) (l : List (Fld × Nat)) : setFlds d l = { d with regs := (setFlds d l).regs } := by
  induction l generalizing d with
  | nil => rfl
  | cons e l ih => exact ih (setFld d e.1 e.2)

@[simp] theorem setFlds_live (d : Dev) (l : List (Fld × Nat)) : (setFlds d l).live = d.live := by
  rw [setFlds_shape]
@[simp] theorem setFlds_hold (d : Dev) (l : List (Fld × Nat)) : (setFlds d l).hold = d.hold := by
  rw [setFlds_shape]
@[simp] theorem setFlds_devTime (d : Dev) (l : List (Fld × Nat)) : (setFlds d l).devTime = d.devTime := by
  rw [setFlds_shape]
@[simp] theorem setFlds_held (d : Dev) (l : List (Fld × Nat)) : (setFlds d l).held = d.held := by
  rw [setFlds_shape]
@[simp] theorem setFlds_boot (d : Dev) (l : List (Fld × Nat)) : (setFlds d l).boot = d.boot := by
  rw [setFlds_shape]
@[simp] theorem setFlds_clk (d : Dev) (l : List (Fld × Nat)) : (setFlds d l).clk = d.clk := by
  rw [setFlds_shape]
@[simp] theorem setFlds_usb (d : Dev) (l : List (Fld × Nat)) : (setFlds d l).usb = d.usb := by
  rw [setFlds_shape]
@[simp] theorem setFlds_ring (d : Dev) (l : List (Fld × Nat)) : (setFlds d l).ring = d.ring := by
  rw [setFlds_shape]
@[simp] theorem setFlds_root (d : Dev) (l : List (Fld × Nat)) : (setFlds d l).root = d.root := by
  rw [setFlds_shape]
@[simp] theorem setFlds_stem (d : Dev) (l : List (Fld × Nat)) : (setFlds d l).stem = d.stem := by
  rw [setFlds_shape]
@[simp] theorem setFlds_trk (d : Dev) (l : List (Fld × Nat)) : (setFlds d l).trk = d.trk := by
  rw [setFlds_shape]
@[simp] theorem setFlds_mem (d : Dev) (l : List (Fld × Nat)) : (setFlds d l).mem = d.mem := by
  rw [setFlds_shape]
@[simp] theorem setFlds_ras (d : Dev) (l : List (Fld × Nat)) : (setFlds d l).ras = d.ras := by
  rw [setFlds_shape]
@[simp] theorem setFlds_cnp (d : Dev) (l : List (Fld × Nat)) : (setFlds d l).cnp = d.cnp := by
  rw [setFlds_shape]
@[simp] theorem setFlds_inp (d : Dev) (l : List (Fld × Nat)) : (setFlds d l).inp = d.inp := by
  rw [setFlds_shape]
@[simp] theorem setFlds_cam (d : Dev) (l : List (Fld × Nat)) : (setFlds d l).cam = d.cam := by
  rw [setFlds_shape]
@[simp] theorem setFlds_flt (d : Dev) (l : List (Fld × Nat)) : (setFlds d l).flt = d.flt := by
  rw [setFlds_shape]
@[simp] theorem setFlds_br (d : Dev) (l : List (Fld × Nat)) : (setFlds d l).br = d.br := by
  rw [setFlds_shape]
@[simp] theorem setFlds_cells (d : Dev) (l : List (Fld × Nat)) : (setFlds d l).cells = d.cells := by
  rw [setFlds_shape]
@[simp] theorem setFlds_grv (d : Dev) (l : List (Fld × Nat)) : (setFlds d l).grv = d.grv := by
  rw [setFlds_shape]
@[simp] theorem setFlds_free (d : Dev) (l : List (Fld × Nat)) : (setFlds d l).free = d.free := by
  rw [setFlds_shape]

/-! ## Events -/

theorem pushEvent_shape (d : Dev) (e : EventRec) :
    pushEvent d e = { d with regs := (pushEvent d e).regs, usb := (pushEvent d e).usb } := by
  unfold pushEvent; split <;> rfl

theorem tellStem_shape (st : Option Nat) (e : EventRec) (d : Dev) : tellStem st e d = { d with stem := (tellStem st e d).stem } := by
  cases st <;> rfl

theorem complete_shape (d : Dev) (k st : Nat) (p : Bytes) : complete d k st p = { d with usb := (complete d k st p).usb } := by
  unfold complete; split <;> rfl

@[simp] theorem pushEvent_live (d : Dev) (e : EventRec) : (pushEvent d e).live = d.live := by
  rw [pushEvent_shape]
@[simp] theorem pushEvent_hold (d : Dev) (e : EventRec) : (pushEvent d e).hold = d.hold := by
  rw [pushEvent_shape]
@[simp] theorem pushEvent_devTime (d : Dev) (e : EventRec) : (pushEvent d e).devTime = d.devTime := by
  rw [pushEvent_shape]
@[simp] theorem pushEvent_held (d : Dev) (e : EventRec) : (pushEvent d e).held = d.held := by
  rw [pushEvent_shape]
@[simp] theorem pushEvent_boot (d : Dev) (e : EventRec) : (pushEvent d e).boot = d.boot := by
  rw [pushEvent_shape]
@[simp] theorem pushEvent_clk (d : Dev) (e : EventRec) : (pushEvent d e).clk = d.clk := by
  rw [pushEvent_shape]
@[simp] theorem pushEvent_ring (d : Dev) (e : EventRec) : (pushEvent d e).ring = d.ring := by
  rw [pushEvent_shape]
@[simp] theorem pushEvent_root (d : Dev) (e : EventRec) : (pushEvent d e).root = d.root := by
  rw [pushEvent_shape]
@[simp] theorem pushEvent_stem (d : Dev) (e : EventRec) : (pushEvent d e).stem = d.stem := by
  rw [pushEvent_shape]
@[simp] theorem pushEvent_trk (d : Dev) (e : EventRec) : (pushEvent d e).trk = d.trk := by
  rw [pushEvent_shape]
@[simp] theorem pushEvent_mem (d : Dev) (e : EventRec) : (pushEvent d e).mem = d.mem := by
  rw [pushEvent_shape]
@[simp] theorem pushEvent_ras (d : Dev) (e : EventRec) : (pushEvent d e).ras = d.ras := by
  rw [pushEvent_shape]
@[simp] theorem pushEvent_cnp (d : Dev) (e : EventRec) : (pushEvent d e).cnp = d.cnp := by
  rw [pushEvent_shape]
@[simp] theorem pushEvent_inp (d : Dev) (e : EventRec) : (pushEvent d e).inp = d.inp := by
  rw [pushEvent_shape]
@[simp] theorem pushEvent_cam (d : Dev) (e : EventRec) : (pushEvent d e).cam = d.cam := by
  rw [pushEvent_shape]
@[simp] theorem pushEvent_flt (d : Dev) (e : EventRec) : (pushEvent d e).flt = d.flt := by
  rw [pushEvent_shape]
@[simp] theorem pushEvent_br (d : Dev) (e : EventRec) : (pushEvent d e).br = d.br := by
  rw [pushEvent_shape]
@[simp] theorem pushEvent_cells (d : Dev) (e : EventRec) : (pushEvent d e).cells = d.cells := by
  rw [pushEvent_shape]
@[simp] theorem pushEvent_grv (d : Dev) (e : EventRec) : (pushEvent d e).grv = d.grv := by
  rw [pushEvent_shape]
@[simp] theorem pushEvent_free (d : Dev) (e : EventRec) : (pushEvent d e).free = d.free := by
  rw [pushEvent_shape]
@[simp] theorem tellStem_regs (st : Option Nat) (e : EventRec) (d : Dev) : (tellStem st e d).regs = d.regs := by
  rw [tellStem_shape]
@[simp] theorem tellStem_live (st : Option Nat) (e : EventRec) (d : Dev) : (tellStem st e d).live = d.live := by
  rw [tellStem_shape]
@[simp] theorem tellStem_hold (st : Option Nat) (e : EventRec) (d : Dev) : (tellStem st e d).hold = d.hold := by
  rw [tellStem_shape]
@[simp] theorem tellStem_devTime (st : Option Nat) (e : EventRec) (d : Dev) : (tellStem st e d).devTime = d.devTime := by
  rw [tellStem_shape]
@[simp] theorem tellStem_held (st : Option Nat) (e : EventRec) (d : Dev) : (tellStem st e d).held = d.held := by
  rw [tellStem_shape]
@[simp] theorem tellStem_boot (st : Option Nat) (e : EventRec) (d : Dev) : (tellStem st e d).boot = d.boot := by
  rw [tellStem_shape]
@[simp] theorem tellStem_clk (st : Option Nat) (e : EventRec) (d : Dev) : (tellStem st e d).clk = d.clk := by
  rw [tellStem_shape]
@[simp] theorem tellStem_usb (st : Option Nat) (e : EventRec) (d : Dev) : (tellStem st e d).usb = d.usb := by
  rw [tellStem_shape]
@[simp] theorem tellStem_ring (st : Option Nat) (e : EventRec) (d : Dev) : (tellStem st e d).ring = d.ring := by
  rw [tellStem_shape]
@[simp] theorem tellStem_root (st : Option Nat) (e : EventRec) (d : Dev) : (tellStem st e d).root = d.root := by
  rw [tellStem_shape]
@[simp] theorem tellStem_trk (st : Option Nat) (e : EventRec) (d : Dev) : (tellStem st e d).trk = d.trk := by
  rw [tellStem_shape]
@[simp] theorem tellStem_mem (st : Option Nat) (e : EventRec) (d : Dev) : (tellStem st e d).mem = d.mem := by
  rw [tellStem_shape]
@[simp] theorem tellStem_ras (st : Option Nat) (e : EventRec) (d : Dev) : (tellStem st e d).ras = d.ras := by
  rw [tellStem_shape]
@[simp] theorem tellStem_cnp (st : Option Nat) (e : EventRec) (d : Dev) : (tellStem st e d).cnp = d.cnp := by
  rw [tellStem_shape]
@[simp] theorem tellStem_inp (st : Option Nat) (e : EventRec) (d : Dev) : (tellStem st e d).inp = d.inp := by
  rw [tellStem_shape]
@[simp] theorem tellStem_cam (st : Option Nat) (e : EventRec) (d : Dev) : (tellStem st e d).cam = d.cam := by
  rw [tellStem_shape]
@[simp] theorem tellStem_flt (st : Option Nat) (e : EventRec) (d : Dev) : (tellStem st e d).flt = d.flt := by
  rw [tellStem_shape]
@[simp] theorem tellStem_br (st : Option Nat) (e : EventRec) (d : Dev) : (tellStem st e d).br = d.br := by
  rw [tellStem_shape]
@[simp] theorem tellStem_cells (st : Option Nat) (e : EventRec) (d : Dev) : (tellStem st e d).cells = d.cells := by
  rw [tellStem_shape]
@[simp] theorem tellStem_grv (st : Option Nat) (e : EventRec) (d : Dev) : (tellStem st e d).grv = d.grv := by
  rw [tellStem_shape]
@[simp] theorem tellStem_free (st : Option Nat) (e : EventRec) (d : Dev) : (tellStem st e d).free = d.free := by
  rw [tellStem_shape]
@[simp] theorem raise_live (d : Dev) (c u s a : Nat) : (raise d c u s a).live = d.live := by
  unfold raise; dsimp only; split <;> simp only [pushEvent_live, tellStem_live]
@[simp] theorem raise_hold (d : Dev) (c u s a : Nat) : (raise d c u s a).hold = d.hold := by
  unfold raise; dsimp only; split <;> simp only [pushEvent_hold, tellStem_hold]
@[simp] theorem raise_devTime (d : Dev) (c u s a : Nat) : (raise d c u s a).devTime = d.devTime := by
  unfold raise; dsimp only; split <;> simp only [pushEvent_devTime, tellStem_devTime]
@[simp] theorem raise_held (d : Dev) (c u s a : Nat) : (raise d c u s a).held = d.held := by
  unfold raise; dsimp only; split <;> simp only [pushEvent_held, tellStem_held]
@[simp] theorem raise_boot (d : Dev) (c u s a : Nat) : (raise d c u s a).boot = d.boot := by
  unfold raise; dsimp only; split <;> simp only [pushEvent_boot, tellStem_boot]
@[simp] theorem raise_clk (d : Dev) (c u s a : Nat) : (raise d c u s a).clk = d.clk := by
  unfold raise; dsimp only; split <;> simp only [pushEvent_clk, tellStem_clk]
@[simp] theorem raise_ring (d : Dev) (c u s a : Nat) : (raise d c u s a).ring = d.ring := by
  unfold raise; dsimp only; split <;> simp only [pushEvent_ring, tellStem_ring]
@[simp] theorem raise_trk (d : Dev) (c u s a : Nat) : (raise d c u s a).trk = d.trk := by
  unfold raise; dsimp only; split <;> simp only [pushEvent_trk, tellStem_trk]
@[simp] theorem raise_mem (d : Dev) (c u s a : Nat) : (raise d c u s a).mem = d.mem := by
  unfold raise; dsimp only; split <;> simp only [pushEvent_mem, tellStem_mem]
@[simp] theorem raise_ras (d : Dev) (c u s a : Nat) : (raise d c u s a).ras = d.ras := by
  unfold raise; dsimp only; split <;> simp only [pushEvent_ras, tellStem_ras]
@[simp] theorem raise_cnp (d : Dev) (c u s a : Nat) : (raise d c u s a).cnp = d.cnp := by
  unfold raise; dsimp only; split <;> simp only [pushEvent_cnp, tellStem_cnp]
@[simp] theorem raise_inp (d : Dev) (c u s a : Nat) : (raise d c u s a).inp = d.inp := by
  unfold raise; dsimp only; split <;> simp only [pushEvent_inp, tellStem_inp]
@[simp] theorem raise_cam (d : Dev) (c u s a : Nat) : (raise d c u s a).cam = d.cam := by
  unfold raise; dsimp only; split <;> simp only [pushEvent_cam, tellStem_cam]
@[simp] theorem raise_flt (d : Dev) (c u s a : Nat) : (raise d c u s a).flt = d.flt := by
  unfold raise; dsimp only; split <;> simp only [pushEvent_flt, tellStem_flt]
@[simp] theorem raise_br (d : Dev) (c u s a : Nat) : (raise d c u s a).br = d.br := by
  unfold raise; dsimp only; split <;> simp only [pushEvent_br, tellStem_br]
@[simp] theorem raise_cells (d : Dev) (c u s a : Nat) : (raise d c u s a).cells = d.cells := by
  unfold raise; dsimp only; split <;> simp only [pushEvent_cells, tellStem_cells]
@[simp] theorem raise_grv (d : Dev) (c u s a : Nat) : (raise d c u s a).grv = d.grv := by
  unfold raise; dsimp only; split <;> simp only [pushEvent_grv, tellStem_grv]
@[simp] theorem raise_free (d : Dev) (c u s a : Nat) : (raise d c u s a).free = d.free := by
  unfold raise; dsimp only; split <;> simp only [pushEvent_free, tellStem_free]
@[simp] theorem raiseStem_regs (d : Dev) (st : Option Nat) (c u s a : Nat) : (raiseStem d st c u s a).regs = d.regs := by
  unfold raiseStem; dsimp only; rw [tellStem_regs]
@[simp] theorem raiseStem_live (d : Dev) (st : Option Nat) (c u s a : Nat) : (raiseStem d st c u s a).live = d.live := by
  unfold raiseStem; dsimp only; rw [tellStem_live]
@[simp] theorem raiseStem_hold (d : Dev) (st : Option Nat) (c u s a : Nat) : (raiseStem d st c u s a).hold = d.hold := by
  unfold raiseStem; dsimp only; rw [tellStem_hold]
@[simp] theorem raiseStem_devTime (d : Dev) (st : Option Nat) (c u s a : Nat) : (raiseStem d st c u s a).devTime = d.devTime := by
  unfold raiseStem; dsimp only; rw [tellStem_devTime]
@[simp] theorem raiseStem_held (d : Dev) (st : Option Nat) (c u s a : Nat) : (raiseStem d st c u s a).held = d.held := by
  unfold raiseStem; dsimp only; rw [tellStem_held]
@[simp] theorem raiseStem_boot (d : Dev) (st : Option Nat) (c u s a : Nat) : (raiseStem d st c u s a).boot = d.boot := by
  unfold raiseStem; dsimp only; rw [tellStem_boot]
@[simp] theorem raiseStem_clk (d : Dev) (st : Option Nat) (c u s a : Nat) : (raiseStem d st c u s a).clk = d.clk := by
  unfold raiseStem; dsimp only; rw [tellStem_clk]
@[simp] theorem raiseStem_usb (d : Dev) (st : Option Nat) (c u s a : Nat) : (raiseStem d st c u s a).usb = d.usb := by
  unfold raiseStem; dsimp only; rw [tellStem_usb]
@[simp] theorem raiseStem_ring (d : Dev) (st : Option Nat) (c u s a : Nat) : (raiseStem d st c u s a).ring = d.ring := by
  unfold raiseStem; dsimp only; rw [tellStem_ring]
@[simp] theorem raiseStem_trk (d : Dev) (st : Option Nat) (c u s a : Nat) : (raiseStem d st c u s a).trk = d.trk := by
  unfold raiseStem; dsimp only; rw [tellStem_trk]
@[simp] theorem raiseStem_mem (d : Dev) (st : Option Nat) (c u s a : Nat) : (raiseStem d st c u s a).mem = d.mem := by
  unfold raiseStem; dsimp only; rw [tellStem_mem]
@[simp] theorem raiseStem_ras (d : Dev) (st : Option Nat) (c u s a : Nat) : (raiseStem d st c u s a).ras = d.ras := by
  unfold raiseStem; dsimp only; rw [tellStem_ras]
@[simp] theorem raiseStem_cnp (d : Dev) (st : Option Nat) (c u s a : Nat) : (raiseStem d st c u s a).cnp = d.cnp := by
  unfold raiseStem; dsimp only; rw [tellStem_cnp]
@[simp] theorem raiseStem_inp (d : Dev) (st : Option Nat) (c u s a : Nat) : (raiseStem d st c u s a).inp = d.inp := by
  unfold raiseStem; dsimp only; rw [tellStem_inp]
@[simp] theorem raiseStem_cam (d : Dev) (st : Option Nat) (c u s a : Nat) : (raiseStem d st c u s a).cam = d.cam := by
  unfold raiseStem; dsimp only; rw [tellStem_cam]
@[simp] theorem raiseStem_flt (d : Dev) (st : Option Nat) (c u s a : Nat) : (raiseStem d st c u s a).flt = d.flt := by
  unfold raiseStem; dsimp only; rw [tellStem_flt]
@[simp] theorem raiseStem_br (d : Dev) (st : Option Nat) (c u s a : Nat) : (raiseStem d st c u s a).br = d.br := by
  unfold raiseStem; dsimp only; rw [tellStem_br]
@[simp] theorem raiseStem_cells (d : Dev) (st : Option Nat) (c u s a : Nat) : (raiseStem d st c u s a).cells = d.cells := by
  unfold raiseStem; dsimp only; rw [tellStem_cells]
@[simp] theorem raiseStem_grv (d : Dev) (st : Option Nat) (c u s a : Nat) : (raiseStem d st c u s a).grv = d.grv := by
  unfold raiseStem; dsimp only; rw [tellStem_grv]
@[simp] theorem raiseStem_free (d : Dev) (st : Option Nat) (c u s a : Nat) : (raiseStem d st c u s a).free = d.free := by
  unfold raiseStem; dsimp only; rw [tellStem_free]

/-! ## Completions -/

@[simp] theorem complete_regs (d : Dev) (k st : Nat) (p : Bytes) : (complete d k st p).regs = d.regs := by
  rw [complete_shape]
@[simp] theorem complete_live (d : Dev) (k st : Nat) (p : Bytes) : (complete d k st p).live = d.live := by
  rw [complete_shape]
@[simp] theorem complete_hold (d : Dev) (k st : Nat) (p : Bytes) : (complete d k st p).hold = d.hold := by
  rw [complete_shape]
@[simp] theorem complete_devTime (d : Dev) (k st : Nat) (p : Bytes) : (complete d k st p).devTime = d.devTime := by
  rw [complete_shape]
@[simp] theorem complete_held (d : Dev) (k st : Nat) (p : Bytes) : (complete d k st p).held = d.held := by
  rw [complete_shape]
@[simp] theorem complete_boot (d : Dev) (k st : Nat) (p : Bytes) : (complete d k st p).boot = d.boot := by
  rw [complete_shape]
@[simp] theorem complete_clk (d : Dev) (k st : Nat) (p : Bytes) : (complete d k st p).clk = d.clk := by
  rw [complete_shape]
@[simp] theorem complete_ring (d : Dev) (k st : Nat) (p : Bytes) : (complete d k st p).ring = d.ring := by
  rw [complete_shape]
@[simp] theorem complete_root (d : Dev) (k st : Nat) (p : Bytes) : (complete d k st p).root = d.root := by
  rw [complete_shape]
@[simp] theorem complete_stem (d : Dev) (k st : Nat) (p : Bytes) : (complete d k st p).stem = d.stem := by
  rw [complete_shape]
@[simp] theorem complete_trk (d : Dev) (k st : Nat) (p : Bytes) : (complete d k st p).trk = d.trk := by
  rw [complete_shape]
@[simp] theorem complete_mem (d : Dev) (k st : Nat) (p : Bytes) : (complete d k st p).mem = d.mem := by
  rw [complete_shape]
@[simp] theorem complete_ras (d : Dev) (k st : Nat) (p : Bytes) : (complete d k st p).ras = d.ras := by
  rw [complete_shape]
@[simp] theorem complete_cnp (d : Dev) (k st : Nat) (p : Bytes) : (complete d k st p).cnp = d.cnp := by
  rw [complete_shape]
@[simp] theorem complete_inp (d : Dev) (k st : Nat) (p : Bytes) : (complete d k st p).inp = d.inp := by
  rw [complete_shape]
@[simp] theorem complete_cam (d : Dev) (k st : Nat) (p : Bytes) : (complete d k st p).cam = d.cam := by
  rw [complete_shape]
@[simp] theorem complete_flt (d : Dev) (k st : Nat) (p : Bytes) : (complete d k st p).flt = d.flt := by
  rw [complete_shape]
@[simp] theorem complete_br (d : Dev) (k st : Nat) (p : Bytes) : (complete d k st p).br = d.br := by
  rw [complete_shape]
@[simp] theorem complete_cells (d : Dev) (k st : Nat) (p : Bytes) : (complete d k st p).cells = d.cells := by
  rw [complete_shape]
@[simp] theorem complete_grv (d : Dev) (k st : Nat) (p : Bytes) : (complete d k st p).grv = d.grv := by
  rw [complete_shape]
@[simp] theorem complete_free (d : Dev) (k st : Nat) (p : Bytes) : (complete d k st p).free = d.free := by
  rw [complete_shape]
@[simp] theorem addTag_regs (d : Dev) (h : Hdr) (k : Nat) (w : Bool) : (addTag d h k w).regs = d.regs := rfl
@[simp] theorem addTag_live (d : Dev) (h : Hdr) (k : Nat) (w : Bool) : (addTag d h k w).live = d.live := rfl
@[simp] theorem addTag_hold (d : Dev) (h : Hdr) (k : Nat) (w : Bool) : (addTag d h k w).hold = d.hold := rfl
@[simp] theorem addTag_devTime (d : Dev) (h : Hdr) (k : Nat) (w : Bool) : (addTag d h k w).devTime = d.devTime := rfl
@[simp] theorem addTag_held (d : Dev) (h : Hdr) (k : Nat) (w : Bool) : (addTag d h k w).held = d.held := rfl
@[simp] theorem addTag_boot (d : Dev) (h : Hdr) (k : Nat) (w : Bool) : (addTag d h k w).boot = d.boot := rfl
@[simp] theorem addTag_clk (d : Dev) (h : Hdr) (k : Nat) (w : Bool) : (addTag d h k w).clk = d.clk := rfl
@[simp] theorem addTag_ring (d : Dev) (h : Hdr) (k : Nat) (w : Bool) : (addTag d h k w).ring = d.ring := rfl
@[simp] theorem addTag_root (d : Dev) (h : Hdr) (k : Nat) (w : Bool) : (addTag d h k w).root = d.root := rfl
@[simp] theorem addTag_stem (d : Dev) (h : Hdr) (k : Nat) (w : Bool) : (addTag d h k w).stem = d.stem := rfl
@[simp] theorem addTag_trk (d : Dev) (h : Hdr) (k : Nat) (w : Bool) : (addTag d h k w).trk = d.trk := rfl
@[simp] theorem addTag_mem (d : Dev) (h : Hdr) (k : Nat) (w : Bool) : (addTag d h k w).mem = d.mem := rfl
@[simp] theorem addTag_ras (d : Dev) (h : Hdr) (k : Nat) (w : Bool) : (addTag d h k w).ras = d.ras := rfl
@[simp] theorem addTag_cnp (d : Dev) (h : Hdr) (k : Nat) (w : Bool) : (addTag d h k w).cnp = d.cnp := rfl
@[simp] theorem addTag_inp (d : Dev) (h : Hdr) (k : Nat) (w : Bool) : (addTag d h k w).inp = d.inp := rfl
@[simp] theorem addTag_cam (d : Dev) (h : Hdr) (k : Nat) (w : Bool) : (addTag d h k w).cam = d.cam := rfl
@[simp] theorem addTag_flt (d : Dev) (h : Hdr) (k : Nat) (w : Bool) : (addTag d h k w).flt = d.flt := rfl
@[simp] theorem addTag_br (d : Dev) (h : Hdr) (k : Nat) (w : Bool) : (addTag d h k w).br = d.br := rfl
@[simp] theorem addTag_cells (d : Dev) (h : Hdr) (k : Nat) (w : Bool) : (addTag d h k w).cells = d.cells := rfl
@[simp] theorem addTag_grv (d : Dev) (h : Hdr) (k : Nat) (w : Bool) : (addTag d h k w).grv = d.grv := rfl
@[simp] theorem addTag_free (d : Dev) (h : Hdr) (k : Nat) (w : Bool) : (addTag d h k w).free = d.free := rfl

/-! ## Progress -/

@[simp] theorem progSet_live (d : Dev) (k st a p t m : Nat) : (progSet d k st a p t m).live = d.live := by
  unfold progSet; extract_lets; rw [setReg_live]; exact setReg_live ..
@[simp] theorem progStart_live (d : Dev) (k a t : Nat) : (progStart d k a t).live = d.live := by
  unfold progStart; exact progSet_live ..
@[simp] theorem progAt_live (d : Dev) (k p : Nat) : (progAt d k p).live = d.live := by
  unfold progAt; extract_lets; exact progSet_live ..
@[simp] theorem progDone_live (d : Dev) (k : Nat) : (progDone d k).live = d.live := by
  unfold progDone; extract_lets; rw [setReg_live]; exact progSet_live ..
@[simp] theorem progFail_live (d : Dev) (k : Nat) : (progFail d k).live = d.live := by
  unfold progFail; exact setFld_live ..
@[simp] theorem progSet_hold (d : Dev) (k st a p t m : Nat) : (progSet d k st a p t m).hold = d.hold := by
  unfold progSet; extract_lets; rw [setReg_hold]; exact setReg_hold ..
@[simp] theorem progStart_hold (d : Dev) (k a t : Nat) : (progStart d k a t).hold = d.hold := by
  unfold progStart; exact progSet_hold ..
@[simp] theorem progAt_hold (d : Dev) (k p : Nat) : (progAt d k p).hold = d.hold := by
  unfold progAt; extract_lets; exact progSet_hold ..
@[simp] theorem progDone_hold (d : Dev) (k : Nat) : (progDone d k).hold = d.hold := by
  unfold progDone; extract_lets; rw [setReg_hold]; exact progSet_hold ..
@[simp] theorem progFail_hold (d : Dev) (k : Nat) : (progFail d k).hold = d.hold := by
  unfold progFail; exact setFld_hold ..
@[simp] theorem progSet_devTime (d : Dev) (k st a p t m : Nat) : (progSet d k st a p t m).devTime = d.devTime := by
  unfold progSet; extract_lets; rw [setReg_devTime]; exact setReg_devTime ..
@[simp] theorem progStart_devTime (d : Dev) (k a t : Nat) : (progStart d k a t).devTime = d.devTime := by
  unfold progStart; exact progSet_devTime ..
@[simp] theorem progAt_devTime (d : Dev) (k p : Nat) : (progAt d k p).devTime = d.devTime := by
  unfold progAt; extract_lets; exact progSet_devTime ..
@[simp] theorem progDone_devTime (d : Dev) (k : Nat) : (progDone d k).devTime = d.devTime := by
  unfold progDone; extract_lets; rw [setReg_devTime]; exact progSet_devTime ..
@[simp] theorem progFail_devTime (d : Dev) (k : Nat) : (progFail d k).devTime = d.devTime := by
  unfold progFail; exact setFld_devTime ..
@[simp] theorem progSet_held (d : Dev) (k st a p t m : Nat) : (progSet d k st a p t m).held = d.held := by
  unfold progSet; extract_lets; rw [setReg_held]; exact setReg_held ..
@[simp] theorem progStart_held (d : Dev) (k a t : Nat) : (progStart d k a t).held = d.held := by
  unfold progStart; exact progSet_held ..
@[simp] theorem progAt_held (d : Dev) (k p : Nat) : (progAt d k p).held = d.held := by
  unfold progAt; extract_lets; exact progSet_held ..
@[simp] theorem progDone_held (d : Dev) (k : Nat) : (progDone d k).held = d.held := by
  unfold progDone; extract_lets; rw [setReg_held]; exact progSet_held ..
@[simp] theorem progFail_held (d : Dev) (k : Nat) : (progFail d k).held = d.held := by
  unfold progFail; exact setFld_held ..
@[simp] theorem progSet_boot (d : Dev) (k st a p t m : Nat) : (progSet d k st a p t m).boot = d.boot := by
  unfold progSet; extract_lets; rw [setReg_boot]; exact setReg_boot ..
@[simp] theorem progStart_boot (d : Dev) (k a t : Nat) : (progStart d k a t).boot = d.boot := by
  unfold progStart; exact progSet_boot ..
@[simp] theorem progAt_boot (d : Dev) (k p : Nat) : (progAt d k p).boot = d.boot := by
  unfold progAt; extract_lets; exact progSet_boot ..
@[simp] theorem progDone_boot (d : Dev) (k : Nat) : (progDone d k).boot = d.boot := by
  unfold progDone; extract_lets; rw [setReg_boot]; exact progSet_boot ..
@[simp] theorem progFail_boot (d : Dev) (k : Nat) : (progFail d k).boot = d.boot := by
  unfold progFail; exact setFld_boot ..
@[simp] theorem progSet_clk (d : Dev) (k st a p t m : Nat) : (progSet d k st a p t m).clk = d.clk := by
  unfold progSet; extract_lets; rw [setReg_clk]; exact setReg_clk ..
@[simp] theorem progStart_clk (d : Dev) (k a t : Nat) : (progStart d k a t).clk = d.clk := by
  unfold progStart; exact progSet_clk ..
@[simp] theorem progAt_clk (d : Dev) (k p : Nat) : (progAt d k p).clk = d.clk := by
  unfold progAt; extract_lets; exact progSet_clk ..
@[simp] theorem progDone_clk (d : Dev) (k : Nat) : (progDone d k).clk = d.clk := by
  unfold progDone; extract_lets; rw [setReg_clk]; exact progSet_clk ..
@[simp] theorem progFail_clk (d : Dev) (k : Nat) : (progFail d k).clk = d.clk := by
  unfold progFail; exact setFld_clk ..
@[simp] theorem progSet_usb (d : Dev) (k st a p t m : Nat) : (progSet d k st a p t m).usb = d.usb := by
  unfold progSet; extract_lets; rw [setReg_usb]; exact setReg_usb ..
@[simp] theorem progStart_usb (d : Dev) (k a t : Nat) : (progStart d k a t).usb = d.usb := by
  unfold progStart; exact progSet_usb ..
@[simp] theorem progAt_usb (d : Dev) (k p : Nat) : (progAt d k p).usb = d.usb := by
  unfold progAt; extract_lets; exact progSet_usb ..
@[simp] theorem progDone_usb (d : Dev) (k : Nat) : (progDone d k).usb = d.usb := by
  unfold progDone; extract_lets; rw [setReg_usb]; exact progSet_usb ..
@[simp] theorem progFail_usb (d : Dev) (k : Nat) : (progFail d k).usb = d.usb := by
  unfold progFail; exact setFld_usb ..
@[simp] theorem progSet_ring (d : Dev) (k st a p t m : Nat) : (progSet d k st a p t m).ring = d.ring := by
  unfold progSet; extract_lets; rw [setReg_ring]; exact setReg_ring ..
@[simp] theorem progStart_ring (d : Dev) (k a t : Nat) : (progStart d k a t).ring = d.ring := by
  unfold progStart; exact progSet_ring ..
@[simp] theorem progAt_ring (d : Dev) (k p : Nat) : (progAt d k p).ring = d.ring := by
  unfold progAt; extract_lets; exact progSet_ring ..
@[simp] theorem progDone_ring (d : Dev) (k : Nat) : (progDone d k).ring = d.ring := by
  unfold progDone; extract_lets; rw [setReg_ring]; exact progSet_ring ..
@[simp] theorem progFail_ring (d : Dev) (k : Nat) : (progFail d k).ring = d.ring := by
  unfold progFail; exact setFld_ring ..
@[simp] theorem progSet_stem (d : Dev) (k st a p t m : Nat) : (progSet d k st a p t m).stem = d.stem := by
  unfold progSet; extract_lets; rw [setReg_stem]; exact setReg_stem ..
@[simp] theorem progStart_stem (d : Dev) (k a t : Nat) : (progStart d k a t).stem = d.stem := by
  unfold progStart; exact progSet_stem ..
@[simp] theorem progAt_stem (d : Dev) (k p : Nat) : (progAt d k p).stem = d.stem := by
  unfold progAt; extract_lets; exact progSet_stem ..
@[simp] theorem progDone_stem (d : Dev) (k : Nat) : (progDone d k).stem = d.stem := by
  unfold progDone; extract_lets; rw [setReg_stem]; exact progSet_stem ..
@[simp] theorem progFail_stem (d : Dev) (k : Nat) : (progFail d k).stem = d.stem := by
  unfold progFail; exact setFld_stem ..
@[simp] theorem progSet_trk (d : Dev) (k st a p t m : Nat) : (progSet d k st a p t m).trk = d.trk := by
  unfold progSet; extract_lets; rw [setReg_trk]; exact setReg_trk ..
@[simp] theorem progStart_trk (d : Dev) (k a t : Nat) : (progStart d k a t).trk = d.trk := by
  unfold progStart; exact progSet_trk ..
@[simp] theorem progAt_trk (d : Dev) (k p : Nat) : (progAt d k p).trk = d.trk := by
  unfold progAt; extract_lets; exact progSet_trk ..
@[simp] theorem progDone_trk (d : Dev) (k : Nat) : (progDone d k).trk = d.trk := by
  unfold progDone; extract_lets; rw [setReg_trk]; exact progSet_trk ..
@[simp] theorem progFail_trk (d : Dev) (k : Nat) : (progFail d k).trk = d.trk := by
  unfold progFail; exact setFld_trk ..
@[simp] theorem progSet_mem (d : Dev) (k st a p t m : Nat) : (progSet d k st a p t m).mem = d.mem := by
  unfold progSet; extract_lets; rw [setReg_mem]; exact setReg_mem ..
@[simp] theorem progStart_mem (d : Dev) (k a t : Nat) : (progStart d k a t).mem = d.mem := by
  unfold progStart; exact progSet_mem ..
@[simp] theorem progAt_mem (d : Dev) (k p : Nat) : (progAt d k p).mem = d.mem := by
  unfold progAt; extract_lets; exact progSet_mem ..
@[simp] theorem progDone_mem (d : Dev) (k : Nat) : (progDone d k).mem = d.mem := by
  unfold progDone; extract_lets; rw [setReg_mem]; exact progSet_mem ..
@[simp] theorem progFail_mem (d : Dev) (k : Nat) : (progFail d k).mem = d.mem := by
  unfold progFail; exact setFld_mem ..
@[simp] theorem progSet_ras (d : Dev) (k st a p t m : Nat) : (progSet d k st a p t m).ras = d.ras := by
  unfold progSet; extract_lets; rw [setReg_ras]; exact setReg_ras ..
@[simp] theorem progStart_ras (d : Dev) (k a t : Nat) : (progStart d k a t).ras = d.ras := by
  unfold progStart; exact progSet_ras ..
@[simp] theorem progAt_ras (d : Dev) (k p : Nat) : (progAt d k p).ras = d.ras := by
  unfold progAt; extract_lets; exact progSet_ras ..
@[simp] theorem progDone_ras (d : Dev) (k : Nat) : (progDone d k).ras = d.ras := by
  unfold progDone; extract_lets; rw [setReg_ras]; exact progSet_ras ..
@[simp] theorem progFail_ras (d : Dev) (k : Nat) : (progFail d k).ras = d.ras := by
  unfold progFail; exact setFld_ras ..
@[simp] theorem progSet_cnp (d : Dev) (k st a p t m : Nat) : (progSet d k st a p t m).cnp = d.cnp := by
  unfold progSet; extract_lets; rw [setReg_cnp]; exact setReg_cnp ..
@[simp] theorem progStart_cnp (d : Dev) (k a t : Nat) : (progStart d k a t).cnp = d.cnp := by
  unfold progStart; exact progSet_cnp ..
@[simp] theorem progAt_cnp (d : Dev) (k p : Nat) : (progAt d k p).cnp = d.cnp := by
  unfold progAt; extract_lets; exact progSet_cnp ..
@[simp] theorem progDone_cnp (d : Dev) (k : Nat) : (progDone d k).cnp = d.cnp := by
  unfold progDone; extract_lets; rw [setReg_cnp]; exact progSet_cnp ..
@[simp] theorem progFail_cnp (d : Dev) (k : Nat) : (progFail d k).cnp = d.cnp := by
  unfold progFail; exact setFld_cnp ..
@[simp] theorem progSet_inp (d : Dev) (k st a p t m : Nat) : (progSet d k st a p t m).inp = d.inp := by
  unfold progSet; extract_lets; rw [setReg_inp]; exact setReg_inp ..
@[simp] theorem progStart_inp (d : Dev) (k a t : Nat) : (progStart d k a t).inp = d.inp := by
  unfold progStart; exact progSet_inp ..
@[simp] theorem progAt_inp (d : Dev) (k p : Nat) : (progAt d k p).inp = d.inp := by
  unfold progAt; extract_lets; exact progSet_inp ..
@[simp] theorem progDone_inp (d : Dev) (k : Nat) : (progDone d k).inp = d.inp := by
  unfold progDone; extract_lets; rw [setReg_inp]; exact progSet_inp ..
@[simp] theorem progFail_inp (d : Dev) (k : Nat) : (progFail d k).inp = d.inp := by
  unfold progFail; exact setFld_inp ..
@[simp] theorem progSet_cam (d : Dev) (k st a p t m : Nat) : (progSet d k st a p t m).cam = d.cam := by
  unfold progSet; extract_lets; rw [setReg_cam]; exact setReg_cam ..
@[simp] theorem progStart_cam (d : Dev) (k a t : Nat) : (progStart d k a t).cam = d.cam := by
  unfold progStart; exact progSet_cam ..
@[simp] theorem progAt_cam (d : Dev) (k p : Nat) : (progAt d k p).cam = d.cam := by
  unfold progAt; extract_lets; exact progSet_cam ..
@[simp] theorem progDone_cam (d : Dev) (k : Nat) : (progDone d k).cam = d.cam := by
  unfold progDone; extract_lets; rw [setReg_cam]; exact progSet_cam ..
@[simp] theorem progFail_cam (d : Dev) (k : Nat) : (progFail d k).cam = d.cam := by
  unfold progFail; exact setFld_cam ..
@[simp] theorem progSet_flt (d : Dev) (k st a p t m : Nat) : (progSet d k st a p t m).flt = d.flt := by
  unfold progSet; extract_lets; rw [setReg_flt]; exact setReg_flt ..
@[simp] theorem progStart_flt (d : Dev) (k a t : Nat) : (progStart d k a t).flt = d.flt := by
  unfold progStart; exact progSet_flt ..
@[simp] theorem progAt_flt (d : Dev) (k p : Nat) : (progAt d k p).flt = d.flt := by
  unfold progAt; extract_lets; exact progSet_flt ..
@[simp] theorem progDone_flt (d : Dev) (k : Nat) : (progDone d k).flt = d.flt := by
  unfold progDone; extract_lets; rw [setReg_flt]; exact progSet_flt ..
@[simp] theorem progFail_flt (d : Dev) (k : Nat) : (progFail d k).flt = d.flt := by
  unfold progFail; exact setFld_flt ..
@[simp] theorem progSet_br (d : Dev) (k st a p t m : Nat) : (progSet d k st a p t m).br = d.br := by
  unfold progSet; extract_lets; rw [setReg_br]; exact setReg_br ..
@[simp] theorem progStart_br (d : Dev) (k a t : Nat) : (progStart d k a t).br = d.br := by
  unfold progStart; exact progSet_br ..
@[simp] theorem progAt_br (d : Dev) (k p : Nat) : (progAt d k p).br = d.br := by
  unfold progAt; extract_lets; exact progSet_br ..
@[simp] theorem progDone_br (d : Dev) (k : Nat) : (progDone d k).br = d.br := by
  unfold progDone; extract_lets; rw [setReg_br]; exact progSet_br ..
@[simp] theorem progFail_br (d : Dev) (k : Nat) : (progFail d k).br = d.br := by
  unfold progFail; exact setFld_br ..
@[simp] theorem progSet_cells (d : Dev) (k st a p t m : Nat) : (progSet d k st a p t m).cells = d.cells := by
  unfold progSet; extract_lets; rw [setReg_cells]; exact setReg_cells ..
@[simp] theorem progStart_cells (d : Dev) (k a t : Nat) : (progStart d k a t).cells = d.cells := by
  unfold progStart; exact progSet_cells ..
@[simp] theorem progAt_cells (d : Dev) (k p : Nat) : (progAt d k p).cells = d.cells := by
  unfold progAt; extract_lets; exact progSet_cells ..
@[simp] theorem progDone_cells (d : Dev) (k : Nat) : (progDone d k).cells = d.cells := by
  unfold progDone; extract_lets; rw [setReg_cells]; exact progSet_cells ..
@[simp] theorem progFail_cells (d : Dev) (k : Nat) : (progFail d k).cells = d.cells := by
  unfold progFail; exact setFld_cells ..
@[simp] theorem progSet_grv (d : Dev) (k st a p t m : Nat) : (progSet d k st a p t m).grv = d.grv := by
  unfold progSet; extract_lets; rw [setReg_grv]; exact setReg_grv ..
@[simp] theorem progStart_grv (d : Dev) (k a t : Nat) : (progStart d k a t).grv = d.grv := by
  unfold progStart; exact progSet_grv ..
@[simp] theorem progAt_grv (d : Dev) (k p : Nat) : (progAt d k p).grv = d.grv := by
  unfold progAt; extract_lets; exact progSet_grv ..
@[simp] theorem progDone_grv (d : Dev) (k : Nat) : (progDone d k).grv = d.grv := by
  unfold progDone; extract_lets; rw [setReg_grv]; exact progSet_grv ..
@[simp] theorem progFail_grv (d : Dev) (k : Nat) : (progFail d k).grv = d.grv := by
  unfold progFail; exact setFld_grv ..
@[simp] theorem progSet_free (d : Dev) (k st a p t m : Nat) : (progSet d k st a p t m).free = d.free := by
  unfold progSet; extract_lets; rw [setReg_free]; exact setReg_free ..
@[simp] theorem progStart_free (d : Dev) (k a t : Nat) : (progStart d k a t).free = d.free := by
  unfold progStart; exact progSet_free ..
@[simp] theorem progAt_free (d : Dev) (k p : Nat) : (progAt d k p).free = d.free := by
  unfold progAt; extract_lets; exact progSet_free ..
@[simp] theorem progDone_free (d : Dev) (k : Nat) : (progDone d k).free = d.free := by
  unfold progDone; extract_lets; rw [setReg_free]; exact progSet_free ..
@[simp] theorem progFail_free (d : Dev) (k : Nat) : (progFail d k).free = d.free := by
  unfold progFail; exact setFld_free ..

end Sys2Proof.Machine
end

