-- ==== Sys2Proof/Laws/Ops.lean ====
section
/-! SUPPORT. What the shared operations do: register words and fields, counters, memory, the running engine. -/

namespace Sys2Proof.Machine

/-! ## Register words -/

@[simp] theorem reg_setReg_same (d : Dev) (a : Nat) (w : Word) : reg (setReg d a w) a = w := Map.get_put_same _ _ _ _
theorem reg_setReg_other (d : Dev) {a b : Nat} (w : Word) (h : b ≠ a) : reg (setReg d a w) b = reg d b :=
  Map.get_put_other _ _ _ h
@[simp] theorem reg_writeMem (d : Dev) (a : Nat) (bs : Bytes) (b : Nat) : reg (writeMem d a bs) b = reg d b := rfl

/-! ## Fields -/

theorem fget_lt (x : Fld) (w : Word) : fget x w < 2 ^ x.width := Nat.mod_lt _ (Nat.two_pow_pos _)

/-- A word cut into what lies below, in and above a field. -/
theorem word_parts (x : Fld) (w : Word) :
    w.toNat = w.toNat % 2 ^ x.lo + fget x w * 2 ^ x.lo + w.toNat / 2 ^ x.lo / 2 ^ x.width * 2 ^ x.width * 2 ^ x.lo := by
  have h1 := Nat.div_add_mod w.toNat (2 ^ x.lo)
  have h2 := Nat.div_add_mod (w.toNat / 2 ^ x.lo) (2 ^ x.width)
  unfold fget
  calc w.toNat = w.toNat % 2 ^ x.lo + w.toNat / 2 ^ x.lo * 2 ^ x.lo := by rw [Nat.mul_comm]; omega
    _ = w.toNat % 2 ^ x.lo + (w.toNat / 2 ^ x.lo % 2 ^ x.width + w.toNat / 2 ^ x.lo / 2 ^ x.width * 2 ^ x.width) * 2 ^ x.lo := by
        congr 2; rw [Nat.mul_comm (_ / _ / _)]; omega
    _ = _ := by rw [Nat.add_mul]; omega

/-- The value of a word after a field is written. -/
theorem fput_toNat (x : Fld) (w : Word) (v : Nat) (h : x.lo + x.width ≤ 32) :
    (fput x w v).toNat = w.toNat % 2 ^ x.lo + v % 2 ^ x.width * 2 ^ x.lo + w.toNat / 2 ^ x.lo / 2 ^ x.width * 2 ^ x.width * 2 ^ x.lo := by
  have hp := word_parts x w
  have e : w.toNat - fget x w * 2 ^ x.lo + v % 2 ^ x.width * 2 ^ x.lo =
      w.toNat % 2 ^ x.lo + v % 2 ^ x.width * 2 ^ x.lo + w.toNat / 2 ^ x.lo / 2 ^ x.width * 2 ^ x.width * 2 ^ x.lo := by omega
  unfold fput
  rw [BitVec.toNat_ofNat, e, Nat.mod_eq_of_lt]
  -- the top part and a field value below 2 ^ width stay below 2 ^ 32
  have hl : w.toNat % 2 ^ x.lo < 2 ^ x.lo := Nat.mod_lt _ (Nat.two_pow_pos _)
  have hv : v % 2 ^ x.width < 2 ^ x.width := Nat.mod_lt _ (Nat.two_pow_pos _)
  have ht : w.toNat / 2 ^ x.lo / 2 ^ x.width < 2 ^ (32 - x.lo - x.width) := by
    rw [Nat.div_div_eq_div_mul, ← Nat.pow_add, Nat.div_lt_iff_lt_mul (Nat.two_pow_pos _), ← Nat.pow_add]
    have : 32 - x.lo - x.width + (x.lo + x.width) = 32 := by omega
    rw [this]; exact w.isLt
  have h32 : (2 : Nat) ^ 32 = 2 ^ (32 - x.lo - x.width) * 2 ^ x.width * 2 ^ x.lo := by
    rw [← Nat.pow_add, ← Nat.pow_add]; congr 1; omega
  rw [h32]
  generalize w.toNat / 2 ^ x.lo / 2 ^ x.width = t at ht
  generalize v % 2 ^ x.width = u at hv
  generalize w.toNat % 2 ^ x.lo = r at hl
  calc r + u * 2 ^ x.lo + t * 2 ^ x.width * 2 ^ x.lo < (u + 1 + t * 2 ^ x.width) * 2 ^ x.lo := by
        rw [Nat.add_mul, Nat.add_mul]; omega
    _ ≤ (2 ^ x.width * (t + 1)) * 2 ^ x.lo := Nat.mul_le_mul_right _ (by rw [Nat.mul_add, Nat.mul_comm t]; omega)
    _ ≤ 2 ^ (32 - x.lo - x.width) * 2 ^ x.width * 2 ^ x.lo :=
        Nat.mul_le_mul_right _ (by rw [Nat.mul_comm]; exact Nat.mul_le_mul_right _ ht)

/-- A field just written reads as the value written, cut to its width. -/
theorem fget_fput_same (x : Fld) (w : Word) (v : Nat) (h : x.lo + x.width ≤ 32) : fget x (fput x w v) = v % 2 ^ x.width := by
  have hl : w.toNat % 2 ^ x.lo < 2 ^ x.lo := Nat.mod_lt _ (Nat.two_pow_pos _)
  rw [fget, fput_toNat x w v h, Nat.add_assoc, ← Nat.add_mul, Nat.add_mul_div_right _ _ (Nat.two_pow_pos _),
    Nat.div_eq_of_lt hl, Nat.zero_add, Nat.add_mul_mod_self_right, Nat.mod_mod]

/-- A write to a field leaves a field beside it alone. -/
theorem fget_fput_other (x y : Fld) (w : Word) (v : Nat) (h : x.lo + x.width ≤ 32)
    (hd : y.lo + y.width ≤ x.lo ∨ x.lo + x.width ≤ y.lo) : fget y (fput x w v) = fget y w := by
  have hw := word_parts x w
  have hf := fput_toNat x w v h
  have hl : w.toNat % 2 ^ x.lo < 2 ^ x.lo := Nat.mod_lt _ (Nat.two_pow_pos _)
  rcases hd with hd | hd
  · -- below: both words agree modulo 2 ^ lo
    have key (n : Nat) : n / 2 ^ y.lo % 2 ^ y.width = n % 2 ^ x.lo / 2 ^ y.lo % 2 ^ y.width := by
      have : (2 : Nat) ^ x.lo = 2 ^ y.lo * 2 ^ (x.lo - y.lo) := by rw [← Nat.pow_add]; congr 1; omega
      rw [this, Nat.mod_mul_right_div_self, Nat.mod_mod_of_dvd]
      exact Nat.pow_dvd_pow 2 (by omega)
    have e : (fput x w v).toNat % 2 ^ x.lo = w.toNat % 2 ^ x.lo := by
      rw [hf, Nat.add_mul_mod_self_right, Nat.add_mul_mod_self_right, Nat.mod_mod]
    rw [fget, fget, key, key w.toNat, e]
  · -- above: both words agree after a shift by lo + width
    have key (n : Nat) : n / 2 ^ y.lo % 2 ^ y.width = n / 2 ^ (x.lo + x.width) / 2 ^ (y.lo - (x.lo + x.width)) % 2 ^ y.width := by
      rw [Nat.div_div_eq_div_mul, ← Nat.pow_add]; congr 3; omega
    have up (n u t : Nat) (hu : u < 2 ^ x.width) (hn : n < 2 ^ x.lo) :
        (n + u * 2 ^ x.lo + t * 2 ^ x.width * 2 ^ x.lo) / 2 ^ (x.lo + x.width) = t := by
      rw [Nat.pow_add, ← Nat.div_div_eq_div_mul, Nat.add_assoc, ← Nat.add_mul, Nat.add_mul_div_right _ _ (Nat.two_pow_pos _),
        Nat.div_eq_of_lt hn, Nat.zero_add, Nat.add_mul_div_right _ _ (Nat.two_pow_pos _), Nat.div_eq_of_lt hu, Nat.zero_add]
    have e : (fput x w v).toNat / 2 ^ (x.lo + x.width) = w.toNat / 2 ^ (x.lo + x.width) := by
      rw [hf, up _ _ _ (Nat.mod_lt _ (Nat.two_pow_pos _)) hl, Nat.pow_add, Nat.div_div_eq_div_mul]
    rw [fget, fget, key, key w.toNat, e]

theorem reg_setFld_other (d : Dev) (x : Fld) (v : Nat) {a : Nat} (h : a ≠ x.addr) : reg (setFld d x v) a = reg d a :=
  reg_setReg_other d _ h

theorem fld_setFld_same (d : Dev) (x : Fld) (v : Nat) (h : x.lo + x.width ≤ 32) : fld (setFld d x v) x = v % 2 ^ x.width := by
  unfold fld setFld; rw [reg_setReg_same]; exact fget_fput_same x _ v h

theorem fld_setFld_other (d : Dev) (x y : Fld) (v : Nat) (h : x.lo + x.width ≤ 32)
    (hd : y.addr ≠ x.addr ∨ y.lo + y.width ≤ x.lo ∨ x.lo + x.width ≤ y.lo) : fld (setFld d x v) y = fld d y := by
  unfold fld
  by_cases ha : y.addr = x.addr
  · rw [ha]; unfold setFld; rw [reg_setReg_same]
    exact fget_fput_other x y _ v h (hd.resolve_left (fun hn => hn ha))
  · rw [reg_setFld_other d x v ha]

/-- A counter rises by the amount, up to its end. -/
theorem reg_bump_same (d : Dev) (a n : Nat) : (reg (bump d a n) a).toNat = min ((reg d a).toNat + n) 0xFFFFFFFF := by
  unfold bump; rw [reg_setReg_same, BitVec.toNat_ofNat, Nat.mod_eq_of_lt]; omega

theorem reg_bump_other (d : Dev) {a b : Nat} (n : Nat) (h : b ≠ a) : reg (bump d a n) b = reg d b := reg_setReg_other d _ h

/-! ## Memory -/

/-- Every write to memory keeps its canonical form. -/
theorem writeMem_wf {d : Dev} (a : Nat) (bs : Bytes) (h : Memory.wf d.mem) : Memory.wf (writeMem d a bs).mem :=
  Map.wf_putN a bs h

/-- A byte outside the run written reads as before. -/
theorem writeMem_outside (d : Dev) (a : Nat) (bs : Bytes) {j : Nat} (h : j < a ∨ a + bs.length ≤ j) :
    readMem (writeMem d a bs) j 1 = readMem d j 1 := by
  simpa [readMem, Map.getN] using Map.get_putN_outside (0 : Byte) d.mem a bs h

/-- The run written reads back. -/
theorem readMem_writeMem (d : Dev) (a : Nat) (bs : Bytes) : readMem (writeMem d a bs) a bs.length = bs := by
  apply List.ext_getElem
  · simp [readMem, Map.getN]
  · intro i h1 h2
    simpa [readMem, Map.getN] using Map.get_putN_inside (0 : Byte) d.mem a bs h2

/-! ## The running engine -/

/-- A command that acts on the running engine. -/
theorem onDev_alive {s : State} (f : Dev → Dev) (h : alive s.dev = true) : onDev s f = .next { s with dev := f s.dev } := by
  simp [onDev, h]

/-- With no clock running a command changes nothing. -/
theorem onDev_dead {s : State} (f : Dev → Dev) (h : alive s.dev = false) : onDev s f = .next s := by
  simp [onDev, h]

/-- Such a command touches neither what lasts nor the queue. -/
theorem onDev_keeps {s t : State} {f : Dev → Dev} (h : onDev s f = .next t) : t.nv = s.nv ∧ t.pending = s.pending := by
  cases ha : alive s.dev
  · rw [onDev_dead f ha] at h; cases h; exact ⟨rfl, rfl⟩
  · rw [onDev_alive f ha] at h; cases h; exact ⟨rfl, rfl⟩

/-- It answers the device that its operation gives, or the one before. -/
theorem onDev_cases {s t : State} {f : Dev → Dev} (h : onDev s f = .next t) :
    t = { s with dev := f s.dev } ∨ t = s := by
  cases ha : alive s.dev
  · rw [onDev_dead f ha] at h; cases h; exact .inr rfl
  · rw [onDev_alive f ha] at h; cases h; exact .inl rfl

end Sys2Proof.Machine
end

