-- ==== Sys2Proof/Laws/Within.lean ====
section
/-! SUPPORT. The relation that every operation on the device is shown to keep: it changes the parts listed and no other, memory stays
in canonical form, and the page books keep their sum. -/

namespace Sys2Proof.Machine

structure Within (l : List Part) (d e : Dev) : Prop where
  only : Only l d e
  wf : Memory.wf d.mem → Memory.wf e.mem
  sum : bookSum d.trk.books = 8704 → bookSum e.trk.books = 8704

/-- Every part of `m` is one of `l`. -/
def partsIn (m l : List Part) : Bool := m.all (l.contains ·)

theorem Part.same_refl (p : Part) (d : Dev) : p.same d d := by cases p <;> rfl

theorem Part.same_trans {p : Part} {d e f : Dev} (h : p.same d e) (g : p.same e f) : p.same d f := by
  cases p <;> exact Eq.trans g h

theorem Within.refl (l : List Part) (d : Dev) : Within l d d := ⟨fun p _ => p.same_refl d, id, id⟩

theorem Within.via {l m : List Part} {d e f : Dev} (h : Within l d e) (g : Within m e f) (hs : partsIn m l = true) :
    Within l d f :=
  ⟨fun p hp => Part.same_trans (h.only p hp) (g.only p (fun hm => hp (by
      have := List.all_eq_true.mp hs p hm; simpa using this))),
   fun w => g.wf (h.wf w), fun w => g.sum (h.sum w)⟩

theorem Within.trans {l : List Part} {d e f : Dev} (h : Within l d e) (g : Within l e f) : Within l d f :=
  ⟨fun p hp => Part.same_trans (h.only p hp) (g.only p hp), fun w => g.wf (h.wf w), fun w => g.sum (h.sum w)⟩

theorem Within.mono {l m : List Part} {d e : Dev} (g : Within m d e) (hs : partsIn m l = true) : Within l d e :=
  (Within.refl l d).via g hs

theorem Within.ite {l : List Part} {d a b : Dev} {c : Prop} [Decidable c] (ha : Within l d a) (hb : Within l d b) :
    Within l d (if c then a else b) := by
  split
  · exact ha
  · exact hb

theorem Within.ite_fst {β : Type} {l : List Part} {d : Dev} {a b : Dev × β} {c : Prop} [Decidable c] (ha : Within l d a.1)
    (hb : Within l d b.1) : Within l d (if c then a else b).1 := by
  split
  · exact ha
  · exact hb

theorem Within.ite_snd {β : Type} {l : List Part} {d : Dev} {a b : β × Dev} {c : Prop} [Decidable c] (ha : Within l d a.2)
    (hb : Within l d b.2) : Within l d (if c then a else b).2 := by
  split
  · exact ha
  · exact hb

theorem Within.duo {β : Type} {l : List Part} {d e : Dev} {b : β} (h : Within l d e) : Within l d (b, e).2 := h

theorem Within.pair {β : Type} {l : List Part} {d e : Dev} {b : β} (h : Within l d e) : Within l d (e, b).1 := h

theorem Within.foldl {α : Type} {l : List Part} {d e : Dev} {f : Dev → α → Dev} {xs : List α} (h : Within l d e)
    (hf : ∀ x a, Within l x (f x a)) : Within l d (xs.foldl f e) := by
  induction xs generalizing e with
  | nil => exact h
  | cons a xs ih =>
    exact ih (e := f e a) ⟨fun p hp => Part.same_trans (h.only p hp) ((hf e a).only p hp), fun w => (hf e a).wf (h.wf w),
      fun w => (hf e a).sum (h.sum w)⟩

theorem Within.foldl_fst {α β : Type} {l : List Part} {d : Dev} {e : Dev × β} {f : Dev × β → α → Dev × β} {xs : List α}
    (h : Within l d e.1) (hf : ∀ x a, Within l x.1 (f x a).1) : Within l d (xs.foldl f e).1 := by
  induction xs generalizing e with
  | nil => exact h
  | cons a xs ih =>
    exact ih (e := f e a) ⟨fun p hp => Part.same_trans (h.only p hp) ((hf e a).only p hp), fun w => (hf e a).wf (h.wf w),
      fun w => (hf e a).sum (h.sum w)⟩

theorem Within.foldl_option {α : Type} {l : List Part} {d : Dev} {f : Option Dev → α → Option Dev} {xs : List α} {acc : Option Dev}
    (h : ∀ e, acc = some e → Within l d e)
    (hf : ∀ o a, (∀ x, o = some x → Within l d x) → ∀ e, f o a = some e → Within l d e) :
    ∀ e, xs.foldl f acc = some e → Within l d e := by
  induction xs generalizing acc with
  | nil => exact h
  | cons a xs ih => exact ih (hf acc a h)

/-! ## Updates of the record -/

theorem within_regs {x : Dev} (v0 : Map Word) : Within [.regs] x { x with regs := v0 } :=
  ⟨fun p hp => by cases p <;> first | rfl | exact absurd (by simp) hp, id, id⟩

theorem within_live {x : Dev} (v0 : Map Word) : Within [.live] x { x with live := v0 } :=
  ⟨fun p hp => by cases p <;> first | rfl | exact absurd (by simp) hp, id, id⟩

theorem within_hold {x : Dev} (v0 : Map (Option Word)) : Within [.hold] x { x with hold := v0 } :=
  ⟨fun p hp => by cases p <;> first | rfl | exact absurd (by simp) hp, id, id⟩

theorem within_devTime {x : Dev} (v0 : BitVec 64) : Within [.devTime] x { x with devTime := v0 } :=
  ⟨fun p hp => by cases p <;> first | rfl | exact absurd (by simp) hp, id, id⟩

theorem within_held {x : Dev} (v0 : Nat) : Within [.held] x { x with held := v0 } :=
  ⟨fun p hp => by cases p <;> first | rfl | exact absurd (by simp) hp, id, id⟩

theorem within_boot {x : Dev} (v0 : Nat) : Within [.boot] x { x with boot := v0 } :=
  ⟨fun p hp => by cases p <;> first | rfl | exact absurd (by simp) hp, id, id⟩

theorem within_clk {x : Dev} (v0 : Clk) : Within [.clk] x { x with clk := v0 } :=
  ⟨fun p hp => by cases p <;> first | rfl | exact absurd (by simp) hp, id, id⟩

theorem within_usb {x : Dev} (v0 : Usb) : Within [.usb] x { x with usb := v0 } :=
  ⟨fun p hp => by cases p <;> first | rfl | exact absurd (by simp) hp, id, id⟩

theorem within_ring {x : Dev} (v0 : Rings) : Within [.ring] x { x with ring := v0 } :=
  ⟨fun p hp => by cases p <;> first | rfl | exact absurd (by simp) hp, id, id⟩

theorem within_root {x : Dev} (v0 : Root) : Within [.root] x { x with root := v0 } :=
  ⟨fun p hp => by cases p <;> first | rfl | exact absurd (by simp) hp, id, id⟩

theorem within_stem {x : Dev} (v0 : Stems) : Within [.stem] x { x with stem := v0 } :=
  ⟨fun p hp => by cases p <;> first | rfl | exact absurd (by simp) hp, id, id⟩

theorem within_trk {x : Dev} (v0 : Trunk) (h : v0.books = x.trk.books) : Within [.trk] x { x with trk := v0 } :=
  ⟨fun p hp => by cases p <;> first | rfl | exact absurd (by simp) hp, id, fun w => by rw [h]; exact w⟩

theorem within_ras {x : Dev} (v0 : Raster) : Within [.ras] x { x with ras := v0 } :=
  ⟨fun p hp => by cases p <;> first | rfl | exact absurd (by simp) hp, id, id⟩

theorem within_cnp {x : Dev} (v0 : Canopy) : Within [.cnp] x { x with cnp := v0 } :=
  ⟨fun p hp => by cases p <;> first | rfl | exact absurd (by simp) hp, id, id⟩

theorem within_inp {x : Dev} (v0 : Intake) : Within [.inp] x { x with inp := v0 } :=
  ⟨fun p hp => by cases p <;> first | rfl | exact absurd (by simp) hp, id, id⟩

theorem within_cam {x : Dev} (v0 : Cam) : Within [.cam] x { x with cam := v0 } :=
  ⟨fun p hp => by cases p <;> first | rfl | exact absurd (by simp) hp, id, id⟩

theorem within_flt {x : Dev} (v0 : Flt) : Within [.flt] x { x with flt := v0 } :=
  ⟨fun p hp => by cases p <;> first | rfl | exact absurd (by simp) hp, id, id⟩

theorem within_br {x : Dev} (v0 : Map Branch) : Within [.br] x { x with br := v0 } :=
  ⟨fun p hp => by cases p <;> first | rfl | exact absurd (by simp) hp, id, id⟩

theorem within_cells {x : Dev} (v0 : Map CellStat) : Within [.cells] x { x with cells := v0 } :=
  ⟨fun p hp => by cases p <;> first | rfl | exact absurd (by simp) hp, id, id⟩

theorem within_grv {x : Dev} (v0 : Grv) : Within [.grv] x { x with grv := v0 } :=
  ⟨fun p hp => by cases p <;> first | rfl | exact absurd (by simp) hp, id, id⟩

theorem within_free {x : Dev} (v0 : Nat) : Within [.free] x { x with free := v0 } :=
  ⟨fun p hp => by cases p <;> first | rfl | exact absurd (by simp) hp, id, id⟩

theorem within_root_stem {x : Dev} (v0 : Root) (v1 : Stems) : Within [.root, .stem] x { x with root := v0, stem := v1 } :=
  ⟨fun p hp => by cases p <;> first | rfl | exact absurd (by simp) hp, id, id⟩

theorem within_devTime_grv {x : Dev} (v0 : BitVec 64) (v1 : Grv) : Within [.devTime, .grv] x { x with devTime := v0, grv := v1 } :=
  ⟨fun p hp => by cases p <;> first | rfl | exact absurd (by simp) hp, id, id⟩

theorem within_trk_flt {x : Dev} (v0 : Trunk) (v1 : Flt) (h : v0.books = x.trk.books) : Within [.trk, .flt] x { x with trk := v0, flt := v1 } :=
  ⟨fun p hp => by cases p <;> first | rfl | exact absurd (by simp) hp, id, fun w => by rw [h]; exact w⟩

theorem within_root_free {x : Dev} (v0 : Root) (v1 : Nat) : Within [.root, .free] x { x with root := v0, free := v1 } :=
  ⟨fun p hp => by cases p <;> first | rfl | exact absurd (by simp) hp, id, id⟩

theorem within_root_cells {x : Dev} (v0 : Root) (v1 : Map CellStat) : Within [.root, .cells] x { x with root := v0, cells := v1 } :=
  ⟨fun p hp => by cases p <;> first | rfl | exact absurd (by simp) hp, id, id⟩

theorem within_root_trk {x : Dev} (v0 : Root) (v1 : Trunk) (h : v1.books = x.trk.books) : Within [.root, .trk] x { x with root := v0, trk := v1 } :=
  ⟨fun p hp => by cases p <;> first | rfl | exact absurd (by simp) hp, id, fun w => by rw [h]; exact w⟩

theorem within_ring_cam {x : Dev} (v0 : Rings) (v1 : Cam) : Within [.ring, .cam] x { x with ring := v0, cam := v1 } :=
  ⟨fun p hp => by cases p <;> first | rfl | exact absurd (by simp) hp, id, id⟩

theorem within_usb_ring_root {x : Dev} (v0 : Usb) (v1 : Rings) (v2 : Root) : Within [.usb, .ring, .root] x { x with usb := v0, ring := v1, root := v2 } :=
  ⟨fun p hp => by cases p <;> first | rfl | exact absurd (by simp) hp, id, id⟩

theorem within_usb_cam {x : Dev} (v0 : Usb) (v1 : Cam) : Within [.usb, .cam] x { x with usb := v0, cam := v1 } :=
  ⟨fun p hp => by cases p <;> first | rfl | exact absurd (by simp) hp, id, id⟩

theorem within_usb_cnp {x : Dev} (v0 : Usb) (v1 : Canopy) : Within [.usb, .cnp] x { x with usb := v0, cnp := v1 } :=
  ⟨fun p hp => by cases p <;> first | rfl | exact absurd (by simp) hp, id, id⟩

theorem within_clk_root_ras {x : Dev} (v0 : Clk) (v1 : Root) (v2 : Raster) : Within [.clk, .root, .ras] x { x with clk := v0, root := v1, ras := v2 } :=
  ⟨fun p hp => by cases p <;> first | rfl | exact absurd (by simp) hp, id, id⟩

theorem within_devTime_boot {x : Dev} (v0 : BitVec 64) (v1 : Nat) : Within [.devTime, .boot] x { x with devTime := v0, boot := v1 } :=
  ⟨fun p hp => by cases p <;> first | rfl | exact absurd (by simp) hp, id, id⟩

theorem within_trk_cam {x : Dev} (v0 : Trunk) (v1 : Cam) (h : v0.books = x.trk.books) : Within [.trk, .cam] x { x with trk := v0, cam := v1 } :=
  ⟨fun p hp => by cases p <;> first | rfl | exact absurd (by simp) hp, id, fun w => by rw [h]; exact w⟩

theorem within_root_stem_trk_ras_br_cells {x : Dev} (v0 : Root) (v1 : Stems) (v2 : Trunk) (v3 : Raster) (v4 : Map Branch) (v5 : Map CellStat) (h : v2.books = x.trk.books) : Within [.root, .stem, .trk, .ras, .br, .cells] x { x with root := v0, stem := v1, trk := v2, ras := v3, br := v4, cells := v5 } :=
  ⟨fun p hp => by cases p <;> first | rfl | exact absurd (by simp) hp, id, fun w => by rw [h]; exact w⟩

theorem writeMem_within (d : Dev) (a : Nat) (bs : Bytes) : Within [.mem] d (writeMem d a bs) :=
  ⟨fun p hp => by cases p <;> first | rfl | exact absurd (by simp) hp, writeMem_wf a bs, id⟩

theorem reset_within (d : Dev) : Within Part.all d Dev.reset :=
  ⟨fun p hp => by cases p <;> exact absurd (by decide) hp, fun _ => by decide, fun _ => by decide⟩

end Sys2Proof.Machine
end

