-- ==== Sys2Proof/Laws/OpsFrame.lean ====
section
/-! SUPPORT. What each operation of Machine/Ops.lean may change. -/

namespace Sys2Proof.Machine

theorem tellStem_within (stem : Option Nat) (e : EventRec) (d : Dev) : Within [.stem] d (tellStem stem e d) := by
  unfold tellStem; try dsimp only
  with_reducible
    split
    exact .refl _ _
    refine .via ?_ (within_stem ..) (by decide)
    exact .refl _ _

theorem setReg_within (d : Dev) (a : Nat) (w : Word) : Within [.regs] d (setReg d a w) := by
  unfold setReg; try dsimp only
  with_reducible
    refine .via ?_ (within_regs ..) (by decide)
    exact .refl _ _

theorem bump_within (d : Dev) (a n : Nat) : Within [.regs] d (bump d a n) := by
  unfold bump; try dsimp only
  with_reducible
    refine .via ?_ (setReg_within ..) (by decide)
    exact .refl _ _

theorem pushEvent_within (d : Dev) (e : EventRec) : Within [.regs, .usb] d (pushEvent d e) := by
  unfold pushEvent; try dsimp only
  with_reducible
    refine .ite ?_ ?_
    refine .via ?_ (bump_within ..) (by decide)
    refine .via ?_ (within_usb ..) (by decide)
    exact .refl _ _
    refine .via ?_ (within_usb ..) (by decide)
    exact .refl _ _

theorem raise_within (d : Dev) (code unit sev arg : Nat) : Within [.regs, .usb, .root, .stem] d (raise d code unit sev arg) := by
  unfold raise; try dsimp only
  with_reducible
    refine .ite ?_ ?_
    refine .via ?_ (tellStem_within ..) (by decide)
    refine .via ?_ (within_root ..) (by decide)
    exact .refl _ _
    refine .via ?_ (pushEvent_within ..) (by decide)
    refine .via ?_ (tellStem_within ..) (by decide)
    refine .via ?_ (within_root ..) (by decide)
    exact .refl _ _

theorem setFld_within (d : Dev) (x : Fld) (v : Nat) : Within [.regs] d (setFld d x v) := by
  unfold setFld; try dsimp only
  with_reducible
    refine .via ?_ (setReg_within ..) (by decide)
    exact .refl _ _

theorem setFlds_within (d : Dev) (l : List (Fld × Nat)) : Within [.regs] d (setFlds d l) := by
  unfold setFlds; try dsimp only
  with_reducible
    refine .foldl ?_ (fun _ _ => ?_)
    exact .refl _ _
    refine .via ?_ (setFld_within ..) (by decide)
    exact .refl _ _

theorem writeLp6_within (d : Dev) (a : Nat) (bs : Bytes) : Within [.mem] d (writeLp6 d a bs) := by
  unfold writeLp6; try dsimp only
  with_reducible
    refine .ite ?_ ?_
    refine .foldl ?_ (fun _ _ => ?_)
    exact .refl _ _
    refine .ite ?_ ?_
    exact .refl _ _
    refine .via ?_ (writeMem_within ..) (by decide)
    exact .refl _ _
    refine .via ?_ (writeMem_within ..) (by decide)
    exact .refl _ _

theorem complete_within (d : Dev) (key status : Nat) (payload : Bytes) : Within [.usb] d (complete d key status payload) := by
  unfold complete; try dsimp only
  with_reducible
    split
    exact .refl _ _
    refine .via ?_ (within_usb ..) (by decide)
    exact .refl _ _

theorem progFail_within (d : Dev) (k : Nat) : Within [.regs] d (progFail d k) := by
  unfold progFail; try dsimp only
  with_reducible
    refine .via ?_ (setFld_within ..) (by decide)
    exact .refl _ _

theorem setLive_within (d : Dev) (a : Nat) (w : Word) : Within [.live] d (setLive d a w) := by
  unfold setLive; try dsimp only
  with_reducible
    refine .via ?_ (within_live ..) (by decide)
    exact .refl _ _

theorem progSet_within (d : Dev) (k state arg p t permille : Nat) : Within [.regs, .root] d (progSet d k state arg p t permille) := by
  unfold progSet; try dsimp only
  with_reducible
    refine .via ?_ (setReg_within ..) (by decide)
    refine .via ?_ (setReg_within ..) (by decide)
    refine .via ?_ (within_root ..) (by decide)
    exact .refl _ _

theorem progStart_within (d : Dev) (k arg t : Nat) : Within [.regs, .root] d (progStart d k arg t) := by
  unfold progStart; try dsimp only
  with_reducible
    refine .via ?_ (progSet_within ..) (by decide)
    exact .refl _ _

theorem addTag_within (d : Dev) (h : Hdr) (kind : Nat) (waiting : Bool) : Within [.usb] d (addTag d h kind waiting) := by
  unfold addTag; try dsimp only
  with_reducible
    refine .via ?_ (within_usb ..) (by decide)
    exact .refl _ _

theorem progAt_within (d : Dev) (k p : Nat) : Within [.regs, .root] d (progAt d k p) := by
  unfold progAt; try dsimp only
  with_reducible
    refine .via ?_ (progSet_within ..) (by decide)
    exact .refl _ _

theorem progDone_within (d : Dev) (k : Nat) : Within [.regs, .root] d (progDone d k) := by
  unfold progDone; try dsimp only
  with_reducible
    refine .via ?_ (setReg_within ..) (by decide)
    refine .via ?_ (progSet_within ..) (by decide)
    exact .refl _ _

theorem raiseStem_within (d : Dev) (stem : Option Nat) (code unit sev arg : Nat) : Within [.root, .stem] d (raiseStem d stem code unit sev arg) := by
  unfold raiseStem; try dsimp only
  with_reducible
    refine .via ?_ (tellStem_within ..) (by decide)
    refine .via ?_ (within_root ..) (by decide)
    exact .refl _ _

/-- A request changes what its body changes, and the host side. -/
theorem Within.request {i : Instr} {h : Hdr} {kind type : Nat} {ok : Bool} {body : Nat → Dev → Dev} {l : List Part} {d e : Dev}
    (he : Within l d e) (hb : ∀ k x, Within l x (body k x)) (hs : partsIn [.regs, .usb, .root, .stem] l = true) :
    Within l d (request i h kind type ok body e) := by
  have hu : partsIn [.usb] l = true := List.all_eq_true.mpr (fun p hp => List.all_eq_true.mp hs p (by simp_all))
  have hr : partsIn [.regs] l = true := List.all_eq_true.mpr (fun p hp => List.all_eq_true.mp hs p (by simp_all))
  unfold Sys2Proof.Machine.request; dsimp only
  split
  · exact he
  split
  · exact (he.via (within_usb _) hu).trans (hb _ _)
  split
  · exact (he.via (bump_within ..) hr).via (raise_within ..) hs
  split
  · exact he
  split
  · exact (he.via (addTag_within ..) hu).via (complete_within ..) hu
  split
  · exact (he.via (addTag_within ..) hu).via (within_usb _) hu
  · exact (he.via (addTag_within ..) hu).trans (hb _ _)

theorem Within.unlessFenced {u : Nat} {f : Nat → Dev → Dev} {key : Nat} {l : List Part} {d e : Dev}
    (he : Within l d e) (hf : ∀ k x, Within l x (f k x)) (hs : partsIn [.usb] l = true) :
    Within l d (unlessFenced u f key e) := by
  unfold Sys2Proof.Machine.unlessFenced
  split
  · exact he.via (complete_within ..) hs
  · exact he.trans (hf _ _)

end Sys2Proof.Machine
end

