-- ==== Sys2Proof/Laws/BucketFrame.lean ====
section
/-! SUPPORT. What each operation of Machine/Bucket.lean may change. -/

namespace Sys2Proof.Machine

theorem setBucket_within (d : Dev) (n : Nat) (b : Bucket) : Within [.flt] d (setBucket d n b) := by
  unfold setBucket; try dsimp only
  with_reducible
    refine .via ?_ (within_flt ..) (by decide)
    exact .refl _ _

theorem setBktState_within (d : Dev) (n st : Nat) : Within [.flt] d (setBktState d n st) := by
  unfold setBktState; try dsimp only
  with_reducible
    refine .via ?_ (setBucket_within ..) (by decide)
    exact .refl _ _

theorem reportErr_within (n kind addr : Nat) (d : Dev) : Within [.stem] d (reportErr n kind addr d) := by
  unfold reportErr; try dsimp only
  with_reducible
    split
    exact .refl _ _
    refine .via ?_ (within_stem ..) (by decide)
    exact .refl _ _

theorem countError_within (n kind addr : Nat) (d : Dev) : Within [.regs, .stem, .flt] d (countError n kind addr d).1 := by
  unfold countError; try dsimp only
  with_reducible
    refine .ite_fst ?_ ?_
    refine .pair ?_
    exact .refl _ _
    refine .pair ?_
    refine .via ?_ (setBucket_within ..) (by decide)
    refine .via ?_ (reportErr_within ..) (by decide)
    refine .via ?_ (bump_within ..) (by decide)
    exact .refl _ _

theorem countError_within' {n kind addr : Nat} {d : Dev} {z' : Dev} {y' : Option Bool} (h : countError n kind addr d = (z', y')) : Within [.regs, .stem, .flt] d z' := by
  have w' := countError_within n kind addr d
  rw [h] at w'; exact w'

end Sys2Proof.Machine
end

