-- ==== Sys2Proof/Laws/RingFrame.lean ====
section
/-! SUPPORT. What each operation of Machine/Ring.lean may change. -/

namespace Sys2Proof.Machine

theorem ringPut_within (d : Dev) (r v : Nat) : Within [.ring] d (ringPut d r v) := by
  unfold ringPut; try dsimp only
  with_reducible
    refine .via ?_ (within_ring ..) (by decide)
    exact .refl _ _

theorem ringInc_within (d : Dev) (r v : Nat) : Within [.ring] d (ringInc d r v) := by
  unfold ringInc; try dsimp only
  with_reducible
    refine .via ?_ (ringPut_within ..) (by decide)
    exact .refl _ _

theorem dropWait_within (d : Dev) (key : Nat) : Within [.usb] d (dropWait d key) := by
  unfold dropWait; try dsimp only
  with_reducible
    refine .via ?_ (within_usb ..) (by decide)
    exact .refl _ _

theorem setFrameBase_within (d : Dev) (r fn v : Nat) : Within [.ring] d (setFrameBase d r fn v) := by
  unfold setFrameBase; try dsimp only
  with_reducible
    refine .via ?_ (within_ring ..) (by decide)
    exact .refl _ _

theorem setOut_within (d : Dev) (f : OutFrame) : Within [.ras] d (setOut d f) := by
  unfold setOut; try dsimp only
  with_reducible
    refine .via ?_ (within_ras ..) (by decide)
    exact .refl _ _

theorem newOutput_within (d : Dev) (n i : Nat) : Within [.ras] d (newOutput d n i) := by
  unfold newOutput; try dsimp only
  with_reducible
    refine .foldl ?_ (fun _ _ => ?_)
    refine .via ?_ (setOut_within ..) (by decide)
    exact .refl _ _
    refine .via ?_ (setOut_within ..) (by decide)
    exact .refl _ _

theorem latchBase_within (d : Dev) (r fn : Nat) : Within [.ring] d (latchBase d r fn) := by
  unfold latchBase; try dsimp only
  with_reducible
    refine .via ?_ (within_ring ..) (by decide)
    exact .refl _ _

theorem cadOpen_within (d : Dev) (ofn : Nat) : Within [.stem, .ras] d (cadOpen d ofn) := by
  unfold cadOpen; try dsimp only
  with_reducible
    split
    refine .via ?_ (newOutput_within ..) (by decide)
    refine .via ?_ (within_stem ..) (by decide)
    exact .refl _ _
    refine .via ?_ (newOutput_within ..) (by decide)
    refine .via ?_ (within_stem ..) (by decide)
    exact .refl _ _
    split
    refine .via ?_ (newOutput_within ..) (by decide)
    refine .via ?_ (within_stem ..) (by decide)
    exact .refl _ _
    exact .refl _ _

theorem hostRingAdd_within (r a key : Nat) (d : Dev) : Within [.usb, .ring] d (hostRingAdd r a key d) := by
  unfold hostRingAdd; try dsimp only
  with_reducible
    refine .ite ?_ ?_
    refine .via ?_ (complete_within ..) (by decide)
    refine .via ?_ (ringInc_within ..) (by decide)
    exact .refl _ _
    refine .via ?_ (complete_within ..) (by decide)
    exact .refl _ _

theorem hostRingSet_within (waiters : Dev → Nat → Nat) (r v key : Nat) (d : Dev) : Within [.usb, .ring] d (hostRingSet waiters r v key d) := by
  unfold hostRingSet; try dsimp only
  with_reducible
    refine .ite ?_ ?_
    refine .via ?_ (complete_within ..) (by decide)
    exact .refl _ _
    refine .ite ?_ ?_
    refine .via ?_ (complete_within ..) (by decide)
    exact .refl _ _
    refine .via ?_ (complete_within ..) (by decide)
    refine .via ?_ (ringPut_within ..) (by decide)
    exact .refl _ _

theorem hostRingWait_within (r t ms key : Nat) (d : Dev) : Within [.usb] d (hostRingWait r t ms key d) := by
  unfold hostRingWait; try dsimp only
  with_reducible
    refine .ite ?_ ?_
    refine .via ?_ (complete_within ..) (by decide)
    exact .refl _ _
    refine .ite ?_ ?_
    refine .via ?_ (complete_within ..) (by decide)
    exact .refl _ _
    refine .via ?_ (within_usb ..) (by decide)
    exact .refl _ _

theorem ringWaitMetOp_within (tag : BitVec 16) (d : Dev) : Within [.usb] d (ringWaitMetOp tag d) := by
  unfold ringWaitMetOp; try dsimp only
  with_reducible
    split
    exact .refl _ _
    refine .ite ?_ ?_
    refine .via ?_ (complete_within ..) (by decide)
    refine .via ?_ (dropWait_within ..) (by decide)
    exact .refl _ _
    exact .refl _ _

theorem ringWaitTimeoutOp_within (tag : BitVec 16) (d : Dev) : Within [.usb] d (ringWaitTimeoutOp tag d) := by
  unfold ringWaitTimeoutOp; try dsimp only
  with_reducible
    split
    exact .refl _ _
    refine .ite ?_ ?_
    refine .via ?_ (complete_within ..) (by decide)
    refine .via ?_ (dropWait_within ..) (by decide)
    exact .refl _ _
    exact .refl _ _

theorem hostRingAlloc_within (key : Nat) (d : Dev) : Within [.usb, .ring] d (hostRingAlloc key d) := by
  unfold hostRingAlloc; try dsimp only
  with_reducible
    refine .ite ?_ ?_
    refine .via ?_ (complete_within ..) (by decide)
    exact .refl _ _
    split
    refine .via ?_ (complete_within ..) (by decide)
    exact .refl _ _
    refine .via ?_ (complete_within ..) (by decide)
    refine .via ?_ (ringPut_within ..) (by decide)
    refine .via ?_ (within_ring ..) (by decide)
    exact .refl _ _

theorem hostRingFree_within (waiters : Dev → Nat → Nat) (r key : Nat) (d : Dev) : Within [.usb, .ring] d (hostRingFree waiters r key d) := by
  unfold hostRingFree; try dsimp only
  with_reducible
    refine .ite ?_ ?_
    refine .via ?_ (complete_within ..) (by decide)
    exact .refl _ _
    refine .ite ?_ ?_
    refine .via ?_ (complete_within ..) (by decide)
    exact .refl _ _
    refine .via ?_ (complete_within ..) (by decide)
    refine .via ?_ (ringPut_within ..) (by decide)
    refine .via ?_ (within_ring ..) (by decide)
    exact .refl _ _

end Sys2Proof.Machine
end

