-- ==== Sys2Proof/Laws/TrunkFrame.lean ====
section
/-! SUPPORT. What each operation of Machine/Trunk.lean may change. -/

namespace Sys2Proof.Machine

/-- Moving pages between counts keeps their sum (R85). -/
theorem bookMove_sum (b : Books) (x y : Book) (n : Nat) : bookSum (bookMove b x y n) = bookSum b := by
  unfold bookMove
  split
  · rename_i h
    cases x <;> cases y <;> simp_all [bookSum, bookGet, bookSet] <;> omega
  · rfl

theorem setPage_within (d : Dev) (sp v : Nat) (p : Page) : Within [.trk] d (setPage d sp v p) := by
  unfold setPage; try dsimp only
  with_reducible
    refine .ite ?_ ?_
    refine .via ?_ (within_trk (h := by rfl) ..) (by decide)
    exact .refl _ _
    refine .via ?_ (within_trk (h := by rfl) ..) (by decide)
    exact .refl _ _

theorem moveBooks_within (d : Dev) (src dst : Book) (n : Nat) : Within [.trk] d (moveBooks d src dst n) :=
  ⟨fun p hp => by cases p <;> first | rfl | exact absurd (by simp) hp, id, fun w => (bookMove_sum ..).trans w⟩

theorem cancelEvict_within (d : Dev) (sp v : Nat) : Within [.trk] d (cancelEvict d sp v) := by
  unfold cancelEvict; try dsimp only
  with_reducible
    refine .ite ?_ ?_
    refine .via ?_ (setPage_within ..) (by decide)
    refine .via ?_ (moveBooks_within ..) (by decide)
    exact .refl _ _
    exact .refl _ _

theorem unwrittenEvent_within (d : Dev) (w : Who) (v : Nat) : Within [.regs, .usb, .root, .stem, .trk] d (unwrittenEvent d w v) := by
  unfold unwrittenEvent; try dsimp only
  with_reducible
    refine .ite ?_ ?_
    exact .refl _ _
    refine .via ?_ (raise_within ..) (by decide)
    refine .via ?_ (within_trk (h := by rfl) ..) (by decide)
    exact .refl _ _

theorem setUsed_within (d : Dev) (lpn code : Nat) : Within [.trk] d (setUsed d lpn code) := by
  unfold setUsed; try dsimp only
  with_reducible
    refine .via ?_ (within_trk (h := by rfl) ..) (by decide)
    exact .refl _ _

theorem freeLpn_within (d : Dev) (src : Book) (lpn : Nat) : Within [.trk] d (freeLpn d src lpn) := by
  unfold freeLpn; try dsimp only
  with_reducible
    refine .ite ?_ ?_
    refine .via ?_ (within_trk (h := by rfl) ..) (by decide)
    refine .via ?_ (moveBooks_within ..) (by decide)
    refine .via ?_ (setUsed_within ..) (by decide)
    refine .via ?_ (moveBooks_within ..) (by decide)
    exact .refl _ _
    refine .via ?_ (setUsed_within ..) (by decide)
    refine .via ?_ (moveBooks_within ..) (by decide)
    exact .refl _ _

theorem countEvicted_within (p : Page) (d : Dev) : Within [.regs] d (countEvicted p d) := by
  unfold countEvicted; try dsimp only
  with_reducible
    refine .ite ?_ ?_
    refine .via ?_ (bump_within ..) (by decide)
    refine .via ?_ (bump_within ..) (by decide)
    exact .refl _ _
    refine .via ?_ (bump_within ..) (by decide)
    exact .refl _ _

theorem evictPage_within (d : Dev) (sp v : Nat) : Within [.regs, .trk] d (evictPage d sp v) := by
  unfold evictPage; try dsimp only
  with_reducible
    refine .ite ?_ ?_
    refine .via ?_ (setPage_within ..) (by decide)
    refine .via ?_ (freeLpn_within ..) (by decide)
    refine .via ?_ (countEvicted_within ..) (by decide)
    exact .refl _ _
    refine .via ?_ (setPage_within ..) (by decide)
    refine .via ?_ (moveBooks_within ..) (by decide)
    exact .refl _ _

theorem demandPage_within (d : Dev) (w : Who) (v : Nat) : Within [.regs, .trk] d (demandPage d w v).1 := by
  unfold demandPage; try dsimp only
  with_reducible
    split
    refine .pair ?_
    exact .refl _ _
    refine .ite_fst ?_ ?_
    split
    refine .pair ?_
    exact .refl _ _
    refine .pair ?_
    refine .via ?_ (evictPage_within ..) (by decide)
    exact .refl _ _
    refine .pair ?_
    exact .refl _ _

theorem demandPage_within' {d : Dev} {w : Who} {v : Nat} {z' : Dev} {y' : Option Nat} (h : demandPage d w v = (z', y')) : Within [.regs, .trk] d z' := by
  have w' := demandPage_within d w v
  rw [h] at w'; exact w'

theorem watermark_within (d : Dev) (groups : Nat) (skip : Option (Nat × Nat)) : Within [.regs, .trk] d (watermark d groups skip) := by
  unfold watermark; try dsimp only
  with_reducible
    refine .ite ?_ ?_
    refine .foldl ?_ (fun _ _ => ?_)
    exact .refl _ _
    split
    refine .via ?_ (evictPage_within ..) (by decide)
    exact .refl _ _
    exact .refl _ _
    exact .refl _ _

theorem takeLpn_within (d : Dev) (dst : Book) (lpn code : Nat) : Within [.trk] d (takeLpn d dst lpn code) := by
  unfold takeLpn; try dsimp only
  with_reducible
    refine .ite ?_ ?_
    refine .via ?_ (setUsed_within ..) (by decide)
    refine .via ?_ (within_trk (h := by rfl) ..) (by decide)
    refine .via ?_ (moveBooks_within ..) (by decide)
    exact .refl _ _
    refine .via ?_ (setUsed_within ..) (by decide)
    refine .via ?_ (moveBooks_within ..) (by decide)
    exact .refl _ _

theorem startFetch_within (d : Dev) (w : Who) (v : Nat) : Within [.regs, .trk] d (startFetch d w v).1 := by
  unfold startFetch; try dsimp only
  with_reducible
    split
    refine .pair ?_
    refine .via ?_ (demandPage_within' (by assumption)) (by decide)
    exact .refl _ _
    refine .pair ?_
    refine .via ?_ (watermark_within ..) (by decide)
    refine .via ?_ (setPage_within ..) (by decide)
    refine .via ?_ (takeLpn_within ..) (by decide)
    refine .via ?_ (demandPage_within' (by assumption)) (by decide)
    exact .refl _ _

theorem startFetch_within' {d : Dev} {w : Who} {v : Nat} {z' : Dev} {y' : Bool} (h : startFetch d w v = (z', y')) : Within [.regs, .trk] d z' := by
  have w' := startFetch_within d w v
  rw [h] at w'; exact w'

theorem stallOn_within (d : Dev) (w : Who) (v : Nat) : Within [.regs, .trk] d (stallOn d w v) := by
  unfold stallOn; try dsimp only
  with_reducible
    split
    refine .via ?_ (bump_within ..) (by decide)
    refine .via ?_ (within_trk (h := by rfl) ..) (by decide)
    exact .refl _ _
    refine .ite ?_ ?_
    exact .refl _ _
    refine .via ?_ (bump_within ..) (by decide)
    refine .via ?_ (within_trk (h := by rfl) ..) (by decide)
    exact .refl _ _

theorem stallEnd_within (d : Dev) (w : Who) (v : Nat) : Within [.trk] d (stallEnd d w v) := by
  unfold stallEnd; try dsimp only
  with_reducible
    refine .ite ?_ ?_
    exact .refl _ _
    refine .via ?_ (within_trk (h := by rfl) ..) (by decide)
    exact .refl _ _

theorem readPart_within (d : Dev) (w : Who) (v o n : Nat) : Within [.regs, .usb, .root, .stem, .trk] d (readPart d w v o n).1 := by
  unfold readPart; try dsimp only
  with_reducible
    refine .ite_fst ?_ ?_
    refine .pair ?_
    refine .via ?_ (unwrittenEvent_within ..) (by decide)
    refine .via ?_ (bump_within ..) (by decide)
    refine .via ?_ (cancelEvict_within ..) (by decide)
    exact .refl _ _
    refine .ite_fst ?_ ?_
    refine .ite_fst ?_ ?_
    refine .pair ?_
    refine .via ?_ (bump_within ..) (by decide)
    refine .via ?_ (cancelEvict_within ..) (by decide)
    exact .refl _ _
    refine .pair ?_
    refine .via ?_ (startFetch_within ..) (by decide)
    refine .via ?_ (stallOn_within ..) (by decide)
    refine .via ?_ (cancelEvict_within ..) (by decide)
    exact .refl _ _
    refine .ite_fst ?_ ?_
    refine .pair ?_
    refine .via ?_ (stallOn_within ..) (by decide)
    refine .via ?_ (cancelEvict_within ..) (by decide)
    exact .refl _ _
    refine .pair ?_
    refine .via ?_ (bump_within ..) (by decide)
    refine .via ?_ (setPage_within ..) (by decide)
    refine .via ?_ (stallEnd_within ..) (by decide)
    refine .via ?_ (cancelEvict_within ..) (by decide)
    exact .refl _ _

theorem readPart_within' {d : Dev} {w : Who} {v o n : Nat} {z' : Dev} {y' : Bytes × Bool} (h : readPart d w v o n = (z', y')) : Within [.regs, .usb, .root, .stem, .trk] d z' := by
  have w' := readPart_within d w v o n
  rw [h] at w'; exact w'

theorem recount_within (d0 d : Dev) : Within [.regs] d (recount d0 d) :=
  Within.ite (Within.refl _ _) (setReg_within ..)

theorem vread_within (d : Dev) (w : Who) (a n : Nat) : Within [.regs, .usb, .root, .stem, .trk] d (vread d w a n).1 := by
  unfold vread; dsimp only
  have hf : Within [.regs, .usb, .root, .stem, .trk] d ((partsOf a n).foldl (fun (acc : Dev × Bytes × Bool) part =>
      if acc.2.2 = true then ((readPart acc.1 w part.1 part.2.1 part.2.2).1, acc.2.1 ++ (readPart acc.1 w part.1 part.2.1 part.2.2).2.1,
        (readPart acc.1 w part.1 part.2.1 part.2.2).2.2) else acc) (d, [], true)).1 :=
    .foldl_fst (.refl _ _) (fun x p => .ite_fst (.pair ((Within.refl _ _).via (readPart_within ..) (by decide))) (.refl _ _))
  exact .ite_fst hf (.pair (hf.via (recount_within ..) (by decide)))

theorem vread_within' {d : Dev} {w : Who} {a n : Nat} {z' : Dev} {y' : Bytes × Bool} (h : vread d w a n = (z', y')) : Within [.regs, .usb, .root, .stem, .trk] d z' := by
  have w' := vread_within d w a n
  rw [h] at w'; exact w'

theorem allocPage_within (d : Dev) (w : Who) (v : Nat) : Within [.regs, .trk] d (allocPage d w v).1 := by
  unfold allocPage; try dsimp only
  with_reducible
    split
    refine .pair ?_
    refine .via ?_ (stallOn_within ..) (by decide)
    refine .via ?_ (demandPage_within' (by assumption)) (by decide)
    exact .refl _ _
    refine .pair ?_
    refine .via ?_ (watermark_within ..) (by decide)
    refine .via ?_ (setPage_within ..) (by decide)
    refine .via ?_ (takeLpn_within ..) (by decide)
    refine .via ?_ (demandPage_within' (by assumption)) (by decide)
    exact .refl _ _

theorem allocPage_within' {d : Dev} {w : Who} {v : Nat} {z' : Dev} {y' : Bool} (h : allocPage d w v = (z', y')) : Within [.regs, .trk] d z' := by
  have w' := allocPage_within d w v
  rw [h] at w'; exact w'

theorem writePart_within (d : Dev) (w : Who) (v o : Nat) (bs : Bytes) : Within [.regs, .trk, .mem] d (writePart d w v o bs).1 := by
  unfold writePart; try dsimp only
  with_reducible
    refine .ite_fst ?_ ?_
    refine .pair ?_
    refine .via ?_ (cancelEvict_within ..) (by decide)
    exact .refl _ _
    refine .ite_fst ?_ ?_
    refine .ite_fst ?_ ?_
    refine .pair ?_
    refine .via ?_ (setPage_within ..) (by decide)
    refine .via ?_ (stallEnd_within ..) (by decide)
    refine .ite ?_ ?_
    refine .via ?_ (allocPage_within ..) (by decide)
    refine .via ?_ (cancelEvict_within ..) (by decide)
    exact .refl _ _
    refine .via ?_ (writeMem_within ..) (by decide)
    refine .via ?_ (writeMem_within ..) (by decide)
    refine .via ?_ (allocPage_within ..) (by decide)
    refine .via ?_ (cancelEvict_within ..) (by decide)
    exact .refl _ _
    refine .pair ?_
    refine .via ?_ (allocPage_within ..) (by decide)
    refine .via ?_ (cancelEvict_within ..) (by decide)
    exact .refl _ _
    refine .ite_fst ?_ ?_
    refine .pair ?_
    refine .via ?_ (setPage_within ..) (by decide)
    refine .via ?_ (stallEnd_within ..) (by decide)
    refine .ite ?_ ?_
    refine .via ?_ (cancelEvict_within ..) (by decide)
    exact .refl _ _
    refine .via ?_ (writeMem_within ..) (by decide)
    refine .via ?_ (writeMem_within ..) (by decide)
    refine .via ?_ (cancelEvict_within ..) (by decide)
    exact .refl _ _
    refine .ite_fst ?_ ?_
    refine .ite_fst ?_ ?_
    refine .pair ?_
    refine .via ?_ (setPage_within ..) (by decide)
    refine .via ?_ (writeLp6_within ..) (by decide)
    refine .via ?_ (cancelEvict_within ..) (by decide)
    exact .refl _ _
    refine .pair ?_
    refine .via ?_ (startFetch_within ..) (by decide)
    refine .via ?_ (stallOn_within ..) (by decide)
    refine .via ?_ (cancelEvict_within ..) (by decide)
    exact .refl _ _
    refine .pair ?_
    refine .via ?_ (stallOn_within ..) (by decide)
    refine .via ?_ (cancelEvict_within ..) (by decide)
    exact .refl _ _

theorem writePart_within' {d : Dev} {w : Who} {v o : Nat} {bs : Bytes} {z' : Dev} {y' : Bool} (h : writePart d w v o bs = (z', y')) : Within [.regs, .trk, .mem] d z' := by
  have w' := writePart_within d w v o bs
  rw [h] at w'; exact w'

theorem vwrite_within (d : Dev) (w : Who) (a : Nat) (bs : Bytes) : Within [.regs, .trk, .mem] d (vwrite d w a bs).1 := by
  unfold vwrite; try dsimp only
  with_reducible
    refine .foldl_fst ?_ (fun _ _ => ?_)
    refine .pair ?_
    exact .refl _ _
    refine .ite_fst ?_ ?_
    refine .pair ?_
    refine .via ?_ (writePart_within ..) (by decide)
    exact .refl _ _
    exact .refl _ _

theorem vwrite_within' {d : Dev} {w : Who} {a : Nat} {bs : Bytes} {z' : Dev} {y' : Bool} (h : vwrite d w a bs = (z', y')) : Within [.regs, .trk, .mem] d z' := by
  have w' := vwrite_within d w a bs
  rw [h] at w'; exact w'

theorem freePage_within (d : Dev) (sp v : Nat) : Within [.regs, .trk] d (freePage d sp v) := by
  unfold freePage; try dsimp only
  with_reducible
    refine .via ?_ (setPage_within ..) (by decide)
    refine .ite ?_ ?_
    refine .via ?_ (freeLpn_within ..) (by decide)
    refine .ite ?_ ?_
    refine .via ?_ (bump_within ..) (by decide)
    exact .refl _ _
    exact .refl _ _
    refine .ite ?_ ?_
    refine .via ?_ (freeLpn_within ..) (by decide)
    refine .ite ?_ ?_
    refine .via ?_ (bump_within ..) (by decide)
    exact .refl _ _
    exact .refl _ _
    refine .ite ?_ ?_
    refine .via ?_ (bump_within ..) (by decide)
    exact .refl _ _
    exact .refl _ _

theorem releasePage_within (d : Dev) (sp v : Nat) : Within [.regs, .ring, .trk] d (releasePage d sp v) := by
  unfold releasePage; try dsimp only
  with_reducible
    refine .ite ?_ ?_
    split
    refine .ite ?_ ?_
    refine .via ?_ (ringInc_within ..) (by decide)
    exact .refl _ _
    exact .refl _ _
    exact .refl _ _
    refine .ite ?_ ?_
    refine .via ?_ (freePage_within ..) (by decide)
    split
    refine .ite ?_ ?_
    refine .via ?_ (ringInc_within ..) (by decide)
    exact .refl _ _
    exact .refl _ _
    exact .refl _ _
    refine .via ?_ (setPage_within ..) (by decide)
    split
    refine .ite ?_ ?_
    refine .via ?_ (ringInc_within ..) (by decide)
    exact .refl _ _
    exact .refl _ _
    exact .refl _ _

theorem setLineRing_within (d : Dev) (r : Nat) (l : LineRing) : Within [.trk] d (setLineRing d r l) := by
  unfold setLineRing; try dsimp only
  with_reducible
    refine .via ?_ (within_trk (h := by rfl) ..) (by decide)
    exact .refl _ _

theorem finishLines_within (d : Dev) (r c x : Nat) (consumers : List Nat) : Within [.trk] d (finishLines d r c x consumers) := by
  unfold finishLines; try dsimp only
  with_reducible
    refine .via ?_ (setLineRing_within ..) (by decide)
    exact .refl _ _

theorem unstage_within (d : Dev) (task : Nat) : Within [.trk] d (unstage d task) := by
  unfold unstage; try dsimp only
  with_reducible
    refine .foldl ?_ (fun _ _ => ?_)
    exact .refl _ _
    refine .ite ?_ ?_
    refine .via ?_ (setPage_within ..) (by decide)
    exact .refl _ _
    exact .refl _ _

theorem dropStalls_within (d : Dev) (task pfn sp : Nat) : Within [.trk] d (dropStalls d task pfn sp) := by
  unfold dropStalls; try dsimp only
  with_reducible
    refine .via ?_ (within_trk (h := by rfl) ..) (by decide)
    exact .refl _ _

theorem newLineRing_within (d : Dev) (r n : Nat) : Within [.trk] d (newLineRing d r n) := by
  unfold newLineRing; try dsimp only
  with_reducible
    refine .via ?_ (setLineRing_within ..) (by decide)
    exact .refl _ _

theorem serveStaging_within (d : Dev) : Within [.regs, .trk] d (serveStaging d) := by
  unfold serveStaging; try dsimp only
  with_reducible
    refine .foldl_fst ?_ (fun _ _ => ?_)
    refine .pair ?_
    exact .refl _ _
    refine .ite_fst ?_ ?_
    exact .refl _ _
    refine .ite_fst ?_ ?_
    refine .pair ?_
    refine .via ?_ (within_trk (h := by rfl) ..) (by decide)
    refine .via ?_ (stallEnd_within ..) (by decide)
    exact .refl _ _
    refine .ite_fst ?_ ?_
    refine .pair ?_
    exact .refl _ _
    split
    refine .pair ?_
    refine .via ?_ (within_trk (h := by rfl) ..) (by decide)
    refine .via ?_ (setPage_within ..) (by decide)
    refine .via ?_ (within_trk (h := by rfl) ..) (by decide)
    refine .via ?_ (stallEnd_within ..) (by decide)
    refine .via ?_ (startFetch_within' (by assumption)) (by decide)
    exact .refl _ _
    refine .pair ?_
    refine .via ?_ (stallOn_within ..) (by decide)
    refine .via ?_ (startFetch_within' (by assumption)) (by decide)
    exact .refl _ _

theorem stageTask_within (d : Dev) (stem task : Nat) : Within [.regs, .trk] d (stageTask d stem task) := by
  unfold stageTask; try dsimp only
  with_reducible
    refine .via ?_ (serveStaging_within ..) (by decide)
    refine .via ?_ (within_trk (h := by rfl) ..) (by decide)
    exact .refl _ _

theorem booksSnapOp_within (value : Word) (d : Dev) : Within [.regs] d (booksSnapOp value d) := by
  unfold booksSnapOp; try dsimp only
  with_reducible
    refine .ite ?_ ?_
    refine .via ?_ (setFlds_within ..) (by decide)
    exact .refl _ _
    exact .refl _ _

theorem branchLine_within (d : Dev) (r x : Nat) : Within [.trk] d (branchLine d r x).1 := by
  unfold branchLine; try dsimp only
  with_reducible
    refine .ite_fst ?_ ?_
    refine .pair ?_
    exact .refl _ _
    refine .ite_fst ?_ ?_
    refine .pair ?_
    exact .refl _ _
    refine .pair ?_
    refine .via ?_ (setLineRing_within ..) (by decide)
    exact .refl _ _

theorem branchLine_within' {d : Dev} {r x : Nat} {z' : Dev} {y' : Bool} (h : branchLine d r x = (z', y')) : Within [.trk] d z' := by
  have w' := branchLine_within d r x
  rw [h] at w'; exact w'

theorem takeCredit_within {d : Dev} {r : Nat} {e : Dev} (h : takeCredit d r = some e) : Within [.trk] d e := by
  unfold takeCredit at h; dsimp only at h
  split at h
  · cases h
  · cases h; exact setLineRing_within ..

theorem discardLines_within (d : Dev) (r x : Nat) : Within [.trk] d (discardLines d r x) := by
  unfold discardLines; try dsimp only
  with_reducible
    refine .via ?_ (setLineRing_within ..) (by decide)
    exact .refl _ _

theorem lineWritten_within (d : Dev) (r x : Nat) (consumers : List Nat) : Within [.trk] d (lineWritten d r x consumers) := by
  unfold lineWritten; try dsimp only
  with_reducible
    refine .ite ?_ ?_
    exact .refl _ _
    refine .via ?_ (setLineRing_within ..) (by decide)
    exact .refl _ _

theorem wantPage_within (d : Dev) (w : Who) (v : Nat) : Within [.regs, .trk] d (wantPage d w v) := by
  unfold wantPage; try dsimp only
  with_reducible
    refine .ite ?_ ?_
    refine .via ?_ (startFetch_within ..) (by decide)
    refine .via ?_ (stallOn_within ..) (by decide)
    refine .via ?_ (cancelEvict_within ..) (by decide)
    exact .refl _ _
    refine .via ?_ (cancelEvict_within ..) (by decide)
    exact .refl _ _

theorem watermarks_within (d : Dev) : Within [.regs, .trk] d (watermarks d) := by
  unfold watermarks; try dsimp only
  with_reducible
    refine .ite ?_ ?_
    refine .foldl ?_ (fun _ _ => ?_)
    exact .refl _ _
    refine .via ?_ (watermark_within ..) (by decide)
    exact .refl _ _
    exact .refl _ _

theorem pageLookupOp_within (value : Word) (d : Dev) : Within [.regs] d (pageLookupOp value d) := by
  unfold pageLookupOp; try dsimp only
  with_reducible
    refine .ite ?_ ?_
    refine .via ?_ (setFlds_within ..) (by decide)
    refine .via ?_ (setFld_within ..) (by decide)
    exact .refl _ _
    refine .via ?_ (setFld_within ..) (by decide)
    exact .refl _ _

theorem evictionWriteDoneOp_within (sp v : Nat) (d : Dev) : Within [.regs, .trk, .mem] d (evictionWriteDoneOp sp v d) := by
  unfold evictionWriteDoneOp; try dsimp only
  with_reducible
    refine .ite ?_ ?_
    refine .via ?_ (serveStaging_within ..) (by decide)
    refine .via ?_ (setPage_within ..) (by decide)
    refine .via ?_ (freeLpn_within ..) (by decide)
    refine .via ?_ (countEvicted_within ..) (by decide)
    refine .via ?_ (writeLp6_within ..) (by decide)
    exact .refl _ _
    exact .refl _ _

theorem pageFetchDoneOp_within (sp v : Nat) (d : Dev) : Within [.regs, .trk, .mem] d (pageFetchDoneOp sp v d) := by
  unfold pageFetchDoneOp; try dsimp only
  with_reducible
    refine .ite ?_ ?_
    refine .via ?_ (serveStaging_within ..) (by decide)
    refine .via ?_ (setPage_within ..) (by decide)
    refine .via ?_ (moveBooks_within ..) (by decide)
    refine .via ?_ (within_trk (h := by rfl) ..) (by decide)
    refine .via ?_ (writeMem_within ..) (by decide)
    exact .refl _ _
    exact .refl _ _

theorem stampTickOp_within (d : Dev) : Within [.regs, .trk] d (stampTickOp d) := by
  unfold stampTickOp; try dsimp only
  with_reducible
    refine .via ?_ (watermarks_within ..) (by decide)
    refine .via ?_ (within_trk (h := by rfl) ..) (by decide)
    exact .refl _ _

end Sys2Proof.Machine
end

