-- ==== Sys2Proof/Laws/CamPortFrame.lean ====
section
/-! SUPPORT. What each operation of Machine/CamPort.lean may change. -/

namespace Sys2Proof.Machine

theorem dropExposures_within (keep : Nat → Bool) (d : Dev) : Within [.regs, .cam] d (dropExposures keep d) := by
  unfold dropExposures; try dsimp only
  with_reducible
    refine .via ?_ (within_cam ..) (by decide)
    refine .foldl ?_ (fun _ _ => ?_)
    exact .refl _ _
    refine .ite ?_ ?_
    exact .refl _ _
    refine .via ?_ (setFld_within ..) (by decide)
    exact .refl _ _

theorem closePort_within (p : Nat) (d : Dev) : Within [.regs, .cam] d (closePort p d) := by
  unfold closePort; try dsimp only
  with_reducible
    refine .via ?_ (setFld_within ..) (by decide)
    refine .via ?_ (dropExposures_within ..) (by decide)
    exact .refl _ _

theorem retirePort_within (p kind : Nat) (rep : Bool) (d : Dev) : Within [.regs, .usb, .root, .stem, .cam, .flt] d (retirePort p kind rep d) := by
  unfold retirePort; try dsimp only
  with_reducible
    refine .via ?_ (raise_within ..) (by decide)
    refine .via ?_ (closePort_within ..) (by decide)
    refine .via ?_ (setBktState_within ..) (by decide)
    refine .via ?_ (setFld_within ..) (by decide)
    refine .via ?_ (within_flt ..) (by decide)
    exact .refl _ _

theorem camReport_within (f : CamFrame) (d : Dev) : Within [.regs, .usb, .root, .stem, .cam, .flt] d (camReport f d) := by
  unfold camReport; try dsimp only
  with_reducible
    refine .ite ?_ ?_
    refine .ite ?_ ?_
    refine .via ?_ (raise_within ..) (by decide)
    refine .via ?_ (bump_within ..) (by decide)
    refine .ite ?_ ?_
    exact .refl _ _
    refine .via ?_ (raise_within ..) (by decide)
    exact .refl _ _
    refine .ite ?_ ?_
    exact .refl _ _
    refine .via ?_ (raise_within ..) (by decide)
    exact .refl _ _
    split
    refine .via ?_ (retirePort_within ..) (by decide)
    refine .via ?_ (countError_within' (by assumption)) (by decide)
    refine .ite ?_ ?_
    refine .via ?_ (raise_within ..) (by decide)
    refine .via ?_ (bump_within ..) (by decide)
    refine .ite ?_ ?_
    exact .refl _ _
    refine .via ?_ (raise_within ..) (by decide)
    exact .refl _ _
    refine .ite ?_ ?_
    exact .refl _ _
    refine .via ?_ (raise_within ..) (by decide)
    exact .refl _ _
    refine .via ?_ (countError_within' (by assumption)) (by decide)
    refine .ite ?_ ?_
    refine .via ?_ (raise_within ..) (by decide)
    refine .via ?_ (bump_within ..) (by decide)
    refine .ite ?_ ?_
    exact .refl _ _
    refine .via ?_ (raise_within ..) (by decide)
    exact .refl _ _
    refine .ite ?_ ?_
    exact .refl _ _
    refine .via ?_ (raise_within ..) (by decide)
    exact .refl _ _

theorem removeCam_within (d : Dev) (f : CamFrame) : Within [.cam] d (removeCam d f) := by
  unfold removeCam; try dsimp only
  with_reducible
    refine .via ?_ (within_cam ..) (by decide)
    exact .refl _ _

theorem dropParams_within (d : Dev) : Within [.regs, .usb, .cam] d (dropParams d) := by
  unfold dropParams; try dsimp only
  with_reducible
    refine .via ?_ (within_cam ..) (by decide)
    refine .foldl ?_ (fun _ _ => ?_)
    exact .refl _ _
    split
    refine .via ?_ (complete_within ..) (by decide)
    refine .via ?_ (setFld_within ..) (by decide)
    exact .refl _ _
    exact .refl _ _

theorem ispStat_within (d : Dev) : Within [.regs] d (ispStat d) := by
  unfold ispStat; try dsimp only
  with_reducible
    split
    refine .via ?_ (setFlds_within ..) (by decide)
    exact .refl _ _
    refine .via ?_ (setFlds_within ..) (by decide)
    exact .refl _ _

theorem camRelease_within (sp : Nat) (d : Dev) : Within [.regs, .usb, .ring, .root, .stem, .trk, .cam, .flt] d (camRelease sp d) := by
  unfold camRelease; try dsimp only
  with_reducible
    refine .ite ?_ ?_
    refine .ite ?_ ?_
    refine .via ?_ (within_cam ..) (by decide)
    refine .via ?_ (dropExposures_within ..) (by decide)
    refine .via ?_ (dropParams_within ..) (by decide)
    refine .via ?_ (within_trk (h := by rfl) ..) (by decide)
    refine .foldl ?_ (fun _ _ => ?_)
    exact .refl _ _
    refine .via ?_ (removeCam_within ..) (by decide)
    refine .ite ?_ ?_
    refine .via ?_ (ringInc_within ..) (by decide)
    refine .via ?_ (ringInc_within ..) (by decide)
    exact .refl _ _
    refine .via ?_ (camReport_within ..) (by decide)
    refine .via ?_ (setFld_within ..) (by decide)
    refine .via ?_ (ringInc_within ..) (by decide)
    refine .via ?_ (ringInc_within ..) (by decide)
    exact .refl _ _
    refine .via ?_ (within_trk (h := by rfl) ..) (by decide)
    refine .foldl ?_ (fun _ _ => ?_)
    exact .refl _ _
    refine .via ?_ (removeCam_within ..) (by decide)
    refine .ite ?_ ?_
    refine .via ?_ (ringInc_within ..) (by decide)
    refine .via ?_ (ringInc_within ..) (by decide)
    exact .refl _ _
    refine .via ?_ (camReport_within ..) (by decide)
    refine .via ?_ (setFld_within ..) (by decide)
    refine .via ?_ (ringInc_within ..) (by decide)
    refine .via ?_ (ringInc_within ..) (by decide)
    exact .refl _ _
    refine .via ?_ (ispStat_within ..) (by decide)
    refine .ite ?_ ?_
    refine .via ?_ (within_cam ..) (by decide)
    refine .via ?_ (dropExposures_within ..) (by decide)
    refine .via ?_ (dropParams_within ..) (by decide)
    refine .via ?_ (within_trk (h := by rfl) ..) (by decide)
    refine .foldl ?_ (fun _ _ => ?_)
    exact .refl _ _
    refine .via ?_ (removeCam_within ..) (by decide)
    refine .ite ?_ ?_
    refine .via ?_ (ringInc_within ..) (by decide)
    refine .via ?_ (ringInc_within ..) (by decide)
    exact .refl _ _
    refine .via ?_ (camReport_within ..) (by decide)
    refine .via ?_ (setFld_within ..) (by decide)
    refine .via ?_ (ringInc_within ..) (by decide)
    refine .via ?_ (ringInc_within ..) (by decide)
    exact .refl _ _
    refine .via ?_ (within_trk (h := by rfl) ..) (by decide)
    refine .foldl ?_ (fun _ _ => ?_)
    exact .refl _ _
    refine .via ?_ (removeCam_within ..) (by decide)
    refine .ite ?_ ?_
    refine .via ?_ (ringInc_within ..) (by decide)
    refine .via ?_ (ringInc_within ..) (by decide)
    exact .refl _ _
    refine .via ?_ (camReport_within ..) (by decide)
    refine .via ?_ (setFld_within ..) (by decide)
    refine .via ?_ (ringInc_within ..) (by decide)
    refine .via ?_ (ringInc_within ..) (by decide)
    exact .refl _ _

theorem setCam_within (d : Dev) (f : CamFrame) : Within [.cam] d (setCam d f) := by
  unfold setCam; try dsimp only
  with_reducible
    refine .via ?_ (within_cam ..) (by decide)
    exact .refl _ _

theorem camEnd_within (p : Nat) (d : Dev) : Within [.regs, .usb, .root, .stem, .cam, .flt] d (camEnd p d) := by
  unfold camEnd; try dsimp only
  with_reducible
    split
    refine .via ?_ (setFld_within ..) (by decide)
    exact .refl _ _
    refine .via ?_ (camReport_within ..) (by decide)
    refine .via ?_ (setFld_within ..) (by decide)
    refine .via ?_ (setCam_within ..) (by decide)
    exact .refl _ _

theorem camExchange_within (d : Dev) : Within [.regs, .usb, .trk, .cam] d (camExchange d) := by
  unfold camExchange; try dsimp only
  with_reducible
    refine .via ?_ (dropExposures_within ..) (by decide)
    refine .via ?_ (dropParams_within ..) (by decide)
    refine .via ?_ (within_trk_cam (h := by rfl) ..) (by decide)
    exact .refl _ _

theorem camApply_within (d : Dev) : Within [.regs, .live, .trk, .cam] d (camApply d) := by
  unfold camApply; try dsimp only
  with_reducible
    refine .foldl ?_ (fun _ _ => ?_)
    refine .foldl ?_ (fun _ _ => ?_)
    exact .refl _ _
    refine .ite ?_ ?_
    refine .via ?_ (within_cam ..) (by decide)
    exact .refl _ _
    refine .via ?_ (setLive_within ..) (by decide)
    refine .via ?_ (setFld_within ..) (by decide)
    refine .via ?_ (within_cam ..) (by decide)
    exact .refl _ _
    refine .ite ?_ ?_
    refine .via ?_ (newLineRing_within ..) (by decide)
    exact .refl _ _
    refine .via ?_ (setFld_within ..) (by decide)
    refine .via ?_ (within_cam ..) (by decide)
    refine .via ?_ (newLineRing_within ..) (by decide)
    exact .refl _ _

theorem camLast_within (f : CamFrame) (dropped : Bool) (d : Dev) : Within [.regs] d (camLast f dropped d) := by
  unfold camLast; try dsimp only
  with_reducible
    refine .via ?_ (setReg_within ..) (by decide)
    refine .via ?_ (setReg_within ..) (by decide)
    refine .via ?_ (setReg_within ..) (by decide)
    refine .via ?_ (setReg_within ..) (by decide)
    exact .refl _ _

theorem writeStats_within (f : CamFrame) (bytes : Bytes) (d : Dev) : Within [.regs, .trk, .mem] d (writeStats f bytes d) := by
  unfold writeStats; try dsimp only
  with_reducible
    refine .ite ?_ ?_
    refine .via ?_ (vwrite_within ..) (by decide)
    exact .refl _ _
    exact .refl _ _

theorem dropCounts_within (f : CamFrame) (d : Dev) : Within [.regs, .usb, .ring, .root, .stem, .trk, .mem] d (dropCounts f d) := by
  unfold dropCounts; try dsimp only
  with_reducible
    refine .via ?_ (raise_within ..) (by decide)
    refine .via ?_ (bump_within ..) (by decide)
    refine .via ?_ (ringInc_within ..) (by decide)
    refine .via ?_ (camLast_within ..) (by decide)
    refine .via ?_ (writeStats_within ..) (by decide)
    refine .via ?_ (ringInc_within ..) (by decide)
    exact .refl _ _

theorem dropCam_within (f : CamFrame) (d : Dev) : Within [.regs, .usb, .ring, .root, .stem, .trk, .mem, .cam, .flt] d (dropCam f d) := by
  unfold dropCam; try dsimp only
  with_reducible
    refine .via ?_ (ispStat_within ..) (by decide)
    refine .via ?_ (dropCounts_within ..) (by decide)
    refine .via ?_ (removeCam_within ..) (by decide)
    refine .ite ?_ ?_
    refine .via ?_ (discardLines_within ..) (by decide)
    exact .refl _ _
    refine .via ?_ (camReport_within ..) (by decide)
    refine .via ?_ (setFld_within ..) (by decide)
    refine .via ?_ (discardLines_within ..) (by decide)
    exact .refl _ _

end Sys2Proof.Machine
end

