-- ==== Sys2Proof/Laws/ScaleFrame.lean ====
section
/-! SUPPORT. What each operation of Machine/Scale.lean may change. -/

namespace Sys2Proof.Machine

theorem setCell_within (d : Dev) (out : Bool) (n i fn : Nat) (c : CellStat) : Within [.cells] d (setCell d out n i fn c) := by
  unfold setCell; try dsimp only
  with_reducible
    refine .via ?_ (within_cells ..) (by decide)
    exact .refl _ _

theorem writeEntry_within (d : Dev) (out : Bool) (n i fn : Nat) (bs : Bytes) : Within [.regs, .trk, .mem] d (writeEntry d out n i fn bs) := by
  unfold writeEntry; try dsimp only
  with_reducible
    refine .via ?_ (vwrite_within ..) (by decide)
    exact .refl _ _

theorem zeroTable_within (d : Dev) (out : Bool) (n : Nat) : Within [.regs, .trk, .mem] d (zeroTable d out n) := by
  unfold zeroTable; try dsimp only
  with_reducible
    refine .via ?_ (vwrite_within ..) (by decide)
    exact .refl _ _

theorem clearCarried_within (d : Dev) (out : Bool) (t : Nat) : Within [.regs, .trk, .mem] d (clearCarried d out t) := by
  unfold clearCarried; try dsimp only
  with_reducible
    refine .foldl ?_ (fun _ _ => ?_)
    exact .refl _ _
    refine .via ?_ (zeroTable_within ..) (by decide)
    exact .refl _ _

theorem zeroTables_within (d : Dev) : Within [.regs, .trk, .mem] d (zeroTables d) := by
  unfold zeroTables; try dsimp only
  with_reducible
    refine .foldl ?_ (fun _ _ => ?_)
    exact .refl _ _
    refine .via ?_ (zeroTable_within ..) (by decide)
    exact .refl _ _

theorem beginCell_within (d : Dev) (out : Bool) (n i fn : Nat) : Within [.cells] d (beginCell d out n i fn) := by
  unfold beginCell; try dsimp only
  with_reducible
    refine .ite ?_ ?_
    exact .refl _ _
    refine .via ?_ (setCell_within ..) (by decide)
    exact .refl _ _

theorem treeDone_within (d : Dev) (out : Bool) (n i fn : Nat) : Within [.cells] d (treeDone d out n i fn) := by
  unfold treeDone; try dsimp only
  with_reducible
    refine .via ?_ (setCell_within ..) (by decide)
    exact .refl _ _

end Sys2Proof.Machine
end

