-- ==== Sys2Proof/Laws/StemFrame.lean ====
section
/-! SUPPORT. What each operation of Machine/Stem.lean may change. -/

namespace Sys2Proof.Machine

theorem setBranch_within (d : Dev) (n : Nat) (b : Branch) : Within [.br] d (setBranch d n b) := by
  unfold setBranch; try dsimp only
  with_reducible
    refine .via ?_ (within_br ..) (by decide)
    exact .refl _ _

theorem ringRaise_within (d : Dev) (r v : Nat) : Within [.ring] d (ringRaise d r v) := by
  unfold ringRaise; try dsimp only
  with_reducible
    refine .ite ?_ ?_
    refine .via ?_ (ringPut_within ..) (by decide)
    exact .refl _ _
    exact .refl _ _

theorem raiseSigs_within (d : Dev) (b : Bytes) (k fn : Nat) : Within [.ring] d (raiseSigs d b k fn) := by
  unfold raiseSigs; try dsimp only
  with_reducible
    refine .foldl ?_ (fun _ _ => ?_)
    exact .refl _ _
    refine .ite ?_ ?_
    exact .refl _ _
    split
    refine .ite ?_ ?_
    refine .via ?_ (ringRaise_within ..) (by decide)
    exact .refl _ _
    exact .refl _ _
    exact .refl _ _

theorem histFail_within (d : Dev) (b : Bytes) (k fn : Nat) (out : Bool) : Within [.stem] d (histFail d b k fn out) := by
  unfold histFail; try dsimp only
  with_reducible
    refine .via ?_ (within_stem ..) (by decide)
    exact .refl _ _

theorem scaleEvents_within (d : Dev) (b : Bytes) (k : Nat) (t : TaskSt) : Within [.regs, .usb, .root, .stem] d (scaleEvents d b k t) := by
  unfold scaleEvents; try dsimp only
  with_reducible
    refine .foldl ?_ (fun _ _ => ?_)
    exact .refl _ _
    refine .ite ?_ ?_
    exact .refl _ _
    refine .via ?_ (raise_within ..) (by decide)
    exact .refl _ _

theorem voidEntries_within (d : Dev) (b : Bytes) (k fn : Nat) (out : Bool) : Within [.regs, .trk, .mem] d (voidEntries d b k fn out) := by
  unfold voidEntries; try dsimp only
  with_reducible
    refine .foldl ?_ (fun _ _ => ?_)
    exact .refl _ _
    refine .foldl ?_ (fun _ _ => ?_)
    exact .refl _ _
    refine .ite ?_ ?_
    exact .refl _ _
    refine .via ?_ (writeEntry_within ..) (by decide)
    exact .refl _ _

theorem releaseRest_within (d : Dev) (b : Bytes) (k fn : Nat) (out : Bool) : Within [.regs, .ring, .trk] d (releaseRest d b k fn out) := by
  unfold releaseRest; try dsimp only
  with_reducible
    refine .foldl ?_ (fun _ _ => ?_)
    exact .refl _ _
    refine .via ?_ (releasePage_within ..) (by decide)
    exact .refl _ _

theorem finishRings_within (d : Dev) (b : Bytes) (k fn : Nat) (out : Bool) : Within [.trk] d (finishRings d b k fn out) := by
  unfold finishRings; try dsimp only
  with_reducible
    refine .foldl ?_ (fun _ _ => ?_)
    exact .refl _ _
    refine .ite ?_ ?_
    exact .refl _ _
    refine .via ?_ (finishLines_within ..) (by decide)
    exact .refl _ _

theorem atBoundary_within (n : Nat) (d : Dev) : Within [.regs] d (atBoundary n d) := by
  unfold atBoundary; try dsimp only
  with_reducible
    refine .via ?_ (setFlds_within ..) (by decide)
    exact .refl _ _

theorem dropTask_within (d : Dev) (k pfn : Nat) (out : Bool) : Within [.regs, .br] d (dropTask d k pfn out) := by
  unfold dropTask; try dsimp only
  with_reducible
    refine .via ?_ (within_br ..) (by decide)
    refine .foldl ?_ (fun _ _ => ?_)
    exact .refl _ _
    refine .via ?_ (atBoundary_within ..) (by decide)
    exact .refl _ _

theorem setFrames_within (d : Dev) (l : List Frame) : Within [.stem] d (setFrames d l) := by
  unfold setFrames; try dsimp only
  with_reducible
    refine .via ?_ (within_stem ..) (by decide)
    exact .refl _ _

theorem mapFrame_within (d : Dev) (p pfn : Nat) (out : Bool) (g : Frame → Frame) : Within [.stem] d (mapFrame d p pfn out g) := by
  unfold mapFrame; try dsimp only
  with_reducible
    refine .via ?_ (setFrames_within ..) (by decide)
    exact .refl _ _

theorem mapTask_within (d : Dev) (k pfn : Nat) (out : Bool) (g : TaskSt → TaskSt) : Within [.stem] d (mapTask d k pfn out g) := by
  unfold mapTask; try dsimp only
  with_reducible
    refine .via ?_ (mapFrame_within ..) (by decide)
    exact .refl _ _

theorem endTask_within (d : Dev) (k pfn : Nat) (out : Bool) (status flags : Nat) : Within [.regs, .usb, .ring, .root, .stem, .trk, .mem, .br] d (endTask d k pfn out status flags) := by
  unfold endTask; try dsimp only
  with_reducible
    split
    exact .refl _ _
    refine .ite ?_ ?_
    exact .refl _ _
    refine .ite ?_ ?_
    refine .via ?_ (raise_within ..) (by decide)
    refine .ite ?_ ?_
    refine .via ?_ (ringInc_within ..) (by decide)
    refine .via ?_ (mapTask_within ..) (by decide)
    refine .via ?_ (dropStalls_within ..) (by decide)
    refine .via ?_ (within_stem ..) (by decide)
    refine .via ?_ (writeMem_within ..) (by decide)
    refine .via ?_ (finishRings_within ..) (by decide)
    refine .via ?_ (unstage_within ..) (by decide)
    refine .via ?_ (dropTask_within ..) (by decide)
    refine .via ?_ (releaseRest_within ..) (by decide)
    refine .via ?_ (scaleEvents_within ..) (by decide)
    refine .ite ?_ ?_
    refine .via ?_ (voidEntries_within ..) (by decide)
    refine .ite ?_ ?_
    refine .via ?_ (histFail_within ..) (by decide)
    refine .ite ?_ ?_
    refine .via ?_ (raiseSigs_within ..) (by decide)
    exact .refl _ _
    exact .refl _ _
    refine .ite ?_ ?_
    refine .via ?_ (raiseSigs_within ..) (by decide)
    exact .refl _ _
    exact .refl _ _
    refine .ite ?_ ?_
    refine .via ?_ (histFail_within ..) (by decide)
    refine .ite ?_ ?_
    refine .via ?_ (raiseSigs_within ..) (by decide)
    exact .refl _ _
    exact .refl _ _
    refine .ite ?_ ?_
    refine .via ?_ (raiseSigs_within ..) (by decide)
    exact .refl _ _
    exact .refl _ _
    refine .via ?_ (mapTask_within ..) (by decide)
    refine .via ?_ (dropStalls_within ..) (by decide)
    refine .via ?_ (within_stem ..) (by decide)
    refine .via ?_ (writeMem_within ..) (by decide)
    refine .via ?_ (finishRings_within ..) (by decide)
    refine .via ?_ (unstage_within ..) (by decide)
    refine .via ?_ (dropTask_within ..) (by decide)
    refine .via ?_ (releaseRest_within ..) (by decide)
    refine .via ?_ (scaleEvents_within ..) (by decide)
    refine .ite ?_ ?_
    refine .via ?_ (voidEntries_within ..) (by decide)
    refine .ite ?_ ?_
    refine .via ?_ (histFail_within ..) (by decide)
    refine .ite ?_ ?_
    refine .via ?_ (raiseSigs_within ..) (by decide)
    exact .refl _ _
    exact .refl _ _
    refine .ite ?_ ?_
    refine .via ?_ (raiseSigs_within ..) (by decide)
    exact .refl _ _
    exact .refl _ _
    refine .ite ?_ ?_
    refine .via ?_ (histFail_within ..) (by decide)
    refine .ite ?_ ?_
    refine .via ?_ (raiseSigs_within ..) (by decide)
    exact .refl _ _
    exact .refl _ _
    refine .ite ?_ ?_
    refine .via ?_ (raiseSigs_within ..) (by decide)
    exact .refl _ _
    exact .refl _ _
    refine .ite ?_ ?_
    refine .via ?_ (ringInc_within ..) (by decide)
    refine .via ?_ (mapTask_within ..) (by decide)
    refine .via ?_ (dropStalls_within ..) (by decide)
    refine .via ?_ (within_stem ..) (by decide)
    refine .via ?_ (writeMem_within ..) (by decide)
    refine .via ?_ (finishRings_within ..) (by decide)
    refine .via ?_ (unstage_within ..) (by decide)
    refine .via ?_ (dropTask_within ..) (by decide)
    refine .via ?_ (releaseRest_within ..) (by decide)
    refine .via ?_ (scaleEvents_within ..) (by decide)
    refine .ite ?_ ?_
    refine .via ?_ (voidEntries_within ..) (by decide)
    refine .ite ?_ ?_
    refine .via ?_ (histFail_within ..) (by decide)
    refine .ite ?_ ?_
    refine .via ?_ (raiseSigs_within ..) (by decide)
    exact .refl _ _
    exact .refl _ _
    refine .ite ?_ ?_
    refine .via ?_ (raiseSigs_within ..) (by decide)
    exact .refl _ _
    exact .refl _ _
    refine .ite ?_ ?_
    refine .via ?_ (histFail_within ..) (by decide)
    refine .ite ?_ ?_
    refine .via ?_ (raiseSigs_within ..) (by decide)
    exact .refl _ _
    exact .refl _ _
    refine .ite ?_ ?_
    refine .via ?_ (raiseSigs_within ..) (by decide)
    exact .refl _ _
    exact .refl _ _
    refine .via ?_ (mapTask_within ..) (by decide)
    refine .via ?_ (dropStalls_within ..) (by decide)
    refine .via ?_ (within_stem ..) (by decide)
    refine .via ?_ (writeMem_within ..) (by decide)
    refine .via ?_ (finishRings_within ..) (by decide)
    refine .via ?_ (unstage_within ..) (by decide)
    refine .via ?_ (dropTask_within ..) (by decide)
    refine .via ?_ (releaseRest_within ..) (by decide)
    refine .via ?_ (scaleEvents_within ..) (by decide)
    refine .ite ?_ ?_
    refine .via ?_ (voidEntries_within ..) (by decide)
    refine .ite ?_ ?_
    refine .via ?_ (histFail_within ..) (by decide)
    refine .ite ?_ ?_
    refine .via ?_ (raiseSigs_within ..) (by decide)
    exact .refl _ _
    exact .refl _ _
    refine .ite ?_ ?_
    refine .via ?_ (raiseSigs_within ..) (by decide)
    exact .refl _ _
    exact .refl _ _
    refine .ite ?_ ?_
    refine .via ?_ (histFail_within ..) (by decide)
    refine .ite ?_ ?_
    refine .via ?_ (raiseSigs_within ..) (by decide)
    exact .refl _ _
    exact .refl _ _
    refine .ite ?_ ?_
    refine .via ?_ (raiseSigs_within ..) (by decide)
    exact .refl _ _
    exact .refl _ _

theorem endFrame_within (d : Dev) (f : Frame) (status flags : Nat) : Within [.regs, .usb, .ring, .root, .stem, .trk, .mem, .br] d (endFrame d f status flags) := by
  unfold endFrame; try dsimp only
  with_reducible
    refine .foldl ?_ (fun _ _ => ?_)
    exact .refl _ _
    refine .via ?_ (endTask_within ..) (by decide)
    exact .refl _ _

theorem releaseSpace_within (sp : Nat) (d : Dev) : Within [.regs, .usb, .ring, .root, .stem, .trk, .cam, .flt] d (releaseSpace sp d) := by
  unfold releaseSpace; try dsimp only
  with_reducible
    refine .ite ?_ ?_
    refine .via ?_ (within_trk (h := by rfl) ..) (by decide)
    refine .foldl ?_ (fun _ _ => ?_)
    refine .via ?_ (camRelease_within ..) (by decide)
    exact .refl _ _
    refine .via ?_ (freePage_within ..) (by decide)
    exact .refl _ _
    refine .via ?_ (within_trk (h := by rfl) ..) (by decide)
    refine .foldl ?_ (fun _ _ => ?_)
    refine .via ?_ (camRelease_within ..) (by decide)
    exact .refl _ _
    refine .via ?_ (freePage_within ..) (by decide)
    exact .refl _ _

theorem dropOldPacks_within (d : Dev) : Within [.regs, .root] d (dropOldPacks d) := by
  unfold dropOldPacks; try dsimp only
  with_reducible
    refine .via ?_ (setFld_within ..) (by decide)
    refine .via ?_ (within_root ..) (by decide)
    exact .refl _ _

theorem endGraftWaits_within (b : Bytes) (d : Dev) : Within [.usb] d (endGraftWaits b d) := by
  unfold endGraftWaits; try dsimp only
  with_reducible
    refine .foldl ?_ (fun _ _ => ?_)
    exact .refl _ _
    refine .via ?_ (complete_within ..) (by decide)
    refine .via ?_ (dropWait_within ..) (by decide)
    exact .refl _ _

theorem invalidate_within (d : Dev) (out : Bool) (t cause : Nat) : Within [.regs, .usb, .ring, .root, .stem, .trk, .mem] d (invalidate d out t cause) := by
  unfold invalidate; try dsimp only
  with_reducible
    refine .via ?_ (raise_within ..) (by decide)
    refine .via ?_ (ringPut_within ..) (by decide)
    refine .via ?_ (clearCarried_within ..) (by decide)
    exact .refl _ _

theorem serveHist_within (d : Dev) : Within [.regs, .usb, .ring, .root, .stem, .trk, .mem] d (serveHist d) := by
  unfold serveHist; try dsimp only
  with_reducible
    refine .foldl ?_ (fun _ _ => ?_)
    refine .via ?_ (within_stem ..) (by decide)
    exact .refl _ _
    refine .via ?_ (invalidate_within ..) (by decide)
    exact .refl _ _

theorem auditRings_within (d : Dev) (b : Bytes) (p fn : Nat) : Within [.regs, .usb, .ring, .root, .stem] d (auditRings d b p fn) := by
  unfold auditRings; try dsimp only
  with_reducible
    refine .foldl ?_ (fun _ _ => ?_)
    exact .refl _ _
    refine .ite ?_ ?_
    exact .refl _ _
    split
    exact .refl _ _
    refine .ite ?_ ?_
    exact .refl _ _
    refine .via ?_ (raise_within ..) (by decide)
    refine .via ?_ (bump_within ..) (by decide)
    refine .ite ?_ ?_
    refine .via ?_ (setFrameBase_within ..) (by decide)
    exact .refl _ _
    refine .via ?_ (ringPut_within ..) (by decide)
    exact .refl _ _

theorem closeThese_within (l : List Frame) (d : Dev) : Within [.regs, .usb, .ring, .root, .stem, .trk, .mem] d (closeThese l d) := by
  unfold closeThese; try dsimp only
  with_reducible
    refine .via ?_ (serveHist_within ..) (by decide)
    refine .foldl ?_ (fun _ _ => ?_)
    refine .via ?_ (setFrames_within ..) (by decide)
    exact .refl _ _
    refine .via ?_ (auditRings_within ..) (by decide)
    refine .via ?_ (setFld_within ..) (by decide)
    exact .refl _ _

theorem releaseOutgoing_within (n : Nat) (d : Dev) : Within [.regs, .usb, .ring, .root, .stem, .trk, .cam, .flt, .cells] d (releaseOutgoing n d) := by
  unfold releaseOutgoing; try dsimp only
  with_reducible
    refine .via ?_ (raise_within ..) (by decide)
    refine .via ?_ (endGraftWaits_within ..) (by decide)
    refine .via ?_ (dropOldPacks_within ..) (by decide)
    refine .via ?_ (setFld_within ..) (by decide)
    refine .via ?_ (within_root_cells ..) (by decide)
    refine .via ?_ (releaseSpace_within ..) (by decide)
    exact .refl _ _

theorem releaseIfDone_within (d : Dev) : Within [.regs, .usb, .ring, .root, .stem, .trk, .cam, .flt, .cells] d (releaseIfDone d) := by
  unfold releaseIfDone; try dsimp only
  with_reducible
    refine .ite ?_ ?_
    refine .via ?_ (releaseOutgoing_within ..) (by decide)
    exact .refl _ _
    exact .refl _ _

theorem latchWaits_within (l : List (Nat × Nat)) (d : Dev) : Within [.stem] d (latchWaits l d) := by
  unfold latchWaits; try dsimp only
  with_reducible
    refine .foldl ?_ (fun _ _ => ?_)
    exact .refl _ _
    refine .via ?_ (mapFrame_within ..) (by decide)
    exact .refl _ _

theorem openBases_within (d : Dev) (b : Bytes) (p fn : Nat) : Within [.ring] d (openBases d b p fn) := by
  unfold openBases; try dsimp only
  with_reducible
    refine .foldl ?_ (fun _ _ => ?_)
    exact .refl _ _
    refine .ite ?_ ?_
    split
    refine .via ?_ (setFrameBase_within ..) (by decide)
    exact .refl _ _
    refine .via ?_ (setFrameBase_within ..) (by decide)
    exact .refl _ _
    exact .refl _ _

theorem openFrame_within (nv : NonVol) (p fn : Nat) (d : Dev) : Within [.regs, .usb, .ring, .root, .stem, .trk, .mem, .br] d (openFrame nv p fn d) := by
  unfold openFrame; try dsimp only
  with_reducible
    refine .ite ?_ ?_
    exact .refl _ _
    split
    refine .ite ?_ ?_
    refine .via ?_ (closeThese_within ..) (by decide)
    refine .foldl ?_ (fun _ _ => ?_)
    refine .ite ?_ ?_
    refine .via ?_ (raise_within ..) (by decide)
    refine .via ?_ (within_stem ..) (by decide)
    refine .via ?_ (setFrames_within ..) (by decide)
    refine .ite ?_ ?_
    refine .via ?_ (setFld_within ..) (by decide)
    refine .via ?_ (ringInc_within ..) (by decide)
    refine .via ?_ (openBases_within ..) (by decide)
    split
    exact .refl _ _
    refine .via ?_ (closeThese_within ..) (by decide)
    refine .ite ?_ ?_
    exact .refl _ _
    refine .via ?_ (raise_within ..) (by decide)
    refine .via ?_ (bump_within ..) (by decide)
    refine .via ?_ (endFrame_within ..) (by decide)
    exact .refl _ _
    refine .via ?_ (within_stem ..) (by decide)
    refine .via ?_ (setFld_within ..) (by decide)
    refine .via ?_ (ringInc_within ..) (by decide)
    refine .via ?_ (openBases_within ..) (by decide)
    split
    exact .refl _ _
    refine .via ?_ (closeThese_within ..) (by decide)
    refine .ite ?_ ?_
    exact .refl _ _
    refine .via ?_ (raise_within ..) (by decide)
    refine .via ?_ (bump_within ..) (by decide)
    refine .via ?_ (endFrame_within ..) (by decide)
    exact .refl _ _
    refine .ite ?_ ?_
    refine .via ?_ (within_stem ..) (by decide)
    refine .via ?_ (setFrames_within ..) (by decide)
    refine .ite ?_ ?_
    refine .via ?_ (setFld_within ..) (by decide)
    refine .via ?_ (ringInc_within ..) (by decide)
    refine .via ?_ (openBases_within ..) (by decide)
    split
    exact .refl _ _
    refine .via ?_ (closeThese_within ..) (by decide)
    refine .ite ?_ ?_
    exact .refl _ _
    refine .via ?_ (raise_within ..) (by decide)
    refine .via ?_ (bump_within ..) (by decide)
    refine .via ?_ (endFrame_within ..) (by decide)
    exact .refl _ _
    refine .via ?_ (within_stem ..) (by decide)
    refine .via ?_ (setFld_within ..) (by decide)
    refine .via ?_ (ringInc_within ..) (by decide)
    refine .via ?_ (openBases_within ..) (by decide)
    split
    exact .refl _ _
    refine .via ?_ (closeThese_within ..) (by decide)
    refine .ite ?_ ?_
    exact .refl _ _
    refine .via ?_ (raise_within ..) (by decide)
    refine .via ?_ (bump_within ..) (by decide)
    refine .via ?_ (endFrame_within ..) (by decide)
    exact .refl _ _
    refine .via ?_ (setFrames_within ..) (by decide)
    refine .ite ?_ ?_
    refine .via ?_ (setFld_within ..) (by decide)
    refine .via ?_ (ringInc_within ..) (by decide)
    refine .via ?_ (openBases_within ..) (by decide)
    split
    exact .refl _ _
    refine .via ?_ (closeThese_within ..) (by decide)
    refine .ite ?_ ?_
    exact .refl _ _
    refine .via ?_ (raise_within ..) (by decide)
    refine .via ?_ (bump_within ..) (by decide)
    refine .via ?_ (endFrame_within ..) (by decide)
    exact .refl _ _
    refine .via ?_ (within_stem ..) (by decide)
    refine .via ?_ (setFld_within ..) (by decide)
    refine .via ?_ (ringInc_within ..) (by decide)
    refine .via ?_ (openBases_within ..) (by decide)
    split
    exact .refl _ _
    refine .via ?_ (closeThese_within ..) (by decide)
    refine .ite ?_ ?_
    exact .refl _ _
    refine .via ?_ (raise_within ..) (by decide)
    refine .via ?_ (bump_within ..) (by decide)
    refine .via ?_ (endFrame_within ..) (by decide)
    exact .refl _ _
    refine .ite ?_ ?_
    refine .via ?_ (endTask_within ..) (by decide)
    exact .refl _ _
    refine .ite ?_ ?_
    refine .via ?_ (endTask_within ..) (by decide)
    exact .refl _ _
    refine .ite ?_ ?_
    refine .via ?_ (endTask_within ..) (by decide)
    exact .refl _ _
    exact .refl _ _
    refine .foldl ?_ (fun _ _ => ?_)
    refine .ite ?_ ?_
    refine .via ?_ (raise_within ..) (by decide)
    refine .via ?_ (within_stem ..) (by decide)
    refine .via ?_ (setFrames_within ..) (by decide)
    refine .ite ?_ ?_
    refine .via ?_ (setFld_within ..) (by decide)
    refine .via ?_ (ringInc_within ..) (by decide)
    refine .via ?_ (openBases_within ..) (by decide)
    split
    exact .refl _ _
    refine .via ?_ (closeThese_within ..) (by decide)
    refine .ite ?_ ?_
    exact .refl _ _
    refine .via ?_ (raise_within ..) (by decide)
    refine .via ?_ (bump_within ..) (by decide)
    refine .via ?_ (endFrame_within ..) (by decide)
    exact .refl _ _
    refine .via ?_ (within_stem ..) (by decide)
    refine .via ?_ (setFld_within ..) (by decide)
    refine .via ?_ (ringInc_within ..) (by decide)
    refine .via ?_ (openBases_within ..) (by decide)
    split
    exact .refl _ _
    refine .via ?_ (closeThese_within ..) (by decide)
    refine .ite ?_ ?_
    exact .refl _ _
    refine .via ?_ (raise_within ..) (by decide)
    refine .via ?_ (bump_within ..) (by decide)
    refine .via ?_ (endFrame_within ..) (by decide)
    exact .refl _ _
    refine .ite ?_ ?_
    refine .via ?_ (within_stem ..) (by decide)
    refine .via ?_ (setFrames_within ..) (by decide)
    refine .ite ?_ ?_
    refine .via ?_ (setFld_within ..) (by decide)
    refine .via ?_ (ringInc_within ..) (by decide)
    refine .via ?_ (openBases_within ..) (by decide)
    split
    exact .refl _ _
    refine .via ?_ (closeThese_within ..) (by decide)
    refine .ite ?_ ?_
    exact .refl _ _
    refine .via ?_ (raise_within ..) (by decide)
    refine .via ?_ (bump_within ..) (by decide)
    refine .via ?_ (endFrame_within ..) (by decide)
    exact .refl _ _
    refine .via ?_ (within_stem ..) (by decide)
    refine .via ?_ (setFld_within ..) (by decide)
    refine .via ?_ (ringInc_within ..) (by decide)
    refine .via ?_ (openBases_within ..) (by decide)
    split
    exact .refl _ _
    refine .via ?_ (closeThese_within ..) (by decide)
    refine .ite ?_ ?_
    exact .refl _ _
    refine .via ?_ (raise_within ..) (by decide)
    refine .via ?_ (bump_within ..) (by decide)
    refine .via ?_ (endFrame_within ..) (by decide)
    exact .refl _ _
    refine .via ?_ (setFrames_within ..) (by decide)
    refine .ite ?_ ?_
    refine .via ?_ (setFld_within ..) (by decide)
    refine .via ?_ (ringInc_within ..) (by decide)
    refine .via ?_ (openBases_within ..) (by decide)
    split
    exact .refl _ _
    refine .via ?_ (closeThese_within ..) (by decide)
    refine .ite ?_ ?_
    exact .refl _ _
    refine .via ?_ (raise_within ..) (by decide)
    refine .via ?_ (bump_within ..) (by decide)
    refine .via ?_ (endFrame_within ..) (by decide)
    exact .refl _ _
    refine .via ?_ (within_stem ..) (by decide)
    refine .via ?_ (setFld_within ..) (by decide)
    refine .via ?_ (ringInc_within ..) (by decide)
    refine .via ?_ (openBases_within ..) (by decide)
    split
    exact .refl _ _
    refine .via ?_ (closeThese_within ..) (by decide)
    refine .ite ?_ ?_
    exact .refl _ _
    refine .via ?_ (raise_within ..) (by decide)
    refine .via ?_ (bump_within ..) (by decide)
    refine .via ?_ (endFrame_within ..) (by decide)
    exact .refl _ _
    refine .ite ?_ ?_
    refine .via ?_ (endTask_within ..) (by decide)
    exact .refl _ _
    refine .ite ?_ ?_
    refine .via ?_ (endTask_within ..) (by decide)
    exact .refl _ _
    refine .ite ?_ ?_
    refine .via ?_ (endTask_within ..) (by decide)
    exact .refl _ _
    exact .refl _ _
    refine .foldl ?_ (fun _ _ => ?_)
    refine .ite ?_ ?_
    refine .via ?_ (raise_within ..) (by decide)
    refine .via ?_ (within_stem ..) (by decide)
    refine .via ?_ (setFrames_within ..) (by decide)
    refine .ite ?_ ?_
    refine .via ?_ (setFld_within ..) (by decide)
    refine .via ?_ (ringInc_within ..) (by decide)
    refine .via ?_ (openBases_within ..) (by decide)
    split
    exact .refl _ _
    refine .via ?_ (closeThese_within ..) (by decide)
    refine .ite ?_ ?_
    exact .refl _ _
    refine .via ?_ (raise_within ..) (by decide)
    refine .via ?_ (bump_within ..) (by decide)
    refine .via ?_ (endFrame_within ..) (by decide)
    exact .refl _ _
    refine .via ?_ (within_stem ..) (by decide)
    refine .via ?_ (setFld_within ..) (by decide)
    refine .via ?_ (ringInc_within ..) (by decide)
    refine .via ?_ (openBases_within ..) (by decide)
    split
    exact .refl _ _
    refine .via ?_ (closeThese_within ..) (by decide)
    refine .ite ?_ ?_
    exact .refl _ _
    refine .via ?_ (raise_within ..) (by decide)
    refine .via ?_ (bump_within ..) (by decide)
    refine .via ?_ (endFrame_within ..) (by decide)
    exact .refl _ _
    refine .ite ?_ ?_
    refine .via ?_ (within_stem ..) (by decide)
    refine .via ?_ (setFrames_within ..) (by decide)
    refine .ite ?_ ?_
    refine .via ?_ (setFld_within ..) (by decide)
    refine .via ?_ (ringInc_within ..) (by decide)
    refine .via ?_ (openBases_within ..) (by decide)
    split
    exact .refl _ _
    refine .via ?_ (closeThese_within ..) (by decide)
    refine .ite ?_ ?_
    exact .refl _ _
    refine .via ?_ (raise_within ..) (by decide)
    refine .via ?_ (bump_within ..) (by decide)
    refine .via ?_ (endFrame_within ..) (by decide)
    exact .refl _ _
    refine .via ?_ (within_stem ..) (by decide)
    refine .via ?_ (setFld_within ..) (by decide)
    refine .via ?_ (ringInc_within ..) (by decide)
    refine .via ?_ (openBases_within ..) (by decide)
    split
    exact .refl _ _
    refine .via ?_ (closeThese_within ..) (by decide)
    refine .ite ?_ ?_
    exact .refl _ _
    refine .via ?_ (raise_within ..) (by decide)
    refine .via ?_ (bump_within ..) (by decide)
    refine .via ?_ (endFrame_within ..) (by decide)
    exact .refl _ _
    refine .via ?_ (setFrames_within ..) (by decide)
    refine .ite ?_ ?_
    refine .via ?_ (setFld_within ..) (by decide)
    refine .via ?_ (ringInc_within ..) (by decide)
    refine .via ?_ (openBases_within ..) (by decide)
    split
    exact .refl _ _
    refine .via ?_ (closeThese_within ..) (by decide)
    refine .ite ?_ ?_
    exact .refl _ _
    refine .via ?_ (raise_within ..) (by decide)
    refine .via ?_ (bump_within ..) (by decide)
    refine .via ?_ (endFrame_within ..) (by decide)
    exact .refl _ _
    refine .via ?_ (within_stem ..) (by decide)
    refine .via ?_ (setFld_within ..) (by decide)
    refine .via ?_ (ringInc_within ..) (by decide)
    refine .via ?_ (openBases_within ..) (by decide)
    split
    exact .refl _ _
    refine .via ?_ (closeThese_within ..) (by decide)
    refine .ite ?_ ?_
    exact .refl _ _
    refine .via ?_ (raise_within ..) (by decide)
    refine .via ?_ (bump_within ..) (by decide)
    refine .via ?_ (endFrame_within ..) (by decide)
    exact .refl _ _
    refine .ite ?_ ?_
    refine .via ?_ (endTask_within ..) (by decide)
    exact .refl _ _
    refine .ite ?_ ?_
    refine .via ?_ (endTask_within ..) (by decide)
    exact .refl _ _
    refine .ite ?_ ?_
    refine .via ?_ (endTask_within ..) (by decide)
    exact .refl _ _
    exact .refl _ _

theorem openFrames_within (nv : NonVol) (l : List (Nat × Nat)) (d : Dev) : Within [.regs, .usb, .ring, .root, .stem, .trk, .mem, .br] d (openFrames nv l d) := by
  unfold openFrames; try dsimp only
  with_reducible
    refine .via ?_ (latchWaits_within ..) (by decide)
    refine .foldl ?_ (fun _ _ => ?_)
    exact .refl _ _
    refine .via ?_ (openFrame_within ..) (by decide)
    exact .refl _ _

theorem closeFrames_within (nv : NonVol) (d : Dev) : Within [.regs, .usb, .ring, .root, .stem, .trk, .mem, .cam, .flt, .br, .cells] d (closeFrames nv d) := by
  unfold closeFrames; try dsimp only
  with_reducible
    refine .via ?_ (releaseIfDone_within ..) (by decide)
    refine .via ?_ (openFrames_within ..) (by decide)
    refine .via ?_ (closeThese_within ..) (by decide)
    exact .refl _ _

theorem requestHist_within (d : Dev) (t cause : Nat) : Within [.regs, .usb, .ring, .root, .stem, .trk, .mem] d (requestHist d t cause) := by
  unfold requestHist; try dsimp only
  with_reducible
    refine .via ?_ (serveHist_within ..) (by decide)
    refine .via ?_ (within_stem ..) (by decide)
    exact .refl _ _

theorem addFlag_within (k pfn : Nat) (out : Bool) (f : Nat) (d : Dev) : Within [.stem] d (addFlag k pfn out f d) := by
  unfold addFlag; try dsimp only
  with_reducible
    refine .via ?_ (mapTask_within ..) (by decide)
    exact .refl _ _

theorem addMark_within (p f : Nat) (ext : Option (Nat × Nat)) (ovr : Bool) (d : Dev) : Within [.stem] d (addMark p f ext ovr d) := by
  unfold addMark; try dsimp only
  with_reducible
    refine .via ?_ (within_stem ..) (by decide)
    exact .refl _ _

theorem askStaging_within (k pfn : Nat) (d : Dev) : Within [.regs, .stem, .trk] d (askStaging k pfn d) := by
  unfold askStaging; try dsimp only
  with_reducible
    split
    exact .refl _ _
    refine .ite ?_ ?_
    refine .via ?_ (stageTask_within ..) (by decide)
    refine .via ?_ (mapTask_within ..) (by decide)
    exact .refl _ _
    exact .refl _ _

theorem askAll_within (d : Dev) : Within [.regs, .stem, .trk] d (askAll d) := by
  unfold askAll; try dsimp only
  with_reducible
    refine .foldl ?_ (fun _ _ => ?_)
    exact .refl _ _
    refine .foldl ?_ (fun _ _ => ?_)
    exact .refl _ _
    refine .via ?_ (askStaging_within ..) (by decide)
    exact .refl _ _

theorem markFed_within (p f : Nat) (ext : Option (Nat × Nat)) (ovr : Bool) (d : Dev) : Within [.stem, .ras] d (markFed p f ext ovr d) := by
  unfold markFed; try dsimp only
  with_reducible
    refine .foldl ?_ (fun _ _ => ?_)
    refine .via ?_ (addMark_within ..) (by decide)
    exact .refl _ _
    refine .via ?_ (setOut_within ..) (by decide)
    exact .refl _ _

theorem clampInput_within (d : Dev) (b : Bytes) (k pfn : Nat) (out : Bool) (w h : Nat) : Within [.regs, .usb, .root, .stem, .ras] d (clampInput d b k pfn out w h) := by
  unfold clampInput; try dsimp only
  with_reducible
    refine .ite ?_ ?_
    refine .ite ?_ ?_
    refine .foldl ?_ (fun _ _ => ?_)
    refine .via ?_ (addMark_within ..) (by decide)
    refine .via ?_ (raise_within ..) (by decide)
    refine .via ?_ (mapTask_within ..) (by decide)
    exact .refl _ _
    refine .via ?_ (setOut_within ..) (by decide)
    exact .refl _ _
    refine .via ?_ (markFed_within ..) (by decide)
    refine .via ?_ (raise_within ..) (by decide)
    refine .via ?_ (mapTask_within ..) (by decide)
    exact .refl _ _
    refine .via ?_ (raise_within ..) (by decide)
    refine .via ?_ (mapTask_within ..) (by decide)
    exact .refl _ _

theorem ringAddRegOp_within (value : Word) (d : Dev) : Within [.ring] d (ringAddRegOp value d) := by
  unfold ringAddRegOp; try dsimp only
  with_reducible
    refine .ite ?_ ?_
    refine .via ?_ (ringInc_within ..) (by decide)
    exact .refl _ _
    exact .refl _ _

theorem ringSetRegOp_within (value : Word) (d : Dev) : Within [.ring] d (ringSetRegOp value d) := by
  unfold ringSetRegOp; try dsimp only
  with_reducible
    refine .ite ?_ ?_
    refine .via ?_ (ringPut_within ..) (by decide)
    exact .refl _ _
    exact .refl _ _

theorem stemHistInvOp_within (value : Word) (d : Dev) : Within [.regs, .usb, .ring, .root, .stem, .trk, .mem] d (stemHistInvOp value d) := by
  unfold stemHistInvOp; try dsimp only
  with_reducible
    refine .ite ?_ ?_
    refine .via ?_ (requestHist_within ..) (by decide)
    exact .refl _ _
    exact .refl _ _

theorem histInvalidateOp_within (t key : Nat) (d : Dev) : Within [.regs, .usb, .ring, .root, .stem, .trk, .mem] d (histInvalidateOp t key d) := by
  unfold histInvalidateOp; try dsimp only
  with_reducible
    refine .ite ?_ ?_
    refine .via ?_ (complete_within ..) (by decide)
    refine .via ?_ (requestHist_within ..) (by decide)
    exact .refl _ _
    refine .via ?_ (complete_within ..) (by decide)
    exact .refl _ _

theorem shortInput_within (d : Dev) (b : Bytes) (k pfn : Nat) (out : Bool) (wo ho w h : Nat) : Within [.stem, .ras] d (shortInput d b k pfn out wo ho w h) := by
  unfold shortInput; try dsimp only
  with_reducible
    refine .foldl ?_ (fun _ _ => ?_)
    refine .via ?_ (mapTask_within ..) (by decide)
    exact .refl _ _
    refine .ite ?_ ?_
    refine .via ?_ (within_stem ..) (by decide)
    exact .refl _ _
    refine .ite ?_ ?_
    refine .via ?_ (setOut_within ..) (by decide)
    refine .via ?_ (within_stem ..) (by decide)
    exact .refl _ _
    refine .via ?_ (markFed_within ..) (by decide)
    refine .via ?_ (within_stem ..) (by decide)
    exact .refl _ _

theorem plannedOutputs_within (d : Dev) (b : Bytes) (k pfn : Nat) : Within [.stem] d (plannedOutputs d b k pfn) := by
  unfold plannedOutputs; try dsimp only
  with_reducible
    refine .foldl ?_ (fun _ _ => ?_)
    exact .refl _ _
    refine .via ?_ (within_stem ..) (by decide)
    exact .refl _ _

theorem shapeShort_within (d : Dev) (b : Bytes) (k w h z : Nat) : Within [.regs, .usb, .root, .stem] d (shapeShort d b k w h z) := by
  unfold shapeShort; try dsimp only
  with_reducible
    refine .via ?_ (raise_within ..) (by decide)
    exact .refl _ _

theorem taskReadyOp_within (nv : NonVol) (k pfn : Nat) (d : Dev) : Within [.regs, .usb, .ring, .root, .stem, .trk, .mem, .ras, .cam, .flt, .br, .cells] d (taskReadyOp nv k pfn d) := by
  unfold taskReadyOp; try dsimp only
  with_reducible
    split
    exact .refl _ _
    refine .ite ?_ ?_
    refine .ite ?_ ?_
    refine .via ?_ (closeFrames_within ..) (by decide)
    refine .via ?_ (endTask_within ..) (by decide)
    refine .via ?_ (shapeShort_within ..) (by decide)
    refine .ite ?_ ?_
    refine .via ?_ (shortInput_within ..) (by decide)
    refine .ite ?_ ?_
    refine .via ?_ (clampInput_within ..) (by decide)
    refine .via ?_ (mapTask_within ..) (by decide)
    refine .via ?_ (askStaging_within ..) (by decide)
    exact .refl _ _
    refine .via ?_ (mapTask_within ..) (by decide)
    refine .via ?_ (askStaging_within ..) (by decide)
    exact .refl _ _
    refine .via ?_ (plannedOutputs_within ..) (by decide)
    refine .ite ?_ ?_
    refine .via ?_ (clampInput_within ..) (by decide)
    refine .via ?_ (mapTask_within ..) (by decide)
    refine .via ?_ (askStaging_within ..) (by decide)
    exact .refl _ _
    refine .via ?_ (mapTask_within ..) (by decide)
    refine .via ?_ (askStaging_within ..) (by decide)
    exact .refl _ _
    refine .foldl ?_ (fun _ _ => ?_)
    refine .ite ?_ ?_
    refine .via ?_ (shortInput_within ..) (by decide)
    refine .ite ?_ ?_
    refine .via ?_ (clampInput_within ..) (by decide)
    refine .via ?_ (mapTask_within ..) (by decide)
    refine .via ?_ (askStaging_within ..) (by decide)
    exact .refl _ _
    refine .via ?_ (mapTask_within ..) (by decide)
    refine .via ?_ (askStaging_within ..) (by decide)
    exact .refl _ _
    refine .via ?_ (plannedOutputs_within ..) (by decide)
    refine .ite ?_ ?_
    refine .via ?_ (clampInput_within ..) (by decide)
    refine .via ?_ (mapTask_within ..) (by decide)
    refine .via ?_ (askStaging_within ..) (by decide)
    exact .refl _ _
    refine .via ?_ (mapTask_within ..) (by decide)
    refine .via ?_ (askStaging_within ..) (by decide)
    exact .refl _ _
    split
    exact .refl _ _
    refine .via ?_ (setBranch_within ..) (by decide)
    exact .refl _ _
    refine .via ?_ (askStaging_within ..) (by decide)
    exact .refl _ _

theorem taskCompleteOp_within (nv : NonVol) (k pfn : Nat) (d : Dev) : Within [.regs, .usb, .ring, .root, .stem, .trk, .mem, .cam, .flt, .br, .cells] d (taskCompleteOp nv k pfn d) := by
  unfold taskCompleteOp; try dsimp only
  with_reducible
    split
    exact .refl _ _
    refine .ite ?_ ?_
    refine .via ?_ (closeFrames_within ..) (by decide)
    refine .via ?_ (endTask_within ..) (by decide)
    refine .ite ?_ ?_
    refine .via ?_ (shapeShort_within ..) (by decide)
    exact .refl _ _
    exact .refl _ _
    exact .refl _ _

theorem taskLimitOp_within (nv : NonVol) (k pfn : Nat) (d : Dev) : Within [.regs, .usb, .ring, .root, .stem, .trk, .mem, .cam, .flt, .br, .cells] d (taskLimitOp nv k pfn d) := by
  unfold taskLimitOp; try dsimp only
  with_reducible
    split
    exact .refl _ _
    refine .ite ?_ ?_
    refine .via ?_ (closeFrames_within ..) (by decide)
    refine .via ?_ (endTask_within ..) (by decide)
    exact .refl _ _
    exact .refl _ _

theorem pageReleaseOp_within (k fn v : Nat) (d : Dev) : Within [.regs, .ring, .stem, .trk] d (pageReleaseOp k fn v d) := by
  unfold pageReleaseOp; try dsimp only
  with_reducible
    split
    exact .refl _ _
    refine .ite ?_ ?_
    refine .via ?_ (mapTask_within ..) (by decide)
    refine .via ?_ (releasePage_within ..) (by decide)
    exact .refl _ _
    exact .refl _ _

theorem trunkStallOp_within (nv : NonVol) (k pfn : Nat) (d : Dev) : Within [.regs, .usb, .ring, .root, .stem, .trk, .mem, .cam, .flt, .br, .cells] d (trunkStallOp nv k pfn d) := by
  unfold trunkStallOp; try dsimp only
  with_reducible
    refine .ite ?_ ?_
    exact .refl _ _
    refine .via ?_ (closeFrames_within ..) (by decide)
    refine .via ?_ (raise_within ..) (by decide)
    refine .via ?_ (endTask_within ..) (by decide)
    exact .refl _ _

end Sys2Proof.Machine
end

