-- ==== Sys2Proof/Laws/SpaceFrame.lean ====
section
/-! SUPPORT. What each operation of Machine/Space.lean may change. -/

namespace Sys2Proof.Machine

theorem loseAdmission_within (p cause : Nat) (d : Dev) : Within [.regs, .usb, .root, .stem] d (loseAdmission p cause d) := by
  unfold loseAdmission; try dsimp only
  with_reducible
    refine .via ?_ (raise_within ..) (by decide)
    refine .via ?_ (setFlds_within ..) (by decide)
    exact .refl _ _

theorem reevaluate_within (nv : NonVol) (cause : Nat) (hit : Nat → Bool) (d : Dev) : Within [.regs, .usb, .root, .stem] d (reevaluate nv cause hit d) := by
  unfold reevaluate; try dsimp only
  with_reducible
    refine .foldl ?_ (fun _ _ => ?_)
    exact .refl _ _
    refine .ite ?_ ?_
    refine .via ?_ (loseAdmission_within ..) (by decide)
    exact .refl _ _
    exact .refl _ _

theorem updateAvail_within (d : Dev) : Within [.regs, .usb, .root, .stem] d (updateAvail d) := by
  unfold updateAvail; try dsimp only
  with_reducible
    split
    refine .via ?_ (setFlds_within ..) (by decide)
    exact .refl _ _
    refine .ite ?_ ?_
    refine .via ?_ (raise_within ..) (by decide)
    refine .via ?_ (setFlds_within ..) (by decide)
    exact .refl _ _
    refine .via ?_ (setFlds_within ..) (by decide)
    exact .refl _ _

theorem clearGraftRegs_within (d : Dev) : Within [.regs] d (clearGraftRegs d) := by
  unfold clearGraftRegs; try dsimp only
  with_reducible
    refine .via ?_ (setFlds_within ..) (by decide)
    refine .via ?_ (setReg_within ..) (by decide)
    refine .foldl ?_ (fun _ _ => ?_)
    exact .refl _ _
    refine .via ?_ (setReg_within ..) (by decide)
    exact .refl _ _

theorem dropGraft0_within (status : Nat) (d : Dev) : Within [.regs, .usb, .ring, .root, .stem, .trk, .mem, .cam, .flt, .br] d (dropGraft0 status d) := by
  unfold dropGraft0; try dsimp only
  with_reducible
    refine .via ?_ (dropOldPacks_within ..) (by decide)
    refine .via ?_ (clearGraftRegs_within ..) (by decide)
    refine .via ?_ (endGraftWaits_within ..) (by decide)
    refine .via ?_ (within_root_stem ..) (by decide)
    refine .via ?_ (releaseSpace_within ..) (by decide)
    refine .via ?_ (setFrames_within ..) (by decide)
    refine .foldl ?_ (fun _ _ => ?_)
    exact .refl _ _
    refine .via ?_ (endFrame_within ..) (by decide)
    exact .refl _ _

theorem dropGraft1_within (d : Dev) : Within [.regs, .usb, .ring, .root, .stem, .trk, .mem, .cam, .flt, .br] d (dropGraft1 d) := by
  unfold dropGraft1; try dsimp only
  with_reducible
    refine .via ?_ (dropOldPacks_within ..) (by decide)
    refine .via ?_ (endGraftWaits_within ..) (by decide)
    refine .via ?_ (setFld_within ..) (by decide)
    refine .via ?_ (within_root ..) (by decide)
    refine .via ?_ (releaseSpace_within ..) (by decide)
    refine .via ?_ (setFrames_within ..) (by decide)
    refine .foldl ?_ (fun _ _ => ?_)
    exact .refl _ _
    refine .via ?_ (endFrame_within ..) (by decide)
    exact .refl _ _

theorem replayExit_within (cause : Nat) (d : Dev) : Within [.regs, .usb, .root, .stem, .ras] d (replayExit cause d) := by
  unfold replayExit; try dsimp only
  with_reducible
    refine .ite ?_ ?_
    refine .via ?_ (raise_within ..) (by decide)
    refine .via ?_ (setFld_within ..) (by decide)
    refine .via ?_ (within_ras ..) (by decide)
    refine .ite ?_ ?_
    refine .via ?_ (setFld_within ..) (by decide)
    exact .refl _ _
    exact .refl _ _
    refine .ite ?_ ?_
    refine .via ?_ (raise_within ..) (by decide)
    refine .via ?_ (setFlds_within ..) (by decide)
    refine .via ?_ (within_ras ..) (by decide)
    refine .ite ?_ ?_
    refine .via ?_ (setFld_within ..) (by decide)
    exact .refl _ _
    exact .refl _ _
    refine .ite ?_ ?_
    refine .via ?_ (setFld_within ..) (by decide)
    exact .refl _ _
    exact .refl _ _

theorem dropFlips_within (status : Nat) (p : FlipGroup → Bool) (d : Dev) : Within [.regs, .usb, .root, .stem, .cnp] d (dropFlips status p d) := by
  unfold dropFlips; try dsimp only
  with_reducible
    refine .foldl ?_ (fun _ _ => ?_)
    refine .foldl ?_ (fun _ _ => ?_)
    refine .via ?_ (setFld_within ..) (by decide)
    refine .via ?_ (within_cnp ..) (by decide)
    exact .refl _ _
    refine .via ?_ (setFld_within ..) (by decide)
    exact .refl _ _
    refine .via ?_ (raise_within ..) (by decide)
    refine .via ?_ (complete_within ..) (by decide)
    exact .refl _ _

theorem clearLayers_within (d : Dev) : Within [.regs, .live] d (clearLayers d) := by
  unfold clearLayers; try dsimp only
  with_reducible
    refine .foldl ?_ (fun _ _ => ?_)
    exact .refl _ _
    refine .foldl ?_ (fun _ _ => ?_)
    refine .foldl ?_ (fun _ _ => ?_)
    refine .via ?_ (setFlds_within ..) (by decide)
    exact .refl _ _
    refine .via ?_ (setReg_within ..) (by decide)
    exact .refl _ _
    refine .via ?_ (setLive_within ..) (by decide)
    exact .refl _ _

theorem stumpLayers_within (d : Dev) : Within [.regs, .live, .usb, .root, .stem, .cnp] d (stumpLayers d) := by
  unfold stumpLayers; try dsimp only
  with_reducible
    refine .ite ?_ ?_
    refine .via ?_ (setReg_within ..) (by decide)
    refine .via ?_ (within_cnp ..) (by decide)
    refine .via ?_ (dropFlips_within ..) (by decide)
    refine .via ?_ (clearLayers_within ..) (by decide)
    exact .refl _ _
    refine .via ?_ (setFlds_within ..) (by decide)
    refine .via ?_ (setReg_within ..) (by decide)
    refine .via ?_ (within_cnp ..) (by decide)
    refine .via ?_ (dropFlips_within ..) (by decide)
    refine .via ?_ (clearLayers_within ..) (by decide)
    exact .refl _ _

theorem stumpPages_within (take : Bool) (d : Dev) : Within [.trk] d (stumpPages take d) := by
  unfold stumpPages; try dsimp only
  with_reducible
    refine .foldl ?_ (fun _ _ => ?_)
    exact .refl _ _
    refine .ite ?_ ?_
    refine .via ?_ (takeLpn_within ..) (by decide)
    exact .refl _ _
    refine .ite ?_ ?_
    refine .via ?_ (freeLpn_within ..) (by decide)
    exact .refl _ _
    exact .refl _ _

theorem takeSteps_within (d : Dev) : Within [.regs, .ras] d (takeSteps d) := by
  unfold takeSteps; try dsimp only
  with_reducible
    split
    refine .via ?_ (setFlds_within ..) (by decide)
    refine .via ?_ (within_ras ..) (by decide)
    exact .refl _ _
    exact .refl _ _

theorem stumpSteps_within (d : Dev) : Within [.ras] d (stumpSteps d) := by
  unfold stumpSteps; try dsimp only
  with_reducible
    refine .ite ?_ ?_
    refine .via ?_ (within_ras ..) (by decide)
    exact .refl _ _
    exact .refl _ _

theorem stumpSettings_within (d : Dev) : Within [.regs, .live, .usb, .root, .stem, .trk, .ras, .cnp] d (stumpSettings d) := by
  unfold stumpSettings; try dsimp only
  with_reducible
    refine .via ?_ (takeSteps_within ..) (by decide)
    refine .via ?_ (stumpSteps_within ..) (by decide)
    refine .via ?_ (setFlds_within ..) (by decide)
    refine .via ?_ (newLineRing_within ..) (by decide)
    refine .via ?_ (setFlds_within ..) (by decide)
    refine .via ?_ (stumpLayers_within ..) (by decide)
    refine .via ?_ (stumpPages_within ..) (by decide)
    exact .refl _ _

theorem stumpFallback_within (cause : Nat) (d : Dev) : Within [.regs, .live, .usb, .ring, .root, .stem, .trk, .mem, .ras, .cnp, .cam, .flt, .br] d (stumpFallback cause d) := by
  unfold stumpFallback; try dsimp only
  with_reducible
    refine .ite ?_ ?_
    refine .via ?_ (raise_within ..) (by decide)
    refine .via ?_ (setFlds_within ..) (by decide)
    refine .via ?_ (stumpSettings_within ..) (by decide)
    refine .via ?_ (replayExit_within ..) (by decide)
    refine .via ?_ (dropGraft1_within ..) (by decide)
    split
    refine .ite ?_ ?_
    refine .via ?_ (complete_within ..) (by decide)
    refine .via ?_ (within_root ..) (by decide)
    split
    refine .via ?_ (progFail_within ..) (by decide)
    refine .via ?_ (complete_within ..) (by decide)
    refine .via ?_ (within_root ..) (by decide)
    refine .via ?_ (dropGraft0_within ..) (by decide)
    exact .refl _ _
    refine .via ?_ (dropGraft0_within ..) (by decide)
    exact .refl _ _
    refine .via ?_ (progFail_within ..) (by decide)
    refine .via ?_ (complete_within ..) (by decide)
    refine .via ?_ (within_root ..) (by decide)
    split
    refine .via ?_ (progFail_within ..) (by decide)
    refine .via ?_ (complete_within ..) (by decide)
    refine .via ?_ (within_root ..) (by decide)
    refine .via ?_ (dropGraft0_within ..) (by decide)
    exact .refl _ _
    refine .via ?_ (dropGraft0_within ..) (by decide)
    exact .refl _ _
    split
    refine .via ?_ (progFail_within ..) (by decide)
    refine .via ?_ (complete_within ..) (by decide)
    refine .via ?_ (within_root ..) (by decide)
    refine .via ?_ (dropGraft0_within ..) (by decide)
    exact .refl _ _
    refine .via ?_ (dropGraft0_within ..) (by decide)
    exact .refl _ _
    refine .via ?_ (replayExit_within ..) (by decide)
    refine .via ?_ (dropGraft1_within ..) (by decide)
    split
    refine .ite ?_ ?_
    refine .via ?_ (complete_within ..) (by decide)
    refine .via ?_ (within_root ..) (by decide)
    split
    refine .via ?_ (progFail_within ..) (by decide)
    refine .via ?_ (complete_within ..) (by decide)
    refine .via ?_ (within_root ..) (by decide)
    refine .via ?_ (dropGraft0_within ..) (by decide)
    exact .refl _ _
    refine .via ?_ (dropGraft0_within ..) (by decide)
    exact .refl _ _
    refine .via ?_ (progFail_within ..) (by decide)
    refine .via ?_ (complete_within ..) (by decide)
    refine .via ?_ (within_root ..) (by decide)
    split
    refine .via ?_ (progFail_within ..) (by decide)
    refine .via ?_ (complete_within ..) (by decide)
    refine .via ?_ (within_root ..) (by decide)
    refine .via ?_ (dropGraft0_within ..) (by decide)
    exact .refl _ _
    refine .via ?_ (dropGraft0_within ..) (by decide)
    exact .refl _ _
    split
    refine .via ?_ (progFail_within ..) (by decide)
    refine .via ?_ (complete_within ..) (by decide)
    refine .via ?_ (within_root ..) (by decide)
    refine .via ?_ (dropGraft0_within ..) (by decide)
    exact .refl _ _
    refine .via ?_ (dropGraft0_within ..) (by decide)
    exact .refl _ _

theorem stumpCheck_within (nv : NonVol) (d : Dev) : Within [.regs, .live, .usb, .ring, .root, .stem, .trk, .mem, .ras, .cnp, .cam, .flt, .br] d (stumpCheck nv d) := by
  unfold stumpCheck; try dsimp only
  with_reducible
    split
    refine .via ?_ (stumpFallback_within ..) (by decide)
    refine .via ?_ (updateAvail_within ..) (by decide)
    exact .refl _ _
    refine .via ?_ (updateAvail_within ..) (by decide)
    exact .refl _ _

theorem placeUnd_within (d : Dev) : Within [.trk] d (placeUnd d) := by
  unfold placeUnd; try dsimp only
  with_reducible
    refine .foldl ?_ (fun _ _ => ?_)
    exact .refl _ _
    refine .ite ?_ ?_
    refine .via ?_ (takeLpn_within ..) (by decide)
    exact .refl _ _
    refine .ite ?_ ?_
    refine .via ?_ (freeLpn_within ..) (by decide)
    exact .refl _ _
    exact .refl _ _

end Sys2Proof.Machine
end

