-- ==== Sys2Proof/Laws/LockFrame.lean ====
section
/-! SUPPORT. What each operation of Machine/Lock.lean may change. -/

namespace Sys2Proof.Machine

theorem setLock_within (st : Nat) (mismatch : Bool) (d : Dev) : Within [.regs, .usb, .root, .stem] d (setLock st mismatch d) := by
  unfold setLock; try dsimp only
  with_reducible
    refine .ite ?_ ?_
    refine .via ?_ (raise_within ..) (by decide)
    refine .via ?_ (setFlds_within ..) (by decide)
    exact .refl _ _
    refine .ite ?_ ?_
    refine .via ?_ (raise_within ..) (by decide)
    refine .via ?_ (setFld_within ..) (by decide)
    refine .via ?_ (setFlds_within ..) (by decide)
    exact .refl _ _
    refine .ite ?_ ?_
    refine .via ?_ (setFld_within ..) (by decide)
    refine .via ?_ (setFlds_within ..) (by decide)
    exact .refl _ _
    refine .via ?_ (setFlds_within ..) (by decide)
    exact .refl _ _

theorem lockHold_within (mismatch : Bool) (d : Dev) : Within [.regs, .clk, .usb, .root, .stem] d (lockHold mismatch d) := by
  unfold lockHold; try dsimp only
  with_reducible
    refine .via ?_ (setLock_within ..) (by decide)
    refine .via ?_ (within_clk ..) (by decide)
    exact .refl _ _

theorem lockLost_within (p : Nat) (d : Dev) : Within [.regs, .clk, .usb, .root, .stem] d (lockLost p d) := by
  unfold lockLost; try dsimp only
  with_reducible
    refine .ite ?_ ?_
    refine .ite ?_ ?_
    refine .via ?_ (within_clk ..) (by decide)
    exact .refl _ _
    refine .via ?_ (lockHold_within ..) (by decide)
    refine .via ?_ (within_clk ..) (by decide)
    exact .refl _ _
    exact .refl _ _

theorem lockInput_within (p : Nat) (d : Dev) : Within [.regs, .clk, .usb, .root, .stem] d (lockInput p d) := by
  unfold lockInput; try dsimp only
  with_reducible
    refine .ite ?_ ?_
    refine .ite ?_ ?_
    refine .via ?_ (setLock_within ..) (by decide)
    refine .via ?_ (within_clk ..) (by decide)
    exact .refl _ _
    refine .via ?_ (within_clk ..) (by decide)
    exact .refl _ _
    exact .refl _ _

theorem cadencePorch_within (align : Option Int) (d : Dev) : Within [.regs, .live, .clk, .usb, .root, .stem] d (cadencePorch align d).1 := by
  unfold cadencePorch; try dsimp only
  with_reducible
    refine .ite_fst ?_ ?_
    refine .pair ?_
    refine .via ?_ (setLock_within ..) (by decide)
    refine .ite ?_ ?_
    refine .via ?_ (setLive_within ..) (by decide)
    exact .refl _ _
    refine .via ?_ (within_clk ..) (by decide)
    refine .via ?_ (setLive_within ..) (by decide)
    exact .refl _ _
    split
    refine .pair ?_
    refine .via ?_ (setLock_within ..) (by decide)
    refine .ite ?_ ?_
    refine .via ?_ (setLive_within ..) (by decide)
    exact .refl _ _
    refine .via ?_ (within_clk ..) (by decide)
    refine .via ?_ (setLive_within ..) (by decide)
    exact .refl _ _
    split
    refine .pair ?_
    refine .ite ?_ ?_
    refine .ite ?_ ?_
    refine .via ?_ (setLive_within ..) (by decide)
    exact .refl _ _
    refine .via ?_ (within_clk ..) (by decide)
    refine .via ?_ (setLive_within ..) (by decide)
    exact .refl _ _
    refine .via ?_ (lockHold_within ..) (by decide)
    refine .ite ?_ ?_
    refine .via ?_ (setLive_within ..) (by decide)
    exact .refl _ _
    refine .via ?_ (within_clk ..) (by decide)
    refine .via ?_ (setLive_within ..) (by decide)
    exact .refl _ _
    refine .ite_fst ?_ ?_
    refine .pair ?_
    refine .ite ?_ ?_
    refine .ite ?_ ?_
    refine .via ?_ (setLive_within ..) (by decide)
    exact .refl _ _
    refine .via ?_ (within_clk ..) (by decide)
    refine .via ?_ (setLive_within ..) (by decide)
    exact .refl _ _
    refine .via ?_ (lockHold_within ..) (by decide)
    refine .ite ?_ ?_
    refine .via ?_ (setLive_within ..) (by decide)
    exact .refl _ _
    refine .via ?_ (within_clk ..) (by decide)
    refine .via ?_ (setLive_within ..) (by decide)
    exact .refl _ _
    refine .ite_fst ?_ ?_
    refine .pair ?_
    refine .ite ?_ ?_
    refine .ite ?_ ?_
    refine .via ?_ (setLive_within ..) (by decide)
    exact .refl _ _
    refine .via ?_ (within_clk ..) (by decide)
    refine .via ?_ (setLive_within ..) (by decide)
    exact .refl _ _
    refine .via ?_ (lockHold_within ..) (by decide)
    refine .ite ?_ ?_
    refine .via ?_ (setLive_within ..) (by decide)
    exact .refl _ _
    refine .via ?_ (within_clk ..) (by decide)
    refine .via ?_ (setLive_within ..) (by decide)
    exact .refl _ _
    refine .ite_fst ?_ ?_
    refine .pair ?_
    refine .via ?_ (setFld_within ..) (by decide)
    refine .ite ?_ ?_
    refine .via ?_ (setLive_within ..) (by decide)
    exact .refl _ _
    refine .via ?_ (within_clk ..) (by decide)
    refine .via ?_ (setLive_within ..) (by decide)
    exact .refl _ _
    refine .pair ?_
    refine .ite ?_ ?_
    refine .via ?_ (setFld_within ..) (by decide)
    refine .ite ?_ ?_
    refine .ite ?_ ?_
    refine .via ?_ (setLock_within ..) (by decide)
    refine .via ?_ (within_clk ..) (by decide)
    refine .via ?_ (setFld_within ..) (by decide)
    refine .ite ?_ ?_
    refine .via ?_ (setLive_within ..) (by decide)
    exact .refl _ _
    refine .via ?_ (within_clk ..) (by decide)
    refine .via ?_ (setLive_within ..) (by decide)
    exact .refl _ _
    refine .via ?_ (within_clk ..) (by decide)
    refine .via ?_ (setFld_within ..) (by decide)
    refine .ite ?_ ?_
    refine .via ?_ (setLive_within ..) (by decide)
    exact .refl _ _
    refine .via ?_ (within_clk ..) (by decide)
    refine .via ?_ (setLive_within ..) (by decide)
    exact .refl _ _
    refine .ite ?_ ?_
    refine .via ?_ (setLock_within ..) (by decide)
    refine .via ?_ (within_clk ..) (by decide)
    refine .via ?_ (setFld_within ..) (by decide)
    refine .ite ?_ ?_
    refine .via ?_ (setLive_within ..) (by decide)
    exact .refl _ _
    refine .via ?_ (within_clk ..) (by decide)
    refine .via ?_ (setLive_within ..) (by decide)
    exact .refl _ _
    refine .via ?_ (setLock_within ..) (by decide)
    refine .via ?_ (within_clk ..) (by decide)
    refine .via ?_ (setFld_within ..) (by decide)
    refine .ite ?_ ?_
    refine .via ?_ (setLive_within ..) (by decide)
    exact .refl _ _
    refine .via ?_ (within_clk ..) (by decide)
    refine .via ?_ (setLive_within ..) (by decide)
    exact .refl _ _
    refine .ite ?_ ?_
    refine .ite ?_ ?_
    refine .via ?_ (setLock_within ..) (by decide)
    refine .via ?_ (within_clk ..) (by decide)
    refine .via ?_ (setFld_within ..) (by decide)
    refine .ite ?_ ?_
    refine .via ?_ (setLive_within ..) (by decide)
    exact .refl _ _
    refine .via ?_ (within_clk ..) (by decide)
    refine .via ?_ (setLive_within ..) (by decide)
    exact .refl _ _
    refine .via ?_ (within_clk ..) (by decide)
    refine .via ?_ (setFld_within ..) (by decide)
    refine .ite ?_ ?_
    refine .via ?_ (setLive_within ..) (by decide)
    exact .refl _ _
    refine .via ?_ (within_clk ..) (by decide)
    refine .via ?_ (setLive_within ..) (by decide)
    exact .refl _ _
    refine .ite ?_ ?_
    refine .via ?_ (setLock_within ..) (by decide)
    refine .via ?_ (within_clk ..) (by decide)
    refine .via ?_ (setFld_within ..) (by decide)
    refine .ite ?_ ?_
    refine .via ?_ (setLive_within ..) (by decide)
    exact .refl _ _
    refine .via ?_ (within_clk ..) (by decide)
    refine .via ?_ (setLive_within ..) (by decide)
    exact .refl _ _
    refine .via ?_ (setLock_within ..) (by decide)
    refine .via ?_ (within_clk ..) (by decide)
    refine .via ?_ (setFld_within ..) (by decide)
    refine .ite ?_ ?_
    refine .via ?_ (setLive_within ..) (by decide)
    exact .refl _ _
    refine .via ?_ (within_clk ..) (by decide)
    refine .via ?_ (setLive_within ..) (by decide)
    exact .refl _ _

theorem cadencePorch_within' {align : Option Int} {d : Dev} {z' : Dev} {y' : Nat} (h : cadencePorch align d = (z', y')) : Within [.regs, .live, .clk, .usb, .root, .stem] d z' := by
  have w' := cadencePorch_within align d
  rw [h] at w'; exact w'

theorem cadenceTimeoutOp_within (d : Dev) : Within [.regs, .clk, .usb, .root, .stem] d (cadenceTimeoutOp d) := by
  unfold cadenceTimeoutOp; try dsimp only
  with_reducible
    split
    refine .ite ?_ ?_
    refine .via ?_ (lockHold_within ..) (by decide)
    refine .via ?_ (within_clk ..) (by decide)
    exact .refl _ _
    exact .refl _ _
    exact .refl _ _

end Sys2Proof.Machine
end

