-- ==== Sys2Proof/Laws/SourceFrame.lean ====
section
/-! SUPPORT. What each operation of Machine/Source.lean may change. -/

namespace Sys2Proof.Machine

theorem setPort_within (d : Dev) (p : Nat) (x : Port) : Within [.inp] d (setPort d p x) := by
  unfold setPort; try dsimp only
  with_reducible
    refine .ite ?_ ?_
    refine .via ?_ (within_inp ..) (by decide)
    exact .refl _ _
    refine .via ?_ (within_inp ..) (by decide)
    exact .refl _ _

theorem dropUnpaired_within (p : Nat) (d : Dev) : Within [.regs, .usb, .root, .stem, .inp] d (dropUnpaired p d) := by
  unfold dropUnpaired; try dsimp only
  with_reducible
    refine .ite ?_ ?_
    refine .via ?_ (raise_within ..) (by decide)
    refine .via ?_ (bump_within ..) (by decide)
    refine .via ?_ (setPort_within ..) (by decide)
    exact .refl _ _
    exact .refl _ _

theorem endInput_within (p : Nat) (cut : Bool) (d : Dev) : Within [.regs, .usb, .ring, .root, .stem, .trk, .inp] d (endInput p cut d) := by
  unfold endInput; try dsimp only
  with_reducible
    split
    exact .refl _ _
    refine .ite ?_ ?_
    refine .via ?_ (setPort_within ..) (by decide)
    exact .refl _ _
    refine .ite ?_ ?_
    refine .via ?_ (within_inp ..) (by decide)
    refine .ite ?_ ?_
    refine .ite ?_ ?_
    refine .ite ?_ ?_
    refine .via ?_ (setFld_within ..) (by decide)
    refine .via ?_ (setFld_within ..) (by decide)
    refine .via ?_ (setReg_within ..) (by decide)
    refine .via ?_ (ringInc_within ..) (by decide)
    refine .via ?_ (setLineRing_within ..) (by decide)
    refine .via ?_ (setPort_within ..) (by decide)
    exact .refl _ _
    refine .via ?_ (raise_within ..) (by decide)
    refine .via ?_ (setFld_within ..) (by decide)
    refine .via ?_ (setFld_within ..) (by decide)
    refine .via ?_ (setReg_within ..) (by decide)
    refine .via ?_ (ringInc_within ..) (by decide)
    refine .via ?_ (setLineRing_within ..) (by decide)
    refine .via ?_ (setPort_within ..) (by decide)
    exact .refl _ _
    refine .via ?_ (raise_within ..) (by decide)
    refine .ite ?_ ?_
    refine .via ?_ (setFld_within ..) (by decide)
    refine .via ?_ (setFld_within ..) (by decide)
    refine .via ?_ (setReg_within ..) (by decide)
    refine .via ?_ (ringInc_within ..) (by decide)
    refine .via ?_ (setLineRing_within ..) (by decide)
    refine .via ?_ (setPort_within ..) (by decide)
    exact .refl _ _
    refine .via ?_ (raise_within ..) (by decide)
    refine .via ?_ (setFld_within ..) (by decide)
    refine .via ?_ (setFld_within ..) (by decide)
    refine .via ?_ (setReg_within ..) (by decide)
    refine .via ?_ (ringInc_within ..) (by decide)
    refine .via ?_ (setLineRing_within ..) (by decide)
    refine .via ?_ (setPort_within ..) (by decide)
    exact .refl _ _
    refine .via ?_ (raise_within ..) (by decide)
    refine .ite ?_ ?_
    refine .ite ?_ ?_
    refine .via ?_ (setFld_within ..) (by decide)
    refine .via ?_ (setFld_within ..) (by decide)
    refine .via ?_ (setReg_within ..) (by decide)
    refine .via ?_ (ringInc_within ..) (by decide)
    refine .via ?_ (setLineRing_within ..) (by decide)
    refine .via ?_ (setPort_within ..) (by decide)
    exact .refl _ _
    refine .via ?_ (raise_within ..) (by decide)
    refine .via ?_ (setFld_within ..) (by decide)
    refine .via ?_ (setFld_within ..) (by decide)
    refine .via ?_ (setReg_within ..) (by decide)
    refine .via ?_ (ringInc_within ..) (by decide)
    refine .via ?_ (setLineRing_within ..) (by decide)
    refine .via ?_ (setPort_within ..) (by decide)
    exact .refl _ _
    refine .via ?_ (raise_within ..) (by decide)
    refine .ite ?_ ?_
    refine .via ?_ (setFld_within ..) (by decide)
    refine .via ?_ (setFld_within ..) (by decide)
    refine .via ?_ (setReg_within ..) (by decide)
    refine .via ?_ (ringInc_within ..) (by decide)
    refine .via ?_ (setLineRing_within ..) (by decide)
    refine .via ?_ (setPort_within ..) (by decide)
    exact .refl _ _
    refine .via ?_ (raise_within ..) (by decide)
    refine .via ?_ (setFld_within ..) (by decide)
    refine .via ?_ (setFld_within ..) (by decide)
    refine .via ?_ (setReg_within ..) (by decide)
    refine .via ?_ (ringInc_within ..) (by decide)
    refine .via ?_ (setLineRing_within ..) (by decide)
    refine .via ?_ (setPort_within ..) (by decide)
    exact .refl _ _
    refine .via ?_ (within_inp ..) (by decide)
    refine .ite ?_ ?_
    refine .ite ?_ ?_
    refine .ite ?_ ?_
    refine .via ?_ (setFld_within ..) (by decide)
    refine .via ?_ (setFld_within ..) (by decide)
    refine .via ?_ (setReg_within ..) (by decide)
    refine .via ?_ (ringInc_within ..) (by decide)
    refine .via ?_ (setLineRing_within ..) (by decide)
    refine .via ?_ (setPort_within ..) (by decide)
    exact .refl _ _
    refine .via ?_ (raise_within ..) (by decide)
    refine .via ?_ (setFld_within ..) (by decide)
    refine .via ?_ (setFld_within ..) (by decide)
    refine .via ?_ (setReg_within ..) (by decide)
    refine .via ?_ (ringInc_within ..) (by decide)
    refine .via ?_ (setLineRing_within ..) (by decide)
    refine .via ?_ (setPort_within ..) (by decide)
    exact .refl _ _
    refine .via ?_ (raise_within ..) (by decide)
    refine .ite ?_ ?_
    refine .via ?_ (setFld_within ..) (by decide)
    refine .via ?_ (setFld_within ..) (by decide)
    refine .via ?_ (setReg_within ..) (by decide)
    refine .via ?_ (ringInc_within ..) (by decide)
    refine .via ?_ (setLineRing_within ..) (by decide)
    refine .via ?_ (setPort_within ..) (by decide)
    exact .refl _ _
    refine .via ?_ (raise_within ..) (by decide)
    refine .via ?_ (setFld_within ..) (by decide)
    refine .via ?_ (setFld_within ..) (by decide)
    refine .via ?_ (setReg_within ..) (by decide)
    refine .via ?_ (ringInc_within ..) (by decide)
    refine .via ?_ (setLineRing_within ..) (by decide)
    refine .via ?_ (setPort_within ..) (by decide)
    exact .refl _ _
    refine .via ?_ (raise_within ..) (by decide)
    refine .ite ?_ ?_
    refine .ite ?_ ?_
    refine .via ?_ (setFld_within ..) (by decide)
    refine .via ?_ (setFld_within ..) (by decide)
    refine .via ?_ (setReg_within ..) (by decide)
    refine .via ?_ (ringInc_within ..) (by decide)
    refine .via ?_ (setLineRing_within ..) (by decide)
    refine .via ?_ (setPort_within ..) (by decide)
    exact .refl _ _
    refine .via ?_ (raise_within ..) (by decide)
    refine .via ?_ (setFld_within ..) (by decide)
    refine .via ?_ (setFld_within ..) (by decide)
    refine .via ?_ (setReg_within ..) (by decide)
    refine .via ?_ (ringInc_within ..) (by decide)
    refine .via ?_ (setLineRing_within ..) (by decide)
    refine .via ?_ (setPort_within ..) (by decide)
    exact .refl _ _
    refine .via ?_ (raise_within ..) (by decide)
    refine .ite ?_ ?_
    refine .via ?_ (setFld_within ..) (by decide)
    refine .via ?_ (setFld_within ..) (by decide)
    refine .via ?_ (setReg_within ..) (by decide)
    refine .via ?_ (ringInc_within ..) (by decide)
    refine .via ?_ (setLineRing_within ..) (by decide)
    refine .via ?_ (setPort_within ..) (by decide)
    exact .refl _ _
    refine .via ?_ (raise_within ..) (by decide)
    refine .via ?_ (setFld_within ..) (by decide)
    refine .via ?_ (setFld_within ..) (by decide)
    refine .via ?_ (setReg_within ..) (by decide)
    refine .via ?_ (ringInc_within ..) (by decide)
    refine .via ?_ (setLineRing_within ..) (by decide)
    refine .via ?_ (setPort_within ..) (by decide)
    exact .refl _ _

theorem sourceChange_within (p cl : Nat) (d : Dev) : Within [.regs, .clk, .usb, .ring, .root, .stem, .trk, .mem, .inp] d (sourceChange p cl d) := by
  unfold sourceChange; try dsimp only
  with_reducible
    refine .ite ?_ ?_
    exact .refl _ _
    refine .via ?_ (lockLost_within ..) (by decide)
    refine .ite ?_ ?_
    refine .via ?_ (setReg_within ..) (by decide)
    refine .via ?_ (setFld_within ..) (by decide)
    refine .ite ?_ ?_
    refine .via ?_ (within_stem ..) (by decide)
    refine .ite ?_ ?_
    refine .ite ?_ ?_
    refine .via ?_ (within_inp ..) (by decide)
    refine .foldl ?_ (fun _ _ => ?_)
    refine .ite ?_ ?_
    refine .via ?_ (bump_within ..) (by decide)
    refine .via ?_ (endInput_within ..) (by decide)
    refine .via ?_ (setPort_within ..) (by decide)
    refine .via ?_ (dropUnpaired_within ..) (by decide)
    exact .refl _ _
    refine .via ?_ (raise_within ..) (by decide)
    refine .via ?_ (bump_within ..) (by decide)
    refine .via ?_ (endInput_within ..) (by decide)
    refine .via ?_ (setPort_within ..) (by decide)
    refine .via ?_ (dropUnpaired_within ..) (by decide)
    exact .refl _ _
    refine .via ?_ (requestHist_within ..) (by decide)
    exact .refl _ _
    refine .foldl ?_ (fun _ _ => ?_)
    refine .ite ?_ ?_
    refine .via ?_ (bump_within ..) (by decide)
    refine .via ?_ (endInput_within ..) (by decide)
    refine .via ?_ (setPort_within ..) (by decide)
    refine .via ?_ (dropUnpaired_within ..) (by decide)
    exact .refl _ _
    refine .via ?_ (raise_within ..) (by decide)
    refine .via ?_ (bump_within ..) (by decide)
    refine .via ?_ (endInput_within ..) (by decide)
    refine .via ?_ (setPort_within ..) (by decide)
    refine .via ?_ (dropUnpaired_within ..) (by decide)
    exact .refl _ _
    refine .via ?_ (requestHist_within ..) (by decide)
    exact .refl _ _
    refine .foldl ?_ (fun _ _ => ?_)
    refine .ite ?_ ?_
    refine .via ?_ (bump_within ..) (by decide)
    refine .via ?_ (endInput_within ..) (by decide)
    refine .via ?_ (setPort_within ..) (by decide)
    refine .via ?_ (dropUnpaired_within ..) (by decide)
    exact .refl _ _
    refine .via ?_ (raise_within ..) (by decide)
    refine .via ?_ (bump_within ..) (by decide)
    refine .via ?_ (endInput_within ..) (by decide)
    refine .via ?_ (setPort_within ..) (by decide)
    refine .via ?_ (dropUnpaired_within ..) (by decide)
    exact .refl _ _
    refine .via ?_ (requestHist_within ..) (by decide)
    exact .refl _ _
    refine .ite ?_ ?_
    refine .ite ?_ ?_
    refine .via ?_ (within_inp ..) (by decide)
    refine .foldl ?_ (fun _ _ => ?_)
    refine .ite ?_ ?_
    refine .via ?_ (bump_within ..) (by decide)
    refine .via ?_ (endInput_within ..) (by decide)
    refine .via ?_ (setPort_within ..) (by decide)
    refine .via ?_ (dropUnpaired_within ..) (by decide)
    exact .refl _ _
    refine .via ?_ (raise_within ..) (by decide)
    refine .via ?_ (bump_within ..) (by decide)
    refine .via ?_ (endInput_within ..) (by decide)
    refine .via ?_ (setPort_within ..) (by decide)
    refine .via ?_ (dropUnpaired_within ..) (by decide)
    exact .refl _ _
    refine .via ?_ (requestHist_within ..) (by decide)
    exact .refl _ _
    refine .foldl ?_ (fun _ _ => ?_)
    refine .ite ?_ ?_
    refine .via ?_ (bump_within ..) (by decide)
    refine .via ?_ (endInput_within ..) (by decide)
    refine .via ?_ (setPort_within ..) (by decide)
    refine .via ?_ (dropUnpaired_within ..) (by decide)
    exact .refl _ _
    refine .via ?_ (raise_within ..) (by decide)
    refine .via ?_ (bump_within ..) (by decide)
    refine .via ?_ (endInput_within ..) (by decide)
    refine .via ?_ (setPort_within ..) (by decide)
    refine .via ?_ (dropUnpaired_within ..) (by decide)
    exact .refl _ _
    refine .via ?_ (requestHist_within ..) (by decide)
    exact .refl _ _
    refine .foldl ?_ (fun _ _ => ?_)
    refine .ite ?_ ?_
    refine .via ?_ (bump_within ..) (by decide)
    refine .via ?_ (endInput_within ..) (by decide)
    refine .via ?_ (setPort_within ..) (by decide)
    refine .via ?_ (dropUnpaired_within ..) (by decide)
    exact .refl _ _
    refine .via ?_ (raise_within ..) (by decide)
    refine .via ?_ (bump_within ..) (by decide)
    refine .via ?_ (endInput_within ..) (by decide)
    refine .via ?_ (setPort_within ..) (by decide)
    refine .via ?_ (dropUnpaired_within ..) (by decide)
    exact .refl _ _
    refine .via ?_ (requestHist_within ..) (by decide)
    exact .refl _ _
    refine .ite ?_ ?_
    refine .via ?_ (within_stem ..) (by decide)
    refine .ite ?_ ?_
    refine .ite ?_ ?_
    refine .via ?_ (within_inp ..) (by decide)
    refine .foldl ?_ (fun _ _ => ?_)
    refine .ite ?_ ?_
    refine .via ?_ (bump_within ..) (by decide)
    refine .via ?_ (endInput_within ..) (by decide)
    refine .via ?_ (setPort_within ..) (by decide)
    refine .via ?_ (dropUnpaired_within ..) (by decide)
    exact .refl _ _
    refine .via ?_ (raise_within ..) (by decide)
    refine .via ?_ (bump_within ..) (by decide)
    refine .via ?_ (endInput_within ..) (by decide)
    refine .via ?_ (setPort_within ..) (by decide)
    refine .via ?_ (dropUnpaired_within ..) (by decide)
    exact .refl _ _
    refine .via ?_ (requestHist_within ..) (by decide)
    exact .refl _ _
    refine .foldl ?_ (fun _ _ => ?_)
    refine .ite ?_ ?_
    refine .via ?_ (bump_within ..) (by decide)
    refine .via ?_ (endInput_within ..) (by decide)
    refine .via ?_ (setPort_within ..) (by decide)
    refine .via ?_ (dropUnpaired_within ..) (by decide)
    exact .refl _ _
    refine .via ?_ (raise_within ..) (by decide)
    refine .via ?_ (bump_within ..) (by decide)
    refine .via ?_ (endInput_within ..) (by decide)
    refine .via ?_ (setPort_within ..) (by decide)
    refine .via ?_ (dropUnpaired_within ..) (by decide)
    exact .refl _ _
    refine .via ?_ (requestHist_within ..) (by decide)
    exact .refl _ _
    refine .foldl ?_ (fun _ _ => ?_)
    refine .ite ?_ ?_
    refine .via ?_ (bump_within ..) (by decide)
    refine .via ?_ (endInput_within ..) (by decide)
    refine .via ?_ (setPort_within ..) (by decide)
    refine .via ?_ (dropUnpaired_within ..) (by decide)
    exact .refl _ _
    refine .via ?_ (raise_within ..) (by decide)
    refine .via ?_ (bump_within ..) (by decide)
    refine .via ?_ (endInput_within ..) (by decide)
    refine .via ?_ (setPort_within ..) (by decide)
    refine .via ?_ (dropUnpaired_within ..) (by decide)
    exact .refl _ _
    refine .via ?_ (requestHist_within ..) (by decide)
    exact .refl _ _
    refine .ite ?_ ?_
    refine .ite ?_ ?_
    refine .via ?_ (within_inp ..) (by decide)
    refine .foldl ?_ (fun _ _ => ?_)
    refine .ite ?_ ?_
    refine .via ?_ (bump_within ..) (by decide)
    refine .via ?_ (endInput_within ..) (by decide)
    refine .via ?_ (setPort_within ..) (by decide)
    refine .via ?_ (dropUnpaired_within ..) (by decide)
    exact .refl _ _
    refine .via ?_ (raise_within ..) (by decide)
    refine .via ?_ (bump_within ..) (by decide)
    refine .via ?_ (endInput_within ..) (by decide)
    refine .via ?_ (setPort_within ..) (by decide)
    refine .via ?_ (dropUnpaired_within ..) (by decide)
    exact .refl _ _
    refine .via ?_ (requestHist_within ..) (by decide)
    exact .refl _ _
    refine .foldl ?_ (fun _ _ => ?_)
    refine .ite ?_ ?_
    refine .via ?_ (bump_within ..) (by decide)
    refine .via ?_ (endInput_within ..) (by decide)
    refine .via ?_ (setPort_within ..) (by decide)
    refine .via ?_ (dropUnpaired_within ..) (by decide)
    exact .refl _ _
    refine .via ?_ (raise_within ..) (by decide)
    refine .via ?_ (bump_within ..) (by decide)
    refine .via ?_ (endInput_within ..) (by decide)
    refine .via ?_ (setPort_within ..) (by decide)
    refine .via ?_ (dropUnpaired_within ..) (by decide)
    exact .refl _ _
    refine .via ?_ (requestHist_within ..) (by decide)
    exact .refl _ _
    refine .foldl ?_ (fun _ _ => ?_)
    refine .ite ?_ ?_
    refine .via ?_ (bump_within ..) (by decide)
    refine .via ?_ (endInput_within ..) (by decide)
    refine .via ?_ (setPort_within ..) (by decide)
    refine .via ?_ (dropUnpaired_within ..) (by decide)
    exact .refl _ _
    refine .via ?_ (raise_within ..) (by decide)
    refine .via ?_ (bump_within ..) (by decide)
    refine .via ?_ (endInput_within ..) (by decide)
    refine .via ?_ (setPort_within ..) (by decide)
    refine .via ?_ (dropUnpaired_within ..) (by decide)
    exact .refl _ _
    refine .via ?_ (requestHist_within ..) (by decide)
    exact .refl _ _

theorem hdcpEvent_within (p : Nat) (d : Dev) : Within [.regs, .usb, .root, .stem] d (hdcpEvent p d) := by
  unfold hdcpEvent; try dsimp only
  with_reducible
    refine .via ?_ (raise_within ..) (by decide)
    exact .refl _ _

theorem clearProtected_within (d : Dev) : Within [.regs, .usb, .root, .stem, .inp] d (clearProtected d) := by
  unfold clearProtected; try dsimp only
  with_reducible
    refine .foldl ?_ (fun _ _ => ?_)
    refine .via ?_ (setFlds_within ..) (by decide)
    refine .via ?_ (within_inp ..) (by decide)
    exact .refl _ _
    refine .via ?_ (hdcpEvent_within ..) (by decide)
    refine .via ?_ (setPort_within ..) (by decide)
    exact .refl _ _

end Sys2Proof.Machine
end

