-- ==== Sys2Proof/Laws/FaultFrame.lean ====
section
/-! SUPPORT. What each operation of Machine/Fault.lean may change. -/

namespace Sys2Proof.Machine

theorem fenceTwigs_within (n : Nat) (d : Dev) : Within [.regs, .br] d (fenceTwigs n d) := by
  unfold fenceTwigs; try dsimp only
  with_reducible
    refine .via ?_ (setBranch_within ..) (by decide)
    refine .via ?_ (setFld_within ..) (by decide)
    refine .foldl ?_ (fun _ _ => ?_)
    exact .refl _ _
    refine .via ?_ (setFlds_within ..) (by decide)
    exact .refl _ _

theorem setHost_within (d : Dev) (n h : Nat) : Within [.regs] d (setHost d n h) := by
  unfold setHost; try dsimp only
  with_reducible
    refine .via ?_ (setFld_within ..) (by decide)
    exact .refl _ _

theorem takeSpill_within {n : Nat} {d : Dev} {e : Dev} (h : takeSpill n d = some e) : Within [.trk] d e := by
  refine Within.foldl_option (fun e he => by cases he; exact .refl _ _) (fun o a ho e he => ?_) e h
  obtain ⟨x, hx, he⟩ := Option.bind_eq_some_iff.mp he
  dsimp only at he
  split at he
  · cases he
    exact (ho x hx).via (takeLpn_within ..) (by decide)
  · obtain ⟨p, -, rfl⟩ := Option.map_eq_some_iff.mp he
    exact (ho x hx).via (takeLpn_within ..) (by decide)

theorem lostPartials_within (d : Dev) (c : Ctx) : Within [.cells] d (lostPartials d c) := by
  unfold lostPartials; try dsimp only
  with_reducible
    refine .foldl ?_ (fun _ _ => ?_)
    exact .refl _ _
    refine .foldl ?_ (fun _ _ => ?_)
    exact .refl _ _
    refine .ite ?_ ?_
    exact .refl _ _
    refine .via ?_ (setCell_within ..) (by decide)
    exact .refl _ _

theorem moveWork_within (p l h : Nat) (d : Dev) : Within [.br, .cells] d (moveWork p l h d) := by
  unfold moveWork; try dsimp only
  with_reducible
    refine .via ?_ (setBranch_within ..) (by decide)
    refine .foldl ?_ (fun _ _ => ?_)
    refine .via ?_ (setBranch_within ..) (by decide)
    refine .via ?_ (setBranch_within ..) (by decide)
    exact .refl _ _
    refine .via ?_ (lostPartials_within ..) (by decide)
    exact .refl _ _

theorem rehost_within (nv : NonVol) (p l : Nat) (d : Dev) : Within [.regs, .trk, .br, .cells] d (rehost nv p l d) := by
  unfold rehost; dsimp only
  split
  · exact (Within.refl _ _).via (setHost_within ..) (by decide)
  split
  · exact (Within.refl _ _).via (setHost_within ..) (by decide)
  · rename_i h
    refine .via ?_ (moveWork_within ..) (by decide)
    refine .via ?_ (setHost_within ..) (by decide)
    split at h
    · exact (Within.refl _ _).via (takeSpill_within h) (by decide)
    · cases h; exact .refl _ _

theorem endFencedTasks_within (nv : NonVol) (d : Dev) : Within [.regs, .usb, .ring, .root, .stem, .trk, .mem, .cam, .flt, .br, .cells] d (endFencedTasks nv d) := by
  unfold endFencedTasks; try dsimp only
  with_reducible
    refine .via ?_ (closeFrames_within ..) (by decide)
    refine .foldl ?_ (fun _ _ => ?_)
    exact .refl _ _
    refine .via ?_ (endTask_within ..) (by decide)
    exact .refl _ _

theorem retireBranch_within (nv : NonVol) (p kind : Nat) (rep : Bool) (d : Dev) : Within [.regs, .live, .usb, .ring, .root, .stem, .trk, .mem, .ras, .cnp, .cam, .flt, .br, .cells] d (retireBranch nv p kind rep d) := by
  unfold retireBranch; try dsimp only
  with_reducible
    refine .via ?_ (stumpCheck_within ..) (by decide)
    refine .via ?_ (endFencedTasks_within ..) (by decide)
    refine .foldl ?_ (fun _ _ => ?_)
    refine .ite ?_ ?_
    refine .via ?_ (raise_within ..) (by decide)
    refine .via ?_ (raise_within ..) (by decide)
    refine .foldl ?_ (fun _ _ => ?_)
    refine .via ?_ (within_flt ..) (by decide)
    refine .via ?_ (setBranch_within ..) (by decide)
    refine .via ?_ (fenceTwigs_within ..) (by decide)
    refine .via ?_ (setBktState_within ..) (by decide)
    refine .via ?_ (setFld_within ..) (by decide)
    exact .refl _ _
    refine .via ?_ (rehost_within ..) (by decide)
    exact .refl _ _
    refine .via ?_ (raise_within ..) (by decide)
    refine .foldl ?_ (fun _ _ => ?_)
    refine .via ?_ (within_flt ..) (by decide)
    refine .via ?_ (setBranch_within ..) (by decide)
    refine .via ?_ (fenceTwigs_within ..) (by decide)
    refine .via ?_ (setBktState_within ..) (by decide)
    refine .via ?_ (setFld_within ..) (by decide)
    exact .refl _ _
    refine .via ?_ (rehost_within ..) (by decide)
    exact .refl _ _
    refine .ite ?_ ?_
    refine .via ?_ (loseAdmission_within ..) (by decide)
    exact .refl _ _
    exact .refl _ _

theorem retireTwig_within (nv : NonVol) (n t kind : Nat) (rep : Bool) (d : Dev) : Within [.regs, .live, .usb, .ring, .root, .stem, .trk, .mem, .ras, .cnp, .cam, .flt, .br, .cells] d (retireTwig nv n t kind rep d) := by
  unfold retireTwig; try dsimp only
  with_reducible
    refine .ite ?_ ?_
    refine .ite ?_ ?_
    refine .via ?_ (retireBranch_within ..) (by decide)
    refine .via ?_ (setFld_within ..) (by decide)
    exact .refl _ _
    refine .via ?_ (setBranch_within ..) (by decide)
    refine .via ?_ (setFlds_within ..) (by decide)
    exact .refl _ _
    refine .ite ?_ ?_
    refine .via ?_ (raise_within ..) (by decide)
    refine .via ?_ (setBranch_within ..) (by decide)
    refine .via ?_ (setFlds_within ..) (by decide)
    exact .refl _ _
    refine .via ?_ (retireBranch_within ..) (by decide)
    exact .refl _ _

theorem stopCamera_within (p : Nat) (d : Dev) : Within [.regs, .usb, .root, .stem, .cam, .flt] d (stopCamera p d) := by
  unfold stopCamera; try dsimp only
  with_reducible
    refine .via ?_ (closePort_within ..) (by decide)
    refine .via ?_ (camEnd_within ..) (by decide)
    exact .refl _ _

theorem noteUses_within (g : Nat) (d : Dev) : Within [.trk] d (noteUses g d) := by
  unfold noteUses; try dsimp only
  with_reducible
    refine .via ?_ (within_trk (h := by rfl) ..) (by decide)
    exact .refl _ _

theorem fenceUnit_within (nv : NonVol) (u cause : Nat) (d : Dev) : Within [.regs, .live, .clk, .usb, .ring, .root, .stem, .trk, .mem, .ras, .cnp, .inp, .cam, .flt, .br, .cells] d (fenceUnit nv u cause d) := by
  unfold fenceUnit; try dsimp only
  with_reducible
    refine .ite ?_ ?_
    exact .refl _ _
    refine .via ?_ (stumpCheck_within ..) (by decide)
    refine .via ?_ (endFencedTasks_within ..) (by decide)
    refine .ite ?_ ?_
    refine .ite ?_ ?_
    refine .via ?_ (fenceTwigs_within ..) (by decide)
    refine .via ?_ (setFld_within ..) (by decide)
    exact .refl _ _
    refine .ite ?_ ?_
    refine .foldl ?_ (fun _ _ => ?_)
    refine .via ?_ (setFld_within ..) (by decide)
    exact .refl _ _
    refine .via ?_ (setFld_within ..) (by decide)
    exact .refl _ _
    refine .ite ?_ ?_
    refine .via ?_ (stopCamera_within ..) (by decide)
    refine .via ?_ (setFld_within ..) (by decide)
    exact .refl _ _
    refine .ite ?_ ?_
    refine .via ?_ (setFld_within ..) (by decide)
    refine .via ?_ (setFld_within ..) (by decide)
    exact .refl _ _
    refine .ite ?_ ?_
    refine .via ?_ (noteUses_within ..) (by decide)
    refine .via ?_ (setFld_within ..) (by decide)
    exact .refl _ _
    refine .ite ?_ ?_
    refine .via ?_ (sourceChange_within ..) (by decide)
    refine .via ?_ (setFld_within ..) (by decide)
    exact .refl _ _
    refine .ite ?_ ?_
    refine .via ?_ (setFld_within ..) (by decide)
    refine .via ?_ (setFld_within ..) (by decide)
    exact .refl _ _
    refine .via ?_ (setFld_within ..) (by decide)
    exact .refl _ _
    refine .via ?_ (raise_within ..) (by decide)
    refine .ite ?_ ?_
    refine .via ?_ (fenceTwigs_within ..) (by decide)
    refine .via ?_ (setFld_within ..) (by decide)
    exact .refl _ _
    refine .ite ?_ ?_
    refine .foldl ?_ (fun _ _ => ?_)
    refine .via ?_ (setFld_within ..) (by decide)
    exact .refl _ _
    refine .via ?_ (setFld_within ..) (by decide)
    exact .refl _ _
    refine .ite ?_ ?_
    refine .via ?_ (stopCamera_within ..) (by decide)
    refine .via ?_ (setFld_within ..) (by decide)
    exact .refl _ _
    refine .ite ?_ ?_
    refine .via ?_ (setFld_within ..) (by decide)
    refine .via ?_ (setFld_within ..) (by decide)
    exact .refl _ _
    refine .ite ?_ ?_
    refine .via ?_ (noteUses_within ..) (by decide)
    refine .via ?_ (setFld_within ..) (by decide)
    exact .refl _ _
    refine .ite ?_ ?_
    refine .via ?_ (sourceChange_within ..) (by decide)
    refine .via ?_ (setFld_within ..) (by decide)
    exact .refl _ _
    refine .ite ?_ ?_
    refine .via ?_ (setFld_within ..) (by decide)
    refine .via ?_ (setFld_within ..) (by decide)
    exact .refl _ _
    refine .via ?_ (setFld_within ..) (by decide)
    exact .refl _ _

theorem retireBank_within (nv : NonVol) (p : Nat) (d : Dev) : Within [.regs, .live, .clk, .usb, .ring, .root, .stem, .trk, .mem, .ras, .cnp, .inp, .cam, .flt, .br, .cells] d (retireBank nv p d) := by
  unfold retireBank; try dsimp only
  with_reducible
    refine .ite ?_ ?_
    refine .via ?_ (setBktState_within ..) (by decide)
    exact .refl _ _
    split
    refine .via ?_ (fenceUnit_within ..) (by decide)
    refine .via ?_ (raise_within ..) (by decide)
    refine .via ?_ (setBktState_within ..) (by decide)
    exact .refl _ _
    refine .via ?_ (progStart_within ..) (by decide)
    refine .via ?_ (raise_within ..) (by decide)
    refine .via ?_ (setFlds_within ..) (by decide)
    refine .via ?_ (within_trk_flt (h := by rfl) ..) (by decide)
    refine .via ?_ (moveBooks_within ..) (by decide)
    refine .via ?_ (moveBooks_within ..) (by decide)
    exact .refl _ _

theorem retireChannel_within (nv : NonVol) (c : Nat) (d : Dev) : Within [.regs, .live, .clk, .usb, .ring, .root, .stem, .trk, .mem, .ras, .cnp, .inp, .cam, .flt, .br, .cells] d (retireChannel nv c d) := by
  unfold retireChannel; try dsimp only
  with_reducible
    refine .ite ?_ ?_
    refine .via ?_ (fenceUnit_within ..) (by decide)
    refine .via ?_ (raise_within ..) (by decide)
    refine .via ?_ (setBktState_within ..) (by decide)
    exact .refl _ _
    refine .via ?_ (progStart_within ..) (by decide)
    refine .via ?_ (setFlds_within ..) (by decide)
    refine .via ?_ (raise_within ..) (by decide)
    refine .foldl ?_ (fun _ _ => ?_)
    refine .via ?_ (setReg_within ..) (by decide)
    refine .via ?_ (within_trk_flt (h := by rfl) ..) (by decide)
    exact .refl _ _
    refine .via ?_ (setFld_within ..) (by decide)
    exact .refl _ _

theorem retireLane_within (nv : NonVol) (q l kind : Nat) (rep : Bool) (d : Dev) : Within [.regs, .live, .clk, .usb, .ring, .root, .stem, .trk, .mem, .ras, .cnp, .inp, .cam, .flt, .br, .cells] d (retireLane nv q l kind rep d) := by
  unfold retireLane; try dsimp only
  with_reducible
    refine .ite ?_ ?_
    refine .via ?_ (fenceUnit_within ..) (by decide)
    refine .via ?_ (raise_within ..) (by decide)
    refine .ite ?_ ?_
    exact .refl _ _
    refine .via ?_ (setFld_within ..) (by decide)
    exact .refl _ _
    refine .via ?_ (raise_within ..) (by decide)
    refine .ite ?_ ?_
    exact .refl _ _
    refine .via ?_ (setFld_within ..) (by decide)
    exact .refl _ _

theorem actPermanent_within (nv : NonVol) (n kind : Nat) (rep : Bool) (d : Dev) : Within [.regs, .live, .clk, .usb, .ring, .root, .stem, .trk, .mem, .ras, .cnp, .inp, .cam, .flt, .br, .cells] d (actPermanent nv n kind rep d) := by
  unfold actPermanent; try dsimp only
  with_reducible
    refine .ite ?_ ?_
    refine .via ?_ (retireTwig_within ..) (by decide)
    refine .via ?_ (setBktState_within ..) (by decide)
    exact .refl _ _
    refine .ite ?_ ?_
    refine .via ?_ (retireBranch_within ..) (by decide)
    refine .via ?_ (setBktState_within ..) (by decide)
    exact .refl _ _
    refine .ite ?_ ?_
    refine .via ?_ (retireBank_within ..) (by decide)
    refine .via ?_ (setBktState_within ..) (by decide)
    exact .refl _ _
    refine .ite ?_ ?_
    refine .via ?_ (retireChannel_within ..) (by decide)
    refine .via ?_ (setBktState_within ..) (by decide)
    exact .refl _ _
    refine .ite ?_ ?_
    refine .via ?_ (retireLane_within ..) (by decide)
    refine .via ?_ (setBktState_within ..) (by decide)
    exact .refl _ _
    refine .ite ?_ ?_
    refine .via ?_ (retirePort_within ..) (by decide)
    refine .via ?_ (camEnd_within ..) (by decide)
    refine .via ?_ (setBktState_within ..) (by decide)
    exact .refl _ _
    refine .via ?_ (fenceUnit_within ..) (by decide)
    refine .via ?_ (setBktState_within ..) (by decide)
    refine .via ?_ (within_flt ..) (by decide)
    exact .refl _ _

theorem permanent_within (nv : NonVol) (n kind : Nat) (rep : Bool) (d : Dev) : Within [.regs, .live, .clk, .usb, .ring, .root, .stem, .trk, .mem, .ras, .cnp, .inp, .cam, .flt, .br, .cells] d (permanent nv n kind rep d) := by
  unfold permanent; try dsimp only
  with_reducible
    split
    refine .ite ?_ ?_
    refine .via ?_ (setBktState_within ..) (by decide)
    refine .via ?_ (within_flt ..) (by decide)
    exact .refl _ _
    refine .via ?_ (actPermanent_within ..) (by decide)
    exact .refl _ _
    refine .via ?_ (actPermanent_within ..) (by decide)
    exact .refl _ _

theorem recordError_within (nv : NonVol) (n kind addr : Nat) (d : Dev) : Within [.regs, .live, .clk, .usb, .ring, .root, .stem, .trk, .mem, .ras, .cnp, .inp, .cam, .flt, .br, .cells] d (recordError nv n kind addr d) := by
  unfold recordError; try dsimp only
  with_reducible
    split
    refine .via ?_ (permanent_within ..) (by decide)
    refine .via ?_ (countError_within' (by assumption)) (by decide)
    exact .refl _ _
    refine .via ?_ (countError_within' (by assumption)) (by decide)
    exact .refl _ _

theorem bankPageCopiedOp_within (bad : Nat) (d : Dev) : Within [.regs, .usb, .root, .stem, .trk, .flt] d (bankPageCopiedOp bad d) := by
  unfold bankPageCopiedOp; try dsimp only
  with_reducible
    refine .ite ?_ ?_
    exact .refl _ _
    refine .ite ?_ ?_
    refine .via ?_ (progAt_within ..) (by decide)
    refine .via ?_ (setFld_within ..) (by decide)
    refine .ite ?_ ?_
    refine .via ?_ (raise_within ..) (by decide)
    refine .via ?_ (bump_within ..) (by decide)
    refine .ite ?_ ?_
    refine .via ?_ (moveBooks_within ..) (by decide)
    refine .via ?_ (within_trk (h := by rfl) ..) (by decide)
    exact .refl _ _
    exact .refl _ _
    refine .ite ?_ ?_
    refine .via ?_ (moveBooks_within ..) (by decide)
    refine .via ?_ (within_trk (h := by rfl) ..) (by decide)
    exact .refl _ _
    exact .refl _ _
    refine .via ?_ (progDone_within ..) (by decide)
    refine .via ?_ (raise_within ..) (by decide)
    refine .via ?_ (setFlds_within ..) (by decide)
    refine .via ?_ (setBktState_within ..) (by decide)
    refine .via ?_ (within_flt ..) (by decide)
    refine .ite ?_ ?_
    refine .via ?_ (setFlds_within ..) (by decide)
    refine .via ?_ (within_trk (h := by rfl) ..) (by decide)
    refine .via ?_ (moveBooks_within ..) (by decide)
    refine .via ?_ (progAt_within ..) (by decide)
    refine .via ?_ (setFld_within ..) (by decide)
    refine .ite ?_ ?_
    refine .via ?_ (raise_within ..) (by decide)
    refine .via ?_ (bump_within ..) (by decide)
    refine .ite ?_ ?_
    refine .via ?_ (moveBooks_within ..) (by decide)
    refine .via ?_ (within_trk (h := by rfl) ..) (by decide)
    exact .refl _ _
    exact .refl _ _
    refine .ite ?_ ?_
    refine .via ?_ (moveBooks_within ..) (by decide)
    refine .via ?_ (within_trk (h := by rfl) ..) (by decide)
    exact .refl _ _
    exact .refl _ _
    refine .via ?_ (within_trk (h := by rfl) ..) (by decide)
    refine .via ?_ (moveBooks_within ..) (by decide)
    refine .via ?_ (progAt_within ..) (by decide)
    refine .via ?_ (setFld_within ..) (by decide)
    refine .ite ?_ ?_
    refine .via ?_ (raise_within ..) (by decide)
    refine .via ?_ (bump_within ..) (by decide)
    refine .ite ?_ ?_
    refine .via ?_ (moveBooks_within ..) (by decide)
    refine .via ?_ (within_trk (h := by rfl) ..) (by decide)
    exact .refl _ _
    exact .refl _ _
    refine .ite ?_ ?_
    refine .via ?_ (moveBooks_within ..) (by decide)
    refine .via ?_ (within_trk (h := by rfl) ..) (by decide)
    exact .refl _ _
    exact .refl _ _

theorem rejoinTwigs_within (n : Nat) (d : Dev) : Within [.regs] d (rejoinTwigs n d) := by
  unfold rejoinTwigs; try dsimp only
  with_reducible
    refine .ite ?_ ?_
    refine .foldl ?_ (fun _ _ => ?_)
    exact .refl _ _
    refine .ite ?_ ?_
    refine .via ?_ (setFld_within ..) (by decide)
    exact .refl _ _
    exact .refl _ _
    split
    refine .via ?_ (setFlds_within ..) (by decide)
    refine .foldl ?_ (fun _ _ => ?_)
    exact .refl _ _
    refine .ite ?_ ?_
    refine .via ?_ (setFld_within ..) (by decide)
    exact .refl _ _
    exact .refl _ _
    refine .via ?_ (setFld_within ..) (by decide)
    refine .foldl ?_ (fun _ _ => ?_)
    exact .refl _ _
    refine .ite ?_ ?_
    refine .via ?_ (setFld_within ..) (by decide)
    exact .refl _ _
    exact .refl _ _

theorem rejoinUnits_within (d : Dev) : Within [.regs, .usb, .root, .stem, .trk, .flt] d (rejoinUnits d) := by
  unfold rejoinUnits; try dsimp only
  with_reducible
    refine .via ?_ (updateAvail_within ..) (by decide)
    refine .foldl ?_ (fun _ _ => ?_)
    refine .via ?_ (within_flt ..) (by decide)
    exact .refl _ _
    refine .ite ?_ ?_
    exact .refl _ _
    refine .via ?_ (raise_within ..) (by decide)
    refine .ite ?_ ?_
    refine .via ?_ (setFld_within ..) (by decide)
    refine .ite ?_ ?_
    refine .via ?_ (rejoinTwigs_within ..) (by decide)
    refine .ite ?_ ?_
    refine .via ?_ (within_trk (h := by rfl) ..) (by decide)
    refine .via ?_ (setFld_within ..) (by decide)
    exact .refl _ _
    refine .via ?_ (setFld_within ..) (by decide)
    exact .refl _ _
    refine .ite ?_ ?_
    refine .via ?_ (within_trk (h := by rfl) ..) (by decide)
    refine .via ?_ (setFld_within ..) (by decide)
    exact .refl _ _
    refine .via ?_ (setFld_within ..) (by decide)
    exact .refl _ _
    refine .ite ?_ ?_
    refine .via ?_ (rejoinTwigs_within ..) (by decide)
    refine .ite ?_ ?_
    refine .via ?_ (within_trk (h := by rfl) ..) (by decide)
    refine .via ?_ (setFld_within ..) (by decide)
    exact .refl _ _
    refine .via ?_ (setFld_within ..) (by decide)
    exact .refl _ _
    refine .ite ?_ ?_
    refine .via ?_ (within_trk (h := by rfl) ..) (by decide)
    refine .via ?_ (setFld_within ..) (by decide)
    exact .refl _ _
    refine .via ?_ (setFld_within ..) (by decide)
    exact .refl _ _

theorem bucketLeakOp_within (n : Nat) (d : Dev) : Within [.flt] d (bucketLeakOp n d) := by
  unfold bucketLeakOp; try dsimp only
  with_reducible
    refine .ite ?_ ?_
    refine .via ?_ (setBucket_within ..) (by decide)
    exact .refl _ _
    exact .refl _ _

theorem parityErrs_within (nv : NonVol) (n : Nat) (words : List Nat) (d : Dev) : Within [.regs, .live, .clk, .usb, .ring, .root, .stem, .trk, .mem, .ras, .cnp, .inp, .cam, .flt, .br, .cells] d (parityErrs nv n words d) := by
  unfold parityErrs; try dsimp only
  with_reducible
    refine .foldl ?_ (fun _ _ => ?_)
    exact .refl _ _
    refine .via ?_ (recordError_within ..) (by decide)
    exact .refl _ _

theorem bufferErrs_within (nv : NonVol) (n : Nat) (errs : List MemErr) (d : Dev) : Within [.regs, .live, .clk, .usb, .ring, .root, .stem, .trk, .mem, .ras, .cnp, .inp, .cam, .flt, .br, .cells] d (bufferErrs nv n errs d) := by
  unfold bufferErrs; try dsimp only
  with_reducible
    refine .via ?_ (parityErrs_within ..) (by decide)
    exact .refl _ _

theorem cmdStat_within (d : Dev) (err u : Nat) : Within [.regs] d (cmdStat d err u) := by
  unfold cmdStat; try dsimp only
  with_reducible
    refine .via ?_ (setFlds_within ..) (by decide)
    exact .refl _ _

theorem windSee_within (d : Dev) (kind dir index : Nat) : Within [.flt] d (windSee d kind dir index) := by
  unfold windSee; try dsimp only
  with_reducible
    refine .foldl ?_ (fun _ _ => ?_)
    exact .refl _ _
    refine .ite ?_ ?_
    refine .via ?_ (within_flt ..) (by decide)
    exact .refl _ _
    exact .refl _ _

theorem windFire_within (d : Dev) (r : Nat) : Within [.regs, .usb, .root, .stem, .flt] d (windFire d r) := by
  unfold windFire; try dsimp only
  with_reducible
    refine .ite ?_ ?_
    refine .via ?_ (raise_within ..) (by decide)
    refine .via ?_ (setFld_within ..) (by decide)
    refine .via ?_ (bump_within ..) (by decide)
    refine .via ?_ (within_flt ..) (by decide)
    exact .refl _ _
    refine .via ?_ (bump_within ..) (by decide)
    refine .via ?_ (within_flt ..) (by decide)
    exact .refl _ _

theorem windOn_within (d : Dev) (kind dir index addr : Nat) : Within [.regs, .usb, .root, .stem, .flt] d (windOn d kind dir index addr).1 := by
  unfold windOn; try dsimp only
  with_reducible
    refine .ite_fst ?_ ?_
    refine .pair ?_
    exact .refl _ _
    refine .pair ?_
    split
    refine .via ?_ (windFire_within ..) (by decide)
    refine .via ?_ (windSee_within ..) (by decide)
    exact .refl _ _
    refine .via ?_ (windSee_within ..) (by decide)
    exact .refl _ _

theorem windOn_within' {d : Dev} {kind dir index addr : Nat} {z' : Dev} {y' : Option (Nat × Nat)} (h : windOn d kind dir index addr = (z', y')) : Within [.regs, .usb, .root, .stem, .flt] d z' := by
  have w' := windOn_within d kind dir index addr
  rw [h] at w'; exact w'

theorem usbPacket_within (ep : Nat) (d : Dev) : Within [.regs, .usb, .root, .stem, .flt] d (usbPacket ep d) := by
  unfold usbPacket; try dsimp only
  with_reducible
    refine .via ?_ (windOn_within ..) (by decide)
    exact .refl _ _

theorem trunkErr_within (nv : NonVol) (line : Nat) (bad : Bool) (d : Dev) : Within [.regs, .live, .clk, .usb, .ring, .root, .stem, .trk, .mem, .ras, .cnp, .inp, .cam, .flt, .br, .cells] d (trunkErr nv line bad d) := by
  unfold trunkErr; try dsimp only
  with_reducible
    refine .ite ?_ ?_
    refine .via ?_ (recordError_within ..) (by decide)
    refine .via ?_ (raise_within ..) (by decide)
    refine .via ?_ (bump_within ..) (by decide)
    exact .refl _ _
    refine .via ?_ (recordError_within ..) (by decide)
    refine .via ?_ (bump_within ..) (by decide)
    exact .refl _ _

theorem trunkErrs_within (nv : NonVol) (errs : List MemErr) (d : Dev) : Within [.regs, .live, .clk, .usb, .ring, .root, .stem, .trk, .mem, .ras, .cnp, .inp, .cam, .flt, .br, .cells] d (trunkErrs nv errs d) := by
  unfold trunkErrs; try dsimp only
  with_reducible
    refine .foldl ?_ (fun _ _ => ?_)
    exact .refl _ _
    refine .ite ?_ ?_
    refine .via ?_ (trunkErr_within ..) (by decide)
    exact .refl _ _
    exact .refl _ _

theorem plantTrunk_within (errs : List MemErr) (d : Dev) : Within [.mem] d (plantTrunk errs d) := by
  unfold plantTrunk; try dsimp only
  with_reducible
    refine .foldl ?_ (fun _ _ => ?_)
    exact .refl _ _
    refine .ite ?_ ?_
    refine .via ?_ (writeMem_within ..) (by decide)
    exact .refl _ _
    exact .refl _ _

theorem lp6AreaOp_within (value : Word) (d : Dev) : Within [.regs] d (lp6AreaOp value d) := by
  unfold lp6AreaOp; try dsimp only
  with_reducible
    refine .ite ?_ ?_
    refine .via ?_ (setFld_within ..) (by decide)
    exact .refl _ _
    exact .refl _ _

theorem fenceOp_within (nv : NonVol) (u : Nat) (d : Dev) : Within [.regs, .live, .clk, .usb, .ring, .root, .stem, .trk, .mem, .ras, .cnp, .inp, .cam, .flt, .br, .cells] d (fenceOp nv u d) := by
  unfold fenceOp; try dsimp only
  with_reducible
    refine .ite ?_ ?_
    refine .via ?_ (cmdStat_within ..) (by decide)
    exact .refl _ _
    refine .ite ?_ ?_
    refine .via ?_ (cmdStat_within ..) (by decide)
    exact .refl _ _
    refine .ite ?_ ?_
    refine .via ?_ (cmdStat_within ..) (by decide)
    exact .refl _ _
    refine .ite ?_ ?_
    refine .via ?_ (cmdStat_within ..) (by decide)
    exact .refl _ _
    refine .via ?_ (fenceUnit_within ..) (by decide)
    refine .via ?_ (cmdStat_within ..) (by decide)
    refine .via ?_ (within_flt ..) (by decide)
    exact .refl _ _

theorem unfenceOp_within (nv : NonVol) (u : Nat) (d : Dev) : Within [.regs, .flt] d (unfenceOp nv u d) := by
  unfold unfenceOp; try dsimp only
  with_reducible
    refine .ite ?_ ?_
    refine .via ?_ (cmdStat_within ..) (by decide)
    exact .refl _ _
    refine .ite ?_ ?_
    refine .via ?_ (cmdStat_within ..) (by decide)
    exact .refl _ _
    refine .ite ?_ ?_
    refine .via ?_ (cmdStat_within ..) (by decide)
    exact .refl _ _
    refine .ite ?_ ?_
    refine .via ?_ (cmdStat_within ..) (by decide)
    exact .refl _ _
    refine .via ?_ (cmdStat_within ..) (by decide)
    refine .via ?_ (within_flt ..) (by decide)
    exact .refl _ _

theorem retireOp_within (nv : NonVol) (u sub : Nat) (twig : Bool) (d : Dev) : Within [.regs, .live, .clk, .usb, .ring, .root, .stem, .trk, .mem, .ras, .cnp, .inp, .cam, .flt, .br, .cells] d (retireOp nv u sub twig d) := by
  unfold retireOp; try dsimp only
  with_reducible
    refine .ite ?_ ?_
    refine .via ?_ (cmdStat_within ..) (by decide)
    exact .refl _ _
    split
    refine .via ?_ (cmdStat_within ..) (by decide)
    exact .refl _ _
    refine .ite ?_ ?_
    refine .via ?_ (cmdStat_within ..) (by decide)
    exact .refl _ _
    refine .ite ?_ ?_
    refine .via ?_ (cmdStat_within ..) (by decide)
    exact .refl _ _
    refine .via ?_ (recordError_within ..) (by decide)
    refine .via ?_ (cmdStat_within ..) (by decide)
    exact .refl _ _

theorem fltCmdWrite_within (nv : NonVol) (value : Word) (d : Dev) : Within [.regs, .live, .clk, .usb, .ring, .root, .stem, .trk, .mem, .ras, .cnp, .inp, .cam, .flt, .br, .cells] d (fltCmdWrite nv value d) := by
  unfold fltCmdWrite; try dsimp only
  with_reducible
    split
    refine .ite ?_ ?_
    refine .via ?_ (cmdStat_within ..) (by decide)
    exact .refl _ _
    refine .via ?_ (fenceOp_within ..) (by decide)
    exact .refl _ _
    refine .ite ?_ ?_
    refine .via ?_ (cmdStat_within ..) (by decide)
    exact .refl _ _
    refine .via ?_ (unfenceOp_within ..) (by decide)
    exact .refl _ _
    refine .via ?_ (retireOp_within ..) (by decide)
    exact .refl _ _
    exact .refl _ _

theorem windArmOp_within (nv : NonVol) (r : Nat) (value : Word) (d : Dev) : Within [.regs, .flt] d (windArmOp nv r value d) := by
  unfold windArmOp; try dsimp only
  with_reducible
    refine .ite ?_ ?_
    refine .via ?_ (setFld_within ..) (by decide)
    refine .ite ?_ ?_
    exact .refl _ _
    refine .via ?_ (setFld_within ..) (by decide)
    exact .refl _ _
    refine .ite ?_ ?_
    refine .ite ?_ ?_
    exact .refl _ _
    refine .via ?_ (setFld_within ..) (by decide)
    exact .refl _ _
    refine .ite ?_ ?_
    refine .via ?_ (setFlds_within ..) (by decide)
    refine .via ?_ (within_flt ..) (by decide)
    refine .ite ?_ ?_
    exact .refl _ _
    refine .via ?_ (setFld_within ..) (by decide)
    exact .refl _ _
    refine .via ?_ (setFld_within ..) (by decide)
    refine .ite ?_ ?_
    exact .refl _ _
    refine .via ?_ (setFld_within ..) (by decide)
    exact .refl _ _

theorem laneFails_within (nv : NonVol) (q : Nat) (lane : Option (Fin 4)) (d : Dev) : Within [.regs, .live, .clk, .usb, .ring, .root, .stem, .trk, .mem, .ras, .cnp, .inp, .cam, .flt, .br, .cells] d (laneFails nv q lane d) := by
  unfold laneFails; try dsimp only
  with_reducible
    split
    refine .via ?_ (recordError_within ..) (by decide)
    exact .refl _ _
    exact .refl _ _

theorem storeErr_within (nv : NonVol) (n w : Nat) (bad : Bool) (arg : Nat) (d : Dev) : Within [.regs, .live, .clk, .usb, .ring, .root, .stem, .trk, .mem, .ras, .cnp, .inp, .cam, .flt, .br, .cells] d (storeErr nv n w bad arg d) := by
  unfold storeErr; try dsimp only
  with_reducible
    refine .ite ?_ ?_
    refine .via ?_ (recordError_within ..) (by decide)
    refine .via ?_ (raise_within ..) (by decide)
    refine .via ?_ (bump_within ..) (by decide)
    exact .refl _ _
    refine .via ?_ (recordError_within ..) (by decide)
    refine .via ?_ (bump_within ..) (by decide)
    exact .refl _ _

theorem fetchDoneOp_within (nv : NonVol) (sp v : Nat) (d : Dev) : Within [.regs, .usb, .ring, .root, .stem, .trk, .mem, .cam, .flt, .br, .cells] d (fetchDoneOp nv sp v d) := by
  unfold fetchDoneOp; try dsimp only
  with_reducible
    refine .ite ?_ ?_
    refine .via ?_ (pageFetchDoneOp_within ..) (by decide)
    exact .refl _ _
    refine .via ?_ (closeFrames_within ..) (by decide)
    refine .foldl ?_ (fun _ _ => ?_)
    refine .via ?_ (pageFetchDoneOp_within ..) (by decide)
    exact .refl _ _
    refine .via ?_ (endTask_within ..) (by decide)
    exact .refl _ _

theorem scrubPassStartOp_within (d : Dev) : Within [.regs, .root, .trk] d (scrubPassStartOp d) := by
  unfold scrubPassStartOp; try dsimp only
  with_reducible
    refine .ite ?_ ?_
    refine .via ?_ (progStart_within ..) (by decide)
    refine .via ?_ (within_trk (h := by rfl) ..) (by decide)
    exact .refl _ _
    exact .refl _ _

theorem scrubLineOp_within (nv : NonVol) (corr bad : Nat) (d : Dev) : Within [.regs, .live, .clk, .usb, .ring, .root, .stem, .trk, .mem, .ras, .cnp, .inp, .cam, .flt, .br, .cells] d (scrubLineOp nv corr bad d) := by
  unfold scrubLineOp; try dsimp only
  with_reducible
    split
    exact .refl _ _
    refine .ite ?_ ?_
    exact .refl _ _
    refine .ite ?_ ?_
    refine .ite ?_ ?_
    refine .via ?_ (progSet_within ..) (by decide)
    refine .via ?_ (within_trk (h := by rfl) ..) (by decide)
    refine .foldl ?_ (fun _ _ => ?_)
    refine .foldl ?_ (fun _ _ => ?_)
    exact .refl _ _
    refine .via ?_ (trunkErr_within ..) (by decide)
    exact .refl _ _
    refine .via ?_ (trunkErr_within ..) (by decide)
    exact .refl _ _
    refine .via ?_ (within_trk (h := by rfl) ..) (by decide)
    refine .foldl ?_ (fun _ _ => ?_)
    refine .foldl ?_ (fun _ _ => ?_)
    exact .refl _ _
    refine .via ?_ (trunkErr_within ..) (by decide)
    exact .refl _ _
    refine .via ?_ (trunkErr_within ..) (by decide)
    exact .refl _ _
    refine .via ?_ (progDone_within ..) (by decide)
    refine .via ?_ (within_trk (h := by rfl) ..) (by decide)
    refine .foldl ?_ (fun _ _ => ?_)
    refine .foldl ?_ (fun _ _ => ?_)
    exact .refl _ _
    refine .via ?_ (trunkErr_within ..) (by decide)
    exact .refl _ _
    refine .via ?_ (trunkErr_within ..) (by decide)
    exact .refl _ _

theorem lp6Word_within (nv : NonVol) (c a outcome : Nat) (d : Dev) : Within [.regs, .live, .clk, .usb, .ring, .root, .stem, .trk, .mem, .ras, .cnp, .inp, .cam, .flt, .br, .cells] d (lp6Word nv c a outcome d) := by
  unfold lp6Word; try dsimp only
  with_reducible
    split
    exact .refl _ _
    refine .via ?_ (recordError_within ..) (by decide)
    refine .via ?_ (bump_within ..) (by decide)
    exact .refl _ _
    refine .via ?_ (recordError_within ..) (by decide)
    refine .via ?_ (raise_within ..) (by decide)
    refine .via ?_ (setFlds_within ..) (by decide)
    refine .via ?_ (bump_within ..) (by decide)
    refine .via ?_ (bump_within ..) (by decide)
    exact .refl _ _
    refine .via ?_ (recordError_within ..) (by decide)
    refine .via ?_ (raise_within ..) (by decide)
    refine .via ?_ (setFlds_within ..) (by decide)
    refine .via ?_ (bump_within ..) (by decide)
    exact .refl _ _

theorem lp6ReadDoneOp_within (nv : NonVol) (a outcome : Nat) (link : Bool) (d : Dev) : Within [.regs, .live, .clk, .usb, .ring, .root, .stem, .trk, .mem, .ras, .cnp, .inp, .cam, .flt, .br, .cells] d (lp6ReadDoneOp nv a outcome link d) := by
  unfold lp6ReadDoneOp; try dsimp only
  with_reducible
    refine .ite ?_ ?_
    exact .refl _ _
    refine .via ?_ (lp6Word_within ..) (by decide)
    refine .ite ?_ ?_
    refine .foldl ?_ (fun _ _ => ?_)
    refine .ite ?_ ?_
    refine .via ?_ (recordError_within ..) (by decide)
    refine .via ?_ (bump_within ..) (by decide)
    refine .via ?_ (windOn_within ..) (by decide)
    exact .refl _ _
    refine .via ?_ (windOn_within ..) (by decide)
    exact .refl _ _
    refine .via ?_ (mapTask_within ..) (by decide)
    exact .refl _ _
    refine .ite ?_ ?_
    refine .via ?_ (recordError_within ..) (by decide)
    refine .via ?_ (bump_within ..) (by decide)
    refine .via ?_ (windOn_within ..) (by decide)
    exact .refl _ _
    refine .via ?_ (windOn_within ..) (by decide)
    exact .refl _ _

theorem lp6RefreshOp_within (c cls : Nat) (d : Dev) : Within [.regs] d (lp6RefreshOp c cls d) := by
  unfold lp6RefreshOp; try dsimp only
  with_reducible
    refine .via ?_ (setFld_within ..) (by decide)
    exact .refl _ _

theorem lp6GranuleOp_within (nv : NonVol) (words : List (Nat × Nat)) (d : Dev) : Within [.regs, .live, .clk, .usb, .ring, .root, .stem, .trk, .mem, .ras, .cnp, .inp, .cam, .flt, .br, .cells] d (lp6GranuleOp nv words d) := by
  unfold lp6GranuleOp; try dsimp only
  with_reducible
    refine .ite ?_ ?_
    exact .refl _ _
    refine .ite ?_ ?_
    refine .via ?_ (progAt_within ..) (by decide)
    refine .via ?_ (setFld_within ..) (by decide)
    refine .foldl ?_ (fun _ _ => ?_)
    refine .via ?_ (within_trk (h := by rfl) ..) (by decide)
    exact .refl _ _
    refine .via ?_ (lp6Word_within ..) (by decide)
    exact .refl _ _
    refine .via ?_ (progDone_within ..) (by decide)
    refine .via ?_ (raise_within ..) (by decide)
    refine .via ?_ (setFld_within ..) (by decide)
    refine .via ?_ (setBktState_within ..) (by decide)
    refine .via ?_ (within_flt ..) (by decide)
    refine .via ?_ (progAt_within ..) (by decide)
    refine .via ?_ (setFld_within ..) (by decide)
    refine .foldl ?_ (fun _ _ => ?_)
    refine .via ?_ (within_trk (h := by rfl) ..) (by decide)
    exact .refl _ _
    refine .via ?_ (lp6Word_within ..) (by decide)
    exact .refl _ _

theorem retirementStartOp_within (nv : NonVol) (k : Nat) (d : Dev) : Within [.regs, .live, .clk, .usb, .ring, .root, .stem, .trk, .mem, .ras, .cnp, .inp, .cam, .flt, .br, .cells] d (retirementStartOp nv k d) := by
  unfold retirementStartOp; try dsimp only
  with_reducible
    refine .ite ?_ ?_
    exact .refl _ _
    split
    exact .refl _ _
    refine .via ?_ (actPermanent_within ..) (by decide)
    refine .via ?_ (within_flt ..) (by decide)
    exact .refl _ _

theorem setLink_within (d : Dev) (l : Nat) (x : Link) : Within [.flt] d (setLink d l x) := by
  unfold setLink; try dsimp only
  with_reducible
    refine .via ?_ (within_flt ..) (by decide)
    exact .refl _ _

theorem linkFailure_within (nv : NonVol) (l : Nat) (d : Dev) : Within [.regs, .live, .clk, .usb, .ring, .root, .stem, .trk, .mem, .ras, .cnp, .inp, .cam, .flt, .br, .cells] d (linkFailure nv l d) := by
  unfold linkFailure; try dsimp only
  with_reducible
    refine .ite ?_ ?_
    refine .via ?_ (recordError_within ..) (by decide)
    refine .via ?_ (setLink_within ..) (by decide)
    exact .refl _ _
    refine .via ?_ (recordError_within ..) (by decide)
    refine .ite ?_ ?_
    refine .via ?_ (raise_within ..) (by decide)
    refine .via ?_ (setLink_within ..) (by decide)
    exact .refl _ _
    refine .via ?_ (setLink_within ..) (by decide)
    exact .refl _ _

theorem linkReceive_within (nv : NonVol) (l seq crc : Nat) (payload : Bytes) (d : Dev) : Within [.regs, .live, .clk, .usb, .ring, .root, .stem, .trk, .mem, .ras, .cnp, .inp, .cam, .flt, .br, .cells] d (linkReceive nv l seq crc payload d) := by
  unfold linkReceive; try dsimp only
  with_reducible
    refine .ite ?_ ?_
    refine .via ?_ (setLink_within ..) (by decide)
    exact .refl _ _
    refine .ite ?_ ?_
    refine .via ?_ (setLink_within ..) (by decide)
    exact .refl _ _
    refine .via ?_ (linkFailure_within ..) (by decide)
    refine .via ?_ (setLink_within ..) (by decide)
    exact .refl _ _

theorem flitReceivedOp_within (nv : NonVol) (l seq crc : Nat) (payload : Bytes) (d : Dev) : Within [.regs, .live, .clk, .usb, .ring, .root, .stem, .trk, .mem, .ras, .cnp, .inp, .cam, .flt, .br, .cells] d (flitReceivedOp nv l seq crc payload d) := by
  unfold flitReceivedOp; try dsimp only
  with_reducible
    refine .ite ?_ ?_
    exact .refl _ _
    split
    refine .via ?_ (linkReceive_within ..) (by decide)
    split
    refine .via ?_ (setLink_within ..) (by decide)
    refine .via ?_ (windOn_within ..) (by decide)
    refine .via ?_ (setLink_within ..) (by decide)
    exact .refl _ _
    refine .via ?_ (linkReceive_within ..) (by decide)
    refine .via ?_ (windOn_within ..) (by decide)
    refine .via ?_ (setLink_within ..) (by decide)
    exact .refl _ _
    refine .via ?_ (setLink_within ..) (by decide)
    refine .via ?_ (windOn_within ..) (by decide)
    refine .via ?_ (setLink_within ..) (by decide)
    exact .refl _ _
    refine .via ?_ (linkReceive_within ..) (by decide)
    refine .via ?_ (windOn_within ..) (by decide)
    refine .via ?_ (setLink_within ..) (by decide)
    exact .refl _ _
    split
    refine .via ?_ (setLink_within ..) (by decide)
    refine .via ?_ (windOn_within ..) (by decide)
    refine .via ?_ (setLink_within ..) (by decide)
    exact .refl _ _
    refine .via ?_ (linkReceive_within ..) (by decide)
    refine .via ?_ (windOn_within ..) (by decide)
    refine .via ?_ (setLink_within ..) (by decide)
    exact .refl _ _
    refine .via ?_ (setLink_within ..) (by decide)
    refine .via ?_ (windOn_within ..) (by decide)
    refine .via ?_ (setLink_within ..) (by decide)
    exact .refl _ _
    refine .via ?_ (linkReceive_within ..) (by decide)
    refine .via ?_ (windOn_within ..) (by decide)
    refine .via ?_ (setLink_within ..) (by decide)
    exact .refl _ _

theorem flitAckTimeoutOp_within (nv : NonVol) (l : Nat) (d : Dev) : Within [.regs, .live, .clk, .usb, .ring, .root, .stem, .trk, .mem, .ras, .cnp, .inp, .cam, .flt, .br, .cells] d (flitAckTimeoutOp nv l d) := by
  unfold flitAckTimeoutOp; try dsimp only
  with_reducible
    refine .ite ?_ ?_
    exact .refl _ _
    refine .via ?_ (linkFailure_within ..) (by decide)
    exact .refl _ _

theorem flitResendOp_within (l : Nat) (d : Dev) : Within [.flt] d (flitResendOp l d) := by
  unfold flitResendOp; try dsimp only
  with_reducible
    refine .ite ?_ ?_
    refine .via ?_ (setLink_within ..) (by decide)
    exact .refl _ _
    exact .refl _ _

end Sys2Proof.Machine
end

