-- ==== Sys2Proof/Laws/ClockFrame.lean ====
section
/-! SUPPORT. What each operation of Machine/Clock.lean may change. -/

namespace Sys2Proof.Machine

theorem aclkStep_within (nv : NonVol) (step : Nat) (d : Dev) : Within [.regs, .usb, .root, .stem] d (aclkStep nv step d) := by
  unfold aclkStep; try dsimp only
  with_reducible
    refine .via ?_ (reevaluate_within ..) (by decide)
    refine .via ?_ (raise_within ..) (by decide)
    refine .via ?_ (bump_within ..) (by decide)
    refine .via ?_ (setFld_within ..) (by decide)
    exact .refl _ _

theorem reportLead_within (want l : Nat) (d : Dev) : Within [.regs, .usb, .root, .stem] d (reportLead want l d) := by
  unfold reportLead; try dsimp only
  with_reducible
    refine .ite ?_ ?_
    refine .via ?_ (setFld_within ..) (by decide)
    exact .refl _ _
    refine .via ?_ (raise_within ..) (by decide)
    refine .via ?_ (setFld_within ..) (by decide)
    exact .refl _ _

theorem setLead_within (d : Dev) : Within [.regs, .usb, .root, .stem, .ras] d (setLead d) := by
  unfold setLead; try dsimp only
  with_reducible
    refine .ite ?_ ?_
    exact .refl _ _
    refine .via ?_ (reportLead_within ..) (by decide)
    refine .via ?_ (within_ras ..) (by decide)
    exact .refl _ _

theorem clkCapOp_within (nv : NonVol) (value : Word) (d : Dev) : Within [.regs, .usb, .root, .stem] d (clkCapOp nv value d) := by
  unfold clkCapOp; try dsimp only
  with_reducible
    refine .via ?_ (reevaluate_within ..) (by decide)
    refine .via ?_ (setFld_within ..) (by decide)
    exact .refl _ _

theorem holdReset_within (why : Nat) (d : Dev) : Within [.regs, .live, .hold, .devTime, .held, .boot, .clk, .usb, .ring, .root, .stem, .trk, .mem, .ras, .cnp, .inp, .cam, .flt, .br, .cells, .grv, .free] d (holdReset why d) := by
  unfold holdReset; try dsimp only
  with_reducible
    refine .via ?_ (within_held ..) (by decide)
    exact .mono (reset_within _) (by decide)

theorem selfTestBank_within (p : Nat) (d : Dev) : Within [.regs, .flt] d (selfTestBank p d) := by
  unfold selfTestBank; try dsimp only
  with_reducible
    split
    refine .via ?_ (setBktState_within ..) (by decide)
    refine .via ?_ (setFlds_within ..) (by decide)
    exact .refl _ _
    exact .refl _ _

theorem selfTest_within (nv : NonVol) (failed : List Nat) (d : Dev) : Within [.regs, .live, .clk, .usb, .ring, .root, .stem, .trk, .mem, .ras, .cnp, .inp, .cam, .flt, .br, .cells] d (selfTest nv failed d) := by
  unfold selfTest; try dsimp only
  with_reducible
    refine .foldl ?_ (fun _ _ => ?_)
    refine .foldl ?_ (fun _ _ => ?_)
    exact .refl _ _
    refine .via ?_ (setBktState_within ..) (by decide)
    exact .refl _ _
    refine .ite ?_ ?_
    refine .via ?_ (fenceUnit_within ..) (by decide)
    refine .via ?_ (raise_within ..) (by decide)
    exact .refl _ _
    refine .foldl ?_ (fun _ _ => ?_)
    exact .refl _ _
    refine .via ?_ (selfTestBank_within ..) (by decide)
    exact .refl _ _

theorem startRaster_within (d : Dev) : Within [.regs, .usb, .ring, .root, .stem, .ras] d (startRaster d) := by
  unfold startRaster; try dsimp only
  with_reducible
    refine .via ?_ (setLead_within ..) (by decide)
    refine .via ?_ (latchBase_within ..) (by decide)
    refine .via ?_ (within_ras ..) (by decide)
    refine .via ?_ (setFld_within ..) (by decide)
    exact .refl _ _

theorem selfTestDoneOp_within (nv : NonVol) (failed : List Nat) (d : Dev) : Within [.regs, .live, .boot, .clk, .usb, .ring, .root, .stem, .trk, .mem, .ras, .cnp, .inp, .cam, .flt, .br, .cells] d (selfTestDoneOp nv failed d) := by
  unfold selfTestDoneOp; try dsimp only
  with_reducible
    refine .ite ?_ ?_
    exact .refl _ _
    refine .via ?_ (progStart_within ..) (by decide)
    refine .ite ?_ ?_
    refine .via ?_ (raise_within ..) (by decide)
    refine .via ?_ (within_clk ..) (by decide)
    refine .ite ?_ ?_
    refine .via ?_ (stumpSettings_within ..) (by decide)
    refine .via ?_ (startRaster_within ..) (by decide)
    refine .via ?_ (placeUnd_within ..) (by decide)
    refine .via ?_ (within_boot ..) (by decide)
    refine .via ?_ (progDone_within ..) (by decide)
    refine .via ?_ (selfTest_within ..) (by decide)
    exact .refl _ _
    refine .via ?_ (startRaster_within ..) (by decide)
    refine .via ?_ (placeUnd_within ..) (by decide)
    refine .via ?_ (within_boot ..) (by decide)
    refine .via ?_ (progDone_within ..) (by decide)
    refine .via ?_ (selfTest_within ..) (by decide)
    exact .refl _ _
    refine .ite ?_ ?_
    refine .via ?_ (stumpSettings_within ..) (by decide)
    refine .via ?_ (startRaster_within ..) (by decide)
    refine .via ?_ (placeUnd_within ..) (by decide)
    refine .via ?_ (within_boot ..) (by decide)
    refine .via ?_ (progDone_within ..) (by decide)
    refine .via ?_ (selfTest_within ..) (by decide)
    exact .refl _ _
    refine .via ?_ (startRaster_within ..) (by decide)
    refine .via ?_ (placeUnd_within ..) (by decide)
    refine .via ?_ (within_boot ..) (by decide)
    refine .via ?_ (progDone_within ..) (by decide)
    refine .via ?_ (selfTest_within ..) (by decide)
    exact .refl _ _

theorem lp6TrainingDoneOp_within (rate density : Nat) (failed : List Nat) (d : Dev) : Within [.regs, .boot, .usb, .root, .stem, .flt] d (lp6TrainingDoneOp rate density failed d) := by
  unfold lp6TrainingDoneOp; try dsimp only
  with_reducible
    refine .ite ?_ ?_
    exact .refl _ _
    refine .ite ?_ ?_
    refine .via ?_ (raise_within ..) (by decide)
    refine .via ?_ (setFlds_within ..) (by decide)
    split
    refine .via ?_ (setFlds_within ..) (by decide)
    refine .via ?_ (within_flt ..) (by decide)
    refine .foldl ?_ (fun _ _ => ?_)
    refine .via ?_ (progDone_within ..) (by decide)
    refine .via ?_ (within_boot ..) (by decide)
    exact .refl _ _
    refine .via ?_ (setFld_within ..) (by decide)
    refine .via ?_ (setBktState_within ..) (by decide)
    refine .via ?_ (countError_within ..) (by decide)
    exact .refl _ _
    refine .via ?_ (within_flt ..) (by decide)
    refine .foldl ?_ (fun _ _ => ?_)
    refine .via ?_ (progDone_within ..) (by decide)
    refine .via ?_ (within_boot ..) (by decide)
    exact .refl _ _
    refine .via ?_ (setFld_within ..) (by decide)
    refine .via ?_ (setBktState_within ..) (by decide)
    refine .via ?_ (countError_within ..) (by decide)
    exact .refl _ _
    refine .via ?_ (raise_within ..) (by decide)
    refine .via ?_ (raise_within ..) (by decide)
    refine .via ?_ (setFlds_within ..) (by decide)
    split
    refine .via ?_ (setFlds_within ..) (by decide)
    refine .via ?_ (within_flt ..) (by decide)
    refine .foldl ?_ (fun _ _ => ?_)
    refine .via ?_ (progDone_within ..) (by decide)
    refine .via ?_ (within_boot ..) (by decide)
    exact .refl _ _
    refine .via ?_ (setFld_within ..) (by decide)
    refine .via ?_ (setBktState_within ..) (by decide)
    refine .via ?_ (countError_within ..) (by decide)
    exact .refl _ _
    refine .via ?_ (within_flt ..) (by decide)
    refine .foldl ?_ (fun _ _ => ?_)
    refine .via ?_ (progDone_within ..) (by decide)
    refine .via ?_ (within_boot ..) (by decide)
    exact .refl _ _
    refine .via ?_ (setFld_within ..) (by decide)
    refine .via ?_ (setBktState_within ..) (by decide)
    refine .via ?_ (countError_within ..) (by decide)
    exact .refl _ _

theorem govAction_within (nv : NonVol) (floor : Nat) (d : Dev) : Within [.regs, .clk, .usb, .root, .stem] d (govAction nv floor d).1 := by
  unfold govAction; try dsimp only
  with_reducible
    split
    refine .pair ?_
    refine .via ?_ (within_clk ..) (by decide)
    refine .via ?_ (setFld_within ..) (by decide)
    exact .refl _ _
    refine .ite_fst ?_ ?_
    refine .pair ?_
    refine .via ?_ (aclkStep_within ..) (by decide)
    refine .via ?_ (within_clk ..) (by decide)
    exact .refl _ _
    refine .pair ?_
    exact .refl _ _

theorem govAction_within' {nv : NonVol} {floor : Nat} {d : Dev} {z' : Dev} {y' : Bool} (h : govAction nv floor d = (z', y')) : Within [.regs, .clk, .usb, .root, .stem] d z' := by
  have w' := govAction_within nv floor d
  rw [h] at w'; exact w'

theorem govCritical_within (nv : NonVol) (d : Dev) : Within [.regs, .clk, .usb, .root, .stem] d (govCritical nv d) := by
  unfold govCritical; try dsimp only
  with_reducible
    refine .foldl ?_ (fun _ _ => ?_)
    exact .refl _ _
    refine .via ?_ (govAction_within ..) (by decide)
    exact .refl _ _

theorem govReport_within (code arg : Nat) (d : Dev) : Within [.regs, .clk, .usb, .root, .stem] d (govReport code arg d) := by
  unfold govReport; try dsimp only
  with_reducible
    refine .ite ?_ ?_
    refine .via ?_ (raise_within ..) (by decide)
    refine .via ?_ (within_clk ..) (by decide)
    exact .refl _ _
    exact .refl _ _

theorem govPaced_within (nv : NonVol) (floor code arg : Nat) (d : Dev) : Within [.regs, .clk, .usb, .root, .stem] d (govPaced nv floor code arg d) := by
  unfold govPaced; try dsimp only
  with_reducible
    refine .ite ?_ ?_
    exact .refl _ _
    refine .ite ?_ ?_
    refine .via ?_ (within_clk ..) (by decide)
    refine .via ?_ (govAction_within ..) (by decide)
    exact .refl _ _
    refine .via ?_ (govReport_within ..) (by decide)
    refine .via ?_ (govAction_within ..) (by decide)
    exact .refl _ _

theorem govUndo_within (nv : NonVol) (d : Dev) : Within [.regs, .clk, .usb, .root, .stem] d (govUndo nv d) := by
  unfold govUndo; try dsimp only
  with_reducible
    split
    exact .refl _ _
    refine .ite ?_ ?_
    exact .refl _ _
    refine .via ?_ (aclkStep_within ..) (by decide)
    refine .via ?_ (within_clk ..) (by decide)
    exact .refl _ _
    refine .via ?_ (within_clk ..) (by decide)
    refine .via ?_ (setFld_within ..) (by decide)
    exact .refl _ _

theorem powerWindowOp_within (nv : NonVol) (p : Nat) (tj : Int) (d : Dev) : Within [.regs, .clk, .usb, .root, .stem] d (powerWindowOp nv p tj d) := by
  unfold powerWindowOp; try dsimp only
  with_reducible
    refine .ite ?_ ?_
    refine .via ?_ (within_clk ..) (by decide)
    refine .via ?_ (setFlds_within ..) (by decide)
    exact .refl _ _
    refine .ite ?_ ?_
    refine .ite ?_ ?_
    refine .via ?_ (govReport_within ..) (by decide)
    refine .via ?_ (govCritical_within ..) (by decide)
    refine .via ?_ (setFld_within ..) (by decide)
    refine .via ?_ (within_clk ..) (by decide)
    refine .via ?_ (setFlds_within ..) (by decide)
    exact .refl _ _
    refine .via ?_ (govCritical_within ..) (by decide)
    refine .via ?_ (setFld_within ..) (by decide)
    refine .via ?_ (within_clk ..) (by decide)
    refine .via ?_ (setFlds_within ..) (by decide)
    exact .refl _ _
    refine .ite ?_ ?_
    refine .via ?_ (govPaced_within ..) (by decide)
    refine .via ?_ (setFld_within ..) (by decide)
    refine .via ?_ (within_clk ..) (by decide)
    refine .via ?_ (setFlds_within ..) (by decide)
    exact .refl _ _
    refine .ite ?_ ?_
    refine .via ?_ (govPaced_within ..) (by decide)
    refine .via ?_ (setFld_within ..) (by decide)
    refine .via ?_ (within_clk ..) (by decide)
    refine .via ?_ (setFlds_within ..) (by decide)
    exact .refl _ _
    refine .ite ?_ ?_
    refine .via ?_ (setFld_within ..) (by decide)
    refine .ite ?_ ?_
    refine .via ?_ (govUndo_within ..) (by decide)
    refine .via ?_ (within_clk ..) (by decide)
    refine .via ?_ (setFlds_within ..) (by decide)
    exact .refl _ _
    refine .via ?_ (within_clk ..) (by decide)
    refine .via ?_ (setFlds_within ..) (by decide)
    exact .refl _ _
    refine .ite ?_ ?_
    refine .via ?_ (govUndo_within ..) (by decide)
    refine .via ?_ (within_clk ..) (by decide)
    refine .via ?_ (setFlds_within ..) (by decide)
    exact .refl _ _
    refine .via ?_ (within_clk ..) (by decide)
    refine .via ?_ (setFlds_within ..) (by decide)
    exact .refl _ _

end Sys2Proof.Machine
end

