-- ==== Sys2Proof/Laws/IntakeFrame.lean ====
section
/-! SUPPORT. What each operation of Machine/Intake.lean may change. -/

namespace Sys2Proof.Machine

theorem loadHdr_within (p ifn : Nat) (d : Dev) : Within [.regs, .usb, .root, .stem, .inp] d (loadHdr p ifn d) := by
  unfold loadHdr; try dsimp only
  with_reducible
    split
    exact .refl _ _
    refine .ite ?_ ?_
    refine .via ?_ (setReg_within ..) (by decide)
    refine .foldl ?_ (fun _ _ => ?_)
    refine .via ?_ (setPort_within ..) (by decide)
    exact .refl _ _
    refine .via ?_ (setReg_within ..) (by decide)
    exact .refl _ _
    refine .via ?_ (raise_within ..) (by decide)
    refine .via ?_ (setReg_within ..) (by decide)
    refine .foldl ?_ (fun _ _ => ?_)
    refine .via ?_ (setPort_within ..) (by decide)
    exact .refl _ _
    refine .via ?_ (setReg_within ..) (by decide)
    exact .refl _ _

theorem noteRestart_within (p ifn : Nat) (d : Dev) : Within [.stem] d (noteRestart p ifn d) := by
  unfold noteRestart; try dsimp only
  with_reducible
    split
    refine .ite ?_ ?_
    refine .via ?_ (within_stem ..) (by decide)
    exact .refl _ _
    exact .refl _ _
    exact .refl _ _

theorem uiTurn_within (p : Nat) (d : Dev) : Within [.cnp] d (uiTurn p d) := by
  unfold uiTurn; try dsimp only
  with_reducible
    refine .ite ?_ ?_
    split
    refine .via ?_ (within_cnp ..) (by decide)
    exact .refl _ _
    exact .refl _ _
    exact .refl _ _

theorem claimSlot_within (p ifn : Nat) (d : Dev) : Within [.inp] d (claimSlot p ifn d) := by
  unfold claimSlot; try dsimp only
  with_reducible
    split
    refine .ite ?_ ?_
    refine .via ?_ (within_inp ..) (by decide)
    exact .refl _ _
    exact .refl _ _
    exact .refl _ _

theorem beginFrame_within (nv : NonVol) (p : Nat) (v : VideoDesc) (t : Nat) (d : Dev) : Within [.regs, .clk, .usb, .ring, .root, .stem, .trk, .mem, .ras, .cnp, .inp, .br] d (beginFrame nv p v t d) := by
  unfold beginFrame; try dsimp only
  with_reducible
    refine .via ?_ (openFrames_within ..) (by decide)
    refine .via ?_ (lockInput_within ..) (by decide)
    refine .via ?_ (uiTurn_within ..) (by decide)
    refine .via ?_ (claimSlot_within ..) (by decide)
    refine .ite ?_ ?_
    refine .via ?_ (stumpSteps_within ..) (by decide)
    refine .via ?_ (stumpPages_within ..) (by decide)
    refine .via ?_ (noteRestart_within ..) (by decide)
    refine .via ?_ (latchBase_within ..) (by decide)
    refine .via ?_ (loadHdr_within ..) (by decide)
    refine .via ?_ (setFlds_within ..) (by decide)
    refine .via ?_ (setPort_within ..) (by decide)
    exact .refl _ _
    refine .via ?_ (noteRestart_within ..) (by decide)
    refine .via ?_ (latchBase_within ..) (by decide)
    refine .via ?_ (loadHdr_within ..) (by decide)
    refine .via ?_ (setFlds_within ..) (by decide)
    refine .via ?_ (setPort_within ..) (by decide)
    exact .refl _ _

theorem closeInput_within (p : Nat) (d : Dev) : Within [.regs, .usb, .ring, .root, .stem, .trk, .inp] d (closeInput p d) := by
  unfold closeInput; try dsimp only
  with_reducible
    refine .via ?_ (endInput_within ..) (by decide)
    exact .refl _ _

theorem countSkipped_within (n p : Nat) (d : Dev) : Within [.ring, .inp] d (countSkipped n p d) := by
  induction n generalizing d with
  | zero => exact .refl _ _
  | succ n ih =>
    unfold countSkipped; dsimp only
    split
    · exact (((Within.refl _ _).via (setPort_within ..) (by decide)).via (ringInc_within ..) (by decide)).trans (ih _)
    · exact .refl _ _

theorem intakeTrainOp_within (p rate lanes : Nat) (fec dsc : Bool) (d : Dev) : Within [.regs] d (intakeTrainOp p rate lanes fec dsc d) := by
  unfold intakeTrainOp; try dsimp only
  with_reducible
    refine .ite ?_ ?_
    exact .refl _ _
    refine .via ?_ (setReg_within ..) (by decide)
    exact .refl _ _

theorem hdcpAuthOp_within (p st : Nat) (type1 : Bool) (d : Dev) : Within [.regs, .usb, .root, .stem] d (hdcpAuthOp p st type1 d) := by
  unfold hdcpAuthOp; try dsimp only
  with_reducible
    refine .ite ?_ ?_
    exact .refl _ _
    refine .ite ?_ ?_
    refine .via ?_ (setFlds_within ..) (by decide)
    exact .refl _ _
    refine .via ?_ (hdcpEvent_within ..) (by decide)
    refine .via ?_ (setFlds_within ..) (by decide)
    exact .refl _ _

theorem noteChange_within (p : Nat) (v : VideoDesc) (void : Nat) (d : Dev) : Within [.regs, .clk, .usb, .ring, .root, .stem, .trk, .mem, .inp] d (noteChange p v void d) := by
  unfold noteChange; try dsimp only
  with_reducible
    refine .via ?_ (sourceChange_within ..) (by decide)
    refine .ite ?_ ?_
    refine .via ?_ (endInput_within ..) (by decide)
    exact .refl _ _
    exact .refl _ _

theorem pairTimings_within (v w : VideoDesc) (d : Dev) : Within [.regs, .clk, .usb, .ring, .root, .stem, .trk, .mem, .inp] d (pairTimings v w d) := by
  unfold pairTimings; try dsimp only
  with_reducible
    refine .via ?_ (within_inp ..) (by decide)
    refine .ite ?_ ?_
    refine .via ?_ (sourceChange_within ..) (by decide)
    refine .via ?_ (sourceChange_within ..) (by decide)
    exact .refl _ _
    exact .refl _ _

theorem intakeStartOp_within (nv : NonVol) (p : Nat) (v : VideoDesc) (d : Dev) : Within [.regs, .clk, .usb, .ring, .root, .stem, .trk, .mem, .ras, .cnp, .inp, .br] d (intakeStartOp nv p v d) := by
  unfold intakeStartOp; try dsimp only
  with_reducible
    refine .ite ?_ ?_
    exact .refl _ _
    refine .ite ?_ ?_
    refine .via ?_ (setPort_within ..) (by decide)
    refine .via ?_ (closeInput_within ..) (by decide)
    refine .via ?_ (dropUnpaired_within ..) (by decide)
    refine .via ?_ (noteChange_within ..) (by decide)
    exact .refl _ _
    refine .ite ?_ ?_
    refine .via ?_ (beginFrame_within ..) (by decide)
    refine .via ?_ (closeInput_within ..) (by decide)
    refine .via ?_ (dropUnpaired_within ..) (by decide)
    refine .via ?_ (noteChange_within ..) (by decide)
    exact .refl _ _
    split
    refine .ite ?_ ?_
    refine .via ?_ (within_inp ..) (by decide)
    refine .via ?_ (setFlds_within ..) (by decide)
    refine .ite ?_ ?_
    refine .via ?_ (beginFrame_within ..) (by decide)
    refine .via ?_ (beginFrame_within ..) (by decide)
    refine .via ?_ (pairTimings_within ..) (by decide)
    refine .via ?_ (setPort_within ..) (by decide)
    refine .via ?_ (closeInput_within ..) (by decide)
    refine .via ?_ (dropUnpaired_within ..) (by decide)
    refine .via ?_ (noteChange_within ..) (by decide)
    exact .refl _ _
    refine .via ?_ (beginFrame_within ..) (by decide)
    refine .via ?_ (beginFrame_within ..) (by decide)
    refine .via ?_ (pairTimings_within ..) (by decide)
    refine .via ?_ (setPort_within ..) (by decide)
    refine .via ?_ (closeInput_within ..) (by decide)
    refine .via ?_ (dropUnpaired_within ..) (by decide)
    refine .via ?_ (noteChange_within ..) (by decide)
    exact .refl _ _
    refine .via ?_ (setPort_within ..) (by decide)
    refine .via ?_ (dropUnpaired_within ..) (by decide)
    refine .via ?_ (closeInput_within ..) (by decide)
    refine .via ?_ (dropUnpaired_within ..) (by decide)
    refine .via ?_ (noteChange_within ..) (by decide)
    exact .refl _ _
    refine .via ?_ (setPort_within ..) (by decide)
    refine .via ?_ (closeInput_within ..) (by decide)
    refine .via ?_ (dropUnpaired_within ..) (by decide)
    refine .via ?_ (noteChange_within ..) (by decide)
    exact .refl _ _

theorem sdpOp_within (p : Nat) (pk : Bytes) (d : Dev) : Within [.inp] d (sdpOp p pk d) := by
  unfold sdpOp; try dsimp only
  with_reducible
    refine .ite ?_ ?_
    exact .refl _ _
    split
    refine .via ?_ (setPort_within ..) (by decide)
    exact .refl _ _
    exact .refl _ _

theorem setProtected_within (p : Nat) (d : Dev) : Within [.regs, .usb, .root, .stem, .cnp, .inp] d (setProtected p d) := by
  unfold setProtected; try dsimp only
  with_reducible
    refine .ite ?_ ?_
    refine .via ?_ (within_inp ..) (by decide)
    refine .via ?_ (setPort_within ..) (by decide)
    exact .refl _ _
    split
    refine .ite ?_ ?_
    refine .via ?_ (hdcpEvent_within ..) (by decide)
    refine .via ?_ (setFlds_within ..) (by decide)
    refine .via ?_ (within_inp ..) (by decide)
    refine .via ?_ (setPort_within ..) (by decide)
    exact .refl _ _
    refine .via ?_ (raise_within ..) (by decide)
    refine .via ?_ (bump_within ..) (by decide)
    refine .via ?_ (within_cnp ..) (by decide)
    refine .via ?_ (hdcpEvent_within ..) (by decide)
    refine .via ?_ (setFlds_within ..) (by decide)
    refine .via ?_ (within_inp ..) (by decide)
    refine .via ?_ (setPort_within ..) (by decide)
    exact .refl _ _
    refine .via ?_ (hdcpEvent_within ..) (by decide)
    refine .via ?_ (setFlds_within ..) (by decide)
    refine .via ?_ (within_inp ..) (by decide)
    refine .via ?_ (setPort_within ..) (by decide)
    exact .refl _ _

theorem queueLine_within (p : Nat) (y : Nat) (px : List Nat) (d : Dev) : Within [.regs, .trk, .inp] d (queueLine p y px d) := by
  unfold queueLine; dsimp only
  split
  · exact .refl _ _
  refine .ite ((Within.refl _ _).via (setPort_within ..) (by decide)) ?_
  refine .ite ((Within.refl _ _).via (setPort_within ..) (by decide)) ?_
  split
  · rename_i h
    refine .via ?_ (setPort_within ..) (by decide)
    split at h
    · cases h
    · exact (Within.refl _ _).via (takeCredit_within h) (by decide)
  · exact (((Within.refl _ _).via (bump_within ..) (by decide)).via (bump_within ..) (by decide)).via (setPort_within ..) (by decide)

theorem takeLine_within (p : Nat) (samples : List Nat) (enc : Bool) (d : Dev) : Within [.regs, .usb, .ring, .root, .stem, .trk, .cnp, .inp] d (takeLine p samples enc d) := by
  unfold takeLine; try dsimp only
  with_reducible
    split
    exact .refl _ _
    refine .ite ?_ ?_
    exact .refl _ _
    refine .foldl ?_ (fun _ _ => ?_)
    refine .ite ?_ ?_
    refine .via ?_ (bump_within ..) (by decide)
    refine .ite ?_ ?_
    refine .via ?_ (setProtected_within ..) (by decide)
    refine .via ?_ (setFld_within ..) (by decide)
    refine .via ?_ (setPort_within ..) (by decide)
    exact .refl _ _
    refine .via ?_ (setPort_within ..) (by decide)
    exact .refl _ _
    refine .ite ?_ ?_
    refine .via ?_ (setProtected_within ..) (by decide)
    refine .via ?_ (setFld_within ..) (by decide)
    refine .via ?_ (setPort_within ..) (by decide)
    exact .refl _ _
    refine .via ?_ (setPort_within ..) (by decide)
    exact .refl _ _
    refine .ite ?_ ?_
    exact .refl _ _
    refine .ite ?_ ?_
    refine .via ?_ (queueLine_within ..) (by decide)
    exact .refl _ _
    refine .via ?_ (countSkipped_within ..) (by decide)
    refine .via ?_ (queueLine_within ..) (by decide)
    refine .via ?_ (bump_within ..) (by decide)
    exact .refl _ _

theorem intakeLineOp_within (p : Nat) (samples : List Nat) (enc : Bool) (d : Dev) : Within [.regs, .usb, .ring, .root, .stem, .trk, .cnp, .inp] d (intakeLineOp p samples enc d) := by
  unfold intakeLineOp; try dsimp only
  with_reducible
    refine .ite ?_ ?_
    refine .via ?_ (setPort_within ..) (by decide)
    exact .refl _ _
    refine .foldl ?_ (fun _ _ => ?_)
    refine .via ?_ (setPort_within ..) (by decide)
    exact .refl _ _
    refine .via ?_ (takeLine_within ..) (by decide)
    exact .refl _ _

theorem uiLine_within (y : Nat) (px : List Nat) (d : Dev) : Within [.regs, .trk, .mem] d (uiLine y px d) := by
  unfold uiLine; try dsimp only
  with_reducible
    split
    refine .ite ?_ ?_
    refine .via ?_ (vwrite_within ..) (by decide)
    exact .refl _ _
    exact .refl _ _
    exact .refl _ _

theorem writeU12_within (d : Dev) (t f y : Nat) (px : List Nat) : Within [.regs, .trk, .mem] d (writeU12 d t f y px) := by
  unfold writeU12; try dsimp only
  with_reducible
    refine .foldl ?_ (fun _ _ => ?_)
    exact .refl _ _
    refine .foldl ?_ (fun _ _ => ?_)
    exact .refl _ _
    refine .via ?_ (vwrite_within ..) (by decide)
    exact .refl _ _

theorem storeLine_within (p y ifn : Nat) (px : List Nat) (d : Dev) : Within [.regs, .trk, .mem] d (storeLine p y ifn px d) := by
  unfold storeLine; try dsimp only
  with_reducible
    split
    refine .ite ?_ ?_
    exact .refl _ _
    refine .ite ?_ ?_
    refine .via ?_ (writeU12_within ..) (by decide)
    exact .refl _ _
    refine .via ?_ (writeU12_within ..) (by decide)
    exact .refl _ _
    exact .refl _ _

theorem intakeWrittenOp_within (p : Nat) (d : Dev) : Within [.regs, .ring, .trk, .mem, .inp] d (intakeWrittenOp p d) := by
  unfold intakeWrittenOp; try dsimp only
  with_reducible
    split
    refine .via ?_ (countSkipped_within ..) (by decide)
    refine .via ?_ (ringInc_within ..) (by decide)
    refine .ite ?_ ?_
    refine .via ?_ (uiLine_within ..) (by decide)
    refine .via ?_ (setPort_within ..) (by decide)
    exact .refl _ _
    refine .via ?_ (lineWritten_within ..) (by decide)
    refine .via ?_ (storeLine_within ..) (by decide)
    split
    refine .via ?_ (writeU12_within ..) (by decide)
    refine .via ?_ (setPort_within ..) (by decide)
    exact .refl _ _
    refine .ite ?_ ?_
    refine .foldl ?_ (fun _ _ => ?_)
    refine .via ?_ (setPort_within ..) (by decide)
    exact .refl _ _
    refine .foldl ?_ (fun _ _ => ?_)
    exact .refl _ _
    refine .via ?_ (writeMem_within ..) (by decide)
    exact .refl _ _
    refine .via ?_ (setPort_within ..) (by decide)
    exact .refl _ _
    exact .refl _ _

theorem intakeEndOp_within (p : Nat) (d : Dev) : Within [.regs, .usb, .ring, .root, .stem, .trk, .inp] d (intakeEndOp p d) := by
  unfold intakeEndOp; try dsimp only
  with_reducible
    split
    refine .ite ?_ ?_
    refine .via ?_ (endInput_within ..) (by decide)
    exact .refl _ _
    exact .refl _ _
    exact .refl _ _

theorem sourceChangeOp_within (p cl : Nat) (d : Dev) : Within [.regs, .clk, .usb, .ring, .root, .stem, .trk, .mem, .inp] d (sourceChangeOp p cl d) := by
  unfold sourceChangeOp; try dsimp only
  with_reducible
    refine .ite ?_ ?_
    exact .refl _ _
    refine .via ?_ (sourceChange_within ..) (by decide)
    exact .refl _ _

theorem splitTimeoutOp_within (p : Nat) (d : Dev) : Within [.regs, .usb, .root, .stem, .inp] d (splitTimeoutOp p d) := by
  unfold splitTimeoutOp; try dsimp only
  with_reducible
    split
    exact .refl _ _
    refine .ite ?_ ?_
    exact .refl _ _
    refine .via ?_ (dropUnpaired_within ..) (by decide)
    exact .refl _ _

theorem uiCompleteOp_within (d : Dev) : Within [.regs, .usb, .root, .stem, .cnp] d (uiCompleteOp d) := by
  unfold uiCompleteOp; try dsimp only
  with_reducible
    split
    refine .ite ?_ ?_
    refine .via ?_ (within_cnp ..) (by decide)
    split
    refine .via ?_ (raise_within ..) (by decide)
    refine .via ?_ (bump_within ..) (by decide)
    exact .refl _ _
    exact .refl _ _
    exact .refl _ _
    exact .refl _ _

end Sys2Proof.Machine
end

