-- ==== Sys2Proof/Laws/UnderstoryFrame.lean ====
section
/-! SUPPORT. What each operation of Machine/Understory.lean may change. -/

namespace Sys2Proof.Machine

theorem countFill_within (d : Dev) (n : Nat) : Within [.regs, .ras] d (countFill d n) := by
  unfold countFill; try dsimp only
  with_reducible
    refine .via ?_ (bump_within ..) (by decide)
    refine .via ?_ (setOut_within ..) (by decide)
    exact .refl _ _

theorem undFinish_within (d : Dev) (n ifn y : Nat) : Within [.trk] d (undFinish d n ifn y) := by
  unfold undFinish; try dsimp only
  with_reducible
    refine .ite ?_ ?_
    exact .refl _ _
    refine .foldl ?_ (fun _ _ => ?_)
    exact .refl _ _
    split
    refine .via ?_ (finishLines_within ..) (by decide)
    exact .refl _ _
    exact .refl _ _

theorem undProduceOp_within (d : Dev) : Within [.regs, .ring, .trk, .mem, .ras] d (undProduceOp d) := by
  unfold undProduceOp; try dsimp only
  with_reducible
    refine .ite ?_ ?_
    exact .refl _ _
    split
    exact .refl _ _
    refine .ite ?_ ?_
    exact .refl _ _
    refine .via ?_ (ringInc_within ..) (by decide)
    split
    refine .via ?_ (undFinish_within ..) (by decide)
    refine .ite ?_ ?_
    refine .via ?_ (countFill_within ..) (by decide)
    refine .via ?_ (setOut_within ..) (by decide)
    refine .via ?_ (writeMem_within ..) (by decide)
    refine .via ?_ (setFld_within ..) (by decide)
    refine .ite ?_ ?_
    exact .refl _ _
    refine .via ?_ (latchBase_within ..) (by decide)
    refine .via ?_ (within_ras ..) (by decide)
    split
    refine .via ?_ (setFlds_within ..) (by decide)
    refine .via ?_ (within_ras ..) (by decide)
    exact .refl _ _
    exact .refl _ _
    refine .via ?_ (setOut_within ..) (by decide)
    refine .via ?_ (writeMem_within ..) (by decide)
    refine .via ?_ (setFld_within ..) (by decide)
    refine .ite ?_ ?_
    exact .refl _ _
    refine .via ?_ (latchBase_within ..) (by decide)
    refine .via ?_ (within_ras ..) (by decide)
    split
    refine .via ?_ (setFlds_within ..) (by decide)
    refine .via ?_ (within_ras ..) (by decide)
    exact .refl _ _
    exact .refl _ _
    refine .ite ?_ ?_
    refine .via ?_ (countFill_within ..) (by decide)
    refine .via ?_ (setOut_within ..) (by decide)
    refine .via ?_ (writeMem_within ..) (by decide)
    refine .via ?_ (setFld_within ..) (by decide)
    refine .ite ?_ ?_
    exact .refl _ _
    refine .via ?_ (latchBase_within ..) (by decide)
    refine .via ?_ (within_ras ..) (by decide)
    split
    refine .via ?_ (setFlds_within ..) (by decide)
    refine .via ?_ (within_ras ..) (by decide)
    exact .refl _ _
    exact .refl _ _
    refine .via ?_ (setOut_within ..) (by decide)
    refine .via ?_ (writeMem_within ..) (by decide)
    refine .via ?_ (setFld_within ..) (by decide)
    refine .ite ?_ ?_
    exact .refl _ _
    refine .via ?_ (latchBase_within ..) (by decide)
    refine .via ?_ (within_ras ..) (by decide)
    split
    refine .via ?_ (setFlds_within ..) (by decide)
    refine .via ?_ (within_ras ..) (by decide)
    exact .refl _ _
    exact .refl _ _

end Sys2Proof.Machine
end

