-- ==== Sys2Proof/Laws/CanopyFrame.lean ====
section
/-! SUPPORT. What each operation of Machine/Canopy.lean may change. -/

namespace Sys2Proof.Machine

theorem stampFlip_within (o n : Nat) (d : Dev) : Within [.regs] d (stampFlip o n d) := by
  unfold stampFlip; try dsimp only
  with_reducible
    refine .via ?_ (setFlds_within ..) (by decide)
    exact .refl _ _

theorem barkFlip_within (n : Nat) (d : Dev) : Within [.regs, .usb, .ring, .root, .stem, .cnp] d (barkFlip n d) := by
  unfold barkFlip; try dsimp only
  with_reducible
    split
    exact .refl _ _
    refine .via ?_ (complete_within ..) (by decide)
    refine .via ?_ (raise_within ..) (by decide)
    refine .via ?_ (raise_within ..) (by decide)
    refine .via ?_ (stampFlip_within ..) (by decide)
    refine .via ?_ (ringInc_within ..) (by decide)
    refine .via ?_ (setFlds_within ..) (by decide)
    refine .via ?_ (within_cnp ..) (by decide)
    exact .refl _ _

theorem setLayerLive_within (d : Dev) (l : Nat) (ws : List Word) : Within [.live] d (setLayerLive d l ws) := by
  unfold setLayerLive; try dsimp only
  with_reducible
    refine .foldl ?_ (fun _ _ => ?_)
    exact .refl _ _
    refine .via ?_ (setLive_within ..) (by decide)
    exact .refl _ _

theorem flipCounts_within (d : Dev) : Within [.regs] d (flipCounts d) := by
  unfold flipCounts; try dsimp only
  with_reducible
    refine .foldl ?_ (fun _ _ => ?_)
    refine .via ?_ (setFld_within ..) (by decide)
    exact .refl _ _
    refine .via ?_ (setFld_within ..) (by decide)
    exact .refl _ _

theorem declareLayers_within (d : Dev) : Within [.regs, .live, .usb, .root, .stem, .trk, .cnp] d (declareLayers d) := by
  unfold declareLayers; try dsimp only
  with_reducible
    refine .ite ?_ ?_
    refine .via ?_ (setFld_within ..) (by decide)
    refine .via ?_ (stumpPages_within ..) (by decide)
    refine .via ?_ (within_trk (h := by rfl) ..) (by decide)
    refine .via ?_ (flipCounts_within ..) (by decide)
    refine .foldl ?_ (fun _ _ => ?_)
    refine .via ?_ (setReg_within ..) (by decide)
    refine .via ?_ (clearLayers_within ..) (by decide)
    refine .via ?_ (within_cnp ..) (by decide)
    refine .via ?_ (dropFlips_within ..) (by decide)
    exact .refl _ _
    split
    exact .refl _ _
    refine .foldl ?_ (fun _ _ => ?_)
    refine .via ?_ (setFlds_within ..) (by decide)
    refine .foldl ?_ (fun _ _ => ?_)
    refine .via ?_ (setLayerLive_within ..) (by decide)
    exact .refl _ _
    refine .via ?_ (setReg_within ..) (by decide)
    exact .refl _ _
    refine .via ?_ (setFlds_within ..) (by decide)
    exact .refl _ _
    refine .via ?_ (flipCounts_within ..) (by decide)
    refine .foldl ?_ (fun _ _ => ?_)
    refine .via ?_ (setReg_within ..) (by decide)
    refine .via ?_ (clearLayers_within ..) (by decide)
    refine .via ?_ (within_cnp ..) (by decide)
    refine .via ?_ (dropFlips_within ..) (by decide)
    exact .refl _ _
    split
    exact .refl _ _
    refine .foldl ?_ (fun _ _ => ?_)
    refine .via ?_ (setFlds_within ..) (by decide)
    refine .foldl ?_ (fun _ _ => ?_)
    refine .via ?_ (setLayerLive_within ..) (by decide)
    exact .refl _ _
    refine .via ?_ (setReg_within ..) (by decide)
    exact .refl _ _
    refine .via ?_ (setFlds_within ..) (by decide)
    exact .refl _ _

theorem touchGroup_within (g : Nat) (d : Dev) : Within [.regs, .cnp] d (touchGroup g d) := by
  unfold touchGroup; try dsimp only
  with_reducible
    refine .ite ?_ ?_
    exact .refl _ _
    refine .ite ?_ ?_
    refine .via ?_ (progFail_within ..) (by decide)
    refine .via ?_ (setFld_within ..) (by decide)
    refine .via ?_ (setFlds_within ..) (by decide)
    refine .via ?_ (within_cnp ..) (by decide)
    exact .refl _ _
    refine .via ?_ (setFlds_within ..) (by decide)
    refine .via ?_ (within_cnp ..) (by decide)
    exact .refl _ _

theorem flipLayer_within (n l : Nat) (ws : List Word) (d : Dev) : Within [.regs, .live, .ring, .cnp] d (flipLayer n l ws d) := by
  unfold flipLayer; try dsimp only
  with_reducible
    refine .via ?_ (stampFlip_within ..) (by decide)
    refine .via ?_ (ringInc_within ..) (by decide)
    refine .via ?_ (setFlds_within ..) (by decide)
    refine .via ?_ (setLayerLive_within ..) (by decide)
    refine .via ?_ (touchGroup_within ..) (by decide)
    refine .via ?_ (touchGroup_within ..) (by decide)
    exact .refl _ _

theorem tryGroup_within (n : Nat) (g : FlipGroup) (d : Dev) (held : Nat) : Within [.regs, .live, .usb, .ring, .root, .stem, .cnp] d (tryGroup n g d held).1 := by
  unfold tryGroup; try dsimp only
  with_reducible
    refine .ite_fst ?_ ?_
    refine .ite_fst ?_ ?_
    refine .pair ?_
    refine .via ?_ (complete_within ..) (by decide)
    refine .via ?_ (raise_within ..) (by decide)
    refine .foldl ?_ (fun _ _ => ?_)
    refine .via ?_ (flipCounts_within ..) (by decide)
    refine .via ?_ (within_cnp ..) (by decide)
    exact .refl _ _
    refine .via ?_ (flipLayer_within ..) (by decide)
    exact .refl _ _
    refine .pair ?_
    refine .via ?_ (complete_within ..) (by decide)
    refine .via ?_ (raise_within ..) (by decide)
    refine .via ?_ (flipCounts_within ..) (by decide)
    refine .via ?_ (within_cnp ..) (by decide)
    exact .refl _ _
    refine .pair ?_
    refine .via ?_ (within_cnp ..) (by decide)
    exact .refl _ _

theorem tryGroup_within' {n : Nat} {g : FlipGroup} {d : Dev} {held : Nat} {z' : Dev} {y' : Nat} (h : tryGroup n g d held = (z', y')) : Within [.regs, .live, .usb, .ring, .root, .stem, .cnp] d z' := by
  have w' := tryGroup_within n g d held
  rw [h] at w'; exact w'

theorem pipeLayer_within (n l : Nat) (d : Dev) : Within [.regs, .live, .usb, .ring, .root, .stem, .cnp] d (pipeLayer n l d) := by
  unfold pipeLayer; try dsimp only
  with_reducible
    split
    exact .refl _ _
    split
    exact .refl _ _
    refine .ite ?_ ?_
    refine .via ?_ (raise_within ..) (by decide)
    refine .via ?_ (flipLayer_within ..) (by decide)
    refine .via ?_ (within_cnp ..) (by decide)
    exact .refl _ _
    exact .refl _ _

theorem uiFlip_within (n : Nat) (d : Dev) : Within [.regs, .live, .usb, .ring, .root, .stem, .cnp] d (uiFlip n d) := by
  unfold uiFlip; try dsimp only
  with_reducible
    split
    refine .via ?_ (raise_within ..) (by decide)
    refine .via ?_ (flipLayer_within ..) (by decide)
    refine .via ?_ (within_cnp ..) (by decide)
    exact .refl _ _
    exact .refl _ _

theorem flipInstant_within (n : Nat) (d : Dev) : Within [.regs, .live, .usb, .ring, .root, .stem, .trk, .cnp] d (flipInstant n d) := by
  unfold flipInstant; try dsimp only
  with_reducible
    refine .via ?_ (barkFlip_within ..) (by decide)
    refine .via ?_ (uiFlip_within ..) (by decide)
    refine .foldl ?_ (fun _ _ => ?_)
    refine .foldl_fst ?_ (fun _ _ => ?_)
    refine .pair ?_
    refine .foldl ?_ (fun _ _ => ?_)
    split
    refine .ite ?_ ?_
    refine .via ?_ (declareLayers_within ..) (by decide)
    refine .via ?_ (within_root ..) (by decide)
    exact .refl _ _
    exact .refl _ _
    exact .refl _ _
    refine .via ?_ (within_cnp ..) (by decide)
    exact .refl _ _
    refine .via ?_ (tryGroup_within ..) (by decide)
    exact .refl _ _
    refine .ite ?_ ?_
    refine .via ?_ (pipeLayer_within ..) (by decide)
    exact .refl _ _
    exact .refl _ _

theorem buildCache_within (g width height : Nat) (d : Dev) : Within [.mem] d (buildCache g width height d) := by
  unfold buildCache; try dsimp only
  with_reducible
    refine .foldl ?_ (fun _ _ => ?_)
    exact .refl _ _
    refine .via ?_ (writeMem_within ..) (by decide)
    exact .refl _ _

theorem checkLine_within (n y : Nat) (line : List Nat) (d : Dev) : Within [.ras] d (checkLine n y line d) := by
  unfold checkLine; try dsimp only
  with_reducible
    refine .foldl ?_ (fun _ _ => ?_)
    exact .refl _ _
    split
    refine .ite ?_ ?_
    refine .via ?_ (within_ras ..) (by decide)
    exact .refl _ _
    exact .refl _ _
    refine .via ?_ (within_ras ..) (by decide)
    refine .ite ?_ ?_
    refine .via ?_ (within_ras ..) (by decide)
    exact .refl _ _
    exact .refl _ _

theorem readLayer_within (n y l : Nat) (s : LayerSt) (d : Dev) : Within [.regs, .usb, .root, .stem, .trk] d (readLayer n y l s d) := by
  unfold readLayer; try dsimp only
  with_reducible
    refine .ite ?_ ?_
    refine .foldl ?_ (fun _ _ => ?_)
    refine .ite ?_ ?_
    refine .foldl ?_ (fun _ _ => ?_)
    exact .refl _ _
    refine .via ?_ (vread_within ..) (by decide)
    exact .refl _ _
    exact .refl _ _
    refine .foldl ?_ (fun _ _ => ?_)
    exact .refl _ _
    refine .via ?_ (wantPage_within ..) (by decide)
    exact .refl _ _
    refine .ite ?_ ?_
    refine .foldl ?_ (fun _ _ => ?_)
    exact .refl _ _
    refine .via ?_ (vread_within ..) (by decide)
    exact .refl _ _
    exact .refl _ _

theorem checkUnderrun_within (n y : Nat) (d : Dev) : Within [.regs, .usb, .root, .stem, .trk, .cnp] d (checkUnderrun n y d) := by
  unfold checkUnderrun; try dsimp only
  with_reducible
    refine .foldl ?_ (fun _ _ => ?_)
    exact .refl _ _
    refine .ite ?_ ?_
    refine .via ?_ (raiseStem_within ..) (by decide)
    refine .via ?_ (setFlds_within ..) (by decide)
    refine .via ?_ (bump_within ..) (by decide)
    refine .via ?_ (within_cnp ..) (by decide)
    refine .ite ?_ ?_
    exact .refl _ _
    refine .via ?_ (readLayer_within ..) (by decide)
    exact .refl _ _
    refine .ite ?_ ?_
    exact .refl _ _
    refine .via ?_ (readLayer_within ..) (by decide)
    exact .refl _ _

theorem sendLine_within (d : Dev) : Within [.ras] d (sendLine d) := by
  unfold sendLine; try dsimp only
  with_reducible
    refine .ite ?_ ?_
    exact .refl _ _
    refine .ite ?_ ?_
    refine .via ?_ (within_ras ..) (by decide)
    exact .refl _ _
    exact .refl _ _

theorem wbFrameEnd_within (d : Dev) : Within [.regs, .usb, .ring, .root, .stem, .cnp] d (wbFrameEnd d) := by
  unfold wbFrameEnd; try dsimp only
  with_reducible
    split
    exact .refl _ _
    refine .ite ?_ ?_
    refine .via ?_ (setFld_within ..) (by decide)
    refine .foldl ?_ (fun _ _ => ?_)
    refine .via ?_ (within_cnp ..) (by decide)
    refine .ite ?_ ?_
    refine .ite ?_ ?_
    exact .refl _ _
    refine .via ?_ (setFld_within ..) (by decide)
    refine .ite ?_ ?_
    exact .refl _ _
    refine .via ?_ (ringInc_within ..) (by decide)
    exact .refl _ _
    refine .via ?_ (raise_within ..) (by decide)
    refine .ite ?_ ?_
    exact .refl _ _
    refine .via ?_ (setFld_within ..) (by decide)
    refine .ite ?_ ?_
    exact .refl _ _
    refine .via ?_ (ringInc_within ..) (by decide)
    exact .refl _ _
    refine .via ?_ (complete_within ..) (by decide)
    exact .refl _ _
    refine .foldl ?_ (fun _ _ => ?_)
    refine .via ?_ (within_cnp ..) (by decide)
    refine .ite ?_ ?_
    refine .ite ?_ ?_
    exact .refl _ _
    refine .via ?_ (setFld_within ..) (by decide)
    refine .ite ?_ ?_
    exact .refl _ _
    refine .via ?_ (ringInc_within ..) (by decide)
    exact .refl _ _
    refine .via ?_ (raise_within ..) (by decide)
    refine .ite ?_ ?_
    exact .refl _ _
    refine .via ?_ (setFld_within ..) (by decide)
    refine .ite ?_ ?_
    exact .refl _ _
    refine .via ?_ (ringInc_within ..) (by decide)
    exact .refl _ _
    refine .via ?_ (complete_within ..) (by decide)
    exact .refl _ _

theorem wbLine_within (n y : Nat) (bytes : Bytes) (d : Dev) : Within [.regs, .usb, .ring, .root, .stem, .cnp] d (wbLine n y bytes d) := by
  unfold wbLine; try dsimp only
  with_reducible
    refine .ite ?_ ?_
    exact .refl _ _
    refine .ite ?_ ?_
    refine .ite ?_ ?_
    exact .refl _ _
    refine .ite ?_ ?_
    refine .via ?_ (raise_within ..) (by decide)
    refine .via ?_ (bump_within ..) (by decide)
    refine .via ?_ (within_cnp ..) (by decide)
    exact .refl _ _
    refine .via ?_ (within_cnp ..) (by decide)
    exact .refl _ _
    refine .ite ?_ ?_
    refine .ite ?_ ?_
    refine .via ?_ (wbFrameEnd_within ..) (by decide)
    refine .ite ?_ ?_
    exact .refl _ _
    refine .ite ?_ ?_
    refine .via ?_ (raise_within ..) (by decide)
    refine .via ?_ (bump_within ..) (by decide)
    refine .via ?_ (within_cnp ..) (by decide)
    exact .refl _ _
    refine .via ?_ (within_cnp ..) (by decide)
    exact .refl _ _
    refine .ite ?_ ?_
    exact .refl _ _
    refine .ite ?_ ?_
    refine .via ?_ (raise_within ..) (by decide)
    refine .via ?_ (bump_within ..) (by decide)
    refine .via ?_ (within_cnp ..) (by decide)
    exact .refl _ _
    refine .via ?_ (within_cnp ..) (by decide)
    exact .refl _ _
    refine .ite ?_ ?_
    refine .via ?_ (within_cnp ..) (by decide)
    refine .ite ?_ ?_
    exact .refl _ _
    refine .ite ?_ ?_
    refine .via ?_ (raise_within ..) (by decide)
    refine .via ?_ (bump_within ..) (by decide)
    refine .via ?_ (within_cnp ..) (by decide)
    exact .refl _ _
    refine .via ?_ (within_cnp ..) (by decide)
    exact .refl _ _
    refine .ite ?_ ?_
    refine .via ?_ (wbFrameEnd_within ..) (by decide)
    refine .via ?_ (bump_within ..) (by decide)
    refine .via ?_ (within_cnp ..) (by decide)
    refine .ite ?_ ?_
    exact .refl _ _
    refine .ite ?_ ?_
    refine .via ?_ (raise_within ..) (by decide)
    refine .via ?_ (bump_within ..) (by decide)
    refine .via ?_ (within_cnp ..) (by decide)
    exact .refl _ _
    refine .via ?_ (within_cnp ..) (by decide)
    exact .refl _ _
    refine .via ?_ (bump_within ..) (by decide)
    refine .via ?_ (within_cnp ..) (by decide)
    refine .ite ?_ ?_
    exact .refl _ _
    refine .ite ?_ ?_
    refine .via ?_ (raise_within ..) (by decide)
    refine .via ?_ (bump_within ..) (by decide)
    refine .via ?_ (within_cnp ..) (by decide)
    exact .refl _ _
    refine .via ?_ (within_cnp ..) (by decide)
    exact .refl _ _

theorem composeOp_within (d : Dev) : Within [.regs, .usb, .ring, .root, .stem, .trk, .ras, .cnp] d (composeOp d) := by
  unfold composeOp; try dsimp only
  with_reducible
    refine .ite ?_ ?_
    exact .refl _ _
    split
    exact .refl _ _
    refine .ite ?_ ?_
    exact .refl _ _
    refine .ite ?_ ?_
    refine .via ?_ (sendLine_within ..) (by decide)
    refine .via ?_ (checkLine_within ..) (by decide)
    refine .via ?_ (within_ras ..) (by decide)
    refine .ite ?_ ?_
    refine .foldl ?_ (fun _ _ => ?_)
    refine .via ?_ (within_cnp ..) (by decide)
    exact .refl _ _
    refine .via ?_ (setFld_within ..) (by decide)
    exact .refl _ _
    exact .refl _ _
    refine .via ?_ (wbLine_within ..) (by decide)
    refine .via ?_ (sendLine_within ..) (by decide)
    refine .via ?_ (checkLine_within ..) (by decide)
    refine .via ?_ (within_ras ..) (by decide)
    refine .ite ?_ ?_
    refine .ite ?_ ?_
    refine .via ?_ (countFill_within ..) (by decide)
    refine .via ?_ (checkUnderrun_within ..) (by decide)
    refine .via ?_ (bump_within ..) (by decide)
    refine .via ?_ (within_ras ..) (by decide)
    refine .ite ?_ ?_
    refine .foldl ?_ (fun _ _ => ?_)
    refine .via ?_ (within_cnp ..) (by decide)
    exact .refl _ _
    refine .via ?_ (setFld_within ..) (by decide)
    exact .refl _ _
    exact .refl _ _
    refine .via ?_ (checkUnderrun_within ..) (by decide)
    refine .via ?_ (bump_within ..) (by decide)
    refine .via ?_ (within_ras ..) (by decide)
    refine .ite ?_ ?_
    refine .foldl ?_ (fun _ _ => ?_)
    refine .via ?_ (within_cnp ..) (by decide)
    exact .refl _ _
    refine .via ?_ (setFld_within ..) (by decide)
    exact .refl _ _
    exact .refl _ _
    refine .via ?_ (bump_within ..) (by decide)
    refine .via ?_ (setOut_within ..) (by decide)
    refine .ite ?_ ?_
    refine .via ?_ (countFill_within ..) (by decide)
    refine .via ?_ (checkUnderrun_within ..) (by decide)
    refine .via ?_ (bump_within ..) (by decide)
    refine .via ?_ (within_ras ..) (by decide)
    refine .ite ?_ ?_
    refine .foldl ?_ (fun _ _ => ?_)
    refine .via ?_ (within_cnp ..) (by decide)
    exact .refl _ _
    refine .via ?_ (setFld_within ..) (by decide)
    exact .refl _ _
    exact .refl _ _
    refine .via ?_ (checkUnderrun_within ..) (by decide)
    refine .via ?_ (bump_within ..) (by decide)
    refine .via ?_ (within_ras ..) (by decide)
    refine .ite ?_ ?_
    refine .foldl ?_ (fun _ _ => ?_)
    refine .via ?_ (within_cnp ..) (by decide)
    exact .refl _ _
    refine .via ?_ (setFld_within ..) (by decide)
    exact .refl _ _
    exact .refl _ _

theorem composeRead_within (nv : NonVol) (errs : List MemErr) (d : Dev) : Within [.regs, .live, .clk, .usb, .ring, .root, .stem, .trk, .mem, .ras, .cnp, .inp, .cam, .flt, .br, .cells] d (composeRead nv errs d) := by
  unfold composeRead; try dsimp only
  with_reducible
    refine .ite ?_ ?_
    exact .refl _ _
    refine .via ?_ (bufferErrs_within ..) (by decide)
    refine .via ?_ (trunkErrs_within ..) (by decide)
    refine .via ?_ (composeOp_within ..) (by decide)
    refine .via ?_ (plantTrunk_within ..) (by decide)
    exact .refl _ _

theorem layerStore_within (l b off : Nat) (bytes : Bytes) (d : Dev) : Within [.regs, .trk, .mem] d (layerStore l b off bytes d) := by
  unfold layerStore; try dsimp only
  with_reducible
    refine .ite ?_ ?_
    exact .refl _ _
    refine .ite ?_ ?_
    refine .via ?_ (writeMem_within ..) (by decide)
    exact .refl _ _
    refine .via ?_ (vwrite_within ..) (by decide)
    exact .refl _ _

theorem layerFlipOp_within (mask ring value timeout key : Nat) (d : Dev) : Within [.regs, .usb, .root, .stem, .ras, .cnp] d (layerFlipOp mask ring value timeout key d) := by
  unfold layerFlipOp; try dsimp only
  with_reducible
    refine .ite ?_ ?_
    refine .via ?_ (complete_within ..) (by decide)
    exact .refl _ _
    refine .ite ?_ ?_
    refine .via ?_ (complete_within ..) (by decide)
    exact .refl _ _
    refine .ite ?_ ?_
    refine .via ?_ (complete_within ..) (by decide)
    exact .refl _ _
    refine .via ?_ (replayExit_within ..) (by decide)
    refine .via ?_ (flipCounts_within ..) (by decide)
    refine .via ?_ (within_cnp ..) (by decide)
    exact .refl _ _

theorem layerWriteOp_within (l b off len key : Nat) (d : Dev) : Within [.regs, .usb, .root, .stem, .ras] d (layerWriteOp l b off len key d) := by
  unfold layerWriteOp; try dsimp only
  with_reducible
    refine .ite ?_ ?_
    refine .via ?_ (complete_within ..) (by decide)
    exact .refl _ _
    refine .ite ?_ ?_
    refine .via ?_ (complete_within ..) (by decide)
    exact .refl _ _
    refine .ite ?_ ?_
    refine .via ?_ (complete_within ..) (by decide)
    refine .via ?_ (replayExit_within ..) (by decide)
    exact .refl _ _
    refine .via ?_ (within_usb ..) (by decide)
    refine .via ?_ (replayExit_within ..) (by decide)
    exact .refl _ _

theorem wbStartOp_within (point fmt count key : Nat) (d : Dev) : Within [.regs, .usb, .root, .stem, .cnp] d (wbStartOp point fmt count key d) := by
  unfold wbStartOp; try dsimp only
  with_reducible
    refine .ite ?_ ?_
    refine .via ?_ (complete_within ..) (by decide)
    exact .refl _ _
    refine .ite ?_ ?_
    refine .via ?_ (complete_within ..) (by decide)
    exact .refl _ _
    refine .ite ?_ ?_
    refine .via ?_ (raise_within ..) (by decide)
    refine .via ?_ (complete_within ..) (by decide)
    exact .refl _ _
    refine .via ?_ (complete_within ..) (by decide)
    refine .via ?_ (setFlds_within ..) (by decide)
    refine .via ?_ (within_cnp ..) (by decide)
    exact .refl _ _

theorem wbStopOp_within (key : Nat) (d : Dev) : Within [.regs, .usb, .cnp] d (wbStopOp key d) := by
  unfold wbStopOp; try dsimp only
  with_reducible
    refine .ite ?_ ?_
    refine .via ?_ (complete_within ..) (by decide)
    exact .refl _ _
    split
    refine .via ?_ (within_cnp ..) (by decide)
    exact .refl _ _
    refine .via ?_ (complete_within ..) (by decide)
    refine .via ?_ (setFld_within ..) (by decide)
    exact .refl _ _

theorem flipTimeoutOp_within (tag : Option (BitVec 16)) (d : Dev) : Within [.regs, .usb, .root, .stem, .cnp] d (flipTimeoutOp tag d) := by
  unfold flipTimeoutOp; try dsimp only
  with_reducible
    split
    refine .via ?_ (dropFlips_within ..) (by decide)
    exact .refl _ _
    exact .refl _ _

theorem flattenStartOp_within (g : Nat) (d : Dev) : Within [.regs, .root, .cnp] d (flattenStartOp g d) := by
  unfold flattenStartOp; try dsimp only
  with_reducible
    refine .ite ?_ ?_
    refine .via ?_ (progStart_within ..) (by decide)
    refine .via ?_ (setFld_within ..) (by decide)
    refine .via ?_ (within_cnp ..) (by decide)
    exact .refl _ _
    exact .refl _ _

theorem flattenBuiltOp_within (g : Nat) (d : Dev) : Within [.regs, .usb, .root, .stem, .mem] d (flattenBuiltOp g d) := by
  unfold flattenBuiltOp; try dsimp only
  with_reducible
    refine .ite ?_ ?_
    refine .via ?_ (raise_within ..) (by decide)
    refine .via ?_ (progDone_within ..) (by decide)
    refine .via ?_ (setFlds_within ..) (by decide)
    refine .via ?_ (buildCache_within ..) (by decide)
    exact .refl _ _
    exact .refl _ _

theorem wbWrittenOp_within (d : Dev) : Within [.regs, .usb, .ring, .root, .stem, .trk, .mem, .cnp] d (wbWrittenOp d) := by
  unfold wbWrittenOp; try dsimp only
  with_reducible
    split
    exact .refl _ _
    refine .ite ?_ ?_
    refine .ite ?_ ?_
    refine .via ?_ (wbFrameEnd_within ..) (by decide)
    refine .via ?_ (within_cnp ..) (by decide)
    refine .ite ?_ ?_
    refine .ite ?_ ?_
    refine .via ?_ (within_cnp ..) (by decide)
    exact .refl _ _
    refine .via ?_ (vwrite_within ..) (by decide)
    refine .via ?_ (within_cnp ..) (by decide)
    exact .refl _ _
    refine .via ?_ (within_cnp ..) (by decide)
    exact .refl _ _
    refine .via ?_ (within_cnp ..) (by decide)
    refine .ite ?_ ?_
    refine .ite ?_ ?_
    refine .via ?_ (within_cnp ..) (by decide)
    exact .refl _ _
    refine .via ?_ (vwrite_within ..) (by decide)
    refine .via ?_ (within_cnp ..) (by decide)
    exact .refl _ _
    refine .via ?_ (within_cnp ..) (by decide)
    exact .refl _ _
    refine .ite ?_ ?_
    refine .ite ?_ ?_
    refine .via ?_ (within_cnp ..) (by decide)
    exact .refl _ _
    refine .via ?_ (vwrite_within ..) (by decide)
    refine .via ?_ (within_cnp ..) (by decide)
    exact .refl _ _
    refine .via ?_ (within_cnp ..) (by decide)
    exact .refl _ _

end Sys2Proof.Machine
end

