-- ==== Sys2Proof/Laws/GraftFrame.lean ====
section
/-! SUPPORT. What each operation of Machine/Graft.lean may change. -/

namespace Sys2Proof.Machine

theorem lastWriter_within (d : Dev) : Within [.ras] d (lastWriter d) := by
  unfold lastWriter; try dsimp only
  with_reducible
    refine .ite ?_ ?_
    refine .via ?_ (setOut_within ..) (by decide)
    exact .refl _ _
    exact .refl _ _

theorem exchange_within (d : Dev) : Within [.regs, .usb, .root, .stem, .trk, .ras, .cam, .br, .cells] d (exchange d) := by
  unfold exchange; try dsimp only
  with_reducible
    refine .via ?_ (setFld_within ..) (by decide)
    refine .foldl ?_ (fun _ _ => ?_)
    refine .via ?_ (within_root_stem_trk_ras_br_cells (h := by rfl) ..) (by decide)
    refine .via ?_ (camExchange_within ..) (by decide)
    exact .refl _ _
    refine .ite ?_ ?_
    refine .via ?_ (setFlds_within ..) (by decide)
    exact .refl _ _
    exact .refl _ _

theorem unloadNow_within (a : PendingApply) (d : Dev) : Within [.regs, .usb, .ring, .root, .stem, .trk, .ras, .cam, .flt, .br, .cells] d (unloadNow a d) := by
  unfold unloadNow; try dsimp only
  with_reducible
    refine .via ?_ (releaseIfDone_within ..) (by decide)
    refine .via ?_ (complete_within ..) (by decide)
    refine .via ?_ (raise_within ..) (by decide)
    refine .via ?_ (stumpSteps_within ..) (by decide)
    refine .via ?_ (setLead_within ..) (by decide)
    refine .via ?_ (setFlds_within ..) (by decide)
    refine .via ?_ (clearGraftRegs_within ..) (by decide)
    refine .via ?_ (within_root ..) (by decide)
    refine .via ?_ (exchange_within ..) (by decide)
    refine .via ?_ (within_root ..) (by decide)
    refine .via ?_ (lastWriter_within ..) (by decide)
    exact .refl _ _

theorem carryBuffer_within (d : Dev) (t u : Nat) : Within [.trk] d (carryBuffer d t u) := by
  unfold carryBuffer; try dsimp only
  with_reducible
    refine .via ?_ (within_trk (h := by rfl) ..) (by decide)
    refine .foldl ?_ (fun _ _ => ?_)
    exact .refl _ _
    refine .ite ?_ ?_
    refine .via ?_ (setUsed_within ..) (by decide)
    refine .via ?_ (within_trk (h := by rfl) ..) (by decide)
    exact .refl _ _
    refine .via ?_ (within_trk (h := by rfl) ..) (by decide)
    exact .refl _ _

theorem graftRegs_within (d : Dev) : Within [.regs] d (graftRegs d) := by
  unfold graftRegs; try dsimp only
  with_reducible
    refine .via ?_ (setFlds_within ..) (by decide)
    refine .foldl ?_ (fun _ _ => ?_)
    refine .foldl ?_ (fun _ _ => ?_)
    exact .refl _ _
    split
    refine .via ?_ (setFlds_within ..) (by decide)
    exact .refl _ _
    refine .via ?_ (setReg_within ..) (by decide)
    exact .refl _ _
    refine .via ?_ (setFlds_within ..) (by decide)
    exact .refl _ _

theorem graftLineRings_within (kept : List Nat) (d : Dev) : Within [.trk] d (graftLineRings kept d) := by
  unfold graftLineRings; try dsimp only
  with_reducible
    refine .foldl ?_ (fun _ _ => ?_)
    refine .foldl ?_ (fun _ _ => ?_)
    exact .refl _ _
    refine .via ?_ (newLineRing_within ..) (by decide)
    exact .refl _ _
    split
    refine .ite ?_ ?_
    exact .refl _ _
    refine .via ?_ (newLineRing_within ..) (by decide)
    exact .refl _ _
    refine .ite ?_ ?_
    exact .refl _ _
    refine .via ?_ (setLineRing_within ..) (by decide)
    exact .refl _ _

theorem freshHistory_within (d : Dev) : Within [.regs, .usb, .ring, .root, .stem, .trk, .mem] d (freshHistory d) := by
  unfold freshHistory; try dsimp only
  with_reducible
    refine .foldl ?_ (fun _ _ => ?_)
    exact .refl _ _
    refine .via ?_ (invalidate_within ..) (by decide)
    exact .refl _ _

theorem graftRings_within (d : Dev) : Within [.ring] d (graftRings d) := by
  unfold graftRings; try dsimp only
  with_reducible
    refine .foldl ?_ (fun _ _ => ?_)
    exact .refl _ _
    refine .ite ?_ ?_
    refine .via ?_ (within_ring ..) (by decide)
    refine .via ?_ (ringPut_within ..) (by decide)
    exact .refl _ _
    exact .refl _ _

theorem openFree_within (nv : NonVol) (d : Dev) : Within [.regs, .usb, .ring, .root, .stem, .trk, .mem, .br] d (openFree nv d) := by
  unfold openFree; try dsimp only
  with_reducible
    refine .via ?_ (openFrames_within ..) (by decide)
    exact .refl _ _

theorem startCadence_within (k : Nat) (d : Dev) : Within [.stem, .ras] d (startCadence k d) := by
  unfold startCadence; try dsimp only
  with_reducible
    refine .via ?_ (newOutput_within ..) (by decide)
    refine .via ?_ (within_stem ..) (by decide)
    exact .refl _ _

theorem applyNow_within (nv : NonVol) (a : PendingApply) (d : Dev) : Within [.regs, .live, .usb, .ring, .root, .stem, .trk, .mem, .ras, .inp, .cam, .flt, .br, .cells] d (applyNow nv a d) := by
  unfold applyNow; try dsimp only
  with_reducible
    refine .via ?_ (releaseIfDone_within ..) (by decide)
    refine .via ?_ (complete_within ..) (by decide)
    refine .via ?_ (raise_within ..) (by decide)
    refine .via ?_ (openFree_within ..) (by decide)
    refine .via ?_ (startCadence_within ..) (by decide)
    refine .via ?_ (setLead_within ..) (by decide)
    refine .via ?_ (freshHistory_within ..) (by decide)
    refine .via ?_ (graftRings_within ..) (by decide)
    refine .via ?_ (zeroTables_within ..) (by decide)
    refine .ite ?_ ?_
    refine .via ?_ (camApply_within ..) (by decide)
    refine .via ?_ (graftLineRings_within ..) (by decide)
    refine .via ?_ (setFld_within ..) (by decide)
    refine .via ?_ (graftRegs_within ..) (by decide)
    split
    refine .via ?_ (within_root ..) (by decide)
    refine .foldl ?_ (fun _ _ => ?_)
    refine .via ?_ (exchange_within ..) (by decide)
    refine .via ?_ (within_root ..) (by decide)
    refine .via ?_ (lastWriter_within ..) (by decide)
    exact .refl _ _
    refine .via ?_ (carryBuffer_within ..) (by decide)
    exact .refl _ _
    refine .foldl ?_ (fun _ _ => ?_)
    refine .via ?_ (exchange_within ..) (by decide)
    refine .via ?_ (within_root ..) (by decide)
    refine .via ?_ (lastWriter_within ..) (by decide)
    exact .refl _ _
    refine .via ?_ (carryBuffer_within ..) (by decide)
    exact .refl _ _
    refine .via ?_ (within_inp ..) (by decide)
    refine .via ?_ (camApply_within ..) (by decide)
    refine .via ?_ (graftLineRings_within ..) (by decide)
    refine .via ?_ (setFld_within ..) (by decide)
    refine .via ?_ (graftRegs_within ..) (by decide)
    split
    refine .via ?_ (within_root ..) (by decide)
    refine .foldl ?_ (fun _ _ => ?_)
    refine .via ?_ (exchange_within ..) (by decide)
    refine .via ?_ (within_root ..) (by decide)
    refine .via ?_ (lastWriter_within ..) (by decide)
    exact .refl _ _
    refine .via ?_ (carryBuffer_within ..) (by decide)
    exact .refl _ _
    refine .foldl ?_ (fun _ _ => ?_)
    refine .via ?_ (exchange_within ..) (by decide)
    refine .via ?_ (within_root ..) (by decide)
    refine .via ?_ (lastWriter_within ..) (by decide)
    exact .refl _ _
    refine .via ?_ (carryBuffer_within ..) (by decide)
    exact .refl _ _

theorem unprepare_within (d : Dev) : Within [.regs, .usb, .ring, .root, .stem, .trk, .cam, .flt] d (unprepare d) := by
  unfold unprepare; try dsimp only
  with_reducible
    refine .via ?_ (setFld_within ..) (by decide)
    refine .via ?_ (releaseSpace_within ..) (by decide)
    refine .via ?_ (within_root ..) (by decide)
    exact .refl _ _

theorem applyInstant_within (nv : NonVol) (d : Dev) : Within [.regs, .live, .usb, .ring, .root, .stem, .trk, .mem, .ras, .inp, .cam, .flt, .br, .cells] d (applyInstant nv d) := by
  unfold applyInstant; try dsimp only
  with_reducible
    split
    exact .refl _ _
    refine .ite ?_ ?_
    exact .refl _ _
    refine .ite ?_ ?_
    refine .via ?_ (unloadNow_within ..) (by decide)
    exact .refl _ _
    refine .ite ?_ ?_
    refine .via ?_ (applyNow_within ..) (by decide)
    exact .refl _ _
    refine .via ?_ (complete_within ..) (by decide)
    refine .via ?_ (unprepare_within ..) (by decide)
    exact .refl _ _

theorem serveReadmits_within (nv : NonVol) (d : Dev) : Within [.regs, .usb, .root, .stem] d (serveReadmits nv d) := by
  unfold serveReadmits; try dsimp only
  with_reducible
    refine .foldl ?_ (fun _ _ => ?_)
    refine .via ?_ (within_root ..) (by decide)
    exact .refl _ _
    refine .ite ?_ ?_
    refine .via ?_ (complete_within ..) (by decide)
    exact .refl _ _
    refine .ite ?_ ?_
    refine .via ?_ (complete_within ..) (by decide)
    refine .via ?_ (raise_within ..) (by decide)
    refine .via ?_ (setFld_within ..) (by decide)
    exact .refl _ _
    refine .via ?_ (complete_within ..) (by decide)
    exact .refl _ _

theorem prepPage_within {d : Dev} {t v : Nat} {e : Dev} (h : prepPage d t v = some e) : Within [.trk] d e := by
  obtain ⟨p, -, rfl⟩ := Option.map_eq_some_iff.mp h
  exact ((Within.refl _ _).via (takeLpn_within ..) (by decide)).via (setPage_within ..) (by decide)

theorem prepAll_within {d : Dev} {e : Dev} (h : prepAll d = some e) : Within [.trk] d e := by
  refine Within.foldl_option (fun e he => by cases he; exact .refl _ _) (fun o a ho => ?_) e h
  refine Within.foldl_option ho (fun o i ho e he => ?_)
  obtain ⟨x, hx, he⟩ := Option.bind_eq_some_iff.mp he
  exact (ho x hx).via (prepPage_within he) (by decide)

theorem graftApplyOp_within (k : Nat) (earliest : Bool) (key : Nat) (d : Dev) : Within [.regs, .usb, .root, .stem, .trk, .ras] d (graftApplyOp k earliest key d) := by
  unfold graftApplyOp; try dsimp only
  with_reducible
    refine .ite ?_ ?_
    refine .via ?_ (complete_within ..) (by decide)
    exact .refl _ _
    split
    refine .via ?_ (within_root_trk (h := by rfl) ..) (by decide)
    refine .via ?_ (progAt_within ..) (by decide)
    refine .via ?_ (prepAll_within (by assumption)) (by decide)
    refine .via ?_ (progStart_within ..) (by decide)
    refine .via ?_ (setFld_within ..) (by decide)
    refine .via ?_ (replayExit_within ..) (by decide)
    exact .refl _ _
    refine .via ?_ (progFail_within ..) (by decide)
    refine .via ?_ (complete_within ..) (by decide)
    refine .via ?_ (setFld_within ..) (by decide)
    refine .via ?_ (progStart_within ..) (by decide)
    refine .via ?_ (setFld_within ..) (by decide)
    refine .via ?_ (replayExit_within ..) (by decide)
    exact .refl _ _

theorem placeSeed_within (d : Dev) (i : Nat) : Within [.trk, .mem] d (placeSeed d i) := by
  unfold placeSeed; try dsimp only
  with_reducible
    split
    exact .refl _ _
    refine .foldl ?_ (fun _ _ => ?_)
    exact .refl _ _
    refine .ite ?_ ?_
    refine .ite ?_ ?_
    refine .via ?_ (setPage_within ..) (by decide)
    refine .via ?_ (writeMem_within ..) (by decide)
    exact .refl _ _
    exact .refl _ _
    refine .via ?_ (setPage_within ..) (by decide)
    refine .ite ?_ ?_
    refine .via ?_ (writeLp6_within ..) (by decide)
    exact .refl _ _
    exact .refl _ _

theorem prepDoneOp_within (d : Dev) : Within [.regs, .root, .trk, .mem] d (prepDoneOp d) := by
  unfold prepDoneOp; try dsimp only
  with_reducible
    split
    exact .refl _ _
    refine .ite ?_ ?_
    exact .refl _ _
    refine .via ?_ (progDone_within ..) (by decide)
    refine .via ?_ (within_root ..) (by decide)
    refine .foldl ?_ (fun _ _ => ?_)
    exact .refl _ _
    refine .via ?_ (placeSeed_within ..) (by decide)
    exact .refl _ _

theorem graftAbortOp_within (key : Nat) (d : Dev) : Within [.regs, .usb, .ring, .root, .stem, .trk, .cam, .flt] d (graftAbortOp key d) := by
  unfold graftAbortOp; try dsimp only
  with_reducible
    refine .ite ?_ ?_
    refine .via ?_ (complete_within ..) (by decide)
    exact .refl _ _
    refine .via ?_ (complete_within ..) (by decide)
    refine .via ?_ (setFld_within ..) (by decide)
    refine .via ?_ (releaseSpace_within ..) (by decide)
    refine .via ?_ (within_root ..) (by decide)
    split
    refine .ite ?_ ?_
    split
    refine .via ?_ (progFail_within ..) (by decide)
    refine .via ?_ (complete_within ..) (by decide)
    refine .via ?_ (within_root ..) (by decide)
    exact .refl _ _
    exact .refl _ _
    refine .via ?_ (progFail_within ..) (by decide)
    refine .via ?_ (complete_within ..) (by decide)
    refine .via ?_ (within_root ..) (by decide)
    split
    refine .via ?_ (progFail_within ..) (by decide)
    refine .via ?_ (complete_within ..) (by decide)
    refine .via ?_ (within_root ..) (by decide)
    exact .refl _ _
    exact .refl _ _
    split
    refine .via ?_ (progFail_within ..) (by decide)
    refine .via ?_ (complete_within ..) (by decide)
    refine .via ?_ (within_root ..) (by decide)
    exact .refl _ _
    exact .refl _ _

theorem graftUnloadOp_within (k : Nat) (earliest : Bool) (key : Nat) (d : Dev) : Within [.regs, .usb, .root, .stem, .ras] d (graftUnloadOp k earliest key d) := by
  unfold graftUnloadOp; try dsimp only
  with_reducible
    refine .ite ?_ ?_
    refine .via ?_ (complete_within ..) (by decide)
    exact .refl _ _
    refine .ite ?_ ?_
    refine .via ?_ (complete_within ..) (by decide)
    exact .refl _ _
    refine .via ?_ (within_root ..) (by decide)
    refine .via ?_ (replayExit_within ..) (by decide)
    exact .refl _ _

theorem releaseDeadlineOp_within (nv : NonVol) (d : Dev) : Within [.regs, .usb, .ring, .root, .stem, .trk, .mem, .cam, .flt, .br, .cells] d (releaseDeadlineOp nv d) := by
  unfold releaseDeadlineOp; try dsimp only
  with_reducible
    refine .ite ?_ ?_
    exact .refl _ _
    refine .via ?_ (closeFrames_within ..) (by decide)
    refine .via ?_ (releaseOutgoing_within ..) (by decide)
    refine .via ?_ (setFrames_within ..) (by decide)
    refine .foldl ?_ (fun _ _ => ?_)
    exact .refl _ _
    refine .via ?_ (endFrame_within ..) (by decide)
    exact .refl _ _

theorem readmitOp_within (p key : Nat) (d : Dev) : Within [.usb, .root] d (readmitOp p key d) := by
  unfold readmitOp; try dsimp only
  with_reducible
    refine .ite ?_ ?_
    refine .via ?_ (complete_within ..) (by decide)
    exact .refl _ _
    refine .via ?_ (within_root ..) (by decide)
    exact .refl _ _

end Sys2Proof.Machine
end

