-- ==== Sys2Proof/Laws/GroveFrame.lean ====
section
/-! SUPPORT. What each operation of Machine/Grove.lean may change. -/

namespace Sys2Proof.Machine

theorem loadDevTime_within (d : Dev) : Within [.devTime, .grv] d (loadDevTime d) := by
  unfold loadDevTime; try dsimp only
  with_reducible
    split
    refine .ite ?_ ?_
    exact .refl _ _
    refine .via ?_ (within_devTime_grv ..) (by decide)
    exact .refl _ _
    exact .refl _ _

theorem loseGrove_within (cause : Nat) (d : Dev) : Within [.regs, .usb, .root, .stem, .grv] d (loseGrove cause d) := by
  unfold loseGrove; try dsimp only
  with_reducible
    refine .via ?_ (raise_within ..) (by decide)
    refine .via ?_ (bump_within ..) (by decide)
    refine .via ?_ (setFld_within ..) (by decide)
    refine .via ?_ (within_grv ..) (by decide)
    exact .refl _ _

theorem grovePos0_within (n : Nat) (d : Dev) : Within [.regs, .live, .devTime, .usb, .root, .stem, .grv] d (grovePos0 n d).1 := by
  unfold grovePos0; try dsimp only
  with_reducible
    refine .ite_fst ?_ ?_
    refine .pair ?_
    refine .via ?_ (setLive_within ..) (by decide)
    exact .refl _ _
    refine .ite_fst ?_ ?_
    refine .pair ?_
    refine .via ?_ (setFlds_within ..) (by decide)
    refine .via ?_ (setLive_within ..) (by decide)
    exact .refl _ _
    refine .ite_fst ?_ ?_
    refine .pair ?_
    refine .via ?_ (setFld_within ..) (by decide)
    refine .via ?_ (setLive_within ..) (by decide)
    exact .refl _ _
    split
    refine .pair ?_
    refine .via ?_ (within_grv ..) (by decide)
    split
    refine .via ?_ (setFlds_within ..) (by decide)
    refine .via ?_ (setLive_within ..) (by decide)
    exact .refl _ _
    refine .ite ?_ ?_
    refine .via ?_ (setFld_within ..) (by decide)
    refine .via ?_ (setLive_within ..) (by decide)
    exact .refl _ _
    refine .via ?_ (setLive_within ..) (by decide)
    exact .refl _ _
    refine .pair ?_
    refine .ite ?_ ?_
    refine .via ?_ (raise_within ..) (by decide)
    refine .via ?_ (setFld_within ..) (by decide)
    refine .via ?_ (loadDevTime_within ..) (by decide)
    refine .via ?_ (within_grv ..) (by decide)
    refine .via ?_ (setFld_within ..) (by decide)
    refine .via ?_ (within_grv ..) (by decide)
    split
    refine .via ?_ (setFlds_within ..) (by decide)
    refine .via ?_ (setLive_within ..) (by decide)
    exact .refl _ _
    refine .ite ?_ ?_
    refine .via ?_ (setFld_within ..) (by decide)
    refine .via ?_ (setLive_within ..) (by decide)
    exact .refl _ _
    refine .via ?_ (setLive_within ..) (by decide)
    exact .refl _ _
    refine .ite ?_ ?_
    refine .via ?_ (loseGrove_within ..) (by decide)
    refine .via ?_ (within_grv ..) (by decide)
    refine .via ?_ (setFld_within ..) (by decide)
    refine .via ?_ (within_grv ..) (by decide)
    split
    refine .via ?_ (setFlds_within ..) (by decide)
    refine .via ?_ (setLive_within ..) (by decide)
    exact .refl _ _
    refine .ite ?_ ?_
    refine .via ?_ (setFld_within ..) (by decide)
    refine .via ?_ (setLive_within ..) (by decide)
    exact .refl _ _
    refine .via ?_ (setLive_within ..) (by decide)
    exact .refl _ _
    refine .via ?_ (within_grv ..) (by decide)
    refine .via ?_ (setFld_within ..) (by decide)
    refine .via ?_ (within_grv ..) (by decide)
    split
    refine .via ?_ (setFlds_within ..) (by decide)
    refine .via ?_ (setLive_within ..) (by decide)
    exact .refl _ _
    refine .ite ?_ ?_
    refine .via ?_ (setFld_within ..) (by decide)
    refine .via ?_ (setLive_within ..) (by decide)
    exact .refl _ _
    refine .via ?_ (setLive_within ..) (by decide)
    exact .refl _ _

theorem grovePos0_within' {n : Nat} {d : Dev} {z' : Dev} {y' : Option Int} (h : grovePos0 n d = (z', y')) : Within [.regs, .live, .devTime, .usb, .root, .stem, .grv] d z' := by
  have w' := grovePos0_within n d
  rw [h] at w'; exact w'

theorem fsyncOutOp_within (d : Dev) : Within [.grv] d (fsyncOutOp d) := by
  unfold fsyncOutOp; try dsimp only
  with_reducible
    refine .ite ?_ ?_
    exact .refl _ _
    refine .via ?_ (within_grv ..) (by decide)
    exact .refl _ _

theorem fsyncInOp_within (d : Dev) : Within [.grv] d (fsyncInOp d) := by
  unfold fsyncInOp; try dsimp only
  with_reducible
    refine .ite ?_ ?_
    exact .refl _ _
    refine .via ?_ (within_grv ..) (by decide)
    exact .refl _ _

theorem fsyncTimeoutOp_within (d : Dev) : Within [.regs, .usb, .root, .stem, .grv] d (fsyncTimeoutOp d) := by
  unfold fsyncTimeoutOp; try dsimp only
  with_reducible
    split
    refine .ite ?_ ?_
    refine .via ?_ (loseGrove_within ..) (by decide)
    exact .refl _ _
    exact .refl _ _
    exact .refl _ _

theorem tupleMatch_within (d : Dev) : Within [.regs, .usb, .root, .stem] d (tupleMatch d) := by
  unfold tupleMatch; try dsimp only
  with_reducible
    split
    exact .refl _ _
    refine .ite ?_ ?_
    refine .via ?_ (raise_within ..) (by decide)
    refine .via ?_ (setFld_within ..) (by decide)
    exact .refl _ _
    refine .via ?_ (setFld_within ..) (by decide)
    exact .refl _ _

theorem timeCodeOp_within (code : Bytes) (d : Dev) : Within [.regs, .devTime, .usb, .root, .stem, .grv] d (timeCodeOp code d) := by
  unfold timeCodeOp; try dsimp only
  with_reducible
    refine .ite ?_ ?_
    exact .refl _ _
    refine .ite ?_ ?_
    refine .via ?_ (tupleMatch_within ..) (by decide)
    refine .ite ?_ ?_
    refine .via ?_ (loadDevTime_within ..) (by decide)
    refine .via ?_ (setFlds_within ..) (by decide)
    refine .ite ?_ ?_
    refine .via ?_ (within_grv ..) (by decide)
    exact .refl _ _
    refine .via ?_ (within_grv ..) (by decide)
    exact .refl _ _
    refine .via ?_ (setFlds_within ..) (by decide)
    refine .ite ?_ ?_
    refine .via ?_ (within_grv ..) (by decide)
    exact .refl _ _
    refine .via ?_ (within_grv ..) (by decide)
    exact .refl _ _
    refine .ite ?_ ?_
    refine .via ?_ (raise_within ..) (by decide)
    refine .via ?_ (within_grv ..) (by decide)
    refine .ite ?_ ?_
    refine .via ?_ (setFld_within ..) (by decide)
    refine .via ?_ (bump_within ..) (by decide)
    refine .via ?_ (within_grv ..) (by decide)
    exact .refl _ _
    refine .via ?_ (bump_within ..) (by decide)
    refine .via ?_ (within_grv ..) (by decide)
    exact .refl _ _
    refine .ite ?_ ?_
    refine .via ?_ (setFld_within ..) (by decide)
    refine .via ?_ (bump_within ..) (by decide)
    refine .via ?_ (within_grv ..) (by decide)
    exact .refl _ _
    refine .via ?_ (bump_within ..) (by decide)
    refine .via ?_ (within_grv ..) (by decide)
    exact .refl _ _

theorem tupleChangedOp_within (nv : NonVol) (d : Dev) : Within [.regs, .usb, .root, .stem] d (tupleChangedOp nv d) := by
  unfold tupleChangedOp; try dsimp only
  with_reducible
    refine .ite ?_ ?_
    exact .refl _ _
    refine .via ?_ (tupleMatch_within ..) (by decide)
    refine .via ?_ (raise_within ..) (by decide)
    refine .via ?_ (setFld_within ..) (by decide)
    exact .refl _ _

end Sys2Proof.Machine
end

