-- ==== Sys2Proof/Laws/RasterFrame.lean ====
section
/-! SUPPORT. What each operation of Machine/Raster.lean may change. -/

namespace Sys2Proof.Machine

theorem chooseBpp_within (p : Nat) (d : Dev) : Within [.ras] d (chooseBpp p d) := by
  unfold chooseBpp; try dsimp only
  with_reducible
    refine .via ?_ (within_ras ..) (by decide)
    exact .refl _ _

theorem updateCap_within (d : Dev) : Within [.regs] d (updateCap d) := by
  unfold updateCap; try dsimp only
  with_reducible
    refine .via ?_ (setFld_within ..) (by decide)
    exact .refl _ _

theorem idlePorts_within (d : Dev) : Within [.regs] d (idlePorts d) := by
  unfold idlePorts; try dsimp only
  with_reducible
    refine .via ?_ (updateCap_within ..) (by decide)
    refine .foldl ?_ (fun _ _ => ?_)
    exact .refl _ _
    refine .ite ?_ ?_
    exact .refl _ _
    refine .via ?_ (setFlds_within ..) (by decide)
    exact .refl _ _

theorem adoptSet_within (nv : NonVol) (d : Dev) : Within [.regs, .live, .usb, .root, .stem, .trk, .ras] d (adoptSet nv d) := by
  unfold adoptSet; try dsimp only
  with_reducible
    split
    refine .via ?_ (within_ras ..) (by decide)
    exact .refl _ _
    refine .via ?_ (stumpSteps_within ..) (by decide)
    refine .via ?_ (reevaluate_within ..) (by decide)
    refine .via ?_ (within_ras ..) (by decide)
    refine .ite ?_ ?_
    refine .via ?_ (reevaluate_within ..) (by decide)
    refine .via ?_ (chooseBpp_within ..) (by decide)
    refine .via ?_ (chooseBpp_within ..) (by decide)
    refine .via ?_ (idlePorts_within ..) (by decide)
    refine .via ?_ (placeUnd_within ..) (by decide)
    refine .foldl ?_ (fun _ _ => ?_)
    refine .via ?_ (within_ras ..) (by decide)
    exact .refl _ _
    refine .via ?_ (setLive_within ..) (by decide)
    exact .refl _ _
    refine .via ?_ (chooseBpp_within ..) (by decide)
    refine .via ?_ (chooseBpp_within ..) (by decide)
    refine .via ?_ (idlePorts_within ..) (by decide)
    refine .via ?_ (placeUnd_within ..) (by decide)
    refine .foldl ?_ (fun _ _ => ?_)
    refine .via ?_ (within_ras ..) (by decide)
    exact .refl _ _
    refine .via ?_ (setLive_within ..) (by decide)
    exact .refl _ _

theorem takeCommit_within (nv : NonVol) (d : Dev) : Within [.regs, .usb, .root, .stem, .ras] d (takeCommit nv d) := by
  unfold takeCommit; try dsimp only
  with_reducible
    refine .ite ?_ ?_
    exact .refl _ _
    split
    refine .via ?_ (reportLead_within ..) (by decide)
    refine .via ?_ (raise_within ..) (by decide)
    refine .via ?_ (within_ras ..) (by decide)
    refine .via ?_ (setFlds_within ..) (by decide)
    refine .via ?_ (setFld_within ..) (by decide)
    exact .refl _ _
    refine .via ?_ (raise_within ..) (by decide)
    refine .via ?_ (setFld_within ..) (by decide)
    refine .via ?_ (setFld_within ..) (by decide)
    exact .refl _ _

theorem checkRects_within (n : Nat) (d : Dev) : Within [.regs, .usb, .root, .stem] d (checkRects n d) := by
  unfold checkRects; try dsimp only
  with_reducible
    refine .foldl ?_ (fun _ _ => ?_)
    exact .refl _ _
    refine .ite ?_ ?_
    exact .refl _ _
    refine .ite ?_ ?_
    refine .via ?_ (raise_within ..) (by decide)
    refine .via ?_ (bump_within ..) (by decide)
    refine .via ?_ (setFlds_within ..) (by decide)
    exact .refl _ _
    refine .via ?_ (setFlds_within ..) (by decide)
    exact .refl _ _

theorem frameDone_within (n : Nat) (d : Dev) : Within [.regs, .usb, .root, .stem] d (frameDone n d) := by
  unfold frameDone; try dsimp only
  with_reducible
    refine .via ?_ (checkRects_within ..) (by decide)
    refine .ite ?_ ?_
    refine .ite ?_ ?_
    refine .ite ?_ ?_
    refine .ite ?_ ?_
    refine .via ?_ (setFlds_within ..) (by decide)
    refine .via ?_ (raiseStem_within ..) (by decide)
    exact .refl _ _
    refine .via ?_ (raise_within ..) (by decide)
    refine .via ?_ (setFlds_within ..) (by decide)
    refine .via ?_ (raiseStem_within ..) (by decide)
    exact .refl _ _
    refine .via ?_ (raise_within ..) (by decide)
    refine .ite ?_ ?_
    refine .via ?_ (setFlds_within ..) (by decide)
    refine .via ?_ (raiseStem_within ..) (by decide)
    exact .refl _ _
    refine .via ?_ (raise_within ..) (by decide)
    refine .via ?_ (setFlds_within ..) (by decide)
    refine .via ?_ (raiseStem_within ..) (by decide)
    exact .refl _ _
    refine .via ?_ (raise_within ..) (by decide)
    refine .ite ?_ ?_
    refine .ite ?_ ?_
    refine .via ?_ (setFlds_within ..) (by decide)
    refine .via ?_ (raiseStem_within ..) (by decide)
    exact .refl _ _
    refine .via ?_ (raise_within ..) (by decide)
    refine .via ?_ (setFlds_within ..) (by decide)
    refine .via ?_ (raiseStem_within ..) (by decide)
    exact .refl _ _
    refine .via ?_ (raise_within ..) (by decide)
    refine .ite ?_ ?_
    refine .via ?_ (setFlds_within ..) (by decide)
    refine .via ?_ (raiseStem_within ..) (by decide)
    exact .refl _ _
    refine .via ?_ (raise_within ..) (by decide)
    refine .via ?_ (setFlds_within ..) (by decide)
    refine .via ?_ (raiseStem_within ..) (by decide)
    exact .refl _ _
    refine .via ?_ (raise_within ..) (by decide)
    refine .ite ?_ ?_
    refine .ite ?_ ?_
    refine .ite ?_ ?_
    refine .via ?_ (setFlds_within ..) (by decide)
    refine .via ?_ (raiseStem_within ..) (by decide)
    exact .refl _ _
    refine .via ?_ (raise_within ..) (by decide)
    refine .via ?_ (setFlds_within ..) (by decide)
    refine .via ?_ (raiseStem_within ..) (by decide)
    exact .refl _ _
    refine .via ?_ (raise_within ..) (by decide)
    refine .ite ?_ ?_
    refine .via ?_ (setFlds_within ..) (by decide)
    refine .via ?_ (raiseStem_within ..) (by decide)
    exact .refl _ _
    refine .via ?_ (raise_within ..) (by decide)
    refine .via ?_ (setFlds_within ..) (by decide)
    refine .via ?_ (raiseStem_within ..) (by decide)
    exact .refl _ _
    refine .via ?_ (raise_within ..) (by decide)
    refine .ite ?_ ?_
    refine .ite ?_ ?_
    refine .via ?_ (setFlds_within ..) (by decide)
    refine .via ?_ (raiseStem_within ..) (by decide)
    exact .refl _ _
    refine .via ?_ (raise_within ..) (by decide)
    refine .via ?_ (setFlds_within ..) (by decide)
    refine .via ?_ (raiseStem_within ..) (by decide)
    exact .refl _ _
    refine .via ?_ (raise_within ..) (by decide)
    refine .ite ?_ ?_
    refine .via ?_ (setFlds_within ..) (by decide)
    refine .via ?_ (raiseStem_within ..) (by decide)
    exact .refl _ _
    refine .via ?_ (raise_within ..) (by decide)
    refine .via ?_ (setFlds_within ..) (by decide)
    refine .via ?_ (raiseStem_within ..) (by decide)
    exact .refl _ _

theorem enterReplay_within (d : Dev) : Within [.regs, .usb, .ring, .root, .stem, .trk, .mem, .ras] d (enterReplay d) := by
  unfold enterReplay; try dsimp only
  with_reducible
    refine .ite ?_ ?_
    refine .foldl ?_ (fun _ _ => ?_)
    refine .via ?_ (within_ras ..) (by decide)
    exact .refl _ _
    refine .via ?_ (requestHist_within ..) (by decide)
    exact .refl _ _
    exact .refl _ _

theorem blankingOp_within (nv : NonVol) (d : Dev) : Within [.regs, .live, .usb, .ring, .root, .stem, .trk, .mem, .ras, .cnp, .inp, .flt] d (blankingOp nv d) := by
  unfold blankingOp; try dsimp only
  with_reducible
    refine .ite ?_ ?_
    exact .refl _ _
    split
    refine .ite ?_ ?_
    refine .via ?_ (clearProtected_within ..) (by decide)
    refine .ite ?_ ?_
    refine .via ?_ (serveReadmits_within ..) (by decide)
    refine .via ?_ (rejoinUnits_within ..) (by decide)
    refine .via ?_ (enterReplay_within ..) (by decide)
    refine .via ?_ (raiseStem_within ..) (by decide)
    refine .via ?_ (ringInc_within ..) (by decide)
    refine .ite ?_ ?_
    refine .via ?_ (within_ras ..) (by decide)
    exact .refl _ _
    refine .via ?_ (takeCommit_within ..) (by decide)
    refine .via ?_ (frameDone_within ..) (by decide)
    refine .via ?_ (within_ras ..) (by decide)
    exact .refl _ _
    refine .via ?_ (flipInstant_within ..) (by decide)
    refine .via ?_ (serveReadmits_within ..) (by decide)
    refine .via ?_ (rejoinUnits_within ..) (by decide)
    refine .via ?_ (enterReplay_within ..) (by decide)
    refine .via ?_ (raiseStem_within ..) (by decide)
    refine .via ?_ (ringInc_within ..) (by decide)
    refine .ite ?_ ?_
    refine .via ?_ (within_ras ..) (by decide)
    exact .refl _ _
    refine .via ?_ (takeCommit_within ..) (by decide)
    refine .via ?_ (frameDone_within ..) (by decide)
    refine .via ?_ (within_ras ..) (by decide)
    exact .refl _ _
    refine .ite ?_ ?_
    refine .via ?_ (serveReadmits_within ..) (by decide)
    refine .via ?_ (rejoinUnits_within ..) (by decide)
    refine .via ?_ (enterReplay_within ..) (by decide)
    refine .via ?_ (raiseStem_within ..) (by decide)
    refine .via ?_ (ringInc_within ..) (by decide)
    refine .ite ?_ ?_
    refine .via ?_ (within_ras ..) (by decide)
    exact .refl _ _
    refine .via ?_ (takeCommit_within ..) (by decide)
    refine .via ?_ (frameDone_within ..) (by decide)
    refine .via ?_ (within_ras ..) (by decide)
    exact .refl _ _
    refine .via ?_ (flipInstant_within ..) (by decide)
    refine .via ?_ (serveReadmits_within ..) (by decide)
    refine .via ?_ (rejoinUnits_within ..) (by decide)
    refine .via ?_ (enterReplay_within ..) (by decide)
    refine .via ?_ (raiseStem_within ..) (by decide)
    refine .via ?_ (ringInc_within ..) (by decide)
    refine .ite ?_ ?_
    refine .via ?_ (within_ras ..) (by decide)
    exact .refl _ _
    refine .via ?_ (takeCommit_within ..) (by decide)
    refine .via ?_ (frameDone_within ..) (by decide)
    refine .via ?_ (within_ras ..) (by decide)
    exact .refl _ _
    refine .ite ?_ ?_
    refine .via ?_ (serveReadmits_within ..) (by decide)
    refine .via ?_ (rejoinUnits_within ..) (by decide)
    refine .via ?_ (enterReplay_within ..) (by decide)
    refine .via ?_ (raiseStem_within ..) (by decide)
    refine .via ?_ (ringInc_within ..) (by decide)
    refine .ite ?_ ?_
    refine .via ?_ (within_ras ..) (by decide)
    exact .refl _ _
    refine .via ?_ (takeCommit_within ..) (by decide)
    refine .via ?_ (frameDone_within ..) (by decide)
    refine .via ?_ (within_ras ..) (by decide)
    exact .refl _ _
    refine .via ?_ (flipInstant_within ..) (by decide)
    refine .via ?_ (serveReadmits_within ..) (by decide)
    refine .via ?_ (rejoinUnits_within ..) (by decide)
    refine .via ?_ (enterReplay_within ..) (by decide)
    refine .via ?_ (raiseStem_within ..) (by decide)
    refine .via ?_ (ringInc_within ..) (by decide)
    refine .ite ?_ ?_
    refine .via ?_ (within_ras ..) (by decide)
    exact .refl _ _
    refine .via ?_ (takeCommit_within ..) (by decide)
    refine .via ?_ (frameDone_within ..) (by decide)
    refine .via ?_ (within_ras ..) (by decide)
    exact .refl _ _

theorem commitWriteOp_within (value : Word) (d : Dev) : Within [.regs, .usb, .root, .stem, .ras] d (commitWriteOp value d) := by
  unfold commitWriteOp; try dsimp only
  with_reducible
    refine .ite ?_ ?_
    exact .refl _ _
    refine .via ?_ (setFld_within ..) (by decide)
    refine .via ?_ (replayExit_within ..) (by decide)
    exact .refl _ _

theorem replayRequestOp_within (d : Dev) : Within [.regs, .usb, .root, .stem] d (replayRequestOp d) := by
  unfold replayRequestOp; try dsimp only
  with_reducible
    refine .ite ?_ ?_
    refine .via ?_ (setFld_within ..) (by decide)
    exact .refl _ _
    refine .ite ?_ ?_
    refine .via ?_ (setFld_within ..) (by decide)
    exact .refl _ _
    refine .via ?_ (raise_within ..) (by decide)
    refine .via ?_ (setFlds_within ..) (by decide)
    exact .refl _ _

theorem replayStep_within (n : Nat) (d : Dev) : Within [.regs, .usb, .root, .stem, .ras] d (replayStep n d) := by
  unfold replayStep; try dsimp only
  with_reducible
    refine .ite ?_ ?_
    refine .via ?_ (raise_within ..) (by decide)
    refine .via ?_ (setFld_within ..) (by decide)
    refine .via ?_ (within_ras ..) (by decide)
    exact .refl _ _
    refine .ite ?_ ?_
    refine .via ?_ (raise_within ..) (by decide)
    refine .via ?_ (setFld_within ..) (by decide)
    refine .via ?_ (within_ras ..) (by decide)
    exact .refl _ _
    exact .refl _ _

theorem readFrom_within (n : Nat) (d : Dev) : Within [.ras] d (readFrom n d) := by
  unfold readFrom; try dsimp only
  with_reducible
    refine .ite ?_ ?_
    exact .refl _ _
    refine .via ?_ (within_ras ..) (by decide)
    exact .refl _ _

theorem openOutput_within (nv : NonVol) (n : Nat) (d : Dev) : Within [.regs, .usb, .ring, .root, .stem, .trk, .mem, .br] d (openOutput nv n d) := by
  unfold openOutput; try dsimp only
  with_reducible
    refine .via ?_ (openFrames_within ..) (by decide)
    exact .refl _ _

theorem frameStartOp_within (nv : NonVol) (d : Dev) : Within [.regs, .live, .devTime, .clk, .usb, .ring, .root, .stem, .trk, .mem, .ras, .inp, .cam, .flt, .br, .cells, .grv] d (frameStartOp nv d) := by
  unfold frameStartOp; try dsimp only
  with_reducible
    refine .ite ?_ ?_
    exact .refl _ _
    refine .via ?_ (openOutput_within ..) (by decide)
    refine .ite ?_ ?_
    refine .via ?_ (cadOpen_within ..) (by decide)
    refine .via ?_ (applyInstant_within ..) (by decide)
    refine .via ?_ (sendLine_within ..) (by decide)
    refine .via ?_ (readFrom_within ..) (by decide)
    refine .via ?_ (latchBase_within ..) (by decide)
    refine .via ?_ (within_ras ..) (by decide)
    refine .via ?_ (cadencePorch_within ..) (by decide)
    refine .via ?_ (grovePos0_within ..) (by decide)
    refine .via ?_ (replayStep_within ..) (by decide)
    refine .via ?_ (adoptSet_within ..) (by decide)
    refine .via ?_ (within_clk_root_ras ..) (by decide)
    refine .via ?_ (setFlds_within ..) (by decide)
    exact .refl _ _
    refine .via ?_ (applyInstant_within ..) (by decide)
    refine .via ?_ (sendLine_within ..) (by decide)
    refine .via ?_ (readFrom_within ..) (by decide)
    refine .via ?_ (latchBase_within ..) (by decide)
    refine .via ?_ (within_ras ..) (by decide)
    refine .via ?_ (cadencePorch_within ..) (by decide)
    refine .via ?_ (grovePos0_within ..) (by decide)
    refine .via ?_ (replayStep_within ..) (by decide)
    refine .via ?_ (adoptSet_within ..) (by decide)
    refine .via ?_ (within_clk_root_ras ..) (by decide)
    refine .via ?_ (setFlds_within ..) (by decide)
    exact .refl _ _

theorem fixWriter_within (n : Nat) (d : Dev) : Within [.mem, .ras] d (fixWriter n d) := by
  unfold fixWriter; try dsimp only
  with_reducible
    refine .ite ?_ ?_
    exact .refl _ _
    refine .via ?_ (writeMem_within ..) (by decide)
    refine .via ?_ (setOut_within ..) (by decide)
    exact .refl _ _

theorem setBitmap_within (n i : Nat) (d : Dev) : Within [.mem] d (setBitmap n i d) := by
  unfold setBitmap; try dsimp only
  with_reducible
    refine .via ?_ (writeMem_within ..) (by decide)
    exact .refl _ _

theorem substitute_within (n k c : Nat) (d : Dev) : Within [.regs, .mem, .ras] d (substitute n k c d) := by
  unfold substitute; try dsimp only
  with_reducible
    refine .via ?_ (bump_within ..) (by decide)
    refine .via ?_ (setBitmap_within ..) (by decide)
    refine .via ?_ (setOut_within ..) (by decide)
    exact .refl _ _

theorem missStrict_within (n w : Nat) (d : Dev) : Within [.regs, .usb, .root, .stem] d (missStrict n w d) := by
  unfold missStrict; try dsimp only
  with_reducible
    refine .ite ?_ ?_
    refine .via ?_ (within_root ..) (by decide)
    exact .refl _ _
    refine .ite ?_ ?_
    refine .via ?_ (loseAdmission_within ..) (by decide)
    exact .refl _ _
    exact .refl _ _

theorem judgeRow_within (n k : Nat) (d : Dev) : Within [.regs, .usb, .root, .stem, .mem, .ras] d (judgeRow n k d) := by
  unfold judgeRow; try dsimp only
  with_reducible
    refine .ite ?_ ?_
    refine .via ?_ (setOut_within ..) (by decide)
    refine .via ?_ (fixWriter_within ..) (by decide)
    exact .refl _ _
    refine .ite ?_ ?_
    refine .via ?_ (setOut_within ..) (by decide)
    refine .ite ?_ ?_
    refine .foldl ?_ (fun _ _ => ?_)
    refine .via ?_ (fixWriter_within ..) (by decide)
    exact .refl _ _
    refine .via ?_ (substitute_within ..) (by decide)
    exact .refl _ _
    refine .via ?_ (fixWriter_within ..) (by decide)
    exact .refl _ _
    refine .via ?_ (setOut_within ..) (by decide)
    refine .foldl ?_ (fun _ _ => ?_)
    refine .ite ?_ ?_
    refine .foldl ?_ (fun _ _ => ?_)
    refine .ite ?_ ?_
    refine .via ?_ (missStrict_within ..) (by decide)
    refine .via ?_ (fixWriter_within ..) (by decide)
    exact .refl _ _
    refine .via ?_ (fixWriter_within ..) (by decide)
    exact .refl _ _
    refine .via ?_ (substitute_within ..) (by decide)
    exact .refl _ _
    refine .ite ?_ ?_
    refine .via ?_ (missStrict_within ..) (by decide)
    refine .via ?_ (fixWriter_within ..) (by decide)
    exact .refl _ _
    refine .via ?_ (fixWriter_within ..) (by decide)
    exact .refl _ _
    refine .via ?_ (substitute_within ..) (by decide)
    exact .refl _ _

theorem tileRowJudgeOp_within (k : Nat) (d : Dev) : Within [.regs, .usb, .root, .stem, .mem, .ras] d (tileRowJudgeOp k d) := by
  unfold tileRowJudgeOp; try dsimp only
  with_reducible
    split
    refine .via ?_ (judgeRow_within ..) (by decide)
    exact .refl _ _
    exact .refl _ _

theorem lateSegment_within (g : Segment) (d : Dev) : Within [.regs, .ras] d (lateSegment g d) := by
  unfold lateSegment; try dsimp only
  with_reducible
    refine .via ?_ (bump_within ..) (by decide)
    refine .via ?_ (setOut_within ..) (by decide)
    exact .refl _ _

theorem segmentAckOp_within (i : Nat) (d : Dev) : Within [.regs, .trk, .mem, .ras] d (segmentAckOp i d) := by
  unfold segmentAckOp; try dsimp only
  with_reducible
    split
    exact .refl _ _
    refine .ite ?_ ?_
    refine .via ?_ (lateSegment_within ..) (by decide)
    refine .via ?_ (within_ras ..) (by decide)
    exact .refl _ _
    refine .ite ?_ ?_
    refine .via ?_ (within_ras ..) (by decide)
    exact .refl _ _
    refine .ite ?_ ?_
    refine .via ?_ (lateSegment_within ..) (by decide)
    refine .via ?_ (within_ras ..) (by decide)
    exact .refl _ _
    split
    refine .via ?_ (within_ras ..) (by decide)
    exact .refl _ _
    refine .via ?_ (setOut_within ..) (by decide)
    refine .via ?_ (vwrite_within ..) (by decide)
    refine .via ?_ (within_ras ..) (by decide)
    exact .refl _ _

theorem lineScannedOp_within (d : Dev) : Within [.regs, .ring, .ras] d (lineScannedOp d) := by
  unfold lineScannedOp; try dsimp only
  with_reducible
    refine .ite ?_ ?_
    refine .via ?_ (sendLine_within ..) (by decide)
    refine .via ?_ (setFld_within ..) (by decide)
    refine .via ?_ (within_ras ..) (by decide)
    refine .via ?_ (ringInc_within ..) (by decide)
    exact .refl _ _
    exact .refl _ _

theorem lineMatchOp_within (d : Dev) : Within [.root, .stem, .ras] d (lineMatchOp d) := by
  unfold lineMatchOp; try dsimp only
  with_reducible
    refine .ite ?_ ?_
    refine .via ?_ (raiseStem_within ..) (by decide)
    refine .via ?_ (within_ras ..) (by decide)
    exact .refl _ _
    exact .refl _ _

theorem linkEvent_within (p : Nat) (d : Dev) : Within [.regs, .usb, .root, .stem] d (linkEvent p d) := by
  unfold linkEvent; try dsimp only
  with_reducible
    refine .via ?_ (raise_within ..) (by decide)
    exact .refl _ _

theorem linkChangeOp_within (p : Nat) (up : Bool) (d : Dev) : Within [.regs, .usb, .root, .stem, .ras] d (linkChangeOp p up d) := by
  unfold linkChangeOp; try dsimp only
  with_reducible
    refine .ite ?_ ?_
    exact .refl _ _
    refine .via ?_ (linkEvent_within ..) (by decide)
    refine .ite ?_ ?_
    refine .via ?_ (setFld_within ..) (by decide)
    exact .refl _ _
    refine .via ?_ (replayExit_within ..) (by decide)
    refine .via ?_ (setFld_within ..) (by decide)
    exact .refl _ _

theorem linkTrainOp_within (p rate lanes : Nat) (hpd fec cap : Bool) (d : Dev) : Within [.regs, .usb, .root, .stem, .ras] d (linkTrainOp p rate lanes hpd fec cap d) := by
  unfold linkTrainOp; try dsimp only
  with_reducible
    refine .ite ?_ ?_
    exact .refl _ _
    refine .ite ?_ ?_
    refine .ite ?_ ?_
    refine .via ?_ (chooseBpp_within ..) (by decide)
    refine .via ?_ (updateCap_within ..) (by decide)
    refine .via ?_ (setFlds_within ..) (by decide)
    refine .via ?_ (within_ras ..) (by decide)
    exact .refl _ _
    refine .via ?_ (linkEvent_within ..) (by decide)
    refine .via ?_ (chooseBpp_within ..) (by decide)
    refine .via ?_ (updateCap_within ..) (by decide)
    refine .via ?_ (setFlds_within ..) (by decide)
    refine .via ?_ (within_ras ..) (by decide)
    exact .refl _ _
    refine .ite ?_ ?_
    refine .via ?_ (linkEvent_within ..) (by decide)
    refine .via ?_ (replayExit_within ..) (by decide)
    refine .via ?_ (updateCap_within ..) (by decide)
    refine .via ?_ (setFlds_within ..) (by decide)
    refine .via ?_ (within_ras ..) (by decide)
    exact .refl _ _
    refine .via ?_ (updateCap_within ..) (by decide)
    refine .via ?_ (setFlds_within ..) (by decide)
    refine .via ?_ (within_ras ..) (by decide)
    exact .refl _ _

end Sys2Proof.Machine
end

