-- ==== Sys2Proof/Laws/SecurityFrame.lean ====
section
/-! SUPPORT. What each operation of Machine/Security.lean may change. -/

namespace Sys2Proof.Machine

theorem agePacks_within (nv : NonVol) (d : Dev) : Within [.regs, .root] d (agePacks nv d) := by
  unfold agePacks; try dsimp only
  with_reducible
    refine .via ?_ (dropOldPacks_within ..) (by decide)
    refine .via ?_ (within_root ..) (by decide)
    exact .refl _ _

theorem announce_within (key : Nat) (kind : XferKind) (len : Nat) (d : Dev) : Within [.usb] d (announce key kind len d) := by
  unfold announce; try dsimp only
  with_reducible
    refine .via ?_ (within_usb ..) (by decide)
    exact .refl _ _

theorem attestOp_within (nv : NonVol) (nonce : Bytes) (key : Nat) (d : Dev) : Within [.regs, .usb, .root] d (attestOp nv nonce key d) := by
  unfold attestOp; try dsimp only
  with_reducible
    refine .ite ?_ ?_
    refine .via ?_ (complete_within ..) (by decide)
    exact .refl _ _
    refine .via ?_ (within_root ..) (by decide)
    refine .via ?_ (progAt_within ..) (by decide)
    refine .via ?_ (progStart_within ..) (by decide)
    exact .refl _ _

theorem barkReject_within (status key : Nat) (d : Dev) : Within [.regs, .usb, .root, .stem] d (barkReject status key d) := by
  unfold barkReject; try dsimp only
  with_reducible
    refine .via ?_ (complete_within ..) (by decide)
    refine .via ?_ (raise_within ..) (by decide)
    exact .refl _ _

theorem barkCommandOp_within (len key : Nat) (d : Dev) : Within [.regs, .usb, .root, .stem] d (barkCommandOp len key d) := by
  unfold barkCommandOp; try dsimp only
  with_reducible
    refine .ite ?_ ?_
    refine .via ?_ (barkReject_within ..) (by decide)
    exact .refl _ _
    refine .ite ?_ ?_
    refine .via ?_ (barkReject_within ..) (by decide)
    exact .refl _ _
    refine .via ?_ (announce_within ..) (by decide)
    exact .refl _ _

theorem sigRejected_within (object slot : Nat) (d : Dev) : Within [.regs, .usb, .root, .stem] d (sigRejected object slot d) := by
  unfold sigRejected; try dsimp only
  with_reducible
    refine .via ?_ (raise_within ..) (by decide)
    refine .via ?_ (bump_within ..) (by decide)
    exact .refl _ _

theorem barkFinish_within (nv : NonVol) (x : Xfer) (d : Dev) : Within [.regs, .usb, .root, .stem, .mem, .ras, .cnp] d (barkFinish nv x d) := by
  unfold barkFinish; try dsimp only
  with_reducible
    refine .ite ?_ ?_
    refine .via ?_ (barkReject_within ..) (by decide)
    exact .refl _ _
    refine .ite ?_ ?_
    refine .via ?_ (barkReject_within ..) (by decide)
    exact .refl _ _
    refine .ite ?_ ?_
    refine .via ?_ (barkReject_within ..) (by decide)
    refine .via ?_ (sigRejected_within ..) (by decide)
    exact .refl _ _
    refine .ite ?_ ?_
    refine .via ?_ (barkReject_within ..) (by decide)
    exact .refl _ _
    refine .via ?_ (replayExit_within ..) (by decide)
    refine .via ?_ (within_usb_cnp ..) (by decide)
    refine .ite ?_ ?_
    refine .via ?_ (writeMem_within ..) (by decide)
    exact .refl _ _
    exact .refl _ _

theorem certReadOp_within (nv : NonVol) (index key : Nat) (d : Dev) : Within [.usb] d (certReadOp nv index key d) := by
  unfold certReadOp; try dsimp only
  with_reducible
    refine .ite ?_ ?_
    refine .via ?_ (complete_within ..) (by decide)
    exact .refl _ _
    refine .via ?_ (complete_within ..) (by decide)
    exact .refl _ _

theorem loadBoard_within (nv : NonVol) (d : Dev) : Within [.regs, .live, .clk] d (loadBoard nv d) := by
  unfold loadBoard; try dsimp only
  with_reducible
    refine .via ?_ (within_clk ..) (by decide)
    refine .via ?_ (setFld_within ..) (by decide)
    refine .foldl ?_ (fun _ _ => ?_)
    refine .foldl ?_ (fun _ _ => ?_)
    refine .via ?_ (setLive_within ..) (by decide)
    refine .via ?_ (setReg_within ..) (by decide)
    refine .via ?_ (setFlds_within ..) (by decide)
    exact .refl _ _
    refine .via ?_ (setReg_within ..) (by decide)
    exact .refl _ _
    refine .via ?_ (setLive_within ..) (by decide)
    exact .refl _ _

theorem loadKeys_within (nv : NonVol) (d : Dev) : Within [.regs] d (loadKeys nv d) := by
  unfold loadKeys; try dsimp only
  with_reducible
    refine .via ?_ (setFld_within ..) (by decide)
    refine .foldl ?_ (fun _ _ => ?_)
    exact .refl _ _
    refine .via ?_ (setFld_within ..) (by decide)
    exact .refl _ _

theorem fwUpdateOp_within (nv : NonVol) (len key : Nat) (d : Dev) : Within [.regs, .usb, .root] d (fwUpdateOp nv len key d) := by
  unfold fwUpdateOp; try dsimp only
  with_reducible
    refine .ite ?_ ?_
    refine .via ?_ (complete_within ..) (by decide)
    exact .refl _ _
    refine .ite ?_ ?_
    refine .via ?_ (complete_within ..) (by decide)
    exact .refl _ _
    refine .via ?_ (progStart_within ..) (by decide)
    refine .via ?_ (announce_within ..) (by decide)
    exact .refl _ _

theorem intControlOp_within (len key : Nat) (d : Dev) : Within [.usb] d (intControlOp len key d) := by
  unfold intControlOp; try dsimp only
  with_reducible
    refine .ite ?_ ?_
    refine .via ?_ (complete_within ..) (by decide)
    exact .refl _ _
    refine .ite ?_ ?_
    refine .via ?_ (complete_within ..) (by decide)
    exact .refl _ _
    refine .via ?_ (announce_within ..) (by decide)
    exact .refl _ _

theorem provisionOp_within (op slot : Nat) (bytes : Bytes) (key : Nat) (nv : NonVol) (d : Dev) : Within [.regs, .usb] d (provisionOp op slot bytes key nv d) := by
  unfold provisionOp; try dsimp only
  with_reducible
    refine .ite ?_ ?_
    refine .via ?_ (complete_within ..) (by decide)
    exact .refl _ _
    refine .ite ?_ ?_
    refine .via ?_ (complete_within ..) (by decide)
    exact .refl _ _
    refine .via ?_ (complete_within ..) (by decide)
    refine .ite ?_ ?_
    refine .via ?_ (setFld_within ..) (by decide)
    exact .refl _ _
    exact .refl _ _

theorem restoreOp_within (op slot len key : Nat) (d : Dev) : Within [.usb] d (restoreOp op slot len key d) := by
  unfold restoreOp; try dsimp only
  with_reducible
    refine .ite ?_ ?_
    refine .via ?_ (complete_within ..) (by decide)
    exact .refl _ _
    refine .ite ?_ ?_
    refine .via ?_ (complete_within ..) (by decide)
    exact .refl _ _
    refine .via ?_ (announce_within ..) (by decide)
    exact .refl _ _

theorem reportSignedOp_within (d : Dev) : Within [.regs, .usb, .root, .free] d (reportSignedOp d) := by
  unfold reportSignedOp; try dsimp only
  with_reducible
    split
    exact .refl _ _
    refine .via ?_ (complete_within ..) (by decide)
    refine .via ?_ (progDone_within ..) (by decide)
    refine .via ?_ (within_root_free ..) (by decide)
    exact .refl _ _

end Sys2Proof.Machine
end

