-- ==== Sys2Proof/Laws/CameraFrame.lean ====
section
/-! SUPPORT. What each operation of Machine/Camera.lean may change. -/

namespace Sys2Proof.Machine

theorem applyParams_within (f : CamFrame) (d : Dev) : Within [.regs, .usb, .root, .stem, .cam] d (applyParams f d).1 := by
  unfold applyParams; try dsimp only
  with_reducible
    split
    refine .ite_fst ?_ ?_
    refine .pair ?_
    exact .refl _ _
    refine .pair ?_
    refine .via ?_ (raise_within ..) (by decide)
    refine .via ?_ (complete_within ..) (by decide)
    refine .via ?_ (setFlds_within ..) (by decide)
    refine .via ?_ (within_cam ..) (by decide)
    exact .refl _ _
    refine .pair ?_
    exact .refl _ _

theorem applyParams_within' {f : CamFrame} {d : Dev} {z' : Dev} {y' : Bool} (h : applyParams f d = (z', y')) : Within [.regs, .usb, .root, .stem, .cam] d z' := by
  have w' := applyParams_within f d
  rw [h] at w'; exact w'

theorem beginExposure_within (c : Nat) (d : Dev) : Within [.cam] d (beginExposure c d) := by
  unfold beginExposure; try dsimp only
  with_reducible
    split
    refine .via ?_ (within_cam ..) (by decide)
    exact .refl _ _
    exact .refl _ _

theorem busNext_within (b c : Nat) (d : Dev) : Within [.regs, .cam] d (busNext b c d) := by
  unfold busNext; try dsimp only
  with_reducible
    refine .ite ?_ ?_
    refine .via ?_ (within_cam ..) (by decide)
    exact .refl _ _
    refine .via ?_ (setFld_within ..) (by decide)
    refine .via ?_ (within_cam ..) (by decide)
    exact .refl _ _

theorem ispParamsEnd_within (c key status : Nat) (d : Dev) : Within [.regs, .usb, .cam] d (ispParamsEnd c key status d) := by
  unfold ispParamsEnd; try dsimp only
  with_reducible
    refine .via ?_ (complete_within ..) (by decide)
    refine .via ?_ (setFld_within ..) (by decide)
    refine .via ?_ (within_cam ..) (by decide)
    exact .refl _ _

theorem camCtlOp_within (p : Nat) (value : Word) (d : Dev) : Within [.regs, .usb, .root, .stem, .cam, .flt] d (camCtlOp p value d) := by
  unfold camCtlOp; try dsimp only
  with_reducible
    refine .ite ?_ ?_
    exact .refl _ _
    refine .ite ?_ ?_
    refine .via ?_ (setFld_within ..) (by decide)
    refine .ite ?_ ?_
    refine .via ?_ (camEnd_within ..) (by decide)
    refine .ite ?_ ?_
    refine .via ?_ (setFld_within ..) (by decide)
    refine .via ?_ (within_cam ..) (by decide)
    exact .refl _ _
    exact .refl _ _
    refine .ite ?_ ?_
    refine .via ?_ (setFld_within ..) (by decide)
    refine .via ?_ (within_cam ..) (by decide)
    exact .refl _ _
    exact .refl _ _
    refine .via ?_ (setFld_within ..) (by decide)
    refine .ite ?_ ?_
    refine .via ?_ (setFld_within ..) (by decide)
    refine .via ?_ (within_cam ..) (by decide)
    exact .refl _ _
    exact .refl _ _

theorem writeRow_within (d : Dev) (sp t slot y c : Nat) (l : List Int) : Within [.regs, .trk, .mem] d (writeRow d sp t slot y c l) := by
  unfold writeRow; try dsimp only
  with_reducible
    refine .foldl ?_ (fun _ _ => ?_)
    exact .refl _ _
    refine .via ?_ (vwrite_within ..) (by decide)
    exact .refl _ _

theorem camLineOp_within (p : Nat) (samples : List Nat) (check : Nat) (d : Dev) : Within [.regs, .usb, .ring, .root, .stem, .trk, .mem, .cam, .flt] d (camLineOp p samples check d) := by
  unfold camLineOp; try dsimp only
  with_reducible
    split
    exact .refl _ _
    refine .ite ?_ ?_
    refine .via ?_ (setCam_within ..) (by decide)
    exact .refl _ _
    split
    refine .via ?_ (dropCam_within ..) (by decide)
    refine .via ?_ (raise_within ..) (by decide)
    refine .via ?_ (bump_within ..) (by decide)
    exact .refl _ _
    refine .via ?_ (lineWritten_within ..) (by decide)
    refine .via ?_ (writeRow_within ..) (by decide)
    refine .via ?_ (setFld_within ..) (by decide)
    refine .via ?_ (setCam_within ..) (by decide)
    refine .ite ?_ ?_
    refine .via ?_ (bump_within ..) (by decide)
    refine .via ?_ (takeCredit_within (by assumption)) (by decide)
    exact .refl _ _
    refine .via ?_ (takeCredit_within (by assumption)) (by decide)
    exact .refl _ _

theorem camStartOp_within (nv : NonVol) (p : Nat) (d : Dev) : Within [.regs, .live, .usb, .ring, .root, .stem, .trk, .mem, .cam, .br] d (camStartOp nv p d) := by
  unfold camStartOp; try dsimp only
  with_reducible
    refine .ite ?_ ?_
    exact .refl _ _
    refine .ite ?_ ?_
    refine .via ?_ (setLive_within ..) (by decide)
    exact .refl _ _
    refine .via ?_ (openFrames_within ..) (by decide)
    refine .via ?_ (beginExposure_within ..) (by decide)
    refine .ite ?_ ?_
    refine .via ?_ (ispStat_within ..) (by decide)
    refine .via ?_ (setFlds_within ..) (by decide)
    refine .via ?_ (within_ring_cam ..) (by decide)
    refine .via ?_ (setFld_within ..) (by decide)
    refine .via ?_ (setLive_within ..) (by decide)
    exact .refl _ _
    refine .via ?_ (dropCounts_within ..) (by decide)
    refine .via ?_ (within_ring_cam ..) (by decide)
    refine .via ?_ (setFld_within ..) (by decide)
    refine .via ?_ (setLive_within ..) (by decide)
    exact .refl _ _

theorem ispParamsFinish_within (c off : Nat) (x : Xfer) (d : Dev) : Within [.regs, .usb, .cam] d (ispParamsFinish c off x d) := by
  unfold ispParamsFinish; try dsimp only
  with_reducible
    refine .ite ?_ ?_
    refine .via ?_ (within_usb_cam ..) (by decide)
    exact .refl _ _
    refine .via ?_ (ispParamsEnd_within ..) (by decide)
    exact .refl _ _

theorem exposureGoOp_within (c : Nat) (value : Word) (d : Dev) : Within [.regs, .cam] d (exposureGoOp c value d) := by
  unfold exposureGoOp; try dsimp only
  with_reducible
    refine .ite ?_ ?_
    refine .via ?_ (setFld_within ..) (by decide)
    exact .refl _ _
    refine .ite ?_ ?_
    refine .via ?_ (within_cam ..) (by decide)
    refine .via ?_ (setFld_within ..) (by decide)
    refine .via ?_ (setFld_within ..) (by decide)
    exact .refl _ _
    refine .via ?_ (within_cam ..) (by decide)
    refine .via ?_ (setFld_within ..) (by decide)
    refine .via ?_ (setFld_within ..) (by decide)
    exact .refl _ _

theorem ispParamsOp_within (c off len key : Nat) (d : Dev) : Within [.regs, .usb, .cam] d (ispParamsOp c off len key d) := by
  unfold ispParamsOp; try dsimp only
  with_reducible
    refine .ite ?_ ?_
    refine .via ?_ (complete_within ..) (by decide)
    exact .refl _ _
    refine .ite ?_ ?_
    refine .via ?_ (complete_within ..) (by decide)
    exact .refl _ _
    refine .ite ?_ ?_
    refine .via ?_ (complete_within ..) (by decide)
    exact .refl _ _
    refine .ite ?_ ?_
    refine .via ?_ (setFld_within ..) (by decide)
    refine .via ?_ (within_cam ..) (by decide)
    exact .refl _ _
    refine .via ?_ (announce_within ..) (by decide)
    refine .via ?_ (setFld_within ..) (by decide)
    refine .via ?_ (within_cam ..) (by decide)
    exact .refl _ _

theorem ispEnterOp_within (d : Dev) : Within [.regs, .usb, .root, .stem, .cam, .free] d (ispEnterOp d) := by
  unfold ispEnterOp; try dsimp only
  with_reducible
    split
    refine .ite ?_ ?_
    exact .refl _ _
    refine .via ?_ (ispStat_within ..) (by decide)
    refine .via ?_ (within_free ..) (by decide)
    refine .via ?_ (setCam_within ..) (by decide)
    refine .via ?_ (applyParams_within ..) (by decide)
    exact .refl _ _
    exact .refl _ _

theorem ispRows_within (f : CamFrame) (y : Nat) (d : Dev) : Within [.regs, .trk, .mem] d (ispRows f y d) := by
  unfold ispRows; try dsimp only
  with_reducible
    split
    refine .ite ?_ ?_
    refine .via ?_ (writeRow_within ..) (by decide)
    refine .ite ?_ ?_
    refine .via ?_ (writeRow_within ..) (by decide)
    refine .foldl ?_ (fun _ _ => ?_)
    exact .refl _ _
    refine .ite ?_ ?_
    refine .via ?_ (writeRow_within ..) (by decide)
    exact .refl _ _
    exact .refl _ _
    refine .foldl ?_ (fun _ _ => ?_)
    exact .refl _ _
    refine .ite ?_ ?_
    refine .via ?_ (writeRow_within ..) (by decide)
    exact .refl _ _
    exact .refl _ _
    refine .ite ?_ ?_
    refine .via ?_ (writeRow_within ..) (by decide)
    refine .foldl ?_ (fun _ _ => ?_)
    exact .refl _ _
    refine .ite ?_ ?_
    refine .via ?_ (writeRow_within ..) (by decide)
    exact .refl _ _
    exact .refl _ _
    refine .foldl ?_ (fun _ _ => ?_)
    exact .refl _ _
    refine .ite ?_ ?_
    refine .via ?_ (writeRow_within ..) (by decide)
    exact .refl _ _
    exact .refl _ _
    refine .ite ?_ ?_
    refine .via ?_ (writeRow_within ..) (by decide)
    refine .ite ?_ ?_
    refine .via ?_ (writeRow_within ..) (by decide)
    refine .foldl ?_ (fun _ _ => ?_)
    exact .refl _ _
    refine .ite ?_ ?_
    refine .via ?_ (writeRow_within ..) (by decide)
    exact .refl _ _
    exact .refl _ _
    refine .foldl ?_ (fun _ _ => ?_)
    exact .refl _ _
    refine .ite ?_ ?_
    refine .via ?_ (writeRow_within ..) (by decide)
    exact .refl _ _
    exact .refl _ _
    refine .ite ?_ ?_
    refine .via ?_ (writeRow_within ..) (by decide)
    refine .foldl ?_ (fun _ _ => ?_)
    exact .refl _ _
    refine .ite ?_ ?_
    refine .via ?_ (writeRow_within ..) (by decide)
    exact .refl _ _
    exact .refl _ _
    refine .foldl ?_ (fun _ _ => ?_)
    exact .refl _ _
    refine .ite ?_ ?_
    refine .via ?_ (writeRow_within ..) (by decide)
    exact .refl _ _
    exact .refl _ _
    refine .foldl ?_ (fun _ _ => ?_)
    refine .ite ?_ ?_
    refine .via ?_ (writeRow_within ..) (by decide)
    refine .foldl ?_ (fun _ _ => ?_)
    exact .refl _ _
    refine .ite ?_ ?_
    refine .via ?_ (writeRow_within ..) (by decide)
    exact .refl _ _
    exact .refl _ _
    refine .foldl ?_ (fun _ _ => ?_)
    exact .refl _ _
    refine .ite ?_ ?_
    refine .via ?_ (writeRow_within ..) (by decide)
    exact .refl _ _
    exact .refl _ _
    refine .ite ?_ ?_
    refine .via ?_ (writeRow_within ..) (by decide)
    exact .refl _ _
    exact .refl _ _
    refine .ite ?_ ?_
    refine .via ?_ (writeRow_within ..) (by decide)
    refine .foldl ?_ (fun _ _ => ?_)
    exact .refl _ _
    refine .ite ?_ ?_
    refine .via ?_ (writeRow_within ..) (by decide)
    exact .refl _ _
    exact .refl _ _
    refine .foldl ?_ (fun _ _ => ?_)
    exact .refl _ _
    refine .ite ?_ ?_
    refine .via ?_ (writeRow_within ..) (by decide)
    exact .refl _ _
    exact .refl _ _

theorem ispLineOp_within (d : Dev) : Within [.regs, .ring, .trk, .mem, .cam] d (ispLineOp d) := by
  unfold ispLineOp; try dsimp only
  with_reducible
    split
    exact .refl _ _
    refine .ite ?_ ?_
    exact .refl _ _
    refine .via ?_ (ringInc_within ..) (by decide)
    refine .via ?_ (finishLines_within ..) (by decide)
    refine .via ?_ (setCam_within ..) (by decide)
    refine .via ?_ (bump_within ..) (by decide)
    refine .via ?_ (bump_within ..) (by decide)
    refine .via ?_ (ispRows_within ..) (by decide)
    exact .refl _ _

theorem ispCompleteOp_within (d : Dev) : Within [.regs, .ring, .trk, .mem, .cam] d (ispCompleteOp d) := by
  unfold ispCompleteOp; try dsimp only
  with_reducible
    split
    exact .refl _ _
    refine .ite ?_ ?_
    exact .refl _ _
    refine .via ?_ (ispStat_within ..) (by decide)
    refine .via ?_ (ringInc_within ..) (by decide)
    refine .via ?_ (removeCam_within ..) (by decide)
    refine .via ?_ (camLast_within ..) (by decide)
    refine .via ?_ (writeStats_within ..) (by decide)
    exact .refl _ _

theorem exposureDoneOp_within (b : Nat) (d : Dev) : Within [.regs, .cam] d (exposureDoneOp b d) := by
  unfold exposureDoneOp
  split
  · exact .refl _ _
  · refine .via ?_ (busNext_within ..) (by decide)
    split
    · with_reducible refine .via ?_ (within_cam _) (by decide)
      exact .refl _ _
    · exact .refl _ _

theorem i2cNakOp_within (b entry byte : Nat) (d : Dev) : Within [.regs, .usb, .root, .stem, .cam] d (i2cNakOp b entry byte d) := by
  unfold i2cNakOp; try dsimp only
  with_reducible
    split
    exact .refl _ _
    refine .via ?_ (busNext_within ..) (by decide)
    refine .via ?_ (raise_within ..) (by decide)
    refine .via ?_ (bump_within ..) (by decide)
    exact .refl _ _

end Sys2Proof.Machine
end

