-- ==== Sys2Proof/Laws/TileFrame.lean ====
section
/-! SUPPORT. What each operation of Machine/Tile.lean may change. -/

namespace Sys2Proof.Machine

theorem touch_within (e : Env) (runs : List (Nat × Nat)) (d : Dev) : Within [.regs, .usb, .root, .stem, .trk] d (touch e runs d).1 := by
  unfold touch; try dsimp only
  with_reducible
    refine .foldl_fst ?_ (fun _ _ => ?_)
    refine .pair ?_
    exact .refl _ _
    refine .ite_fst ?_ ?_
    refine .pair ?_
    refine .via ?_ (vread_within ..) (by decide)
    exact .refl _ _
    exact .refl _ _

theorem touch_within' {e : Env} {runs : List (Nat × Nat)} {d : Dev} {z' : Dev} {y' : Bool} (h : touch e runs d = (z', y')) : Within [.regs, .usb, .root, .stem, .trk] d z' := by
  have w' := touch_within e runs d
  rw [h] at w'; exact w'

theorem countUnwritten_within (runs : List (Nat × Nat)) (d : Dev) : Within [.regs] d (countUnwritten runs d) := by
  unfold countUnwritten; try dsimp only
  with_reducible
    refine .via ?_ (bump_within ..) (by decide)
    exact .refl _ _

theorem touchLines_within (e : Env) (t fn : Nat) (of : Int → List (Nat × Nat)) (ys : List Int) (d : Dev) : Within [.regs, .usb, .root, .stem, .trk] d (touchLines e t fn of ys d).1 := by
  unfold touchLines; try dsimp only
  with_reducible
    refine .ite ?_ ?_
    refine .via ?_ (countUnwritten_within ..) (by decide)
    refine .via ?_ (touch_within ..) (by decide)
    exact .refl _ _
    refine .via ?_ (touch_within ..) (by decide)
    exact .refl _ _

theorem touchLines_within' {e : Env} {t fn : Nat} {of : Int → List (Nat × Nat)} {ys : List Int} {d : Dev} {z' : Dev} {y' : Bool} (h : touchLines e t fn of ys d = (z', y')) : Within [.regs, .usb, .root, .stem, .trk] d z' := by
  have w' := touchLines_within e t fn of ys d
  rw [h] at w'; exact w'

theorem Src.touch_within (e : Env) (s : Src) (of : Int → List (Nat × Nat)) (ys : List Int) (d : Dev) : Within [.regs, .usb, .root, .stem, .trk] d (Src.touch e s of ys d).1 := by
  unfold Src.touch; try dsimp only
  with_reducible
    refine .ite_fst ?_ ?_
    refine .pair ?_
    exact .refl _ _
    refine .ite_fst ?_ ?_
    refine .via ?_ (touchLines_within ..) (by decide)
    exact .refl _ _
    refine .pair ?_
    exact .refl _ _

theorem Src.touch_within' {e : Env} {s : Src} {of : Int → List (Nat × Nat)} {ys : List Int} {d : Dev} {z' : Dev} {y' : Bool} (h : Src.touch e s of ys d = (z', y')) : Within [.regs, .usb, .root, .stem, .trk] d z' := by
  have w' := Src.touch_within e s of ys d
  rw [h] at w'; exact w'

theorem mapTaskE_within (e : Env) (g : TaskSt → TaskSt) (d : Dev) : Within [.stem] d (mapTaskE e g d) := by
  unfold mapTaskE; try dsimp only
  with_reducible
    refine .via ?_ (mapTask_within ..) (by decide)
    exact .refl _ _

theorem addSat_within (e : Env) (n : Nat) (d : Dev) : Within [.stem] d (addSat e n d) := by
  unfold addSat; try dsimp only
  with_reducible
    refine .via ?_ (mapTaskE_within ..) (by decide)
    exact .refl _ _

theorem mapCur_within (d : Dev) (n : Nat) (f : Ctx → Ctx) : Within [.br] d (mapCur d n f) := by
  unfold mapCur; try dsimp only
  with_reducible
    split
    exact .refl _ _
    refine .via ?_ (setBranch_within ..) (by decide)
    exact .refl _ _

theorem settleCell_within (e : Env) (n i : Nat) (d : Dev) : Within [.regs, .stem, .trk, .mem, .cells] d (settleCell e n i d) := by
  unfold settleCell; try dsimp only
  with_reducible
    refine .ite ?_ ?_
    exact .refl _ _
    refine .via ?_ (mapTaskE_within ..) (by decide)
    refine .via ?_ (setCell_within ..) (by decide)
    refine .via ?_ (writeEntry_within ..) (by decide)
    exact .refl _ _

theorem endProgram_within (e : Env) (d : Dev) : Within [.regs, .stem, .trk, .mem, .cells] d (endProgram e d) := by
  unfold endProgram; try dsimp only
  with_reducible
    refine .foldl ?_ (fun _ _ => ?_)
    exact .refl _ _
    refine .foldl ?_ (fun _ _ => ?_)
    exact .refl _ _
    refine .ite ?_ ?_
    refine .via ?_ (settleCell_within ..) (by decide)
    exact .refl _ _
    exact .refl _ _

theorem consumeLines_within (e : Env) (d : Dev) : Within [.trk] d (consumeLines e d) := by
  unfold consumeLines; try dsimp only
  with_reducible
    refine .foldl ?_ (fun _ _ => ?_)
    exact .refl _ _
    split
    exact .refl _ _
    refine .ite ?_ ?_
    exact .refl _ _
    split
    exact .refl _ _
    refine .via ?_ (finishLines_within ..) (by decide)
    exact .refl _ _

theorem markBoundary_within (n : Nat) (d : Dev) : Within [.regs] d (markBoundary n d) := by
  unfold markBoundary; try dsimp only
  with_reducible
    split
    exact .refl _ _
    refine .ite ?_ ?_
    refine .via ?_ (atBoundary_within ..) (by decide)
    exact .refl _ _
    exact .refl _ _

theorem advance_within (e : Env) (d : Dev) : Within [.regs, .stem, .trk, .mem, .br, .cells] d (advance e d) := by
  unfold advance; try dsimp only
  with_reducible
    refine .via ?_ (markBoundary_within ..) (by decide)
    split
    refine .ite ?_ ?_
    refine .via ?_ (consumeLines_within ..) (by decide)
    refine .ite ?_ ?_
    refine .via ?_ (endProgram_within ..) (by decide)
    refine .via ?_ (mapCur_within ..) (by decide)
    exact .refl _ _
    refine .via ?_ (mapCur_within ..) (by decide)
    exact .refl _ _
    refine .ite ?_ ?_
    refine .via ?_ (endProgram_within ..) (by decide)
    refine .via ?_ (mapCur_within ..) (by decide)
    exact .refl _ _
    refine .via ?_ (mapCur_within ..) (by decide)
    exact .refl _ _
    refine .via ?_ (mapCur_within ..) (by decide)
    exact .refl _ _

theorem sWrite_within (d : Dev) (n a : Nat) (bs : Bytes) : Within [.br] d (sWrite d n a bs) := by
  unfold sWrite; try dsimp only
  with_reducible
    refine .via ?_ (setBranch_within ..) (by decide)
    exact .refl _ _

theorem putRow_within (r : Region) (n : Nat) (line : Int) (ch : Nat) (l : List (Int × Int)) (d : Dev) : Within [.br] d (putRow r n line ch l d) := by
  unfold putRow; try dsimp only
  with_reducible
    refine .ite ?_ ?_
    exact .refl _ _
    refine .ite ?_ ?_
    refine .via ?_ (sWrite_within ..) (by decide)
    exact .refl _ _
    refine .foldl ?_ (fun _ _ => ?_)
    exact .refl _ _
    split
    exact .refl _ _
    refine .via ?_ (sWrite_within ..) (by decide)
    exact .refl _ _

theorem putEls_within (e : Env) (c : Coord) (line : Int) (ch : Nat) (l : List (Nat × Int)) (d : Dev) : Within [.br] d (putEls e c line ch l d) := by
  unfold putEls; try dsimp only
  with_reducible
    refine .via ?_ (putRow_within ..) (by decide)
    exact .refl _ _

theorem onceEvent_within (e : Env) (i code sev arg : Nat) (d : Dev) : Within [.regs, .usb, .root, .stem] d (onceEvent e i code sev arg d) := by
  unfold onceEvent; try dsimp only
  with_reducible
    split
    exact .refl _ _
    refine .ite ?_ ?_
    exact .refl _ _
    refine .via ?_ (raise_within ..) (by decide)
    refine .via ?_ (mapTaskE_within ..) (by decide)
    exact .refl _ _

theorem plantErrs_within (n : Nat) (errs : List MemErr) (d : Dev) : Within [.mem, .br] d (plantErrs n errs d) := by
  unfold plantErrs; try dsimp only
  with_reducible
    refine .foldl ?_ (fun _ _ => ?_)
    refine .via ?_ (plantTrunk_within ..) (by decide)
    exact .refl _ _
    refine .ite ?_ ?_
    refine .via ?_ (sWrite_within ..) (by decide)
    exact .refl _ _
    exact .refl _ _

theorem readErrs_within (e : Env) (t : Nat) (errs : List MemErr) (d : Dev) : Within [.regs, .live, .clk, .usb, .ring, .root, .stem, .trk, .mem, .ras, .cnp, .inp, .cam, .flt, .br, .cells] d (readErrs e t errs d) := by
  unfold readErrs; try dsimp only
  with_reducible
    refine .ite ?_ ?_
    refine .via ?_ (bufferErrs_within ..) (by decide)
    refine .foldl ?_ (fun _ _ => ?_)
    refine .via ?_ (trunkErrs_within ..) (by decide)
    exact .refl _ _
    refine .ite ?_ ?_
    refine .via ?_ (storeErr_within ..) (by decide)
    exact .refl _ _
    exact .refl _ _
    refine .ite ?_ ?_
    refine .via ?_ (mapTaskE_within ..) (by decide)
    refine .via ?_ (bufferErrs_within ..) (by decide)
    refine .foldl ?_ (fun _ _ => ?_)
    refine .via ?_ (trunkErrs_within ..) (by decide)
    exact .refl _ _
    refine .ite ?_ ?_
    refine .via ?_ (storeErr_within ..) (by decide)
    exact .refl _ _
    exact .refl _ _
    refine .via ?_ (setBranch_within ..) (by decide)
    refine .via ?_ (mapTaskE_within ..) (by decide)
    refine .via ?_ (bufferErrs_within ..) (by decide)
    refine .foldl ?_ (fun _ _ => ?_)
    refine .via ?_ (trunkErrs_within ..) (by decide)
    exact .refl _ _
    refine .ite ?_ ?_
    refine .via ?_ (storeErr_within ..) (by decide)
    exact .refl _ _
    exact .refl _ _

/-- A tile command changes what its body changes, and its context. -/
theorem Within.tileOp {op : Nat} {run : Env → Dev → Dev × Bool} {nv : NonVol} {n : Nat} {l : List Part} {d e : Dev}
    (he : Within l d e) (hr : ∀ v x, Within l x (run v x).1) (hs : partsIn [.regs, .stem, .trk, .mem, .br, .cells] l = true) :
    Within l d (tileOp op run nv n e) := by
  have h1 : partsIn [.regs] l = true := List.all_eq_true.mpr (fun p hp => List.all_eq_true.mp hs p (by simp_all))
  unfold Sys2Proof.Machine.tileOp
  split
  · exact he
  split
  · exact he
  split
  · exact he.via (advance_within ..) hs
  dsimp only
  split
  · exact (he.trans (hr _ _)).via (advance_within ..) hs
  · exact (he.trans (hr _ _)).via (recount_within ..) h1

/-- A tile command whose reads may meet errors also changes what an error's record, and the retirement that it may start, change. -/
theorem Within.tileRead {op : Nat} {run : Env → Dev → Dev × Bool} {nv : NonVol} {n : Nat} {errs : List MemErr} {l : List Part} {d e : Dev}
    (he : Within l d e) (hr : ∀ v x, Within l x (run v x).1) (hs : partsIn [.regs, .stem, .trk, .mem, .br, .cells] l = true) (hp : partsIn [.regs, .live, .clk, .usb, .ring, .root, .stem, .trk, .mem, .ras, .cnp, .inp, .cam, .flt, .br, .cells] l = true) :
    Within l d (tileRead op run nv n errs e) := by
  have hq : partsIn [.mem, .br] l = true := List.all_eq_true.mpr (fun p h => List.all_eq_true.mp hp p (by revert h; cases p <;> decide))
  unfold Sys2Proof.Machine.tileRead
  refine he.tileOp (fun v x => ?_) hs
  dsimp only
  split
  · exact (((Within.refl l x).via (plantErrs_within ..) hq).trans (hr v _)).via (readErrs_within ..) hp
  · exact hr v x

end Sys2Proof.Machine
end

