-- ==== Sys2Proof/Laws/TileTwigFrame.lean ====
section
/-! SUPPORT. What each operation of Machine/TileTwig.lean may change. -/

namespace Sys2Proof.Machine

theorem setTwig_within (d : Dev) (n t : Nat) (w : Twig) : Within [.br] d (setTwig d n t w) := by
  unfold setTwig; try dsimp only
  with_reducible
    refine .via ?_ (setBranch_within ..) (by decide)
    exact .refl _ _

theorem setAudit_within (d : Dev) (n : Nat) (armed : Bool) (aud : List Nat) (fresh : Nat) : Within [.br] d (setAudit d n armed aud fresh) := by
  unfold setAudit; try dsimp only
  with_reducible
    refine .via ?_ (setBranch_within ..) (by decide)
    exact .refl _ _

theorem arm_within (n : Nat) (d : Dev) : Within [.regs, .br] d (arm n d) := by
  unfold arm; try dsimp only
  with_reducible
    refine .via ?_ (setFlds_within ..) (by decide)
    refine .via ?_ (setTwig_within ..) (by decide)
    refine .via ?_ (setAudit_within ..) (by decide)
    exact .refl _ _

theorem auditArmOp_within (n : Nat) (d : Dev) : Within [.regs, .br] d (auditArmOp n d) := by
  unfold auditArmOp; try dsimp only
  with_reducible
    refine .ite ?_ ?_
    refine .via ?_ (arm_within ..) (by decide)
    refine .via ?_ (setBranch_within ..) (by decide)
    exact .refl _ _
    exact .refl _ _

theorem endAudit_within (n : Nat) (d : Dev) : Within [.regs, .br] d (endAudit n d) := by
  unfold endAudit; try dsimp only
  with_reducible
    refine .ite ?_ ?_
    refine .via ?_ (setFlds_within ..) (by decide)
    refine .via ?_ (setTwig_within ..) (by decide)
    refine .via ?_ (setAudit_within ..) (by decide)
    exact .refl _ _
    refine .via ?_ (setAudit_within ..) (by decide)
    exact .refl _ _

theorem auditCompare_within (nv : NonVol) (n t slot : Nat) (mismatch : Bool) (task pfn : Nat) (out : Bool) (d : Dev) : Within [.regs, .live, .clk, .usb, .ring, .root, .stem, .trk, .mem, .ras, .cnp, .inp, .cam, .flt, .br, .cells] d (auditCompare nv n t slot mismatch task pfn out d) := by
  unfold auditCompare; try dsimp only
  with_reducible
    refine .ite ?_ ?_
    refine .ite ?_ ?_
    refine .via ?_ (arm_within ..) (by decide)
    refine .via ?_ (recordError_within ..) (by decide)
    refine .via ?_ (recordError_within ..) (by decide)
    refine .via ?_ (addFlag_within ..) (by decide)
    refine .via ?_ (raise_within ..) (by decide)
    refine .via ?_ (bump_within ..) (by decide)
    refine .via ?_ (bump_within ..) (by decide)
    exact .refl _ _
    refine .via ?_ (setAudit_within ..) (by decide)
    refine .via ?_ (recordError_within ..) (by decide)
    refine .via ?_ (recordError_within ..) (by decide)
    refine .via ?_ (addFlag_within ..) (by decide)
    refine .via ?_ (raise_within ..) (by decide)
    refine .via ?_ (bump_within ..) (by decide)
    refine .via ?_ (bump_within ..) (by decide)
    exact .refl _ _
    refine .via ?_ (setFld_within ..) (by decide)
    refine .via ?_ (endAudit_within ..) (by decide)
    refine .via ?_ (bump_within ..) (by decide)
    exact .refl _ _

theorem auditPlane_within (n t p : Nat) (d : Dev) : Within [.br] d (auditPlane n t p d) := by
  unfold auditPlane; try dsimp only
  with_reducible
    refine .ite ?_ ?_
    refine .via ?_ (setBranch_within ..) (by decide)
    exact .refl _ _
    exact .refl _ _

theorem auditStep_within (n t slot p : Nat) (new : Bool) (d : Dev) : Within [.br] d (auditStep n t slot p new d) := by
  unfold auditStep; try dsimp only
  with_reducible
    refine .ite ?_ ?_
    refine .ite ?_ ?_
    refine .via ?_ (setBranch_within ..) (by decide)
    exact .refl _ _
    exact .refl _ _
    refine .ite ?_ ?_
    refine .via ?_ (setBranch_within ..) (by decide)
    refine .ite ?_ ?_
    refine .via ?_ (setBranch_within ..) (by decide)
    exact .refl _ _
    exact .refl _ _
    refine .ite ?_ ?_
    refine .via ?_ (setBranch_within ..) (by decide)
    refine .ite ?_ ?_
    refine .via ?_ (setBranch_within ..) (by decide)
    exact .refl _ _
    exact .refl _ _
    refine .ite ?_ ?_
    refine .via ?_ (setBranch_within ..) (by decide)
    exact .refl _ _
    exact .refl _ _

theorem streams_within (n t mode plane : Nat) (d : Dev) : Within [.regs] d (streams n t mode plane d) := by
  unfold streams; try dsimp only
  with_reducible
    refine .ite ?_ ?_
    refine .via ?_ (setFlds_within ..) (by decide)
    refine .via ?_ (setFlds_within ..) (by decide)
    exact .refl _ _
    refine .via ?_ (setFlds_within ..) (by decide)
    exact .refl _ _

theorem beginDrain_within (e : Env) (a nt : Nat) (d : Dev) : Within [.regs, .br] d (beginDrain e a nt d) := by
  unfold beginDrain; try dsimp only
  with_reducible
    refine .via ?_ (mapCur_within ..) (by decide)
    refine .via ?_ (streams_within ..) (by decide)
    exact .refl _ _

theorem onTwig_within (n t : Nat) (f : Twig → Twig) (d : Dev) : Within [.br] d (onTwig n t f d) := by
  unfold onTwig; try dsimp only
  with_reducible
    refine .ite ?_ ?_
    refine .via ?_ (setTwig_within ..) (by decide)
    refine .via ?_ (setTwig_within ..) (by decide)
    exact .refl _ _
    refine .via ?_ (setTwig_within ..) (by decide)
    exact .refl _ _

theorem holdTile_within (e : Env) (t n : Nat) (d : Dev) : Within [.regs, .usb, .root, .stem, .br] d (holdTile e t n d) := by
  unfold holdTile; try dsimp only
  with_reducible
    refine .ite ?_ ?_
    exact .refl _ _
    split
    refine .ite ?_ ?_
    refine .via ?_ (bump_within ..) (by decide)
    refine .via ?_ (mapCur_within ..) (by decide)
    exact .refl _ _
    refine .via ?_ (raise_within ..) (by decide)
    refine .via ?_ (mapTaskE_within ..) (by decide)
    refine .via ?_ (bump_within ..) (by decide)
    refine .via ?_ (mapCur_within ..) (by decide)
    exact .refl _ _
    refine .via ?_ (bump_within ..) (by decide)
    refine .via ?_ (mapCur_within ..) (by decide)
    exact .refl _ _

theorem reduce_within (e : Env) (s : Src) (mode nt p slots wino plane busy : Nat) (lines : List Int) (sums : Twig → Nat → List (Nat × Int)) (d : Dev) : Within [.regs, .usb, .root, .stem, .br] d (reduce e s mode nt p slots wino plane busy lines sums d).1 := by
  unfold reduce; try dsimp only
  with_reducible
    refine .ite_fst ?_ ?_
    refine .pair ?_
    exact .refl _ _
    refine .ite_fst ?_ ?_
    refine .pair ?_
    exact .refl _ _
    refine .ite_fst ?_ ?_
    refine .pair ?_
    exact .refl _ _
    refine .ite_fst ?_ ?_
    refine .pair ?_
    refine .via ?_ (holdTile_within ..) (by decide)
    exact .refl _ _
    refine .pair ?_
    refine .via ?_ (addSat_within ..) (by decide)
    refine .via ?_ (bump_within ..) (by decide)
    refine .via ?_ (bump_within ..) (by decide)
    refine .foldl_fst ?_ (fun _ _ => ?_)
    refine .pair ?_
    refine .via ?_ (streams_within ..) (by decide)
    refine .ite ?_ ?_
    exact .refl _ _
    refine .via ?_ (holdTile_within ..) (by decide)
    exact .refl _ _
    refine .pair ?_
    refine .via ?_ (onTwig_within ..) (by decide)
    refine .via ?_ (auditStep_within ..) (by decide)
    exact .refl _ _

theorem reduce_within' {e : Env} {s : Src} {mode nt p slots wino plane busy : Nat} {lines : List Int} {sums : Twig → Nat → List (Nat × Int)} {d : Dev} {z' : Dev} {y' : Bool} (h : reduce e s mode nt p slots wino plane busy lines sums d = (z', y')) : Within [.regs, .usb, .root, .stem, .br] d z' := by
  have w' := reduce_within e s mode nt p slots wino plane busy lines sums d
  rw [h] at w'; exact w'

theorem tmacRun_within (e : Env) (d : Dev) : Within [.regs, .usb, .root, .stem, .br] d (tmacRun e d).1 := by
  unfold tmacRun; try dsimp only
  with_reducible
    refine .via ?_ (reduce_within ..) (by decide)
    exact .refl _ _

theorem tmacRun_within' {e : Env} {d : Dev} {z' : Dev} {y' : Bool} (h : tmacRun e d = (z', y')) : Within [.regs, .usb, .root, .stem, .br] d z' := by
  have w' := tmacRun_within e d
  rw [h] at w'; exact w'

theorem twinoRun_within (e : Env) (d : Dev) : Within [.regs, .usb, .root, .stem, .br] d (twinoRun e d).1 := by
  unfold twinoRun; try dsimp only
  with_reducible
    refine .ite_fst ?_ ?_
    refine .pair ?_
    refine .via ?_ (onTwig_within ..) (by decide)
    refine .via ?_ (reduce_within ..) (by decide)
    exact .refl _ _
    refine .pair ?_
    refine .via ?_ (reduce_within ..) (by decide)
    exact .refl _ _

theorem twinoRun_within' {e : Env} {d : Dev} {z' : Dev} {y' : Bool} (h : twinoRun e d = (z', y')) : Within [.regs, .usb, .root, .stem, .br] d z' := by
  have w' := twinoRun_within e d
  rw [h] at w'; exact w'

theorem tdiagRun_within (e : Env) (d : Dev) : Within [.regs, .usb, .root, .stem, .br] d (tdiagRun e d).1 := by
  unfold tdiagRun; try dsimp only
  with_reducible
    refine .via ?_ (reduce_within ..) (by decide)
    exact .refl _ _

theorem tdiagRun_within' {e : Env} {d : Dev} {z' : Dev} {y' : Bool} (h : tdiagRun e d = (z', y')) : Within [.regs, .usb, .root, .stem, .br] d z' := by
  have w' := tdiagRun_within e d
  rw [h] at w'; exact w'

theorem parityError_within (nv : NonVol) (n t : Nat) (bad : List Nat) (c : Ctx) (d : Dev) : Within [.regs, .live, .clk, .usb, .ring, .root, .stem, .trk, .mem, .ras, .cnp, .inp, .cam, .flt, .br, .cells] d (parityError nv n t bad c d) := by
  unfold parityError; try dsimp only
  with_reducible
    refine .ite ?_ ?_
    exact .refl _ _
    refine .via ?_ (recordError_within ..) (by decide)
    refine .via ?_ (raise_within ..) (by decide)
    refine .via ?_ (bump_within ..) (by decide)
    refine .via ?_ (addFlag_within ..) (by decide)
    exact .refl _ _

theorem tileDrainOp_within (nv : NonVol) (n : Nat) (bad badSpare : List Nat) (mismatch : Bool) (d : Dev) : Within [.regs, .live, .clk, .usb, .ring, .root, .stem, .trk, .mem, .ras, .cnp, .inp, .cam, .flt, .br, .cells] d (tileDrainOp nv n bad badSpare mismatch d) := by
  unfold tileDrainOp; try dsimp only
  with_reducible
    split
    exact .refl _ _
    split
    exact .refl _ _
    refine .via ?_ (markBoundary_within ..) (by decide)
    refine .via ?_ (parityError_within ..) (by decide)
    refine .via ?_ (parityError_within ..) (by decide)
    refine .ite ?_ ?_
    refine .ite ?_ ?_
    refine .via ?_ (endAudit_within ..) (by decide)
    refine .ite ?_ ?_
    refine .via ?_ (mapTask_within ..) (by decide)
    refine .via ?_ (onTwig_within ..) (by decide)
    refine .ite ?_ ?_
    refine .via ?_ (mapCur_within ..) (by decide)
    exact .refl _ _
    refine .via ?_ (setBranch_within ..) (by decide)
    refine .via ?_ (mapCur_within ..) (by decide)
    exact .refl _ _
    refine .via ?_ (onTwig_within ..) (by decide)
    refine .ite ?_ ?_
    refine .via ?_ (mapCur_within ..) (by decide)
    exact .refl _ _
    refine .via ?_ (setBranch_within ..) (by decide)
    refine .via ?_ (mapCur_within ..) (by decide)
    exact .refl _ _
    refine .via ?_ (auditCompare_within ..) (by decide)
    refine .ite ?_ ?_
    refine .via ?_ (mapTask_within ..) (by decide)
    refine .via ?_ (onTwig_within ..) (by decide)
    refine .ite ?_ ?_
    refine .via ?_ (mapCur_within ..) (by decide)
    exact .refl _ _
    refine .via ?_ (setBranch_within ..) (by decide)
    refine .via ?_ (mapCur_within ..) (by decide)
    exact .refl _ _
    refine .via ?_ (onTwig_within ..) (by decide)
    refine .ite ?_ ?_
    refine .via ?_ (mapCur_within ..) (by decide)
    exact .refl _ _
    refine .via ?_ (setBranch_within ..) (by decide)
    refine .via ?_ (mapCur_within ..) (by decide)
    exact .refl _ _
    refine .ite ?_ ?_
    refine .via ?_ (mapTask_within ..) (by decide)
    refine .via ?_ (onTwig_within ..) (by decide)
    refine .ite ?_ ?_
    refine .via ?_ (mapCur_within ..) (by decide)
    exact .refl _ _
    refine .via ?_ (setBranch_within ..) (by decide)
    refine .via ?_ (mapCur_within ..) (by decide)
    exact .refl _ _
    refine .via ?_ (onTwig_within ..) (by decide)
    refine .ite ?_ ?_
    refine .via ?_ (mapCur_within ..) (by decide)
    exact .refl _ _
    refine .via ?_ (setBranch_within ..) (by decide)
    refine .via ?_ (mapCur_within ..) (by decide)
    exact .refl _ _

end Sys2Proof.Machine
end

