-- ==== Sys2Proof/Laws/TileVecFrame.lean ====
section
/-! SUPPORT. What each operation of Machine/TileVec.lean may change. -/

namespace Sys2Proof.Machine

theorem srcReady_within (e : Env) (s : Src) (ys : List Int) (n : Nat) (d : Dev) : Within [.regs, .usb, .root, .stem, .trk] d (srcReady e s ys n d).1 := by
  unfold srcReady; try dsimp only
  with_reducible
    refine .via ?_ (Src.touch_within ..) (by decide)
    exact .refl _ _

theorem srcReady_within' {e : Env} {s : Src} {ys : List Int} {n : Nat} {d : Dev} {z' : Dev} {y' : Bool} (h : srcReady e s ys n d = (z', y')) : Within [.regs, .usb, .root, .stem, .trk] d z' := by
  have w' := srcReady_within e s ys n d
  rw [h] at w'; exact w'

theorem allReady_within (e : Env) (l : List Src) (n : Nat) (d : Dev) : Within [.regs, .usb, .root, .stem, .trk] d (allReady e l n d).1 := by
  unfold allReady; try dsimp only
  with_reducible
    refine .foldl_fst ?_ (fun _ _ => ?_)
    refine .pair ?_
    exact .refl _ _
    refine .ite_fst ?_ ?_
    refine .via ?_ (srcReady_within ..) (by decide)
    exact .refl _ _
    exact .refl _ _

theorem allReady_within' {e : Env} {l : List Src} {n : Nat} {d : Dev} {z' : Dev} {y' : Bool} (h : allReady e l n d = (z', y')) : Within [.regs, .usb, .root, .stem, .trk] d z' := by
  have w' := allReady_within e l n d
  rw [h] at w'; exact w'

theorem biasReady_within (e : Env) (r : Option Nat) (m : Nat) (d : Dev) : Within [.regs, .usb, .root, .stem, .trk] d (biasReady e r m d).1 := by
  unfold biasReady; try dsimp only
  with_reducible
    split
    refine .pair ?_
    exact .refl _ _
    refine .via ?_ (srcReady_within ..) (by decide)
    exact .refl _ _

theorem biasReady_within' {e : Env} {r : Option Nat} {m : Nat} {d : Dev} {z' : Dev} {y' : Bool} (h : biasReady e r m d = (z', y')) : Within [.regs, .usb, .root, .stem, .trk] d z' := by
  have w' := biasReady_within e r m d
  rw [h] at w'; exact w'

theorem convPixels_within (e : Env) (s : Src) (c : Coord) (pf n : Nat) (d : Dev) : Within [.br] d (convPixels e s c pf n d) := by
  unfold convPixels; try dsimp only
  with_reducible
    refine .ite ?_ ?_
    refine .foldl ?_ (fun _ _ => ?_)
    exact .refl _ _
    refine .via ?_ (putEls_within ..) (by decide)
    exact .refl _ _
    refine .via ?_ (putEls_within ..) (by decide)
    exact .refl _ _

theorem convert_within (e : Env) (n f : Nat) (c : Coord) (word : Conv → Nat) (l : List Conv) (d : Dev) : Within [.regs, .stem, .trk, .mem, .br, .cells] d (convert e n f c word l d).1 := by
  unfold convert; try dsimp only
  with_reducible
    refine .ite_fst ?_ ?_
    refine .pair ?_
    refine .foldl ?_ (fun _ _ => ?_)
    exact .refl _ _
    refine .via ?_ (beginCell_within ..) (by decide)
    exact .refl _ _
    refine .pair ?_
    refine .foldl ?_ (fun _ _ => ?_)
    refine .via ?_ (addSat_within ..) (by decide)
    refine .foldl ?_ (fun _ _ => ?_)
    refine .foldl ?_ (fun _ _ => ?_)
    exact .refl _ _
    refine .via ?_ (beginCell_within ..) (by decide)
    exact .refl _ _
    refine .via ?_ (putEls_within ..) (by decide)
    exact .refl _ _
    refine .via ?_ (settleCell_within ..) (by decide)
    refine .via ?_ (setCell_within ..) (by decide)
    exact .refl _ _

theorem convert_within' {e : Env} {n f : Nat} {c : Coord} {word : Conv → Nat} {l : List Conv} {d : Dev} {z' : Dev} {y' : Bool} (h : convert e n f c word l d = (z', y')) : Within [.regs, .stem, .trk, .mem, .br, .cells] d z' := by
  have w' := convert_within e n f c word l d
  rw [h] at w'; exact w'

theorem countPrep_within (e : Env) (sat inv : Nat) (d : Dev) : Within [.regs, .usb, .root, .stem] d (countPrep e sat inv d) := by
  unfold countPrep; try dsimp only
  with_reducible
    refine .ite ?_ ?_
    refine .via ?_ (addSat_within ..) (by decide)
    refine .via ?_ (bump_within ..) (by decide)
    exact .refl _ _
    refine .via ?_ (onceEvent_within ..) (by decide)
    refine .via ?_ (bump_within ..) (by decide)
    refine .via ?_ (addSat_within ..) (by decide)
    refine .via ?_ (bump_within ..) (by decide)
    exact .refl _ _

theorem poolGlobal_within (e : Env) (form word : Nat) (s : Src) (c : Coord) (d : Dev) : Within [.regs, .usb, .root, .stem, .br] d (poolGlobal e form word s c d).1 := by
  unfold poolGlobal; try dsimp only
  with_reducible
    split
    refine .pair ?_
    exact .refl _ _
    split
    refine .pair ?_
    refine .ite ?_ ?_
    exact .refl _ _
    refine .via ?_ (countPrep_within ..) (by decide)
    refine .via ?_ (bump_within ..) (by decide)
    refine .via ?_ (mapTaskE_within ..) (by decide)
    exact .refl _ _
    refine .ite_fst ?_ ?_
    refine .pair ?_
    refine .ite ?_ ?_
    exact .refl _ _
    refine .via ?_ (countPrep_within ..) (by decide)
    refine .via ?_ (bump_within ..) (by decide)
    refine .via ?_ (mapTaskE_within ..) (by decide)
    exact .refl _ _
    refine .pair ?_
    refine .via ?_ (countPrep_within ..) (by decide)
    refine .foldl ?_ (fun _ _ => ?_)
    refine .ite ?_ ?_
    exact .refl _ _
    refine .via ?_ (countPrep_within ..) (by decide)
    refine .via ?_ (bump_within ..) (by decide)
    refine .via ?_ (mapTaskE_within ..) (by decide)
    exact .refl _ _
    refine .via ?_ (sWrite_within ..) (by decide)
    exact .refl _ _

theorem poolGlobal_within' {e : Env} {form word : Nat} {s : Src} {c : Coord} {d : Dev} {z' : Dev} {y' : Bool} (h : poolGlobal e form word s c d = (z', y')) : Within [.regs, .usb, .root, .stem, .br] d z' := by
  have w' := poolGlobal_within e form word s c d
  rw [h] at w'; exact w'

theorem tpoolRun_within (e : Env) (d : Dev) : Within [.regs, .usb, .root, .stem, .trk, .br] d (tpoolRun e d).1 := by
  unfold tpoolRun; try dsimp only
  with_reducible
    refine .ite_fst ?_ ?_
    refine .ite_fst ?_ ?_
    refine .pair ?_
    exact .refl _ _
    refine .via ?_ (poolGlobal_within ..) (by decide)
    exact .refl _ _
    refine .ite_fst ?_ ?_
    refine .pair ?_
    refine .via ?_ (srcReady_within ..) (by decide)
    exact .refl _ _
    refine .ite_fst ?_ ?_
    refine .pair ?_
    refine .via ?_ (srcReady_within ..) (by decide)
    exact .refl _ _
    refine .pair ?_
    refine .via ?_ (countPrep_within ..) (by decide)
    refine .via ?_ (bump_within ..) (by decide)
    refine .foldl ?_ (fun _ _ => ?_)
    refine .via ?_ (srcReady_within ..) (by decide)
    exact .refl _ _
    refine .via ?_ (putEls_within ..) (by decide)
    exact .refl _ _

theorem tpoolRun_within' {e : Env} {d : Dev} {z' : Dev} {y' : Bool} (h : tpoolRun e d = (z', y')) : Within [.regs, .usb, .root, .stem, .trk, .br] d z' := by
  have w' := tpoolRun_within e d
  rw [h] at w'; exact w'

theorem tactRun_within (e : Env) (d : Dev) : Within [.regs, .usb, .root, .stem, .trk, .br] d (tactRun e d).1 := by
  unfold tactRun; try dsimp only
  with_reducible
    refine .ite_fst ?_ ?_
    refine .pair ?_
    refine .via ?_ (allReady_within ..) (by decide)
    exact .refl _ _
    refine .ite_fst ?_ ?_
    refine .pair ?_
    refine .via ?_ (allReady_within ..) (by decide)
    exact .refl _ _
    refine .pair ?_
    refine .via ?_ (countPrep_within ..) (by decide)
    refine .via ?_ (bump_within ..) (by decide)
    refine .foldl ?_ (fun _ _ => ?_)
    refine .via ?_ (allReady_within ..) (by decide)
    exact .refl _ _
    refine .via ?_ (putEls_within ..) (by decide)
    exact .refl _ _

theorem tactRun_within' {e : Env} {d : Dev} {z' : Dev} {y' : Bool} (h : tactRun e d = (z', y')) : Within [.regs, .usb, .root, .stem, .trk, .br] d z' := by
  have w' := tactRun_within e d
  rw [h] at w'; exact w'

theorem treqRun_within (e : Env) (d : Dev) : Within [.regs, .usb, .root, .stem, .trk, .mem, .br, .cells] d (treqRun e d).1 := by
  unfold treqRun; try dsimp only
  with_reducible
    refine .ite_fst ?_ ?_
    refine .pair ?_
    exact .refl _ _
    refine .ite_fst ?_ ?_
    refine .pair ?_
    exact .refl _ _
    refine .ite_fst ?_ ?_
    refine .pair ?_
    refine .ite_fst ?_ ?_
    refine .via ?_ (srcReady_within ..) (by decide)
    refine .via ?_ (biasReady_within ..) (by decide)
    exact .refl _ _
    refine .pair ?_
    refine .via ?_ (biasReady_within ..) (by decide)
    exact .refl _ _
    refine .ite_fst ?_ ?_
    refine .via ?_ (convert_within ..) (by decide)
    refine .ite_fst ?_ ?_
    refine .via ?_ (srcReady_within ..) (by decide)
    refine .via ?_ (biasReady_within ..) (by decide)
    exact .refl _ _
    refine .pair ?_
    refine .via ?_ (biasReady_within ..) (by decide)
    exact .refl _ _
    refine .pair ?_
    refine .ite ?_ ?_
    refine .via ?_ (beginDrain_within ..) (by decide)
    refine .via ?_ (convert_within ..) (by decide)
    refine .ite_fst ?_ ?_
    refine .via ?_ (srcReady_within ..) (by decide)
    refine .via ?_ (biasReady_within ..) (by decide)
    exact .refl _ _
    refine .pair ?_
    refine .via ?_ (biasReady_within ..) (by decide)
    exact .refl _ _
    refine .via ?_ (convert_within ..) (by decide)
    refine .ite_fst ?_ ?_
    refine .via ?_ (srcReady_within ..) (by decide)
    refine .via ?_ (biasReady_within ..) (by decide)
    exact .refl _ _
    refine .pair ?_
    refine .via ?_ (biasReady_within ..) (by decide)
    exact .refl _ _

theorem treqRun_within' {e : Env} {d : Dev} {z' : Dev} {y' : Bool} (h : treqRun e d = (z', y')) : Within [.regs, .usb, .root, .stem, .trk, .mem, .br, .cells] d z' := by
  have w' := treqRun_within e d
  rw [h] at w'; exact w'

theorem tstatRun_within (e : Env) (d : Dev) : Within [.regs, .usb, .root, .stem, .trk, .cells] d (tstatRun e d).1 := by
  unfold tstatRun; try dsimp only
  with_reducible
    split
    refine .pair ?_
    exact .refl _ _
    refine .ite_fst ?_ ?_
    refine .pair ?_
    refine .ite_fst ?_ ?_
    refine .via ?_ (srcReady_within ..) (by decide)
    refine .via ?_ (biasReady_within ..) (by decide)
    exact .refl _ _
    refine .pair ?_
    refine .via ?_ (biasReady_within ..) (by decide)
    exact .refl _ _
    refine .pair ?_
    refine .foldl ?_ (fun _ _ => ?_)
    refine .ite_fst ?_ ?_
    refine .via ?_ (srcReady_within ..) (by decide)
    refine .via ?_ (biasReady_within ..) (by decide)
    exact .refl _ _
    refine .pair ?_
    refine .via ?_ (biasReady_within ..) (by decide)
    exact .refl _ _
    refine .via ?_ (setCell_within ..) (by decide)
    exact .refl _ _

theorem tstatRun_within' {e : Env} {d : Dev} {z' : Dev} {y' : Bool} (h : tstatRun e d = (z', y')) : Within [.regs, .usb, .root, .stem, .trk, .cells] d z' := by
  have w' := tstatRun_within e d
  rw [h] at w'; exact w'

theorem treeDoneOp_within (n i pfn : Nat) (d : Dev) : Within [.cells] d (treeDoneOp n i pfn d) := by
  unfold treeDoneOp; try dsimp only
  with_reducible
    split
    refine .ite ?_ ?_
    exact .refl _ _
    refine .via ?_ (treeDone_within ..) (by decide)
    exact .refl _ _
    split
    refine .ite ?_ ?_
    exact .refl _ _
    refine .via ?_ (treeDone_within ..) (by decide)
    exact .refl _ _
    exact .refl _ _

theorem tconvRun_within (e : Env) (d : Dev) : Within [.regs, .usb, .root, .stem, .trk, .mem, .br, .cells] d (tconvRun e d).1 := by
  unfold tconvRun; try dsimp only
  with_reducible
    refine .ite_fst ?_ ?_
    refine .pair ?_
    refine .via ?_ (srcReady_within ..) (by decide)
    exact .refl _ _
    refine .ite_fst ?_ ?_
    refine .pair ?_
    refine .via ?_ (srcReady_within ..) (by decide)
    exact .refl _ _
    refine .ite_fst ?_ ?_
    refine .pair ?_
    refine .via ?_ (bump_within ..) (by decide)
    refine .via ?_ (convPixels_within ..) (by decide)
    refine .via ?_ (srcReady_within ..) (by decide)
    exact .refl _ _
    refine .ite_fst ?_ ?_
    refine .pair ?_
    refine .via ?_ (convert_within ..) (by decide)
    refine .via ?_ (srcReady_within ..) (by decide)
    exact .refl _ _
    refine .pair ?_
    refine .via ?_ (countPrep_within ..) (by decide)
    refine .via ?_ (addSat_within ..) (by decide)
    refine .via ?_ (bump_within ..) (by decide)
    refine .via ?_ (convert_within ..) (by decide)
    refine .via ?_ (srcReady_within ..) (by decide)
    exact .refl _ _

theorem tconvRun_within' {e : Env} {d : Dev} {z' : Dev} {y' : Bool} (h : tconvRun e d = (z', y')) : Within [.regs, .usb, .root, .stem, .trk, .mem, .br, .cells] d z' := by
  have w' := tconvRun_within e d
  rw [h] at w'; exact w'

end Sys2Proof.Machine
end

