-- ==== Sys2Proof/Laws/TileDetFrame.lean ====
section
/-! SUPPORT. What each operation of Machine/TileDet.lean may change. -/

namespace Sys2Proof.Machine

theorem linesReady_within (e : Env) (s : Src) (ys : List Int) (d : Dev) : Within [.regs, .usb, .root, .stem, .trk] d (linesReady e s ys d).1 := by
  unfold linesReady; try dsimp only
  with_reducible
    refine .via ?_ (Src.touch_within ..) (by decide)
    exact .refl _ _

theorem linesReady_within' {e : Env} {s : Src} {ys : List Int} {d : Dev} {z' : Dev} {y' : Bool} (h : linesReady e s ys d = (z', y')) : Within [.regs, .usb, .root, .stem, .trk] d z' := by
  have w' := linesReady_within e s ys d
  rw [h] at w'; exact w'

theorem twarpRun_within (e : Env) (d : Dev) : Within [.regs, .usb, .root, .stem, .trk, .br, .free] d (twarpRun e d).1 := by
  unfold twarpRun; try dsimp only
  with_reducible
    refine .ite_fst ?_ ?_
    refine .pair ?_
    refine .via ?_ (linesReady_within ..) (by decide)
    exact .refl _ _
    refine .ite_fst ?_ ?_
    refine .pair ?_
    refine .via ?_ (linesReady_within ..) (by decide)
    exact .refl _ _
    refine .ite_fst ?_ ?_
    refine .pair ?_
    refine .via ?_ (linesReady_within ..) (by decide)
    refine .via ?_ (linesReady_within ..) (by decide)
    exact .refl _ _
    refine .pair ?_
    refine .via ?_ (bump_within ..) (by decide)
    refine .via ?_ (bump_within ..) (by decide)
    refine .ite ?_ ?_
    refine .ite ?_ ?_
    refine .via ?_ (countPrep_within ..) (by decide)
    refine .via ?_ (within_free ..) (by decide)
    refine .foldl ?_ (fun _ _ => ?_)
    refine .via ?_ (linesReady_within ..) (by decide)
    refine .via ?_ (linesReady_within ..) (by decide)
    exact .refl _ _
    refine .via ?_ (putEls_within ..) (by decide)
    exact .refl _ _
    refine .via ?_ (addSat_within ..) (by decide)
    refine .foldl ?_ (fun _ _ => ?_)
    refine .via ?_ (linesReady_within ..) (by decide)
    refine .via ?_ (linesReady_within ..) (by decide)
    exact .refl _ _
    refine .via ?_ (putEls_within ..) (by decide)
    exact .refl _ _
    refine .via ?_ (onceEvent_within ..) (by decide)
    refine .via ?_ (bump_within ..) (by decide)
    refine .ite ?_ ?_
    refine .via ?_ (countPrep_within ..) (by decide)
    refine .via ?_ (within_free ..) (by decide)
    refine .foldl ?_ (fun _ _ => ?_)
    refine .via ?_ (linesReady_within ..) (by decide)
    refine .via ?_ (linesReady_within ..) (by decide)
    exact .refl _ _
    refine .via ?_ (putEls_within ..) (by decide)
    exact .refl _ _
    refine .via ?_ (addSat_within ..) (by decide)
    refine .foldl ?_ (fun _ _ => ?_)
    refine .via ?_ (linesReady_within ..) (by decide)
    refine .via ?_ (linesReady_within ..) (by decide)
    exact .refl _ _
    refine .via ?_ (putEls_within ..) (by decide)
    exact .refl _ _

theorem twarpRun_within' {e : Env} {d : Dev} {z' : Dev} {y' : Bool} (h : twarpRun e d = (z', y')) : Within [.regs, .usb, .root, .stem, .trk, .br, .free] d z' := by
  have w' := twarpRun_within e d
  rw [h] at w'; exact w'

theorem listWrite_within (e : Env) (rg : Nat) (l : List Cand) (dropped : Nat) (d : Dev) : Within [.br] d (listWrite e rg l dropped d) := by
  unfold listWrite; try dsimp only
  with_reducible
    refine .via ?_ (sWrite_within ..) (by decide)
    exact .refl _ _

theorem tboxRun_within (e : Env) (d : Dev) : Within [.regs, .usb, .root, .stem, .trk, .br, .free] d (tboxRun e d).1 := by
  unfold tboxRun; try dsimp only
  with_reducible
    refine .ite_fst ?_ ?_
    refine .pair ?_
    refine .via ?_ (allReady_within ..) (by decide)
    exact .refl _ _
    refine .ite_fst ?_ ?_
    refine .pair ?_
    refine .via ?_ (allReady_within ..) (by decide)
    exact .refl _ _
    refine .pair ?_
    refine .via ?_ (countPrep_within ..) (by decide)
    refine .ite ?_ ?_
    refine .via ?_ (bump_within ..) (by decide)
    refine .via ?_ (bump_within ..) (by decide)
    refine .via ?_ (mapCur_within ..) (by decide)
    refine .via ?_ (listWrite_within ..) (by decide)
    refine .via ?_ (within_free ..) (by decide)
    refine .via ?_ (allReady_within ..) (by decide)
    exact .refl _ _
    refine .via ?_ (onceEvent_within ..) (by decide)
    refine .via ?_ (bump_within ..) (by decide)
    refine .via ?_ (bump_within ..) (by decide)
    refine .via ?_ (mapCur_within ..) (by decide)
    refine .via ?_ (listWrite_within ..) (by decide)
    refine .via ?_ (within_free ..) (by decide)
    refine .via ?_ (allReady_within ..) (by decide)
    exact .refl _ _

theorem tboxRun_within' {e : Env} {d : Dev} {z' : Dev} {y' : Bool} (h : tboxRun e d = (z', y')) : Within [.regs, .usb, .root, .stem, .trk, .br, .free] d z' := by
  have w' := tboxRun_within e d
  rw [h] at w'; exact w'

theorem tnmsRun_within (e : Env) (d : Dev) : Within [.regs, .usb, .root, .stem, .br] d (tnmsRun e d).1 := by
  unfold tnmsRun; try dsimp only
  with_reducible
    refine .ite_fst ?_ ?_
    refine .pair ?_
    exact .refl _ _
    refine .pair ?_
    refine .ite ?_ ?_
    refine .via ?_ (bump_within ..) (by decide)
    refine .via ?_ (bump_within ..) (by decide)
    refine .via ?_ (listWrite_within ..) (by decide)
    exact .refl _ _
    refine .via ?_ (onceEvent_within ..) (by decide)
    refine .via ?_ (bump_within ..) (by decide)
    refine .via ?_ (bump_within ..) (by decide)
    refine .via ?_ (listWrite_within ..) (by decide)
    exact .refl _ _

theorem tnmsRun_within' {e : Env} {d : Dev} {z' : Dev} {y' : Bool} (h : tnmsRun e d = (z', y')) : Within [.regs, .usb, .root, .stem, .br] d z' := by
  have w' := tnmsRun_within e d
  rw [h] at w'; exact w'

end Sys2Proof.Machine
end

