-- ==== Sys2Proof/Laws/TileMoveFrame.lean ====
section
/-! SUPPORT. What each operation of Machine/TileMove.lean may change. -/

namespace Sys2Proof.Machine

theorem touchSlot_within (e : Env) (slot : Option Nat) (runs : List (Nat × Nat)) (d : Dev) : Within [.regs, .usb, .root, .stem, .trk] d (touchSlot e slot runs d).1 := by
  unfold touchSlot; try dsimp only
  with_reducible
    refine .ite_fst ?_ ?_
    refine .via ?_ (touch_within ..) (by decide)
    exact .refl _ _
    split
    refine .pair ?_
    refine .via ?_ (unwrittenEvent_within ..) (by decide)
    refine .via ?_ (countUnwritten_within ..) (by decide)
    exact .refl _ _
    refine .pair ?_
    refine .via ?_ (countUnwritten_within ..) (by decide)
    exact .refl _ _

theorem touchSlot_within' {e : Env} {slot : Option Nat} {runs : List (Nat × Nat)} {d : Dev} {z' : Dev} {y' : Bool} (h : touchSlot e slot runs d = (z', y')) : Within [.regs, .usb, .root, .stem, .trk] d z' := by
  have w' := touchSlot_within e slot runs d
  rw [h] at w'; exact w'

theorem relDone_within (e : Env) (pages : List Nat) (d : Dev) : Within [.br] d (relDone e pages d) := by
  unfold relDone; try dsimp only
  with_reducible
    refine .via ?_ (mapCur_within ..) (by decide)
    exact .refl _ _

theorem loadTiles_within (e : Env) (a dst : Coord) (tb : Nat) (d : Dev) : Within [.regs, .usb, .root, .stem, .trk, .br] d (loadTiles e a dst tb d).1 := by
  unfold loadTiles; try dsimp only
  with_reducible
    refine .ite_fst ?_ ?_
    refine .pair ?_
    refine .via ?_ (touchSlot_within ..) (by decide)
    exact .refl _ _
    refine .pair ?_
    refine .ite ?_ ?_
    refine .via ?_ (relDone_within ..) (by decide)
    refine .foldl ?_ (fun _ _ => ?_)
    refine .via ?_ (touchSlot_within ..) (by decide)
    exact .refl _ _
    refine .via ?_ (sWrite_within ..) (by decide)
    exact .refl _ _
    refine .foldl ?_ (fun _ _ => ?_)
    refine .via ?_ (touchSlot_within ..) (by decide)
    exact .refl _ _
    refine .via ?_ (sWrite_within ..) (by decide)
    exact .refl _ _

theorem loadTiles_within' {e : Env} {a dst : Coord} {tb : Nat} {d : Dev} {z' : Dev} {y' : Bool} (h : loadTiles e a dst tb d = (z', y')) : Within [.regs, .usb, .root, .stem, .trk, .br] d z' := by
  have w' := loadTiles_within e a dst tb d
  rw [h] at w'; exact w'

theorem loadLines_within (e : Env) (d : Dev) : Within [.regs, .usb, .root, .stem, .trk, .br] d (loadLines e d).1 := by
  unfold loadLines; try dsimp only
  with_reducible
    refine .ite_fst ?_ ?_
    refine .pair ?_
    exact .refl _ _
    split
    refine .via ?_ (loadTiles_within ..) (by decide)
    exact .refl _ _
    refine .ite_fst ?_ ?_
    refine .pair ?_
    refine .ite_fst ?_ ?_
    refine .via ?_ (touchLines_within ..) (by decide)
    exact .refl _ _
    refine .via ?_ (touchSlot_within ..) (by decide)
    exact .refl _ _
    refine .pair ?_
    refine .ite ?_ ?_
    refine .via ?_ (relDone_within ..) (by decide)
    refine .ite ?_ ?_
    refine .via ?_ (mapCur_within ..) (by decide)
    refine .foldl ?_ (fun _ _ => ?_)
    refine .ite_fst ?_ ?_
    refine .via ?_ (touchLines_within ..) (by decide)
    exact .refl _ _
    refine .via ?_ (touchSlot_within ..) (by decide)
    exact .refl _ _
    refine .foldl ?_ (fun _ _ => ?_)
    exact .refl _ _
    refine .via ?_ (putRow_within ..) (by decide)
    exact .refl _ _
    refine .foldl ?_ (fun _ _ => ?_)
    refine .ite_fst ?_ ?_
    refine .via ?_ (touchLines_within ..) (by decide)
    exact .refl _ _
    refine .via ?_ (touchSlot_within ..) (by decide)
    exact .refl _ _
    refine .foldl ?_ (fun _ _ => ?_)
    exact .refl _ _
    refine .via ?_ (putRow_within ..) (by decide)
    exact .refl _ _
    refine .ite ?_ ?_
    refine .via ?_ (mapCur_within ..) (by decide)
    refine .foldl ?_ (fun _ _ => ?_)
    refine .ite_fst ?_ ?_
    refine .via ?_ (touchLines_within ..) (by decide)
    exact .refl _ _
    refine .via ?_ (touchSlot_within ..) (by decide)
    exact .refl _ _
    refine .foldl ?_ (fun _ _ => ?_)
    exact .refl _ _
    refine .via ?_ (putRow_within ..) (by decide)
    exact .refl _ _
    refine .foldl ?_ (fun _ _ => ?_)
    refine .ite_fst ?_ ?_
    refine .via ?_ (touchLines_within ..) (by decide)
    exact .refl _ _
    refine .via ?_ (touchSlot_within ..) (by decide)
    exact .refl _ _
    refine .foldl ?_ (fun _ _ => ?_)
    exact .refl _ _
    refine .via ?_ (putRow_within ..) (by decide)
    exact .refl _ _

theorem loadLines_within' {e : Env} {d : Dev} {z' : Dev} {y' : Bool} (h : loadLines e d = (z', y')) : Within [.regs, .usb, .root, .stem, .trk, .br] d z' := by
  have w' := loadLines_within e d
  rw [h] at w'; exact w'

theorem tileSource_within (d : Dev) (e : Env) (c : Coord) (tb : Nat) : Within [.regs, .usb, .root, .stem, .trk] d (tileSource d e c tb).1 := by
  unfold tileSource; try dsimp only
  with_reducible
    refine .ite_fst ?_ ?_
    refine .pair ?_
    refine .via ?_ (touchSlot_within ..) (by decide)
    exact .refl _ _
    refine .ite_fst ?_ ?_
    refine .pair ?_
    exact .refl _ _
    refine .pair ?_
    exact .refl _ _

theorem tileSource_within' {d : Dev} {e : Env} {c : Coord} {tb : Nat} {z' : Dev} {y' : Option Bytes} (h : tileSource d e c tb = (z', y')) : Within [.regs, .usb, .root, .stem, .trk] d z' := by
  have w' := tileSource_within d e c tb
  rw [h] at w'; exact w'

theorem loadPlaneRun_within (e : Env) (d : Dev) : Within [.regs, .usb, .root, .stem, .trk, .br] d (loadPlaneRun e d).1 := by
  unfold loadPlaneRun; try dsimp only
  with_reducible
    split
    refine .pair ?_
    refine .via ?_ (tileSource_within' (by assumption)) (by decide)
    exact .refl _ _
    refine .pair ?_
    refine .via ?_ (addSat_within ..) (by decide)
    refine .via ?_ (onTwig_within ..) (by decide)
    refine .via ?_ (streams_within ..) (by decide)
    refine .via ?_ (auditPlane_within ..) (by decide)
    refine .via ?_ (tileSource_within' (by assumption)) (by decide)
    exact .refl _ _

theorem loadPlaneRun_within' {e : Env} {d : Dev} {z' : Dev} {y' : Bool} (h : loadPlaneRun e d = (z', y')) : Within [.regs, .usb, .root, .stem, .trk, .br] d z' := by
  have w' := loadPlaneRun_within e d
  rw [h] at w'; exact w'

theorem tloadRun_within (e : Env) (d : Dev) : Within [.regs, .usb, .root, .stem, .trk, .br] d (tloadRun e d).1 := by
  unfold tloadRun; try dsimp only
  with_reducible
    split
    refine .via ?_ (loadLines_within ..) (by decide)
    exact .refl _ _
    refine .via ?_ (loadPlaneRun_within ..) (by decide)
    exact .refl _ _
    refine .pair ?_
    refine .via ?_ (onTwig_within ..) (by decide)
    refine .via ?_ (streams_within ..) (by decide)
    exact .refl _ _
    refine .pair ?_
    refine .via ?_ (setBranch_within ..) (by decide)
    exact .refl _ _

theorem tloadRun_within' {e : Env} {d : Dev} {z' : Dev} {y' : Bool} (h : tloadRun e d = (z', y')) : Within [.regs, .usb, .root, .stem, .trk, .br] d z' := by
  have w' := tloadRun_within e d
  rw [h] at w'; exact w'

theorem thaloRun_within (e : Env) (d : Dev) : Within [.br] d (thaloRun e d).1 := by
  unfold thaloRun; try dsimp only
  with_reducible
    refine .ite_fst ?_ ?_
    refine .pair ?_
    exact .refl _ _
    refine .ite_fst ?_ ?_
    refine .pair ?_
    refine .via ?_ (setBranch_within ..) (by decide)
    exact .refl _ _
    refine .pair ?_
    refine .foldl ?_ (fun _ _ => ?_)
    exact .refl _ _
    split
    exact .refl _ _
    refine .ite ?_ ?_
    refine .via ?_ (mapCur_within ..) (by decide)
    exact .refl _ _
    refine .via ?_ (setBranch_within ..) (by decide)
    refine .via ?_ (mapCur_within ..) (by decide)
    exact .refl _ _

theorem thaloRun_within' {e : Env} {d : Dev} {z' : Dev} {y' : Bool} (h : thaloRun e d = (z', y')) : Within [.br] d z' := by
  have w' := thaloRun_within e d
  rw [h] at w'; exact w'

theorem haloLandedOp_within (n : Nat) (d : Dev) : Within [.br] d (haloLandedOp n d) := by
  unfold haloLandedOp; try dsimp only
  with_reducible
    split
    exact .refl _ _
    refine .via ?_ (sWrite_within ..) (by decide)
    refine .via ?_ (setBranch_within ..) (by decide)
    exact .refl _ _

theorem tmcastRun_within (e : Env) (d : Dev) : Within [.br] d (tmcastRun e d).1 := by
  unfold tmcastRun; try dsimp only
  with_reducible
    refine .via ?_ (setBranch_within ..) (by decide)
    exact .refl _ _

theorem tmcastRun_within' {e : Env} {d : Dev} {z' : Dev} {y' : Bool} (h : tmcastRun e d = (z', y')) : Within [.br] d z' := by
  have w' := tmcastRun_within e d
  rw [h] at w'; exact w'

theorem mcastLand_within (bs : Bytes) (m : Mcast) (d : Dev) : Within [.br] d (mcastLand bs m d) := by
  unfold mcastLand; try dsimp only
  with_reducible
    refine .ite ?_ ?_
    refine .via ?_ (within_br ..) (by decide)
    refine .foldl ?_ (fun _ _ => ?_)
    refine .via ?_ (setBranch_within ..) (by decide)
    exact .refl _ _
    refine .via ?_ (sWrite_within ..) (by decide)
    exact .refl _ _
    refine .foldl ?_ (fun _ _ => ?_)
    refine .via ?_ (setBranch_within ..) (by decide)
    exact .refl _ _
    refine .via ?_ (sWrite_within ..) (by decide)
    exact .refl _ _

theorem multicastFetchOp_within (nv : NonVol) (tree : Nat) (errs : List MemErr) (d : Dev) : Within [.regs, .live, .clk, .usb, .ring, .root, .stem, .trk, .mem, .ras, .cnp, .inp, .cam, .flt, .br, .cells] d (multicastFetchOp nv tree errs d) := by
  unfold multicastFetchOp; try dsimp only
  with_reducible
    split
    exact .refl _ _
    split
    refine .via ?_ (vread_within ..) (by decide)
    exact .refl _ _
    refine .ite ?_ ?_
    refine .foldl ?_ (fun _ _ => ?_)
    refine .via ?_ (trunkErrs_within ..) (by decide)
    refine .via ?_ (vread_within' (by assumption)) (by decide)
    refine .via ?_ (plantTrunk_within ..) (by decide)
    exact .refl _ _
    refine .via ?_ (mcastLand_within ..) (by decide)
    exact .refl _ _
    refine .via ?_ (mapTask_within ..) (by decide)
    refine .foldl ?_ (fun _ _ => ?_)
    refine .via ?_ (trunkErrs_within ..) (by decide)
    refine .via ?_ (vread_within' (by assumption)) (by decide)
    refine .via ?_ (plantTrunk_within ..) (by decide)
    exact .refl _ _
    refine .via ?_ (mcastLand_within ..) (by decide)
    exact .refl _ _

theorem lineCredits_within (e : Env) (t : Nat) (ys : List Int) (d : Dev) : Within [.trk] d (lineCredits e t ys d).1 := by
  unfold lineCredits; try dsimp only
  with_reducible
    refine .ite_fst ?_ ?_
    refine .pair ?_
    exact .refl _ _
    refine .foldl_fst ?_ (fun _ _ => ?_)
    refine .pair ?_
    exact .refl _ _
    refine .ite_fst ?_ ?_
    refine .via ?_ (branchLine_within ..) (by decide)
    exact .refl _ _
    exact .refl _ _

theorem lineCredits_within' {e : Env} {t : Nat} {ys : List Int} {d : Dev} {z' : Dev} {y' : Bool} (h : lineCredits e t ys d = (z', y')) : Within [.trk] d z' := by
  have w' := lineCredits_within e t ys d
  rw [h] at w'; exact w'

theorem storeRow_within (e : Env) (t slot y ch : Nat) (l : List (Int × Int)) (d : Dev) : Within [.regs, .trk, .mem] d (storeRow e t slot y ch l d).1 := by
  unfold storeRow; try dsimp only
  with_reducible
    refine .foldl_fst ?_ (fun _ _ => ?_)
    refine .pair ?_
    exact .refl _ _
    refine .ite_fst ?_ ?_
    exact .refl _ _
    refine .via ?_ (vwrite_within ..) (by decide)
    exact .refl _ _

theorem storeRow_within' {e : Env} {t slot y ch : Nat} {l : List (Int × Int)} {d : Dev} {z' : Dev} {y' : Bool} (h : storeRow e t slot y ch l d = (z', y')) : Within [.regs, .trk, .mem] d z' := by
  have w' := storeRow_within e t slot y ch l d
  rw [h] at w'; exact w'

theorem storeRows_within (e : Env) (t slot : Nat) (l : List (Int × Nat × List (Int × Int))) (d : Dev) : Within [.regs, .trk, .mem] d (storeRows e t slot l d).1 := by
  unfold storeRows; try dsimp only
  with_reducible
    refine .foldl_fst ?_ (fun _ _ => ?_)
    refine .pair ?_
    exact .refl _ _
    refine .ite_fst ?_ ?_
    exact .refl _ _
    refine .ite_fst ?_ ?_
    exact .refl _ _
    refine .via ?_ (storeRow_within ..) (by decide)
    exact .refl _ _

theorem storeRows_within' {e : Env} {t slot : Nat} {l : List (Int × Nat × List (Int × Int))} {d : Dev} {z' : Dev} {y' : Bool} (h : storeRows e t slot l d = (z', y')) : Within [.regs, .trk, .mem] d z' := by
  have w' := storeRows_within e t slot l d
  rw [h] at w'; exact w'

theorem storeTiles_within (e : Env) (d : Dev) : Within [.regs, .stem, .trk, .mem, .br] d (storeTiles e d).1 := by
  unfold storeTiles; try dsimp only
  with_reducible
    refine .ite_fst ?_ ?_
    refine .pair ?_
    refine .via ?_ (lineCredits_within ..) (by decide)
    exact .refl _ _
    refine .ite_fst ?_ ?_
    refine .pair ?_
    refine .via ?_ (storeRows_within ..) (by decide)
    refine .via ?_ (lineCredits_within ..) (by decide)
    exact .refl _ _
    refine .pair ?_
    refine .via ?_ (addSat_within ..) (by decide)
    refine .via ?_ (beginDrain_within ..) (by decide)
    refine .via ?_ (storeRows_within ..) (by decide)
    refine .via ?_ (lineCredits_within ..) (by decide)
    exact .refl _ _

theorem storeTiles_within' {e : Env} {d : Dev} {z' : Dev} {y' : Bool} (h : storeTiles e d = (z', y')) : Within [.regs, .stem, .trk, .mem, .br] d z' := by
  have w' := storeTiles_within e d
  rw [h] at w'; exact w'

theorem storeWords_within (e : Env) (t slot : Nat) (y : Nat) (l : List (Int × Int)) (d : Dev) : Within [.regs, .trk, .mem, .ras] d (storeWords e t slot y l d).1 := by
  unfold storeWords; try dsimp only
  with_reducible
    refine .ite_fst ?_ ?_
    refine .pair ?_
    refine .via ?_ (within_ras ..) (by decide)
    exact .refl _ _
    refine .foldl_fst ?_ (fun _ _ => ?_)
    refine .pair ?_
    exact .refl _ _
    refine .ite_fst ?_ ?_
    refine .via ?_ (vwrite_within ..) (by decide)
    exact .refl _ _
    exact .refl _ _

theorem storeWords_within' {e : Env} {t slot : Nat} {y : Nat} {l : List (Int × Int)} {d : Dev} {z' : Dev} {y' : Bool} (h : storeWords e t slot y l d = (z', y')) : Within [.regs, .trk, .mem, .ras] d z' := by
  have w' := storeWords_within e t slot y l d
  rw [h] at w'; exact w'

theorem storeLines_within (e : Env) (d : Dev) : Within [.regs, .trk, .mem, .ras] d (storeLines e d).1 := by
  unfold storeLines; try dsimp only
  with_reducible
    refine .ite_fst ?_ ?_
    refine .pair ?_
    exact .refl _ _
    refine .ite_fst ?_ ?_
    refine .pair ?_
    refine .via ?_ (lineCredits_within ..) (by decide)
    exact .refl _ _
    refine .ite_fst ?_ ?_
    refine .foldl_fst ?_ (fun _ _ => ?_)
    refine .pair ?_
    refine .via ?_ (lineCredits_within ..) (by decide)
    exact .refl _ _
    refine .ite_fst ?_ ?_
    exact .refl _ _
    refine .via ?_ (storeWords_within ..) (by decide)
    exact .refl _ _
    refine .via ?_ (storeRows_within ..) (by decide)
    refine .via ?_ (lineCredits_within ..) (by decide)
    exact .refl _ _

theorem storeLines_within' {e : Env} {d : Dev} {z' : Dev} {y' : Bool} (h : storeLines e d = (z', y')) : Within [.regs, .trk, .mem, .ras] d z' := by
  have w' := storeLines_within e d
  rw [h] at w'; exact w'

theorem tstoreRun_within (e : Env) (d : Dev) : Within [.regs, .stem, .trk, .mem, .ras, .br] d (tstoreRun e d).1 := by
  unfold tstoreRun; try dsimp only
  with_reducible
    refine .ite_fst ?_ ?_
    refine .via ?_ (storeTiles_within ..) (by decide)
    exact .refl _ _
    refine .via ?_ (storeLines_within ..) (by decide)
    exact .refl _ _

theorem tstoreRun_within' {e : Env} {d : Dev} {z' : Dev} {y' : Bool} (h : tstoreRun e d = (z', y')) : Within [.regs, .stem, .trk, .mem, .ras, .br] d z' := by
  have w' := tstoreRun_within e d
  rw [h] at w'; exact w'

end Sys2Proof.Machine
end

