-- ==== Sys2Proof/Laws/GraftLoadFrame.lean ====
section
/-! SUPPORT. What each operation of Machine/GraftLoad.lean may change. -/

namespace Sys2Proof.Machine

theorem loadPhase_within (phase : Nat) (d : Dev) : Within [.regs, .root] d (loadPhase phase d) := by
  unfold loadPhase; try dsimp only
  with_reducible
    refine .via ?_ (progSet_within ..) (by decide)
    exact .refl _ _

theorem loadFail_within (key phase status : Nat) (f : Flaw) (d : Dev) : Within [.regs, .usb, .root, .stem] d (loadFail key phase status f d) := by
  unfold loadFail; try dsimp only
  with_reducible
    refine .via ?_ (progFail_within ..) (by decide)
    refine .via ?_ (complete_within ..) (by decide)
    refine .ite ?_ ?_
    refine .via ?_ (raise_within ..) (by decide)
    refine .via ?_ (setFlds_within ..) (by decide)
    refine .via ?_ (within_root ..) (by decide)
    exact .refl _ _
    refine .via ?_ (loadPhase_within ..) (by decide)
    refine .via ?_ (raise_within ..) (by decide)
    refine .via ?_ (setFlds_within ..) (by decide)
    refine .via ?_ (within_root ..) (by decide)
    exact .refl _ _

theorem seedEnd_within (status key : Nat) (d : Dev) : Within [.regs, .usb] d (seedEnd status key d) := by
  unfold seedEnd; try dsimp only
  with_reducible
    refine .via ?_ (progFail_within ..) (by decide)
    refine .via ?_ (complete_within ..) (by decide)
    exact .refl _ _

theorem graftFinish_within (nv : NonVol) (x : Xfer) (d : Dev) : Within [.regs, .usb, .root, .stem] d (graftFinish nv x d) := by
  unfold graftFinish; try dsimp only
  with_reducible
    split
    refine .via ?_ (loadFail_within ..) (by decide)
    refine .ite ?_ ?_
    refine .via ?_ (sigRejected_within ..) (by decide)
    refine .via ?_ (setFld_within ..) (by decide)
    exact .refl _ _
    refine .via ?_ (setFld_within ..) (by decide)
    exact .refl _ _
    refine .via ?_ (complete_within ..) (by decide)
    refine .via ?_ (progDone_within ..) (by decide)
    refine .via ?_ (raise_within ..) (by decide)
    refine .via ?_ (setFld_within ..) (by decide)
    refine .via ?_ (within_root ..) (by decide)
    refine .via ?_ (setFld_within ..) (by decide)
    exact .refl _ _

theorem seedFinish_within (nv : NonVol) (x : Xfer) (d : Dev) : Within [.regs, .usb, .root, .stem, .mem] d (seedFinish nv x d) := by
  unfold seedFinish; try dsimp only
  with_reducible
    refine .ite ?_ ?_
    refine .via ?_ (seedEnd_within ..) (by decide)
    exact .refl _ _
    refine .ite ?_ ?_
    refine .via ?_ (seedEnd_within ..) (by decide)
    refine .via ?_ (sigRejected_within ..) (by decide)
    exact .refl _ _
    refine .ite ?_ ?_
    refine .via ?_ (complete_within ..) (by decide)
    refine .via ?_ (progDone_within ..) (by decide)
    exact .refl _ _
    refine .ite ?_ ?_
    refine .via ?_ (seedEnd_within ..) (by decide)
    exact .refl _ _
    split
    refine .via ?_ (seedEnd_within ..) (by decide)
    exact .refl _ _
    refine .via ?_ (complete_within ..) (by decide)
    refine .via ?_ (progDone_within ..) (by decide)
    refine .via ?_ (setFld_within ..) (by decide)
    refine .via ?_ (within_root ..) (by decide)
    refine .via ?_ (writeLp6_within ..) (by decide)
    exact .refl _ _

theorem graftLoadOp_within (len key : Nat) (d : Dev) : Within [.regs, .usb, .root] d (graftLoadOp len key d) := by
  unfold graftLoadOp; try dsimp only
  with_reducible
    refine .ite ?_ ?_
    refine .via ?_ (complete_within ..) (by decide)
    exact .refl _ _
    refine .ite ?_ ?_
    refine .via ?_ (complete_within ..) (by decide)
    exact .refl _ _
    refine .ite ?_ ?_
    refine .via ?_ (complete_within ..) (by decide)
    exact .refl _ _
    refine .via ?_ (within_root ..) (by decide)
    refine .via ?_ (loadPhase_within ..) (by decide)
    refine .via ?_ (setFld_within ..) (by decide)
    refine .via ?_ (announce_within ..) (by decide)
    exact .refl _ _

theorem seedStageOp_within (len key : Nat) (d : Dev) : Within [.regs, .usb, .root] d (seedStageOp len key d) := by
  unfold seedStageOp; try dsimp only
  with_reducible
    refine .ite ?_ ?_
    refine .via ?_ (complete_within ..) (by decide)
    exact .refl _ _
    refine .ite ?_ ?_
    refine .via ?_ (complete_within ..) (by decide)
    exact .refl _ _
    refine .ite ?_ ?_
    refine .via ?_ (complete_within ..) (by decide)
    exact .refl _ _
    refine .via ?_ (progStart_within ..) (by decide)
    refine .via ?_ (announce_within ..) (by decide)
    exact .refl _ _

theorem seedDropOp_within (hash : Bytes) (key : Nat) (d : Dev) : Within [.regs, .usb, .root] d (seedDropOp hash key d) := by
  unfold seedDropOp; try dsimp only
  with_reducible
    refine .ite ?_ ?_
    refine .via ?_ (complete_within ..) (by decide)
    exact .refl _ _
    refine .ite ?_ ?_
    refine .via ?_ (complete_within ..) (by decide)
    exact .refl _ _
    refine .via ?_ (complete_within ..) (by decide)
    refine .via ?_ (setFld_within ..) (by decide)
    refine .via ?_ (within_root ..) (by decide)
    exact .refl _ _

end Sys2Proof.Machine
end

