-- ==== Sys2Proof/Laws/SliceFrame.lean ====
section
/-! SUPPORT. What each operation of Machine/Slice.lean may change. -/

namespace Sys2Proof.Machine

theorem countHandover_within (n s : Nat) (d : Dev) : Within [.regs, .stem] d (countHandover n s d) := by
  unfold countHandover; try dsimp only
  with_reducible
    refine .foldl ?_ (fun _ _ => ?_)
    refine .via ?_ (bump_within ..) (by decide)
    refine .via ?_ (bump_within ..) (by decide)
    exact .refl _ _
    refine .via ?_ (mapTask_within ..) (by decide)
    exact .refl _ _

theorem take_within (n s : Nat) (c : Ctx) (d : Dev) : Within [.regs, .stem, .trk, .br] d (take n s c d) := by
  unfold take; try dsimp only
  with_reducible
    refine .via ?_ (setFlds_within ..) (by decide)
    refine .via ?_ (mapTask_within ..) (by decide)
    refine .ite ?_ ?_
    refine .via ?_ (unstage_within ..) (by decide)
    refine .via ?_ (setBranch_within ..) (by decide)
    exact .refl _ _
    refine .via ?_ (setBranch_within ..) (by decide)
    exact .refl _ _

theorem idle_within (n : Nat) (d : Dev) : Within [.regs, .br] d (idle n d) := by
  unfold idle; try dsimp only
  with_reducible
    refine .via ?_ (setFlds_within ..) (by decide)
    refine .via ?_ (setBranch_within ..) (by decide)
    exact .refl _ _

theorem tileBoundaryOp_within (nv : NonVol) (n : Nat) (d : Dev) : Within [.regs, .stem, .trk, .br] d (tileBoundaryOp nv n d) := by
  unfold tileBoundaryOp; try dsimp only
  with_reducible
    refine .ite ?_ ?_
    exact .refl _ _
    split
    refine .via ?_ (take_within ..) (by decide)
    exact .refl _ _
    refine .ite ?_ ?_
    refine .via ?_ (idle_within ..) (by decide)
    exact .refl _ _
    refine .ite ?_ ?_
    exact .refl _ _
    split
    refine .via ?_ (idle_within ..) (by decide)
    exact .refl _ _
    split
    refine .via ?_ (idle_within ..) (by decide)
    exact .refl _ _
    refine .via ?_ (take_within ..) (by decide)
    refine .via ?_ (setBranch_within ..) (by decide)
    refine .ite ?_ ?_
    refine .via ?_ (countHandover_within ..) (by decide)
    exact .refl _ _
    exact .refl _ _

theorem sliceExpireOp_within (nv : NonVol) (n : Nat) (d : Dev) : Within [.br] d (sliceExpireOp nv n d) := by
  unfold sliceExpireOp; try dsimp only
  with_reducible
    refine .ite ?_ ?_
    refine .via ?_ (setBranch_within ..) (by decide)
    exact .refl _ _
    exact .refl _ _

theorem sliceHandoverOp_within (nv : NonVol) (n : Nat) (d : Dev) : Within [.regs, .stem, .br] d (sliceHandoverOp nv n d) := by
  unfold sliceHandoverOp; try dsimp only
  with_reducible
    refine .ite ?_ ?_
    split
    exact .refl _ _
    refine .via ?_ (setFlds_within ..) (by decide)
    refine .via ?_ (countHandover_within ..) (by decide)
    refine .via ?_ (setBranch_within ..) (by decide)
    exact .refl _ _
    exact .refl _ _

theorem tsigRun_within (e : Env) (d : Dev) : Within [.br] d (tsigRun e d).1 := by
  unfold tsigRun; try dsimp only
  with_reducible
    refine .via ?_ (mapCur_within ..) (by decide)
    exact .refl _ _

theorem tsigRun_within' {e : Env} {d : Dev} {z' : Dev} {y' : Bool} (h : tsigRun e d = (z', y')) : Within [.br] d z' := by
  have w' := tsigRun_within e d
  rw [h] at w'; exact w'

theorem tsigLandOp_within (n : Nat) (d : Dev) : Within [.ring, .stem, .br] d (tsigLandOp n d) := by
  unfold tsigLandOp; try dsimp only
  with_reducible
    split
    exact .refl _ _
    split
    exact .refl _ _
    refine .ite ?_ ?_
    refine .via ?_ (mapTask_within ..) (by decide)
    refine .via ?_ (setBranch_within ..) (by decide)
    exact .refl _ _
    refine .via ?_ (ringInc_within ..) (by decide)
    refine .via ?_ (mapTask_within ..) (by decide)
    refine .via ?_ (setBranch_within ..) (by decide)
    exact .refl _ _

theorem twaitOp_within (nv : NonVol) (n : Nat) (d : Dev) : Within [.regs, .stem, .trk, .mem, .br, .cells] d (twaitOp nv n d) := by
  unfold twaitOp; try dsimp only
  with_reducible
    split
    exact .refl _ _
    refine .ite ?_ ?_
    exact .refl _ _
    refine .ite ?_ ?_
    refine .via ?_ (advance_within ..) (by decide)
    exact .refl _ _
    refine .ite ?_ ?_
    refine .via ?_ (advance_within ..) (by decide)
    exact .refl _ _
    refine .via ?_ (markBoundary_within ..) (by decide)
    refine .via ?_ (mapCur_within ..) (by decide)
    exact .refl _ _

theorem twaitMetOp_within (nv : NonVol) (n : Nat) (d : Dev) : Within [.regs, .stem, .trk, .mem, .br, .cells] d (twaitMetOp nv n d) := by
  unfold twaitMetOp; try dsimp only
  with_reducible
    split
    exact .refl _ _
    refine .via ?_ (markBoundary_within ..) (by decide)
    refine .ite ?_ ?_
    refine .via ?_ (consumeLines_within ..) (by decide)
    refine .ite ?_ ?_
    refine .via ?_ (endProgram_within ..) (by decide)
    refine .via ?_ (setBranch_within ..) (by decide)
    exact .refl _ _
    refine .via ?_ (setBranch_within ..) (by decide)
    exact .refl _ _
    refine .ite ?_ ?_
    refine .via ?_ (endProgram_within ..) (by decide)
    refine .via ?_ (setBranch_within ..) (by decide)
    exact .refl _ _
    refine .via ?_ (setBranch_within ..) (by decide)
    exact .refl _ _

end Sys2Proof.Machine
end

