-- ==== Sys2Proof/Laws/RegMapFrame.lean ====
section
/-! SUPPORT. What each operation of Machine/RegMap.lean may change. -/

namespace Sys2Proof.Machine

theorem storeBits_within (mask : Nat) (v : Word) (d : Dev) (a : Nat) : Within [.regs] d (storeBits mask v d a) := by
  unfold storeBits; try dsimp only
  with_reducible
    refine .via ?_ (setReg_within ..) (by decide)
    exact .refl _ _

theorem clkLockWrite_within (v : Word) (d : Dev) : Within [.regs] d (clkLockWrite v d) := by
  unfold clkLockWrite; try dsimp only
  with_reducible
    refine .ite ?_ ?_
    refine .via ?_ (setFld_within ..) (by decide)
    refine .via ?_ (storeBits_within ..) (by decide)
    exact .refl _ _
    refine .via ?_ (storeBits_within ..) (by decide)
    exact .refl _ _

theorem dsoPrWrite_within (v hwSet : Word) (d : Dev) : Within [.regs, .usb, .root, .stem, .ras] d (dsoPrWrite v hwSet d) := by
  unfold dsoPrWrite; try dsimp only
  with_reducible
    refine .ite ?_ ?_
    refine .via ?_ (setFld_within ..) (by decide)
    refine .ite ?_ ?_
    refine .via ?_ (replayRequestOp_within ..) (by decide)
    refine .ite ?_ ?_
    refine .via ?_ (setFld_within ..) (by decide)
    exact .refl _ _
    exact .refl _ _
    refine .via ?_ (replayExit_within ..) (by decide)
    refine .via ?_ (setFld_within ..) (by decide)
    refine .ite ?_ ?_
    refine .via ?_ (setFld_within ..) (by decide)
    exact .refl _ _
    exact .refl _ _
    refine .ite ?_ ?_
    refine .via ?_ (replayRequestOp_within ..) (by decide)
    refine .ite ?_ ?_
    refine .via ?_ (setFld_within ..) (by decide)
    exact .refl _ _
    exact .refl _ _
    refine .via ?_ (replayExit_within ..) (by decide)
    refine .via ?_ (setFld_within ..) (by decide)
    refine .ite ?_ ?_
    refine .via ?_ (setFld_within ..) (by decide)
    exact .refl _ _
    exact .refl _ _

theorem regRead_within (nv : NonVol) (a : Nat) (d : Dev) : Within [.regs, .hold] d (regRead nv a d).2 := by
  unfold regRead; try dsimp only
  with_reducible
    refine .ite ?_ ?_
    refine .via ?_ (setReg_within ..) (by decide)
    refine .foldl ?_ (fun _ _ => ?_)
    exact .refl _ _
    refine .via ?_ (within_hold ..) (by decide)
    exact .refl _ _
    refine .foldl ?_ (fun _ _ => ?_)
    exact .refl _ _
    refine .via ?_ (within_hold ..) (by decide)
    exact .refl _ _

theorem regRead_within' {nv : NonVol} {a : Nat} {d : Dev} {z' : Dev} {y' : Word} (h : regRead nv a d = (y', z')) : Within [.regs, .hold] d z' := by
  have w' := regRead_within nv a d
  rw [h] at w'; exact w'

theorem keepLanes_within (q : Nat) (x : Fld) (old : Word) (d : Dev) : Within [.regs] d (keepLanes q x old d) := by
  unfold keepLanes; try dsimp only
  with_reducible
    refine .ite ?_ ?_
    refine .via ?_ (setFld_within ..) (by decide)
    exact .refl _ _
    exact .refl _ _

theorem intCtlWrite_within (p : Nat) (v : Word) (d : Dev) : Within [.regs, .clk, .usb, .ring, .root, .stem, .trk, .mem, .inp] d (intCtlWrite p v d) := by
  unfold intCtlWrite; try dsimp only
  with_reducible
    refine .ite ?_ ?_
    refine .via ?_ (sourceChange_within ..) (by decide)
    refine .via ?_ (keepLanes_within ..) (by decide)
    refine .via ?_ (storeBits_within ..) (by decide)
    exact .refl _ _
    refine .via ?_ (keepLanes_within ..) (by decide)
    refine .via ?_ (storeBits_within ..) (by decide)
    exact .refl _ _

theorem regWrite_within (nv : NonVol) (a : Nat) (v hwSet : Word) (d : Dev) : Within [.regs, .live, .clk, .usb, .ring, .root, .stem, .trk, .mem, .ras, .cnp, .inp, .cam, .flt, .br, .cells] d (regWrite nv a v hwSet d).2 := by
  unfold regWrite; try dsimp only
  with_reducible
    refine .ite_snd ?_ ?_
    refine .duo ?_
    refine .via ?_ (clkCapOp_within ..) (by decide)
    exact .refl _ _
    refine .ite_snd ?_ ?_
    refine .duo ?_
    refine .via ?_ (clkLockWrite_within ..) (by decide)
    exact .refl _ _
    refine .ite_snd ?_ ?_
    refine .ite_snd ?_ ?_
    refine .duo ?_
    refine .via ?_ (ringAddRegOp_within ..) (by decide)
    exact .refl _ _
    refine .duo ?_
    exact .refl _ _
    refine .ite_snd ?_ ?_
    refine .ite_snd ?_ ?_
    refine .duo ?_
    exact .refl _ _
    refine .ite_snd ?_ ?_
    refine .duo ?_
    exact .refl _ _
    refine .duo ?_
    refine .via ?_ (ringSetRegOp_within ..) (by decide)
    exact .refl _ _
    refine .ite_snd ?_ ?_
    refine .ite_snd ?_ ?_
    refine .duo ?_
    refine .via ?_ (stemHistInvOp_within ..) (by decide)
    exact .refl _ _
    refine .duo ?_
    exact .refl _ _
    refine .ite_snd ?_ ?_
    refine .duo ?_
    refine .via ?_ (watermarks_within ..) (by decide)
    refine .via ?_ (storeBits_within ..) (by decide)
    exact .refl _ _
    refine .ite_snd ?_ ?_
    refine .duo ?_
    refine .via ?_ (booksSnapOp_within ..) (by decide)
    exact .refl _ _
    refine .ite_snd ?_ ?_
    refine .duo ?_
    refine .via ?_ (pageLookupOp_within ..) (by decide)
    exact .refl _ _
    refine .ite_snd ?_ ?_
    refine .duo ?_
    refine .ite ?_ ?_
    refine .via ?_ (setFld_within ..) (by decide)
    refine .via ?_ (storeBits_within ..) (by decide)
    exact .refl _ _
    refine .via ?_ (storeBits_within ..) (by decide)
    exact .refl _ _
    refine .ite_snd ?_ ?_
    refine .duo ?_
    refine .via ?_ (lp6AreaOp_within ..) (by decide)
    exact .refl _ _
    refine .ite_snd ?_ ?_
    refine .duo ?_
    refine .via ?_ (intCtlWrite_within ..) (by decide)
    exact .refl _ _
    refine .ite_snd ?_ ?_
    refine .duo ?_
    refine .via ?_ (intCtlWrite_within ..) (by decide)
    exact .refl _ _
    refine .ite_snd ?_ ?_
    refine .duo ?_
    refine .via ?_ (commitWriteOp_within ..) (by decide)
    exact .refl _ _
    refine .ite_snd ?_ ?_
    refine .duo ?_
    refine .via ?_ (dsoPrWrite_within ..) (by decide)
    exact .refl _ _
    refine .ite_snd ?_ ?_
    refine .duo ?_
    refine .via ?_ (keepLanes_within ..) (by decide)
    refine .via ?_ (storeBits_within ..) (by decide)
    exact .refl _ _
    refine .ite_snd ?_ ?_
    refine .duo ?_
    refine .via ?_ (keepLanes_within ..) (by decide)
    refine .via ?_ (storeBits_within ..) (by decide)
    exact .refl _ _
    refine .ite_snd ?_ ?_
    refine .duo ?_
    refine .via ?_ (camCtlOp_within ..) (by decide)
    exact .refl _ _
    refine .ite_snd ?_ ?_
    refine .duo ?_
    refine .via ?_ (camCtlOp_within ..) (by decide)
    exact .refl _ _
    refine .ite_snd ?_ ?_
    refine .duo ?_
    refine .via ?_ (storeBits_within ..) (by decide)
    exact .refl _ _
    refine .ite_snd ?_ ?_
    refine .duo ?_
    refine .via ?_ (fltCmdWrite_within ..) (by decide)
    exact .refl _ _
    refine .ite_snd ?_ ?_
    split
    refine .duo ?_
    refine .ite ?_ ?_
    exact .refl _ _
    refine .via ?_ (storeBits_within ..) (by decide)
    exact .refl _ _
    refine .duo ?_
    refine .ite ?_ ?_
    exact .refl _ _
    refine .via ?_ (storeBits_within ..) (by decide)
    exact .refl _ _
    refine .duo ?_
    refine .ite ?_ ?_
    exact .refl _ _
    refine .via ?_ (storeBits_within ..) (by decide)
    exact .refl _ _
    refine .duo ?_
    refine .ite ?_ ?_
    exact .refl _ _
    refine .via ?_ (storeBits_within ..) (by decide)
    exact .refl _ _
    refine .duo ?_
    refine .via ?_ (windArmOp_within ..) (by decide)
    exact .refl _ _
    refine .duo ?_
    exact .refl _ _
    split
    refine .duo ?_
    refine .via ?_ (exposureGoOp_within ..) (by decide)
    exact .refl _ _
    refine .duo ?_
    refine .ite ?_ ?_
    exact .refl _ _
    refine .via ?_ (storeBits_within ..) (by decide)
    exact .refl _ _

theorem regWrite_within' {nv : NonVol} {a : Nat} {v hwSet : Word} {d : Dev} {z' : Dev} {y' : Nat} (h : regWrite nv a v hwSet d = (y', z')) : Within [.regs, .live, .clk, .usb, .ring, .root, .stem, .trk, .mem, .ras, .cnp, .inp, .cam, .flt, .br, .cells] d z' := by
  have w' := regWrite_within nv a v hwSet d
  rw [h] at w'; exact w'

theorem registerWriteOp_within (nv : NonVol) (a : Nat) (v hwSet : Word) (d : Dev) : Within [.regs, .live, .clk, .usb, .ring, .root, .stem, .trk, .mem, .ras, .cnp, .inp, .cam, .flt, .br, .cells] d (registerWriteOp nv a v hwSet d) := by
  unfold registerWriteOp; try dsimp only
  with_reducible
    refine .ite ?_ ?_
    refine .via ?_ (regWrite_within ..) (by decide)
    exact .refl _ _
    exact .refl _ _

theorem readRowOp_within (nv : NonVol) (a : Nat) (d : Dev) : Within [.regs, .hold, .usb] d (readRowOp nv a d) := by
  unfold readRowOp; try dsimp only
  with_reducible
    refine .ite ?_ ?_
    refine .via ?_ (within_usb ..) (by decide)
    refine .via ?_ (regRead_within ..) (by decide)
    exact .refl _ _
    exact .refl _ _

theorem rcReadOp_within (nv : NonVol) (a hwInc : Nat) (d : Dev) : Within [.regs, .hold, .usb] d (rcReadOp nv a hwInc d) := by
  unfold rcReadOp; try dsimp only
  with_reducible
    refine .ite ?_ ?_
    refine .via ?_ (setReg_within ..) (by decide)
    refine .via ?_ (readRowOp_within ..) (by decide)
    exact .refl _ _
    refine .via ?_ (readRowOp_within ..) (by decide)
    exact .refl _ _

theorem progReadOp_within (nv : NonVol) (k : Nat) (d : Dev) : Within [.regs, .hold, .usb] d (progReadOp nv k d) := by
  unfold progReadOp; try dsimp only
  with_reducible
    refine .ite ?_ ?_
    refine .via ?_ (readRowOp_within ..) (by decide)
    exact .refl _ _
    exact .refl _ _

end Sys2Proof.Machine
end

