-- ==== Sys2Proof/Laws/HostFrame.lean ====
section
/-! SUPPORT. What each operation of Machine/Host.lean may change. -/

namespace Sys2Proof.Machine

theorem xferFail_within (x : Xfer) (d : Dev) : Within [.regs, .usb, .root, .stem, .cam] d (xferFail x d) := by
  unfold xferFail; try dsimp only
  with_reducible
    split
    refine .via ?_ (loadFail_within ..) (by decide)
    exact .refl _ _
    refine .via ?_ (seedEnd_within ..) (by decide)
    exact .refl _ _
    refine .via ?_ (barkReject_within ..) (by decide)
    exact .refl _ _
    refine .via ?_ (ispParamsEnd_within ..) (by decide)
    exact .refl _ _
    refine .via ?_ (progFail_within ..) (by decide)
    refine .via ?_ (complete_within ..) (by decide)
    exact .refl _ _
    refine .via ?_ (complete_within ..) (by decide)
    exact .refl _ _

theorem usbLinkChange_within (d : Dev) : Within [.regs, .usb, .root, .stem] d (usbLinkChange d) := by
  unfold usbLinkChange; try dsimp only
  with_reducible
    refine .via ?_ (raise_within ..) (by decide)
    exact .refl _ _

theorem busResetOp_within (speed : Nat) (configured : Bool) (d : Dev) : Within [.regs, .usb, .ring, .root, .stem, .cam] d (busResetOp speed configured d) := by
  unfold busResetOp; try dsimp only
  with_reducible
    refine .via ?_ (usbLinkChange_within ..) (by decide)
    refine .via ?_ (bump_within ..) (by decide)
    refine .via ?_ (setFlds_within ..) (by decide)
    refine .via ?_ (within_usb_ring_root ..) (by decide)
    refine .foldl ?_ (fun _ _ => ?_)
    refine .foldl ?_ (fun _ _ => ?_)
    exact .refl _ _
    refine .via ?_ (xferFail_within ..) (by decide)
    exact .refl _ _
    refine .via ?_ (ringPut_within ..) (by decide)
    exact .refl _ _

theorem completionTakenOp_within (d : Dev) : Within [.regs, .live, .hold, .devTime, .held, .boot, .clk, .usb, .ring, .root, .stem, .trk, .mem, .ras, .cnp, .inp, .cam, .flt, .br, .cells, .grv, .free] d (completionTakenOp d) := by
  unfold completionTakenOp; dsimp only
  split
  · exact .refl _ _
  split
  · exact .refl _ _
  split
  · exact ((Within.refl _ _).via (reset_within _) (by decide)).via (within_held _) (by decide)
  · exact ((Within.refl _ _).via (within_usb _) (by decide)).via (usbPacket_within ..) (by decide)

theorem putXfer_within (x : Xfer) (d : Dev) : Within [.usb] d (putXfer x d) := by
  unfold putXfer; try dsimp only
  with_reducible
    refine .via ?_ (within_usb ..) (by decide)
    exact .refl _ _

theorem xferProgress_within (x : Xfer) (d : Dev) : Within [.regs, .root] d (xferProgress x d) := by
  unfold xferProgress; try dsimp only
  with_reducible
    split
    refine .via ?_ (progSet_within ..) (by decide)
    exact .refl _ _
    refine .via ?_ (progAt_within ..) (by decide)
    exact .refl _ _
    refine .via ?_ (progAt_within ..) (by decide)
    exact .refl _ _
    exact .refl _ _

theorem xferPlace_within (x : Xfer) (off : Nat) (bs : Bytes) (d : Dev) : Within [.mem] d (xferPlace x off bs d) := by
  unfold xferPlace; try dsimp only
  with_reducible
    split
    refine .via ?_ (writeLp6_within ..) (by decide)
    exact .refl _ _
    exact .refl _ _

theorem physWrite_within (a : Nat) (bs : Bytes) (d : Dev) : Within [.mem] d (physWrite a bs d) := by
  unfold physWrite; try dsimp only
  with_reducible
    refine .ite ?_ ?_
    refine .foldl_fst ?_ (fun _ _ => ?_)
    refine .pair ?_
    exact .refl _ _
    refine .pair ?_
    refine .ite ?_ ?_
    exact .refl _ _
    refine .via ?_ (writeMem_within ..) (by decide)
    exact .refl _ _
    refine .ite ?_ ?_
    refine .via ?_ (writeLp6_within ..) (by decide)
    exact .refl _ _
    refine .via ?_ (writeMem_within ..) (by decide)
    exact .refl _ _

theorem hostVwrite_within (a : Nat) (bs : Bytes) (d : Dev) : Within [.regs, .trk, .mem] d (hostVwrite a bs d).1 := by
  unfold hostVwrite; try dsimp only
  with_reducible
    refine .foldl_fst ?_ (fun _ _ => ?_)
    refine .pair ?_
    exact .refl _ _
    refine .ite_fst ?_ ?_
    refine .pair ?_
    refine .via ?_ (writePart_within ..) (by decide)
    exact .refl _ _
    exact .refl _ _

theorem hostVwrite_within' {a : Nat} {bs : Bytes} {d : Dev} {z' : Dev} {y' : Bool} (h : hostVwrite a bs d = (z', y')) : Within [.regs, .trk, .mem] d z' := by
  have w' := hostVwrite_within a bs d
  rw [h] at w'; exact w'

theorem memFinish_within (addr : Nat) (virt : Bool) (x : Xfer) (d : Dev) : Within [.regs, .usb, .trk, .mem] d (memFinish addr virt x d) := by
  unfold memFinish; try dsimp only
  with_reducible
    refine .ite ?_ ?_
    refine .via ?_ (complete_within ..) (by decide)
    refine .via ?_ (physWrite_within ..) (by decide)
    exact .refl _ _
    refine .ite ?_ ?_
    refine .via ?_ (complete_within ..) (by decide)
    exact .refl _ _
    refine .ite ?_ ?_
    refine .via ?_ (complete_within ..) (by decide)
    refine .via ?_ (hostVwrite_within ..) (by decide)
    exact .refl _ _
    refine .via ?_ (hostVwrite_within ..) (by decide)
    exact .refl _ _

theorem dataTakenOp_within (nv : NonVol) (errs : List MemErr) (d : Dev) : Within [.regs, .live, .clk, .usb, .ring, .root, .stem, .trk, .mem, .ras, .cnp, .inp, .cam, .flt, .br, .cells] d (dataTakenOp nv errs d) := by
  unfold dataTakenOp; try dsimp only
  with_reducible
    split
    exact .refl _ _
    refine .ite ?_ ?_
    exact .refl _ _
    refine .ite ?_ ?_
    refine .via ?_ (complete_within ..) (by decide)
    refine .via ?_ (within_usb ..) (by decide)
    exact .refl _ _
    refine .ite ?_ ?_
    refine .via ?_ (complete_within ..) (by decide)
    refine .via ?_ (within_usb ..) (by decide)
    exact .refl _ _
    refine .ite ?_ ?_
    exact .refl _ _
    refine .via ?_ (usbPacket_within ..) (by decide)
    refine .ite ?_ ?_
    refine .via ?_ (complete_within ..) (by decide)
    refine .via ?_ (within_usb ..) (by decide)
    refine .via ?_ (trunkErrs_within ..) (by decide)
    refine .ite_fst ?_ ?_
    refine .via ?_ (vread_within ..) (by decide)
    refine .via ?_ (plantTrunk_within ..) (by decide)
    exact .refl _ _
    refine .pair ?_
    refine .via ?_ (plantTrunk_within ..) (by decide)
    exact .refl _ _
    refine .via ?_ (within_usb ..) (by decide)
    refine .via ?_ (trunkErrs_within ..) (by decide)
    refine .ite_fst ?_ ?_
    refine .via ?_ (vread_within ..) (by decide)
    refine .via ?_ (plantTrunk_within ..) (by decide)
    exact .refl _ _
    refine .pair ?_
    refine .via ?_ (plantTrunk_within ..) (by decide)
    exact .refl _ _

theorem enumerateOp_within (nv : NonVol) (speed : Nat) (d : Dev) : Within [.regs, .usb, .root, .stem] d (enumerateOp nv speed d) := by
  unfold enumerateOp; try dsimp only
  with_reducible
    refine .ite ?_ ?_
    exact .refl _ _
    refine .via ?_ (usbLinkChange_within ..) (by decide)
    refine .via ?_ (setFlds_within ..) (by decide)
    refine .via ?_ (within_usb ..) (by decide)
    exact .refl _ _

theorem ep0ReadOp_within (nv : NonVol) (a : Nat) (d : Dev) : Within [.regs, .hold, .usb] d (ep0ReadOp nv a d) := by
  unfold ep0ReadOp; try dsimp only
  with_reducible
    refine .ite ?_ ?_
    exact .refl _ _
    refine .ite ?_ ?_
    refine .via ?_ (within_usb ..) (by decide)
    exact .refl _ _
    refine .via ?_ (within_usb ..) (by decide)
    refine .via ?_ (regRead_within ..) (by decide)
    exact .refl _ _

theorem ep0WriteOp_within (nv : NonVol) (a : Nat) (v : Word) (d : Dev) : Within [.regs, .live, .clk, .usb, .ring, .root, .stem, .trk, .mem, .ras, .cnp, .inp, .cam, .flt, .br, .cells] d (ep0WriteOp nv a v d) := by
  unfold ep0WriteOp; try dsimp only
  with_reducible
    refine .ite ?_ ?_
    exact .refl _ _
    refine .ite ?_ ?_
    refine .via ?_ (within_usb ..) (by decide)
    exact .refl _ _
    refine .ite ?_ ?_
    refine .via ?_ (within_usb ..) (by decide)
    refine .via ?_ (regWrite_within ..) (by decide)
    exact .refl _ _
    refine .via ?_ (within_usb ..) (by decide)
    exact .refl _ _

theorem eventSendOp_within (d : Dev) : Within [.regs, .usb, .root, .stem, .flt] d (eventSendOp d) := by
  unfold eventSendOp; try dsimp only
  with_reducible
    refine .ite ?_ ?_
    exact .refl _ _
    refine .ite ?_ ?_
    refine .via ?_ (raise_within ..) (by decide)
    refine .via ?_ (within_usb ..) (by decide)
    refine .via ?_ (usbPacket_within ..) (by decide)
    refine .via ?_ (within_usb ..) (by decide)
    exact .refl _ _
    refine .via ?_ (usbPacket_within ..) (by decide)
    refine .via ?_ (within_usb ..) (by decide)
    exact .refl _ _

theorem readRegs_within (nv : NonVol) (a n : Nat) (d : Dev) : Within [.regs, .hold] d (readRegs nv a n d).2 := by
  induction n generalizing a d with
  | zero => exact .refl _ _
  | succ n ih =>
    unfold readRegs; dsimp only
    refine .ite_snd (.duo ?_) (.duo (.refl _ _))
    exact ((Within.refl _ _).via (regRead_within ..) (by decide)).trans (ih _ _)

theorem regReadOp_within (nv : NonVol) (a n key : Nat) (d : Dev) : Within [.regs, .hold, .usb] d (regReadOp nv a n key d) := by
  unfold regReadOp; try dsimp only
  with_reducible
    split
    refine .via ?_ (complete_within ..) (by decide)
    refine .via ?_ (readRegs_within ..) (by decide)
    exact .refl _ _
    refine .via ?_ (complete_within ..) (by decide)
    refine .via ?_ (readRegs_within ..) (by decide)
    exact .refl _ _

theorem writeRegs_within (nv : NonVol) (a : Nat) (ws : List Word) (d : Dev) : Within [.regs, .live, .clk, .usb, .ring, .root, .stem, .trk, .mem, .ras, .cnp, .inp, .cam, .flt, .br, .cells] d (writeRegs nv a ws d).2 := by
  induction ws generalizing a d with
  | nil => exact .refl _ _
  | cons w ws ih =>
    unfold writeRegs; dsimp only
    refine .ite_snd (.ite_snd ?_ (.duo (.refl _ _))) (.duo (.refl _ _))
    exact ((Within.refl _ _).via (regWrite_within ..) (by decide)).trans (ih _ _)

theorem regWriteOp_within (nv : NonVol) (a : Nat) (ws : List Word) (key : Nat) (d : Dev) : Within [.regs, .live, .clk, .usb, .ring, .root, .stem, .trk, .mem, .ras, .cnp, .inp, .cam, .flt, .br, .cells] d (regWriteOp nv a ws key d) := by
  unfold regWriteOp; try dsimp only
  with_reducible
    refine .via ?_ (complete_within ..) (by decide)
    refine .via ?_ (writeRegs_within ..) (by decide)
    exact .refl _ _

theorem memReadOp_within (virt : Bool) (a n key : Nat) (d : Dev) : Within [.usb] d (memReadOp virt a n key d) := by
  unfold memReadOp; try dsimp only
  with_reducible
    refine .ite ?_ ?_
    refine .via ?_ (complete_within ..) (by decide)
    exact .refl _ _
    refine .via ?_ (within_usb ..) (by decide)
    exact .refl _ _

theorem memWriteOp_within (virt : Bool) (a n key : Nat) (d : Dev) : Within [.usb] d (memWriteOp virt a n key d) := by
  unfold memWriteOp; try dsimp only
  with_reducible
    refine .ite ?_ ?_
    refine .via ?_ (complete_within ..) (by decide)
    exact .refl _ _
    refine .via ?_ (announce_within ..) (by decide)
    exact .refl _ _

theorem lengthTimeoutOp_within (tag : BitVec 16) (d : Dev) : Within [.regs, .usb, .root, .stem, .cam] d (lengthTimeoutOp tag d) := by
  unfold lengthTimeoutOp; try dsimp only
  with_reducible
    split
    exact .refl _ _
    refine .ite ?_ ?_
    refine .via ?_ (xferFail_within ..) (by decide)
    exact .refl _ _
    exact .refl _ _

theorem metadataOp_within (ifn : Word) (port t ring : Nat) (items : Bytes) (key : Nat) (d : Dev) : Within [.regs, .usb, .ring, .trk, .mem] d (metadataOp ifn port t ring items key d) := by
  unfold metadataOp; try dsimp only
  with_reducible
    refine .ite ?_ ?_
    refine .via ?_ (complete_within ..) (by decide)
    exact .refl _ _
    refine .via ?_ (complete_within ..) (by decide)
    refine .via ?_ (ringInc_within ..) (by decide)
    refine .via ?_ (vwrite_within ..) (by decide)
    exact .refl _ _

end Sys2Proof.Machine
end

