-- ==== Sys2Proof/Laws/Request.lean ====
section
/-! SUPPORT. How a request is taken and answered: one lemma for a request that executes at once, one for its completion. -/

namespace Sys2Proof.Machine

/-- A request that nothing holds back runs its body under its own tag. -/
theorem request_ready {d : Dev} {h : Hdr} {kind type : Nat} (i : Instr) {ok : Bool} (body : Nat → Dev → Dev)
    (hr : Ready d h kind type) (hok : ok = true) :
    request i h kind type ok body d = body (tagKey d h.tag) (addTag d h kind false) := by
  obtain ⟨_, hc, hz, ha, he⟩ := hr
  simp only [canRun, Bool.and_eq_true, Bool.not_eq_true', beq_iff_eq, decide_eq_true_eq] at hc
  obtain ⟨⟨⟨⟨⟨hl, hrec⟩, hst⟩, hfree⟩, hlt⟩, hw⟩ := hc
  unfold request
  simp [hl, hst, hfree, hok, hz, ha, he, servedNow, hrec, hw]
  intro h64; omega

/-- No tag of the device is that of a request that is ready. -/
theorem ready_tag_free {d : Dev} {h : Hdr} {kind type : Nat} (hr : Ready d h kind type) :
    d.usb.tags.find? (fun t => t.tag == tagKey d h.tag && !t.done) = none := by
  obtain ⟨_, hc, _⟩ := hr
  simp only [canRun, Bool.and_eq_true, Bool.not_eq_true', beq_iff_eq, decide_eq_true_eq] at hc
  obtain ⟨⟨⟨_, hfree⟩, _⟩, _⟩ := hc
  rw [List.find?_eq_none]
  intro x hx
  have := List.any_eq_false.mp hfree x hx
  simp_all

@[simp] theorem tagKey_addTag (d : Dev) (h : Hdr) (kind : Nat) (w : Bool) (t : BitVec 16) :
    tagKey (addTag d h kind w) t = tagKey d t := rfl

theorem tagKey_mod (d : Dev) (t : BitVec 16) : tagKey d t % 65536 = t.toNat := by
  unfold tagKey; have := t.isLt; omega

/-- The completion of a request whose tag is in flight. -/
theorem complete_found {d : Dev} {key : Nat} {t : TagRec} (status : Nat) (payload : Bytes)
    (ht : d.usb.tags.find? (fun t => t.tag == key && !t.done) = some t) :
    complete d key status payload = { d with usb := { d.usb with
      tags := d.usb.tags.map (fun r => if r.tag == key then { r with done := true } else r)
      xfers := d.usb.xfers.filter (fun x => x.tag != key)
      ep1in := d.usb.ep1in ++ [{ tag := key % 65536, addr := t.addr, status, payload }] } } := by
  unfold complete; rw [ht]

/-- While a request executes, its tag is the one in flight. -/
theorem find_addTag {d : Dev} {h : Hdr} {kind type : Nat} (k : Nat) (hr : Ready d h kind type) :
    (addTag d h k false).usb.tags.find? (fun t => t.tag == tagKey d h.tag && !t.done) =
      some { tag := tagKey d h.tag, kind := k, addr := h.addr.toNat, done := false, waiting := false } := by
  simp [addTag, List.find?_append, ready_tag_free hr]

/-- The host side after a completion under the tag of a ready request, when what went before left the host side alone. -/
theorem complete_answers {d d' : Dev} {h : Hdr} {kind type k : Nat} (status : Nat) (payload : Bytes) (hr : Ready d h kind type)
    (hu : d'.usb = (addTag d h k false).usb) :
    Answered h status payload d (complete d' (tagKey d h.tag) status payload) := by
  have hf := find_addTag k hr
  rw [← hu] at hf
  rw [complete_found status payload hf, Answered, hu]
  simp [addTag, answer, tagKey_mod]

/-! ## What a command does, from its operation -/

theorem Only.refl (l : List Part) (d : Dev) : Only l d d := fun p _ => p.same_refl d

/-- A command that is an operation of the running engine. -/
theorem does_onDev {c : Instr} {s : State} {l : List Part} {P : Dev → Prop} (f : Dev → Dev) (he : exec c s = onDev s f)
    (ha : alive s.dev = true) (hw : Only l s.dev (f s.dev)) (hp : P (f s.dev)) : Does c s l P :=
  ⟨f s.dev, by rw [he, onDev_alive f ha], hw, hp⟩

/-- A request that nothing holds back, whose body answers the device `e`. -/
theorem does_request {i : Instr} {s : State} {h : Hdr} {kind type : Nat} {ok : Bool} {body : Nat → Dev → Dev} {l : List Part}
    {P : Dev → Prop} (e : Dev) (he : exec i s = onDev s (request i h kind type ok body)) (hr : Ready s.dev h kind type)
    (hok : ok = true) (hb : body (tagKey s.dev h.tag) (addTag s.dev h kind false) = e) (hw : Only l s.dev e) (hp : P e) :
    Does i s l P := by
  subst hb
  exact does_onDev _ he hr.1 (by rw [request_ready i body hr hok]; exact hw) (by rw [request_ready i body hr hok]; exact hp)

/-- A new tag, an operation and a completion change the host side and what the operation changes. -/
theorem only_addTag_complete {l : List Part} {d d' : Dev} {h : Hdr} {k key status : Nat} {payload : Bytes} (hl : Part.usb ∈ l)
    (hw : Only l (addTag d h k false) d') : Only l d (complete d' key status payload) := by
  intro p hp
  have hu : p ∉ [Part.usb] := by simp; intro e; exact hp (e ▸ hl)
  exact Part.same_trans (Part.same_trans ((addTag_within d h k false).only p hu) (hw p hp)) ((complete_within d' key status payload).only p hu)

end Sys2Proof.Machine
end

