-- ==== Sys2Proof/Laws/TickFrame.lean ====
section
/-! SUPPORT. What each operation of Machine/Tick.lean may change. -/

namespace Sys2Proof.Machine

theorem blankTick_within (d : Dev) : Within [.regs, .ras] d (blankTick d) := by
  unfold blankTick; try dsimp only
  with_reducible
    refine .ite ?_ ?_
    refine .ite ?_ ?_
    refine .via ?_ (setFld_within ..) (by decide)
    refine .via ?_ (within_ras ..) (by decide)
    exact .refl _ _
    refine .via ?_ (within_ras ..) (by decide)
    exact .refl _ _
    exact .refl _ _

theorem closeIdle_within (nv : NonVol) (d : Dev) : Within [.regs, .usb, .ring, .root, .stem, .trk, .mem, .cam, .flt, .br, .cells] d (closeIdle nv d) := by
  unfold closeIdle; try dsimp only
  with_reducible
    refine .ite ?_ ?_
    refine .via ?_ (closeFrames_within ..) (by decide)
    exact .refl _ _
    exact .refl _ _

theorem retryWrites_within (d : Dev) : Within [.regs, .usb, .trk, .mem] d (retryWrites d) := by
  unfold retryWrites; try dsimp only
  with_reducible
    refine .foldl ?_ (fun _ _ => ?_)
    exact .refl _ _
    split
    refine .via ?_ (memFinish_within ..) (by decide)
    exact .refl _ _
    exact .refl _ _

theorem timeTick_within (d : Dev) : Within [.devTime, .grv] d (timeTick d) := by
  unfold timeTick; try dsimp only
  with_reducible
    refine .ite ?_ ?_
    refine .via ?_ (within_devTime_grv ..) (by decide)
    exact .refl _ _
    refine .ite ?_ ?_
    refine .via ?_ (within_devTime_grv ..) (by decide)
    exact .refl _ _
    refine .via ?_ (within_devTime_grv ..) (by decide)
    exact .refl _ _

end Sys2Proof.Machine
end

