-- ==== Sys2Proof/WellFormed.lean ====
section
/-! DEFINITION. Commands whose operands fit the fields that carry them: message fields (R422, R427), register fields, pins and
packets. The block answers BAD_ARG to many well-formed commands; this check is only about what can be presented to it. -/

namespace Sys2Proof

/-- A number fits a field of `w` bits. -/
def fits (w n : Nat) : Bool := decide (n < 2 ^ w)

/-- LENGTH is a u32, and a request comes on EP1 OUT or EP2 OUT (R418, R422). -/
def Hdr.wf (h : Hdr) : Bool := fits 32 h.length && (h.endpoint == 1 || h.endpoint == 2)

/-- The declared stream fits the INT registers that report it (R315). -/
def VideoDesc.wf (v : VideoDesc) : Bool :=
  fits 16 v.width && fits 16 v.height && fits 3 v.enc && fits 2 v.bpc && fits 1 v.range && fits 2 v.colorimetry &&
  fits 16 v.htotal && fits 16 v.vtotal && fits 32 v.fperiod && fits 16 v.dscBpp && fits 16 v.dscSlices

/-- The word lies in the Trunk window, in a Branch store or in a buffer (R62, R202, R475). -/
def MemErr.wf (e : MemErr) : Bool := decide (e.addr < match e.place with | .trunk => 2 ^ 26 | .store => 2 ^ 19 | .buffer => 2 ^ 32)

/-- Every operand of the command fits its field. -/
def Instr.wf : Instr → Bool
  | .registerWrite _ _ _ => true
  | .rcRegisterRead _ hwInc => fits 32 hwInc
  | .lowWordRead _ => true
  | .genProgressARead k => decide (1 ≤ k ∧ k ≤ 11)
  | .intHdrIfnRead _ => true
  | .camCxLastCfnRead _ => true
  | .resetAssert => true
  | .resetRelease => true
  | .pllLock => true
  | .firmwareStarted => true
  | .trunkSelfTestDone failed => decide failed.Nodup
  | .lp6TrainingDone rate density failed => fits 3 rate && fits 2 density && decide failed.Nodup
  | .usbEnumeration _ => true
  | .usbBusReset _ _ => true
  | .ep0RegisterRead _ => true
  | .ep0RegisterWrite _ _ => true
  | .regRead h count => h.wf && fits 32 count
  | .regWrite h words => h.wf && fits 30 words.length
  | .memRead h bytes => h.wf && fits 32 bytes
  | .memWrite h bytes => h.wf && fits 32 bytes
  | .data h _ payload => h.wf && fits 32 payload.length
  | .completionTaken => true
  | .eventMessageSend => true
  | .lengthTimeout _ => true
  | .ringAdd h _ _ => h.wf
  | .ringSet h _ _ => h.wf
  | .ringWait h _ _ timeoutMs => h.wf && fits 32 timeoutMs
  | .ringWaitMet _ => true
  | .ringWaitTimeout _ => true
  | .ringAlloc h => h.wf
  | .ringFree h _ => h.wf
  | .ringAddRegisterWrite _ => true
  | .ringSetRegisterWrite _ => true
  | .metadata h _ port tensor _ items => h.wf && fits 8 port && fits 16 tensor && fits 16 items.length
  | .graftLoad h len => h.wf && fits 32 len
  | .graftApply h _ _ => h.wf
  | .graftPreparationDone => true
  | .graftAbort h => h.wf
  | .graftUnload h _ _ => h.wf
  | .graftReleaseDeadline => true
  | .readmit h pipe => h.wf && fits 8 pipe
  | .seedStage h len => h.wf && fits 32 len
  | .seedDrop h hash => h.wf && decide (hash.length = 48)
  | .histInvalidate h tensor => h.wf && fits 16 tensor
  | .stemHistInvWrite _ => true
  | .layerFlip h _ _ _ _ => h.wf
  | .layerWrite h layer buffer offset len => h.wf && fits 8 layer && fits 8 buffer && fits 32 offset && fits 32 len
  | .wbStart h point fmt count => h.wf && fits 8 point && fits 8 fmt && fits 32 count
  | .wbStop h => h.wf
  | .barkCommand h len => h.wf && fits 32 len
  | .ispParams h ctx offset len => h.wf && fits 8 ctx && fits 32 offset && fits 32 len
  | .attest h nonce => h.wf && decide (nonce.length = 32)
  | .certRead h index => h.wf && fits 8 index
  | .fwUpdate h len => h.wf && fits 32 len
  | .intControl h len => h.wf && fits 32 len
  | .provision h op slot bytes => h.wf && fits 8 op && fits 8 slot && decide (bytes.length ≤ 97)
  | .restore h op slot len => h.wf && fits 8 op && fits 8 slot && fits 32 len
  | .outputFrameStart => true
  | .cadenceInputTimeout => true
  | .understoryLineProduce _ => true
  | .tileRowJudge k => fits 13 k
  | .segmentAck _ => true
  | .canopyLineCompose errs => errs.all (·.wf)
  | .lineScanned => true
  | .lineMatch => true
  | .startOfBlanking => true
  | .flipGroupTimeout _ => true
  | .flattenBuildStart _ => true
  | .flattenBuilt _ => true
  | .dsoCommitWrite _ => true
  | .panelReplayRequest => true
  | .panelReplayExitRequest => true
  | .sinkReplayExitRequest => true
  | .dsoLinkChange _ _ => true
  | .dsoLinkTraining _ rate lanes _ _ _ _ => fits 3 rate && fits 3 lanes
  | .intakeLinkTraining _ rate lanes _ _ _ => fits 3 rate && fits 3 lanes
  | .hdcpAuthentication _ _ _ => true
  | .intakeFrameStart _ video => video.wf
  | .sdpReceived _ packet => decide (4 ≤ packet.length ∧ packet.length ≤ 36)
  | .intakeLineReceived _ samples _ => fits 16 samples.length && samples.all (fits 48)
  | .intakeLineWritten _ => true
  | .intakeFrameEnd _ => true
  | .sourceChange _ _ => true
  | .splitPairTimeout _ => true
  | .uiFrameComplete => true
  | .taskReady task _ _ => fits 16 task
  | .tileBoundary _ => true
  | .sliceQuantumExpire _ => true
  | .sliceHandover _ => true
  | .taskComplete task _ => fits 16 task
  | .taskLimitTimeout task _ => fits 16 task
  | .tload _ errs => errs.all (·.wf)
  | .pageRelease task _ vpn => fits 16 task && fits 18 vpn
  | .tmac _ errs => errs.all (·.wf)
  | .twino _ errs => errs.all (·.wf)
  | .tdiag _ errs => errs.all (·.wf)
  | .tileDrain _ badEntries badSpare _ => badEntries.all (fits 16) && badSpare.all (fits 16)
  | .auditArm _ => true
  | .tpool _ errs => errs.all (·.wf)
  | .tact _ errs => errs.all (·.wf)
  | .treq _ errs => errs.all (·.wf)
  | .tstat _ errs => errs.all (·.wf)
  | .maximumTreeDone ostep cell _ => fits 12 ostep && fits 16 cell
  | .tconv _ errs => errs.all (·.wf)
  | .twarp _ errs => errs.all (·.wf)
  | .thalo _ errs => errs.all (·.wf)
  | .haloLineLanded _ => true
  | .tmcast _ => true
  | .multicastFetch _ errs => errs.all (·.wf)
  | .tbox _ errs => errs.all (·.wf)
  | .tnms _ errs => errs.all (·.wf)
  | .tstore _ errs => errs.all (·.wf)
  | .tsig _ => true
  | .tsigLand _ => true
  | .twait _ => true
  | .twaitMet _ => true
  | .evictionWriteDone _ vpn => fits 18 vpn
  | .pageFetchDone _ vpn => fits 18 vpn
  | .trunkStallTimeout task _ => fits 16 task
  | .stampTick => true
  | .trkBooksSnap _ => true
  | .trkPageLookup _ => true
  | .scrubPassStart => true
  | .scrubLine correctable uncorrectable => decide (correctable + uncorrectable ≤ 8)
  | .bankPageCopied uncorrectable => decide (uncorrectable ≤ 8192)
  | .lp6ReadDone offset _ _ => fits 36 offset
  | .lp6Refresh _ _ => true
  | .lp6GranuleCopied words => decide (words.length ≤ 256)
  | .lp6AreaWrite _ => true
  | .camFrameStart _ => true
  | .camLineLanded _ samples _ => fits 16 samples.length && samples.all (fits 16)
  | .camFrameEnd _ => true
  | .camPclkMeasure _ khz => fits 32 khz
  | .camCtlWrite _ _ => true
  | .ispFrameEnter => true
  | .ispLineProcessed _ => true
  | .ispFrameComplete => true
  | .exposureGo _ _ => true
  | .i2cExposureDone _ => true
  | .camI2cNak _ entry byte => fits 2 entry && fits 8 byte
  | .fsyncOutPulse => true
  | .fsyncInEdge => true
  | .fsyncTimeout => true
  | .timeCodeReceived code => decide (code.length = 16)
  | .groveTupleChanged => true
  | .powerWindow p tj _ => fits 16 p && decide (-128 ≤ tj ∧ tj < 128)
  | .clkCapWrite _ => true
  | .jtagExtest _ => true
  | .bucketLeak bucket => fits 8 bucket
  | .retirementStart _ => true
  | .flitReceived _ _ _ payload => fits 16 payload.length
  | .flitAckTimeout _ => true
  | .flitResend _ => true
  | .fence _ => true
  | .unfence _ => true
  | .retire _ _ _ => true
  | .windRuleArm _ _ => true
  | .ep2InDataTaken errs => errs.all (·.wf)
  | .attestReportSigned => true
  | .writebackLineWritten => true
  | .testEnChange _ => true

end Sys2Proof
end

