-- ==== Sys2Proof/Tests/Slice0.lean ====
section
/-! SUPPORT. Tests: commands that WellFormed refuses, and for every statement with hypotheses a state and operands that meet them, clause by
clause. Values that a test expects are worked from the rule that its comment names. -/

namespace Sys2Proof.Tests

set_option Elab.async false

open Sys2Proof Sys2Proof.Machine

/-! ## States and operands for the witnesses -/

/-- A request on EP1 OUT. -/
def hd (n : Nat) : Hdr := { tag := 0, addr := 0, length := n, endpoint := 1 }
/-- A stream of 1,920 × 1,080 at 60 Hz. -/
def vid : VideoDesc :=
  { width := 1920, height := 1080, enc := 0, bpc := 1, range := 0, colorimetry := 0, htotal := 2200, vtotal := 1125, fperiod := 16666667
    dscBpp := 0, dscSlices := 0 }
/-- An error past the end of a Branch store. -/
def farErr : MemErr := { place := .store, addr := 2 ^ 19, bad := true, raw := 0 }
/-- The engine in service: clocks run, the raster runs, the host link is up. -/
def up : Dev :=
  setFlds { Dev.reset with boot := 4, ras := { Dev.reset.ras with running := true } } [(clkPllLock, 1), (usbSpeed, 3), (usbConfigured, 1)]
def on (d : Dev) : State := { State.reset with dev := d }


/-! ### Small Graft images (R268 to R279, R207 to R222) -/

def zeros (n : Nat) : Bytes := List.replicate n 0
def padTo (n : Nat) (bs : Bytes) : Bytes := bs ++ zeros (n - bs.length)
/-- Fields of one width, in order. -/
def fields (n : Nat) (l : List Nat) : Bytes := l.flatMap (le n)
def dirOf : Nat → List (Nat × Bytes) → Bytes
  | _, [] => []
  | o, e :: l => le 4 e.1 ++ le 4 o ++ le 4 e.2.length ++ zeros 4 ++ dirOf (o + e.2.length) l
/-- Header, directory and sections by code. -/
def graftOf (l : List (Nat × Bytes)) : Bytes :=
  zeros 6 ++ le 2 l.length ++ zeros 56 ++ dirOf (64 + 16 * l.length) l ++ l.flatMap (·.2)
/-- STRUCTURE: pipelines as [CLASS, STEM, KEY, CTX], a cadence, slice wheels by Branch, trees, Branch sets. -/
def structSec (b0 shared fbW fbH : Nat) (pipes : List (List Nat)) (cad : List Nat) (wheels : List (List Nat)) (trees : List Nat)
    (sets : List (List Nat)) : Bytes :=
  padTo 0x40 (fields 1 [b0, sets.length, cad.length, 0] ++ le 4 shared ++ zeros 12 ++ fields 2 [fbW, fbH]) ++
  padTo 0x80 (pipes.flatMap (fun p => padTo 32 (fields 1 p))) ++ padTo 0x20 (fields 2 cad) ++
  padTo 0x200 (wheels.flatMap (fun w => padTo 32 (fields 4 w))) ++ padTo 0x80 (fields 2 trees) ++
  sets.flatMap (fun s => padTo 32 (fields 1 (s.length :: 0 :: s)))
/-- A TENSORS entry: size, format, class byte, frame slots, binding. -/
def tensorRec (w h c fmt cls slots bind : Nat) : Bytes :=
  padTo 23 (fields 2 [w, h, c] ++ fields 1 [fmt, cls, slots]) ++ le 1 bind ++ zeros 8
/-- A TASKS entry of pipeline 0 and Branch set 0: program, waits, SIG Rings, DONE_RING, inputs, outputs. -/
def taskRec (prog : Nat) (waits sigs : List Nat) (done : Nat) (ins outs : List Nat) : Bytes :=
  padTo 12 (fields 1 [0, 0] ++ le 2 prog ++ fields 1 [0, waits.length + sigs.length * 8] ++ fields 2 [done, 0] ++
    le 1 (ins.length + outs.length * 8)) ++
  padTo 16 (fields 4 waits) ++ padTo 8 (fields 2 sigs) ++ padTo 12 (fields 2 ins) ++ padTo 16 (fields 2 outs)
/-- A RINGS entry: number, KIND, the flags byte, TOTAL. -/
def ringRec (r kind flags total : Nat) : Bytes := le 2 r ++ fields 1 [kind, flags] ++ le 4 total
/-- A Graft in force from output frame 0. -/
def grafted (b : Bytes) (d : Dev) : Dev := { d with root := { d.root with space0 := some { img := b, meas := [], k := 0, idx := 0, area := 0 } } }
/-! ## WellFormed -/

/-- A request whose LENGTH or operand exceeds its field is ill formed. -/
theorem test_wide_requests_are_ill_formed : ([.rcRegisterRead 0 (2 ^ 32), .genProgressARead 0, .genProgressARead 12,
    .trunkSelfTestDone [3, 3], .lp6TrainingDone 8 0 [], .lp6TrainingDone 0 4 [], .lp6TrainingDone 0 0 [1, 1],
    .regRead (hd (2 ^ 32)) 1, .regRead (hd 4) (2 ^ 32), .regRead { hd 4 with endpoint := 0 } 1, .memRead (hd 4) (2 ^ 32), .memWrite (hd 4) (2 ^ 32),
    .ringAdd (hd (2 ^ 32)) 0 0, .ringSet (hd (2 ^ 32)) 0 0, .ringWait (hd 12) 0 0 (2 ^ 32), .ringAlloc (hd (2 ^ 32)), .ringFree (hd (2 ^ 32)) 0,
    .metadata (hd 16) 0 256 0 0 [], .metadata (hd 16) 0 0 65536 0 [], .graftLoad (hd 8) (2 ^ 32), .graftApply (hd (2 ^ 32)) 0 0,
    .graftAbort (hd (2 ^ 32)), .graftUnload (hd (2 ^ 32)) 0 0, .readmit (hd 5) 256, .seedStage (hd 8) (2 ^ 32), .seedDrop (hd 52) [1],
    .histInvalidate (hd 6) 65536, .layerFlip (hd (2 ^ 32)) 0 0 0 0, .layerWrite (hd 16) 256 0 0 0, .layerWrite (hd 16) 0 256 0 0,
    .layerWrite (hd 16) 0 0 (2 ^ 32) 0, .layerWrite (hd 16) 0 0 0 (2 ^ 32), .wbStart (hd 12) 256 0 0, .wbStart (hd 12) 0 256 0,
    .wbStart (hd 12) 0 0 (2 ^ 32), .wbStop (hd (2 ^ 32)), .barkCommand (hd 8) (2 ^ 32), .ispParams (hd 16) 256 0 0,
    .ispParams (hd 16) 0 (2 ^ 32) 0, .ispParams (hd 16) 0 0 (2 ^ 32), .attest (hd 36) [], .certRead (hd 5) 256, .fwUpdate (hd 8) (2 ^ 32),
    .intControl (hd 8) (2 ^ 32), .provision (hd 8) 256 0 [], .provision (hd 8) 0 256 [], .provision (hd 8) 1 0 (List.replicate 98 0),
    .restore (hd 12) 256 0 0, .restore (hd 12) 0 256 0, .restore (hd 12) 0 0 (2 ^ 32)] : List Instr).all (fun c => !c.wf) = true := by
  decide +kernel

/-- An event of the engine whose operand exceeds what can be presented to it is ill formed. -/
theorem test_wide_events_are_ill_formed : ([.tileRowJudge (2 ^ 13), .canopyLineCompose [farErr], .dsoLinkTraining 0 8 0 false false false none,
    .dsoLinkTraining 0 0 8 false false false none, .intakeLinkTraining 0 8 0 false false none, .intakeLinkTraining 0 0 8 false false none,
    .intakeFrameStart 0 { vid with width := 65536 }, .intakeFrameStart 0 { vid with height := 65536 }, .intakeFrameStart 0 { vid with enc := 8 },
    .intakeFrameStart 0 { vid with bpc := 4 }, .intakeFrameStart 0 { vid with range := 2 }, .intakeFrameStart 0 { vid with colorimetry := 4 },
    .intakeFrameStart 0 { vid with htotal := 65536 }, .intakeFrameStart 0 { vid with vtotal := 65536 },
    .intakeFrameStart 0 { vid with fperiod := 2 ^ 32 }, .intakeFrameStart 0 { vid with dscBpp := 65536 },
    .intakeFrameStart 0 { vid with dscSlices := 65536 }, .sdpReceived 0 [1, 2, 3], .sdpReceived 0 (List.replicate 37 0),
    .intakeLineReceived 0 [2 ^ 48] false, .taskReady 65536 0 [], .taskComplete 65536 0, .taskLimitTimeout 65536 0, .pageRelease 65536 0 0,
    .pageRelease 0 0 (2 ^ 18), .tload 0 [farErr], .tmac 0 [farErr], .twino 0 [farErr], .tdiag 0 [farErr], .tpool 0 [farErr], .tact 0 [farErr],
    .treq 0 [farErr], .tstat 0 [farErr], .tconv 0 [farErr], .twarp 0 [farErr], .thalo 0 [farErr], .multicastFetch 0 [farErr], .tbox 0 [farErr],
    .tnms 0 [farErr], .tstore 0 [farErr], .tileDrain 0 [65536] [] false, .tileDrain 0 [] [65536] false, .maximumTreeDone 4096 0 0,
    .maximumTreeDone 0 65536 0, .evictionWriteDone 0 (2 ^ 18), .pageFetchDone 0 (2 ^ 18), .trunkStallTimeout 65536 0, .scrubLine 5 4,
    .bankPageCopied 8193, .lp6ReadDone (2 ^ 36) 0 false, .lp6GranuleCopied (List.replicate 257 (0, 0)), .camLineLanded 0 [65536] 0,
    .camPclkMeasure 0 (2 ^ 32), .camI2cNak 0 4 0, .camI2cNak 0 0 256, .timeCodeReceived [], .powerWindow 65536 0 0, .powerWindow 0 128 0,
    .powerWindow 0 (-129) 0, .bucketLeak 256, .ep2InDataTaken [farErr]] : List Instr).all (fun c => !c.wf) = true := by decide +kernel

/-- The greatest operands that fit are well formed. -/
theorem test_boundary_operands_fit : ([.regRead (hd (2 ^ 32 - 1)) (2 ^ 32 - 1), .genProgressARead 11, .lp6TrainingDone 7 3 [7, 0],
    .powerWindow 65535 (-128) 0, .powerWindow 0 127 0, .scrubLine 8 0, .bankPageCopied 8192, .intakeFrameStart 1 vid, .tileRowJudge 8191,
    .tload 15 [{ farErr with addr := 2 ^ 19 - 1 }]] : List Instr).all (·.wf) = true := by decide +kernel

/-- Requests of each order class meet an engine that takes them at once. -/
theorem test_requests_are_ready : Ready up (hd 4) 0 1 ∧ Ready up (hd 8) 1 0x10 ∧ Ready up (hd 12) 2 0x13 := by
  unfold Ready; decide +kernel

/-! ## The whole block and register access -/

theorem test_idle_step_states : (on up).pending = [] ∧ alive up = true ∧ isFollower up = false ∧ State.reset.pending = [] ∧
    alive Dev.reset = false := by decide +kernel

theorem test_invariant_holds_in_service : Inv (on up) ∧ ∃ t, step (on up) = .next t :=
  ⟨⟨by decide, by decide⟩, _, rfl⟩

theorem test_fuses_premise : ∃ t, exec .resetAssert State.reset = .next t := ⟨_, rfl⟩

theorem test_unclocked_command : alive Dev.reset = false ∧ ¬ ofPins .stampTick := ⟨by decide, id⟩

theorem test_register_write_states : alive up = true ∧ storeMask NonVol.reset 0x100004 ≠ 0 ∧
    regAddrOk 0x100004 = true ∧ regAddrOk 2 = false := by decide +kernel

theorem test_register_reads_are_ready : [(.rcRegisterRead 0x100020 5, 0x100020, 5), (.lowWordRead 0x8, 0x8, 0), (.genProgressARead 1, progA 1, 0),
    (.genProgressARead 11, progA 11, 0), (.intHdrIfnRead 1, hdrIfn 1, 0), (.camCxLastCfnRead 7, cxLastCfn 7, 0)].all
      (fun (x : Instr × Nat × Nat) => readOf x.1 == some x.2 && regAddrOk x.2.1) = true := by decide +kernel

theorem test_ep0_states : ep0Served up = true ∧ (regWrite NonVol.reset 0x30008 0 0 up).1 ≠ stOk ∧ regAddrOk 0x30008 = true := by
  decide +kernel

/-- REG_READ and REG_WRITE: one word, a run that leaves the registers, a misaligned address. -/
theorem test_register_messages : Ready up { hd 4 with addr := 0x100004 } 0 1 ∧ Ready up { hd 4 with addr := 0xFFFFFFFC } 0 1 ∧
    0x100000000 < 0xFFFFFFFC + 4 * 2 ∧ Ready up { hd 4 with addr := 1 } 0 1 ∧ (readRegs NonVol.reset 0x100004 1 up).1 ≠ none ∧
    Ready up { hd 4 with addr := 0x100004 } 0 2 ∧ regAddrOk 0x100004 = true ∧ storeMask NonVol.reset 0x100004 ≠ 0 ∧
    Ready up { hd 4 with addr := 1 } 0 2 := by
  unfold Ready; decide +kernel

/-! ## Reset, clocks and start-up -/

theorem test_pin_states : ({ up with held := 1 } : Dev).held.testBit 0 = true ∧ ({ up with held := 2 } : Dev).held.testBit 1 = true ∧
    State.reset.dev.held = 0 ∧ State.reset.dev.boot = 0 ∧ State.reset.dev.clk.trip = false := by decide +kernel

/-- Flash whose two firmware slots hold no image. -/
def blank : NonVol := spiWrite (spiWrite NonVol.reset 0x100000 (zeros 16)) 0x600000 (zeros 16)

/-- Both slots fail at the header (Table Security-3). A slot that passes needs a signature, which no test computes. -/
theorem test_recovery_state : alive { up with boot := 1 } = true ∧ preferredSlot blank = 0 ∧ fwCheck blank (fwImage blank 0) = 1 ∧
    fwCheck blank (fwImage blank 1) = 1 := by decide +kernel

theorem test_self_test_states : alive { up with boot := 2 } = true ∧ (63 : Fin 68).val < 64 ∧
    flag { up with boot := 2 } (spareInUse 0) = false ∧ (bucket up 160).state = 0 ∧ flag up copyActive = false ∧
    (∀ q : Fin 68, 64 ≤ q.val → q ∈ ([63, 64, 65, 66, 67] : List (Fin 68))) := by decide +kernel

theorem test_training_states : alive { up with boot := 3 } = true ∧ ([7] : List (Fin 8)).eraseDups.length ≤ 1 ∧
    2 ≤ ([0, 7] : List (Fin 8)).eraseDups.length := by decide +kernel

/-! ## The governor -/

/-- An Elastic pipeline that is not shed. -/
def elastic : Dev := setFld up (admitState 2) 2

/-- Each range of Tj and of power at its ends; 40 W is the cap after reset. -/
theorem test_governor_states : alive elastic = true ∧ fld (setFlds up [(polThresh 4, 0), (polRepeat 4, 0)]) (polThresh 4) = 0 ∧
    fld (setFlds up [(polThresh 4, 0), (polRepeat 4, 0)]) (polRepeat 4) = 0 ∧ elastic.clk.lastAct = 0 ∧ nextShed elastic = some 2 ∧
    nextShed up = none ∧ fld up clkAclk < 3 ∧ 100 * capWatts (fld up clkCap) = 4000 ∧
    1 ≤ ({ elastic with clk := { elastic.clk with overs := 1 } } : Dev).clk.overs ∧ strictAdmitted up = false := by decide +kernel

/-! ## The host link -/

def comp : Completion := { tag := 1, addr := 0, status := 0, payload := [] }
def tagOf (n kind : Nat) : TagRec := { tag := n, kind, addr := 0, done := false, waiting := false }
def xfer (kind : XferKind) (len got : Nat) : Xfer := { tag := 0, kind, len, got, buf := zeros got, t0 := 0, lost := false }
def usbOf (f : Usb → Usb) (d : Dev) : Dev := { d with usb := f d.usb }
/-- Tag 0 in flight for a transfer. -/
def xfering (k : XferKind) (len got : Nat) : Dev := usbOf (fun u => { u with tags := [tagOf 0 1], xfers := [xfer k len got] }) up

theorem test_link_states : alive up = true ∧ usbPresent up = true ∧ (2 : Fin 4) ≠ 0 ∧ (1 : Fin 4) ≠ 0 ∧
    (xfering .bark 160 160).usb.xfers.all (fun x => decide (x.len ≤ x.got)) = true ∧
    ({ up with ring := { up.ring with held := [0x400] } } : Dev).usb.xfers.all (fun x => decide (x.len ≤ x.got)) = true := by decide +kernel

/-- A completion waits; that of the update in recovery; a full event queue; one with a dropped record. -/
theorem test_messages_wait : linkUpHost up = true ∧ flag up wndEn = false ∧
    (usbOf (fun u => { u with ep1in := [comp] }) up).usb.ep1in = [comp] ∧ up.root.fwTag ≠ some (up.usb.gen * 65536 + comp.tag) ∧
    ({ up with root := { up.root with fwTag := some 1 } } : Dev).root.fwTag = some (up.usb.gen * 65536 + comp.tag) ∧
    (usbOf (fun u => { u with evq := [⟨1, 0, 0, 0, 0⟩] }) up).usb.evq ≠ [] ∧
    (usbOf (fun u => { u with evq := List.replicate 256 ⟨1, 0, 0, 0, 0⟩, evDrop := true }) up).usb.evq.length ≤ 256 := by decide +kernel

/-- A transfer that is 10 s old with no byte, at the end of its time. -/
theorem test_timed_out_transfer : let d := { xfering .firmware 352 351 with devTime := 10000000000 }
    alive d = true ∧ d.usb.xfers.find? (fun x => x.tag == tagKey d 0) = some (xfer .firmware 352 351) ∧
    (xfer .firmware 352 351).t0 + 10000000000 ≤ d.devTime.toNat ∧
    d.usb.tags.find? (fun t => t.tag == 0 && !t.done) = some (tagOf 0 1) := by decide +kernel

/-- The next bytes of an image, of another transfer, and the last of a write to LPDDR6. -/
theorem test_data_states : (let d := xfering .graft 16 8
    linkUpHost d = true ∧ d.usb.tags.any (fun t => t.tag == tagKey d 0 && t.waiting) = false ∧
    d.usb.xfers.find? (fun x => x.tag == tagKey d 0) = some (xfer .graft 16 8) ∧ (xfer .graft 16 8).got = (8 : BitVec 40).toNat ∧
    8 + 7 < 16 ∧ ¬ ((8 : Nat) = 0 ∧ 4 ≤ (openXfers d).length)) ∧
    (let d := setFld (xfering (.memWrite (lp6Base + 0x4000000) false) 8 4) lp6Avail 1
    d.usb.xfers.find? (fun x => x.tag == tagKey d 0) = some (xfer (.memWrite (lp6Base + 0x4000000) false) 8 4) ∧ 4 + 4 = 8 ∧
    inLp6 d (lp6Base + 0x4000000) 8 = true ∧ (zeros 4 ++ [1, 2, 3, 4] : Bytes).length = 8 ∧
    d.usb.tags.find? (fun t => t.tag == 0 && !t.done) = some (tagOf 0 1)) := by decide +kernel

/-- One tensor of four pages and a host Ring; a history tensor of pipeline 0 with valid-Ring 0x401. -/
def plain : Bytes :=
  graftOf [(1, structSec 0 0xFFFF 64 8 [[1, 0, 2, 0]] [0x10] [] [] [[0]]), (2, tensorRec 256 256 1 8 0 1 0 ++
    padTo 14 (fields 2 [64, 8, 1] ++ fields 1 [2, 4, 2]) ++ le 2 0x401 ++ zeros 16), (3, taskRec 0 [] [] 0 [] [1]), (5, ringRec 0x400 2 1 8 ++ ringRec 0x401 3 0 0)]
def served : Dev := setFld (grafted plain up) lp6Avail 1

/-- The least and the last word of each window; virtual addresses up to 2^34; protected content on show. -/
theorem test_memory_requests : Ready served { hd 4 with addr := 0x100000000 } 0 3 ∧ Ready served { hd 4 with addr := 0x11FFFFFFC } 0 4 ∧
    Ready (setFld served (hdcpProt 0) 1) (hd 4) 0 3 ∧ hasGraft served = true ∧ trunkBase + 0x20000000 = 0x11FFFFFFC + 4 ∧
    lp6Base + lp6Capacity served / 8 * 7 = 0x1000000000 + 0x1C0000000 ∧ lp6Base + 0x2000000 + fld served lp6Seed * 0x4000000 = 0x1042000000 ∧
    memCheck served false false 0x11FFFFFFC 4 = stOk ∧ memCheck served true false 0x1042000000 4 = stOk ∧
    memCheck served false true 0x3FFFFFFFC 4 = stOk ∧ memCheck served true true 0x3FFFC 4 = stOk ∧
    memCheck served true false 0x100300000 4 = stProtected ∧ memCheck (setFld served (hdcpProt 0) 1) false false 0x100400000 4 = stProtected ∧
    memCheck served false false 0x100000001 4 = stBadArg ∧ memCheck served true false 0x100000000 0 = stBadArg := by
  unfold Ready; decide +kernel

theorem test_virtual_write_lies_in_a_tensor : ∀ v, 0x3FFFC / 0x10000 ≤ v → v ≤ (0x3FFFC + 4 - 1) / 0x10000 → tensorOf (img0 served) v ≠ none := by
  intro v h1 h2
  obtain rfl : v = 3 := by omega
  decide +kernel

/-- Reads with more than one message, and their last message, physical and virtual. -/
def reading (virt : Bool) (len : Nat) : Dev :=
  usbOf (fun u => { u with reads := [{ tag := 0, addr := if virt then 0 else 0x100000000, virt, len, pos := 0 }], tags := [tagOf 0 0] }) served

theorem test_reads_wait : readHeld (reading false 65540) false 0x100000000 65540 = false ∧ 0 + 65536 < 65540 ∧ 65536 ≤ 0 + 65536 ∧
    hasGraft (reading true 65536) = true ∧ linkUpHost (reading true 65536) = true ∧ flag (reading true 65536) wndEn = false := by decide +kernel

theorem test_virtual_read_meets_no_page_in_transit : ∀ v, (0 + 0) / 0x10000 ≤ v → v ≤ (0 + 0 + 65536 - 1) / 0x10000 →
    (pageAt (reading true 65536) 0 v).loc ≠ 3 ∨ (pageAt (reading true 65536) 0 v).move = 1 := by
  intro v _ h2
  obtain rfl : v = 0 := by omega
  decide +kernel

/-! ## Rings -/

/-- The host's Ring 0x402, and a wait on it. -/
def holds (l : List Nat) (d : Dev) : Dev := { d with ring := { d.ring with held := l } }
def waitFor (ring target : Nat) (dl : Option Nat) : HostWait := { tag := 0, ring, target, deadline := dl }
def waitsOn (w : HostWait) (d : Dev) : Dev := usbOf (fun u => { u with waits := [w], tags := [tagOf 0 2] }) d

/-- Amounts at the ends of their range, declared and held Rings, the valid-Ring, a waiter. -/
theorem test_ring_commands : Ready (holds [0x402] served) (hd 8) 0 0x11 ∧ hostMayWrite (holds [0x402] served) 0x402 = true ∧
    hostMayWrite served 0x400 = true ∧ hostMayWrite served 0x401 = false ∧ hostMayWrite served 0x10 = false ∧
    amountOk 1 = true ∧ amountOk 0x7FFFFFFF = true ∧ amountOk 0 = false ∧ amountOk 0x80000000 = false ∧
    ringWaiters (holds [0x402] served) 0x402 = 0 ∧ ringWaiters (waitsOn (waitFor 0x402 1 none) (holds [0x402] served)) 0x402 ≠ 0 ∧
    Ready { waitsOn (waitFor 0x402 1 none) (holds [0x402] served) with usb := { up.usb with waits := [{ waitFor 0x402 1 none with tag := 9 }] } } (hd 8) 0 0x12 ∧
    fld (setFld (holds [0x402] served) ringSel 0x402) ringSel = 0x402 ∧ hostMayWrite served (fld served ringSel) = false := by
  unfold Ready; decide +kernel

theorem test_ring_waits : Ready (holds [0x402] served) (hd 12) 2 0x13 ∧ ringKind served 0x403 = 0 ∧ isValidRing served 0x401 = true ∧
    ringKind (holds [0x402] served) 0x402 ≠ 0 ∧ isValidRing served 0x402 = false ∧ waitGe 0 0 = true ∧ waitGe 0 0x80000001 = true ∧
    waitGe 0 1 = false ∧ waitGe 0 0x80000000 = false := by unfold Ready; decide +kernel

/-- A wait that is met, one whose time is up, one whose Ring is gone. -/
theorem test_waits_end : (let w := waitFor 0x402 0 (some 0)
    let d := waitsOn w (holds [0x402] up)
    d.usb.waits.find? (fun w => w.tag == tagKey d 0) = some w ∧ d.usb.tags.find? (fun t => t.tag == w.tag && !t.done) = some (tagOf 0 2) ∧
    waitGe (ringVal d w.ring) w.target = true) ∧ (0 : Nat) ≤ up.devTime.toNat ∧ ringKind (waitsOn (waitFor 0x402 1 none) up) 0x402 = 0 := by
  decide +kernel

theorem test_wait_has_a_deadline : ∃ u, (waitFor 0x402 0 (some 0)).deadline = some u ∧ u ≤ up.devTime.toNat := ⟨0, rfl, by decide⟩

theorem test_ring_numbers : Ready (holds [0x400] up) (hd 0) 0 0x14 ∧ ringFreeNumber (holds [0x400] up) (0x400 + 1) = true ∧
    (∀ j, j < 1 → ringFreeNumber (holds [0x400] up) (0x400 + j) = false) ∧ Ready (holds (List.replicate 256 0x400) up) (hd 0) 0 0x14 ∧
    256 ≤ (holds (List.replicate 256 0x400) up).ring.held.length ∧ Ready (holds [0x400] up) (hd 2) 0 0x15 ∧
    (holds [0x400] up).ring.held.contains 0x400 = true ∧ ringWaiters (holds [0x400] up) 0x400 = 0 ∧ up.ring.held.contains 0x400 = false := by
  unfold Ready; decide +kernel

/-! ## The Grove -/

def role (r : Nat) : Dev := { setFld up grvLocked 1 with live := up.live.put 0 grvRole.addr (BitVec.ofNat 32 r) }

theorem test_grove_states : isMaster (role 1) = true ∧ (role 1).ras.running = true ∧ fenced (role 1) 0x41 = false ∧ isFollower (role 2) = true ∧
    flag (role 2) grvLocked = true ∧ (let d := { role 2 with devTime := 100000000, live := (role 2).live.put 0 dsoFrate.addr 60000, grv := { up.grv with edge := some 0 } }
    isFollower d = true ∧ d.grv.edge = some 0 ∧ 2000000000000 ≤ (d.devTime.toNat - 0) * inForce d dsoFrate) := by decide +kernel

/-- A time code frame of output frame 7, TAG 0x123, whose CRC-16 R368 gives. -/
def code7 : Bytes := let b := le 4 7 ++ zeros 8 ++ le 2 0x123; b ++ le 2 (crc16 b)

theorem test_time_codes : code7.length = 16 ∧ crc16 (code7.take 14) = u16 code7 14 ∧ flag (setFld (role 2) grvLocked 0) grvLocked = false ∧
    isFollower (setFld (role 2) grvLocked 0) = true ∧ crc16 ((zeros 16).take 14) ≠ u16 (zeros 16) 14 ∧
    3 ≤ ({ (role 2).grv with bad := 3 } : Grv).bad ∧ ({ (role 2).grv with bad := 2 } : Grv).bad < 3 ∧
    fld up grvTag ≠ tupleTag NonVol.reset up ∧ up.grv.mtag = none := by decide +kernel


end Sys2Proof.Tests
end

section
/-! PROOF. What a host read of a register returns, latches and clears (R10, R12, R13): the rows that read a register are one operation,
whose result is given in closed form. -/

namespace Sys2Proof

variable {α : Type}

theorem Map.erase_insert_same (m : Map α) (k : Nat) (v : α) : (m.insert k v).erase k = m.erase k := by
  induction m with
  | nil => simp [Map.insert, Map.erase]
  | cons e m ih =>
    simp only [Map.erase, ne_eq, decide_not] at ih
    by_cases hk : k < e.1
    · simp [Map.insert, Map.erase, hk]
    · simp [Map.insert, Map.erase, hk, List.filter_cons, ih]

/-- Of two writes to one key the second alone shows. -/
theorem Map.put_put_same [DecidableEq α] (dflt : α) (m : Map α) (k : Nat) (v w : α) : (m.put dflt k v).put dflt k w = m.put dflt k w := by
  have herase : (m.put dflt k v).erase k = m.erase k := by
    have hidem : (m.erase k).erase k = m.erase k := by simp [Map.erase, List.filter_filter]
    by_cases hv : v = dflt <;> simp [Map.put, hv, Map.erase_insert_same, hidem]
  simp only [Map.put] at herase ⊢
  rw [herase]

end Sys2Proof

namespace Sys2Proof.Machine

/-! ## The holding copies that a read takes (R13) -/

/-- The holding copies play no part in the word that a register reads as. -/
@[simp] theorem viewWord_hold (nv : NonVol) (d : Dev) (m : Map (Option Word)) (a : Nat) :
    viewWord nv { d with hold := m } a = viewWord nv d a := rfl

/-- The holding copies `m` after the words at `xs` are latched, each as device `d` shows it. -/
def latchInto (nv : NonVol) (d : Dev) (m : Map (Option Word)) (xs : List Nat) : Map (Option Word) :=
  xs.foldl (fun m x => m.put none x (some (viewWord nv d x))) m

/-- Latching one word after another is latching them all from the device before the first. -/
theorem foldl_latch_eq (nv : NonVol) (d : Dev) (m : Map (Option Word)) (xs : List Nat) :
    xs.foldl (fun d x => { d with hold := d.hold.put none x (some (viewWord nv d x)) }) { d with hold := m } =
      { d with hold := latchInto nv d m xs } := by
  induction xs generalizing m with
  | nil => rfl
  | cons x xs ih =>
    simp only [latchInto, List.foldl_cons, viewWord_hold]
    exact ih _

theorem get_latchInto (nv : NonVol) (d : Dev) (m : Map (Option Word)) (xs : List Nat) (x : Nat) :
    (latchInto nv d m xs).get none x = if x ∈ xs then some (viewWord nv d x) else m.get none x := by
  induction xs generalizing m with
  | nil => simp [latchInto]
  | cons y ys ih =>
    have hstep : latchInto nv d m (y :: ys) = latchInto nv d (m.put none y (some (viewWord nv d y))) ys := rfl
    rw [hstep, ih, Map.get_put]
    by_cases hys : x ∈ ys
    · simp [hys]
    · by_cases hy : x = y <;> simp [hys, hy]

/-! ## One host read (R10, R12) -/

/-- The device after a host read of the register at `a`, whose RC fields end holding `w`. -/
def afterRead (nv : NonVol) (a : Nat) (w : Word) (d : Dev) : Dev :=
  { d with
    regs := if (rcRegs nv).contains a then d.regs.put 0 a w else d.regs
    hold := latchInto nv d d.hold (latched a)
    usb := { d.usb with lastRead := readWord nv d a } }

/-- A plain host read clears the RC fields. -/
theorem readRowOp_eq {nv : NonVol} {a : Nat} (d : Dev) (hok : regAddrOk a = true) : readRowOp nv a d = afterRead nv a 0 d := by
  have hlatch := foldl_latch_eq nv d d.hold (latched a)
  simp only [readRowOp, regRead, afterRead, hok, if_true, hlatch]
  split <;> rfl

/-- RC_REGISTER_READ leaves in them what the hardware adds in the same cycle. -/
theorem rcReadOp_eq {nv : NonVol} {a : Nat} (hw : Nat) (d : Dev) (hok : regAddrOk a = true) :
    rcReadOp nv a hw d = afterRead nv a (BitVec.ofNat 32 (min hw 0xFFFFFFFF)) d := by
  simp only [rcReadOp, readRowOp_eq d hok, afterRead]
  split
  · simp only [setReg, Map.put_put_same]
  · rfl

theorem reg_afterRead_same (nv : NonVol) (a : Nat) (w : Word) (d : Dev) :
    reg (afterRead nv a w d) a = if (rcRegs nv).contains a then w else reg d a := by
  simp only [reg, afterRead]
  split
  · exact Map.get_put_same ..
  · rfl

theorem afterRead_regsBut (nv : NonVol) (a : Nat) (w : Word) (d : Dev) : RegsBut [a] d (afterRead nv a w d) := by
  intro b hb
  simp only [reg, afterRead]
  split
  · exact Map.get_put_other _ _ _ (by simpa using hb)
  · rfl

/-! ## The rows that read a register -/

/-- A row that is a plain host read is RC_REGISTER_READ with nothing added. -/
theorem readRowOp_eq_rcReadOp {nv : NonVol} {a : Nat} (hok : regAddrOk a = true) : readRowOp nv a = rcReadOp nv a 0 :=
  funext fun d => (readRowOp_eq d hok).trans (rcReadOp_eq 0 d hok).symm

/-- Every row that is a host read of a register runs the same operation. -/
theorem exec_read_eq {c : Instr} {a hw : Nat} (s : State) (hok : regAddrOk a = true) (hc : readOf c = some (a, hw)) :
    exec c s = onDev s (rcReadOp s.nv a hw) := by
  cases c <;> simp only [readOf, reduceCtorEq, Option.some.injEq, Prod.mk.injEq, Option.ite_none_right_eq_some] at hc
  case rcRegisterRead =>
    obtain ⟨rfl, rfl⟩ := hc
    rfl
  case genProgressARead k =>
    obtain ⟨hk, rfl, rfl⟩ := hc
    have hprog : progReadOp s.nv k = readRowOp s.nv (progA k) := funext fun d => if_pos hk
    rw [← readRowOp_eq_rcReadOp hok, ← hprog]
    rfl
  -- LOW_WORD_READ, INT_HDR_IFN_READ, CAM_CX_LAST_CFN_READ
  all_goals
    obtain ⟨rfl, rfl⟩ := hc
    rw [← readRowOp_eq_rcReadOp hok]
    rfl

/-- Settles O10: such a row leaves the device of `afterRead`, whose parts are as stated. -/
theorem registerReadReturnsAndLatches : Obligations.RegisterReadReturnsAndLatches := by
  unfold Obligations.RegisterReadReturnsAndLatches
  intro c a hw s halive hok hc
  refine does_onDev _ (exec_read_eq s hok hc) halive (rcReadOp_within ..).only ?_
  rw [rcReadOp_eq hw s.dev hok]
  exact ⟨rfl, fun x => get_latchInto .., afterRead_regsBut _ _ _ _, reg_afterRead_same ..⟩

end Sys2Proof.Machine
end

section
/-! PROOF. When LINE_MATCH is raised and to whom (R353, R361): its row is one test of the raster and the registers, and an event for the
Root controller and the output Stem. -/

namespace Sys2Proof.Machine

/-! ## An event for the Root controller and the output Stem (R361) -/

/-- The Root controller keeps the record, its ARG cut to the 32 bits of the field. -/
theorem raiseStem_lastEv (d : Dev) (stem : Option Nat) (code unit sev arg : Nat) :
    (raiseStem d stem code unit sev arg).root.lastEv = some { code, unit, sev, arg := arg % 2 ^ 32, time := d.devTime.toNat } := by
  simp only [raiseStem, tellStem_root]

theorem raiseStem_raised (d : Dev) (stem : Option Nat) (code unit sev : Nat) {arg : Nat} (harg : arg < 2 ^ 32) :
    Raised code unit sev arg d (raiseStem d stem code unit sev arg) := by
  rw [Raised, raiseStem_lastEv, Nat.mod_eq_of_lt harg]

/-- The Stem holds the record that the Root controller got. -/
theorem raiseStem_stem_ev (d : Dev) (x code unit sev arg : Nat) :
    (raiseStem d (some x) code unit sev arg).stem.ev.get none x = (raiseStem d (some x) code unit sev arg).root.lastEv := by
  simp only [raiseStem, tellStem, Map.get_put_same]

/-! ## The row LINE_MATCH (R353) -/

/-- The line period at DSO_LMATCH.POS has begun, EN is 1, and this position has raised nothing yet. -/
def LineMatches (d : Dev) : Prop := d.ras.running = true ∧ flag d lmEn = true ∧ fld d lmPos = pos d ∧ d.ras.lmDone = false

/-- Of ARG the position takes the low half and OFN the high, so neither is cut. -/
theorem lineMatchArg_lt (d : Dev) : pos d + ofn d % 65536 * 65536 < 2 ^ 32 := by
  have hpos : pos d < 2 ^ 13 := fget_lt dsoPos _
  omega

theorem lineMatchOp_of_matches {d : Dev} (h : LineMatches d) :
    lineMatchOp d = raiseStem { d with ras := { d.ras with lmDone := true } } (outputStem d (ofn d)) 0x0102 0x3B 0
      (pos d + ofn d % 65536 * 65536) := by
  obtain ⟨hrun, hen, hpos, hdone⟩ := h
  simp [lineMatchOp, hrun, hen, hpos, hdone]

theorem lineMatchOp_of_not_matches {d : Dev} (h : ¬ LineMatches d) : lineMatchOp d = d :=
  if_neg (by simpa [LineMatches, and_assoc] using h)

/-- The first start of the line period at POS marks the match and tells the Root controller and the output Stem. -/
theorem does_lineMatch_of_matches {s : State} (halive : alive s.dev = true) (h : LineMatches s.dev) :
    Does .lineMatch s [.root, .stem, .ras] (fun e => e.ras = { s.dev.ras with lmDone := true } ∧
      Raised 0x0102 0x3B 0 (pos s.dev + ofn s.dev % 65536 * 65536) s.dev e ∧
      ∀ x, outputStem s.dev (ofn s.dev) = some x → e.stem.ev.get none x = e.root.lastEv) := by
  refine does_onDev lineMatchOp rfl halive (lineMatchOp_within _).only ?_
  rw [lineMatchOp_of_matches h]
  refine ⟨raiseStem_ras .., raiseStem_raised _ _ _ _ _ (lineMatchArg_lt _), fun x hx => ?_⟩
  rw [hx]
  exact raiseStem_stem_ev ..

/-- At any other time the row changes nothing. -/
theorem does_lineMatch_of_not_matches {s : State} (halive : alive s.dev = true) (h : ¬ LineMatches s.dev) :
    Does .lineMatch s [] (fun _ => True) := by
  refine does_onDev lineMatchOp rfl halive ?_ trivial
  rw [lineMatchOp_of_not_matches h]
  exact Only.refl _ _

/-- A raster at position 5 of a frame of 1,125 lines, output frame 7, EN at 1 and POS at `p`. The image of the Graft in force reads as zeros:
pipeline 0, bound to Stem 0, writes every frame. -/
def rasterAtLine5 (p : Nat) : Dev :=
  let space : Graft := { img := [], meas := [], k := 0, idx := 0, area := 0 }
  setFlds { Dev.reset with boot := 4, ras := { Dev.reset.ras with running := true, vtotal := 1125 },
                           root := { Dev.reset.root with space0 := some space } }
    [(clkPllLock, 1), (dsoPos, 5), (dsoOfn, 7), (lmEn, 1), (lmPos, p)]

/-- States that meet the premises of O43: a POS that the raster stands at, and one at VTOTAL. -/
theorem rasterAtLine5_meets_premises :
    (alive (rasterAtLine5 5) = true ∧ LineMatches (rasterAtLine5 5) ∧ outputStem (rasterAtLine5 5) (ofn (rasterAtLine5 5)) = some 0) ∧
    (alive (rasterAtLine5 1125) = true ∧ pos (rasterAtLine5 1125) < (rasterAtLine5 1125).ras.vtotal ∧
      (rasterAtLine5 1125).ras.vtotal ≤ fld (rasterAtLine5 1125) lmPos) := by
  unfold LineMatches
  decide +kernel

/-- Settles O43: the row acts exactly when `LineMatches` holds, and a position below VTOTAL is never at a POS from VTOTAL on. -/
theorem lineMatchIsRaisedAtItsPosition : Obligations.LineMatchIsRaisedAtItsPosition := by
  unfold Obligations.LineMatchIsRaisedAtItsPosition
  intro s halive
  refine ⟨fun hrun hen hpos hdone => does_lineMatch_of_matches halive ⟨hrun, hen, hpos, hdone⟩, fun hoff => ?_, fun hlt hle => ?_⟩
  · refine does_lineMatch_of_not_matches halive fun ⟨hrun, hen, hpos, hdone⟩ => ?_
    simp [hrun, hen, hpos, hdone] at hoff
  · refine does_lineMatch_of_not_matches halive fun ⟨_, _, hpos, _⟩ => ?_
    omega

end Sys2Proof.Machine
end

section
/-! PROOF. The whole block: what any command changes. One statement says it for every command (`exec_runs`): the queue stands, the parts that
its row does not name stand, memory and page books keep their form, fuses only rise. The statements about all commands and all steps follow. -/

namespace Sys2Proof.Machine

/-! ## Fuses only rise (R456, R457) -/

theorem Grows.refl (a : NonVol) : Grows a a :=
  ⟨rfl, rfl, rfl, rfl, le_rfl, le_rfl, le_rfl, fun _ _ => le_rfl, fun _ _ _ => rfl, fun _ h => h⟩

theorem Grows.trans {a b c : NonVol} (h : Grows a b) (g : Grows b c) : Grows a c where
  gradeS := g.gradeS.trans h.gradeS
  serial := g.serial.trans h.serial
  identKey := g.identKey.trans h.identKey
  fwKeyHash := g.fwKeyHash.trans h.fwKeyHash
  lifecycle := h.lifecycle.trans g.lifecycle
  fwCtr := h.fwCtr.trans g.fwCtr
  intCtr := h.intCtr.trans g.intCtr
  slots s hs := (h.slots s hs).trans (g.slots s hs)
  keys s hs h0 := (g.keys s hs (by have := h.slots s hs; omega)).trans (h.keys s hs h0)
  usbWord w hw := g.usbWord w (h.usbWord w hw)

/-- The flash holds no fuse. -/
theorem spiWrite_grows (nv : NonVol) (a : Nat) (bs : Bytes) : Grows nv (spiWrite nv a bs) :=
  ⟨rfl, rfl, rfl, rfl, le_rfl, le_rfl, le_rfl, fun _ _ => le_rfl, fun _ _ _ => rfl, fun _ h => h⟩

theorem slotState_eq (nv : NonVol) (s : Nat) : slotState nv s = nv.keyState / 4 ^ s % 4 := by
  simp only [slotState, bits, Nat.pow_mul, Nat.reducePow]

/-- A key slot given a state has it, and every other slot stands. -/
theorem slotState_setSlotState (nv : NonVol) {s st r : Nat} (hs : s < 4) (hr : r < 4) (hst : st < 4) :
    slotState (setSlotState nv s st) r = if r = s then st else slotState nv r := by
  simp only [slotState_eq, setSlotState]
  interval_cases s <;> interval_cases r <;> simp <;> omega

/-- A key slot moves on to a later state; the hash of its key may change while it is blank. -/
theorem setSlotState_grows {a b : NonVol} (hg : Grows a b) {s st : Nat} (hs : s < 4) (hst : st < 4)
    (hup : slotState a s ≤ st) : Grows a (setSlotState b s st) where
  gradeS := hg.gradeS
  serial := hg.serial
  identKey := hg.identKey
  fwKeyHash := hg.fwKeyHash
  lifecycle := hg.lifecycle
  fwCtr := hg.fwCtr
  intCtr := hg.intCtr
  slots r hr := by
    rw [slotState_setSlotState b hs hr hst]
    split
    · next h => rwa [h]
    · exact hg.slots r hr
  keys := hg.keys
  usbWord := hg.usbWord

/-- The key of a blank slot is written. -/
theorem keyHash_put_grows {a : NonVol} {s : Nat} (v : Nat) (h0 : slotState a s = 0) :
    Grows a { a with keyHash := a.keyHash.put 0 s v } :=
  { Grows.refl a with
    slots := fun _ _ => le_rfl
    keys := fun _ _ hr => Map.get_put_other _ _ _ (fun h => hr (h ▸ h0)) }

theorem fwCtr_grows {a : NonVol} {n : Nat} (h : a.fwCtr ≤ n) : Grows a { a with fwCtr := n } :=
  { Grows.refl a with fwCtr := h, slots := fun _ _ => le_rfl }

theorem intCtr_grows {a : NonVol} {n : Nat} (h : a.intCtr ≤ n) : Grows a { a with intCtr := n } :=
  { Grows.refl a with intCtr := h, slots := fun _ _ => le_rfl }

theorem lifecycle_grows {a : NonVol} {n : Nat} (h : a.lifecycle ≤ n) : Grows a { a with lifecycle := n } :=
  { Grows.refl a with lifecycle := h, slots := fun _ _ => le_rfl }

theorem usbWord_grows {a : NonVol} {w : Option Nat} (h : a.usbWord = none) : Grows a { a with usbWord := w } :=
  { Grows.refl a with slots := fun _ _ => le_rfl, usbWord := fun v hv => by simp [h] at hv }

/-- PROVISION, where its checks pass (R457). -/
theorem provisionFuse_grows {nv : NonVol} {op slot : Nat} {bytes : Bytes} (h : provisionOk nv op slot bytes = true) :
    Grows nv (provisionFuse op slot bytes nv) := by
  unfold provisionOk at h
  unfold provisionFuse
  split at h
  · -- a key slot
    simp only [Bool.and_eq_true, beq_iff_eq, decide_eq_true_eq] at h
    obtain ⟨-, ⟨hs, h0⟩, -⟩ := h
    exact setSlotState_grows ((keyHash_put_grows _ h0).trans (spiWrite_grows _ (keyBlock slot) bytes)) hs (st := 1) (by decide) (by omega)
  · -- the USB word
    simp only [Bool.and_eq_true, beq_iff_eq, Option.isNone_iff_eq_none] at h
    obtain ⟨-, ⟨⟨-, hnone⟩, -⟩, -⟩ := h
    exact usbWord_grows hnone
  · -- the life cycle
    simp only [Bool.and_eq_true, beq_iff_eq] at h
    obtain ⟨h1, -⟩ := h
    exact lifecycle_grows (by omega)
  · simp at h

/-! ## What a command may change -/

theorem partsIn_refl (l : List Part) : partsIn l l = true := List.all_eq_true.mpr fun p hp => by simpa using hp

/-- From `s` to `t`: the queue stands, of the device only the parts listed change, and fuses only rise. -/
structure Runs (l : List Part) (s t : State) : Prop where
  pending : t.pending = s.pending
  within : Within l s.dev t.dev
  grows : Grows s.nv t.nv

theorem Runs.refl (l : List Part) (s : State) : Runs l s s := ⟨rfl, .refl .., .refl _⟩

theorem Runs.trans {l : List Part} {s t u : State} (h : Runs l s t) (g : Runs l t u) : Runs l s u :=
  ⟨g.pending.trans h.pending, h.within.trans g.within, h.grows.trans g.grows⟩

theorem Runs.mono {l m : List Part} {s t : State} (h : Runs m s t) (hs : partsIn m l = true) : Runs l s t :=
  ⟨h.pending, h.within.mono hs, h.grows⟩

theorem Runs.ite {l : List Part} {s t u : State} {c : Prop} [Decidable c] (ht : Runs l s t) (hu : Runs l s u) :
    Runs l s (if c then t else u) := by
  split
  · exact ht
  · exact hu

/-- A change of the device alone. -/
theorem Within.runs {l : List Part} {s : State} {e : Dev} (h : Within l s.dev e) : Runs l s { s with dev := e } := ⟨rfl, h, .refl _⟩

theorem runs_reset {s : State} (n : Nat) : Runs Part.all s { s with dev := { Dev.reset with held := n } } :=
  (((reset_within s.dev).via (within_held n) rfl).runs)

variable {s : State} {l m : List Part}

/-- An operation of the running engine. -/
theorem runs_onDev {f : Dev → Dev} (h : Within m s.dev (f s.dev)) (hs : partsIn m l = true) :
    ∃ t, onDev s f = .next t ∧ Runs l s t :=
  ⟨_, rfl, .ite (h.mono hs).runs (.refl ..)⟩

/-- A request. -/
theorem runs_request {i : Instr} {h : Hdr} {kind type : Nat} {ok : Bool} {body : Nat → Dev → Dev} (hb : ∀ k x, Within m x (body k x))
    (hs : partsIn m l = true) (hr : partsIn [.regs, .usb, .root, .stem] l = true) :
    ∃ t, onDev s (request i h kind type ok body) = .next t ∧ Runs l s t :=
  runs_onDev (m := l) (.request (.refl ..) (fun k x => (hb k x).mono hs) hr) (partsIn_refl l)

/-- A request to a unit that may be fenced. -/
theorem runs_unlessFenced {i : Instr} {h : Hdr} {kind type u : Nat} {ok : Bool} {body : Nat → Dev → Dev}
    (hb : ∀ k x, Within m x (body k x)) (hs : partsIn m l = true) (hr : partsIn [.regs, .usb, .root, .stem] l = true) :
    ∃ t, onDev s (request i h kind type ok (unlessFenced u body)) = .next t ∧ Runs l s t :=
  runs_request (fun _ _ => .unlessFenced (.refl l _) (fun k x => (hb k x).mono hs)
    (List.all_eq_true.mpr fun p hp => List.all_eq_true.mp hr p (by simp_all))) (partsIn_refl l) hr

/-! ## Operands that name errors: none leaves more parts alone -/

/-- An operation whose row names fewer parts when it meets no error. -/
theorem runs_errs {α : Type} {n : List Part} {xs : List α} {f : NonVol → List α → Dev → Dev} (h0 : ∀ nv d, Within m d (f nv [] d))
    (h : ∀ nv xs d, Within n d (f nv xs d)) (hs : partsIn m l = true) {l' : List Part} (hs' : partsIn n l' = true) :
    ∃ t, onDev s (f s.nv xs) = .next t ∧ Runs (if xs.isEmpty then l else l') s t := by
  cases xs with
  | nil => exact runs_onDev (h0 ..) hs
  | cons x xs => exact runs_onDev (h ..) hs'

/-- The bits of a FEC or of a link that fail. -/
theorem runs_laneFails {lane : Option (Fin 4)} {f : Dev → Dev} (h : ∀ x, Within m x (f x)) (hs : partsIn m l = true)
    (he : partsIn m Part.engine = true) {k : Nat} :
    ∃ t, onDev s (fun d => f (laneFails s.nv k lane d)) = .next t ∧ Runs (if lane.isNone then l else Part.engine) s t := by
  cases lane with
  | none => exact runs_onDev (h _) hs
  | some _ => exact runs_onDev ((laneFails_within ..).via (h _) he) (partsIn_refl _)

/-- Words of a buffer whose parity fails, once the operation that reads them has run. -/
theorem runs_parityErrs {ws : List Word} {n : Dev → Nat} {c : Dev → Bool} {f g : Dev → Dev} (h : ∀ x, Within m x (f x))
    (hg : ∀ x, Within m x (g x)) (hs : partsIn m l = true) (he : partsIn m Part.engine = true) :
    ∃ t, onDev s (fun d => if c d then parityErrs s.nv (n d) (ws.map (·.toNat)) (f d) else g d) = .next t ∧
      Runs (if ws.isEmpty then l else Part.engine) s t := by
  cases ws with
  | nil => exact runs_onDev (.ite (h _) (hg _)) hs
  | cons w ws => exact runs_onDev (.ite (((h _).mono he).via (parityErrs_within ..) rfl) ((hg _).mono he)) (partsIn_refl _)

theorem plantErrs_nil (n : Nat) (d : Dev) : plantErrs n [] d = d := rfl

theorem readErrs_nil (e : Env) (t : Nat) (d : Dev) : readErrs e t [] d = d := rfl

/-- A tile instruction that reads. -/
theorem runs_tileRead {op n : Nat} {run : Env → Dev → Dev × Bool} {errs : List MemErr} {l' : List Part} (h : ∀ e x, Within m x (run e x).1)
    (hs : partsIn m l = true) (ht : partsIn [.regs, .stem, .trk, .mem, .br, .cells] l = true) (hs' : partsIn m l' = true)
    (he : partsIn Part.engine l' = true) :
    ∃ t, onDev s (tileRead op run s.nv n errs) = .next t ∧ Runs (if errs.isEmpty then l else l') s t := by
  refine runs_errs (f := fun nv => tileRead op run nv n) (fun nv d => ?_) (fun nv errs d => ?_) (partsIn_refl l) (partsIn_refl l')
  · refine .tileOp (.refl ..) (fun e x => ?_) ht
    exact .ite_fst ((h ..).mono hs) ((h ..).mono hs)
  · exact .tileRead (.refl ..) (fun e x => (h e x).mono hs')
      (List.all_eq_true.mpr fun p hp => List.all_eq_true.mp he p (by revert hp; cases p <;> decide)) he

theorem composeRead_nil_within (nv : NonVol) (d : Dev) :
    Within [.regs, .usb, .ring, .root, .stem, .trk, .ras, .cnp] d (composeRead nv [] d) :=
  .ite (.refl ..) (composeOp_within d)

theorem multicastFetchOp_nil_within (tree : Nat) (nv : NonVol) (d : Dev) :
    Within [.regs, .usb, .root, .stem, .trk, .br] d (multicastFetchOp nv tree [] d) := by
  unfold multicastFetchOp
  dsimp only
  split
  · exact .refl ..
  split
  · exact (vread_within ..).mono (by decide)
  · next hread => exact .foldl ((vread_within' hread).mono (by decide)) (fun _ _ => (mcastLand_within ..).mono (by decide))

theorem dataTakenOp_nil_within (nv : NonVol) (d : Dev) : Within [.regs, .usb, .root, .stem, .trk, .flt] d (dataTakenOp nv [] d) := by
  unfold dataTakenOp
  split
  · exact .refl ..
  next x rest _ =>
    have hread : Within [.regs, .usb, .root, .stem, .trk, .flt] d
        (if x.virt then vread d (hostWho d ((x.addr + x.pos) / 0x10000)) (x.addr + x.pos) (min 65536 (x.len - x.pos))
          else (d, physRead d (x.addr + x.pos) (min 65536 (x.len - x.pos)), true)).1 :=
      .ite_fst ((vread_within ..).mono rfl) (.refl ..)
    have hend (e : Dev) (us : Usb) (k st : Nat) (p : Bytes) (he : Within [.regs, .usb, .root, .stem, .trk, .flt] d e) :
        Within [.regs, .usb, .root, .stem, .trk, .flt] d (complete { e with usb := us } k st p) :=
      (he.via (within_usb us) rfl).via (complete_within ..) rfl
    dsimp only
    refine .ite (.refl ..) (.ite (hend _ _ _ _ _ (.refl ..)) (.ite (hend _ _ _ _ _ (.refl ..)) (.ite (.refl ..) (.via ?_ (usbPacket_within ..) rfl))))
    exact .ite (hend _ _ _ _ _ hread) (hread.via (within_usb _) rfl)

/-! ## The rows that reach beyond the device -/

/-- The device of a boot image that starts. -/
theorem startImage_within (q : Nat) (s : State) : Within [.regs, .boot, .root] s.dev (startImage q s).dev := by
  unfold startImage
  dsimp only
  with_reducible
    refine .via (.via (.foldl ?_ (fun _ _ => ?_)) (within_boot _) (by decide)) (progStart_within ..) (by decide)
    · exact (setFlds_within ..).mono (by decide)
    · exact (setReg_within ..).mono (by decide)

/-- An image that starts raises FW_CTR to its own version, or leaves it (R462). -/
theorem startImage_grows (q : Nat) (s : State) : Grows s.nv (startImage q s).nv := by
  unfold startImage
  dsimp only
  split
  · next hup =>
    simp only [Bool.and_eq_true, decide_eq_true_eq] at hup
    exact fwCtr_grows hup.2.le
  · exact .refl _

theorem startImage_pending (q : Nat) (s : State) : (startImage q s).pending = s.pending := by
  unfold startImage
  rfl

theorem startImage_runs {q : Nat} {s : State} {d : Dev} (hd : Within [.regs, .boot, .usb, .root, .stem] s.dev d) :
    Runs [.regs, .boot, .usb, .root, .stem] s (startImage q { s with dev := d }) :=
  hd.runs.trans ⟨startImage_pending .., (startImage_within ..).mono (by decide), startImage_grows ..⟩

theorem firmwareStarted_runs (s : State) : Runs [.regs, .boot, .usb, .root, .stem] s (firmwareStarted s) := by
  have hkeys : Within [.regs, .boot, .usb, .root, .stem] s.dev (loadKeys s.nv s.dev) := (loadKeys_within ..).mono (by decide)
  unfold firmwareStarted
  dsimp only
  with_reducible
    refine .ite (.refl ..) (.ite (startImage_runs hkeys) (.ite (startImage_runs ?_) (Within.runs ?_)))
    · exact .via (hkeys.via (setFlds_within ..) (by decide)) (raise_within ..) (by decide)
    · refine .via (.via (.via ?_ (within_boot _) (by decide)) (setFlds_within ..) (by decide)) (setReg_within ..) (by decide)
      exact hkeys.via (setFlds_within ..) (by decide)

/-- The end of a FW_UPDATE. -/
theorem fwFinish_runs (x : Xfer) (s : State) : Runs [.regs, .usb, .root, .stem] s (fwFinish x s) := by
  have hfail (st v : Nat) (d : Dev) (hd : Within [.regs, .usb, .root, .stem] s.dev d) :
      Within [.regs, .usb, .root, .stem] s.dev (progFail (complete (setFld d ⟨progA 6, 10, 6⟩ v) x.tag st []) 6) :=
    ((hd.via (setFld_within ..) rfl).via (complete_within ..) rfl).via (progFail_within ..) rfl
  unfold fwFinish
  dsimp only
  refine .ite (hfail _ _ _ (.refl ..)).runs (.ite (hfail _ _ _ ((sigRejected_within ..).mono rfl)).runs ⟨rfl, ?_, spiWrite_grows ..⟩)
  refine .via (.ite (.via ?_ (within_root _) rfl) ?_) (complete_within ..) rfl <;>
    exact ((progDone_within ..).mono rfl |>.via (raise_within ..) rfl)

/-- The end of an INT_CONTROL: a key slot that is revoked or a counter that rises is a fuse. -/
theorem controlFinish_runs (x : Xfer) (s : State) : Runs [.regs, .usb, .root, .stem] s (controlFinish x s) := by
  have hdone (st : Nat) (nv : NonVol) (d : Dev) (hd : Within [.regs, .usb, .root, .stem] s.dev d) (hg : Grows s.nv nv) :
      Runs [.regs, .usb, .root, .stem] s { s with nv := nv, dev := complete d x.tag st [] } :=
    ⟨rfl, hd.via (complete_within ..) rfl, hg⟩
  have hsame (st : Nat) := hdone st s.nv s.dev (.refl ..) (.refl _)
  unfold controlFinish
  dsimp only
  refine .ite (hsame _) (.ite (hsame _) (.ite (hdone _ _ _ ((sigRejected_within ..).mono rfl) (.refl _)) (.ite (hsame _) (.ite ?_ (.ite ?_ (hsame _))))))
  · split
    · next hslot =>
      simp only [Bool.and_eq_true, decide_eq_true_eq] at hslot
      obtain ⟨⟨hlt, h1⟩, -⟩ := hslot
      exact hdone _ _ _ (((setFld_within ..).mono rfl |>.via (raise_within ..) rfl).via (agePacks_within ..) rfl)
        (setSlotState_grows (.refl _) hlt (by decide) (by omega))
    · exact hsame _
  · split
    · next hctr =>
      simp only [Bool.and_eq_true, decide_eq_true_eq] at hctr
      exact hdone _ _ _ ((raise_within ..).mono rfl |>.via (agePacks_within ..) rfl)
        (intCtr_grows hctr.1.le)
    · exact hsame _

/-- The end of a RESTORE. -/
theorem restoreFinish_runs (op slot : Nat) (x : Xfer) (s : State) : Runs [.regs, .usb] s (restoreFinish op slot x s) := by
  have hbad : Runs [.regs, .usb] s { s with dev := complete s.dev x.tag stBadArg [] } := ((complete_within ..).mono rfl).runs
  unfold restoreFinish
  exact .ite (.ite ⟨rfl, ((setFld_within ..).mono rfl).via (complete_within ..) rfl, spiWrite_grows ..⟩ hbad)
    (.ite ⟨rfl, (complete_within ..).mono rfl, spiWrite_grows ..⟩ hbad)

/-- What the parts of a DATA message's transfer may change. -/
def dataParts : List Part := [.regs, .usb, .root, .stem, .trk, .mem, .ras, .cnp, .cam]

/-- The last byte of a transfer. -/
theorem xferFinish_runs (x : Xfer) (s : State) : Runs dataParts s (xferFinish x s) := by
  have hdev {n : List Part} {d : Dev} (h : Within n s.dev d) (hs : partsIn n dataParts = true) : Runs dataParts s { s with dev := d } :=
    (h.mono hs).runs
  unfold xferFinish
  dsimp only
  split
  case h_1 => exact hdev (memFinish_within ..) rfl
  case h_2 => exact hdev (graftFinish_within ..) rfl
  case h_3 => exact hdev (seedFinish_within ..) rfl
  case h_4 => exact ((layerStore_within ..).mono (by decide) |>.via (complete_within ..) rfl).runs
  case h_5 => exact hdev (barkFinish_within ..) rfl
  case h_6 => exact hdev (ispParamsFinish_within ..) rfl
  case h_7 => exact (fwFinish_runs x s).mono rfl
  case h_8 => exact (controlFinish_runs x s).mono rfl
  case h_9 => exact (restoreFinish_runs _ _ x s).mono rfl

theorem xferFlash_runs (x : Xfer) (off : Nat) (bs : Bytes) (s : State) : Runs dataParts s (xferFlash x off bs s) := by
  unfold xferFlash
  split
  · exact ⟨rfl, .refl .., spiWrite_grows ..⟩
  · exact .refl ..

theorem dataOp_runs (h : Hdr) (last : Bool) (bs : Bytes) (s : State) : Runs dataParts s (dataOp h last bs s) := by
  have horphan {d : Dev} (hd : Within dataParts s.dev d) : Runs dataParts s { s with dev := bump d aOrphan 1 } :=
    (hd.via (bump_within ..) rfl).runs
  have hput (x : Xfer) : Within dataParts s.dev (putXfer x s.dev) := (putXfer_within ..).mono rfl
  unfold dataOp
  dsimp only
  refine .ite (.refl ..) (.ite (horphan (.refl ..)) (.ite (.refl ..) ?_))
  split
  · exact horphan (.refl ..)
  next x _ =>
    refine .ite (horphan (.refl ..)) (.ite (horphan (hput _)) (.ite (.refl ..) ?_))
    have hflash (y : Xfer) (off : Nat) : Runs dataParts s
        (xferFlash y off bs { s with dev := xferProgress y (xferPlace x off bs (putXfer y s.dev)) }) :=
      Runs.trans (((hput y).via (xferPlace_within ..) rfl).via (xferProgress_within ..) rfl).runs (xferFlash_runs ..)
    exact .ite ((hflash _ _).trans (xferFinish_runs ..)) (hflash _ _)

theorem execData_runs (h : Hdr) (last : Bool) (bs : Bytes) (s : State) :
    ∃ t, execData h last bs s = .next t ∧ Runs dataParts s t := by
  unfold execData
  split
  · exact ⟨_, rfl, .ite (dataOp_runs ..) (.refl ..)⟩
  · exact runs_request (m := []) (fun _ _ => .refl ..) rfl rfl

theorem nvRequest_runs {i : Instr} {h : Hdr} {ok : Bool} {body : Nat → NonVol → Dev → Dev} {fuse : NonVol → NonVol}
    (hb : ∀ k x, Within l x (body k s.nv x)) (hf : Grows s.nv (fuse s.nv)) (hr : partsIn [.regs, .usb, .root, .stem] l = true) :
    ∃ t, nvRequest s i h ok body fuse = .next t ∧ Runs l s t := by
  unfold nvRequest
  split
  · refine ⟨_, rfl, rfl, .request (.refl ..) hb hr, ?_⟩
    dsimp only
    split
    · exact hf
    · exact .refl _
  · exact ⟨_, rfl, .refl ..⟩

theorem execProvision_runs (h : Hdr) (op slot : Nat) (bytes : Bytes) (s : State) :
    ∃ t, execProvision h op slot bytes s = .next t ∧ Runs [.regs, .usb, .root, .stem] s t := by
  refine nvRequest_runs (fun k x => (provisionOp_within ..).mono (by decide)) ?_ rfl
  split
  · next hok => exact provisionFuse_grows (Bool.and_eq_true .. ▸ hok).1
  · exact .refl _

/-! ## Every command -/

/-- The root PLL locks (R520). -/
theorem pllLocked_within (nv : NonVol) (d : Dev) : Within [.regs, .live, .devTime, .boot, .clk] d
    (let d := setFlds { d with boot := 1, devTime := 0 } [(clkPllLock, 1), (clkAclk, 0)]
     loadBoard nv (setFld d grvTag (tupleTag nv d))) := by
  refine .via (.via (.via (.mono (within_devTime_boot _ _) rfl) (setFlds_within ..) rfl) (setFld_within ..) rfl) (loadBoard_within ..) rfl

theorem powerWindow_within (nv : NonVol) (p : Nat) (tj : Int) (lanes : List Nat) (d : Dev) :
    Within Part.engine d (powerWindowOp nv p tj (lanes.foldl (fun d i => recordError nv (172 + i) 8 0 d) d)) :=
  .via (.foldl (.refl ..) fun _ _ => recordError_within ..) (powerWindowOp_within ..) rfl

/-- A tile instruction that reads nothing. -/
theorem tileOp_within {op n : Nat} {run : Env → Dev → Dev × Bool} {nv : NonVol} {d : Dev} (h : ∀ e x, Within m x (run e x).1)
    (hs : partsIn m [.regs, .stem, .trk, .mem, .br, .cells] = true) :
    Within [.regs, .stem, .trk, .mem, .br, .cells] d (tileOp op run nv n d) :=
  .tileOp (.refl ..) (fun e x => (h e x).mono hs) rfl

theorem execTaskReady_runs (task : Nat) (pfn : Word) (ws : List Word) (s : State) :
    ∃ t, execTaskReady task pfn ws s = .next t ∧ Runs (touches (.taskReady task pfn ws)) s t :=
  runs_parityErrs (n := fun d => let b := imgOf d (outFlag d task pfn.toNat); 190 + pStem b (kPipe b task))
    (c := fun d => (taskSt d task pfn.toNat (outFlag d task pfn.toNat)).isSome) (taskReadyOp_within s.nv task pfn.toNat) (taskReadyOp_within s.nv task pfn.toNat) rfl rfl

/-- Every command answers a next state, reached from the one before by changes of the parts that its row names. -/
theorem exec_runs (c : Instr) (s : State) : ∃ t, exec c s = .next t ∧ Runs (touches c) s t := by
  match c with
  | .registerWrite _ _ _ => exact runs_onDev (registerWriteOp_within ..) rfl
  | .rcRegisterRead _ _ => exact runs_onDev (rcReadOp_within ..) rfl
  | .lowWordRead _ => exact runs_onDev (readRowOp_within ..) rfl
  | .genProgressARead _ => exact runs_onDev (progReadOp_within ..) rfl
  | .intHdrIfnRead _ => exact runs_onDev (readRowOp_within ..) rfl
  | .camCxLastCfnRead _ => exact runs_onDev (readRowOp_within ..) rfl
  | .resetAssert => exact ⟨_, rfl, runs_reset _⟩
  | .resetRelease => exact ⟨_, rfl, .ite (runs_reset _) (.refl _ _)⟩
  | .pllLock => exact ⟨_, rfl, .ite ((pllLocked_within ..).runs) (.refl _ _)⟩
  | .firmwareStarted => exact ⟨_, rfl, .ite (firmwareStarted_runs _) (.refl _ _)⟩
  | .trunkSelfTestDone _ => exact runs_onDev (selfTestDoneOp_within ..) rfl
  | .lp6TrainingDone _ _ _ => exact runs_onDev (lp6TrainingDoneOp_within ..) rfl
  | .usbEnumeration _ => exact runs_onDev (enumerateOp_within ..) rfl
  | .usbBusReset _ _ => exact runs_onDev (.ite (busResetOp_within ..) (.refl ..)) rfl
  | .ep0RegisterRead _ => exact runs_onDev (ep0ReadOp_within ..) rfl
  | .ep0RegisterWrite _ _ => exact runs_onDev (ep0WriteOp_within ..) rfl
  | .regRead _ _ => exact runs_request (fun _ _ => regReadOp_within ..) rfl rfl
  | .regWrite _ _ => exact runs_request (fun _ _ => regWriteOp_within ..) rfl rfl
  | .memRead _ _ => exact runs_request (fun _ _ => memReadOp_within ..) rfl rfl
  | .memWrite _ _ => exact runs_request (fun _ _ => memWriteOp_within ..) rfl rfl
  | .data _ _ _ => exact execData_runs _ _ _ _
  | .completionTaken => exact runs_onDev (completionTakenOp_within ..) rfl
  | .eventMessageSend => exact runs_onDev (eventSendOp_within ..) rfl
  | .lengthTimeout _ => exact runs_onDev (lengthTimeoutOp_within ..) rfl
  | .ringAdd _ _ _ => exact runs_request (fun _ _ => hostRingAdd_within ..) rfl rfl
  | .ringSet _ _ _ => exact runs_request (fun _ _ => hostRingSet_within ..) rfl rfl
  | .ringWait _ _ _ _ => exact runs_request (fun _ _ => hostRingWait_within ..) rfl rfl
  | .ringWaitMet _ => exact runs_onDev (ringWaitMetOp_within ..) rfl
  | .ringWaitTimeout _ => exact runs_onDev (ringWaitTimeoutOp_within ..) rfl
  | .ringAlloc _ => exact runs_request (fun _ _ => hostRingAlloc_within ..) rfl rfl
  | .ringFree _ _ => exact runs_request (fun _ _ => hostRingFree_within ..) rfl rfl
  | .ringAddRegisterWrite _ => exact runs_onDev (ringAddRegOp_within ..) rfl
  | .ringSetRegisterWrite _ => exact runs_onDev (ringSetRegOp_within ..) rfl
  | .metadata _ _ _ _ _ _ => exact runs_request (fun _ _ => metadataOp_within ..) rfl rfl
  | .graftLoad _ _ => exact runs_request (fun _ _ => graftLoadOp_within ..) rfl rfl
  | .graftApply _ _ _ => exact runs_request (fun _ _ => graftApplyOp_within ..) rfl rfl
  | .graftPreparationDone => exact runs_onDev (prepDoneOp_within ..) rfl
  | .graftAbort _ => exact runs_request (fun _ _ => graftAbortOp_within ..) rfl rfl
  | .graftUnload _ _ _ => exact runs_request (fun _ _ => graftUnloadOp_within ..) rfl rfl
  | .graftReleaseDeadline => exact runs_onDev (releaseDeadlineOp_within ..) rfl
  | .readmit _ _ => exact runs_request (fun _ _ => readmitOp_within ..) rfl rfl
  | .seedStage _ _ => exact runs_request (fun _ _ => seedStageOp_within ..) rfl rfl
  | .seedDrop _ _ => exact runs_request (fun _ _ => seedDropOp_within ..) rfl rfl
  | .histInvalidate _ _ => exact runs_request (fun _ _ => histInvalidateOp_within ..) rfl rfl
  | .stemHistInvWrite _ => exact runs_onDev (stemHistInvOp_within ..) rfl
  | .layerFlip _ _ _ _ _ => exact runs_unlessFenced (fun _ _ => layerFlipOp_within ..) rfl rfl
  | .layerWrite _ _ _ _ _ => exact runs_unlessFenced (fun _ _ => layerWriteOp_within ..) rfl rfl
  | .wbStart _ _ _ _ => exact runs_unlessFenced (fun _ _ => wbStartOp_within ..) rfl rfl
  | .wbStop _ => exact runs_unlessFenced (fun _ _ => wbStopOp_within ..) rfl rfl
  | .barkCommand _ _ => exact runs_unlessFenced (fun _ _ => barkCommandOp_within ..) rfl rfl
  | .ispParams _ _ _ _ => exact runs_unlessFenced (fun _ _ => ispParamsOp_within ..) rfl rfl
  | .attest _ _ => exact runs_request (fun _ _ => attestOp_within ..) rfl rfl
  | .certRead _ _ => exact runs_request (fun _ _ => certReadOp_within ..) rfl rfl
  | .fwUpdate _ _ => exact runs_unlessFenced (fun _ _ => fwUpdateOp_within ..) rfl rfl
  | .intControl _ _ => exact runs_request (fun _ _ => intControlOp_within ..) rfl rfl
  | .provision _ _ _ _ => exact execProvision_runs _ _ _ _ _
  | .restore _ _ _ _ => exact runs_unlessFenced (fun _ _ => restoreOp_within ..) rfl rfl
  | .outputFrameStart => exact runs_onDev (frameStartOp_within ..) rfl
  | .cadenceInputTimeout => exact runs_onDev (cadenceTimeoutOp_within ..) rfl
  | .understoryLineProduce _ => exact runs_parityErrs (n := fun _ => 195) (c := undReady) undProduceOp_within undProduceOp_within rfl rfl
  | .tileRowJudge _ => exact runs_onDev (tileRowJudgeOp_within ..) rfl
  | .segmentAck _ => exact runs_onDev (segmentAckOp_within ..) rfl
  | .canopyLineCompose _ => exact runs_errs composeRead_nil_within composeRead_within rfl rfl
  | .lineScanned => exact runs_onDev (lineScannedOp_within ..) rfl
  | .lineMatch => exact runs_onDev (lineMatchOp_within ..) rfl
  | .startOfBlanking => exact runs_onDev (blankingOp_within ..) rfl
  | .flipGroupTimeout _ => exact runs_onDev (flipTimeoutOp_within ..) rfl
  | .flattenBuildStart _ => exact runs_onDev (flattenStartOp_within ..) rfl
  | .flattenBuilt _ => exact runs_onDev (flattenBuiltOp_within ..) rfl
  | .dsoCommitWrite _ => exact runs_onDev (commitWriteOp_within ..) rfl
  | .panelReplayRequest => exact runs_onDev (replayRequestOp_within ..) rfl
  | .panelReplayExitRequest =>
    exact runs_onDev (f := fun d => replayExit 1 (setFld d prReq 0))
      (.trans ((setFld_within ..).mono rfl) (replayExit_within ..)) rfl
  | .sinkReplayExitRequest => exact runs_onDev (replayExit_within ..) rfl
  | .dsoLinkChange _ _ => exact runs_onDev (linkChangeOp_within ..) rfl
  | .dsoLinkTraining _ _ _ _ _ _ _ => exact runs_laneFails (fun x => linkTrainOp_within _ _ _ _ _ _ x) rfl rfl
  | .intakeLinkTraining _ _ _ _ _ _ => exact runs_laneFails (fun x => intakeTrainOp_within _ _ _ _ _ x) rfl rfl
  | .hdcpAuthentication _ _ _ => exact runs_onDev (hdcpAuthOp_within ..) rfl
  | .intakeFrameStart _ _ => exact runs_onDev (intakeStartOp_within ..) rfl
  | .sdpReceived _ _ => exact runs_onDev (sdpOp_within ..) rfl
  | .intakeLineReceived _ _ _ => exact runs_onDev (intakeLineOp_within ..) rfl
  | .intakeLineWritten _ => exact runs_onDev (intakeWrittenOp_within ..) rfl
  | .intakeFrameEnd _ => exact runs_onDev (intakeEndOp_within ..) rfl
  | .sourceChange _ _ => exact runs_onDev (sourceChangeOp_within ..) rfl
  | .splitPairTimeout _ => exact runs_onDev (splitTimeoutOp_within ..) rfl
  | .uiFrameComplete => exact runs_onDev (uiCompleteOp_within ..) rfl
  | .taskReady task pfn _ => exact execTaskReady_runs ..
  | .tileBoundary _ => exact runs_onDev (tileBoundaryOp_within ..) rfl
  | .sliceQuantumExpire _ => exact runs_onDev (sliceExpireOp_within ..) rfl
  | .sliceHandover _ => exact runs_onDev (sliceHandoverOp_within ..) rfl
  | .taskComplete _ _ => exact runs_onDev (taskCompleteOp_within ..) rfl
  | .taskLimitTimeout _ _ => exact runs_onDev (taskLimitOp_within ..) rfl
  | .tload _ _ => exact runs_tileRead tloadRun_within rfl rfl rfl rfl
  | .pageRelease _ _ _ => exact runs_onDev (pageReleaseOp_within ..) rfl
  | .tmac _ _ => exact runs_tileRead tmacRun_within rfl rfl rfl rfl
  | .twino _ _ => exact runs_tileRead twinoRun_within rfl rfl rfl rfl
  | .tdiag _ _ => exact runs_tileRead tdiagRun_within rfl rfl rfl rfl
  | .tileDrain _ _ _ _ => exact runs_onDev (tileDrainOp_within ..) rfl
  | .auditArm _ => exact runs_onDev (auditArmOp_within ..) rfl
  | .tpool _ _ => exact runs_tileRead tpoolRun_within rfl rfl rfl rfl
  | .tact _ _ => exact runs_tileRead tactRun_within rfl rfl rfl rfl
  | .treq _ _ => exact runs_tileRead treqRun_within rfl rfl rfl rfl
  | .tstat _ _ => exact runs_tileRead tstatRun_within rfl rfl rfl rfl
  | .maximumTreeDone _ _ _ => exact runs_onDev (treeDoneOp_within ..) rfl
  | .tconv _ _ => exact runs_tileRead tconvRun_within rfl rfl rfl rfl
  | .twarp _ _ => exact runs_tileRead twarpRun_within rfl rfl rfl rfl
  | .thalo _ _ => exact runs_tileRead thaloRun_within rfl rfl rfl rfl
  | .haloLineLanded _ => exact runs_onDev (haloLandedOp_within ..) rfl
  | .tmcast _ => exact runs_onDev (tileOp_within tmcastRun_within rfl) rfl
  | .multicastFetch _ _ => exact runs_errs (multicastFetchOp_nil_within _) (fun nv errs d => multicastFetchOp_within nv _ errs d) rfl rfl
  | .tbox _ _ => exact runs_tileRead tboxRun_within rfl rfl rfl rfl
  | .tnms _ _ => exact runs_tileRead tnmsRun_within rfl rfl rfl rfl
  | .tstore _ _ => exact runs_tileRead tstoreRun_within rfl rfl rfl rfl
  | .tsig _ => exact runs_onDev (tileOp_within tsigRun_within rfl) rfl
  | .tsigLand _ => exact runs_onDev (tsigLandOp_within ..) rfl
  | .twait _ => exact runs_onDev (twaitOp_within ..) rfl
  | .twaitMet _ => exact runs_onDev (twaitMetOp_within ..) rfl
  | .evictionWriteDone _ _ => exact runs_onDev (evictionWriteDoneOp_within ..) rfl
  | .pageFetchDone _ _ => exact runs_onDev (fetchDoneOp_within ..) rfl
  | .trunkStallTimeout _ _ => exact runs_onDev (trunkStallOp_within ..) rfl
  | .stampTick => exact runs_onDev (stampTickOp_within ..) rfl
  | .trkBooksSnap _ => exact runs_onDev (booksSnapOp_within ..) rfl
  | .trkPageLookup _ => exact runs_onDev (pageLookupOp_within ..) rfl
  | .scrubPassStart => exact runs_onDev (scrubPassStartOp_within ..) rfl
  | .scrubLine _ _ => exact runs_onDev (scrubLineOp_within ..) rfl
  | .bankPageCopied _ => exact runs_onDev (bankPageCopiedOp_within ..) rfl
  | .lp6ReadDone _ _ _ => exact runs_onDev (lp6ReadDoneOp_within ..) rfl
  | .lp6Refresh _ _ => exact runs_onDev (lp6RefreshOp_within ..) rfl
  | .lp6GranuleCopied _ => exact runs_onDev (lp6GranuleOp_within ..) rfl
  | .lp6AreaWrite _ => exact runs_onDev (lp6AreaOp_within ..) rfl
  | .camFrameStart _ => exact runs_onDev (camStartOp_within ..) rfl
  | .camLineLanded _ _ _ => exact runs_onDev (camLineOp_within ..) rfl
  | .camFrameEnd _ => exact runs_onDev (camEnd_within ..) rfl
  | .camPclkMeasure p khz => exact runs_onDev (f := fun d => setFld d (camPclk p.val) (min khz (2 ^ 18 - 1))) (setFld_within ..) rfl
  | .camCtlWrite _ _ => exact runs_onDev (camCtlOp_within ..) rfl
  | .ispFrameEnter => exact runs_onDev (ispEnterOp_within ..) rfl
  | .ispLineProcessed _ =>
    exact runs_parityErrs (n := fun _ => 196) (c := fun d => d.cam.frames.any (ispLineReady d))
      (l := [.regs, .ring, .trk, .mem, .cam]) ispLineOp_within (fun x => .refl _ x) rfl rfl
  | .ispFrameComplete => exact runs_onDev (ispCompleteOp_within ..) rfl
  | .exposureGo _ _ => exact runs_onDev (exposureGoOp_within ..) rfl
  | .i2cExposureDone _ => exact runs_onDev (exposureDoneOp_within ..) rfl
  | .camI2cNak _ _ _ => exact runs_onDev (i2cNakOp_within ..) rfl
  | .fsyncOutPulse => exact runs_onDev (fsyncOutOp_within ..) rfl
  | .fsyncInEdge => exact runs_onDev (fsyncInOp_within ..) rfl
  | .fsyncTimeout => exact runs_onDev (fsyncTimeoutOp_within ..) rfl
  | .timeCodeReceived _ => exact runs_onDev (timeCodeOp_within ..) rfl
  | .groveTupleChanged => exact runs_onDev (tupleChangedOp_within ..) rfl
  | .powerWindow p tj lanes =>
    exact runs_onDev (f := fun d => powerWindowOp s.nv p tj
      (((List.range 16).filter lanes.toNat.testBit).foldl (fun d i => recordError s.nv (172 + i) 8 0 d) d)) (powerWindow_within ..) rfl
  | .clkCapWrite _ => exact runs_onDev (clkCapOp_within ..) rfl
  | .jtagExtest _ => exact ⟨_, rfl, .ite (runs_reset _) (.refl _ _)⟩
  | .bucketLeak _ => exact runs_onDev (bucketLeakOp_within ..) rfl
  | .retirementStart _ => exact runs_onDev (retirementStartOp_within ..) rfl
  | .flitReceived _ _ _ _ => exact runs_onDev (flitReceivedOp_within ..) rfl
  | .flitAckTimeout _ => exact runs_onDev (flitAckTimeoutOp_within ..) rfl
  | .flitResend _ => exact runs_onDev (flitResendOp_within ..) rfl
  | .fence _ => exact runs_onDev (fenceOp_within ..) rfl
  | .unfence _ => exact runs_onDev (unfenceOp_within ..) rfl
  | .retire _ _ _ => exact runs_onDev (retireOp_within ..) rfl
  | .windRuleArm _ _ => exact runs_onDev (windArmOp_within ..) rfl
  | .ep2InDataTaken _ => exact runs_errs dataTakenOp_nil_within dataTakenOp_within rfl rfl
  | .attestReportSigned => exact runs_onDev (reportSignedOp_within ..) rfl
  | .writebackLineWritten => exact runs_onDev (wbWrittenOp_within ..) rfl
  | .testEnChange _ => exact ⟨_, rfl, .ite (runs_reset _) (.ite (runs_reset _) (.refl _ _))⟩

/-! ## The statements about every command and every step -/

/-- Settles O5: `exec_runs` gives the state, its queue and its parts. -/
theorem commandsChangeOnlyTheirParts : Obligations.CommandsChangeOnlyTheirParts := by
  unfold Obligations.CommandsChangeOnlyTheirParts
  intro c s
  obtain ⟨t, ht, hruns⟩ := exec_runs c s
  exact ⟨t, ht, hruns.pending, hruns.within.only⟩

/-- What `exec_runs` says of the state that a command answers. -/
theorem runs_of_exec {c : Instr} {s t : State} (h : exec c s = .next t) : Runs (touches c) s t := by
  obtain ⟨u, hu, hruns⟩ := exec_runs c s
  obtain rfl : u = t := Host.Outcome.next.inj (hu.symm.trans h)
  exact hruns

/-- Settles O6. -/
theorem fusesOnlyRise : Obligations.FusesOnlyRise := by
  unfold Obligations.FusesOnlyRise
  exact fun c s t h => (runs_of_exec h).grows

theorem startDeferred_within (s : State) : Within [.usb] s.dev (startDeferred s).dev := by
  unfold startDeferred
  split
  · split
    · exact within_usb _
    · exact .refl ..
  · exact .refl ..

/-- One CCLK cycle. -/
theorem tick_within (s : State) : Within Part.all s.dev (tick s).dev := by
  unfold tick
  split
  · have h1 := ((timeTick_within s.dev).mono (l := Part.all) rfl).via (blankTick_within _) rfl
    have h2 := (h1.via (retryWrites_within _) rfl).via (closeIdle_within s.nv _) rfl
    exact ((h2.via (askAll_within _) rfl).via (serveStaging_within _) rfl).via (startDeferred_within { s with dev := _ }) rfl
  · exact .refl ..

theorem Within.inv {l : List Part} {s t : State} (h : Within l s.dev t.dev) (hi : Inv s) : Inv t := ⟨h.wf hi.1, h.sum hi.2⟩

/-- Settles O4: the canonical form and the sum of the books are part of what every operation keeps. -/
theorem stepKeepsInvariant : Obligations.StepKeepsInvariant := by
  unfold Obligations.StepKeepsInvariant
  intro s t hi hstep
  unfold step at hstep
  split at hstep
  · exact (runs_of_exec hstep).within.inv hi
  · obtain rfl : tick s = t := Host.Outcome.next.inj hstep
    exact (tick_within s).inv hi

/-- Settles O7: every command but those of the pins is an operation of the running engine. -/
theorem nothingRunsWithoutClocks : Obligations.NothingRunsWithoutClocks := by
  unfold Obligations.NothingRunsWithoutClocks
  intro c s hdead hpins
  cases c
  case firmwareStarted => exact congrArg Host.Outcome.next (if_neg (by simp [hdead]))
  case provision => exact if_neg (by simp [hdead])
  case data h last bs =>
    by_cases hep : h.endpoint = 2
    · exact (if_pos hep).trans (congrArg Host.Outcome.next (if_neg (by simp [hdead])))
    · exact (if_neg hep).trans (onDev_dead _ hdead)
  case resetAssert | resetRelease | pllLock | jtagExtest | testEnChange => exact absurd trivial hpins
  all_goals exact congrArg Host.Outcome.next (if_neg (by simp [hdead]))

end Sys2Proof.Machine
end

section
/-! PROOF. Register access: the bits that a host write stores, the rows that a register write runs, EP0 and the register messages (R8 to R12,
R421, R423). -/

namespace Sys2Proof.Machine

/-! ## Registers left alone -/

theorem RegsBut.refl (l : List Nat) (d : Dev) : RegsBut l d d := fun _ _ => rfl

theorem RegsBut.trans {l : List Nat} {d e f : Dev} (h : RegsBut l d e) (g : RegsBut l e f) : RegsBut l d f :=
  fun a ha => (g a ha).trans (h a ha)

theorem RegsBut.mono {l m : List Nat} {d e : Dev} (h : RegsBut m d e) (hs : m ⊆ l) : RegsBut l d e := fun a ha => h a fun hm => ha (hs hm)

/-- Register words are read in `regs` alone. -/
theorem RegsBut.of_regs {l : List Nat} {d e f : Dev} (h : RegsBut l d e) (hf : f.regs = e.regs) : RegsBut l d f := fun a ha => by
  rw [reg, hf]; exact h a ha

theorem reg_of_regs {d e : Dev} (h : e.regs = d.regs) (a : Nat) : reg e a = reg d a := by rw [reg, h]; rfl

theorem Only.mono {l m : List Part} {d e : Dev} (h : Only m d e) (hs : partsIn m l = true) : Only l d e :=
  fun p hp => h p fun hm => hp (by simpa using List.all_eq_true.mp hs p hm)

/-! ## A register whose bits are only stored (R9, R10) -/

theorem storeBits_regsBut (mask : Nat) (v : Word) (d : Dev) (a : Nat) : RegsBut [a] d (storeBits mask v d a) :=
  fun b hb => reg_setReg_other d _ (by simpa using hb)

theorem storeBits_getLsbD (mask : Nat) (v : Word) (d : Dev) (a : Nat) {i : Nat} (hi : i < 32) :
    (reg (storeBits mask v d a) a).getLsbD i = if mask.testBit i then v.getLsbD i else (reg d a).getLsbD i := by
  simp only [storeBits, reg_setReg_same, BitVec.getLsbD_or, BitVec.getLsbD_and, BitVec.getLsbD_not, BitVec.getLsbD_ofNat, hi, decide_true,
    Bool.true_and]
  cases mask.testBit i <;> simp

/-- The registers that have a row of their own, but those of the exposure and the Wind rules. -/
def rowRegs : List Nat :=
  [0x10004, 0x10020, 0x30008, 0x3000C, 0x40F08, 0x100000, 0x100010, 0x100040, 0x100050, 0x120004, intBase 0, intBase 1, 0x170018, 0x170030,
   0x171000, 0x172000, camBase 0, camBase 1, 0x1A0000, 0x1B0010]

theorem storeMask_rowRegs (nv : NonVol) : ∀ a ∈ rowRegs, storeMask nv a = 0 := by
  simp [rowRegs, storeMask, intBase, camBase]

theorem storeMask_wind (nv : NonVol) {a : Nat} (h : 0x1C0100 ≤ a ∧ a < 0x1C0200) : storeMask nv a = 0 := by
  unfold storeMask
  repeat' rw [if_neg (by omega)]

theorem storeMask_exposure (nv : NonVol) (c : Fin 8) : storeMask nv (cxBase c + 8) = 0 := by
  revert c; simp [Fin.forall_fin_succ, storeMask, cxBase]

/-- A write to such a register stores its writable bits. -/
theorem regWrite_of_storeMask {nv : NonVol} {a : Nat} (v hw : Word) (d : Dev) (h : storeMask nv a ≠ 0) :
    regWrite nv a v hw d = (stOk, storeBits (storeMask nv a) v d a) := by
  have hrow : ∀ x ∈ rowRegs, a ≠ x := fun x hx he => h (he ▸ storeMask_rowRegs nv x hx)
  simp only [rowRegs, List.mem_cons, List.not_mem_nil, or_false, forall_eq_or_imp, forall_eq] at hrow
  have hwind : ¬(0x1C0100 ≤ a ∧ a < 0x1C0200) := fun hw => h (storeMask_wind nv hw)
  have hexp : (List.range 8).find? (fun c => a == cxBase c + 8) = none := by
    refine List.find?_eq_none.mpr fun c hc hac => h ?_
    rw [beq_iff_eq.mp hac]
    exact storeMask_exposure nv ⟨c, List.mem_range.mp hc⟩
  simp only [regWrite, hrow, hwind, hexp, h, if_false]

/-- Settles O8: the write stores the writable bits of the register at `a`. -/
theorem registerWriteStoresWritableBits : Obligations.RegisterWriteStoresWritableBits := by
  unfold Obligations.RegisterWriteStoresWritableBits
  intro a v hw s halive
  refine ⟨fun hok hmask => ?_, fun hbad => ?_⟩
  · have he : registerWriteOp s.nv a.toNat v hw s.dev = storeBits (storeMask s.nv a.toNat) v s.dev a.toNat := by
      rw [registerWriteOp, if_pos hok, regWrite_of_storeMask v hw s.dev hmask]
    refine does_onDev (registerWriteOp s.nv a.toNat v hw) rfl halive ?_ ?_ <;> rw [he]
    · exact (storeBits_within ..).only
    · exact ⟨storeBits_regsBut _ _ _ _, fun i hi => storeBits_getLsbD _ _ _ _ hi⟩
  · refine does_onDev (registerWriteOp s.nv a.toNat v hw) rfl halive ?_ trivial
    rw [registerWriteOp, if_neg (by simp [hbad])]
    exact .refl _ _

/-! ## Registers with a row of their own -/

/-- A register write does what the row of its register does. -/
theorem exec_registerWrite {a : BitVec 40} {v hw : Word} {s : State} {f : Dev → Dev} (hok : regAddrOk a.toNat = true)
    (h : ∀ d, (regWrite s.nv a.toNat v hw d).2 = f d) : exec (.registerWrite a v hw) s = onDev s f :=
  congrArg (onDev s) (funext fun d => (if_pos hok).trans (h d))

/-- Settles O9: one register after the other. -/
theorem registerWriteRunsItsRow : Obligations.RegisterWriteRunsItsRow := by
  unfold Obligations.RegisterWriteRunsItsRow
  intro v hw s
  refine ⟨exec_registerWrite rfl fun _ => rfl, exec_registerWrite rfl fun d => ?_, exec_registerWrite rfl fun d => ?_,
    exec_registerWrite rfl fun d => ?_, exec_registerWrite rfl fun _ => rfl, exec_registerWrite rfl fun _ => rfl,
    exec_registerWrite rfl fun _ => rfl, exec_registerWrite rfl fun _ => rfl, exec_registerWrite rfl fun _ => rfl,
    exec_registerWrite rfl fun _ => rfl⟩
  · -- RING_ADD
    change (if hostMayWrite d (fld d ringSel) && amountOk v.toNat then (stOk, ringAddRegOp v d) else (stBadArg, d)).2 = _
    split
    · rfl
    · next hno => exact (if_neg hno).symm
  · -- RING_SET
    change (if !hostMayWrite d (fld d ringSel) then (stBadArg, d)
      else if ringWaiters d (fld d ringSel) ≠ 0 then (stBusy, d) else (stOk, ringSetRegOp v d)).2 = _
    split
    · next hno => exact (if_neg (by simp_all)).symm
    split
    · next hwait => exact (if_neg (by simp [hwait])).symm
    · rfl
  · -- STEM_HIST_INV
    change (if isHistory d (v.toNat % 65536) then (stOk, stemHistInvOp v d) else (stBadArg, d)).2 = _
    split
    · rfl
    · next hno => exact (if_neg hno).symm

/-! ## EP0 (R8, R421) -/

/-- The device after a register read by EP0. -/
theorem ep0ReadOp_eq {nv : NonVol} {a : Nat} {d : Dev} (hserved : ep0Served d = true) (hok : regAddrOk a = true) :
    ep0ReadOp nv a d = { afterRead nv a 0 d with usb := { d.usb with ep0 := some (readWord nv d a) } } := by
  have hlatch := foldl_latch_eq nv d d.hold (latched a)
  simp only [ep0ReadOp, regRead, hserved, hok, afterRead, Bool.not_true, Bool.false_eq_true, if_false, hlatch]
  split <;> rfl

/-- Settles O11. -/
theorem ep0AccessesRegisters : Obligations.Ep0AccessesRegisters := by
  unfold Obligations.Ep0AccessesRegisters
  intro a v s halive hserved
  refine ⟨fun hok => ?_, fun hok hmask => ?_, fun hbad => ?_, fun hbad => ?_⟩
  · refine does_onDev (ep0ReadOp s.nv a.toNat) rfl halive (ep0ReadOp_within ..).only ?_
    rw [ep0ReadOp_eq hserved hok]
    exact ⟨rfl, fun x => get_latchInto .., afterRead_regsBut _ _ _ _, reg_afterRead_same ..⟩
  · have he : ep0WriteOp s.nv a.toNat v s.dev =
        { storeBits (storeMask s.nv a.toNat) v s.dev a.toNat with usb := { s.dev.usb with ep0 := some 0 } } := by
      simp only [ep0WriteOp, hserved, hok, regWrite_of_storeMask v 0 s.dev hmask, Bool.not_true, Bool.false_eq_true, if_false, if_true]
      rfl
    refine does_onDev (ep0WriteOp s.nv a.toNat v) rfl halive ?_ ?_ <;> rw [he]
    · exact (((storeBits_within ..).mono (l := [.regs, .usb]) (by decide)).via (within_usb _) (by decide)).only
    · exact ⟨rfl, storeBits_regsBut _ _ _ _, fun i hi => storeBits_getLsbD _ _ _ _ hi⟩
  · have he : ep0WriteOp s.nv a.toNat v s.dev = { s.dev with usb := { s.dev.usb with ep0 := none } } := by
      cases hok : regAddrOk a.toNat
      · simp [ep0WriteOp, hserved, hok]
      · have href := hbad.resolve_left (by simp [hok])
        simpa [ep0WriteOp, hserved, hok] using fun h => absurd h href
    refine does_onDev (ep0WriteOp s.nv a.toNat v) rfl halive ?_ ?_ <;> rw [he]
    exact (within_usb _).only
  · have he : ep0ReadOp s.nv a.toNat s.dev = { s.dev with usb := { s.dev.usb with ep0 := none } } := by
      simp [ep0ReadOp, hserved, hbad]
    refine does_onDev (ep0ReadOp s.nv a.toNat) rfl halive ?_ ?_ <;> rw [he]
    exact (within_usb _).only

/-! ## Register messages (R423) -/

theorem regAddrOk_iff {a : Nat} : regAddrOk a = true ↔ a % 4 = 0 ∧ a < 0x100000000 := by simp [regAddrOk]

theorem regRead_regsBut (nv : NonVol) (a : Nat) (d : Dev) : RegsBut [a] d (regRead nv a d).2 := by
  have hlatch := foldl_latch_eq nv d d.hold (latched a)
  simp only [regRead, hlatch]
  split
  · exact fun b hb => reg_setReg_other _ _ (by simpa using hb)
  · exact .refl _ _

/-- Consecutive registers are read as far as they reach. -/
theorem readRegs_fits {nv : NonVol} {a n : Nat} (d : Dev) (ha : a % 4 = 0) (hn : a + 4 * n ≤ 0x100000000) :
    ∃ l, (readRegs nv a n d).1 = some l ∧ l.length = n ∧ (1 ≤ n → l.head? = some (readWord nv d a)) ∧
      RegsBut ((List.range n).map (fun i => a + 4 * i)) d (readRegs nv a n d).2 := by
  induction n generalizing a d with
  | zero => exact ⟨[], rfl, rfl, by simp, .refl _ _⟩
  | succ n ih =>
    obtain ⟨l, hl, hlen, -, hregs⟩ := ih (regRead nv a d).2 (a := a + 4) (by omega) (by omega)
    have hok : regAddrOk a = true := regAddrOk_iff.mpr (by omega)
    simp only [readRegs, hok, if_true, hl, Option.map_some, Option.some.injEq, exists_eq_left']
    refine ⟨by simp [hlen], fun _ => rfl, ((regRead_regsBut nv a d).mono ?_).trans (hregs.mono ?_)⟩
    · simp [List.range_succ_eq_map]
    · intro x hx
      simp only [List.mem_map, List.mem_range] at hx ⊢
      obtain ⟨i, hi, rfl⟩ := hx
      exact ⟨i + 1, by omega, by omega⟩

/-- A run of registers that reaches beyond the last one fails. -/
theorem readRegs_beyond {nv : NonVol} {a n : Nat} (d : Dev) (ha : a % 4 = 0) (h1 : 1 ≤ n) (hn : 0x100000000 < a + 4 * n) :
    (readRegs nv a n d).1 = none := by
  induction n generalizing a d with
  | zero => omega
  | succ n ih =>
    by_cases hok : regAddrOk a = true
    · have hlt := (regAddrOk_iff.mp hok).2
      simp [readRegs, hok, ih (regRead nv a d).2 (a := a + 4) (by omega) (by omega) (by omega)]
    · simp [readRegs, hok]

/-- A misaligned run fails before it accesses anything. -/
theorem readRegs_misaligned {nv : NonVol} {a n : Nat} (d : Dev) (ha : a % 4 ≠ 0) (h1 : 1 ≤ n) : readRegs nv a n d = (none, d) := by
  obtain ⟨n, rfl⟩ : ∃ m, n = m + 1 := ⟨n - 1, by omega⟩
  simp [readRegs, regAddrOk, ha]

/-- The status and payload of a REG_READ whose run answers `r`. -/
def regReadAnswer (r : Option (List Word)) : Nat × Bytes :=
  match r with
  | some ws => (stOk, ws.flatMap (fun w => le 4 w.toNat))
  | none => (stBadArg, [])

theorem regReadOp_eq (nv : NonVol) (a n key : Nat) (d : Dev) :
    regReadOp nv a n key d = complete (readRegs nv a n d).2 key (regReadAnswer (readRegs nv a n d).1).1 (regReadAnswer (readRegs nv a n d).1).2 := by
  simp only [regReadOp, regReadAnswer]
  cases (readRegs nv a n d).1 <;> rfl

/-- REG_READ answers what its run reads, and leaves the registers and the holding copies that the run leaves. -/
theorem does_regRead {h : Hdr} {n : Nat} {s : State} (hr : Ready s.dev h 0 1) (hlen : h.length = 4) (hn : 1 ≤ n ∧ n ≤ 256)
    {st : Nat} {p : Bytes} {l : List Part} {P : Dev → Prop}
    (hans : regReadAnswer (readRegs s.nv h.addr.toNat n (addTag s.dev h 0 false)).1 = (st, p))
    (hl : Part.usb ∈ l) (hw : Only l (addTag s.dev h 0 false) (readRegs s.nv h.addr.toNat n (addTag s.dev h 0 false)).2)
    (hP : ∀ e, Answered h st p s.dev e → e.regs = (readRegs s.nv h.addr.toNat n (addTag s.dev h 0 false)).2.regs →
      e.hold = (readRegs s.nv h.addr.toNat n (addTag s.dev h 0 false)).2.hold → P e) :
    Does (.regRead h n) s l P := by
  refine does_request _ rfl hr (by simp [hlen, hn]) (regReadOp_eq ..) ?_ ?_ <;> rw [hans]
  · exact only_addTag_complete hl hw
  · refine hP _ (complete_answers (k := 0) _ _ hr ?_) (complete_regs ..) (complete_hold ..)
    exact (readRegs_within ..).only .usb (by decide)

/-! ### REG_WRITE -/

/-- A run of registers whose bits are only stored takes the words in order. -/
theorem writeRegs_stored {nv : NonVol} {a : Nat} {ws : List Word} (d : Dev)
    (h : ∀ i, i < ws.length → regAddrOk (a + 4 * i) = true ∧ storeMask nv (a + 4 * i) ≠ 0) :
    ∃ e, writeRegs nv a ws d = (stOk, e) ∧ Only [.regs] d e ∧ RegsBut ((List.range ws.length).map (fun i => a + 4 * i)) d e ∧
      ∀ i b, i < ws.length → b < 32 → (reg e (a + 4 * i)).getLsbD b =
        if (storeMask nv (a + 4 * i)).testBit b then (ws.getD i 0).getLsbD b else (reg d (a + 4 * i)).getLsbD b := by
  induction ws generalizing a d with
  | nil => exact ⟨d, rfl, .refl _ _, .refl _ _, by simp⟩
  | cons w ws ih =>
    obtain ⟨hok, hmask⟩ := h 0 (by simp)
    rw [Nat.mul_zero, Nat.add_zero] at hok hmask
    have hstep (i : Nat) : a + 4 + 4 * i = a + 4 * (i + 1) := by omega
    obtain ⟨e, he, honly, hregs, hbits⟩ := ih (a := a + 4) (storeBits (storeMask nv a) w d a)
      fun i hi => by simpa only [hstep] using h (i + 1) (by simpa using hi)
    refine ⟨e, ?_, fun p hp => Part.same_trans ((storeBits_within ..).only p hp) (honly p hp), ?_, fun i b hi hb => ?_⟩
    · simp only [writeRegs, hok, regWrite_of_storeMask w 0 d hmask, if_true, he]
    · refine ((storeBits_regsBut _ _ _ _).mono ?_).trans (hregs.mono fun x hx => ?_)
      · simp [List.range_succ_eq_map]
      · simp only [List.mem_map, List.mem_range, hstep, List.length_cons] at hx ⊢
        obtain ⟨i, hi, rfl⟩ := hx
        exact ⟨i + 1, by omega, rfl⟩
    · cases i with
      | zero =>
        rw [hregs _ (by simp; omega)]
        exact storeBits_getLsbD _ _ _ _ hb
      | succ i =>
        rw [← hstep, hbits i b (by simpa using hi) hb, storeBits_regsBut _ _ _ _ _ (by simp; omega)]
        rfl

theorem writeRegs_misaligned {nv : NonVol} {a : Nat} {ws : List Word} (d : Dev) (ha : a % 4 ≠ 0) (h1 : 1 ≤ ws.length) :
    writeRegs nv a ws d = (stBadArg, d) := by
  cases ws with
  | nil => simp at h1
  | cons w ws => simp [writeRegs, regAddrOk, ha]

/-- Settles O12: a message is a run of register accesses and a completion. -/
theorem registerMessagesAccessInOrder : Obligations.RegisterMessagesAccessInOrder := by
  unfold Obligations.RegisterMessagesAccessInOrder
  intro h n ws s
  refine ⟨fun hr hlen hn => ⟨fun ha hfit => ?_, fun ha hbig => ?_, fun l hl => ?_, fun ha => ?_⟩,
    fun hr hlen hn => ⟨fun hstore => ?_, fun r hrdef => ?_, fun ha => ?_⟩⟩
  · obtain ⟨l, hl, hlength, hhead, hregs⟩ := readRegs_fits (nv := s.nv) (addTag s.dev h 0 false) ha hfit
    refine ⟨l, hlength, hhead hn.1, hl, does_regRead hr hlen hn (by rw [hl, regReadAnswer]) (by decide) ((readRegs_within ..).mono rfl).only ?_⟩
    exact fun e hans he _ => ⟨hans, hregs.of_regs he⟩
  · refine does_regRead hr hlen hn (by rw [readRegs_beyond _ ha hn.1 hbig, regReadAnswer]) (by decide) ((readRegs_within ..).mono rfl).only ?_
    exact fun e hans he _ => ⟨hans, he⟩
  · refine does_regRead hr hlen hn (by rw [hl, regReadAnswer]) (by decide) ((readRegs_within ..).mono rfl).only ?_
    exact fun e hans he hhold => ⟨hans, he, hhold⟩
  · have hbad := readRegs_misaligned (nv := s.nv) (addTag s.dev h 0 false) ha hn.1
    refine does_regRead hr hlen hn (by rw [hbad, regReadAnswer]) (by decide) (by rw [hbad]; exact .refl _ _) fun e hans _ _ => hans
  · obtain ⟨e, he, honly, hregs, hbits⟩ := writeRegs_stored (addTag s.dev h 0 false) hstore
    refine does_request (complete e (tagKey s.dev h.tag) stOk []) rfl hr (by simp [hlen, hn]) (by rw [regWriteOp, he]) ?_ ⟨?_, ?_, ?_⟩
    · exact only_addTag_complete (by decide) (honly.mono (by decide))
    · exact complete_answers stOk [] hr (honly .usb (by decide))
    · exact hregs.of_regs (complete_regs ..)
    · exact fun i b hi hb => by rw [reg_of_regs (complete_regs ..)]; exact hbits i b hi hb
  · subst hrdef
    exact (onDev_alive _ hr.1).trans (by rw [request_ready _ _ hr (by simp [hlen, hn])]; rfl)
  · have hbad := writeRegs_misaligned (nv := s.nv) (addTag s.dev h 0 false) ha hn.1
    refine does_request _ rfl hr (by simp [hlen, hn]) (by rw [regWriteOp, hbad]) ?_ ?_
    · exact only_addTag_complete (by decide) (.refl _ _)
    · exact complete_answers stBadArg [] hr rfl

end Sys2Proof.Machine
end

section
/-! PROOF. Facts of the shared operations that the rows are read with: fields of registers left alone, events, the host side. -/

namespace Sys2Proof.Machine

/-! ## Parts and fields left alone -/

theorem Only.trans {l : List Part} {d e f : Dev} (h : Only l d e) (g : Only l e f) : Only l d f :=
  fun p hp => Part.same_trans (h p hp) (g p hp)

theorem Only.via {l m : List Part} {d e f : Dev} (h : Only l d e) (g : Only m e f) (hs : partsIn m l = true) : Only l d f :=
  h.trans (g.mono hs)

theorem RegsBut.via {l m : List Nat} {d e f : Dev} (h : RegsBut l d e) (g : RegsBut m e f) (hs : m ⊆ l) : RegsBut l d f := h.trans (g.mono hs)

theorem RegsBut.of_only {l : List Part} {d e : Dev} (h : Only l d e) (hr : Part.regs ∉ l) (m : List Nat) : RegsBut m d e :=
  fun a _ => reg_of_regs (h .regs hr) a

theorem RegsBut.fld {l : List Nat} {d e : Dev} (h : RegsBut l d e) {x : Fld} (hx : x.addr ∉ l) :
    Sys2Proof.Machine.fld e x = Sys2Proof.Machine.fld d x := by
  rw [Sys2Proof.Machine.fld, h _ hx]; rfl

theorem RegsBut.flag {l : List Nat} {d e : Dev} (h : RegsBut l d e) {x : Fld} (hx : x.addr ∉ l) :
    Sys2Proof.Machine.flag e x = Sys2Proof.Machine.flag d x := by
  rw [Sys2Proof.Machine.flag, h.fld hx]; rfl

theorem RegsBut.fenced {l : List Nat} {d e : Dev} (h : RegsBut l d e) {u : Nat} (hx : (fencedReg u).addr ∉ l) :
    Sys2Proof.Machine.fenced e u = Sys2Proof.Machine.fenced d u := h.flag hx

theorem fld_of_regs {d e : Dev} (h : e.regs = d.regs) (x : Fld) : fld e x = fld d x := by rw [fld, reg_of_regs h]; rfl

theorem fld_of_reg {d e : Dev} {x : Fld} (h : reg e x.addr = reg d x.addr) : fld e x = fld d x := by rw [fld, h]; rfl

theorem flag_of_regs {d e : Dev} (h : e.regs = d.regs) (x : Fld) : flag e x = flag d x := by rw [flag, fld_of_regs h]; rfl

theorem fenced_of_regs {d e : Dev} (h : e.regs = d.regs) (u : Nat) : fenced e u = fenced d u := flag_of_regs h _

theorem flag_iff {d : Dev} {x : Fld} : flag d x = true ↔ fld d x = 1 := by simp [flag]

theorem setReg_regsBut (d : Dev) (a : Nat) (w : Word) : RegsBut [a] d (setReg d a w) :=
  fun _ hb => reg_setReg_other d w (by simpa using hb)

theorem setFld_regsBut (d : Dev) (x : Fld) (v : Nat) : RegsBut [x.addr] d (setFld d x v) := setReg_regsBut _ _ _

theorem bump_regsBut (d : Dev) (a n : Nat) : RegsBut [a] d (bump d a n) := setReg_regsBut _ _ _

theorem setFlds_regsBut (d : Dev) (l : List (Fld × Nat)) : RegsBut (l.map (·.1.addr)) d (setFlds d l) := by
  induction l generalizing d with
  | nil => exact .refl _ _
  | cons e l ih =>
    exact ((setFld_regsBut d e.1 e.2).mono (by simp)).trans ((ih (setFld d e.1 e.2)).mono (List.subset_cons_self ..))

theorem setFlds_nil (d : Dev) : setFlds d [] = d := rfl

theorem setFlds_cons (d : Dev) (x : Fld) (v : Nat) (l : List (Fld × Nat)) : setFlds d ((x, v) :: l) = setFlds (setFld d x v) l := rfl

/-- A field that no later write of the list touches. -/
theorem fld_setFlds_other (d : Dev) (l : List (Fld × Nat)) (y : Fld)
    (h : ∀ e ∈ l, e.1.lo + e.1.width ≤ 32 ∧ (y.addr ≠ e.1.addr ∨ y.lo + y.width ≤ e.1.lo ∨ e.1.lo + e.1.width ≤ y.lo)) :
    fld (setFlds d l) y = fld d y := by
  induction l generalizing d with
  | nil => rfl
  | cons e l ih =>
    obtain ⟨h1, h2⟩ := h e (by simp)
    exact (ih (setFld d e.1 e.2) fun x hx => h x (by simp [hx])).trans (fld_setFld_other _ _ _ _ h1 h2)

theorem fld_lt (d : Dev) (x : Fld) : fld d x < 2 ^ x.width := fget_lt ..

/-- A flag written with a truth value. -/
theorem flag_setFld_same (d : Dev) (x : Fld) (b : Bool) (h : x.lo + x.width ≤ 32) (hw : 0 < x.width) : flag (setFld d x b.toNat) x = b := by
  have h2 : 1 < 2 ^ x.width := Nat.one_lt_two_pow (by omega)
  rw [flag, fld_setFld_same d x _ h]
  cases b <;> simp [Nat.mod_eq_of_lt h2]

/-! ## Events (R20, R361, R436) -/

/-- The report of a unit other than a Branch passes no Stem. -/
theorem holderOf_none {d : Dev} {u : Nat} (h : u < 0x10 ∨ 0x20 ≤ u) : holderOf d u = none := if_neg (by omega)

theorem pushEvent_regsBut (d : Dev) (e : EventRec) : RegsBut [aEvtLost] d (pushEvent d e) := by
  unfold pushEvent
  split
  · exact bump_regsBut _ _ _
  · exact .refl _ _

theorem raise_regsBut (d : Dev) (code unit sev arg : Nat) : RegsBut [aEvtLost] d (raise d code unit sev arg) := by
  have htell (e : EventRec) : RegsBut [aEvtLost] d (tellStem (holderOf d unit) e { d with root := { d.root with lastEv := some e } }) :=
    .of_regs (.refl _ d) (tellStem_regs ..)
  unfold raise
  dsimp only
  split
  · exact htell _
  · exact (htell _).trans (pushEvent_regsBut _ _)

theorem raise_root (d : Dev) (code unit sev arg : Nat) : (raise d code unit sev arg).root =
    { d.root with lastEv := some { code, unit, sev, arg := arg % 2 ^ 32, time := d.devTime.toNat } } := by
  unfold raise
  dsimp only
  split <;> simp

theorem raise_raised (d : Dev) (code unit sev : Nat) {arg : Nat} (harg : arg < 2 ^ 32) :
    Raised code unit sev arg d (raise d code unit sev arg) := by
  rw [Raised, raise_root, Nat.mod_eq_of_lt harg]

theorem raise_stem {d : Dev} {unit : Nat} (h : holderOf d unit = none) (code sev arg : Nat) :
    (raise d code unit sev arg).stem = d.stem := by
  simp only [raise, h, tellStem]
  split <;> simp

/-- An event of a unit other than a Branch reaches the Root controller and the host alone. -/
theorem raise_within_of_unit {d : Dev} {unit : Nat} (h : unit < 0x10 ∨ 0x20 ≤ unit) (code sev arg : Nat) :
    Within [.regs, .usb, .root] d (raise d code unit sev arg) := by
  obtain ⟨honly, hwf, hsum⟩ := raise_within d code unit sev arg
  refine ⟨fun p hp => ?_, hwf, hsum⟩
  by_cases hstem : p = .stem
  · subst hstem; exact raise_stem (holderOf_none h) ..
  · exact honly p (by simp_all)

/-- Of the host side an event changes the queue of events alone. -/
theorem raise_usb (d : Dev) (code unit sev arg : Nat) : (raise d code unit sev arg).usb =
    { d.usb with evq := (raise d code unit sev arg).usb.evq, evDrop := (raise d code unit sev arg).usb.evDrop
                 evSince := (raise d code unit sev arg).usb.evSince } := by
  unfold raise pushEvent
  dsimp only
  split <;> (try split) <;> simp

theorem raise_evq_prefix (d : Dev) (code unit sev arg : Nat) : d.usb.evq <+: (raise d code unit sev arg).usb.evq := by
  unfold raise pushEvent
  dsimp only
  split
  · simp
  · split <;> simp

/-! ## Progress registers (R540 to R542) -/

theorem progSet_regsBut (d : Dev) (k st a p t m : Nat) : RegsBut [progA k, progB k] d (progSet d k st a p t m) := by
  unfold progSet
  dsimp only
  generalize progWordA k st a m (progShift t) = wa
  generalize BitVec.ofNat 32 (p / 2 ^ progShift t % 65536 + cdiv t (2 ^ progShift t) * 65536) = wb
  have hroot : RegsBut [progA k, progB k] d { d with root := { d.root with prog := d.root.prog.put (0, 0) k (p, t) } } := .of_regs (.refl _ _) rfl
  exact (hroot.via (setReg_regsBut _ (progA k) wa) (by simp)).via (setReg_regsBut _ (progB k) wb) (by simp)

theorem progWordA_state {k st : Nat} (addr a m sh : Nat) (hk : k < 256) (hst : st < 4) : fget ⟨addr, 8, 2⟩ (progWordA k st a m sh) = st := by
  simp only [fget, progWordA, BitVec.toNat_ofNat]
  omega

theorem progA_ne_progB (k : Nat) : progA k ≠ progB k := by simp only [progA, progB]; omega

/-- STATE of a pair of progress words. -/
theorem fld_pair_state (d : Dev) (k : Nat) (r : Root) (wa wb : Word) :
    fld (setReg (setReg { d with root := r } (progA k) wa) (progB k) wb) ⟨progA k, 8, 2⟩ = fget ⟨progA k, 8, 2⟩ wa := by
  rw [fld_of_reg (reg_setReg_other _ _ (progA_ne_progB k)), fld, reg_setReg_same]

/-- STATE of an operation's pair, as the pair is written. -/
theorem progSet_state (d : Dev) {k st : Nat} (a p t m : Nat) (hk : k < 256) (hst : st < 4) :
    fld (progSet d k st a p t m) ⟨progA k, 8, 2⟩ = st :=
  (fld_pair_state d k _ _ _).trans (progWordA_state (progA k) a m (progShift t) hk hst)

theorem progSet_lastEv (d : Dev) (k st a p t m : Nat) : (progSet d k st a p t m).root.lastEv = d.root.lastEv := by
  unfold progSet; extract_lets; rw [setReg_root, setReg_root]

theorem progStart_regsBut (d : Dev) (k a t : Nat) : RegsBut [progA k, progB k] d (progStart d k a t) := progSet_regsBut _ _ _ _ _ _ _

theorem progAt_regsBut (d : Dev) (k p : Nat) : RegsBut [progA k, progB k] d (progAt d k p) := progSet_regsBut _ _ _ _ _ _ _

theorem progDone_regsBut (d : Dev) (k : Nat) : RegsBut [progA k, progB k] d (progDone d k) :=
  (progSet_regsBut d k 2 _ _ _ _).via (setReg_regsBut _ _ _) (by simp)

theorem progStart_state (d : Dev) {k : Nat} (a t : Nat) (hk : k < 256) : fld (progStart d k a t) ⟨progA k, 8, 2⟩ = 1 :=
  progSet_state d _ _ _ _ hk (by decide)

theorem progDone_state (d : Dev) {k : Nat} (hk : k < 256) : fld (progDone d k) ⟨progA k, 8, 2⟩ = 2 := by
  unfold progDone
  dsimp only
  rw [fld_of_reg (reg_setReg_other _ _ (progA_ne_progB k))]
  exact progSet_state d _ _ _ _ hk (by decide)

/-! ## The host side -/

theorem complete_regsBut (d : Dev) (key st : Nat) (p : Bytes) (l : List Nat) : RegsBut l d (complete d key st p) :=
  .of_regs (.refl _ _) (complete_regs ..)

theorem fld_complete (d : Dev) (key st : Nat) (p : Bytes) (x : Fld) : fld (complete d key st p) x = fld d x := fld_of_regs (complete_regs ..) x

theorem fld_addTag (d : Dev) (h : Hdr) (k : Nat) (w : Bool) (x : Fld) : fld (addTag d h k w) x = fld d x := rfl

/-- A request that answers at once with a status. -/
theorem does_answer {i : Instr} {s : State} {h : Hdr} {kind type : Nat} {ok : Bool} {body : Nat → Dev → Dev} {st : Nat} {p : Bytes}
    (he : exec i s = onDev s (request i h kind type ok body)) (hr : Ready s.dev h kind type) (hok : ok = true)
    (hb : body (tagKey s.dev h.tag) (addTag s.dev h kind false) = complete (addTag s.dev h kind false) (tagKey s.dev h.tag) st p) :
    Does i s [.usb] (Answered h st p s.dev) :=
  does_request _ he hr hok hb (only_addTag_complete (by decide) (.refl _ _)) (complete_answers st p hr rfl)

/-- A request whose operation changes the device and then completes. -/
theorem does_complete {i : Instr} {s : State} {h : Hdr} {kind type : Nat} {ok : Bool} {body : Nat → Dev → Dev} {st : Nat} {p : Bytes}
    {l : List Part} {P : Dev → Prop} (e : Dev) (he : exec i s = onDev s (request i h kind type ok body)) (hr : Ready s.dev h kind type)
    (hok : ok = true) (hb : body (tagKey s.dev h.tag) (addTag s.dev h kind false) = complete e (tagKey s.dev h.tag) st p)
    (hl : Part.usb ∈ l) (hw : Only l (addTag s.dev h kind false) e) (hu : e.usb = (addTag s.dev h kind false).usb)
    (hP : Answered h st p s.dev (complete e (tagKey s.dev h.tag) st p) → P (complete e (tagKey s.dev h.tag) st p)) : Does i s l P :=
  does_request _ he hr hok hb (only_addTag_complete hl hw) (hP (complete_answers st p hr hu))

end Sys2Proof.Machine
end

section
/-! PROOF. Reset, the clocks and start-up up to the board record and the firmware (R460 to R465, R509, R519 to R521, R533). -/

namespace Sys2Proof.Machine

/-! ## The step, a CCLK cycle, reset -/

/-- Settles O1: a queue that is not empty hands its front command to `exec`. -/
theorem stepRunsFrontCommand : Obligations.StepRunsFrontCommand := by
  unfold Obligations.StepRunsFrontCommand
  exact fun c rest s => rfl

theorem startDeferred_nv (s : State) : (startDeferred s).nv = s.nv := by
  unfold startDeferred
  split
  · split <;> rfl
  · rfl

/-- Of a CCLK cycle only the first part moves DEV_TIME. -/
theorem tick_devTime {s : State} (halive : alive s.dev = true) : (tick s).dev.devTime = (timeTick s.dev).devTime := by
  have h1 := (blankTick_within (timeTick s.dev)).only.mono (l := Part.all.erase .devTime) rfl
  have h2 := (h1.via (retryWrites_within _).only rfl).via (closeIdle_within s.nv _).only rfl
  have h3 := (h2.via (askAll_within _).only rfl).via (serveStaging_within _).only rfl
  rw [tick, if_pos halive]
  exact (h3.via (startDeferred_within { s with dev := _ }).only rfl) .devTime (by decide)

theorem timeTick_devTime {d : Dev} (h : isFollower d = false) : (timeTick d).devTime = d.devTime + 4 := by simp [timeTick, h]

/-- Settles O2. -/
theorem idleStepAdvancesTime : Obligations.IdleStepAdvancesTime := by
  unfold Obligations.IdleStepAdvancesTime
  intro s hidle
  have hstep : step s = .next (tick s) := by rw [step, hidle]
  refine ⟨fun halive hfree => ⟨tick s, hstep, ?_, ?_⟩, fun hdead => ?_⟩
  · rw [tick, if_pos halive]; exact startDeferred_nv _
  · rw [tick_devTime halive, timeTick_devTime hfree]
  · rw [hstep, tick, if_neg (by simp [hdead])]

/-- Settles O3: after reset memory is empty and every page of the Trunk is free. -/
theorem resetMeetsInvariant : Obligations.ResetMeetsInvariant := by
  unfold Obligations.ResetMeetsInvariant
  exact ⟨⟨Map.wf_nil 0, by decide⟩, rfl⟩

/-- Settles O13: the rows of the pins, each by its definition. -/
theorem pinsHoldTheEngineInReset : Obligations.PinsHoldTheEngineInReset := by
  unfold Obligations.PinsHoldTheEngineInReset
  exact fun s => ⟨rfl, rfl, rfl, fun h => congrArg Host.Outcome.next (if_pos h), fun h => congrArg Host.Outcome.next (if_pos h), rfl⟩

/-! ## The board record (R460, R509, R520, R544) -/

/-- Registers written one after the other. -/
def setRegs (d : Dev) (m : Map Word) : Dev := m.foldl (fun d e => setReg d e.1 e.2) d

theorem setRegs_regsBut (d : Dev) (m : Map Word) : RegsBut (m.map (·.1)) d (setRegs d m) := by
  induction m generalizing d with
  | nil => exact .refl _ _
  | cons e m ih => exact ((setReg_regsBut d e.1 e.2).mono (by simp)).trans ((ih (setReg d e.1 e.2)).mono (List.subset_cons_self ..))

theorem setRegs_within (d : Dev) (m : Map Word) : Within [.regs] d (setRegs d m) := .foldl (.refl ..) fun _ _ => setReg_within ..

theorem reg_setRegs {d : Dev} {m : Map Word} (hnodup : (m.map (·.1)).Nodup) {x : Nat × Word} (hx : x ∈ m) : reg (setRegs d m) x.1 = x.2 := by
  induction m generalizing d with
  | nil => simp at hx
  | cons e m ih =>
    obtain ⟨hnew, hnodup⟩ := List.nodup_cons.mp hnodup
    rcases List.mem_cons.mp hx with rfl | hx
    · exact (setRegs_regsBut (setReg d x.1 x.2) m _ hnew).trans (reg_setReg_same ..)
    · exact ih hnodup hx

/-- Registers of `xs` put in force as they stand. -/
def enforce (d : Dev) (xs : List Nat) : Dev := xs.foldl (fun d a => setLive d a (reg d a)) d

theorem enforce_within (d : Dev) (xs : List Nat) : Within [.live] d (enforce d xs) := .foldl (.refl ..) fun _ _ => setLive_within ..

theorem enforce_regs (d : Dev) (xs : List Nat) : (enforce d xs).regs = d.regs := (enforce_within d xs).only .regs (by decide)

theorem enforce_live (d : Dev) (xs : List Nat) (x : Nat) :
    (enforce d xs).live.get 0 x = if x ∈ xs then reg d x else d.live.get 0 x := by
  induction xs generalizing d with
  | nil => rfl
  | cons a xs ih =>
    have hreg : reg (setLive d a (reg d a)) x = reg d x := rfl
    have hcons : enforce d (a :: xs) = enforce (setLive d a (reg d a)) xs := rfl
    rw [hcons, ih, hreg, setLive_live, Map.get_put]
    by_cases hxs : x ∈ xs
    · simp [hxs]
    · by_cases hxa : x = a <;> simp [hxs, hxa]

/-- What the root PLL starts with board record `b`, from the device whose clocks run. -/
def boarded (b : Board) (d : Dev) : Dev :=
  let d := setFlds d [(clkCap, b.cap), (undFill, b.fill)]
  setFld (enforce (setRegs (setLive (setReg d 0x10020 (BitVec.ofNat 32 b.lock)) 0x10020 (BitVec.ofNat 32 b.lock)) (boardSet b)) dsoSet) clkXdiv
    (xdivOf (boardSet b))

theorem boarded_within (b : Board) (d : Dev) : Within [.regs, .live] d (boarded b d) := by
  refine .via (.via (.via (.via (.via ?_ (setReg_within ..) rfl) (setLive_within ..) rfl) (setRegs_within ..) rfl) (enforce_within ..) rfl)
    (setFld_within ..) rfl
  exact (setFlds_within ..).mono rfl

/-- Loading the board record: its registers, and what start-up keeps of it for later. -/
theorem loadBoard_spec {nv : NonVol} {b : Board} (hb : b = (readBoard nv).getD Board.fallback) (d : Dev) :
    Only [.clk] (boarded b d) (loadBoard nv d) ∧ (loadBoard nv d).clk.boardBad = (readBoard nv).isNone ∧ (loadBoard nv d).clk.lp6Ceil = b.rate ∧
      (loadBoard nv d).clk.lp6Dens = b.dens ∧ (loadBoard nv d).clk.trip = d.clk.trip := by
  have hclk : (boarded b d).clk = d.clk := (boarded_within b d).only .clk (by decide)
  unfold loadBoard
  dsimp only
  rw [← hb]
  generalize (readBoard nv).isNone = bad
  exact ⟨(within_clk _).only, rfl, rfl, rfl, congrArg Clk.trip hclk⟩

theorem boarded_regsBut (b : Board) (d : Dev) :
    RegsBut ([clkXdiv.addr, clkCap.addr, undFill.addr, 0x10020] ++ (boardSet b).map (·.1)) d (boarded b d) := by
  have h1 : RegsBut [clkCap.addr, undFill.addr] d (setFlds d [(clkCap, b.cap), (undFill, b.fill)]) :=
    setFlds_regsBut d [(clkCap, b.cap), (undFill, b.fill)]
  have h2 := (h1.mono (l := [clkXdiv.addr, clkCap.addr, undFill.addr, 0x10020] ++ (boardSet b).map (·.1)) (by simp)).via
    (setReg_regsBut _ 0x10020 (BitVec.ofNat 32 b.lock)) (by simp)
  have h3 := (h2.of_regs (setLive_regs _ 0x10020 (BitVec.ofNat 32 b.lock))).via (setRegs_regsBut _ (boardSet b))
    (List.subset_append_right ..)
  exact (h3.of_regs (enforce_regs _ dsoSet)).via (setFld_regsBut _ clkXdiv _) (by simp)

/-- The registers of the board record's timing, one apart from the other and from all others that start with it. -/
theorem boardSet_keys (b : Board) : (boardSet b).map (·.1) = [0x170000, 0x170004, 0x170008, 0x17000C, 0x170010, 0x170014] := rfl

theorem boardSet_enforced (b : Board) : ∀ x ∈ boardSet b, x.1 ∈ dsoSet := by
  intro x hx
  have hkey : x.1 ∈ (boardSet b).map (·.1) := List.mem_map_of_mem hx
  rw [boardSet_keys] at hkey
  revert hkey
  generalize x.1 = a
  revert a
  decide

/-- After the board record's registers are written, those before its timing stand. -/
theorem reg_boarded_early {b : Board} {d : Dev} {a : Nat} (ha : a ∈ [clkCap.addr, undFill.addr, 0x10020]) :
    reg (boarded b d) a = reg (setReg (setFlds d [(clkCap, b.cap), (undFill, b.fill)]) 0x10020 (BitVec.ofNat 32 b.lock)) a := by
  have hset : a ∉ (boardSet b).map (·.1) := by
    rw [boardSet_keys]
    revert a
    decide
  have hxdiv : a ≠ clkXdiv.addr := by
    clear hset
    revert a
    decide
  rw [boarded, reg_setFld_other _ _ _ hxdiv, reg_of_regs (enforce_regs ..), setRegs_regsBut _ _ _ hset]
  rfl

theorem boarded_cap {b : Board} (h : b.cap < 4) (d : Dev) : fld (boarded b d) clkCap = b.cap := by
  rw [fld, reg_boarded_early (by decide)]
  rw [reg_setReg_other _ _ (by decide)]
  change fld (setFld (setFld d clkCap b.cap) undFill b.fill) clkCap = _
  rw [fld_setFld_other _ _ _ _ (by decide) (by decide), fld_setFld_same _ _ _ (by decide)]
  exact Nat.mod_eq_of_lt h

theorem boarded_fill {b : Board} (h : b.fill < 2 ^ 30) (d : Dev) : fld (boarded b d) undFill = b.fill := by
  rw [fld, reg_boarded_early (by decide)]
  rw [reg_setReg_other _ _ (by decide)]
  change fld (setFld (setFld d clkCap b.cap) undFill b.fill) undFill = _
  rw [fld_setFld_same _ _ _ (by decide)]
  exact Nat.mod_eq_of_lt h

theorem boarded_lock (b : Board) (d : Dev) :
    reg (boarded b d) 0x10020 = BitVec.ofNat 32 b.lock ∧ (boarded b d).live.get 0 0x10020 = BitVec.ofNat 32 b.lock := by
  refine ⟨(reg_boarded_early (by decide)).trans (reg_setReg_same ..), ?_⟩
  have hlive : (setRegs (setLive (setReg (setFlds d [(clkCap, b.cap), (undFill, b.fill)]) 0x10020 (BitVec.ofNat 32 b.lock)) 0x10020
      (BitVec.ofNat 32 b.lock)) (boardSet b)).live.get 0 0x10020 = BitVec.ofNat 32 b.lock := by
    rw [(setRegs_within _ _).only .live (by decide), setLive_live, Map.get_put_same]
  rw [boarded, setFld_live, enforce_live, if_neg (by decide), hlive]

theorem boarded_set {b : Board} (d : Dev) {x : Nat × Word} (hx : x ∈ boardSet b) :
    reg (boarded b d) x.1 = x.2 ∧ (boarded b d).live.get 0 x.1 = x.2 := by
  have hwrite {e : Dev} : reg (setRegs e (boardSet b)) x.1 = x.2 := reg_setRegs (by rw [boardSet_keys]; decide) hx
  have hxdiv : x.1 ≠ clkXdiv.addr := by
    have h := boardSet_enforced b x hx
    revert h
    generalize x.1 = a
    revert a
    decide
  constructor
  · rw [boarded, reg_setFld_other _ _ _ hxdiv, reg_of_regs (enforce_regs ..), hwrite]
  · rw [boarded, setFld_live, enforce_live, if_pos (boardSet_enforced b x hx), hwrite]

theorem readBoard_fits {nv : NonVol} {b : Board} (h : readBoard nv = some b) : b.cap ≤ 3 ∧ b.fill < 2 ^ 30 := by
  unfold readBoard at h
  generalize spiRead nv 0 4096 = r at h
  simp only [Option.ite_none_right_eq_some] at h
  obtain ⟨⟨-, -, -, -, -, hcap, -, -, -, hfill, -⟩, hb⟩ := h
  rw [← Option.some.inj hb]
  exact ⟨hcap, hfill⟩

/-- A board record in use, or the fallback, keeps to the widths of its fields. -/
theorem board_fits {nv : NonVol} {b : Board} (hb : b = (readBoard nv).getD Board.fallback) : b.cap < 4 ∧ b.fill < 2 ^ 30 := by
  cases hread : readBoard nv with
  | none => rw [hb, hread]; decide
  | some r =>
    rw [hb, hread, Option.getD_some]
    exact ⟨Nat.lt_succ_of_le (readBoard_fits hread).1, (readBoard_fits hread).2⟩

/-- The device whose clocks have just started, with the tag of its settings. -/
def clocked (tag : Nat) (d : Dev) : Dev :=
  setFld (setFlds { d with boot := 1, devTime := 0 } [(clkPllLock, 1), (clkAclk, 0)]) grvTag tag

theorem clocked_regsBut (tag : Nat) (d : Dev) : RegsBut [clkPllLock.addr, grvTag.addr] d (clocked tag d) :=
  (((setFlds_regsBut { d with boot := 1, devTime := 0 } [(clkPllLock, 1), (clkAclk, 0)]).mono (by decide)).via
    (setFld_regsBut _ grvTag tag) (by decide))

theorem clocked_within (tag : Nat) (d : Dev) : Within [.regs, .devTime, .boot] d (clocked tag d) :=
  .via (.via ((within_devTime_boot 0 1).mono rfl) (setFlds_within ..) rfl) (setFld_within ..) rfl

theorem clocked_pllLock (tag : Nat) (d : Dev) : fld (clocked tag d) clkPllLock = 1 := by
  change fld (setFld (setFld (setFld { d with boot := 1, devTime := 0 } clkPllLock 1) clkAclk 0) grvTag tag) clkPllLock = 1
  rw [fld_setFld_other _ _ _ _ (by decide) (by decide), fld_setFld_other _ _ _ _ (by decide) (by decide), fld_setFld_same _ _ _ (by decide)]
  rfl

theorem clocked_aclk (tag : Nat) (d : Dev) : fld (clocked tag d) clkAclk = 0 := by
  change fld (setFld (setFld (setFld { d with boot := 1, devTime := 0 } clkPllLock 1) clkAclk 0) grvTag tag) clkAclk = 0
  rw [fld_setFld_other _ _ _ _ (by decide) (by decide), fld_setFld_same _ _ _ (by decide), Nat.zero_mod]

theorem exec_pllLock {s : State} (hheld : s.dev.held = 0) (hboot : s.dev.boot = 0) :
    ∃ tag, exec .pllLock s = .next { s with dev := loadBoard s.nv (clocked tag s.dev) } :=
  by
  refine ⟨tupleTag s.nv (setFlds { s.dev with boot := 1, devTime := 0 } [(clkPllLock, 1), (clkAclk, 0)]), ?_⟩
  simp only [exec, execPllLock, hheld, hboot, and_self, if_true, clocked]

/-- Settles O14: the board record is loaded into the device whose clocks have started. -/
theorem pllLockStartsClocks : Obligations.PllLockStartsClocks := by
  unfold Obligations.PllLockStartsClocks
  intro s b hheld hboot hb
  obtain ⟨hcap, hfill⟩ := board_fits hb
  obtain ⟨tag, hexec⟩ := exec_pllLock hheld hboot
  obtain ⟨hload, hbad, hceil, hdens, htrip⟩ := loadBoard_spec hb (clocked tag s.dev)
  generalize loadBoard s.nv (clocked tag s.dev) = e at *
  have hpart := ((clocked_within tag s.dev).only.mono (l := [.regs, .live, .devTime, .boot]) rfl).via (boarded_within b _).only rfl
  have hregs := (boarded_regsBut b (clocked tag s.dev)).of_regs (hload .regs (by decide))
  have hfld (x : Fld) : fld e x = fld (boarded b (clocked tag s.dev)) x := fld_of_regs (hload .regs (by decide)) x
  have hreg (a : Nat) : reg e a = reg (boarded b (clocked tag s.dev)) a := reg_of_regs (hload .regs (by decide)) a
  have hlive : e.live = (boarded b (clocked tag s.dev)).live := hload .live (by decide)
  have hclock (x : Fld) (hx : x.addr = 0x10000) : fld e x = fld (clocked tag s.dev) x :=
    hregs.fld (by simp [hx, boardSet_keys, clkXdiv, clkCap, undFill])
  have hlock : fld e clkPllLock = 1 := (hclock clkPllLock rfl).trans (clocked_pllLock ..)
  have hlate : Only [.regs, .live, .clk] (clocked tag s.dev) e := ((boarded_within b _).only.mono rfl).via hload rfl
  refine ⟨e, hexec, (hpart.mono rfl).via hload rfl, hlate .boot (by decide), hlate .devTime (by decide), hlock,
    (hclock clkAclk rfl).trans (clocked_aclk ..), (hfld _).trans (boarded_cap hcap _), (hfld _).trans (boarded_fill hfill _),
    (hreg _).trans (boarded_lock b _).1, hlive ▸ (boarded_lock b _).2, fun x hx => ?_, hbad, hceil, hdens, ?_, fun hcool => ?_⟩
  · exact ⟨(hreg _).trans (boarded_set _ hx).1, hlive ▸ (boarded_set _ hx).2⟩
  · exact ((clocked_regsBut tag s.dev).mono (by simp [clkPllLock, grvTag])).trans (hregs.mono (by simp [boardSet_keys]))
  · have hheld' : e.held = 0 := (hlate .held (by decide)).trans hheld
    have htrip' : e.clk.trip = false := htrip.trans ((congrArg Clk.trip ((clocked_within tag s.dev).only .clk (by decide))).trans hcool)
    rw [alive, flag_iff.mpr hlock, hheld', htrip']
    rfl

/-! ## Firmware (R461, R463, R465, R521) -/

theorem preferredSlot_lt (nv : NonVol) : preferredSlot nv < 2 := by
  unfold preferredSlot
  split
  · next c _ =>
    cases hcopy : bootCopy nv c with
    | none => decide
    | some r =>
      unfold bootCopy at hcopy
      generalize spiRead nv (bootRec c) 32 = b at hcopy
      simp only [Option.ite_none_right_eq_some] at hcopy
      obtain ⟨⟨-, -, hslot⟩, hr⟩ := hcopy
      rw [← Option.some.inj hr]
      exact Nat.lt_succ_of_le hslot
  · decide

/-- An image that passes has a version of 8 bits. -/
theorem fwCheck_version {nv : NonVol} {b : Bytes} (h : fwCheck nv b = 0) : u32 b 8 < 256 := by
  unfold fwCheck at h
  dsimp only at h
  split at h
  · simp at h
  · next hform =>
    simp only [Bool.not_eq_true, Bool.not_eq_false', Bool.and_eq_true, decide_eq_true_eq] at hform
    omega

theorem fwCheck_lt (nv : NonVol) (b : Bytes) : fwCheck nv b < 16 := by
  unfold fwCheck
  dsimp only
  repeat' split
  all_goals decide

/-- The keys of active slots load when their hash agrees (R465). -/
theorem loadKeys_flag (nv : NonVol) (d : Dev) {k : Nat} (hk : k < 4) : flag (loadKeys nv d) (keyLoadedFld k) = slotKeyLoads nv k := by
  have hcert (e : Dev) (v : Nat) : flag (setFld e bootCertOk v) (keyLoadedFld k) = flag e (keyLoadedFld k) :=
    (setFld_regsBut e bootCertOk v).flag (by simp [keyLoadedFld, bootCertOk])
  have hsame (e : Dev) (i : Nat) (hi : i < 4) (b : Bool) : flag (setFld e (keyLoadedFld i) b.toNat) (keyLoadedFld i) = b :=
    flag_setFld_same _ _ _ (by simp only [keyLoadedFld]; omega) (by simp [keyLoadedFld])
  have hother (e : Dev) (i j : Nat) (hi : i < 4) (hij : j ≠ i) (v : Nat) : flag (setFld e (keyLoadedFld i) v) (keyLoadedFld j) = flag e (keyLoadedFld j) := by
    rw [flag, fld_setFld_other _ _ _ _ (by simp only [keyLoadedFld]; omega) (by simp only [keyLoadedFld]; omega)]; rfl
  unfold loadKeys
  simp only [List.range, List.range.loop, List.foldl_cons, List.foldl_nil, hcert]
  interval_cases k <;> simp [hsame, hother]

theorem loadKeys_regsBut (nv : NonVol) (d : Dev) : RegsBut [0x2010C, 0x20100] d (loadKeys nv d) := by
  have hkeys (l : List Nat) (e : Dev) : RegsBut [0x2010C, 0x20100] e (l.foldl (fun d s => setFld d (keyLoadedFld s) (slotKeyLoads nv s).toNat) e) := by
    induction l generalizing e with
    | nil => exact .refl _ _
    | cons i l ih => exact ((setFld_regsBut e (keyLoadedFld i) (slotKeyLoads nv i).toNat).mono (by simp [keyLoadedFld])).trans (ih _)
  exact (hkeys (List.range 4) d).via (setFld_regsBut _ bootCertOk (certOkAt nv).toNat) (by simp [bootCertOk])

section StartImage
variable (q : Nat) (s : State)

/-- The registers of the measurement of a started image. -/
def fwMeasRegs : List Nat := (List.range 12).map fwMeas

/-- The device of an image that starts: the slot's number, its version and its measurement are written, and step 5 of start-up begins. -/
theorem startImage_dev : ∃ d, Only [.regs] s.dev d ∧ RegsBut fwMeasRegs (setFlds s.dev [(bootSlot, q), (fwSvn, u32 (fwImage s.nv q) 8)]) d ∧
    (startImage q s).dev = progStart { d with boot := 2 } 5 0 4 := by
  unfold startImage fwMeasRegs
  generalize fwImage s.nv q = img
  dsimp only
  generalize sha384 img = m
  have hmeas (l : List Nat) (e : Dev) : RegsBut (l.map fwMeas) e (l.foldl (fun d i => setReg d (fwMeas i) (BitVec.ofNat 32 (u32 m (4 * i)))) e) := by
    induction l generalizing e with
    | nil => exact .refl _ _
    | cons i l ih => exact ((setReg_regsBut e (fwMeas i) _).mono (by simp)).trans ((ih _).mono (List.subset_cons_self ..))
  have honly : Only [.regs] s.dev ((List.range 12).foldl (fun d i => setReg d (fwMeas i) (BitVec.ofNat 32 (u32 m (4 * i))))
      (setFlds s.dev [(bootSlot, q), (fwSvn, u32 img 8)])) := (Within.foldl (setFlds_within ..) fun _ _ => setReg_within ..).only
  have hregs := hmeas (List.range 12) (setFlds s.dev [(bootSlot, q), (fwSvn, u32 img 8)])
  generalize (List.range 12).foldl (fun d i => setReg d (fwMeas i) (BitVec.ofNat 32 (u32 m (4 * i))))
    (setFlds s.dev [(bootSlot, q), (fwSvn, u32 img 8)]) = d at *
  exact ⟨d, honly, hregs, rfl⟩

theorem startImage_boot : (startImage q s).dev.boot = 2 := by
  obtain ⟨d, -, -, hd⟩ := startImage_dev q s
  rw [hd, progStart_boot]

theorem startImage_state : fld (startImage q s).dev ⟨progA 5, 8, 2⟩ = 1 := by
  obtain ⟨d, -, -, hd⟩ := startImage_dev q s
  rw [hd, progStart_state _ _ _ (by decide)]

theorem startImage_lastEv : (startImage q s).dev.root.lastEv = s.dev.root.lastEv := by
  obtain ⟨d, honly, -, hd⟩ := startImage_dev q s
  rw [hd, progStart, progSet_lastEv]
  exact congrArg Root.lastEv (honly .root (by decide))

theorem startImage_nv : (startImage q s).nv =
    { s.nv with fwCtr := if u16 (fwImage s.nv q) 6 = 1 then max s.nv.fwCtr (u32 (fwImage s.nv q) 8) else s.nv.fwCtr } := by
  unfold startImage
  generalize fwImage s.nv q = img
  dsimp only
  by_cases hup : u16 img 6 = 1
  · by_cases hlt : s.nv.fwCtr < u32 img 8
    · simp [hup, hlt, max_eq_right hlt.le]
    · simp [hup, hlt, max_eq_left (not_lt.mp hlt)]
  · simp [hup]

/-- The other registers of an image that starts stand as the slot's number and its version are written. -/
theorem startImage_regsBut : RegsBut (fwMeasRegs ++ [progA 5, progB 5]) (setFlds s.dev [(bootSlot, q), (fwSvn, u32 (fwImage s.nv q) 8)])
    (startImage q s).dev := by
  obtain ⟨d, -, hregs, hd⟩ := startImage_dev q s
  rw [hd]
  exact ((hregs.mono (List.subset_append_left ..)).of_regs (f := { d with boot := 2 }) rfl).via (progStart_regsBut _ 5 0 4) (List.subset_append_right ..)

end StartImage

section Firmware
variable {s : State} (hboot : s.dev.boot = 1)
include hboot

theorem firmwareStarted_preferred (h : fwCheck s.nv (fwImage s.nv (preferredSlot s.nv)) = 0) :
    firmwareStarted s = startImage (preferredSlot s.nv) { s with dev := loadKeys s.nv s.dev } := by
  simp only [firmwareStarted, hboot, h, ne_eq, not_true_eq_false, if_false, if_true]

/-- The registers of boot after slot `p` has failed with `e`. -/
def slotFailed (p e : Nat) (d : Dev) : Dev := setFlds d [(bootFail p, e), (bootFallback, 1)]

theorem firmwareStarted_fallback {e : Nat} (he : fwCheck s.nv (fwImage s.nv (preferredSlot s.nv)) = e) (h0 : e ≠ 0)
    (h : fwCheck s.nv (fwImage s.nv (1 - preferredSlot s.nv)) = 0) :
    firmwareStarted s = startImage (1 - preferredSlot s.nv)
      { s with dev := raise (slotFailed (preferredSlot s.nv) e (loadKeys s.nv s.dev)) 0x0714 0 1 e } := by
  simp only [firmwareStarted, hboot, he, h, h0, ne_eq, not_true_eq_false, if_false, if_true, slotFailed]

/-- The registers of recovery, after slot `q` has failed with `f` too. -/
def recovered (q f : Nat) (d : Dev) : Dev := setReg (setFlds { d with boot := 5 } [(bootFail q, f), (bootRecovery, 1)]) 0x1B0090 0

theorem firmwareStarted_recovery {e f : Nat} (he : fwCheck s.nv (fwImage s.nv (preferredSlot s.nv)) = e) (h0 : e ≠ 0)
    (hf : fwCheck s.nv (fwImage s.nv (1 - preferredSlot s.nv)) = f) (h1 : f ≠ 0) :
    firmwareStarted s = { s with
      dev := recovered (1 - preferredSlot s.nv) f (slotFailed (preferredSlot s.nv) e (loadKeys s.nv s.dev)) } := by
  simp only [firmwareStarted, hboot, he, hf, h0, h1, ne_eq, not_true_eq_false, if_false, slotFailed, recovered]

end Firmware

theorem slotFailed_regsBut (p e : Nat) (d : Dev) : RegsBut [0x20100] d (slotFailed p e d) :=
  (setFlds_regsBut d [(bootFail p, e), (bootFallback, 1)]).mono (by simp [bootFail, bootFallback])

theorem slotFailed_fld {p e : Nat} (hp : p < 2) (he : e < 16) (d : Dev) :
    fld (slotFailed p e d) (bootFail p) = e ∧ fld (slotFailed p e d) bootFallback = 1 := by
  change fld (setFld (setFld d (bootFail p) e) bootFallback 1) _ = e ∧ fld (setFld (setFld d (bootFail p) e) bootFallback 1) _ = 1
  refine ⟨?_, fld_setFld_same _ _ _ (by decide)⟩
  rw [fld_setFld_other _ _ _ _ (by decide) (by simp only [bootFail, bootFallback]; omega),
    fld_setFld_same _ _ _ (by simp only [bootFail]; omega)]
  exact Nat.mod_eq_of_lt he

theorem recovered_regsBut (q f : Nat) (d : Dev) : RegsBut [0x20100, 0x1B0090] d (recovered q f d) := by
  have h1 : RegsBut [0x20100, 0x1B0090] d (setFlds { d with boot := 5 } [(bootFail q, f), (bootRecovery, 1)]) :=
    (setFlds_regsBut { d with boot := 5 } [(bootFail q, f), (bootRecovery, 1)]).mono (by simp [bootFail, bootRecovery])
  exact h1.via (setReg_regsBut _ _ _) (by simp)

theorem recovered_fld {p q f : Nat} (hp : p < 2) (hq : q = 1 - p) (hf : f < 16) (d : Dev) :
    fld (recovered q f d) bootRecovery = 1 ∧ fld (recovered q f d) (bootFail q) = f ∧ fld (recovered q f d) (bootFail p) = fld d (bootFail p) := by
  have hlast (x : Fld) (hx : x.addr = 0x20100) : fld (recovered q f d) x = fld (setFld (setFld { d with boot := 5 } (bootFail q) f) bootRecovery 1) x :=
    fld_of_reg (reg_setReg_other _ _ (by rw [hx]; decide))
  refine ⟨?_, ?_, ?_⟩ <;> rw [hlast _ rfl]
  · exact fld_setFld_same _ _ _ (by decide)
  · rw [fld_setFld_other _ _ _ _ (by decide) (by simp only [bootFail, bootRecovery]; omega),
      fld_setFld_same _ _ _ (by simp only [bootFail]; omega)]
    exact Nat.mod_eq_of_lt hf
  · rw [fld_setFld_other _ _ _ _ (by decide) (by simp only [bootFail, bootRecovery]; omega),
      fld_setFld_other _ _ _ _ (by simp only [bootFail]; omega) (by simp only [bootFail]; omega)]
    rfl

/-- What every started image shows. -/
theorem startImage_fields {q : Nat} {s : State} (hq : q < 2) (hver : u32 (fwImage s.nv q) 8 < 256) :
    fld (startImage q s).dev bootSlot = q ∧ fld (startImage q s).dev fwSvn = u32 (fwImage s.nv q) 8 := by
  have hregs := startImage_regsBut q s
  rw [hregs.fld (x := bootSlot) (by decide), hregs.fld (x := fwSvn) (by decide)]
  generalize u32 (fwImage s.nv q) 8 = v at *
  change fld (setFld (setFld s.dev bootSlot q) fwSvn v) bootSlot = q ∧ fld (setFld (setFld s.dev bootSlot q) fwSvn v) fwSvn = v
  rw [fld_setFld_other _ _ _ _ (by decide) (by decide), fld_setFld_same _ _ _ (by decide), fld_setFld_same _ _ _ (by decide)]
  exact ⟨Nat.mod_eq_of_lt hq, Nat.mod_eq_of_lt hver⟩

/-- What stands of the fields of boot as an image starts. -/
theorem startImage_keeps {q : Nat} {s : State} {x : Fld} (hx : x.addr = 0x20100 ∨ x.addr = 0x2010C) (hlo : 1 ≤ x.lo) :
    fld (startImage q s).dev x = fld s.dev x := by
  have hnot : x.addr ∉ fwMeasRegs ++ [progA 5, progB 5] := by rcases hx with hx | hx <;> rw [hx] <;> decide
  rw [(startImage_regsBut q s).fld hnot]
  generalize u32 (fwImage s.nv q) 8 = v
  refine fld_setFlds_other _ _ _ ?_
  simp only [List.mem_cons, List.not_mem_nil, or_false, forall_eq_or_imp, forall_eq, bootSlot, fwSvn]
  omega

/-- What a started image shows, whatever device it starts in. -/
theorem startImage_next {q : Nat} {s : State} {d : Dev} (hd : Only [.regs, .boot, .usb, .root] s.dev d) (hq : q < 2)
    (hver : u32 (fwImage s.nv q) 8 < 256) :
    let t := startImage q { s with dev := d }
    t.pending = s.pending ∧ Only [.regs, .boot, .usb, .root] s.dev t.dev ∧
      t.nv = { s.nv with fwCtr := if u16 (fwImage s.nv q) 6 = 1 then max s.nv.fwCtr (u32 (fwImage s.nv q) 8) else s.nv.fwCtr } ∧
      t.dev.boot = 2 ∧ fld t.dev bootSlot = q ∧ fld t.dev fwSvn = u32 (fwImage s.nv q) 8 ∧ fld t.dev ⟨progA 5, 8, 2⟩ = 1 := by
  have hpending := startImage_pending q { s with dev := d }
  have honly := (startImage_within q { s with dev := d }).only
  have hnv := startImage_nv q { s with dev := d }
  have hboot := startImage_boot q { s with dev := d }
  obtain ⟨hslot, hsvn⟩ := startImage_fields (q := q) (s := { s with dev := d }) hq hver
  have hstate := startImage_state q { s with dev := d }
  exact ⟨hpending, hd.via honly (by decide), hnv, hboot, hslot, hsvn, hstate⟩

theorem exec_firmwareStarted {s : State} (h : alive s.dev = true) : exec .firmwareStarted s = .next (firmwareStarted s) :=
  congrArg Host.Outcome.next (if_pos h)

theorem loadKeys_only (nv : NonVol) (d : Dev) : Only [.regs, .boot, .usb, .root] d (loadKeys nv d) := (loadKeys_within nv d).only.mono (by decide)

theorem slotFailed_within (p e : Nat) (d : Dev) : Within [.regs] d (slotFailed p e d) := setFlds_within ..

theorem recovered_within (q f : Nat) (d : Dev) : Within [.regs, .boot] d (recovered q f d) := by
  have hboot : Within [.regs, .boot] d { d with boot := 5 } := ⟨fun p hp => by cases p <;> simp_all [Part.same], id, id⟩
  exact (hboot.via (setFlds_within _ _) (by decide)).via (setReg_within ..) (by decide)

/-- The device in which the other slot starts, after the preferred one has failed with `e`. -/
def fallbackDev (nv : NonVol) (p e : Nat) (d : Dev) : Dev := raise (slotFailed p e (loadKeys nv d)) 0x0714 0 1 e

theorem fallbackDev_only (nv : NonVol) (p e : Nat) (d : Dev) : Only [.regs, .boot, .usb, .root] d (fallbackDev nv p e d) :=
  ((loadKeys_only nv d).via (slotFailed_within ..).only (by decide)).via (raise_within_of_unit (.inl (by decide)) 0x0714 1 e).only (by decide)

/-- The failure of the preferred slot is recorded and reported. -/
theorem fallbackDev_shows (nv : NonVol) {p e : Nat} (hp : p < 2) (he : e < 16) (d : Dev) :
    fld (fallbackDev nv p e d) bootFallback = 1 ∧ fld (fallbackDev nv p e d) (bootFail p) = e ∧ Raised 0x0714 0 1 e d (fallbackDev nv p e d) := by
  have hraise := raise_regsBut (slotFailed p e (loadKeys nv d)) 0x0714 0 1 e
  obtain ⟨hfail, hfall⟩ := slotFailed_fld hp he (loadKeys nv d)
  have htime : (slotFailed p e (loadKeys nv d)).devTime = d.devTime :=
    ((loadKeys_only nv d).via (slotFailed_within ..).only (by decide)) .devTime (by decide)
  have hraised := raise_raised (slotFailed p e (loadKeys nv d)) 0x0714 0 1 (arg := e) (by omega)
  refine ⟨?_, ?_, ?_⟩
  · exact (hraise.fld (by decide)).trans hfall
  · exact (hraise.fld (by simp [bootFail, aEvtLost])).trans hfail
  · rw [Raised, ← htime]; exact hraised

theorem exec_fallback_image {s : State} {p : Nat} (halive : alive s.dev = true) (hboot : s.dev.boot = 1) (hp : p = preferredSlot s.nv)
    (he : fwCheck s.nv (fwImage s.nv p) ≠ 0) (hf : fwCheck s.nv (fwImage s.nv (1 - p)) = 0) :
    exec .firmwareStarted s = .next (startImage (1 - p) { s with dev := fallbackDev s.nv p (fwCheck s.nv (fwImage s.nv p)) s.dev }) := by
  subst hp
  exact (exec_firmwareStarted halive).trans (congrArg Host.Outcome.next (firmwareStarted_fallback hboot rfl he hf))

theorem exec_preferred_image {s : State} {p : Nat} (halive : alive s.dev = true) (hboot : s.dev.boot = 1) (hp : p = preferredSlot s.nv)
    (he : fwCheck s.nv (fwImage s.nv p) = 0) : exec .firmwareStarted s = .next (startImage p { s with dev := loadKeys s.nv s.dev }) := by
  subst hp
  exact (exec_firmwareStarted halive).trans (congrArg Host.Outcome.next (firmwareStarted_preferred hboot he))

/-- The device of recovery, after both slots have failed. -/
def recoveryDev (nv : NonVol) (p e f : Nat) (d : Dev) : Dev := recovered (1 - p) f (slotFailed p e (loadKeys nv d))

theorem exec_recovery {s : State} {p : Nat} (halive : alive s.dev = true) (hboot : s.dev.boot = 1) (hp : p = preferredSlot s.nv)
    (he : fwCheck s.nv (fwImage s.nv p) ≠ 0) (hf : fwCheck s.nv (fwImage s.nv (1 - p)) ≠ 0) :
    exec .firmwareStarted s = .next { s with
      dev := recoveryDev s.nv p (fwCheck s.nv (fwImage s.nv p)) (fwCheck s.nv (fwImage s.nv (1 - p))) s.dev } := by
  subst hp
  exact (exec_firmwareStarted halive).trans (congrArg Host.Outcome.next (firmwareStarted_recovery hboot rfl he rfl hf))

theorem recoveryDev_only (nv : NonVol) (p e f : Nat) (d : Dev) : Only [.regs, .boot] d (recoveryDev nv p e f d) :=
  (((loadKeys_within nv d).only.mono (by decide)).via (slotFailed_within ..).only (by decide)).via (recovered_within ..).only (by decide)

theorem recovered_boot (q f : Nat) (d : Dev) : (recovered q f d).boot = 5 := by rw [recovered, setReg_boot, setFlds_boot]

theorem recoveryDev_shows (nv : NonVol) {p e f : Nat} (hp : p < 2) (he : e < 16) (hf : f < 16) (d : Dev) :
    (recoveryDev nv p e f d).boot = 5 ∧ fld (recoveryDev nv p e f d) bootRecovery = 1 ∧ fld (recoveryDev nv p e f d) (bootFail p) = e ∧
      fld (recoveryDev nv p e f d) (bootFail (1 - p)) = f := by
  obtain ⟨hrec, hq, hkeep⟩ := recovered_fld (q := 1 - p) hp rfl hf (slotFailed p e (loadKeys nv d))
  exact ⟨recovered_boot _ _ _, hrec, hkeep.trans (slotFailed_fld hp he (loadKeys nv d)).1, hq⟩

/-- The key flags stand as keys were loaded through what follows in FIRMWARE_STARTED. -/
theorem keyLoaded_addr (k : Nat) : (keyLoadedFld k).addr = 0x2010C := rfl

theorem slotFailed_key (p e : Nat) (d : Dev) (k : Nat) : flag (slotFailed p e d) (keyLoadedFld k) = flag d (keyLoadedFld k) :=
  (slotFailed_regsBut p e d).flag (by rw [keyLoaded_addr]; decide)

theorem startImage_key (q : Nat) (s : State) (k : Nat) (hk : k < 4) :
    flag (startImage q s).dev (keyLoadedFld k) = flag s.dev (keyLoadedFld k) := by
  rw [flag, startImage_keeps (.inr (keyLoaded_addr k)) (by simp only [keyLoadedFld]; omega)]; rfl

/-- Whatever becomes of the slots, the keys are those of `loadKeys`. -/
theorem firmwareStarted_keys {s : State} (hboot : s.dev.boot = 1) {k : Nat} (hk : k < 4) :
    flag (firmwareStarted s).dev (keyLoadedFld k) = slotKeyLoads s.nv k := by
  have hload := loadKeys_flag s.nv s.dev hk
  have hfail (p e : Nat) : flag (slotFailed p e (loadKeys s.nv s.dev)) (keyLoadedFld k) = slotKeyLoads s.nv k :=
    (slotFailed_key p e _ k).trans hload
  by_cases h0 : fwCheck s.nv (fwImage s.nv (preferredSlot s.nv)) = 0
  · rw [firmwareStarted_preferred hboot h0]
    exact (startImage_key _ _ k hk).trans hload
  by_cases h1 : fwCheck s.nv (fwImage s.nv (1 - preferredSlot s.nv)) = 0
  · rw [firmwareStarted_fallback hboot rfl h0 h1]
    refine (startImage_key _ _ k hk).trans (((raise_regsBut _ 0x0714 0 1 _).flag ?_).trans (hfail _ _))
    rw [keyLoaded_addr]; decide
  · rw [firmwareStarted_recovery hboot rfl h0 rfl h1]
    refine ((recovered_regsBut _ _ _).flag ?_).trans (hfail _ _)
    rw [keyLoaded_addr]; decide

/-- Settles O22. The three ends of FIRMWARE_STARTED are those of `exec_preferred_image`, `exec_fallback_image` and `exec_recovery`. -/
theorem firmwareStartsOrRecovers : Obligations.FirmwareStartsOrRecovers := by
  unfold Obligations.FirmwareStartsOrRecovers
  refine ⟨fun s p q img halive hboot hp hq => ⟨fun r hr himg => ?_, fun he hf => ?_⟩, fun s halive hboot => ?_⟩
  · have hp2 : p < 2 := hp ▸ preferredSlot_lt s.nv
    subst himg hq
    rcases hr with ⟨rfl, h0⟩ | ⟨rfl, h0, h1⟩
    · obtain ⟨hpend, honly, hnv, hb, hslot, hsvn, hstate⟩ := startImage_next (loadKeys_only s.nv s.dev) hp2 (fwCheck_version h0)
      refine ⟨_, exec_preferred_image halive hboot hp h0, hpend, honly, hnv, hb, hslot, hsvn, hstate, fun hrq => ?_⟩
      omega
    · have he := fwCheck_lt s.nv (fwImage s.nv p)
      have hexec := exec_fallback_image halive hboot hp h0 h1
      generalize fwCheck s.nv (fwImage s.nv p) = e at *
      obtain ⟨hpend, honly, hnv, hb, hslot, hsvn, hstate⟩ :=
        startImage_next (q := 1 - p) (fallbackDev_only s.nv p e s.dev) (by omega) (fwCheck_version h1)
      obtain ⟨hfall, hfail, hraised⟩ := fallbackDev_shows s.nv hp2 he s.dev
      refine ⟨_, hexec, hpend, honly, hnv, hb, hslot, hsvn, hstate, fun _ => ⟨?_, ?_, ?_⟩⟩
      · exact (startImage_keeps (.inl rfl) (by decide)).trans hfall
      · exact (startImage_keeps (.inl rfl) (by simp only [bootFail]; omega)).trans hfail
      · exact (startImage_lastEv _ _).trans hraised
  · subst hq
    obtain ⟨hb, hrest⟩ := recoveryDev_shows s.nv (hp ▸ preferredSlot_lt s.nv) (fwCheck_lt s.nv (fwImage s.nv p))
      (fwCheck_lt s.nv (fwImage s.nv (1 - p))) s.dev
    exact ⟨_, exec_recovery halive hboot hp he hf, recoveryDev_only _ _ _ _ _, hb, hrest⟩
  · have honly := (firmwareStarted_runs s).within.only
    exact ⟨_, exec_firmwareStarted halive, honly .live (by decide), honly .clk (by decide), fun k hk => firmwareStarted_keys hboot hk⟩

end Sys2Proof.Machine
end

section
/-! PROOF. The host's Ring commands (R239 to R241, R264, R432). -/

namespace Sys2Proof.Machine

/-! ## Values of Rings -/

theorem ringVal_ringPut (d : Dev) (r v q : Nat) : ringVal (ringPut d r v) q = if q = r then v % 2 ^ 32 else ringVal d q := by
  unfold ringVal ringPut
  rw [Map.get_put]
  split
  · exact BitVec.toNat_ofNat ..
  · rfl

theorem ringVal_ringInc (d : Dev) (r v q : Nat) :
    ringVal (ringInc d r v) q = if q = r then (ringVal d q + v) % 2 ^ 32 else ringVal d q := by
  rw [ringInc, ringVal_ringPut]
  split
  · next h => rw [h]
  · rfl

theorem ringVal_of_ring {d e : Dev} (h : e.ring = d.ring) (q : Nat) : ringVal e q = ringVal d q := by rw [ringVal, h]; rfl

theorem ringVal_complete (d : Dev) (key st : Nat) (p : Bytes) (q : Nat) : ringVal (complete d key st p) q = ringVal d q :=
  ringVal_of_ring (complete_ring ..) q

theorem ringVal_addTag (d : Dev) (h : Hdr) (k : Nat) (w : Bool) (r : Nat) : ringVal (addTag d h k w) r = ringVal d r := rfl

/-! ## RING_ADD and RING_SET -/

theorem hostRingAdd_ok {d : Dev} {r a : Nat} (key : Nat) (hw : hostMayWrite d r = true) (ha : amountOk a = true) :
    hostRingAdd r a key d = complete (ringInc d r a) key stOk [] := if_pos (by rw [hw, ha]; rfl)

theorem hostRingAdd_bad {d : Dev} {r a : Nat} (key : Nat) (h : hostMayWrite d r = false ∨ amountOk a = false) :
    hostRingAdd r a key d = complete d key stBadArg [] := if_neg (by rcases h with h | h <;> simp [h])

theorem hostRingSet_ok {w : Dev → Nat → Nat} {d : Dev} {r : Nat} (v key : Nat) (hw : hostMayWrite d r = true) (h0 : w d r = 0) :
    hostRingSet w r v key d = complete (ringPut d r v) key stOk [] := by simp [hostRingSet, hw, h0]

theorem hostRingSet_busy {w : Dev → Nat → Nat} {d : Dev} {r : Nat} (v key : Nat) (hw : hostMayWrite d r = true) (h0 : w d r ≠ 0) :
    hostRingSet w r v key d = complete d key stBusy [] := by simp [hostRingSet, hw, h0]

theorem hostRingSet_bad {w : Dev → Nat → Nat} {d : Dev} {r : Nat} (v key : Nat) (hw : hostMayWrite d r = false) :
    hostRingSet w r v key d = complete d key stBadArg [] := by simp [hostRingSet, hw]

theorem ringAddRegOp_ok {d : Dev} {v : Word} (hw : hostMayWrite d (fld d ringSel) = true) (ha : amountOk v.toNat = true) :
    ringAddRegOp v d = ringInc d (fld d ringSel) v.toNat := if_pos (by rw [hw, ha]; rfl)

theorem ringAddRegOp_bad {d : Dev} {v : Word} (h : hostMayWrite d (fld d ringSel) = false ∨ amountOk v.toNat = false) :
    ringAddRegOp v d = d := if_neg (by rcases h with h | h <;> simp [h])

theorem ringSetRegOp_ok {d : Dev} {v : Word} (hw : hostMayWrite d (fld d ringSel) = true) (h0 : ringWaiters d (fld d ringSel) = 0) :
    ringSetRegOp v d = ringPut d (fld d ringSel) v.toNat := if_pos (by simp [hw, h0])

theorem ringSetRegOp_bad {d : Dev} {v : Word} (h : hostMayWrite d (fld d ringSel) = false ∨ ringWaiters d (fld d ringSel) ≠ 0) :
    ringSetRegOp v d = d := if_neg (by rcases h with h | h <;> simp [h])

/-- Settles O20. -/
theorem hostAddsToAndSetsRings : Obligations.HostAddsToAndSetsRings := by
  unfold Obligations.HostAddsToAndSetsRings
  refine ⟨fun h r v s hlen => ⟨fun hr hw ha => ?_, fun hr hbad => ?_, fun hr hw hn => ?_, fun hr hw hn => ?_, fun hr hw => ?_⟩,
    fun v s halive => ⟨fun hw ha => ?_, fun hbad => ?_, fun hw hn => ?_, fun hbad => ?_⟩⟩
  · refine does_complete (ringInc (addTag s.dev h 0 false) r.toNat v.toNat) rfl hr (decide_eq_true hlen) (hostRingAdd_ok _ hw ha) (by decide)
      ((ringPut_within ..).only.mono (by decide)) rfl fun hans => ⟨hans, by rw [complete_ring]; rfl, fun q => ?_⟩
    rw [ringVal_complete, ringVal_ringInc]; rfl
  · exact does_answer rfl hr (decide_eq_true hlen) (hostRingAdd_bad _ hbad)
  · refine does_complete (ringPut (addTag s.dev h 0 false) r.toNat v.toNat) rfl hr (decide_eq_true hlen) (hostRingSet_ok _ _ hw hn) (by decide)
      ((ringPut_within ..).only.mono (by decide)) rfl fun hans => ⟨hans, by rw [complete_ring]; rfl, fun q => ?_⟩
    rw [ringVal_complete, ringVal_ringPut, Nat.mod_eq_of_lt v.isLt]; rfl
  · exact does_answer rfl hr (decide_eq_true hlen) (hostRingSet_busy _ _ hw hn)
  · exact does_answer rfl hr (decide_eq_true hlen) (hostRingSet_bad _ _ hw)
  · have he := ringAddRegOp_ok hw ha
    refine does_onDev _ rfl halive (he ▸ (ringPut_within ..).only) (he ▸ ⟨rfl, fun q => ?_⟩)
    exact ringVal_ringInc ..
  · have he := ringAddRegOp_bad hbad
    exact does_onDev _ rfl halive (he.symm ▸ Only.refl _ _) trivial
  · have he := ringSetRegOp_ok (v := v) hw hn
    refine does_onDev _ rfl halive (he ▸ (ringPut_within ..).only) (he ▸ ⟨rfl, fun q => ?_⟩)
    rw [ringVal_ringPut, Nat.mod_eq_of_lt v.isLt]
  · have he := ringSetRegOp_bad (v := v) hbad
    exact does_onDev _ rfl halive (he.symm ▸ Only.refl _ _) trivial

/-! ## Waits and held Rings -/

theorem hostRingWait_bad {d : Dev} {r : Nat} (t ms key : Nat) (h : ringKind d r = 0 ∨ isValidRing d r = true) :
    hostRingWait r t ms key d = complete d key stBadArg [] := if_pos (by simpa using h)

theorem hostRingWait_met {d : Dev} {r t : Nat} (ms key : Nat) (hk : ringKind d r ≠ 0) (hv : isValidRing d r = false)
    (hm : waitGe (ringVal d r) t = true) : hostRingWait r t ms key d = complete d key stOk (le 4 (ringVal d r)) := by
  simp [hostRingWait, hk, hv, hm]

theorem hostRingWait_waits {d : Dev} {r t : Nat} (ms key : Nat) (hk : ringKind d r ≠ 0) (hv : isValidRing d r = false)
    (hm : waitGe (ringVal d r) t = false) : hostRingWait r t ms key d = { d with usb := { d.usb with waits := d.usb.waits ++
      [{ tag := key, ring := r, target := t, deadline := if ms = 0 then none else some (d.devTime.toNat + ms * 1000000) }] } } := by
  simp [hostRingWait, hk, hv, hm]

/-- A wait that ends: it is forgotten and its request completes. -/
theorem complete_dropWait {d : Dev} {w : HostWait} {t : TagRec} (st : Nat) (p : Bytes)
    (ht : d.usb.tags.find? (fun t => t.tag == w.tag && !t.done) = some t) :
    (complete (dropWait d w.tag) w.tag st p).usb.waits = d.usb.waits.filter (fun x => x.tag != w.tag) ∧
      (complete (dropWait d w.tag) w.tag st p).usb.ep1in = d.usb.ep1in ++ [{ tag := w.tag % 65536, addr := t.addr, status := st, payload := p }] := by
  rw [complete_found st p (d := dropWait d w.tag) ht]
  exact ⟨rfl, rfl⟩

theorem complete_dropWait_only (d : Dev) (w : HostWait) (st : Nat) (p : Bytes) : Only [.usb] d (complete (dropWait d w.tag) w.tag st p) :=
  ((dropWait_within d w.tag).trans (complete_within ..)).only

theorem ringWaitMetOp_met {d : Dev} {tag : BitVec 16} {w : HostWait} (hf : d.usb.waits.find? (fun w => w.tag == tagKey d tag) = some w)
    (hm : waitGe (ringVal d w.ring) w.target = true) :
    ringWaitMetOp tag d = complete (dropWait d w.tag) w.tag stOk (le 4 (ringVal d w.ring)) := by
  unfold ringWaitMetOp; rw [hf]; exact if_pos hm

theorem ringWaitTimeoutOp_due {d : Dev} {tag : BitVec 16} {w : HostWait} (hf : d.usb.waits.find? (fun w => w.tag == tagKey d tag) = some w)
    (hm : (∃ u, w.deadline = some u ∧ u ≤ d.devTime.toNat) ∨ ringKind d w.ring = 0) :
    ringWaitTimeoutOp tag d = complete (dropWait d w.tag) w.tag stTimeout [] := by
  unfold ringWaitTimeoutOp; rw [hf]
  refine if_pos ?_
  rcases hm with ⟨u, hu, hle⟩ | hk
  · simp [hu, hle]
  · simp [hk]

/-- The first free number is the one that a search from 0x0400 finds. -/
theorem find_ringFreeNumber {d : Dev} {i : Nat} (hi : i < 0xFC00) (h : ringFreeNumber d (0x400 + i) = true)
    (hlo : ∀ j, j < i → ringFreeNumber d (0x400 + j) = false) :
    (List.range 0xFC00).find? (fun i => ringFreeNumber d (0x400 + i)) = some i := by
  rw [List.find?_range_eq_some]
  exact ⟨h, List.mem_range.mpr hi, fun j hj => by simp [hlo j hj]⟩

/-- The device in which a Ring is held or given back: its value is 0. -/
def holdRings (held : List Nat) (r : Nat) (d : Dev) : Dev := ringPut { d with ring := { d.ring with held } } r 0

theorem holdRings_within (held : List Nat) (r : Nat) (d : Dev) : Within [.ring] d (holdRings held r d) :=
  (within_ring _).trans (ringPut_within ..)

theorem ringVal_holdRings (held : List Nat) (r : Nat) (d : Dev) (q : Nat) : ringVal (holdRings held r d) q = if q = r then 0 else ringVal d q :=
  ringVal_ringPut ..

theorem hostRingAlloc_ok {d : Dev} {i : Nat} (key : Nat) (hlen : d.ring.held.length < 256)
    (hf : (List.range 0xFC00).find? (fun i => ringFreeNumber d (0x400 + i)) = some i) :
    hostRingAlloc key d = complete (holdRings (d.ring.held ++ [0x400 + i]) (0x400 + i) d) key stOk (le 2 (0x400 + i)) := by
  unfold hostRingAlloc; rw [if_neg (by omega), hf]; rfl

theorem hostRingFree_ok {w : Dev → Nat → Nat} {d : Dev} {r : Nat} (key : Nat) (hh : d.ring.held.contains r = true) (h0 : w d r = 0) :
    hostRingFree w r key d = complete (holdRings (d.ring.held.filter (· != r)) r d) key stOk [] := by
  simp [hostRingFree, List.contains_iff_mem.mp hh, h0, holdRings]

theorem hostRingFree_busy {w : Dev → Nat → Nat} {d : Dev} {r : Nat} (key : Nat) (hh : d.ring.held.contains r = true) (h0 : w d r ≠ 0) :
    hostRingFree w r key d = complete d key stBusy [] := by simp [hostRingFree, List.contains_iff_mem.mp hh, h0]

theorem hostRingFree_bad {w : Dev → Nat → Nat} {d : Dev} {r : Nat} (key : Nat) (hh : d.ring.held.contains r = false) :
    hostRingFree w r key d = complete d key stBadArg [] := if_pos (by rw [hh]; rfl)

/-- A completion after a Ring has been taken or given back. -/
theorem does_holdRings {i : Instr} {s : State} {h : Hdr} {type : Nat} {ok : Bool} {body : Nat → Dev → Dev} {p : Bytes} (held : List Nat)
    (r : Nat) (he : exec i s = onDev s (request i h 0 type ok body)) (hr : Ready s.dev h 0 type) (hok : ok = true)
    (hb : body (tagKey s.dev h.tag) (addTag s.dev h 0 false) =
      complete (holdRings held r (addTag s.dev h 0 false)) (tagKey s.dev h.tag) stOk p) :
    Does i s [.usb, .ring] (fun e => Answered h stOk p s.dev e ∧ e.ring.held = held ∧
      ∀ q, ringVal e q = if q = r then 0 else ringVal s.dev q) := by
  refine does_complete _ he hr hok hb (by decide) ((holdRings_within ..).only.mono (by decide)) rfl fun hans =>
    ⟨hans, by rw [complete_ring]; rfl, fun q => ?_⟩
  rw [ringVal_complete, ringVal_holdRings, ringVal_addTag]

/-- Settles O21. -/
theorem ringWaitsEndAndRingsAreHeld : Obligations.RingWaitsEndAndRingsAreHeld := by
  unfold Obligations.RingWaitsEndAndRingsAreHeld
  refine ⟨fun h r t ms s hr hlen => ⟨fun hbad => ?_, fun hk hv hm => ?_, fun hk hv hm => ?_⟩,
    fun tag w t s halive hw ht => ⟨fun hm => ?_, fun hdue => ?_⟩,
    fun h i s hr hlen hroom hi hfree hlo => ?_, fun h s hr hlen hfull => ?_,
    fun h r s hr hlen => ⟨fun hh h0 => ?_, fun hh h0 => ?_, fun hh => ?_⟩⟩
  · exact does_answer rfl hr (decide_eq_true hlen) (hostRingWait_bad _ _ _ hbad)
  · exact does_answer rfl hr (decide_eq_true hlen) (hostRingWait_met _ _ hk hv hm)
  · exact does_request _ rfl hr (decide_eq_true hlen) (hostRingWait_waits _ _ hk hv hm)
      (((addTag_within ..).trans (within_usb _)).only) rfl
  · have he := ringWaitMetOp_met hw hm
    exact does_onDev _ rfl halive (he ▸ complete_dropWait_only _ _ _ _) (he ▸ complete_dropWait _ _ ht)
  · have he := ringWaitTimeoutOp_due hw hdue
    exact does_onDev _ rfl halive (he ▸ complete_dropWait_only _ _ _ _) (he ▸ complete_dropWait _ _ ht)
  · exact does_holdRings _ _ rfl hr (decide_eq_true hlen)
      (hostRingAlloc_ok _ hroom (find_ringFreeNumber hi hfree hlo))
  · exact does_answer rfl hr (decide_eq_true hlen) (if_pos hfull)
  · exact does_holdRings _ _ rfl hr (decide_eq_true hlen) (hostRingFree_ok _ hh h0)
  · exact does_answer rfl hr (decide_eq_true hlen) (hostRingFree_busy _ hh h0)
  · exact does_answer rfl hr (decide_eq_true hlen) (hostRingFree_bad _ hh)

end Sys2Proof.Machine
end

section
/-! PROOF. The host's accesses to memory: runs of bytes page by page, the checks of a request, the bytes that EP2 IN carries (R84, R429 to
R431, R443). -/

namespace Sys2Proof.Machine

/-! ## A run of bytes, page by page -/

/-- A part lies in its page and in the run. -/
theorem mem_pageParts {fuel a n : Nat} {p : Nat × Nat × Nat} (h : p ∈ pageParts fuel a n) :
    a ≤ p.1 * 0x10000 + p.2.1 ∧ p.1 * 0x10000 + p.2.1 + p.2.2 ≤ a + n ∧ 0 < p.2.2 ∧ p.2.1 + p.2.2 ≤ 0x10000 := by
  induction fuel generalizing a n with
  | zero => simp [pageParts] at h
  | succ fuel ih =>
    unfold pageParts at h
    split at h
    · simp at h
    · next hn =>
      rcases List.mem_cons.mp h with rfl | h
      · dsimp only
        omega
      · have := ih h
        omega

theorem mem_partsOf {a n : Nat} {p : Nat × Nat × Nat} (h : p ∈ partsOf a n) :
    a ≤ p.1 * 0x10000 + p.2.1 ∧ p.1 * 0x10000 + p.2.1 + p.2.2 ≤ a + n ∧ 0 < p.2.2 ∧ p.2.1 + p.2.2 ≤ 0x10000 := mem_pageParts h

/-- The page of a part is one of those that the run meets. -/
theorem page_of_mem_partsOf {a n : Nat} {p : Nat × Nat × Nat} (h : p ∈ partsOf a n) :
    a / 0x10000 ≤ p.1 ∧ p.1 ≤ (a + n - 1) / 0x10000 := by
  have := mem_partsOf h
  omega

theorem pageParts_none (fuel a : Nat) : pageParts fuel a 0 = [] := by cases fuel <;> rfl

theorem sum_pageParts {fuel a n : Nat} (h : n + a % 0x10000 ≤ fuel * 0x10000) : ((pageParts fuel a n).map (·.2.2)).sum = n := by
  induction fuel generalizing a n with
  | zero => simp only [pageParts, List.map_nil, List.sum_nil]; omega
  | succ fuel ih =>
    unfold pageParts
    split
    · next hn => simp [hn]
    · rw [List.map_cons, List.sum_cons]
      dsimp only
      by_cases hm : n ≤ 0x10000 - a % 0x10000
      · rw [min_eq_left hm, Nat.sub_self, pageParts_none]; simp
      · rw [min_eq_right (by omega), ih (by omega)]
        omega

/-- The parts hold every byte of the run. -/
theorem sum_partsOf (a n : Nat) : ((partsOf a n).map (·.2.2)).sum = n := sum_pageParts (by omega)

/-! ## What a request may reach (R84, R309, R429, R430, R443) -/

theorem memCheck_of_virt {d : Dev} {write : Bool} {a n : Nat} (hn : memLenOk n = true) (ha : a % 4 = 0) (hend : a + n ≤ 2 ^ 34)
    (hg : hasGraft d = true) (hread : write = false → flag d (hdcpProt 0) = false)
    (hwrite : write = true → ∀ p ∈ partsOf a n, tensorOf (img0 d) p.1 ≠ none) : memCheck d write true a n = stOk := by
  unfold memCheck
  rw [if_neg (by simp [hn, ha]), if_pos rfl, if_neg (by rw [hg]; simpa using hend)]
  cases write with
  | false => simp [readHeld, hread rfl]
  | true =>
    have hany : (partsOf a n).any (fun p => (tensorOf (img0 d) p.1).isNone) = false := by
      rw [List.any_eq_false]
      intro p hp hnone
      exact hwrite rfl p hp (Option.isNone_iff_eq_none.mp hnone)
    simp [hany]

theorem memCheck_of_trunk {d : Dev} {write : Bool} {a n : Nat} (hn : memLenOk n = true) (ha : a % 4 = 0) (hin : inTrunk a n = true)
    (hread : write = false → readHeld d false a n = false)
    (hwrite : write = true → ∀ p ∈ partsOf (a - trunkBase) n, ¬ (48 ≤ p.1 ∧ p.1 < 64)) : memCheck d write false a n = stOk := by
  unfold memCheck
  rw [if_neg (by simp [hn, ha]), if_neg (by simp), if_pos hin]
  cases write with
  | false => simp [hread rfl]
  | true =>
    have hany : (pagesBetween a n).any (fun l => decide (48 ≤ l ∧ l < 64)) = false := by
      rw [List.any_eq_false]
      intro l hl
      obtain ⟨p, hp, rfl⟩ := List.mem_map.mp hl
      simpa using hwrite rfl p hp
    rw [hany]; simp

theorem memCheck_of_lp6 {d : Dev} {write : Bool} {a n : Nat} (hn : memLenOk n = true) (ha : a % 4 = 0) (hin : inLp6 d a n = true)
    (hwrite : write = true → inLoadAreas d a = false) : memCheck d write false a n = stOk := by
  have htrunk : inTrunk a n = false := by
    simp only [inLp6, Bool.and_eq_true, decide_eq_true_eq] at hin
    obtain ⟨-, hlo, -⟩ := hin
    rw [inTrunk, decide_eq_false_iff_not]
    simp only [lp6Base] at hlo
    simp only [trunkBase]
    omega
  unfold memCheck
  rw [if_neg (by simp [hn, ha]), if_neg (by simp), if_neg (by simp [htrunk]), if_pos hin]
  cases write with
  | false => simp
  | true => simp [hwrite rfl]

theorem does_memRead {s : State} {h : Hdr} {n : Nat} (hr : Ready s.dev h 0 3) (hlen : h.length = 4)
    (hst : memCheck s.dev false h.virt h.addr.toNat n = stOk) :
    Does (.memRead h n) s [.usb] (fun e => e.usb = { s.dev.usb with tags := e.usb.tags, reads := s.dev.usb.reads ++
      [{ tag := tagKey s.dev h.tag, addr := h.addr.toNat, virt := h.virt, len := n, pos := 0 }] }) :=
  does_request _ rfl hr (decide_eq_true hlen) (if_neg (not_not_intro hst)) (((addTag_within ..).trans (within_usb _)).only) rfl

theorem does_memWrite {s : State} {h : Hdr} {n : Nat} (hr : Ready s.dev h 0 4) (hlen : h.length = 4)
    (hst : memCheck s.dev true h.virt h.addr.toNat n = stOk) :
    Does (.memWrite h n) s [.usb] (Announced h (.memWrite h.addr.toNat h.virt) n s.dev) :=
  does_request _ rfl hr (decide_eq_true hlen) (if_neg (not_not_intro hst)) (((addTag_within ..).trans (within_usb _)).only) rfl

/-- Settles O18. -/
theorem memoryRequestsAreChecked : Obligations.MemoryRequestsAreChecked := by
  unfold Obligations.MemoryRequestsAreChecked
  refine ⟨fun h n s hlen ha h4 hmax hn4 => ⟨fun hr hrange => ?_, fun hr hrange => ?_⟩,
    fun h n s hlen => ⟨fun hr hst => ?_, fun hr hst => ?_, fun hr hst => ?_, fun hr hst => ?_⟩⟩
  · have hn : memLenOk n = true := by simp [memLenOk, h4, hmax, hn4]
    refine does_memRead hr hlen ?_
    rcases hrange with ⟨hv, hg, hend, hprot⟩ | ⟨hv, hlo, hhi, hprot⟩ | ⟨hv, hav, hlo, hhi⟩ <;> rw [hv]
    · exact memCheck_of_virt hn ha hend hg (fun _ => hprot) (by simp)
    · refine memCheck_of_trunk hn ha (by simp [inTrunk, hlo, hhi]) (fun _ => ?_) (by simp)
      rcases hprot with hprot | hprot
      · simp [readHeld, hprot]
      · simp [readHeld]; omega
    · exact memCheck_of_lp6 hn ha (by simp [inLp6, hav, hlo, hhi]) (by simp)
  · have hn : memLenOk n = true := by simp [memLenOk, h4, hmax, hn4]
    refine does_memWrite hr hlen ?_
    rcases hrange with ⟨hv, hg, hend, htensor⟩ | ⟨hv, hlo, hhi, hpages⟩ | ⟨hv, hav, hlo, hhi⟩ <;> rw [hv]
    · exact memCheck_of_virt hn ha hend hg (by simp) fun _ p hp =>
        htensor p.1 (page_of_mem_partsOf hp).1 (page_of_mem_partsOf hp).2
    · refine memCheck_of_trunk hn ha (by simp [inTrunk, hlo, hhi]) (by simp) fun _ p hp => ?_
      have := mem_partsOf hp
      omega
    · refine memCheck_of_lp6 hn ha ?_ fun _ => ?_
      · simp only [inLp6, hav, Bool.true_and, decide_eq_true_eq]; omega
      · simp only [inLoadAreas, decide_eq_false_iff_not]; omega
  · exact does_memRead hr hlen hst
  · exact does_answer rfl hr (decide_eq_true hlen) (if_pos hst)
  · exact does_memWrite hr hlen hst
  · exact does_answer rfl hr (decide_eq_true hlen) (if_pos hst)

/-! ## Bytes that EP2 IN carries (R81, R422, R428, R430, R431) -/

/-- A read of the page goes on: nothing moves it, or an eviction that can still be cancelled. -/
def PageGoesOn (d : Dev) (v : Nat) : Prop := (pageAt d 0 v).loc ≠ 3 ∨ (pageAt d 0 v).move = 1

/-- What the host's read of a page changes: that page's entry and the count of unwritten lines; every page still goes on. -/
structure HostRead (d e : Dev) : Prop where
  only : Only [.regs, .trk] d e
  regs : RegsBut [aUnwritten] d e
  goes : ∀ v, PageGoesOn d v → PageGoesOn e v

theorem HostRead.refl (d : Dev) : HostRead d d := ⟨.refl _ _, .refl _ _, fun _ h => h⟩

theorem HostRead.trans {d e f : Dev} (h : HostRead d e) (g : HostRead e f) : HostRead d f :=
  ⟨h.only.trans g.only, h.regs.trans g.regs, fun v hv => g.goes v (h.goes v hv)⟩

theorem pageAt_setPage (d : Dev) (v : Nat) (p : Page) (u : Nat) : pageAt (setPage d 0 v p) 0 u = if u = v then p else pageAt d 0 u :=
  Map.get_put _ _ _ _ _

theorem hostRead_setPage {d : Dev} {v : Nat} {p : Page} (hp : PageGoesOn d v → p.loc ≠ 3 ∨ p.move = 1) : HostRead d (setPage d 0 v p) := by
  refine ⟨(setPage_within ..).only.mono (by decide), .of_regs (.refl _ _) rfl, fun u hu => ?_⟩
  rw [PageGoesOn, pageAt_setPage]
  split
  · next h => exact hp (h ▸ hu)
  · exact hu

theorem hostRead_bump (d : Dev) (n : Nat) : HostRead d (bump d aUnwritten n) :=
  ⟨(bump_within ..).only.mono (by decide), bump_regsBut _ _ _, fun _ h => h⟩

theorem hostRead_cancelEvict (d : Dev) (v : Nat) : HostRead d (cancelEvict d 0 v) := by
  have hbooks : HostRead d (moveBooks d .transit .alloc 1) := ⟨(moveBooks_within ..).only.mono (by decide), .of_regs (.refl _ _) rfl, fun _ h => h⟩
  rw [cancelEvict]
  split
  · exact hbooks.trans (hostRead_setPage fun _ => .inl (by simp))
  · exact .refl d

theorem cancelEvict_loc {d : Dev} {v : Nat} (h : PageGoesOn d v) : (pageAt (cancelEvict d 0 v) 0 v).loc ≠ 3 := by
  rw [cancelEvict]
  split
  · simp [pageAt_setPage]
  · next hn =>
    intro h3
    rcases h with h | h
    · exact h h3
    · simp [h3, h] at hn

theorem hostRead_stallEnd (d : Dev) (w : Who) (v : Nat) : HostRead d (stallEnd d w v) := by
  refine ⟨(stallEnd_within ..).only.mono (by decide), .of_regs (.refl _ _) ?_, fun u hu => ?_⟩
  · unfold stallEnd; split <;> rfl
  · have : pageAt (stallEnd d w v) 0 u = pageAt d 0 u := by unfold stallEnd; split <;> rfl
    rw [PageGoesOn, this]; exact hu

theorem length_maskedBytes (mask o : Nat) (bs : Bytes) : (maskedBytes mask o bs).length = bs.length := by simp [maskedBytes]

theorem length_readMem (d : Dev) (a n : Nat) : (readMem d a n).length = n := by simp [readMem, Map.getN]

/-- A read by the host of a page that goes on gives its bytes at once. -/
theorem readPart_host {d : Dev} {w : Who} {v : Nat} (o n : Nat) (hw : w.host = true) (hsp : w.sp = 0) (hv : PageGoesOn d v) :
    HostRead d (readPart d w v o n).1 ∧ (readPart d w v o n).2.1.length = n ∧ (readPart d w v o n).2.2 = true := by
  have hloc := cancelEvict_loc hv
  have hc := hostRead_cancelEvict d v
  unfold readPart
  rw [hsp]
  generalize cancelEvict d 0 v = e at hloc hc
  dsimp only
  generalize hp : pageAt e 0 v = p at hloc
  by_cases h0 : p.loc = 0
  · rw [if_pos h0, unwrittenEvent]
    simp only [hw, Bool.true_or, if_true]
    exact ⟨hc.trans (hostRead_bump ..), by simp, trivial⟩
  by_cases h2 : p.loc = 2
  · rw [if_neg h0, if_pos h2, if_pos hw]
    exact ⟨hc.trans (hostRead_bump ..), by rw [length_maskedBytes, length_readMem], rfl⟩
  · rw [if_neg h0, if_neg h2, if_neg hloc]
    dsimp only
    refine ⟨((hc.trans (hostRead_stallEnd e w v)).trans (hostRead_setPage ?_)).trans (hostRead_bump ..), ?_, rfl⟩
    · exact fun _ => .inl hloc
    split
    · simp
    · rw [length_maskedBytes, length_readMem]

/-- The parts of a virtual read by the host, one after the other. -/
theorem foldl_readPart_host {w : Who} (hw : w.host = true) (hsp : w.sp = 0) (l : List (Nat × Nat × Nat)) (d : Dev) (bs : Bytes)
    (hl : ∀ p ∈ l, PageGoesOn d p.1) :
    let r := l.foldl (fun (acc : Dev × Bytes × Bool) part =>
      if acc.2.2 = true then ((readPart acc.1 w part.1 part.2.1 part.2.2).1, acc.2.1 ++ (readPart acc.1 w part.1 part.2.1 part.2.2).2.1,
        (readPart acc.1 w part.1 part.2.1 part.2.2).2.2) else acc) (d, bs, true)
    HostRead d r.1 ∧ r.2.1.length = bs.length + (l.map (·.2.2)).sum ∧ r.2.2 = true := by
  induction l generalizing d bs with
  | nil => exact ⟨.refl d, by simp, rfl⟩
  | cons p l ih =>
    obtain ⟨hread, hlen, hok⟩ := readPart_host p.2.1 p.2.2 hw hsp (hl p (by simp))
    rw [List.foldl_cons]
    dsimp only
    rw [if_pos rfl, hok]
    obtain ⟨h1, h2, h3⟩ := ih (readPart d w p.1 p.2.1 p.2.2).1 (bs ++ (readPart d w p.1 p.2.1 p.2.2).2.1)
      (fun q hq => hread.goes _ (hl q (by simp [hq])))
    refine ⟨hread.trans h1, ?_, h3⟩
    rw [h2, List.length_append, hlen, List.map_cons, List.sum_cons]
    omega

/-- A virtual read by the host of pages that all go on. -/
theorem vread_host {d : Dev} {w : Who} {a n : Nat} (hw : w.host = true) (hsp : w.sp = 0)
    (h : ∀ v, a / 0x10000 ≤ v → v ≤ (a + n - 1) / 0x10000 → PageGoesOn d v) :
    HostRead d (vread d w a n).1 ∧ (vread d w a n).2.1.length = n ∧ (vread d w a n).2.2 = true := by
  obtain ⟨hread, hlen, hok⟩ := foldl_readPart_host hw hsp (partsOf a n) d [] fun p hp =>
    h p.1 (page_of_mem_partsOf hp).1 (page_of_mem_partsOf hp).2
  rw [sum_partsOf, List.length_nil, Nat.zero_add] at hlen
  have heq : vread d w a n = (partsOf a n).foldl (fun (acc : Dev × Bytes × Bool) part =>
      if acc.2.2 = true then ((readPart acc.1 w part.1 part.2.1 part.2.2).1, acc.2.1 ++ (readPart acc.1 w part.1 part.2.1 part.2.2).2.1,
        (readPart acc.1 w part.1 part.2.1 part.2.2).2.2) else acc) (d, [], true) := if_pos hok
  rw [heq]
  exact ⟨hread, hlen, hok⟩

theorem length_physRead (d : Dev) (a n : Nat) : (physRead d a n).length = n := by
  unfold physRead
  split
  · rw [List.length_flatMap]
    conv_rhs => rw [← sum_partsOf (a - trunkBase) n]
    refine congrArg List.sum (List.map_congr_left fun p _ => ?_)
    split
    · simp
    · exact length_readMem ..
  · exact length_readMem ..

/-- With the Wind off an IN packet goes out as it is. -/
theorem usbPacket_of_off {d : Dev} (ep : Nat) (h : flag d wndEn = false) : usbPacket ep d = d := by
  rw [usbPacket, windOn, h]; rfl

/-- The next bytes of a read: the device after it, and the bytes. -/
def nextBytes (d : Dev) (x : ReadXfer) (n : Nat) : Dev × Bytes × Bool :=
  if x.virt then vread d (hostWho d ((x.addr + x.pos) / 0x10000)) (x.addr + x.pos) n else (d, physRead d (x.addr + x.pos) n, true)

theorem nextBytes_goes {d : Dev} {x : ReadXfer} {n : Nat} (h : x.virt = false ∨
    ∀ v, (x.addr + x.pos) / 0x10000 ≤ v → v ≤ (x.addr + x.pos + n - 1) / 0x10000 → PageGoesOn d v) :
    HostRead d (nextBytes d x n).1 ∧ (nextBytes d x n).2.1.length = n ∧ (nextBytes d x n).2.2 = true := by
  unfold nextBytes
  by_cases hv : x.virt = true
  · rw [if_pos hv]
    exact vread_host rfl rfl (h.resolve_left (by simp [hv]))
  · rw [if_neg hv]
    exact ⟨.refl d, length_physRead .., rfl⟩

/-- The DATA message of `n` bytes of a read. -/
def readMessage (x : ReadXfer) (last : Bool) (bs : Bytes) : Bytes := rhpMessage 0x20 (if last then 4 else 0) (x.tag % 65536) x.pos 0 bs

/-- EP2 IN of a read that goes on. -/
theorem dataTakenOp_goes {nv : NonVol} {d : Dev} {x : ReadXfer} {l : List ReadXfer} {n : Nat} (hlink : linkUpHost d = true)
    (hreads : d.usb.reads = x :: l) (hheld : readHeld d x.virt x.addr x.len = false) (hg : x.virt = true → hasGraft d = true)
    (hn : n = min 65536 (x.len - x.pos)) (hok : (nextBytes d x n).2.2 = true) (m : Bytes)
    (hm : m = readMessage x (decide (x.len ≤ x.pos + n)) (nextBytes d x n).2.1) (e : Dev)
    (he : e = { (nextBytes d x n).1 with usb := { (nextBytes d x n).1.usb with ep2 := m, reads := { x with pos := x.pos + n } :: l } }) :
    dataTakenOp nv [] d = usbPacket 2 (if decide (x.len ≤ x.pos + n) then
      complete { e with usb := { e.usb with reads := l } } x.tag stOk [] else e) := by
  have hnograft : ¬ (x.virt && !hasGraft d) = true := by
    intro hbad
    rw [Bool.and_eq_true] at hbad
    simp [hg hbad.1] at hbad
  subst he hm hn
  unfold dataTakenOp
  rw [hreads]
  dsimp only
  rw [if_neg (by simp [hlink]), if_neg (by simp [hheld]), if_neg hnograft]
  refine (if_neg ?_).trans rfl
  change ¬ (!(nextBytes d x (min 65536 (x.len - x.pos))).2.2) = true
  simp [hok]

/-- Of the host side a completion changes the tags, the transfers and EP1 IN. -/
theorem complete_usb (d : Dev) (key st : Nat) (p : Bytes) : (complete d key st p).usb =
    { d.usb with tags := (complete d key st p).usb.tags, xfers := (complete d key st p).usb.xfers, ep1in := (complete d key st p).usb.ep1in } := by
  unfold complete
  split <;> rfl

/-- The request of a tag that is in flight gets its completion. -/
theorem complete_ep1in {d : Dev} {key : Nat} {t : TagRec} (st : Nat) (p : Bytes)
    (ht : d.usb.tags.find? (fun t => t.tag == key && !t.done) = some t) :
    (complete d key st p).usb.ep1in = d.usb.ep1in ++ [{ tag := key % 65536, addr := t.addr, status := st, payload := p }] := by
  rw [complete_found st p ht]

/-- Settles O19. -/
theorem dataTakenMovesReadOn : Obligations.DataTakenMovesReadOn := by
  unfold Obligations.DataTakenMovesReadOn
  intro x l s r n m halive hlink hwnd hreads hheld hg hn hpages hr hm
  obtain ⟨hread, hlen, hok⟩ := nextBytes_goes (n := n) hpages
  change r = nextBytes s.dev x n at hr
  rw [← hr] at hread hlen hok
  have hvirt : x.virt = false → r.1 = s.dev := fun hv => by rw [hr, nextBytes, hv]; rfl
  have hmess : m = readMessage x (decide (x.len ≤ x.pos + n)) r.2.1 := by
    have hlast : decide (x.len ≤ x.pos + n) = !decide (x.pos + 65536 < x.len) := by
      rw [← decide_not]; exact decide_eq_decide.mpr (by omega)
    have hzeros : le 3 0 = le 1 0 ++ le 2 0 := rfl
    rw [hm, readMessage, rhpMessage, hlen, hlast, hzeros]
    by_cases h : x.pos + 65536 < x.len <;> simp [h]
  have hop := dataTakenOp_goes (nv := s.nv) hlink hreads hheld hg hn (hr ▸ hok) m (by rw [← hr]; exact hmess) _ rfl
  rw [← hr] at hop
  clear hm hmess hr
  obtain ⟨rd, rbs, rok⟩ := r
  dsimp only at *
  have hoff : flag rd wndEn = false := (hread.regs.flag (by decide)).trans hwnd
  have honly : Only [.regs, .usb, .root, .trk] s.dev rd := hread.only.mono (by decide)
  refine ⟨fun hmore => ?_, fun hlast => ?_⟩
  · have hn' : n = 65536 := by omega
    rw [if_neg (by simp; omega)] at hop
    replace hop := hop.trans (usbPacket_of_off 2 ((flag_of_regs rfl _).trans hoff))
    refine does_onDev _ rfl halive ?_ ?_
    · rw [hop]; exact honly.via (within_usb _).only (by decide)
    · rw [hop, hn']
      exact ⟨rfl, fun hv => hvirt hv ▸ (within_usb _).only⟩
  · rw [if_pos (by simp; omega)] at hop
    replace hop := hop.trans (usbPacket_of_off 2 ((flag_of_regs (complete_regs ..) _).trans ((flag_of_regs rfl _).trans hoff)))
    have hchange := ((within_usb (x := rd) { rd.usb with ep2 := m, reads := l }).trans (complete_within _ x.tag stOk [])).only
    have husb := complete_usb { rd with usb := { rd.usb with ep2 := m, reads := l } } x.tag stOk []
    refine does_onDev _ rfl halive ?_ ?_
    · rw [hop]; exact honly.via hchange (by decide)
    · rw [hop]
      refine ⟨?_, ?_, fun hv => hvirt hv ▸ hchange, fun t ht => ?_⟩
      · rw [husb]
      · rw [husb]
      · exact complete_ep1in stOk [] ht

end Sys2Proof.Machine
end

section
/-! PROOF. The host link: training, a bus reset, completions, event messages, transfers of EP2 OUT (R419, R422, R424, R431, R436, R438, R463). -/

namespace Sys2Proof.Machine

/-! ## The link (R419, R438) -/

/-- SPEED and CONFIGURED as the link reports them. -/
def linkFlds (speed conf : Nat) (d : Dev) : Dev := setFlds d [(usbSpeed, speed), (usbConfigured, conf), (usbUlink, 0)]

theorem linkFlds_regsBut (speed conf : Nat) (d : Dev) : RegsBut [usbSpeed.addr] d (linkFlds speed conf d) :=
  (setFlds_regsBut d _).mono (by simp [usbSpeed, usbConfigured, usbUlink])

theorem linkFlds_fld {speed conf : Nat} (hs : speed < 4) (hc : conf < 2) (d : Dev) :
    fld (linkFlds speed conf d) usbSpeed = speed ∧ fld (linkFlds speed conf d) usbConfigured = conf := by
  change fld (setFld (setFld (setFld d usbSpeed speed) usbConfigured conf) usbUlink 0) _ = _ ∧
    fld (setFld (setFld (setFld d usbSpeed speed) usbConfigured conf) usbUlink 0) _ = _
  constructor
  · rw [fld_setFld_other _ _ _ _ (by decide) (by decide), fld_setFld_other _ _ _ _ (by decide) (by decide), fld_setFld_same _ _ _ (by decide)]
    exact Nat.mod_eq_of_lt hs
  · rw [fld_setFld_other _ _ _ _ (by decide) (by decide), fld_setFld_same _ _ _ (by decide)]
    exact Nat.mod_eq_of_lt hc

theorem usbLinkChange_within_host (d : Dev) : Within [.regs, .usb, .root] d (usbLinkChange d) := raise_within_of_unit (.inl (by decide)) _ _ _

theorem usbLinkChange_regsBut (d : Dev) : RegsBut [aEvtLost] d (usbLinkChange d) := raise_regsBut _ _ _ _ _

theorem usbLinkChange_raised (d : Dev) : Raised 0x0520 2 (if fld d usbSpeed = 2 then 1 else 0) (fld d usbSpeed + 4 * fld d usbConfigured) d
    (usbLinkChange d) :=
  raise_raised _ _ _ _ (by
    have h1 : fld d usbSpeed < 4 := fld_lt d usbSpeed
    have h2 : fld d usbConfigured < 2 := fld_lt d usbConfigured
    omega)

theorem enumerateOp_within_host (nv : NonVol) (speed : Nat) (d : Dev) : Within [.regs, .usb, .root] d (enumerateOp nv speed d) := by
  unfold enumerateOp
  refine .ite (.refl _ _) ((Within.via ?_ (setFlds_within ..) (by decide)).via (usbLinkChange_within_host _) (by decide))
  exact (within_usb _).mono (by decide)

/-! ## A bus reset (R438) -/

theorem ringVal_foldl_ringPut (l : List Nat) (d : Dev) (q : Nat) :
    ringVal (l.foldl (fun d r => ringPut d r 0) d) q = if q ∈ l then 0 else ringVal d q := by
  induction l generalizing d with
  | nil => simp
  | cons r l ih =>
    rw [List.foldl_cons, ih, ringVal_ringPut]
    by_cases hq : q ∈ l
    · simp [hq]
    · by_cases hr : q = r <;> simp [hq, hr]

theorem foldl_ringPut_within (l : List Nat) (d : Dev) : Within [.ring] d (l.foldl (fun d r => ringPut d r 0) d) :=
  Within.foldl (.refl _ _) fun _ _ => ringPut_within ..

/-- What a bus reset makes of the host side. -/
def usbForgotten (speed : Nat) (u : Usb) : Usb :=
  { u with tags := [], ep1in := [], reads := [], xfers := [], waits := [], deferred := [], starting := none, gen := u.gen + 1, ep0 := none
           ep1 := [], ep2 := [], ep3 := [], desc := if speed = 0 then none else u.desc }

/-- The device that a bus reset with no open transfer leaves, before its registers change. -/
def busForgets (speed : Nat) (d : Dev) : Dev :=
  let e := d.ring.held.foldl (fun d r => ringPut d r 0) d
  { e with usb := usbForgotten speed e.usb, ring := { e.ring with held := [] }, root := { e.root with fwTag := none } }

theorem busResetOp_eq {d : Dev} (h : d.usb.xfers.all (fun x => decide (x.len ≤ x.got)) = true) (speed : Nat) (conf : Bool) :
    busResetOp speed conf d =
      usbLinkChange (bump (linkFlds speed (conf && decide (2 ≤ speed)).toNat (busForgets speed d)) aUsbResets 1) := by
  have hnone : d.usb.xfers.filter (fun x => decide (x.got < x.len)) = [] := by
    rw [List.filter_eq_nil_iff]
    intro x hx
    have := List.all_eq_true.mp h x hx
    simp only [decide_eq_true_eq] at this ⊢
    omega
  unfold busResetOp
  rw [hnone]
  rfl

theorem busForgets_within (speed : Nat) (d : Dev) : Within [.usb, .ring, .root] d (busForgets speed d) :=
  ((foldl_ringPut_within d.ring.held d).mono (by decide)).trans (within_usb_ring_root _ _ _)

theorem busForgets_usb (speed : Nat) (d : Dev) : (busForgets speed d).usb = usbForgotten speed d.usb :=
  congrArg (usbForgotten speed) ((foldl_ringPut_within d.ring.held d).only .usb (by decide))

theorem busForgets_ringVal (speed : Nat) (d : Dev) (q : Nat) :
    ringVal (busForgets speed d) q = if q ∈ d.ring.held then 0 else ringVal d q := ringVal_foldl_ringPut ..

theorem busForgets_regs (speed : Nat) (d : Dev) : (busForgets speed d).regs = d.regs := (busForgets_within speed d).only .regs (by decide)

/-- Settles O15. -/
theorem hostLinkTrainsAndResets : Obligations.HostLinkTrainsAndResets := by
  unfold Obligations.HostLinkTrainsAndResets
  refine ⟨fun speed s halive hup hspeed => ?_, fun speed conf s halive hup hxfers => ?_⟩
  · have hne : speed.val ≠ 0 := fun h => hspeed (Fin.ext h)
    have hop : ∃ u, enumerateOp s.nv speed.val s.dev = usbLinkChange (linkFlds speed.val (if 2 ≤ speed.val then 1 else 0) { s.dev with usb := u }) :=
      ⟨_, if_neg (by simp [hup, hne])⟩
    obtain ⟨u, hop⟩ := hop
    obtain ⟨hsp, hcf⟩ := linkFlds_fld speed.isLt (conf := if 2 ≤ speed.val then 1 else 0) (by split <;> decide) { s.dev with usb := u }
    have hregs : RegsBut [usbSpeed.addr] s.dev (linkFlds speed.val (if 2 ≤ speed.val then 1 else 0) { s.dev with usb := u }) :=
      linkFlds_regsBut _ _ _
    have htime : (linkFlds speed.val (if 2 ≤ speed.val then 1 else 0) { s.dev with usb := u }).devTime = s.dev.devTime := setFlds_devTime ..
    refine does_onDev _ rfl halive (enumerateOp_within_host ..).only ?_
    rw [hop]
    generalize linkFlds speed.val (if 2 ≤ speed.val then 1 else 0) { s.dev with usb := u } = e at *
    have hlink := usbLinkChange_regsBut e
    have hraised := usbLinkChange_raised e
    rw [hsp, hcf, Raised, htime] at hraised
    exact ⟨(hlink.fld (by decide)).trans hsp, (hlink.fld (by decide)).trans hcf, (hregs.mono (by simp)).via hlink (by simp), hraised⟩
  · have hop := busResetOp_eq hxfers speed.val conf
    have husb := busForgets_usb speed.val s.dev
    have hval := busForgets_ringVal speed.val s.dev
    have hregs := busForgets_regs speed.val s.dev
    have honly := (busForgets_within speed.val s.dev).only
    have hheld : (busForgets speed.val s.dev).ring.held = [] := rfl
    generalize busForgets speed.val s.dev = e at *
    obtain ⟨hsp, hcf⟩ := linkFlds_fld speed.isLt (conf := (conf && decide (2 ≤ speed.val)).toNat) (Bool.toNat_lt _) e
    have hlf := linkFlds_regsBut speed.val (conf && decide (2 ≤ speed.val)).toNat e
    have hlfonly : Within [.regs] e (linkFlds speed.val (conf && decide (2 ≤ speed.val)).toNat e) := setFlds_within ..
    have hlfusb : (linkFlds speed.val (conf && decide (2 ≤ speed.val)).toNat e).usb = e.usb := setFlds_usb ..
    generalize linkFlds speed.val (conf && decide (2 ≤ speed.val)).toNat e = f at *
    have hbump := bump_regsBut f aUsbResets 1
    have hcount := reg_bump_same f aUsbResets 1
    have hbumponly : Within [.regs] f (bump f aUsbResets 1) := bump_within ..
    have hbumpusb : (bump f aUsbResets 1).usb = f.usb := bump_usb ..
    generalize bump f aUsbResets 1 = g at *
    have hlink := usbLinkChange_regsBut g
    have hlinkusb : (usbLinkChange g).usb = { g.usb with
        evq := (usbLinkChange g).usb.evq, evDrop := (usbLinkChange g).usb.evDrop, evSince := (usbLinkChange g).usb.evSince } := raise_usb ..
    have hprefix : g.usb.evq <+: (usbLinkChange g).usb.evq := raise_evq_prefix ..
    have hlinkonly := usbLinkChange_within_host g
    have hring : (usbLinkChange g).ring = e.ring := by
      rw [hlinkonly.only .ring (by decide), hbumponly.only .ring (by decide), hlfonly.only .ring (by decide)]
    generalize usbLinkChange g = x at *
    have hguse : g.usb = usbForgotten speed.val s.dev.usb := by rw [hbumpusb, hlfusb, husb]
    rw [hguse] at hlinkusb hprefix
    have hres : reg f aUsbResets = reg s.dev aUsbResets := (hlf _ (by decide)).trans (reg_of_regs hregs _)
    refine does_onDev _ rfl halive ?_ ?_ <;> rw [if_pos hup, hop]
    · exact (((honly.mono (by decide)).via hlfonly.only (by decide)).via hbumponly.only (by decide)).via hlinkonly.only (by decide)
    · refine ⟨by rw [hlinkusb]; rfl, by rw [hlinkusb]; rfl, by rw [hlinkusb]; rfl, by rw [hlinkusb]; rfl, by rw [hlinkusb]; rfl,
        by rw [hlinkusb]; rfl, by rw [hlinkusb]; rfl, hprefix, by rw [hring, hheld], fun q => ?_, ?_, ?_, ?_⟩
      · exact (ringVal_of_ring hring q).trans (hval q)
      · rw [hlink _ (by decide), hcount, hres]
      · rw [hlink.fld (by decide), hbump.fld (by decide), hcf]
      · exact (((RegsBut.of_regs (.refl _ _) hregs).via hlf (by simp)).via hbump (by simp)).via hlink (by simp)

/-! ## Messages to the host (R422, R424, R436, R463) -/

theorem completion_bytes (c : Completion) : c.bytes =
    le 1 0x30 ++ le 1 0 ++ le 2 c.tag ++ le 4 c.payload.length ++ le 5 c.addr ++ le 1 c.status ++ le 2 0 ++ c.payload ++
      List.replicate ((16 - c.payload.length % 16) % 16) 0 := rfl

/-- COMPLETION_TAKEN outside of recovery: the message is out, the tag is free. -/
def completionDelivered (c : Completion) (l : List Completion) (u : Usb) : Usb :=
  { u with ep1 := c.bytes, ep1in := l, tags := u.tags.filter (fun t => t.tag != u.gen * 65536 + c.tag || !t.done) }

theorem completionTakenOp_eq {d : Dev} {c : Completion} {l : List Completion} (hlink : linkUpHost d = true) (hq : d.usb.ep1in = c :: l) :
    completionTakenOp d = if d.root.fwTag = some (d.usb.gen * 65536 + c.tag) then { Dev.reset with held := d.held }
      else usbPacket 1 { d with usb := completionDelivered c l d.usb } := by
  unfold completionTakenOp
  rw [hq]
  exact if_neg (by simp [hlink])

theorem length_le (n v : Nat) : (le n v).length = n := by
  induction n generalizing v with
  | zero => rfl
  | succ n ih => rw [le, List.length_cons, ih]

theorem length_eventBytes (e : EventRec) : e.bytes.length = 16 := by simp [EventRec.bytes, length_le]

theorem length_flatMap_eventBytes (l : List EventRec) : (l.flatMap EventRec.bytes).length = 16 * l.length := by
  rw [List.length_flatMap, List.map_congr_left (g := fun _ => 16) (fun e _ => length_eventBytes e)]
  simp [Nat.mul_comm]

/-- An EVENT message: its records are whole, so no byte fills it up. -/
theorem eventMessage_eq (l : List EventRec) : rhpMessage 0x31 0 0 0 0 (l.flatMap EventRec.bytes) =
    le 4 0x31 ++ le 4 (16 * l.length) ++ le 8 0 ++ l.flatMap (fun r => le 2 r.code ++ le 1 r.unit ++ le 1 r.sev ++ le 4 r.arg ++ le 8 r.time) := by
  have hhead : le 4 0x31 = le 1 0x31 ++ le 1 0 ++ le 2 0 := rfl
  have hzeros : le 8 0 = le 5 0 ++ le 1 0 ++ le 2 0 := rfl
  have hpad : (16 - 16 * l.length % 16) % 16 = 0 := by omega
  rw [rhpMessage, length_flatMap_eventBytes, hpad, hhead, hzeros, List.replicate_zero, List.append_nil]
  simp only [List.append_assoc]
  rfl

/-- The host side once an EVENT message is out. -/
def eventsSent (m : Bytes) (u : Usb) : Usb := { u with ep3 := m, evq := u.evq.drop 63 }

theorem eventSendOp_eq {d : Dev} {m : Bytes} (hlink : linkUpHost d = true) (hq : d.usb.evq ≠ []) (hwnd : flag d wndEn = false)
    (hm : m = rhpMessage 0x31 0 0 0 0 ((d.usb.evq.take 63).flatMap EventRec.bytes)) :
    eventSendOp d = if d.usb.evDrop && decide ((d.usb.evq.drop 63).length ≤ 254) then
      raise { d with usb := { eventsSent m d.usb with evDrop := false, evSince := 0 } } 0x0521 2 1 d.usb.evSince
      else { d with usb := eventsSent m d.usb } := by
  have hout : usbPacket 3 { d with usb := { d.usb with ep3 := m, evq := d.usb.evq.drop 63 } } = { d with usb := eventsSent m d.usb } :=
    usbPacket_of_off 3 ((flag_of_regs rfl _).trans hwnd)
  unfold eventSendOp
  rw [if_neg (by simp [hlink, hq]), ← hm]
  dsimp only at hout ⊢
  rw [hout]
  rfl

/-- A WARN or worse event that finds room in the queue joins it. -/
theorem raise_pushes {d : Dev} {code unit sev arg : Nat} (hsev : sev ≠ 0) (hdrop : d.usb.evDrop = false) (hroom : d.usb.evq.length < 256) :
    (raise d code unit sev arg).regs = d.regs ∧ (raise d code unit sev arg).usb = { d.usb with
      evq := d.usb.evq ++ [{ code, unit, sev, arg := arg % 2 ^ 32, time := d.devTime.toNat }] } := by
  unfold raise
  dsimp only
  rw [if_neg (by simp [hsev]), pushEvent, if_neg (by simp [hdrop]; omega)]
  simp

/-- Settles O16. -/
theorem hostTakesCompletionsAndEvents : Obligations.HostTakesCompletionsAndEvents := by
  unfold Obligations.HostTakesCompletionsAndEvents
  refine ⟨fun c l s halive hlink hq => ⟨fun htag hwnd => ?_, fun htag => ?_⟩, fun s m halive hlink hq hwnd hm => ?_⟩
  · have hop := (completionTakenOp_eq hlink hq).trans (if_neg htag)
    replace hop := hop.trans (usbPacket_of_off 1 ((flag_of_regs rfl _).trans hwnd))
    exact does_onDev _ rfl halive (hop ▸ (within_usb _).only) (hop ▸ rfl)
  · exact (onDev_alive _ halive).trans (by rw [completionTakenOp_eq hlink hq, if_pos htag])
  · have hlen : (s.dev.usb.evq.take 63).length = min 63 s.dev.usb.evq.length := List.length_take ..
    rw [← hlen, ← eventMessage_eq] at hm
    have hop := eventSendOp_eq hlink hq hwnd hm
    refine ⟨fun hdrop => ?_, fun hdrop hmax => ?_⟩
    · rw [if_neg (by simp [hdrop])] at hop
      exact does_onDev _ rfl halive (hop ▸ (within_usb _).only) (hop ▸ rfl)
    · rw [if_pos (by simp [hdrop]; omega)] at hop
      have hroom : (s.dev.usb.evq.drop 63).length < 256 := by rw [List.length_drop]; omega
      obtain ⟨hregs, husb⟩ := raise_pushes (d := { s.dev with usb := { eventsSent m s.dev.usb with evDrop := false, evSince := 0 } })
        (code := 0x0521) (unit := 2) (sev := 1) (arg := s.dev.usb.evSince) (by decide) rfl hroom
      have honly := (((within_usb (x := s.dev) { eventsSent m s.dev.usb with evDrop := false, evSince := 0 }).mono (by decide)).trans
        (raise_within_of_unit (unit := 2) (.inl (by decide)) 0x0521 1 s.dev.usb.evSince)).only
      exact does_onDev _ rfl halive (hop ▸ honly) (hop ▸ ⟨hregs, husb⟩)

/-! ## Transfers of EP2 OUT (R431, R464) -/

/-- A firmware image of 352 bytes is announced and none of it has come. -/
def fwXfer : Xfer := { tag := 0, kind := .firmware, len := 352, got := 0, buf := [], t0 := 0, lost := false }

/-- The engine in service with that transfer. -/
def fwArriving : State := { State.reset with
  dev := { setFlds Dev.reset [(clkPllLock, 1), (usbSpeed, 3), (usbConfigured, 1)] with usb := { Usb.reset with xfers := [fwXfer] } } }

/-- Its first byte. -/
def fwData : Hdr := { tag := 0, length := 1, endpoint := 2 }

/-- Refutes O17: the bytes of a firmware image go to their slot of the flash as they come (R464), so a DATA message of such a transfer
changes more than the device. -/
theorem not_transfersFillOrTimeOut : ¬ Obligations.TransfersFillOrTimeOut := by
  unfold Obligations.TransfersFillOrTimeOut
  rintro ⟨-, hdata⟩
  have hlink : alive fwArriving.dev = true ∧ linkUpHost fwArriving.dev = true := by decide +kernel
  obtain ⟨e, hnext, -, -⟩ := (hdata fwData false [0] fwXfer fwArriving hlink.1 hlink.2 rfl rfl rfl ⟨by decide, by decide⟩ rfl rfl rfl rfl
    (by decide)).1 (by decide)
  have hexec : exec (.data fwData false [0]) fwArriving = .next (dataOp fwData false [0] fwArriving) :=
    congrArg Host.Outcome.next (if_pos hlink.1)
  have hsame : dataOp fwData false [0] fwArriving = { fwArriving with dev := e } := Host.Outcome.next.inj (hexec.symm.trans hnext)
  have hflash : (dataOp fwData false [0] fwArriving).nv.spi = [(0x600000, 0)] := by decide +kernel
  rw [hsame] at hflash
  exact List.cons_ne_nil _ _ hflash.symm

end Sys2Proof.Machine
end

section
/-! PROOF. The Grove (R393, R399 to R403). -/

namespace Sys2Proof.Machine

/-! ## Numbers in bytes (R7) -/

theorem u16_le (v : Nat) (bs : Bytes) : u16 (le 2 v ++ bs) 0 = v % 2 ^ 16 := by
  simp only [u16, u8, le, List.cons_append, List.nil_append, List.getD_cons_zero, List.getD_cons_succ, BitVec.toNat_ofNat]
  omega

theorem u16_append (l bs : Bytes) (i : Nat) : u16 (l ++ bs) (l.length + i) = u16 bs i := by
  simp only [u16, u8, List.getD_eq_getElem?_getD, Nat.add_assoc]
  rw [List.getElem?_append_right (by omega), List.getElem?_append_right (by omega)]
  simp

theorem u32_le (v : Nat) (bs : Bytes) : u32 (le 4 v ++ bs) 0 = v % 2 ^ 32 := by
  simp only [u32, u16, u8, le, List.cons_append, List.nil_append, List.getD_cons_zero, List.getD_cons_succ, BitVec.toNat_ofNat]
  omega

/-! ## The frame pulse (R399 to R402) -/

/-- The time code frame without its CRC. -/
def timeCodeBody (d : Dev) : Bytes :=
  le 4 (add32 (ofn d) 1) ++ le 8 d.devTime.toNat ++
    le 2 (fld d grvTag % 4096 + (hasGraft d).toNat * 2 ^ 12 + (flag d stumpActive).toNat * 2 ^ 13)

theorem length_timeCodeBody (d : Dev) : (timeCodeBody d).length = 14 := by simp [timeCodeBody, length_le]

theorem fsyncOutOp_master {d : Dev} (hf : fenced d 0x41 = false) (hm : isMaster d = true) (hr : d.ras.running = true) :
    fsyncOutOp d = { d with grv := { d.grv with
      outT := some d.devTime.toNat, sent := timeCodeBody d ++ le 2 (crc16 (timeCodeBody d)) } } :=
  if_neg (by simp [hm, hr, grvOn, hf])

theorem fsyncInOp_follower {d : Dev} (hf : fenced d 0x41 = false) (hm : isFollower d = true) :
    fsyncInOp d = { d with grv := { d.grv with edge := some d.devTime.toNat, target := some ((d.devTime.toNat : Int) + fld d grvAlign - fld d grvPath).toNat
                                               outT := some (d.devTime.toNat + 20) } } :=
  if_neg (by simp [hm, grvOn, hf])

/-- The bytes of the time code frame. -/
theorem timeCode_bytes (d : Dev) (c : Nat) :
    (timeCodeBody d ++ le 2 c).length = 16 ∧ u32 (timeCodeBody d ++ le 2 c) 0 = add32 (ofn d) 1 ∧
      slice (timeCodeBody d ++ le 2 c) 4 8 = le 8 d.devTime.toNat ∧ u16 (timeCodeBody d ++ le 2 c) 12 % 4096 = fld d grvTag % 4096 ∧
      u16 (timeCodeBody d ++ le 2 c) 14 = c % 2 ^ 16 ∧ (timeCodeBody d ++ le 2 c).take 14 = timeCodeBody d := by
  have h14 := length_timeCodeBody d
  refine ⟨by simp [h14, length_le], ?_, ?_, ?_, ?_, by rw [← h14, List.take_left]⟩
  · rw [timeCodeBody, List.append_assoc, List.append_assoc, u32_le]
    exact Nat.mod_eq_of_lt (Nat.mod_lt _ (by decide))
  · rw [slice, timeCodeBody, List.append_assoc, List.append_assoc, List.drop_left' (length_le ..), List.take_left' (length_le ..)]
  · have h1 : (hasGraft d).toNat < 2 := Bool.toNat_lt _
    have h2 : (flag d stumpActive).toNat < 2 := Bool.toNat_lt _
    have hat := u16_append (le 4 (add32 (ofn d) 1) ++ le 8 d.devTime.toNat)
      (le 2 (fld d grvTag % 4096 + (hasGraft d).toNat * 2 ^ 12 + (flag d stumpActive).toNat * 2 ^ 13) ++ le 2 c) 0
    rw [List.length_append, length_le, length_le, u16_le] at hat
    rw [timeCodeBody, List.append_assoc]
    change u16 _ (4 + 8 + 0) % 4096 = _
    rw [hat]
    omega
  · have := u16_append (timeCodeBody d) (le 2 c ++ []) 0
    rwa [h14, u16_le, List.append_nil] at this

/-- The follower loses lock. -/
theorem loseGrove_shows (cause : Nat) (hc : cause < 2 ^ 32) (d : Dev) : Only [.regs, .usb, .root, .grv] d (loseGrove cause d) ∧
    fld (loseGrove cause d) grvLocked = 0 ∧ (reg (loseGrove cause d) aLockLoss).toNat = min ((reg d aLockLoss).toNat + 1) 0xFFFFFFFF ∧
    Raised 0x0902 0x41 1 cause d (loseGrove cause d) ∧ (loseGrove cause d).grv = { d.grv with good := 0 } ∧
    RegsBut [grvLocked.addr, aLockLoss, aEvtLost] d (loseGrove cause d) := by
  have hgood : RegsBut [grvLocked.addr, aLockLoss, aEvtLost] d { d with grv := { d.grv with good := 0 } } := .of_regs (.refl _ _) rfl
  have hgoodonly : Only [.grv] d { d with grv := { d.grv with good := 0 } } := (within_grv _).only
  have hcount0 : reg { d with grv := { d.grv with good := 0 } } aLockLoss = reg d aLockLoss := rfl
  unfold loseGrove
  dsimp only
  generalize hg : ({ d with grv := { d.grv with good := 0 } } : Dev) = g at *
  have htime : g.devTime = d.devTime := by rw [← hg]
  have hgrv : g.grv = { d.grv with good := 0 } := by rw [← hg]
  clear hg
  have hlock := setFld_regsBut g grvLocked 0
  have hlocked := fld_setFld_same g grvLocked 0 (by decide)
  have hlockonly : Only [.regs] g (setFld g grvLocked 0) := (setFld_within ..).only
  generalize setFld g grvLocked 0 = l at *
  have hbump := bump_regsBut l aLockLoss 1
  have hcount := reg_bump_same l aLockLoss 1
  have hbumponly : Only [.regs] l (bump l aLockLoss 1) := (bump_within ..).only
  generalize bump l aLockLoss 1 = b at *
  have hraise := raise_regsBut b 0x0902 0x41 1 cause
  have hraised := raise_raised b 0x0902 0x41 1 hc
  have hraiseonly := (raise_within_of_unit (d := b) (unit := 0x41) (.inr (by decide)) 0x0902 1 cause).only
  refine ⟨?_, ?_, ?_, ?_, ?_, ?_⟩
  · exact (((hgoodonly.mono (by decide)).via hlockonly (by decide)).via hbumponly (by decide)).via hraiseonly (by decide)
  · rw [hraise.fld (by decide), hbump.fld (by decide), hlocked]; rfl
  · rw [hraise _ (by decide), hcount, hlock _ (by decide), hcount0]
  · rw [Raised, ← htime, ← hlockonly .devTime (by decide), ← hbumponly .devTime (by decide)]; exact hraised
  · rw [hraiseonly .grv (by decide), hbumponly .grv (by decide), hlockonly .grv (by decide), hgrv]
  · exact ((hgood.via hlock (by simp)).via hbump (by simp)).via hraise (by simp)

/-- Settles O25. -/
theorem grovePulseIsSentAndFollowed : Obligations.GrovePulseIsSentAndFollowed := by
  unfold Obligations.GrovePulseIsSentAndFollowed
  refine fun s halive hf => ⟨fun hm hr => ?_, fun hm => ?_, fun u hm hlocked hedge hlate => ?_⟩
  · have hop := fsyncOutOp_master hf hm hr
    obtain ⟨hlen, hofn, htime, htag, hcrc, htake⟩ := timeCode_bytes s.dev (crc16 (timeCodeBody s.dev))
    refine does_onDev _ rfl halive (hop ▸ (within_grv _).only) ?_
    rw [hop]
    exact ⟨rfl, hlen, hofn, htime, htag, by rw [htake]; exact hcrc⟩
  · have hop := fsyncInOp_follower hf hm
    exact does_onDev _ rfl halive (hop ▸ (within_grv _).only) (by rw [hop])
  · have hop : fsyncTimeoutOp s.dev = loseGrove 1 s.dev := by
      unfold fsyncTimeoutOp
      rw [hedge]
      exact if_pos (by simp [hm, grvOn, hf, hlocked, hlate])
    obtain ⟨honly, hrest⟩ := loseGrove_shows 1 (by decide) s.dev
    exact does_onDev _ rfl halive (hop ▸ honly) (hop ▸ hrest)

/-! ## The time code and the tuple tag (R393, R402, R403) -/

/-- TUPLE_MATCH against a known tag of the master. -/
theorem tupleMatch_shows {d : Dev} {t : Nat} (ht : d.grv.mtag = some t) :
    Only [.regs, .usb, .root] d (tupleMatch d) ∧ flag (tupleMatch d) grvMatch = decide (t = fld d grvTag % 4096) ∧
      ∀ x : Fld, x.addr ≠ aEvtLost → x.addr ≠ grvMatch.addr ∨ x.lo + x.width ≤ 2 ∨ 3 ≤ x.lo → fld (tupleMatch d) x = fld d x := by
  have hset : ∀ x : Fld, x.addr ≠ grvMatch.addr ∨ x.lo + x.width ≤ 2 ∨ 3 ≤ x.lo →
      fld (setFld d grvMatch (if t = fld d grvTag % 4096 then 1 else 0)) x = fld d x :=
    fun x hx => fld_setFld_other d grvMatch x _ (by decide) hx
  have hflag : flag (setFld d grvMatch (if t = fld d grvTag % 4096 then 1 else 0)) grvMatch = decide (t = fld d grvTag % 4096) := by
    rw [flag, fld_setFld_same _ _ _ (by decide)]
    split <;> rename_i h <;> simp [h, grvMatch]
  have honly : Only [.regs] d (setFld d grvMatch (if t = fld d grvTag % 4096 then 1 else 0)) := (setFld_within ..).only
  unfold tupleMatch
  rw [ht]
  dsimp only
  generalize setFld d grvMatch (if t = fld d grvTag % 4096 then 1 else 0) = e at *
  split
  · have hraise := raise_regsBut e 0x0904 0x41 1 (t + fld d grvTag % 4096 * 65536)
    have hraiseonly := (raise_within_of_unit (d := e) (unit := 0x41) (.inr (by decide)) 0x0904 1 (t + fld d grvTag % 4096 * 65536)).only
    exact ⟨(honly.mono (by decide)).via hraiseonly (by decide), (hraise.flag (by decide)).trans hflag,
      fun x hx hne => (hraise.fld (by simpa using hx)).trans (hset x hne)⟩
  · exact ⟨honly.mono (by decide), hflag, fun x _ hne => hset x hne⟩

theorem tupleMatch_none {d : Dev} (h : d.grv.mtag = none) : tupleMatch d = d := by unfold tupleMatch; rw [h]

theorem tupleMatch_only (d : Dev) : Only [.regs, .usb, .root] d (tupleMatch d) := by
  cases h : d.grv.mtag with
  | none => rw [tupleMatch_none h]; exact .refl _ _
  | some t => exact (tupleMatch_shows h).1

theorem tupleMatch_regsBut (d : Dev) : RegsBut [grvMatch.addr, aEvtLost] d (tupleMatch d) := by
  unfold tupleMatch
  split
  · exact .refl _ _
  · dsimp only
    split
    · exact ((setFld_regsBut _ grvMatch _).mono (by simp)).via (raise_regsBut _ _ _ _ _) (by simp)
    · exact (setFld_regsBut _ grvMatch _).mono (by simp)

/-- GRV as a good time code frame leaves it. -/
def timeCodeGood (code : Bytes) (d : Dev) : Dev :=
  let g := { d.grv with since := d.grv.since + 1 }
  let diff := d.grv.edge.map (fun e => ((ofLe (slice code 4 8) + fld d grvPath : Nat) : Int) - e)
  let g := { g with mfc := some (u32 code 0), adv := false, bad := 0, mtag := some (u16 code 12 % 4096), diff }
  { d with grv := if g.synced then { g with adj := match diff with | some x => x | none => g.adj } else g }

/-- The fields of a good time code frame. -/
def timeCodeFlds (code : Bytes) (d : Dev) : Dev := setFlds d [(grvTcValid, 1), (grvMGraft, bits (u16 code 12) 12 1), (grvMStump, bits (u16 code 12) 13 1)]

theorem timeCodeFlds_fld (code : Bytes) (d : Dev) : fld (timeCodeFlds code d) grvTcValid = 1 ∧
    fld (timeCodeFlds code d) grvMGraft = bits (u16 code 12) 12 1 ∧ fld (timeCodeFlds code d) grvMStump = bits (u16 code 12) 13 1 := by
  have hbits (lo : Nat) : bits (u16 code 12) lo 1 % 2 ^ 1 = bits (u16 code 12) lo 1 := by simp [bits]
  change fld (setFld (setFld (setFld d grvTcValid 1) grvMGraft _) grvMStump _) _ = _ ∧
    fld (setFld (setFld (setFld d grvTcValid 1) grvMGraft _) grvMStump _) _ = _ ∧
    fld (setFld (setFld (setFld d grvTcValid 1) grvMGraft _) grvMStump _) _ = _
  refine ⟨?_, ?_, ?_⟩
  · rw [fld_setFld_other _ _ _ _ (by decide) (by decide), fld_setFld_other _ _ _ _ (by decide) (by decide), fld_setFld_same _ _ _ (by decide)]
    rfl
  · rw [fld_setFld_other _ _ _ _ (by decide) (by decide), fld_setFld_same _ _ _ (by decide)]
    exact hbits 12
  · rw [fld_setFld_same _ _ _ (by decide)]
    exact hbits 13

theorem timeCodeOp_good {code : Bytes} {d : Dev} (hf : fenced d 0x41 = false) (hm : isFollower d = true) (hlen : code.length = 16)
    (hcrc : crc16 (code.take 14) = u16 code 14) (hlocked : flag d grvLocked = false) :
    timeCodeOp code d = tupleMatch (timeCodeFlds code (timeCodeGood code d)) := by
  have hregs : (timeCodeGood code d).regs = d.regs := rfl
  have hunlocked : flag (timeCodeFlds code (timeCodeGood code d)) grvLocked = false := by
    rw [flag, timeCodeFlds, fld_setFlds_other _ _ _ (by simp [grvTcValid, grvMGraft, grvMStump, grvLocked]), fld_of_regs hregs]
    exact hlocked
  have hlater : tupleMatch (if flag (timeCodeFlds code (timeCodeGood code d)) grvLocked = true then
      loadDevTime (timeCodeFlds code (timeCodeGood code d)) else timeCodeFlds code (timeCodeGood code d)) =
      tupleMatch (timeCodeFlds code (timeCodeGood code d)) := congrArg tupleMatch (if_neg (by simp [hunlocked]))
  unfold timeCodeOp
  rw [if_neg (by simp [hm, grvOn, hf, hlen])]
  dsimp only
  rw [if_pos hcrc]
  refine Eq.trans ?_ hlater
  dsimp only [timeCodeGood]
  cases hs : d.grv.synced <;> rfl

/-- GRV as a bad time code frame leaves it, but for the report. -/
def timeCodeBad (d : Dev) : Dev :=
  { d with grv := { d.grv with since := d.grv.since + 1, mfc := none, adv := true, bad := d.grv.bad + 1, badRep := d.grv.badRep + 1 } }

/-- TC_VALID falls with the fourth bad frame in a row. -/
def badCounted (d : Dev) : Dev :=
  if 4 ≤ d.grv.bad then setFld (bump d aTcErr 1) grvTcValid 0 else bump d aTcErr 1

theorem badCounted_shows (d : Dev) : Only [.regs] d (badCounted d) ∧ (reg (badCounted d) aTcErr).toNat = min ((reg d aTcErr).toNat + 1) 0xFFFFFFFF ∧
    (4 ≤ d.grv.bad → fld (badCounted d) grvTcValid = 0) ∧ (d.grv.bad < 4 → fld (badCounted d) grvTcValid = fld d grvTcValid) := by
  have hcount := reg_bump_same d aTcErr 1
  have hbump := bump_regsBut d aTcErr 1
  have honly : Only [.regs] d (bump d aTcErr 1) := (bump_within ..).only
  unfold badCounted
  generalize bump d aTcErr 1 = e at *
  split
  · next h4 =>
    refine ⟨honly.trans (setFld_within ..).only, ?_, fun _ => (fld_setFld_same _ _ _ (by decide)).trans rfl, fun h => by omega⟩
    rw [reg_setFld_other _ _ _ (by decide), hcount]
  · next h4 => exact ⟨honly, hcount, fun h => by omega, fun _ => hbump.fld (by decide)⟩

theorem timeCodeOp_bad {code : Bytes} {d : Dev} (hf : fenced d 0x41 = false) (hm : isFollower d = true) (hlen : code.length = 16)
    (hcrc : crc16 (code.take 14) ≠ u16 code 14) : ∃ g n, (g = (badCounted (timeCodeBad d)).grv ∨
      g = { (badCounted (timeCodeBad d)).grv with since := 0, badRep := 0 }) ∧
    (timeCodeOp code d = { badCounted (timeCodeBad d) with grv := g } ∨
      timeCodeOp code d = raise { badCounted (timeCodeBad d) with grv := g } 0x0903 0x41 0 n) := by
  unfold timeCodeOp
  rw [if_neg (by simp [hm, grvOn, hf, hlen])]
  dsimp only
  rw [if_neg hcrc]
  change ∃ g n, _ ∧ ((if 256 ≤ (badCounted (timeCodeBad d)).grv.since then
    raise { badCounted (timeCodeBad d) with grv := { (badCounted (timeCodeBad d)).grv with since := 0, badRep := 0 } } 0x0903 0x41 0
      (badCounted (timeCodeBad d)).grv.badRep else badCounted (timeCodeBad d)) = _ ∨ (if 256 ≤ (badCounted (timeCodeBad d)).grv.since then
    raise { badCounted (timeCodeBad d) with grv := { (badCounted (timeCodeBad d)).grv with since := 0, badRep := 0 } } 0x0903 0x41 0
      (badCounted (timeCodeBad d)).grv.badRep else badCounted (timeCodeBad d)) = _)
  split
  · exact ⟨_, _, .inr rfl, .inr rfl⟩
  · exact ⟨_, 0, .inl rfl, .inl rfl⟩

/-- What a bad frame shows, whether or not its report is due. -/
theorem badFrame_shows {d e f : Dev} {g : Grv} {n : Nat} (h : f = { e with grv := g } ∨ f = raise { e with grv := g } 0x0903 0x41 0 n)
    (honly : Only [.regs, .grv] d e) : Only [.regs, .usb, .root, .grv] d f ∧ f.grv = g ∧ RegsBut [aEvtLost] e f := by
  have hg : Only [.regs, .grv] d { e with grv := g } := honly.via (within_grv _).only (by decide)
  have hregs : RegsBut [aEvtLost] e { e with grv := g } := .of_regs (.refl _ _) rfl
  have hgrv : ({ e with grv := g } : Dev).grv = g := rfl
  generalize ({ e with grv := g } : Dev) = x at *
  rcases h with rfl | rfl
  · exact ⟨hg.mono (by decide), hgrv, hregs⟩
  · have hraise := (raise_within_of_unit (d := x) (unit := 0x41) (.inr (by decide)) 0x0903 0 n).only
    exact ⟨(hg.mono (by decide)).via hraise (by decide), (hraise .grv (by decide)).trans hgrv, hregs.trans (raise_regsBut _ _ _ _ _)⟩

/-- Settles O26. -/
theorem timeCodeAndTagAreChecked : Obligations.TimeCodeAndTagAreChecked := by
  unfold Obligations.TimeCodeAndTagAreChecked
  refine ⟨fun code s halive hf hm hlen => ⟨fun hcrc hlocked => ?_, fun hcrc => ?_⟩, fun s halive hne => ?_⟩
  · have hop := timeCodeOp_good hf hm hlen hcrc hlocked
    have hregs : (timeCodeGood code s.dev).regs = s.dev.regs := rfl
    have honly : Only [.grv] s.dev (timeCodeGood code s.dev) := (within_grv _).only
    have hgrv : (timeCodeGood code s.dev).grv.mfc = some (u32 code 0) ∧ (timeCodeGood code s.dev).grv.adv = false ∧
        (timeCodeGood code s.dev).grv.bad = 0 ∧ (timeCodeGood code s.dev).grv.mtag = some (u16 code 12 % 4096) := by
      unfold timeCodeGood
      dsimp only
      split <;> exact ⟨rfl, rfl, rfl, rfl⟩
    generalize timeCodeGood code s.dev = g at *
    obtain ⟨hvalid, hgraft, hstump⟩ := timeCodeFlds_fld code g
    have hfonly : Only [.regs] g (timeCodeFlds code g) := (setFlds_within ..).only
    have htag : fld (timeCodeFlds code g) grvTag = fld s.dev grvTag :=
      ((setFlds_regsBut g _).fld (by simp [grvTcValid, grvMGraft, grvMStump, grvTag])).trans (fld_of_regs hregs _)
    have hfgrv : (timeCodeFlds code g).grv = g.grv := hfonly .grv (by decide)
    generalize timeCodeFlds code g = x at *
    obtain ⟨hmfc, hadv, hbad, hmtag⟩ := hgrv
    obtain ⟨hmonly, hmatch, hkeeps⟩ := tupleMatch_shows (d := x) (hfgrv ▸ hmtag)
    have hmgrv : (tupleMatch x).grv = g.grv := (hmonly .grv (by decide)).trans hfgrv
    refine does_onDev _ rfl halive ?_ ?_ <;> rw [hop]
    · exact ((honly.mono (by decide)).via hfonly (by decide)).via hmonly (by decide)
    · refine ⟨by rw [hmgrv, hmfc], by rw [hmgrv, hadv], by rw [hmgrv, hbad], by rw [hmgrv, hmtag], ?_, ?_, ?_, ?_⟩
      · rw [hkeeps _ (by decide) (by decide), hvalid]
      · rw [hkeeps _ (by decide) (by decide), hgraft]
      · rw [hkeeps _ (by decide) (by decide), hstump]
      · rw [hmatch, htag]
  · obtain ⟨g, n, hg, hop⟩ := timeCodeOp_bad hf hm hlen hcrc
    have hregs : (timeCodeBad s.dev).regs = s.dev.regs := rfl
    have honly : Only [.grv] s.dev (timeCodeBad s.dev) := (within_grv _).only
    have hgrv : (timeCodeBad s.dev).grv.mfc = none ∧ (timeCodeBad s.dev).grv.adv = true ∧ (timeCodeBad s.dev).grv.bad = s.dev.grv.bad + 1 :=
      ⟨rfl, rfl, rfl⟩
    generalize timeCodeBad s.dev = b at *
    obtain ⟨hconly, hcount, h4, hlt⟩ := badCounted_shows b
    have hcgrv : (badCounted b).grv = b.grv := hconly .grv (by decide)
    generalize badCounted b = c at *
    obtain ⟨hfonly, hfgrv, hfregs⟩ := badFrame_shows hop ((honly.mono (by decide)).via hconly (by decide))
    obtain ⟨hmfc, hadv, hbad⟩ := hgrv
    have hgf : g.mfc = none ∧ g.adv = true ∧ g.bad = s.dev.grv.bad + 1 := by
      rcases hg with rfl | rfl <;> rw [hcgrv] <;> exact ⟨hmfc, hadv, hbad⟩
    rw [hbad] at h4 hlt
    refine does_onDev _ rfl halive hfonly ⟨by rw [hfgrv]; exact hgf.1, by rw [hfgrv]; exact hgf.2.1, by rw [hfgrv]; exact hgf.2.2, ?_, fun h => ?_,
      fun h => ?_⟩
    · rw [hfregs _ (by decide), hcount, reg_of_regs hregs]
    · rw [hfregs.fld (by decide), h4 (by omega)]
    · rw [hfregs.fld (by decide), hlt (by omega), fld_of_regs hregs]
  · have hop : tupleChangedOp s.nv s.dev =
        tupleMatch (raise (setFld s.dev grvTag (tupleTag s.nv s.dev)) 0x0905 0x41 0 (tupleTag s.nv s.dev)) := if_neg hne
    generalize tupleTag s.nv s.dev = t at *
    have hset := setFld_regsBut s.dev grvTag t
    have hsame := fld_setFld_same s.dev grvTag t (by decide)
    have hsonly : Only [.regs] s.dev (setFld s.dev grvTag t) := (setFld_within ..).only
    generalize setFld s.dev grvTag t = x at *
    have hraise := raise_regsBut x 0x0905 0x41 0 t
    have hronly := (raise_within_of_unit (d := x) (unit := 0x41) (.inr (by decide)) 0x0905 0 t).only
    have hroot := raise_root x 0x0905 0x41 0 t
    generalize raise x 0x0905 0x41 0 t = r at *
    have hmatch := tupleMatch_regsBut r
    refine does_onDev _ rfl halive ?_ ?_ <;> rw [hop]
    · exact ((hsonly.mono (by decide)).via hronly (by decide)).via (tupleMatch_only r) (by decide)
    · refine ⟨?_, ((hset.mono (by simp)).via hraise (by simp)).via hmatch (by simp), fun hnone => ?_⟩
      · rw [hmatch.fld (by decide), hraise.fld (by decide), hsame]; rfl
      · have : r.grv.mtag = none := by rw [hronly .grv (by decide), hsonly .grv (by decide)]; exact hnone
        rw [tupleMatch_none this, Raised, hroot, hsonly .devTime (by decide)]

end Sys2Proof.Machine
end

section
/-! PROOF. Pages between Trunk and LPDDR6 (R72, R77, R78, R85, R444, R452). -/

namespace Sys2Proof

theorem Map.putN_append {α : Type} [DecidableEq α] (d : α) (m : Map α) (k : Nat) (l r : List α) :
    m.putN d k (l ++ r) = (m.putN d k l).putN d (k + l.length) r := by
  induction l generalizing m k with
  | nil => rfl
  | cons v l ih =>
    rw [List.cons_append, Map.putN, Map.putN, ih, List.length_cons]
    congr 1
    omega

end Sys2Proof

namespace Sys2Proof.Machine

/-! ## Bytes of LPDDR6, granule by granule -/

theorem writeMem_append (d : Dev) (a : Nat) (l r : Bytes) : writeMem (writeMem d a l) (a + l.length) r = writeMem d a (l ++ r) := by
  simp only [writeMem]
  rw [Map.putN_append]

theorem writeMem_nil (d : Dev) (a : Nat) : writeMem d a [] = d := rfl

theorem lp6Dead_writeMem (d : Dev) (a : Nat) (bs : Bytes) (g : Nat) : lp6Dead (writeMem d a bs) g = lp6Dead d g := rfl

/-- The granules of a write that no fenced channel serves, up to the `n`-th. -/
theorem foldl_writeLp6 {d : Dev} {a : Nat} {bs : Bytes} (ha : a % 2048 = 0) (hlive : ∀ i, 2048 * i < bs.length → lp6Dead d (a + 2048 * i) = false)
    {n : Nat} (hn : 2048 * n ≤ bs.length + 2048) :
    (List.range n).foldl (fun d i =>
      let g := a / 2048 + i
      let lo := max a (g * 2048)
      if lp6Dead d (g * 2048) then d else writeMem d (lp6Base + lo) ((bs.drop (lo - a)).take (g * 2048 + 2048 - lo))) d =
      writeMem d (lp6Base + a) (bs.take (2048 * n)) := by
  induction n with
  | zero => rfl
  | succ n ih =>
    have hg : (a / 2048 + n) * 2048 = a + 2048 * n := by omega
    have hlo : max a (a + 2048 * n) = a + 2048 * n := by omega
    have hoff : a + 2048 * n - a = 2048 * n := by omega
    have hwidth : a + 2048 * n + 2048 - (a + 2048 * n) = 2048 := by omega
    have hlen : (bs.take (2048 * n)).length = 2048 * n := by rw [List.length_take]; omega
    rw [List.range_succ, List.foldl_append, ih (by omega), List.foldl_cons, List.foldl_nil]
    dsimp only
    rw [hg, hlo, hoff, hwidth, lp6Dead_writeMem, Nat.mul_add_one, List.take_add]
    by_cases hin : 2048 * n < bs.length
    · rw [if_neg (by rw [hlive n hin]; decide), ← writeMem_append, hlen, Nat.add_assoc]
    · rw [List.drop_of_length_le (by omega), List.take_nil, writeMem_nil, List.append_nil]
      exact ite_self _

/-- A write that no fenced channel serves puts its bytes in place. -/
theorem writeLp6_eq {d : Dev} {a : Nat} {bs : Bytes} (ha : a % 2048 = 0)
    (hlive : ∀ i, 2048 * i < bs.length → lp6Dead d (a + 2048 * i) = false) : writeLp6 d a bs = writeMem d (lp6Base + a) bs := by
  unfold writeLp6
  split
  · have hn : (a + bs.length) / 2048 + 1 - a / 2048 = bs.length / 2048 + 1 := by omega
    rw [hn, foldl_writeLp6 ha hlive (by omega), List.take_of_length_le (by omega)]
  · rfl

/-! ## One page's entry -/

theorem carried_fst (d : Dev) (sp v : Nat) : (carried d sp v).1 = 0 ∨ (carried d sp v).1 = 1 := by
  unfold carried
  split
  · exact .inl rfl
  · split
    · exact .inl rfl
    · exact .inr rfl

theorem carried_setPage (d : Dev) (sp v : Nat) (p : Page) (q w : Nat) : carried (setPage d sp v p) q w = carried d q w := by
  have h : (setPage d sp v p).trk.carry = d.trk.carry := by unfold setPage; dsimp only; split <;> rfl
  unfold carried
  rw [h]

/-- An entry after a write of one, whichever space names it. -/
theorem pageAt_setPage_eq (d : Dev) (sp v : Nat) (p : Page) (q w : Nat) :
    pageAt (setPage d sp v p) q w = if carried d q w = carried d sp v then p else pageAt d q w := by
  have hqw := carried_fst d q w
  have hsv := carried_fst d sp v
  unfold pageAt
  dsimp only
  rw [carried_setPage]
  generalize hc : carried d q w = c at *
  unfold setPage
  dsimp only
  generalize carried d sp v = e at *
  obtain ⟨c1, c2⟩ := c
  obtain ⟨e1, e2⟩ := e
  dsimp only at *
  rcases hqw with rfl | rfl <;> rcases hsv with rfl | rfl <;> simp [Map.get_put]

theorem setPage_rest (d : Dev) (sp v : Nat) (p : Page) : (setPage d sp v p).regs = d.regs ∧ (setPage d sp v p).mem = d.mem ∧
    (setPage d sp v p).trk.used = d.trk.used ∧ (setPage d sp v p).trk.books = d.trk.books ∧ (setPage d sp v p).trk.stageQ = d.trk.stageQ := by
  unfold setPage
  dsimp only
  split <;> exact ⟨rfl, rfl, rfl, rfl, rfl⟩

theorem serveStaging_none {d : Dev} (h : d.trk.stageQ = []) : serveStaging d = d := by unfold serveStaging; rw [h]; rfl

theorem pageAt_of_trk {d e : Dev} (hc : e.trk.carry = d.trk.carry) (h0 : e.trk.map0 = d.trk.map0) (h1 : e.trk.map1 = d.trk.map1) (q w : Nat) :
    pageAt e q w = pageAt d q w ∧ carried e q w = carried d q w := by
  have hcar : carried e q w = carried d q w := by unfold carried; rw [hc]
  refine ⟨?_, hcar⟩
  unfold pageAt
  rw [hcar, h0, h1]

/-- A freed page's number and the books. -/
theorem freeLpn_shows (d : Dev) (src : Book) (lpn : Nat) : (freeLpn d src lpn).trk.used.get 0 lpn = 0 ∧
    (freeLpn d src lpn).trk.books = (if d.trk.copyHeld.contains lpn then bookMove (bookMove d.trk.books src .free 1) .transit .retired 1
      else bookMove d.trk.books src .free 1) ∧
    (freeLpn d src lpn).trk.carry = d.trk.carry ∧ (freeLpn d src lpn).trk.map0 = d.trk.map0 ∧ (freeLpn d src lpn).trk.map1 = d.trk.map1 ∧
    (freeLpn d src lpn).trk.stageQ = d.trk.stageQ := by
  unfold freeLpn setUsed moveBooks
  dsimp only
  split <;> exact ⟨Map.get_put_same 0 d.trk.used lpn 0, rfl, rfl, rfl, rfl, rfl⟩

theorem countEvicted_shows (p : Page) (d : Dev) : Only [.regs] d (countEvicted p d) ∧ RegsBut [aEvict, aStageWaste] d (countEvicted p d) ∧
    (reg (countEvicted p d) aEvict).toNat = min ((reg d aEvict).toNat + 1) 0xFFFFFFFF := by
  have hbump := bump_regsBut d aEvict 1
  have hcount := reg_bump_same d aEvict 1
  have honly : Only [.regs] d (bump d aEvict 1) := (bump_within ..).only
  unfold countEvicted
  dsimp only
  generalize bump d aEvict 1 = e at *
  split
  · refine ⟨honly.trans (bump_within ..).only, (hbump.mono (by simp)).via (bump_regsBut e aStageWaste 1) (by simp), ?_⟩
    rw [reg_bump_other _ _ (by decide), hcount]
  · exact ⟨honly, hbump.mono (by simp), hcount⟩

/-- The page is in LPDDR6 and free. -/
def evicted (p : Page) : Page := { p with loc := 2, move := 0, dirty := false, unread := false }

/-- The device once the backing copy of a page is written. -/
def evictionWritten (p : Page) (bs : Bytes) (d : Dev) : Dev :=
  freeLpn (countEvicted p (writeMem d (lp6Base + p.bpn * 0x10000) bs)) .transit p.lpn

theorem evictionWriteDoneOp_eq {d : Dev} {sp v : Nat} {p : Page} (hp : p = pageAt d sp v) (hloc : p.loc = 3) (hmove : p.move = 1)
    (hq : d.trk.stageQ = []) (hlive : ∀ i, i < 32 → lp6Dead d (p.bpn * 0x10000 + 2048 * i) = false) :
    evictionWriteDoneOp sp v d = setPage (evictionWritten p (readMem d (lpnAddr p.lpn 0) 0x10000) d) sp v (evicted p) := by
  have hlen := length_readMem d (lpnAddr p.lpn 0) 0x10000
  have hleaves : (decide (p.loc = 3) && decide (p.move = 1)) = true := by simp [hloc, hmove]
  unfold evictionWriteDoneOp
  rw [← hp]
  dsimp only
  generalize readMem d (lpnAddr p.lpn 0) 0x10000 = bs at *
  have hwrite : writeLp6 d (p.bpn * 0x10000) bs = writeMem d (lp6Base + p.bpn * 0x10000) bs :=
    writeLp6_eq (by omega) fun i hi => hlive i (by omega)
  have htrk : (writeMem d (lp6Base + p.bpn * 0x10000) bs).trk = d.trk := (writeMem_within ..).only .trk (by decide)
  rw [if_pos hleaves, hwrite, evictionWritten]
  rw [← htrk] at hq
  generalize writeMem d (lp6Base + p.bpn * 0x10000) bs = w at *
  rw [← (countEvicted_shows p w).1 .trk (by decide), ← (freeLpn_shows _ .transit p.lpn).2.2.2.2.2] at hq
  exact serveStaging_none ((setPage_rest _ _ _ _).2.2.2.2.trans hq)

theorem evictionWritten_shows (p : Page) (bs : Bytes) (d : Dev) : Only [.regs, .trk, .mem] d (evictionWritten p bs d) ∧
    RegsBut [aEvict, aStageWaste] d (evictionWritten p bs d) ∧ (reg (evictionWritten p bs d) aEvict).toNat = min ((reg d aEvict).toNat + 1) 0xFFFFFFFF ∧
    (evictionWritten p bs d).mem = (writeMem d (lp6Base + p.bpn * 0x10000) bs).mem ∧
    (evictionWritten p bs d).trk.used.get 0 p.lpn = 0 ∧
    (evictionWritten p bs d).trk.books = (if d.trk.copyHeld.contains p.lpn then bookMove (bookMove d.trk.books .transit .free 1) .transit .retired 1
      else bookMove d.trk.books .transit .free 1) ∧
    (∀ q w, pageAt (evictionWritten p bs d) q w = pageAt d q w ∧ carried (evictionWritten p bs d) q w = carried d q w) := by
  have hwonly : Only [.mem] d (writeMem d (lp6Base + p.bpn * 0x10000) bs) := (writeMem_within ..).only
  unfold evictionWritten
  generalize writeMem d (lp6Base + p.bpn * 0x10000) bs = w at *
  obtain ⟨hconly, hcregs, hcount⟩ := countEvicted_shows p w
  have hregs : w.regs = d.regs := hwonly .regs (by decide)
  have htrk : (countEvicted p w).trk = d.trk := (hconly .trk (by decide)).trans (hwonly .trk (by decide))
  generalize countEvicted p w = c at *
  have hfonly : Only [.trk] c (freeLpn c .transit p.lpn) := (freeLpn_within ..).only
  obtain ⟨hused, hbooks, hcarry, hmap0, hmap1, -⟩ := freeLpn_shows c .transit p.lpn
  generalize freeLpn c .transit p.lpn = f at *
  rw [htrk] at hbooks hcarry hmap0 hmap1
  refine ⟨((hwonly.mono (by decide)).via hconly (by decide)).via hfonly (by decide), ?_, ?_, ?_, hused, hbooks, pageAt_of_trk hcarry hmap0 hmap1⟩
  · exact ((RegsBut.of_regs (.refl _ _) hregs).trans hcregs).trans (.of_only hfonly (by decide) _)
  · rw [reg_of_regs (hfonly .regs (by decide)), hcount, reg_of_regs hregs]
  · rw [hfonly .mem (by decide), hconly .mem (by decide)]

theorem readMem_of_mem {d e : Dev} (h : e.mem = d.mem) (a n : Nat) : readMem e a n = readMem d a n := by rw [readMem, h]; rfl

/-- Bytes in place, and every other byte. -/
theorem readMem_written {d e : Dev} {a n : Nat} {bs : Bytes} (h : e.mem = (writeMem d a bs).mem) (hn : bs.length = n) :
    readMem e a n = bs ∧ ∀ j, j < a ∨ a + n ≤ j → readMem e j 1 = readMem d j 1 := by
  refine ⟨?_, fun j hj => ?_⟩
  · rw [readMem_of_mem h, ← hn, readMem_writeMem]
  · rw [readMem_of_mem h]
    exact writeMem_outside d a bs (by omega)

/-- A fetch that has landed its bytes leaves transit. -/
def fetchEnded (sp v : Nat) (e : Dev) : Dev :=
  moveBooks { e with trk := { e.trk with staging := e.trk.staging.filter (fun e => e.2.2 != v + sp * 2 ^ 18) } } .transit .alloc 1

theorem fetchEnded_shows (sp v : Nat) (e : Dev) : Only [.trk] e (fetchEnded sp v e) ∧ (fetchEnded sp v e).trk.used = e.trk.used ∧
    (fetchEnded sp v e).trk.books = bookMove e.trk.books .transit .alloc 1 ∧ (fetchEnded sp v e).trk.stageQ = e.trk.stageQ ∧
    ∀ q w, pageAt (fetchEnded sp v e) q w = pageAt e q w ∧ carried (fetchEnded sp v e) q w = carried e q w :=
  ⟨((within_trk (x := e) { e.trk with staging := e.trk.staging.filter (fun e => e.2.2 != v + sp * 2 ^ 18) } rfl).trans (moveBooks_within ..)).only,
    rfl, rfl, rfl, pageAt_of_trk rfl rfl rfl⟩

/-- A fetch lands its page's bytes in the Trunk. -/
def fetchLanded (p : Page) (bs : Bytes) (d : Dev) : Dev := writeMem d (lpnAddr p.lpn 0) bs

theorem fetchLanded_only (p : Page) (bs : Bytes) (d : Dev) : Only [.mem] d (fetchLanded p bs d) := (writeMem_within ..).only

/-- The page is in the Trunk, as it is in LPDDR6. -/
def landed (p : Page) (stamp : Nat) : Page := { p with loc := 1, move := 0, dirty := false, stamp }

theorem pageFetchDoneOp_eq {d : Dev} {sp v : Nat} {p : Page} (hp : p = pageAt d sp v) (hloc : p.loc = 3) (hmove : p.move = 2)
    (hq : d.trk.stageQ = []) : pageFetchDoneOp sp v d =
      setPage (fetchEnded sp v (fetchLanded p (readMem d (lp6Base + p.bpn * 0x10000) 0x10000) d)) sp v (landed p d.trk.stamp) := by
  have hleaves : (decide (p.loc = 3) && decide (p.move = 2)) = true := by simp [hloc, hmove]
  unfold pageFetchDoneOp
  rw [← hp]
  dsimp only
  generalize readMem d (lp6Base + p.bpn * 0x10000) 0x10000 = bs
  have htrk : (writeMem d (lpnAddr p.lpn 0) bs).trk = d.trk := (writeMem_within ..).only .trk (by decide)
  rw [if_pos hleaves, fetchLanded, ← htrk]
  rw [← htrk] at hq
  generalize writeMem d (lpnAddr p.lpn 0) bs = w at *
  exact serveStaging_none ((setPage_rest _ _ _ _).2.2.2.2.trans ((fetchEnded_shows sp v w).2.2.2.1.trans hq))

theorem fetchDoneOp_eq {d : Dev} {sp v : Nat} {p : Page} (nv : NonVol) (hp : p = pageAt d sp v)
    (hlive : ∀ i, i < 32 → lp6Dead d (p.bpn * 0x10000 + 2048 * i) = false) : fetchDoneOp nv sp v d = pageFetchDoneOp sp v d := by
  have hdead : (List.range 32).any (fun i => lp6Dead d (p.bpn * 0x10000 + 2048 * i)) = false := by
    rw [List.any_eq_false]
    intro i hi
    simp [hlive i (List.mem_range.mp hi)]
  unfold fetchDoneOp
  rw [← hp]
  dsimp only
  rw [hdead]
  simp

/-- Settles O27. -/
theorem pageMovesCarryTheBytes : Obligations.PageMovesCarryTheBytes := by
  unfold Obligations.PageMovesCarryTheBytes
  refine fun sp v p s halive hp hloc hq hlive => ⟨fun hmove => ?_, fun hmove => ?_⟩
  · have hop := evictionWriteDoneOp_eq hp hloc hmove hq hlive
    obtain ⟨honly, hregs, hcount, hmem, hused, hbooks, hpages⟩ := evictionWritten_shows p (readMem s.dev (lpnAddr p.lpn 0) 0x10000) s.dev
    have hlen := length_readMem s.dev (lpnAddr p.lpn 0) 0x10000
    generalize readMem s.dev (lpnAddr p.lpn 0) 0x10000 = bs at *
    generalize evictionWritten p bs s.dev = e at *
    have hpage := pageAt_setPage_eq e sp.val v (evicted p)
    obtain ⟨hprg, hpmem, hpused, hpbooks, -⟩ := setPage_rest e sp.val v (evicted p)
    have hponly : Only [.trk] e (setPage e sp.val v (evicted p)) := (setPage_within ..).only
    generalize setPage e sp.val v (evicted p) = f at *
    obtain ⟨hbytes, hrest⟩ := readMem_written (hpmem.trans hmem) hlen
    refine does_onDev _ rfl halive ?_ ?_ <;> rw [hop]
    · exact honly.via hponly (by decide)
    · refine ⟨?_, ?_, ?_, fun q w hne => ?_, by rw [hpused, hused], by rw [hpbooks, hbooks], hbytes, fun j hj => hrest j (by omega)⟩
      · rw [hpage, if_pos rfl]; rfl
      · rw [reg_of_regs hprg, hcount]
      · exact hregs.of_regs hprg
      · rw [hpage, if_neg (by rwa [(hpages q w).2, (hpages sp.val v).2]), (hpages q w).1]
  · have hop := (fetchDoneOp_eq s.nv hp hlive).trans (pageFetchDoneOp_eq hp hloc hmove hq)
    have hlen := length_readMem s.dev (lp6Base + p.bpn * 0x10000) 0x10000
    generalize readMem s.dev (lp6Base + p.bpn * 0x10000) 0x10000 = bs at *
    have hwonly := fetchLanded_only p bs s.dev
    have hmem : (fetchLanded p bs s.dev).mem = (writeMem s.dev (lpnAddr p.lpn 0) bs).mem := rfl
    generalize fetchLanded p bs s.dev = w at *
    have htrk : w.trk = s.dev.trk := hwonly .trk (by decide)
    obtain ⟨heonly, heused, hebooks, -, hpages⟩ := fetchEnded_shows sp.val v w
    generalize fetchEnded sp.val v w = e at *
    rw [htrk] at heused hebooks
    have hpage := pageAt_setPage_eq e sp.val v (landed p s.dev.trk.stamp)
    obtain ⟨-, hpmem, hpused, hpbooks, -⟩ := setPage_rest e sp.val v (landed p s.dev.trk.stamp)
    have hponly : Only [.trk] e (setPage e sp.val v (landed p s.dev.trk.stamp)) := (setPage_within ..).only
    generalize setPage e sp.val v (landed p s.dev.trk.stamp) = f at *
    have hpagesw (q u : Nat) : pageAt w q u = pageAt s.dev q u ∧ carried w q u = carried s.dev q u :=
      pageAt_of_trk (by rw [htrk]) (by rw [htrk]) (by rw [htrk]) q u
    obtain ⟨hbytes, hrest⟩ := readMem_written ((hpmem.trans (heonly .mem (by decide))).trans hmem) hlen
    refine does_onDev _ rfl halive ?_ ?_ <;> rw [hop]
    · exact ((hwonly.mono (by decide)).via heonly (by decide)).via hponly (by decide)
    · refine ⟨?_, fun q u hne => ?_, by rw [hpused, heused], by rw [hpbooks, hebooks], hbytes, fun j hj => hrest j ?_⟩
      · rw [hpage, if_pos rfl, landed]
      · rw [hpage, if_neg (by rwa [(hpages q u).2, (hpages sp.val v).2, (hpagesw q u).2, (hpagesw sp.val v).2]), (hpages q u).1, (hpagesw q u).1]
      · simp only [lpnAddr] at hj ⊢; omega

end Sys2Proof.Machine
end

section
/-! PROOF. The Trunk's books and pages as they are shown, errors of the Trunk and of LPDDR6 (R76, R86 to R91, R441 to R451, R480). -/

namespace Sys2Proof.Machine

/-! ## Stamp, snapshot and lookup (R76, R86, R91) -/

theorem setPage_stamp (d : Dev) (sp v : Nat) (p : Page) : (setPage d sp v p).trk.stamp = d.trk.stamp := by
  unfold setPage
  dsimp only
  split <;> rfl

theorem freeLpn_stamp (d : Dev) (src : Book) (lpn : Nat) : (freeLpn d src lpn).trk.stamp = d.trk.stamp := by
  unfold freeLpn setUsed moveBooks
  dsimp only
  split <;> rfl

theorem countEvicted_trk (p : Page) (d : Dev) : (countEvicted p d).trk = d.trk := (countEvicted_shows p d).1 .trk (by decide)

theorem evictPage_stamp (d : Dev) (sp v : Nat) : (evictPage d sp v).trk.stamp = d.trk.stamp := by
  unfold evictPage
  dsimp only
  split
  · rw [setPage_stamp, freeLpn_stamp, countEvicted_trk]
  · rw [setPage_stamp]; rfl

theorem foldl_stamp {α : Type} (l : List α) (f : Dev → α → Dev) (h : ∀ d x, (f d x).trk.stamp = d.trk.stamp) (d : Dev) :
    (l.foldl f d).trk.stamp = d.trk.stamp := by
  induction l generalizing d with
  | nil => rfl
  | cons x l ih => rw [List.foldl_cons, ih, h]

theorem watermark_stamp (d : Dev) (groups : Nat) (skip : Option (Nat × Nat)) : (watermark d groups skip).trk.stamp = d.trk.stamp := by
  unfold watermark
  dsimp only
  split
  · refine foldl_stamp _ _ (fun e _ => ?_) d
    split
    · exact evictPage_stamp ..
    · rfl
  · rfl

theorem watermarks_stamp (d : Dev) : (watermarks d).trk.stamp = d.trk.stamp := by
  unfold watermarks
  split
  · exact foldl_stamp _ _ (fun _ _ => watermark_stamp ..) d
  · rfl

/-- The four counts as the snapshot shows them. -/
theorem booksSnap_fld (d : Dev) (f a t r : Nat) :
    let e := setFlds d [(booksFree, f), (booksAlloc, a), (booksTransit, t), (booksRetired, r)]
    fld e booksFree = f % 16384 ∧ fld e booksAlloc = a % 16384 ∧ fld e booksTransit = t % 16384 ∧ fld e booksRetired = r % 16384 := by
  simp (disch := decide) only [setFlds_cons, setFlds_nil, fld_setFld_same, fld_setFld_other]
  exact ⟨rfl, rfl, rfl, rfl⟩

/-- The lookup's registers with page `p` of class `cls` shown. -/
def shownPage (sp cls : Nat) (p : Page) (d : Dev) : Dev :=
  setFlds (setFld d pageSpace sp) [(pageClass, cls), (pageLoc, p.loc), (pageDirty, p.dirty.toNat), (pageStaged, p.staged.toNat),
    (pageReaders, p.readers), (pageLpn, p.lpn), (pageBack, p.bpn + p.hasBack.toNat * 2 ^ 19)]

theorem shownPage_fld (sp cls : Nat) (p : Page) (d : Dev) :
    let e := shownPage sp cls p d
    fld e pageSpace = sp % 2 ∧ fld e pageLoc = p.loc % 4 ∧ fld e pageClass = cls % 4 ∧ flag e pageDirty = p.dirty ∧ flag e pageStaged = p.staged ∧
      fld e pageReaders = p.readers % 256 ∧ fld e pageLpn = p.lpn % 8192 ∧ fld e pageBack = (p.bpn + p.hasBack.toNat * 2 ^ 19) % 2 ^ 20 := by
  have hbit (b : Bool) : (b.toNat % 2 ^ 1 == 1) = b := by cases b <;> rfl
  simp (disch := decide) only [shownPage, flag, setFlds_cons, setFlds_nil, fld_setFld_same, fld_setFld_other]
  exact ⟨rfl, rfl, rfl, hbit _, hbit _, rfl, rfl, rfl⟩

theorem shownPage_regsBut (sp cls : Nat) (p : Page) (d : Dev) : RegsBut [pageCtl, pageLpn.addr, pageBack.addr] d (shownPage sp cls p d) :=
  ((setFld_regsBut d pageSpace sp).mono (by decide)).via (setFlds_regsBut _ _) (by dsimp only [List.map]; decide)

/-- GO looks up the page that TRK_PAGE_VPN names in the space just written. -/
theorem pageLookupOp_go {v : Word} {d : Dev} {p : Page} (hp : p = pageAt d (v.toNat % 2) (fld d pageVpn)) (hgo : v.toNat / 2 % 2 = 1) :
    pageLookupOp v d = shownPage (v.toNat % 2) (if p.loc = 0 then pageClass_ (imgSp d (v.toNat % 2)) (fld d pageVpn) else p.cls) p d := by
  have hsp : fld (setFld d pageSpace (v.toNat % 2)) pageSpace = v.toNat % 2 := by
    rw [fld_setFld_same _ _ _ (by decide)]; exact Nat.mod_mod _ _
  have hvpn : fld (setFld d pageSpace (v.toNat % 2)) pageVpn = fld d pageVpn := fld_setFld_other _ _ _ _ (by decide) (by decide)
  have hpage : pageAt (setFld d pageSpace (v.toNat % 2)) (v.toNat % 2) (fld d pageVpn) = p := by rw [hp]; rfl
  have himg : imgSp (setFld d pageSpace (v.toNat % 2)) (v.toNat % 2) = imgSp d (v.toNat % 2) := rfl
  unfold pageLookupOp
  dsimp only
  rw [if_pos hgo, hsp, hvpn, hpage, himg]
  rfl

/-- Settles O28. -/
theorem booksAndPagesAreShown : Obligations.BooksAndPagesAreShown := by
  unfold Obligations.BooksAndPagesAreShown
  refine fun s halive => ⟨fun hg => ?_, ?_, fun v hv => ?_, fun v hv => ?_, fun v p hp hgo => ?_, fun v hgo => ?_⟩
  · have hop : stampTickOp s.dev = { s.dev with trk := { s.dev.trk with stamp := (s.dev.trk.stamp + 1) % 65536 } } :=
      if_neg (by rw [Bool.not_eq_true]; exact hg)
    exact does_onDev _ rfl halive (hop ▸ (within_trk _ (by rfl)).only) (hop ▸ rfl)
  · exact does_onDev _ rfl halive (stampTickOp_within ..).only (watermarks_stamp _)
  · have hop : booksSnapOp v s.dev = setFlds s.dev [(booksFree, s.dev.trk.books.free), (booksAlloc, s.dev.trk.books.alloc),
        (booksTransit, s.dev.trk.books.transit), (booksRetired, s.dev.trk.books.retired)] := if_pos hv
    obtain ⟨h1, h2, h3, h4⟩ := booksSnap_fld s.dev s.dev.trk.books.free s.dev.trk.books.alloc s.dev.trk.books.transit s.dev.trk.books.retired
    refine does_onDev _ rfl halive ?_ ?_ <;> rw [hop]
    · exact (setFlds_within ..).only
    · exact ⟨h1, h2, h3, h4, (setFlds_regsBut s.dev _).mono (by dsimp only [List.map]; decide)⟩
  · have hop : booksSnapOp v s.dev = s.dev := if_neg (by omega)
    exact does_onDev _ rfl halive (hop.symm ▸ Only.refl _ _) trivial
  · have hop := pageLookupOp_go hp (by simpa [bits] using hgo)
    have honly : Only [.regs] s.dev (shownPage (v.toNat % 2) (if p.loc = 0 then pageClass_ (imgSp s.dev (v.toNat % 2)) (fld s.dev pageVpn) else p.cls) p s.dev) :=
      ((setFld_within ..).trans (setFlds_within ..)).only
    obtain ⟨h1, h2, h3, h4, h5, h6, h7, h8⟩ := shownPage_fld (v.toNat % 2) (if p.loc = 0 then pageClass_ (imgSp s.dev (v.toNat % 2)) (fld s.dev pageVpn) else p.cls) p s.dev
    have hregs := shownPage_regsBut (v.toNat % 2) (if p.loc = 0 then pageClass_ (imgSp s.dev (v.toNat % 2)) (fld s.dev pageVpn) else p.cls) p s.dev
    refine does_onDev _ rfl halive ?_ ?_ <;> rw [hop]
    · exact honly
    · exact ⟨h1.trans (Nat.mod_mod _ _), h2, h3, h4, h5, h6, h7, h8, hregs⟩
  · have hop : pageLookupOp v s.dev = setFld s.dev pageSpace (v.toNat % 2) := if_neg (by simp [bits] at hgo; omega)
    refine does_onDev _ rfl halive ?_ ?_ <;> rw [hop]
    · exact (setFld_within ..).only
    · exact ⟨(fld_setFld_same _ _ _ (by decide)).trans (Nat.mod_mod _ _), (setFld_regsBut s.dev pageSpace _).mono (by decide)⟩

end Sys2Proof.Machine
end

section
/-! PROOF. Errors recorded against a bucket, and what reads of the Trunk and of LPDDR6 record (R87 to R89, R441 to R451, R479 to R484). -/

namespace Sys2Proof.Machine

/-! ## An error that no policy makes permanent (R480, R481) -/

theorem bucket_setBucket (d : Dev) (n m : Nat) (b : Bucket) : bucket (setBucket d n b) m = if m = n then b else bucket d m :=
  Map.get_put _ _ _ _ _

theorem bucket_setBktState (d : Dev) (n m st : Nat) : bucket (setBktState d n st) m = if m = n then { bucket d n with state := st } else bucket d m :=
  bucket_setBucket _ _ _ _

theorem bucket_of_flt {d e : Dev} (h : e.flt = d.flt) (n : Nat) : bucket e n = bucket d n := by rw [bucket, h]; rfl

/-- The policy of the class of bucket `n` makes no error permanent. -/
def PolicyOff (d : Dev) (n : Nat) : Prop := fld d (polThresh (bktClass n)) = 0 ∧ fld d (polRepeat (bktClass n)) = 0

/-- The kind is permanent by what is recorded before it alone. -/
def Countable (kind : Nat) : Prop := kind ≠ 5 ∧ kind ≠ 0xA ∧ kind ≠ 0xB

theorem repeats_off {d : Dev} {n : Nat} (h : PolicyOff d n) (kind addr : Nat) : repeats d n kind addr = false := by
  unfold repeats
  rw [h.2]
  rfl

theorem reportErr_other {d : Dev} {n : Nat} (h : 96 ≤ n) (kind addr : Nat) : reportErr n kind addr d = d := by
  unfold reportErr
  rw [if_neg (by omega)]

theorem reportErr_regs (n kind addr : Nat) (d : Dev) : (reportErr n kind addr d).regs = d.regs := (reportErr_within ..).only .regs (by decide)

/-- What an error adds to its bucket. -/
def countedBucket (n kind addr : Nat) (d : Dev) : Bucket :=
  { level := min 4095 ((bucket d n).level + errWeight kind), state := (bucket d n).state
    last := ({ kind, addr, time := d.devTime.toNat } :: (bucket d n).last).take 8
    leakT := if (bucket d n).level = 0 then (reportErr n kind addr (bump d aErrTotal 1)).devTime.toNat else (bucket d n).leakT }

/-- The device with one error more in a bucket. -/
def errCounted (n kind addr : Nat) (d : Dev) : Dev := setBucket (reportErr n kind addr (bump d aErrTotal 1)) n (countedBucket n kind addr d)

/-- An error on a unit that is out of service is not recorded. -/
def outOfService (d : Dev) (n : Nat) : Prop := (bucket d n).state ≠ 0 ∨ bktFenced d n = true

theorem countError_out {d : Dev} {n : Nat} (h : outOfService d n) (kind addr : Nat) : countError n kind addr d = (d, none) :=
  if_pos (by simpa [outOfService] using h)

theorem countError_in {d : Dev} {n : Nat} (h : ¬ outOfService d n) (kind addr : Nat) : countError n kind addr d =
    (errCounted n kind addr d, if kind = 5 || kind = 0xA || kind = 0xB || repeats d n kind addr ||
      (fld (errCounted n kind addr d) (polThresh (bktClass n)) != 0 &&
        decide (fld (errCounted n kind addr d) (polThresh (bktClass n)) ≤ min 4095 ((bucket d n).level + errWeight kind)))
      then some (repeats d n kind addr) else none) :=
  if_neg (by simpa [outOfService] using h)

theorem errCounted_regsBut (n kind addr : Nat) (d : Dev) : RegsBut [aErrTotal] d (errCounted n kind addr d) :=
  (RegsBut.of_regs (bump_regsBut d aErrTotal 1) (reportErr_regs n kind addr _)).of_regs rfl

theorem polThresh_addr (c : Nat) (hc : c < 7) : (polThresh c).addr ≠ aErrTotal ∧ (polRepeat c).addr ≠ aErrTotal := by
  simp only [polThresh, polRepeat, aErrTotal]; omega

theorem bktClass_lt (n : Nat) : bktClass n < 7 := by unfold bktClass; split_ifs <;> decide

theorem recordError_out {d : Dev} {n : Nat} (nv : NonVol) (h : outOfService d n) (kind addr : Nat) : recordError nv n kind addr d = d := by
  unfold recordError; rw [countError_out h]

theorem recordError_in {d : Dev} {n kind : Nat} (nv : NonVol) (h : ¬ outOfService d n) (addr : Nat) (hoff : PolicyOff d n) (hk : Countable kind) :
    recordError nv n kind addr d = errCounted n kind addr d := by
  have hth : fld (errCounted n kind addr d) (polThresh (bktClass n)) = 0 :=
    ((errCounted_regsBut n kind addr d).fld (by simpa using (polThresh_addr _ (bktClass_lt n)).1)).trans hoff.1
  obtain ⟨h5, hA, hB⟩ := hk
  unfold recordError
  rw [countError_in h, hth, repeats_off hoff]
  simp [h5, hA, hB]

/-- What an error adds, when no policy makes it permanent. -/
structure Counts (n kind : Nat) (d e : Dev) : Prop where
  only : Only [.regs, .stem, .flt] d e
  regs : RegsBut [aErrTotal] d e
  stem : 96 ≤ n → e.stem = d.stem
  level : ¬ outOfService d n → (bucket e n).level = min 4095 ((bucket d n).level + errWeight kind)
  state : ∀ m, (bucket e m).state = (bucket d m).state

theorem recordError_counts {d : Dev} {n kind : Nat} (nv : NonVol) (addr : Nat) (hoff : PolicyOff d n) (hk : Countable kind) :
    Counts n kind d (recordError nv n kind addr d) := by
  by_cases h : outOfService d n
  · rw [recordError_out nv h]
    exact ⟨.refl _ _, .refl _ _, fun _ => rfl, fun hn => absurd h hn, fun _ => rfl⟩
  · rw [recordError_in nv h addr hoff hk]
    have honly := (countError_within n kind addr d).only
    rw [countError_in h] at honly
    have hbkt (m : Nat) : bucket (reportErr n kind addr (bump d aErrTotal 1)) m = bucket d m :=
      bucket_of_flt (((reportErr_within ..).only .flt (by decide)).trans ((bump_within ..).only .flt (by decide))) m
    refine ⟨honly, errCounted_regsBut n kind addr d, fun h96 => ?_, fun _ => ?_, fun m => ?_⟩
    · rw [errCounted, reportErr_other h96]; rfl
    · rw [errCounted, bucket_setBucket, if_pos rfl]; rfl
    · rw [errCounted, bucket_setBucket]
      split
      · next hm => rw [hm]; rfl
      · rw [hbkt]

/-- The last event stands through steps before it that keep the time, and after it that raise none. -/
theorem Raised.of_eq {code unit sev arg : Nat} {d d' e e' : Dev} (h : Raised code unit sev arg d' e') (ht : d'.devTime = d.devTime)
    (hr : e.root.lastEv = e'.root.lastEv) : Raised code unit sev arg d e := by
  rw [Raised, hr, ← ht]; exact h

/-! ## What service rests on -/

/-- None of the registers listed is one of the spare banks, of the fences or of the policies. -/
abbrev ServiceApart (l : List Nat) : Prop :=
  ∀ a ∈ l, a ≠ 0x100030 ∧ a ≠ 0x100034 ∧ ¬ (0x1B0000 ≤ a ∧ a < 0x1B000C) ∧ ¬ (0x1B0040 ≤ a ∧ a < 0x1B005C)

theorem ServiceApart.reg {l : List Nat} (h : ServiceApart l) {d e : Dev} (hr : RegsBut l d e) {a : Nat}
    (ha : a = 0x100030 ∨ a = 0x100034 ∨ (0x1B0000 ≤ a ∧ a < 0x1B000C) ∨ (0x1B0040 ≤ a ∧ a < 0x1B005C)) :
    Sys2Proof.Machine.reg e a = Sys2Proof.Machine.reg d a :=
  hr a fun hm => by have := h a hm; omega

theorem PolicyOff.of_regs {l : List Nat} {d e : Dev} {n : Nat} (hr : RegsBut l d e) (hl : ServiceApart l) (h : PolicyOff d n) : PolicyOff e n := by
  have hc := bktClass_lt n
  have hreg := hl.reg hr (a := 0x1B0040 + 4 * bktClass n) (by omega)
  exact ⟨(fld_of_reg (x := polThresh (bktClass n)) hreg).trans h.1, (fld_of_reg (x := polRepeat (bktClass n)) hreg).trans h.2⟩

theorem physBank_of_regs {l : List Nat} {d e : Dev} (hr : RegsBut l d e) (hl : ServiceApart l) (b i : Nat) : physBank e b i = physBank d b i := by
  have hf (x : Fld) (hx : x.addr = 0x100030 ∨ x.addr = 0x100034) : fld e x = fld d x := fld_of_reg (hl.reg hr (by omega))
  have hg (x : Fld) (hx : x.addr = 0x100030 ∨ x.addr = 0x100034) : flag e x = flag d x := congrArg (· == 1) (hf x hx)
  have hact := hg copyActive (.inr rfl)
  have hspare := hf copySpare (.inr rfl)
  have hmatch (s : Nat) : (flag e (spareInUse s) && fld e (spareBank s) == b && !(flag e copyActive && fld e copySpare == s)) =
      (flag d (spareInUse s) && fld d (spareBank s) == b && !(flag d copyActive && fld d copySpare == s)) := by
    rw [hg (spareInUse s) (.inl rfl), hf (spareBank s) (.inl rfl), hact, hspare]
  unfold physBank
  rw [funext hmatch, hact, hf copySrc (.inr rfl), hf copyDone (.inr rfl), hspare]

theorem bktUnit_lt (d : Dev) (n : Nat) : bktUnit d n < 0x60 := by
  have hbank : logicalBank d (n - 96) < 128 := by
    unfold logicalBank
    split
    · omega
    · exact fld_lt d (spareBank (n - 96 - 64))
  unfold bktUnit
  repeat' split
  all_goals omega

theorem bktUnit_of_regs {l : List Nat} {d e : Dev} (hr : RegsBut l d e) (hl : ServiceApart l) (n : Nat) : bktUnit e n = bktUnit d n := by
  have h30 := hl.reg hr (a := 0x100030) (by omega)
  simp only [bktUnit, logicalBank, fld, spareBank, h30]

theorem fenced_of_service {l : List Nat} {d e : Dev} (hr : RegsBut l d e) (hl : ServiceApart l) {u : Nat} (hu : u < 0x60) :
    fenced e u = fenced d u := by
  have := hl.reg hr (a := (fencedReg u).addr) (by simp only [fencedReg]; omega)
  rw [fenced, flag, fld_of_reg this]; rfl

theorem bktFenced_of_regs {l : List Nat} {d e : Dev} (hr : RegsBut l d e) (hl : ServiceApart l) (n : Nat) : bktFenced e n = bktFenced d n := by
  have h30 := hl.reg hr (a := 0x100030) (by omega)
  have hf := fenced_of_service hr hl (bktUnit_lt d n)
  have huse : flag e (spareInUse (n - 160)) = flag d (spareInUse (n - 160)) := by
    rw [flag, fld_of_reg (x := spareInUse (n - 160)) h30]; rfl
  rw [bktFenced, huse, bktUnit_of_regs hr hl, hf]; rfl

theorem outOfService_of_regs {l : List Nat} {d e : Dev} (hr : RegsBut l d e) (hl : ServiceApart l) {n : Nat}
    (hs : (bucket e n).state = (bucket d n).state) : outOfService e n ↔ outOfService d n := by
  rw [outOfService, outOfService, hs, bktFenced_of_regs hr hl]

/-! ## Trunk errors (R87) -/

theorem physBank_lt {d : Dev} {b : Nat} (hb : b < 64) (i : Nat) : physBank d b i < 68 := by
  have hspare : fld d copySpare < 4 := fld_lt d copySpare
  unfold physBank
  split
  · omega
  · split
    · next s hs =>
      have := List.mem_range.1 (List.mem_of_find?_eq_some hs)
      omega
    · omega

theorem bktClass_bank {d : Dev} {b : Nat} (hb : b < 64) (i : Nat) : bktClass (96 + physBank d b i) = 2 := by
  have := physBank_lt (d := d) hb i
  unfold bktClass
  split_ifs <;> omega

/-- The bucket that the errors of a Trunk line count in (R87). -/
abbrev lineBucket (d : Dev) (line : Nat) : Nat := 96 + physBank d (line / 1024 / 128) (line / 1024 % 128)

/-- The registers that the errors of a scrub change. -/
abbrev scrubRegs : List Nat := [aScrubCorr, aUncorr, aErrTotal, aEvtLost]

theorem scrubRegs_apart : ServiceApart scrubRegs := by decide

/-- A line has been read with `c` corrected and `b` uncorrected words so far. -/
structure Scrubbed (line c b : Nat) (d e : Dev) : Prop where
  only : Only [.regs, .usb, .root, .flt] d e
  regs : RegsBut scrubRegs d e
  corr : (reg e aScrubCorr).toNat = min ((reg d aScrubCorr).toNat + c) 0xFFFFFFFF
  uncorr : (reg e aUncorr).toNat = min ((reg d aUncorr).toNat + b) 0xFFFFFFFF
  state : ∀ m, (bucket e m).state = (bucket d m).state
  level : ¬ outOfService d (lineBucket d line) → (bucket e (lineBucket d line)).level =
    if c + b = 0 then (bucket d (lineBucket d line)).level else min 4095 ((bucket d (lineBucket d line)).level + c + 16 * b)
  raised : b ≠ 0 → Raised 0x0401 (0x20 + line / 1024 / 512) 2 (line / 1024) d e

theorem Scrubbed.refl (line : Nat) (d : Dev) : Scrubbed line 0 0 d d :=
  ⟨.refl _ _, .refl _ _, by have := (reg d aScrubCorr).isLt; omega, by have := (reg d aUncorr).isLt; omega, fun _ => rfl, fun _ => rfl,
    fun h => absurd rfl h⟩

theorem Scrubbed.bucket_eq {line c b : Nat} {d e : Dev} (h : Scrubbed line c b d e) : lineBucket e line = lineBucket d line := by
  rw [lineBucket, physBank_of_regs h.regs scrubRegs_apart]

theorem Scrubbed.out_iff {line c b : Nat} {d e : Dev} (h : Scrubbed line c b d e) (n : Nat) : outOfService e n ↔ outOfService d n :=
  outOfService_of_regs h.regs scrubRegs_apart (h.state n)

/-- A device that differs from another in registers that no bucket reads, and in the host's and Root's parts. -/
theorem Counts.after {n kind : Nat} {d e f : Dev} (h : Counts n kind e f) {l : List Nat} (hr : RegsBut l d e) (hl : ServiceApart l) (hf : e.flt = d.flt) :
    (¬ outOfService d n → (bucket f n).level = min 4095 ((bucket d n).level + errWeight kind)) ∧ ∀ m, (bucket f m).state = (bucket d m).state := by
  have hbkt := bucket_of_flt hf
  have hout : outOfService e n ↔ outOfService d n := outOfService_of_regs hr hl (congrArg Bucket.state (hbkt n))
  exact ⟨fun hin => hbkt n ▸ h.level (mt hout.1 hin), fun m => hbkt m ▸ h.state m⟩

theorem Counts.only_regs_flt {n kind : Nat} {d e : Dev} (h : Counts n kind d e) (hn : 96 ≤ n) : Only [.regs, .flt] d e := by
  intro p hp
  by_cases hs : p = .stem
  · subst hs; exact h.stem hn
  · exact h.only p (by simp_all)

/-- One error more of a line, recorded after `f` has counted it. -/
theorem Scrubbed.recorded {line c b kind : Nat} {d e f : Dev} (h : Scrubbed line c b d e) (nv : NonVol) (hf : Only [.regs, .usb, .root] e f)
    (hr : RegsBut scrubRegs e f) (hoff : PolicyOff d (lineBucket d line)) (hk : Countable kind) :
    Only [.regs, .usb, .root, .flt] d (recordError nv (lineBucket e line) kind line f) ∧
    RegsBut scrubRegs d (recordError nv (lineBucket e line) kind line f) ∧
    RegsBut [aErrTotal] f (recordError nv (lineBucket e line) kind line f) ∧
    (recordError nv (lineBucket e line) kind line f).root = f.root ∧
    (∀ m, (bucket (recordError nv (lineBucket e line) kind line f) m).state = (bucket d m).state) ∧
    (¬ outOfService d (lineBucket d line) → (bucket (recordError nv (lineBucket e line) kind line f) (lineBucket d line)).level =
      min 4095 ((bucket e (lineBucket d line)).level + errWeight kind)) := by
  have hcnt := recordError_counts nv line ((hoff.of_regs h.regs scrubRegs_apart).of_regs hr scrubRegs_apart) hk
  obtain ⟨hlev, hst⟩ := hcnt.after hr scrubRegs_apart (hf .flt (by decide))
  rw [h.bucket_eq]
  exact ⟨(h.only.via hf (by decide)).via (hcnt.only_regs_flt (Nat.le_add_right 96 _)) (by decide),
    (h.regs.trans hr).via hcnt.regs (by decide), hcnt.regs, hcnt.only .root (by decide), fun m => (hst m).trans (h.state m),
    fun hin => hlev (mt (h.out_iff _).1 hin)⟩

theorem Scrubbed.corrected {line c b : Nat} {d e : Dev} (h : Scrubbed line c b d e) (nv : NonVol)
    (hoff : PolicyOff d (lineBucket d line)) : Scrubbed line (c + 1) b d (trunkErr nv line false e) := by
  have honly := (bump_within e aScrubCorr 1).only
  obtain ⟨ho, hr, hcnt, hroot, hst, hlev⟩ := h.recorded nv (honly.mono (by decide)) ((bump_regsBut e aScrubCorr 1).mono (by decide)) hoff
    (kind := 1) ⟨by decide, by decide, by decide⟩
  refine ⟨ho, hr, (congrArg BitVec.toNat (hcnt _ (by decide))).trans ?_, (congrArg BitVec.toNat (hcnt _ (by decide))).trans ?_, hst,
    fun hin => (hlev hin).trans ?_, fun hne => ?_⟩
  · rw [reg_bump_same, h.corr]; omega
  · rw [reg_bump_other _ _ (by decide), h.uncorr]
  · rw [h.level hin, if_neg (show c + 1 + b ≠ 0 by omega), show errWeight 1 = 1 from rfl]
    split <;> omega
  · exact (h.raised hne).of_eq rfl (congrArg Root.lastEv (hroot.trans (honly .root (by decide))))

theorem Scrubbed.uncorrected {line c b : Nat} {d e : Dev} (h : Scrubbed line c b d e) (nv : NonVol) (hline : line < 8192 * 1024)
    (hoff : PolicyOff d (lineBucket d line)) : Scrubbed line c (b + 1) d (trunkErr nv line true e) := by
  have hbump := (bump_within e aUncorr 1).only
  have hraise := (raise_within_of_unit (d := bump e aUncorr 1) (unit := 0x20 + line / 1024 / 512) (by omega) 0x0401 2 (line / 1024)).only
  have hregs := raise_regsBut (bump e aUncorr 1) 0x0401 (0x20 + line / 1024 / 512) 2 (line / 1024)
  obtain ⟨ho, hr, hcnt, hroot, hst, hlev⟩ := h.recorded nv ((hbump.mono (by decide)).trans hraise)
    (((bump_regsBut e aUncorr 1).mono (by decide)).via hregs (by decide)) hoff (kind := 2) ⟨by decide, by decide, by decide⟩
  refine ⟨ho, hr, (congrArg BitVec.toNat ((hcnt _ (by decide)).trans (hregs _ (by decide)))).trans ?_,
    (congrArg BitVec.toNat ((hcnt _ (by decide)).trans (hregs _ (by decide)))).trans ?_, hst, fun hin => (hlev hin).trans ?_, fun _ => ?_⟩
  · rw [reg_bump_other _ _ (by decide), h.corr]
  · rw [reg_bump_same, h.uncorr]; omega
  · rw [h.level hin, if_neg (show c + (b + 1) ≠ 0 by omega), show errWeight 2 = 16 from rfl]
    split <;> omega
  · have harg : line / 1024 < 2 ^ 32 := by omega
    exact (raise_raised _ _ _ _ harg).of_eq ((hbump .devTime (by decide)).trans (h.only .devTime (by decide))) (congrArg Root.lastEv hroot)

theorem scrubbed_line {line : Nat} {d : Dev} (nv : NonVol) (hline : line < 8192 * 1024) (hoff : PolicyOff d (lineBucket d line)) (corr bad : Nat) :
    Scrubbed line corr bad d ((List.range bad).foldl (fun d _ => trunkErr nv line true d)
      ((List.range corr).foldl (fun d _ => trunkErr nv line false d) d)) := by
  have hcorr : Scrubbed line corr 0 d ((List.range corr).foldl (fun d _ => trunkErr nv line false d) d) := by
    induction corr with
    | zero => exact .refl line d
    | succ n ih => rw [List.range_succ, List.foldl_append]; exact ih.corrected nv hoff
  induction bad with
  | zero => exact hcorr
  | succ n ih => rw [List.range_succ, List.foldl_append]; exact ih.uncorrected nv hline hoff

theorem progDone_lastEv (d : Dev) (k : Nat) : (progDone d k).root.lastEv = d.root.lastEv := by
  unfold progDone
  dsimp only
  rw [setReg_root, progSet_lastEv]

theorem progAt_lastEv (d : Dev) (k p : Nat) : (progAt d k p).root.lastEv = d.root.lastEv := progSet_lastEv ..

/-- What ends the reading of a line: the pass moves on, or ends. -/
def scrubMoved (i : Nat) (d : Dev) : Dev :=
  if i + 1 < 8192 * 1024 then
    let d := { d with trk := { d.trk with scrub := some (i + 1) } }
    if (i + 1) % 1024 = 0 then
      let q := (i + 1) / 1024
      progSet d 4 1 (min 63 (q / 128)) q 8192 (1000 * q / 8192)
    else d
  else progDone { d with trk := { d.trk with scrub := none } } 4

theorem scrubLineOp_eq {d : Dev} {i : Nat} (nv : NonVol) (hs : d.trk.scrub = some i) (hen : flag d scrubEn = true) (corr bad : Nat) :
    scrubLineOp nv corr bad d = scrubMoved i ((List.range bad).foldl (fun d _ => trunkErr nv i true d)
      ((List.range corr).foldl (fun d _ => trunkErr nv i false d) d)) := by
  unfold scrubLineOp
  rw [hs]
  dsimp only
  rw [hen, if_neg (by decide), scrubMoved]

theorem scrubMoved_within (i : Nat) (d : Dev) : Within [.regs, .root, .trk] d (scrubMoved i d) := by
  unfold scrubMoved; dsimp only
  with_reducible
    refine .ite (.ite ?_ ?_) ?_
    · refine .via (.via (.refl _ _) (within_trk (h := by rfl) ..) (by decide)) (progSet_within ..) (by decide)
    · refine .via (.refl _ _) (within_trk (h := by rfl) ..) (by decide)
    · refine .via (.via (.refl _ _) (within_trk (h := by rfl) ..) (by decide)) (progDone_within ..) (by decide)

theorem scrubMoved_trk (i : Nat) (d : Dev) :
    (scrubMoved i d).trk = { d.trk with scrub := if i + 1 < 8192 * 1024 then some (i + 1) else none } := by
  unfold scrubMoved
  dsimp only
  split
  · split
    · exact (progSet_within ..).only .trk (by decide)
    · rfl
  · exact (progDone_within ..).only .trk (by decide)

theorem scrubMoved_regsBut (i : Nat) (d : Dev) : RegsBut [progA 4, progB 4] d (scrubMoved i d) := by
  unfold scrubMoved
  dsimp only
  split
  · split
    · exact (RegsBut.of_regs (.refl _ d) rfl).trans (progSet_regsBut _ _ _ _ _ _ _)
    · exact .of_regs (.refl _ d) rfl
  · exact (RegsBut.of_regs (.refl _ d) rfl).trans (progDone_regsBut _ _)

theorem scrubMoved_lastEv (i : Nat) (d : Dev) : (scrubMoved i d).root.lastEv = d.root.lastEv := by
  unfold scrubMoved
  dsimp only
  split
  · split
    · exact progSet_lastEv ..
    · rfl
  · exact progDone_lastEv ..

/-- Settles O29: the errors of a line are counted one by one (`scrubbed_line`); what follows touches the pass and its progress alone. -/
theorem scrubPassesOverEveryLine : Obligations.ScrubPassesOverEveryLine := by
  unfold Obligations.ScrubPassesOverEveryLine
  intro s halive hen
  refine ⟨fun hnone hdue => ?_, fun i corr bad n hscrub hi hn hth hrep => ?_⟩
  · have hop : scrubPassStartOp s.dev =
        progStart { s.dev with trk := { s.dev.trk with scrub := some 0, scrubT := max 1 s.dev.devTime.toNat } } 4 0 8192 :=
      if_pos (by simp [hen, hnone, hdue])
    refine does_onDev _ rfl halive ((scrubPassStartOp_within s.dev).only.mono (by decide)) ?_
    rw [hop]
    exact ⟨progStart_state _ _ _ (by decide), (RegsBut.of_regs (.refl _ _) rfl).trans (progStart_regsBut _ _ _ _),
      (progStart_within _ _ _ _).only .trk (by decide)⟩
  · subst hn
    obtain ⟨honly, hregs, hcorr, huncorr, hst, hlev, hraised⟩ := scrubbed_line s.nv hi ⟨hth, hrep⟩ corr bad
    have hmo := (scrubMoved_within i ((List.range bad).foldl (fun d _ => trunkErr s.nv i true d)
      ((List.range corr).foldl (fun d _ => trunkErr s.nv i false d) s.dev))).only
    have hop := scrubLineOp_eq s.nv hscrub hen corr bad
    generalize (List.range bad).foldl (fun d _ => trunkErr s.nv i true d)
      ((List.range corr).foldl (fun d _ => trunkErr s.nv i false d) s.dev) = e at *
    have hbkt := bucket_of_flt (hmo .flt (by decide))
    refine does_onDev _ rfl halive (hop ▸ (honly.mono (by decide)).via hmo (by decide)) ?_
    rw [hop]
    refine ⟨?_, ?_, ?_, fun hs0 hf0 => ?_, fun hne => (hraised hne).of_eq rfl (scrubMoved_lastEv i e)⟩
    · rw [scrubMoved_trk, honly .trk (by decide)]
    · rw [scrubMoved_regsBut i e _ (by decide), hcorr]
    · rw [scrubMoved_regsBut i e _ (by decide), huncorr]
    · have hin : ¬ outOfService s.dev (lineBucket s.dev i) := by
        rw [outOfService, hs0, hf0]; decide
      rw [hbkt, hlev hin]
      split
      · exact .inr ‹_›
      · exact .inl (by dsimp only [lineBucket]; omega)

/-! ## The copy of a retiring bank (R88, R89) -/

/-- A page that was held until its copy leaves transit. -/
def copyReleased (l : Nat) (d : Dev) : Dev :=
  if d.trk.copyHeld.contains l then moveBooks { d with trk := { d.trk with copyHeld := d.trk.copyHeld.erase l } } .transit .retired 1 else d

/-- Words of a page in use that could not be read are reported. -/
def copyReported (held : Bool) (bad b l : Nat) (d : Dev) : Dev :=
  if held && bad ≠ 0 then raise (bump d aUncorr bad) 0x0401 (0x20 + b / 4) 2 l else d

/-- Page `i` of the bank has been copied. -/
def copyMoved (i : Nat) (d : Dev) : Dev := progAt (setFld d copyDone (i + 1)) 8 (i + 1)

/-- The physical bank that has been copied. -/
def copiedBank (d : Dev) : Nat := d.flt.running.get 0 0 - 1

/-- A spare that has been copied stands in for no bank any more. -/
def spareFreed (p : Nat) (d : Dev) : Dev := if 64 ≤ p then setFlds d [(spareInUse (p - 64), 0), (spareBank (p - 64), 0)] else d

/-- The pages that were free when the copy began are free again. -/
def copyFreed (d : Dev) : Dev :=
  let d := moveBooks d .transit .free d.trk.copyFree.length
  { d with trk := { d.trk with copyFree := [] } }

/-- The bucket of the copied bank is retired, and the next retirement may run. -/
def bankRetired (p : Nat) (d : Dev) : Dev := setBktState { d with flt := { d.flt with running := d.flt.running.put 0 0 0 } } (96 + p) 2

/-- The copy has ended. -/
def copyEnded (d : Dev) : Dev := setFlds (bankRetired (copiedBank (copyFreed d)) (spareFreed (copiedBank (copyFreed d)) (copyFreed d))) [(copyActive, 0)]

/-- The spare holds the bank `b`. -/
def bankTaken (b : Nat) (d : Dev) : Dev :=
  progDone (raise (copyEnded d) 0x0406 (0x20 + b / 4) 4 (b + fld (copyEnded d) copySpare * 256)) 8

theorem bankPageCopiedOp_eq {d : Dev} {b i bad : Nat} (hact : flag d copyActive = true) (hb : b = fld d copySrc) (hi : i = fld d copyDone) :
    bankPageCopiedOp bad d =
      if i + 1 < 128 then copyMoved i (copyReported (d.trk.copyHeld.contains (b * 128 + i)) bad b (b * 128 + i) (copyReleased (b * 128 + i) d))
      else bankTaken b (copyMoved i (copyReported (d.trk.copyHeld.contains (b * 128 + i)) bad b (b * 128 + i) (copyReleased (b * 128 + i) d))) := by
  subst hb hi
  unfold bankPageCopiedOp
  rw [hact, if_neg (by decide)]
  extract_lets b i l held _ d₁ d₂ d₃ _ _ d₄ p d₅
  have h₁ : copyReleased l d = d₁ := rfl
  have h₂ : copyReported held bad b l d₁ = d₂ := rfl
  have h₃ : copyMoved i d₂ = d₃ := rfl
  rw [h₁, h₂, h₃]
  clear_value d₃
  have h₄ : copyFreed d₃ = d₄ := rfl
  have hp : copiedBank d₄ = p := rfl
  have h₅ : spareFreed p d₄ = d₅ := rfl
  rw [bankTaken, copyEnded, h₄, hp, h₅]
  clear_value d₅
  rfl

theorem copyReleased_within (l : Nat) (d : Dev) : Within [.trk] d (copyReleased l d) := by
  unfold copyReleased
  with_reducible
    refine .ite (.via (.via (.refl _ _) (within_trk (h := by rfl) ..) (by decide)) (moveBooks_within ..) (by decide)) (.refl _ _)

theorem copyReleased_trk (l : Nat) (d : Dev) : (copyReleased l d).trk = if d.trk.copyHeld.contains l then { d.trk with
    books := bookMove d.trk.books .transit .retired 1, copyHeld := d.trk.copyHeld.erase l } else d.trk := by
  unfold copyReleased
  split <;> rfl

theorem copyReported_zero (held : Bool) (b l : Nat) (d : Dev) : copyReported held 0 b l d = d := if_neg (by simp)

theorem copyMoved_within (i : Nat) (d : Dev) : Within [.regs, .root] d (copyMoved i d) :=
  .via ((setFld_within ..).mono (by decide)) (progAt_within ..) (by decide)

theorem copyMoved_done {i : Nat} (hi : i < 128) (d : Dev) : fld (copyMoved i d) copyDone = i + 1 := by
  rw [copyMoved, (progAt_regsBut _ _ _).fld (by decide), fld_setFld_same _ _ _ (by decide)]
  exact Nat.mod_eq_of_lt (show i + 1 < 256 by omega)

theorem copyMoved_regsBut (i : Nat) (d : Dev) : RegsBut [copyDone.addr, progA 8, progB 8] d (copyMoved i d) :=
  ((setFld_regsBut _ _ _).mono (by decide)).via (progAt_regsBut _ _ _) (by decide)

theorem copyMoved_lastEv (i : Nat) (d : Dev) : (copyMoved i d).root.lastEv = d.root.lastEv := by
  rw [copyMoved, progAt_lastEv, setFld_root]

theorem spareFreed_within (p : Nat) (d : Dev) : Within [.regs] d (spareFreed p d) := by
  unfold spareFreed
  with_reducible
    refine .ite (.via (.refl _ _) (setFlds_within ..) (by decide)) (.refl _ _)

theorem spareFreed_regsBut (p : Nat) (d : Dev) : RegsBut [0x100030] d (spareFreed p d) := by
  unfold spareFreed
  split
  · exact (setFlds_regsBut d _).mono (by simp [spareInUse, spareBank])
  · exact .refl _ _

theorem copyFreed_within (d : Dev) : Within [.trk] d (copyFreed d) := by
  unfold copyFreed; dsimp only
  with_reducible
    refine .via (.via (.refl _ _) (moveBooks_within ..) (by decide)) (within_trk (h := by rfl) ..) (by decide)

theorem bankRetired_within (p : Nat) (d : Dev) : Within [.flt] d (bankRetired p d) := by
  unfold bankRetired
  with_reducible
    refine .via (.via (.refl _ _) (within_flt ..) (by decide)) (setBktState_within ..) (by decide)

theorem bankRetired_shows (p : Nat) (d : Dev) : (bankRetired p d).flt.running.get 0 0 = 0 ∧ (bucket (bankRetired p d) (96 + p)).state = 2 := by
  refine ⟨?_, ?_⟩
  · exact Map.get_put_same 0 d.flt.running 0 0
  rw [bankRetired, bucket_setBktState, if_pos rfl]

theorem copyEnded_within (d : Dev) : Within [.regs, .trk, .flt] d (copyEnded d) := by
  unfold copyEnded
  with_reducible
    refine .via ?_ (setFlds_within ..) (by decide)
    refine .via ?_ (bankRetired_within ..) (by decide)
    refine .via ?_ (spareFreed_within ..) (by decide)
    refine .via (.refl _ _) (copyFreed_within ..) (by decide)

theorem copiedBank_eq {d e : Dev} (h : e.flt = d.flt) : copiedBank e = copiedBank d := by rw [copiedBank, h]; rfl

theorem copyEnded_shows (d : Dev) : flag (copyEnded d) copyActive = false ∧ fld (copyEnded d) copySpare = fld d copySpare ∧
    (copyEnded d).flt.running.get 0 0 = 0 ∧ (bucket (copyEnded d) (96 + copiedBank d)).state = 2 ∧ (copyEnded d).trk.copyFree = [] := by
  have hfreed := spareFreed_within (copiedBank (copyFreed d)) (copyFreed d)
  have hregs := (bankRetired_within (copiedBank (copyFreed d)) (spareFreed (copiedBank (copyFreed d)) (copyFreed d))).only
  have hlast := (setFlds_within (bankRetired (copiedBank (copyFreed d)) (spareFreed (copiedBank (copyFreed d)) (copyFreed d))) [(copyActive, 0)]).only
  obtain ⟨hrun, hst⟩ := bankRetired_shows (copiedBank (copyFreed d)) (spareFreed (copiedBank (copyFreed d)) (copyFreed d))
  refine ⟨?_, ?_, ?_, ?_, ?_⟩
  · rw [copyEnded, flag, setFlds_cons, setFlds_nil, fld_setFld_same _ _ _ (by decide)]; rfl
  · rw [copyEnded, setFlds_cons, setFlds_nil, fld_setFld_other _ _ _ _ (by decide) (by decide), fld_of_regs (hregs .regs (by decide)),
      (spareFreed_regsBut _ _).fld (by decide), fld_of_regs ((copyFreed_within d).only .regs (by decide))]
  · rw [copyEnded, hlast .flt (by decide)]; exact hrun
  · rw [copyEnded, bucket_of_flt (hlast .flt (by decide))]
    rw [copiedBank_eq ((copyFreed_within d).only .flt (by decide))] at hst
    exact hst
  · rw [copyEnded, hlast .trk (by decide), hregs .trk (by decide), hfreed.only .trk (by decide)]; rfl

/-- Settles O30. -/
theorem bankCopyEndsAtTheLastPage : Obligations.BankCopyEndsAtTheLastPage := by
  unfold Obligations.BankCopyEndsAtTheLastPage
  intro s b i halive hact hb hi
  have heq (bad : Nat) := bankPageCopiedOp_eq (bad := bad) hact hb hi
  have hrel := (copyReleased_within (b * 128 + i) s.dev).only
  have htrk := copyReleased_trk (b * 128 + i) s.dev
  generalize copyReleased (b * 128 + i) s.dev = r at heq hrel htrk
  refine ⟨fun hlt => ?_, fun hlast => ?_, fun bad hbad hlt hheld => ?_⟩
  · have hop : bankPageCopiedOp 0 s.dev = copyMoved i r := by
      rw [heq, if_pos (by omega), copyReported_zero]
    refine does_onDev _ rfl halive (hop ▸ (hrel.mono (by decide)).via (copyMoved_within i r).only (by decide)) ?_
    rw [hop]
    exact ⟨copyMoved_done (by omega) r, ((copyMoved_within i r).only .trk (by decide)).trans htrk,
      (RegsBut.of_only hrel (by decide) _).trans (copyMoved_regsBut i r)⟩
  · have hop : bankPageCopiedOp 0 s.dev = bankTaken b (copyMoved i r) := by
      rw [heq, if_neg (by omega), copyReported_zero]
    have hmo := ((hrel.mono (by decide)).via (copyMoved_within i r).only (by decide) : Only [.regs, .root, .trk] s.dev (copyMoved i r))
    have hb64 : b < 64 := hb ▸ fld_lt s.dev copySrc
    have hsp : fld s.dev copySpare < 4 := fld_lt _ copySpare
    have hend := (copyEnded_within (copyMoved i r)).only
    obtain ⟨hact', hspare, hrun, hst, hfree⟩ := copyEnded_shows (copyMoved i r)
    have hkept : fld (copyMoved i r) copySpare = fld s.dev copySpare := by
      rw [copyMoved, (progAt_regsBut _ _ _).fld (by decide), fld_setFld_other _ _ _ _ (by decide) (by decide),
        fld_of_regs (hrel .regs (by decide))]
    have hbank : copiedBank (copyMoved i r) = s.dev.flt.running.get 0 0 - 1 :=
      copiedBank_eq (hmo .flt (by decide))
    have hall : Only [.regs, .root, .trk, .flt] s.dev (copyEnded (copyMoved i r)) := (hmo.mono (by decide)).via hend (by decide)
    rw [bankTaken, hspare, hkept] at hop
    generalize copyEnded (copyMoved i r) = e at *
    have hraise := (raise_within_of_unit (d := e) (unit := 0x20 + b / 4) (by omega) 0x0406 4 (b + fld s.dev copySpare * 256)).only
    have hregs := raise_regsBut e 0x0406 (0x20 + b / 4) 4 (b + fld s.dev copySpare * 256)
    have hraised := raise_raised e 0x0406 (0x20 + b / 4) 4 (arg := b + fld s.dev copySpare * 256) (by omega)
    generalize raise e 0x0406 (0x20 + b / 4) 4 (b + fld s.dev copySpare * 256) = f at *
    have hdone := (progDone_within f 8).only
    refine does_onDev _ rfl halive (hop ▸ ((hall.mono (by decide)).via hraise (by decide)).via hdone (by decide)) ?_
    rw [hop, hbank] at *
    have hflt : (progDone f 8).flt = e.flt := (hdone .flt (by decide)).trans (hraise .flt (by decide))
    refine ⟨?_, hraised.of_eq (hall .devTime (by decide)) (progDone_lastEv f 8), ?_, progDone_state f (by decide), ?_, ?_⟩
    · rw [(progDone_regsBut f 8).flag (by decide), hregs.flag (by decide)]; exact hact'
    · rw [hflt]; exact hrun
    · rw [bucket_of_flt hflt]; exact hst
    · rw [hdone .trk (by decide), hraise .trk (by decide)]; exact hfree
  · have hb64 : b < 64 := hb ▸ fld_lt s.dev copySrc
    have hop : bankPageCopiedOp bad s.dev = copyMoved i (raise (bump r aUncorr bad) 0x0401 (0x20 + b / 4) 2 (b * 128 + i)) := by
      rw [heq, if_pos (by omega), hheld, copyReported, if_pos (by simp [hbad])]
    have hraise := (raise_within_of_unit (d := bump r aUncorr bad) (unit := 0x20 + b / 4) (by omega) 0x0401 2 (b * 128 + i)).only
    have hregs := raise_regsBut (bump r aUncorr bad) 0x0401 (0x20 + b / 4) 2 (b * 128 + i)
    have hraised := raise_raised (bump r aUncorr bad) 0x0401 (0x20 + b / 4) 2 (arg := b * 128 + i) (by omega)
    have hbump := (bump_within r aUncorr bad).only
    have hpre : Only [.regs, .usb, .root, .trk] s.dev (raise (bump r aUncorr bad) 0x0401 (0x20 + b / 4) 2 (b * 128 + i)) :=
      ((hrel.mono (by decide)).via hbump (by decide)).via hraise (by decide)
    generalize raise (bump r aUncorr bad) 0x0401 (0x20 + b / 4) 2 (b * 128 + i) = e at *
    refine does_onDev _ rfl halive (hop ▸ (hpre.via (copyMoved_within i e).only (by decide))) ?_
    rw [hop]
    refine ⟨copyMoved_done (by omega) e, ?_, ?_⟩
    · exact hraised.of_eq ((hbump .devTime (by decide)).trans (hrel .devTime (by decide))) (copyMoved_lastEv i e)
    · rw [copyMoved_regsBut i e _ (by decide), hregs _ (by decide), reg_bump_same, (RegsBut.of_only hrel (by decide) []) _ (by decide)]

end Sys2Proof.Machine
end

section
/-! PROOF. Reads, refresh and copies of LPDDR6 (R441 to R451), and the task states that a read marks. -/

namespace Sys2Proof.Machine

/-! ## Task states after a change of one -/

theorem frameOf_mapFrame (d : Dev) (p n : Nat) (o : Bool) {g : Frame → Frame} (hg : ∀ f, (g f).pipe = f.pipe ∧ (g f).pfn = f.pfn ∧ (g f).out = f.out)
    (q m : Nat) (r : Bool) : frameOf (mapFrame d p n o g) q m r =
      (frameOf d q m r).map (fun f => if f.pipe == p && f.pfn == n && f.out == o then g f else f) := by
  unfold frameOf mapFrame setFrames
  rw [List.find?_map]
  congr 2
  funext f
  obtain ⟨hp, hn, ho⟩ := hg f
  simp only [Function.comp]
  split
  · rw [hp, hn, ho]
  · rfl

/-- A frame with the state of one task changed. -/
def withTask (k : Nat) (g : TaskSt → TaskSt) (f : Frame) : Frame := { f with tasks := f.tasks.map (fun t => if t.task == k then g t else t) }

theorem mapTask_eq (d : Dev) (k n : Nat) (o : Bool) (g : TaskSt → TaskSt) :
    mapTask d k n o g = mapFrame d (kPipe (imgOf d o) k) n o (withTask k g) := rfl

theorem taskIn_withTask (f : Frame) {g : TaskSt → TaskSt} (hg : ∀ t, (g t).task = t.task) (k j : Nat) :
    taskIn (withTask k g f) j = (taskIn f j).map (fun t => if t.task == k then g t else t) := by
  unfold taskIn withTask
  rw [List.find?_map]
  congr 2
  funext t
  simp only [Function.comp]
  split
  · rw [hg]
  · rfl

/-- A task state found after a change was found before it, changed or not. -/
theorem taskSt_mapTask {d : Dev} {k n : Nat} {o : Bool} {g : TaskSt → TaskSt} (hg : ∀ t, (g t).task = t.task) {j m : Nat} {r : Bool} {t : TaskSt}
    (h : taskSt (mapTask d k n o g) j m r = some t) : ∃ t₀, taskSt d j m r = some t₀ ∧ (t = t₀ ∨ t = g t₀) := by
  have himg : kPipe (imgOf (mapTask d k n o g) r) j = kPipe (imgOf d r) j := rfl
  unfold taskSt at h ⊢
  rw [himg, mapTask_eq, frameOf_mapFrame (g := withTask k g) _ _ _ _ fun f => ⟨rfl, rfl, rfl⟩] at h
  cases hf : frameOf d (kPipe (imgOf d r) j) m r with
  | none => rw [hf] at h; cases h
  | some f =>
    rw [hf] at h
    simp only [Option.map_some] at h
    split at h
    · rw [taskIn_withTask f hg] at h
      obtain ⟨t₀, ht₀, rfl⟩ := Option.map_eq_some_iff.1 h
      exact ⟨t₀, ht₀, by split <;> simp⟩
    · exact ⟨t, h, .inl rfl⟩

/-- The task named is the changed one. -/
theorem taskSt_mapTask_same {d : Dev} {k n : Nat} {o : Bool} {g : TaskSt → TaskSt} (hg : ∀ t, (g t).task = t.task) :
    taskSt (mapTask d k n o g) k n o = (taskSt d k n o).map g := by
  have himg : kPipe (imgOf (mapTask d k n o g) o) k = kPipe (imgOf d o) k := rfl
  unfold taskSt
  rw [himg, mapTask_eq, frameOf_mapFrame (g := withTask k g) _ _ _ _ fun f => ⟨rfl, rfl, rfl⟩]
  cases hf : frameOf d (kPipe (imgOf d o) k) n o with
  | none => rfl
  | some f =>
    have hkey := List.find?_some hf
    simp only [Option.map_some]
    rw [if_pos hkey, taskIn_withTask f hg]
    cases ht : taskIn f k with
    | none => rfl
    | some t =>
      have htask : (t.task == k) = true := List.find?_some (p := fun t : TaskSt => t.task == k) ht
      simp only [Option.map_some]
      rw [if_pos htask]

theorem imgOf_of_spaces {d e : Dev} (h0 : e.root.space0 = d.root.space0) (h1 : e.root.space1 = d.root.space1) (out : Bool) :
    imgOf e out = imgOf d out := by
  unfold imgOf img0 img1; rw [h0, h1]

theorem taskSt_of {d e : Dev} (himg : ∀ out, imgOf e out = imgOf d out) (hstem : e.stem = d.stem) (k n : Nat) (o : Bool) :
    taskSt e k n o = taskSt d k n o := by
  unfold taskSt frameOf; rw [himg, hstem]

theorem testBit_setBit_true (v i : Nat) : (setBit v i true).testBit i = true := by
  unfold setBit
  split
  · assumption
  · next h => rw [if_pos rfl, Nat.add_comm, Nat.testBit_two_pow_add_eq]; simpa using h

/-- A task whose demand fetch read an uncorrectable word (R446). -/
def uncorrMarked (t : TaskSt) : TaskSt := { t with flags := setBit t.flags fUncorr true }

/-- Each of the tasks named is marked. -/
def markAll (l : List (Nat × Nat × Bool)) (d : Dev) : Dev := l.foldl (fun d k => mapTask d k.1 k.2.1 k.2.2 uncorrMarked) d

theorem markAll_within (l : List (Nat × Nat × Bool)) (d : Dev) : Within [.stem] d (markAll l d) := by
  unfold markAll
  with_reducible
    refine .foldl (.refl _ _) (fun _ _ => ?_)
    refine .via ?_ (mapTask_within ..) (by decide)
    exact .refl _ _

theorem markAll_keeps {l : List (Nat × Nat × Bool)} {d : Dev} {k n : Nat} {o : Bool}
    (h : ∀ t, taskSt d k n o = some t → t.flags.testBit fUncorr = true) :
    ∀ t, taskSt (markAll l d) k n o = some t → t.flags.testBit fUncorr = true := by
  induction l generalizing d with
  | nil => exact h
  | cons x l ih =>
    refine ih (d := mapTask d x.1 x.2.1 x.2.2 uncorrMarked) fun t ht => ?_
    obtain ⟨t₀, ht₀, rfl | rfl⟩ := taskSt_mapTask (g := uncorrMarked) (fun _ => rfl) ht
    · exact h _ ht₀
    · exact testBit_setBit_true _ _

theorem markAll_marks {l : List (Nat × Nat × Bool)} (d : Dev) {k : Nat × Nat × Bool} (hk : k ∈ l) :
    ∀ t, taskSt (markAll l d) k.1 k.2.1 k.2.2 = some t → t.flags.testBit fUncorr = true := by
  induction l generalizing d with
  | nil => cases hk
  | cons x l ih =>
    rcases List.mem_cons.1 hk with rfl | hk
    · refine markAll_keeps (d := mapTask d k.1 k.2.1 k.2.2 uncorrMarked) fun t ht => ?_
      rw [taskSt_mapTask_same (g := uncorrMarked) fun _ => rfl] at ht
      obtain ⟨t₀, _, rfl⟩ := Option.map_eq_some_iff.1 ht
      exact testBit_setBit_true _ _
    · exact ih _ hk

/-! ## Reads (R446, R447) -/

theorem lp6Channel_lt (a : Nat) : lp6Channel a < 8 := Nat.mod_lt _ (by decide)

theorem bktClass_lp6 {c : Nat} (hc : c < 8) : bktClass (164 + c) = 3 := by
  unfold bktClass
  rw [if_neg (by omega), if_neg (by omega), if_neg (by omega), if_pos (by omega)]

theorem windOn_off {d : Dev} (h : flag d wndEn = false) (kind dir index addr : Nat) : windOn d kind dir index addr = (d, none) :=
  if_pos (by simp [h])

theorem lp6ReadDoneOp_eq {d : Dev} (hav : flag d lp6Avail = true) (hw : flag d wndEn = false) (nv : NonVol) (a o : Nat) (link : Bool) :
    lp6ReadDoneOp nv a o link d = lp6Word nv (lp6Serves d a) a o (if 2 ≤ o then markAll (lp6Readers
        (if link then recordError nv (164 + lp6Serves d a) 4 (a / 64 % 2 ^ 32) (bump d aLp6Retry 1) else d) a)
        (if link then recordError nv (164 + lp6Serves d a) 4 (a / 64 % 2 ^ 32) (bump d aLp6Retry 1) else d)
      else if link then recordError nv (164 + lp6Serves d a) 4 (a / 64 % 2 ^ 32) (bump d aLp6Retry 1) else d) := by
  unfold lp6ReadDoneOp
  rw [hav, if_neg (by decide)]
  dsimp only
  rw [windOn_off hw]
  rfl

/-- A counter goes up by one and an error that no policy makes permanent is recorded against a channel. -/
theorem lp6Error_counts {d : Dev} {c kind k : Nat} (nv : NonVol) (hc : c < 8) (hth : fld d (polThresh 3) = 0) (hrep : fld d (polRepeat 3) = 0)
    (hk : Countable kind) (hkr : ServiceApart [k]) (addr : Nat) :
    Only [.regs, .flt] d (recordError nv (164 + c) kind addr (bump d k 1)) ∧
    (k ≠ aErrTotal → (reg (recordError nv (164 + c) kind addr (bump d k 1)) k).toNat = min ((reg d k).toNat + 1) 0xFFFFFFFF) ∧
    RegsBut [k, aErrTotal] d (recordError nv (164 + c) kind addr (bump d k 1)) := by
  have hoff : PolicyOff d (164 + c) := by rw [PolicyOff, bktClass_lp6 hc]; exact ⟨hth, hrep⟩
  have hcnt := recordError_counts nv addr (hoff.of_regs (bump_regsBut d k 1) hkr) hk
  refine ⟨((bump_within d k 1).only.mono (by decide)).trans (hcnt.only_regs_flt (by omega)), fun hne => ?_,
    ((bump_regsBut d k 1).mono (by simp)).via hcnt.regs (by simp)⟩
  rw [hcnt.regs k (by simpa using hne), reg_bump_same]

/-- What an uncorrected word leaves in the registers. -/
def lp6Counted (o c a : Nat) (d : Dev) : Dev :=
  setFlds (bump (if o = 2 then bump d aLp6Addr 1 else d) aLp6Uncorr 1) [(lp6ErrLo, a % 2 ^ 32), (lp6ErrHi, a / 2 ^ 32), (lp6ErrChan, c)]

theorem lp6Word_bad {o : Nat} (h2 : 2 ≤ o) (nv : NonVol) (c a : Nat) (d : Dev) : lp6Word nv c a o d =
    recordError nv (164 + c) (if o = 2 then 7 else 2) (a / 64 % 2 ^ 32)
      (raise (lp6Counted o c a d) (if o = 2 then 0x0421 else 0x0420) (0x30 + c) 2 (a / 64 % 2 ^ 32)) := by
  match o, h2 with
  | 2, _ => rfl
  | n + 3, _ => rfl

theorem lp6Counted_shows (o : Nat) {c a : Nat} (hc : c < 8) (ha : a < 2 ^ 35) (d : Dev) :
    Only [.regs] d (lp6Counted o c a d) ∧ RegsBut [aLp6Addr, aLp6Uncorr, lp6ErrLo.addr, lp6ErrHi.addr] d (lp6Counted o c a d) ∧
    (reg (lp6Counted o c a d) aLp6Uncorr).toNat = min ((reg d aLp6Uncorr).toNat + 1) 0xFFFFFFFF ∧
    (reg (lp6Counted o c a d) aLp6Addr).toNat = min ((reg d aLp6Addr).toNat + if o = 2 then 1 else 0) 0xFFFFFFFF ∧
    fld (lp6Counted o c a d) lp6ErrLo = a % 2 ^ 32 ∧ fld (lp6Counted o c a d) lp6ErrHi = a / 2 ^ 32 ∧
    fld (lp6Counted o c a d) lp6ErrChan = c := by
  unfold lp6Counted
  have haddr : Only [.regs] d (if o = 2 then bump d aLp6Addr 1 else d) ∧ RegsBut [aLp6Addr] d (if o = 2 then bump d aLp6Addr 1 else d) ∧
      (reg (if o = 2 then bump d aLp6Addr 1 else d) aLp6Addr).toNat = min ((reg d aLp6Addr).toNat + if o = 2 then 1 else 0) 0xFFFFFFFF := by
    split
    · exact ⟨(bump_within ..).only, bump_regsBut _ _ _, reg_bump_same ..⟩
    · exact ⟨.refl _ _, .refl _ _, by have := (reg d aLp6Addr).isLt; omega⟩
  obtain ⟨ho, hr, hv⟩ := haddr
  generalize (if o = 2 then bump d aLp6Addr 1 else d) = e at *
  have hset := setFlds_regsBut (bump e aLp6Uncorr 1) [(lp6ErrLo, a % 2 ^ 32), (lp6ErrHi, a / 2 ^ 32), (lp6ErrChan, c)]
  refine ⟨(ho.trans (bump_within ..).only).trans (setFlds_within ..).only,
    ((hr.mono (by decide)).via (bump_regsBut _ _ _) (by decide)).via hset (by dsimp only [List.map]; decide), ?_, ?_, ?_⟩
  · rw [hset _ (by dsimp only [List.map]; decide), reg_bump_same, hr _ (by decide)]
  · rw [hset _ (by dsimp only [List.map]; decide), reg_bump_other _ _ (by decide), hv]
  · simp (disch := decide) only [setFlds_cons, setFlds_nil, fld_setFld_same, fld_setFld_other]
    exact ⟨Nat.mod_eq_of_lt (Nat.mod_lt _ (by decide)), Nat.mod_eq_of_lt (show a / 2 ^ 32 < 2 ^ 3 by omega), Nat.mod_eq_of_lt (show c < 2 ^ 3 from hc)⟩

/-- Settles O31. -/
theorem lp6ReadsCountTheirErrors : Obligations.Lp6ReadsCountTheirErrors := by
  unfold Obligations.Lp6ReadsCountTheirErrors
  intro a s halive hav ha hw hth hrep
  have heq := lp6ReadDoneOp_eq hav hw s.nv a
  have hc : lp6Serves s.dev a < 8 := lp6Channel_lt _
  refine ⟨?_, ?_, fun o ho => ?_, ?_⟩
  · exact does_onDev _ rfl halive (by rw [heq]; exact .refl _ _) trivial
  · obtain ⟨honly, hcount, hregs⟩ := lp6Error_counts s.nv hc hth hrep (kind := 1) ⟨by decide, by decide, by decide⟩ (k := aLp6Corr) (by decide)
      (a / 64 % 2 ^ 32)
    have hop : lp6ReadDoneOp s.nv a 1 false s.dev = recordError s.nv (164 + lp6Serves s.dev a) 1 (a / 64 % 2 ^ 32) (bump s.dev aLp6Corr 1) := heq 1 false
    exact does_onDev _ rfl halive (hop ▸ honly) (hop ▸ ⟨hcount (by decide), hregs⟩)
  · have hop : lp6ReadDoneOp s.nv a o false s.dev = lp6Word s.nv (lp6Serves s.dev a) a o (markAll (lp6Readers s.dev a) s.dev) :=
      (heq o false).trans (by rw [if_pos ho]; rfl)
    rw [lp6Word_bad ho] at hop
    have hmark := (markAll_within (lp6Readers s.dev a) s.dev).only
    have hmarks (k) (hk : k ∈ lp6Readers s.dev a) := markAll_marks s.dev hk
    have hnone : lp6Readers s.dev a = [] → (markAll (lp6Readers s.dev a) s.dev).stem = s.dev.stem := fun h => by rw [h]; rfl
    generalize markAll (lp6Readers s.dev a) s.dev = m at *
    obtain ⟨hcounted, hcregs, hunc, haddr, hlo, hhi, hchan⟩ := lp6Counted_shows o hc ha m
    generalize lp6Counted o (lp6Serves s.dev a) a m = f at *
    have hunit : 0x30 + lp6Serves s.dev a < 0x10 ∨ 0x20 ≤ 0x30 + lp6Serves s.dev a := by omega
    have hraise := (raise_within_of_unit (d := f) hunit (if o.val = 2 then 0x0421 else 0x0420) 2 (a / 64 % 2 ^ 32)).only
    have hrregs := raise_regsBut f (if o.val = 2 then 0x0421 else 0x0420) (0x30 + lp6Serves s.dev a) 2 (a / 64 % 2 ^ 32)
    have hraised := raise_raised f (if o.val = 2 then 0x0421 else 0x0420) (0x30 + lp6Serves s.dev a) 2 (arg := a / 64 % 2 ^ 32) (Nat.mod_lt _ (by decide))
    have himgs : (raise f (if o.val = 2 then 0x0421 else 0x0420) (0x30 + lp6Serves s.dev a) 2 (a / 64 % 2 ^ 32)).root.space0 = f.root.space0 ∧
        (raise f (if o.val = 2 then 0x0421 else 0x0420) (0x30 + lp6Serves s.dev a) 2 (a / 64 % 2 ^ 32)).root.space1 = f.root.space1 := by
      rw [raise_root]; exact ⟨rfl, rfl⟩
    have hread : RegsBut [] s.dev m := .of_only hmark (by decide) []
    have hfirst : RegsBut [aLp6Addr, aLp6Uncorr, lp6ErrLo.addr, lp6ErrHi.addr, aEvtLost] s.dev
        (raise f (if o.val = 2 then 0x0421 else 0x0420) (0x30 + lp6Serves s.dev a) 2 (a / 64 % 2 ^ 32)) :=
      ((hread.mono (by decide)).via hcregs (by decide)).via hrregs (by decide)
    have hoff : PolicyOff s.dev (164 + lp6Serves s.dev a) := by rw [PolicyOff, bktClass_lp6 hc]; exact ⟨hth, hrep⟩
    have hcnt := recordError_counts s.nv (a / 64 % 2 ^ 32) (hoff.of_regs hfirst (by decide)) (kind := if o.val = 2 then 7 else 2)
      (by split <;> exact ⟨by decide, by decide, by decide⟩)
    generalize raise f (if o.val = 2 then 0x0421 else 0x0420) (0x30 + lp6Serves s.dev a) 2 (a / 64 % 2 ^ 32) = g at *
    have hlast := hcnt.only_regs_flt (by omega)
    have hafter := hcnt.regs
    generalize recordError s.nv (164 + lp6Serves s.dev a) (if o.val = 2 then 7 else 2) (a / 64 % 2 ^ 32) g = e at *
    have hstem : e.stem = m.stem := (hlast .stem (by decide)).trans ((hraise .stem (by decide)).trans (hcounted .stem (by decide)))
    have himg (out : Bool) : imgOf e out = imgOf m out := by
      rw [hcounted .root (by decide), ← hlast .root (by decide)] at himgs
      exact imgOf_of_spaces himgs.1 himgs.2 out
    refine does_onDev _ rfl halive (hop ▸ (((hmark.mono (by decide)).via hcounted (by decide)).via hraise (by decide)).via hlast (by decide)) ?_
    rw [hop]
    have htwo : o = 2 ↔ o.val = 2 := Fin.ext_iff
    simp only [htwo]
    refine ⟨fun h => hstem.trans (hnone h), fun k t hk ht => hmarks k hk t ?_, ?_, ?_, ?_, ?_, ?_, ?_⟩
    · rwa [taskSt_of himg hstem] at ht
    · rw [hafter _ (by decide), hrregs _ (by decide), hunc, hread _ (by decide)]
    · rw [hafter _ (by decide), hrregs _ (by decide), haddr, hread _ (by decide)]
    · rw [hafter.fld (by decide), hrregs.fld (by decide), hlo]
    · rw [hafter.fld (by decide), hrregs.fld (by decide), hhi]
    · rw [hafter.fld (by decide), hrregs.fld (by decide), hchan]
    · exact hraised.of_eq ((hcounted .devTime (by decide)).trans (hmark .devTime (by decide))) (congrArg Root.lastEv (hlast .root (by decide)))
  · obtain ⟨honly, hcount, hregs⟩ := lp6Error_counts s.nv hc hth hrep (kind := 4) ⟨by decide, by decide, by decide⟩ (k := aLp6Retry) (by decide)
      (a / 64 % 2 ^ 32)
    have hop : lp6ReadDoneOp s.nv a 0 true s.dev = recordError s.nv (164 + lp6Serves s.dev a) 4 (a / 64 % 2 ^ 32) (bump s.dev aLp6Retry 1) := heq 0 true
    exact does_onDev _ rfl halive (hop ▸ honly) (hop ▸ ⟨hcount (by decide), hregs⟩)

/-! ## Refresh, copied granules and the seed area (R443, R448, R450, R451) -/

theorem lp6RefreshOp_shows {c t : Nat} (hc : c < 8) (ht : t < 16) (d : Dev) : fld (lp6RefreshOp c t d) (lp6Temp c) = t ∧
    (∀ q, q < 8 → q ≠ c → fld (lp6RefreshOp c t d) (lp6Temp q) = fld d (lp6Temp q)) ∧ RegsBut [(lp6Temp 0).addr] d (lp6RefreshOp c t d) := by
  have hfit : (lp6Temp c).lo + (lp6Temp c).width ≤ 32 := by simp only [lp6Temp]; omega
  refine ⟨(fld_setFld_same d _ _ hfit).trans (Nat.mod_eq_of_lt ht), fun q hq hne => fld_setFld_other d _ _ _ hfit ?_, setFld_regsBut d (lp6Temp c) t⟩
  simp only [lp6Temp]
  omega

/-- The granule that block `k` holds of channel `c`. -/
def granuleOf (k c : Nat) : Nat := 8 * k + (lowest 8 (fun i => lp6Channel ((8 * k + i) * 2048) == c)).getD 0

/-- The words of a granule are read as any are. -/
def granuleRead (nv : NonVol) (c g : Nat) (words : List (Nat × Nat)) (d : Dev) : Dev :=
  words.foldl (fun d w => lp6Word nv c (g * 2048 + 8 * w.1) w.2 d) d

/-- The copy of a channel has moved past block `k`. -/
def granuleMoved (k : Nat) (d : Dev) : Dev := progAt (setFld d lp6RetDone (k + 1)) 10 (k + 1)

/-- The bucket of the channel is retired, and the next retirement may run. -/
def chanRetired (c : Nat) (d : Dev) : Dev := setBktState { d with flt := { d.flt with running := d.flt.running.put 0 1 0 } } (164 + c) 2

/-- The copy of a channel has ended. -/
def chanCopied (c : Nat) (d : Dev) : Dev :=
  progDone (raise (setFld (chanRetired c d) lp6RetActive 0) 0x0423 (0x30 + c) 4 (c + min (chanRetired c d).trk.chanBad 0xFFFFFF * 256)) 10

/-- A copy whose words were correctable at most. -/
theorem lp6GranuleOp_eq {d : Dev} {k c : Nat} (hact : flag d lp6RetActive = true) (hk : fld d lp6RetDone = k) (hc : fld d lp6RetChan = c)
    {words : List (Nat × Nat)} (hw : ∀ w ∈ words, w.2 < 2) (nv : NonVol) : lp6GranuleOp nv words d =
      if k + 1 < lp6Blocks (granuleMoved k (granuleRead nv c (granuleOf k c) words d)) then granuleMoved k (granuleRead nv c (granuleOf k c) words d)
      else chanCopied c (granuleMoved k (granuleRead nv c (granuleOf k c) words d)) := by
  have hbad : words.filter (fun w => decide (2 ≤ w.2)) = [] :=
    List.filter_eq_nil_iff.2 fun w hm => by simpa using hw w hm
  unfold lp6GranuleOp
  subst hk hc
  rw [hact, if_neg (by decide), hbad]
  extract_lets k c bad _ d₁ g d₂ d₃ _ d₄
  have h₂ : granuleRead nv c (granuleOf k c) words d = d₂ := rfl
  have h₃ : granuleMoved k d₂ = d₃ := rfl
  have h₄ : chanRetired c d₃ = d₄ := rfl
  rw [h₂, h₃, chanCopied, h₄]

/-- Words read with a correctable error are counted, whatever the granule. -/
theorem granuleRead_counts {c : Nat} (hc : c < 8) (nv : NonVol) (g : Nat) (words : List (Nat × Nat)) (hw : ∀ w ∈ words, w.2 = 1) (d : Dev)
    (hoff : words = [] ∨ (fld d (polThresh 3) = 0 ∧ fld d (polRepeat 3) = 0)) :
    Only [.regs, .flt] d (granuleRead nv c g words d) ∧ RegsBut [aLp6Corr, aErrTotal] d (granuleRead nv c g words d) ∧
    (reg (granuleRead nv c g words d) aLp6Corr).toNat = min ((reg d aLp6Corr).toNat + words.length) 0xFFFFFFFF := by
  induction words generalizing d with
  | nil => exact ⟨.refl _ _, .refl _ _, by have := (reg d aLp6Corr).isLt; simp only [granuleRead, List.foldl_nil, List.length_nil]; omega⟩
  | cons w l ih =>
    obtain ⟨hth, hrep⟩ := hoff.resolve_left (by simp)
    obtain ⟨honly, hcount, hregs⟩ := lp6Error_counts nv hc hth hrep (kind := 1) ⟨by decide, by decide, by decide⟩ (k := aLp6Corr) (by decide)
      ((g * 2048 + 8 * w.1) / 64 % 2 ^ 32)
    have hstep : granuleRead nv c g (w :: l) d = granuleRead nv c g l
        (recordError nv (164 + c) 1 ((g * 2048 + 8 * w.1) / 64 % 2 ^ 32) (bump d aLp6Corr 1)) := by
      rw [granuleRead, List.foldl_cons, hw w (by simp)]; rfl
    rw [hstep]
    generalize recordError nv (164 + c) 1 ((g * 2048 + 8 * w.1) / 64 % 2 ^ 32) (bump d aLp6Corr 1) = e at *
    obtain ⟨ho, hr, hv⟩ := ih (fun x hx => hw x (by simp [hx])) e (.inr ⟨(hregs.fld (by decide)).trans hth, (hregs.fld (by decide)).trans hrep⟩)
    refine ⟨honly.trans ho, hregs.trans hr, ?_⟩
    rw [hv, hcount (by decide), List.length_cons]
    omega

theorem granuleMoved_within (k : Nat) (d : Dev) : Within [.regs, .root] d (granuleMoved k d) :=
  .via ((setFld_within ..).mono (by decide)) (progAt_within ..) (by decide)

theorem granuleMoved_regsBut (k : Nat) (d : Dev) : RegsBut [lp6RetDone.addr, progA 10, progB 10] d (granuleMoved k d) :=
  ((setFld_regsBut _ _ _).mono (by decide)).via (progAt_regsBut _ _ _) (by decide)

theorem granuleMoved_done (k : Nat) (d : Dev) : fld (granuleMoved k d) lp6RetDone = (k + 1) % 2 ^ 21 := by
  rw [granuleMoved, (progAt_regsBut _ _ _).fld (by decide), fld_setFld_same _ _ _ (by decide)]
  rfl

theorem granuleMoved_lastEv (k : Nat) (d : Dev) : (granuleMoved k d).root.lastEv = d.root.lastEv := by
  rw [granuleMoved, progAt_lastEv, setFld_root]

theorem lp6Blocks_of_regs {l : List Nat} {d e : Dev} (h : RegsBut l d e) (hl : 0x120000 ∉ l) : lp6Blocks e = lp6Blocks d := by
  rw [lp6Blocks, lp6Capacity, h.fld (x := lp6Density) hl]; rfl

theorem chanRetired_within (c : Nat) (d : Dev) : Within [.flt] d (chanRetired c d) := by
  unfold chanRetired
  with_reducible
    refine .via (.via (.refl _ _) (within_flt ..) (by decide)) (setBktState_within ..) (by decide)

theorem chanRetired_shows (c : Nat) (d : Dev) : (chanRetired c d).flt.running.get 0 1 = 0 ∧ (bucket (chanRetired c d) (164 + c)).state = 2 := by
  refine ⟨?_, ?_⟩
  · exact Map.get_put_same 0 d.flt.running 1 0
  · rw [chanRetired, bucket_setBktState, if_pos rfl]

theorem chanCopied_shows {c : Nat} (hc : c < 8) (d : Dev) : Only [.regs, .usb, .root, .flt] d (chanCopied c d) ∧
    flag (chanCopied c d) lp6RetActive = false ∧ (bucket (chanCopied c d) (164 + c)).state = 2 ∧ (chanCopied c d).flt.running.get 0 1 = 0 ∧
    Raised 0x0423 (0x30 + c) 4 (c + min d.trk.chanBad 0xFFFFFF * 256) d (chanCopied c d) := by
  have hret := (chanRetired_within c d).only
  obtain ⟨hrun, hst⟩ := chanRetired_shows c d
  rw [chanCopied, hret .trk (by decide)]
  generalize chanRetired c d = e at *
  have hset := (setFld_within e lp6RetActive 0).only
  have hoff : flag (setFld e lp6RetActive 0) lp6RetActive = false := by rw [flag, fld_setFld_same _ _ _ (by decide)]; rfl
  generalize setFld e lp6RetActive 0 = f at *
  have hraise := (raise_within_of_unit (d := f) (unit := 0x30 + c) (by omega) 0x0423 4 (c + min d.trk.chanBad 0xFFFFFF * 256)).only
  have hregs := raise_regsBut f 0x0423 (0x30 + c) 4 (c + min d.trk.chanBad 0xFFFFFF * 256)
  have hraised := raise_raised f 0x0423 (0x30 + c) 4 (arg := c + min d.trk.chanBad 0xFFFFFF * 256) (by omega)
  generalize raise f 0x0423 (0x30 + c) 4 (c + min d.trk.chanBad 0xFFFFFF * 256) = g at *
  have hdone := (progDone_within g 10).only
  have hflt : (progDone g 10).flt = e.flt := (hdone .flt (by decide)).trans ((hraise .flt (by decide)).trans (hset .flt (by decide)))
  refine ⟨(((hret.mono (by decide)).via hset (by decide)).via hraise (by decide)).via hdone (by decide), ?_, ?_, ?_,
    hraised.of_eq ((hset .devTime (by decide)).trans (hret .devTime (by decide))) (progDone_lastEv g 10)⟩
  · rw [(progDone_regsBut g 10).flag (by decide), hregs.flag (by decide)]; exact hoff
  · rw [bucket_of_flt hflt]; exact hst
  · rw [hflt]; exact hrun

theorem lp6AreaOp_free {d : Dev} (hp : d.root.packs = []) (hg : hasGraft d = false) (h1 : fld d graftSpace1 = 0) (v : Word) :
    lp6AreaOp v d = setFld d lp6Seed (min (max 1 (v.toNat % 256)) ((lp6Capacity d * 7 / 8 - 0x2000000 - 1) / 0x4000000)) :=
  if_pos (by simp [hp, hg, h1])

theorem lp6AreaOp_used {d : Dev} (h : d.root.packs ≠ [] ∨ hasGraft d = true ∨ fld d graftSpace1 ≠ 0) (v : Word) : lp6AreaOp v d = d :=
  if_neg (by rcases h with h | h | h <;> simp [h])

/-- Settles O32. -/
theorem lp6RefreshCopyAndArea : Obligations.Lp6RefreshCopyAndArea := by
  unfold Obligations.Lp6RefreshCopyAndArea
  intro s halive
  have hc : fld s.dev lp6RetChan < 8 := fld_lt s.dev lp6RetChan
  refine ⟨fun c t => ?_, fun hact hmore words hw hoff => ?_, fun hact hend => ?_, fun v hp hg h1 => ?_, fun v hused => ?_⟩
  · obtain ⟨htemp, hother, hregs⟩ := lp6RefreshOp_shows c.isLt t.isLt s.dev
    exact does_onDev _ rfl halive (setFld_within ..).only ⟨htemp, fun q hq => hother q q.isLt fun h => hq (Fin.ext h), hregs⟩
  · have hone : ∀ w ∈ words.map (fun w => (w.1.val, w.2.val)), w.2 = 1 := by
      intro w hm
      obtain ⟨x, hx, rfl⟩ := List.mem_map.1 hm
      rw [hw x hx]; rfl
    have heq := lp6GranuleOp_eq hact rfl rfl (fun w hm => by rw [hone w hm]; decide) s.nv
    obtain ⟨honly, hregs, hcount⟩ := granuleRead_counts hc s.nv (granuleOf (fld s.dev lp6RetDone) (fld s.dev lp6RetChan)) _ hone s.dev
      (hoff.imp_left fun h => by rw [h]; rfl)
    rw [List.length_map] at hcount
    have hnil : words = [] → granuleRead s.nv (fld s.dev lp6RetChan) (granuleOf (fld s.dev lp6RetDone) (fld s.dev lp6RetChan))
        (words.map (fun w => (w.1.val, w.2.val))) s.dev = s.dev := fun h => by rw [h]; rfl
    generalize granuleRead s.nv (fld s.dev lp6RetChan) (granuleOf (fld s.dev lp6RetDone) (fld s.dev lp6RetChan))
      (words.map (fun w => (w.1.val, w.2.val))) s.dev = f at *
    have hmr := granuleMoved_regsBut (fld s.dev lp6RetDone) f
    have hmo := (granuleMoved_within (fld s.dev lp6RetDone) f).only
    rw [lp6Blocks_of_regs hmr (by decide), lp6Blocks_of_regs hregs (by decide), if_pos hmore] at heq
    refine does_onDev _ rfl halive (heq ▸ (honly.mono (by decide)).via hmo (by decide)) ?_
    rw [heq]
    refine ⟨granuleMoved_done _ f, ?_, fun h => ⟨?_, ?_⟩, (hregs.mono (by decide)).via hmr (by decide)⟩
    · rw [hmr _ (by decide), hcount]
    · rw [hmo .flt (by decide), hnil h]
    · rwa [hnil h] at hmr ⊢
  · have heq := lp6GranuleOp_eq (words := []) hact rfl rfl (by simp) s.nv
    have hread : granuleRead s.nv (fld s.dev lp6RetChan) (granuleOf (fld s.dev lp6RetDone) (fld s.dev lp6RetChan)) [] s.dev = s.dev := rfl
    have hmr := granuleMoved_regsBut (fld s.dev lp6RetDone) s.dev
    have hmo := (granuleMoved_within (fld s.dev lp6RetDone) s.dev).only
    rw [hread, lp6Blocks_of_regs hmr (by decide), if_neg (by omega)] at heq
    generalize granuleMoved (fld s.dev lp6RetDone) s.dev = f at *
    obtain ⟨honly, hact', hst, hrun, hraised⟩ := chanCopied_shows hc f
    refine does_onDev (lp6GranuleOp s.nv []) rfl halive (heq ▸ (hmo.mono (by decide)).via honly (by decide)) ?_
    rw [heq]
    rw [hmo .trk (by decide)] at hraised
    exact ⟨hact', hst, hrun, (honly .trk (by decide)).trans (hmo .trk (by decide)), hraised.of_eq (hmo .devTime (by decide)) rfl⟩
  · have hop := lp6AreaOp_free hp hg h1 v
    refine does_onDev _ rfl halive (hop ▸ (setFld_within ..).only) ?_
    rw [hop]
    exact ⟨setFld_regsBut _ _ _, fld_setFld_same _ _ _ (by decide)⟩
  · have hop := lp6AreaOp_used hused v
    exact does_onDev _ rfl halive (by rw [hop]; exact .refl _ _) trivial

end Sys2Proof.Machine
end

section
/-! PROOF. The governor (R513 to R517). -/

namespace Sys2Proof.Machine

/-! ## Parts and registers left alone together -/

/-- `e` is `d` but for the parts and the registers listed. -/
structure Tame (l : List Part) (r : List Nat) (d e : Dev) : Prop where
  only : Only l d e
  regs : RegsBut r d e

theorem Tame.refl (l : List Part) (r : List Nat) (d : Dev) : Tame l r d d := ⟨.refl _ _, .refl _ _⟩

theorem Tame.trans {l : List Part} {r : List Nat} {d e f : Dev} (h : Tame l r d e) (g : Tame l r e f) : Tame l r d f :=
  ⟨h.only.trans g.only, h.regs.trans g.regs⟩

theorem Tame.mono {l m : List Part} {r q : List Nat} {d e : Dev} (h : Tame m q d e) (hp : partsIn m l = true) (hr : q ⊆ r) : Tame l r d e :=
  ⟨h.only.mono hp, h.regs.mono hr⟩

theorem Tame.via {l m : List Part} {r q : List Nat} {d e f : Dev} (h : Tame l r d e) (g : Tame m q e f) (hp : partsIn m l = true) (hr : q ⊆ r) :
    Tame l r d f := h.trans (g.mono hp hr)

theorem Tame.ite {l : List Part} {r : List Nat} {d e f : Dev} {c : Prop} [Decidable c] (h : Tame l r d e) (g : Tame l r d f) :
    Tame l r d (if c then e else f) := by
  split
  · exact h
  · exact g

theorem Tame.foldl {α : Type} {l : List Part} {r : List Nat} {f : Dev → α → Dev} {xs : List α} {d : Dev} (h : ∀ e x, x ∈ xs → Tame l r e (f e x)) :
    Tame l r d (xs.foldl f d) := by
  induction xs generalizing d with
  | nil => exact .refl _ _ _
  | cons x xs ih => exact (h d x (by simp)).trans (ih fun e y hy => h e y (by simp [hy]))

theorem setFld_tame (d : Dev) (x : Fld) (v : Nat) : Tame [.regs] [x.addr] d (setFld d x v) := ⟨(setFld_within ..).only, setFld_regsBut _ _ _⟩

theorem setFlds_tame (d : Dev) (l : List (Fld × Nat)) : Tame [.regs] (l.map (·.1.addr)) d (setFlds d l) := ⟨(setFlds_within ..).only, setFlds_regsBut _ _⟩

theorem bump_tame (d : Dev) (a n : Nat) : Tame [.regs] [a] d (bump d a n) := ⟨(bump_within ..).only, bump_regsBut _ _ _⟩

theorem raise_tame {d : Dev} {unit : Nat} (h : unit < 0x10 ∨ 0x20 ≤ unit) (code sev arg : Nat) :
    Tame [.regs, .usb, .root] [aEvtLost] d (raise d code unit sev arg) := ⟨(raise_within_of_unit h ..).only, raise_regsBut _ _ _ _ _⟩

/-! ## Admission -/

/-- The admission states of the four pipelines. -/
abbrev aAdmit : Nat := 0x40F00

theorem pStem_lt (b : Bytes) (p : Nat) : pStem b p < 4 := Nat.mod_lt _ (by decide)

theorem loseAdmission_tame (p cause : Nat) (d : Dev) : Tame [.regs, .usb, .root] [aAdmit, aEvtLost] d (loseAdmission p cause d) := by
  have hset := setFlds_tame d [(admitState p, 3), (admitCause p, cause)]
  have hstem := pStem_lt (img0 (setFlds d [(admitState p, 3), (admitCause p, cause)])) p
  have hraise := raise_tame (d := setFlds d [(admitState p, 3), (admitCause p, cause)])
    (unit := 4 + pStem (img0 (setFlds d [(admitState p, 3), (admitCause p, cause)])) p) (by omega) 0x0113 1 (p + cause * 256)
  exact (hset.mono (by decide) (by simp [admitState, admitCause])).via hraise (by decide) (by decide)

theorem reevaluate_tame (nv : NonVol) (cause : Nat) (hit : Nat → Bool) (d : Dev) :
    Tame [.regs, .usb, .root] [aAdmit, aEvtLost] d (reevaluate nv cause hit d) := by
  exact .foldl fun e p _ => .ite (loseAdmission_tame _ _ _) (.refl _ _ _)

theorem reevaluate_none {d : Dev} (h : strictAdmitted d = false) (nv : NonVol) (cause : Nat) (hit : Nat → Bool) :
    reevaluate nv cause hit d = d := by
  have hp (p : Nat) (hp : p ∈ List.range 4) : ¬ fld d (admitState p) = 1 := by
    have := List.any_eq_false.1 h p hp
    simpa using this
  unfold reevaluate
  generalize List.range 4 = ps at hp
  induction ps with
  | nil => rfl
  | cons p ps ih =>
    rw [List.foldl_cons, if_neg (by simp [hp p (by simp)])]
    exact ih fun q hq => hp q (by simp [hq])

/-! ## Actions of the governor -/

/-- The registers that the governor's actions change. -/
abbrev govRegs : List Nat := [clkShed.addr, aThrottles, aAdmit, aEvtLost]

/-- What every action of the governor leaves alone. -/
structure Governed (d e : Dev) : Prop extends Tame [.regs, .clk, .usb, .root] govRegs d e where
  trip : e.clk.trip = d.clk.trip

theorem Governed.refl (d : Dev) : Governed d d := ⟨.refl _ _ _, rfl⟩

theorem Governed.trans {d e f : Dev} (h : Governed d e) (g : Governed e f) : Governed d f := ⟨h.toTame.trans g.toTame, g.trip.trans h.trip⟩

theorem Governed.of_tame {d e : Dev} (h : Tame [.regs, .usb, .root] govRegs d e) : Governed d e :=
  ⟨h.mono (by decide) (List.Subset.refl _), congrArg Clk.trip (h.only .clk (by decide))⟩

theorem governed_clk {d : Dev} {c : Clk} (h : c.trip = d.clk.trip) : Governed d { d with clk := c } :=
  ⟨⟨(within_clk ..).only.mono (by decide), .of_regs (.refl _ _) rfl⟩, h⟩

/-- ACLK stands at the step, and the shedding as it was. -/
theorem aclkStep_shows {step : Nat} (h : step < 4) (nv : NonVol) (d : Dev) : Tame [.regs, .usb, .root] govRegs d (aclkStep nv step d) ∧
    fld (aclkStep nv step d) clkAclk = step ∧ fld (aclkStep nv step d) clkShed = fld d clkShed := by
  unfold aclkStep
  dsimp only
  generalize hhit : (fun i => _) = hit
  clear hhit
  have hset := setFld_tame d clkAclk step
  have hbump := bump_tame (setFld d clkAclk step) aThrottles 1
  have hraise := raise_tame (d := bump (setFld d clkAclk step) aThrottles 1) (unit := 1) (by decide) 0x0830 1
    (step + fld (bump (setFld d clkAclk step) aThrottles 1) clkCause * 256)
  generalize raise (bump (setFld d clkAclk step) aThrottles 1) 0x0830 1 1
    (step + fld (bump (setFld d clkAclk step) aThrottles 1) clkCause * 256) = e at *
  have hre := reevaluate_tame nv 1 hit e
  have hkept (x : Fld) (hx : x.addr = clkShed.addr) : fld (reevaluate nv 1 hit e) x = fld (setFld d clkAclk step) x := by
    rw [hre.regs.fld (by rw [hx]; decide), hraise.regs.fld (by rw [hx]; decide), hbump.regs.fld (by rw [hx]; decide)]
  refine ⟨((hset.mono (by decide) (by decide)).via hbump (by decide) (by decide) |>.trans (hraise.mono (by decide) (by decide))).trans (hre.mono (by decide) (by decide)), ?_, ?_⟩
  · rw [hkept clkAclk rfl, fld_setFld_same _ _ _ (by decide)]; exact Nat.mod_eq_of_lt h
  · rw [hkept clkShed rfl, fld_setFld_other _ _ _ _ (by decide) (by decide)]

theorem nextShed_of_regs {l : List Nat} {d e : Dev} (h : RegsBut l d e) (h1 : aAdmit ∉ l) (h2 : fld e clkShed = fld d clkShed) :
    nextShed e = nextShed d := by
  have hst (p : Nat) : fld e (admitState p) = fld d (admitState p) := h.fld h1
  unfold nextShed
  rw [h2]
  simp only [hst]

theorem nextShed_some {d : Dev} {q : Nat} (h : nextShed d = some q) : q < 4 ∧ (fld d clkShed).testBit q = false := by
  have hmem := List.mem_of_find?_eq_some h
  have hp := List.find?_some h
  simp only [Bool.and_eq_true, Bool.not_eq_true'] at hp
  refine ⟨?_, hp.2⟩
  simp only [List.mem_cons, List.not_mem_nil, or_false] at hmem
  omega

theorem nextShed_allShed {d : Dev} (h : fld d clkShed = 15) : nextShed d = none := by
  have hbit : ∀ p ∈ [3, 2, 1, 0], Nat.testBit 15 p = true := by decide
  unfold nextShed
  rw [h]
  exact List.find?_eq_none.2 fun p hp => by simp [hbit p hp]

/-- Setting a clear bit of the four (a finite fact). -/
theorem setBit_four : ∀ v < 16, ∀ q < 4, Nat.testBit v q = false → setBit v q true < 16 ∧
    ((List.range 4).filter (fun p => !(setBit v q true).testBit p)).length + 1 = ((List.range 4).filter (fun p => !Nat.testBit v p)).length := by
  decide

theorem noneClear_four : ∀ v < 16, ((List.range 4).filter (fun p => !Nat.testBit v p)).length = 0 → v = 15 := by decide

/-- A pipeline is shed. -/
def shed (q : Nat) (d : Dev) : Dev := { setFld d clkShed (setBit (fld d clkShed) q true) with clk := { d.clk with acts := q :: d.clk.acts } }

/-- ACLK goes down a step. -/
def slowed (nv : NonVol) (d : Dev) : Dev := aclkStep nv (fld d clkAclk + 1) { d with clk := { d.clk with acts := 4 :: d.clk.acts } }

theorem govAction_shed {d : Dev} {q : Nat} (h : nextShed d = some q) (nv : NonVol) (floor : Nat) : govAction nv floor d = (shed q d, true) := by
  unfold govAction; rw [h]; rfl

theorem govAction_slow {d : Dev} {floor : Nat} (h : nextShed d = none) (hf : fld d clkAclk < floor) (nv : NonVol) :
    govAction nv floor d = (slowed nv d, true) := by
  unfold govAction; rw [h]; exact if_pos hf

theorem govAction_none {d : Dev} {floor : Nat} (h : nextShed d = none) (hf : ¬ fld d clkAclk < floor) (nv : NonVol) :
    govAction nv floor d = (d, false) := by
  unfold govAction; rw [h]; exact if_neg hf

theorem shed_shows {d : Dev} {q : Nat} (h : nextShed d = some q) : Governed d (shed q d) ∧ fld (shed q d) clkShed = setBit (fld d clkShed) q true ∧
    fld (shed q d) clkAclk = fld d clkAclk ∧ (shed q d).clk.acts = q :: d.clk.acts := by
  obtain ⟨hq, hbit⟩ := nextShed_some h
  have hlt := (setBit_four (fld d clkShed) (fld_lt d clkShed) q hq hbit).1
  refine ⟨(Governed.of_tame ((setFld_tame d clkShed _).mono (by decide) (by decide))).trans (governed_clk rfl), ?_, ?_, rfl⟩
  · exact (fld_setFld_same d clkShed _ (by decide)).trans (Nat.mod_eq_of_lt hlt)
  · exact fld_setFld_other d clkShed clkAclk _ (by decide) (by decide)

theorem slowed_shows {d : Dev} (hf : fld d clkAclk < 3) (nv : NonVol) : Governed d (slowed nv d) ∧ fld (slowed nv d) clkShed = fld d clkShed ∧
    fld (slowed nv d) clkAclk = fld d clkAclk + 1 ∧ (slowed nv d).clk.acts = 4 :: d.clk.acts := by
  obtain ⟨htame, ha, hs⟩ := aclkStep_shows (step := fld d clkAclk + 1) (by omega) nv { d with clk := { d.clk with acts := 4 :: d.clk.acts } }
  have hclk : Governed d { d with clk := { d.clk with acts := 4 :: d.clk.acts } } := governed_clk rfl
  exact ⟨hclk.trans (.of_tame htame), hs, ha, congrArg Clk.acts (htame.only .clk (by decide))⟩

theorem govAction_governed {floor : Nat} (hfl : floor < 4) (nv : NonVol) (d : Dev) : Governed d (govAction nv floor d).1 := by
  cases h : nextShed d with
  | some q => rw [govAction_shed h]; exact (shed_shows h).1
  | none =>
    by_cases hf : fld d clkAclk < floor
    · rw [govAction_slow h hf]; exact (slowed_shows (by omega) nv).1
    · rw [govAction_none h hf]; exact .refl d

/-! ## The critical row: nothing is left to shed and ACLK is at its floor -/

/-- No action is left. -/
def Spent (d : Dev) : Prop := nextShed d = none ∧ fld d clkAclk = 3

/-- The actions that can still be taken, at most. -/
def actionsLeft (d : Dev) : Nat := ((List.range 4).filter (fun p => !(fld d clkShed).testBit p)).length + (3 - fld d clkAclk)

theorem actionsLeft_le (d : Dev) : actionsLeft d ≤ 7 := by
  have := List.length_filter_le (fun p => !(fld d clkShed).testBit p) (List.range 4)
  rw [List.length_range] at this
  unfold actionsLeft
  omega

theorem spent_of_left {d : Dev} (h : actionsLeft d = 0) : Spent d := by
  have hA : fld d clkAclk < 4 := fld_lt d clkAclk
  unfold actionsLeft at h
  exact ⟨nextShed_allShed (noneClear_four _ (fld_lt d clkShed) (by omega)), by omega⟩

/-- An action that is not the last one leaves fewer. -/
theorem govAction_left (nv : NonVol) (d : Dev) : Spent d ∨ actionsLeft (govAction nv 3 d).1 + 1 = actionsLeft d := by
  have hA : fld d clkAclk < 4 := fld_lt d clkAclk
  cases h : nextShed d with
  | some q =>
    obtain ⟨hq, hbit⟩ := nextShed_some h
    obtain ⟨_, hs, ha, _⟩ := shed_shows h
    have := (setBit_four (fld d clkShed) (fld_lt d clkShed) q hq hbit).2
    right
    rw [govAction_shed h, actionsLeft, actionsLeft, hs, ha]
    omega
  | none =>
    by_cases hf : fld d clkAclk < 3
    · obtain ⟨_, hs, ha, _⟩ := slowed_shows hf nv
      right
      rw [govAction_slow h hf, actionsLeft, actionsLeft, hs, ha]
      omega
    · exact .inl ⟨h, by omega⟩

theorem Spent.stays {d : Dev} (h : Spent d) (nv : NonVol) : (govAction nv 3 d).1 = d := by
  rw [govAction_none h.1 (by rw [h.2]; decide)]

/-- After `n` actions either none is left or `n` fewer are. -/
theorem govActions_left (nv : NonVol) (d : Dev) (n : Nat) : Governed d ((List.range n).foldl (fun d _ => (govAction nv 3 d).1) d) ∧
    (Spent ((List.range n).foldl (fun d _ => (govAction nv 3 d).1) d) ∨
      actionsLeft ((List.range n).foldl (fun d _ => (govAction nv 3 d).1) d) + n = actionsLeft d) := by
  induction n with
  | zero => exact ⟨.refl d, .inr rfl⟩
  | succ n ih =>
    obtain ⟨hg, hl⟩ := ih
    rw [List.range_succ, List.foldl_append]
    simp only [List.foldl_cons, List.foldl_nil]
    generalize (List.range n).foldl (fun d _ => (govAction nv 3 d).1) d = e at *
    refine ⟨hg.trans (govAction_governed (by decide) nv e), ?_⟩
    rcases govAction_left nv e with hsp | hless
    · exact .inl ((hsp.stays nv).symm ▸ hsp)
    · rcases hl with hsp | hl
      · exact .inl ((hsp.stays nv).symm ▸ hsp)
      · exact .inr (by omega)

theorem govCritical_spent (nv : NonVol) (d : Dev) : Governed d (govCritical nv d) ∧ Spent (govCritical nv d) := by
  obtain ⟨hg, hl⟩ := govActions_left nv d 7
  refine ⟨hg, hl.elim id fun h => spent_of_left ?_⟩
  have := actionsLeft_le d
  show actionsLeft ((List.range 7).foldl (fun d _ => (govAction nv 3 d).1) d) = 0
  omega

/-! ## The governor's millisecond -/

/-- The time of the last report. -/
def reportTimed (d : Dev) : Dev := { d with clk := { d.clk with lastRep := max 1 d.devTime.toNat } }

theorem govReport_eq (code arg : Nat) (d : Dev) : govReport code arg d =
    if d.clk.lastRep = 0 || 1000000000 ≤ d.devTime.toNat - d.clk.lastRep then raise (reportTimed d) code 1 1 arg else d := rfl

theorem govReport_governed (code arg : Nat) (d : Dev) : Governed d (govReport code arg d) := by
  have htimed : Governed d (reportTimed d) := governed_clk rfl
  rw [govReport_eq]
  generalize reportTimed d = e at htimed
  split
  · exact htimed.trans (.of_tame ((raise_tame (unit := 1) (by decide) code 1 arg).mono (by decide) (by decide)))
  · exact .refl d

theorem govReport_regsBut (code arg : Nat) (d : Dev) : RegsBut [aEvtLost] d (govReport code arg d) := by
  have htimed : RegsBut [aEvtLost] d (reportTimed d) := .of_regs (.refl _ d) rfl
  rw [govReport_eq]
  generalize reportTimed d = e at htimed
  split
  · exact htimed.trans (raise_regsBut _ _ _ _ _)
  · exact .refl _ d

/-- An action that the pace lets through. -/
theorem govPaced_act {d e : Dev} {floor : Nat} {nv : NonVol} (h : d.clk.lastAct = 0) (ha : govAction nv floor d = (e, true)) (code arg : Nat) :
    govPaced nv floor code arg d = { e with clk := { e.clk with lastAct := max 1 e.devTime.toNat } } := by
  have hpace : ¬ (d.clk.lastAct ≠ 0 && d.devTime.toNat - d.clk.lastAct < 10000000) = true := by simp [h]
  unfold govPaced
  rw [if_neg hpace, ha]
  rfl

theorem govPaced_governed {floor : Nat} (hfl : floor < 4) (nv : NonVol) (code arg : Nat) (d : Dev) : Governed d (govPaced nv floor code arg d) := by
  have ha := govAction_governed hfl nv d
  unfold govPaced
  split
  · exact .refl d
  · generalize govAction nv floor d = r at ha
    obtain ⟨e, did⟩ := r
    dsimp only at ha ⊢
    split
    · exact ha.trans (governed_clk rfl)
    · exact ha.trans (govReport_governed code arg e)

theorem govUndo_governed (nv : NonVol) (d : Dev) : Governed d (govUndo nv d) := by
  unfold govUndo
  split
  · exact .refl d
  · dsimp only
    split
    · exact .refl d
    · have ha : fld d clkAclk < 4 := fld_lt d clkAclk
      refine Governed.trans (governed_clk ?_) (.of_tame (aclkStep_shows (by omega) nv _).1)
      rfl
  · refine (Governed.of_tame ((setFld_tame d clkShed _).mono (by decide) (by decide))).trans (governed_clk ?_)
    rfl

theorem floorStep_lt (d : Dev) : floorStep d < 4 := by
  unfold floorStep
  generalize (List.range 4).filter _ = ps
  have h3 : 3 < 4 := by decide
  revert h3
  generalize 3 = m
  induction ps generalizing m with
  | nil => exact id
  | cons p ps ih =>
    intro h
    rw [List.foldl_cons]
    refine ih _ ?_
    split
    · exact h
    · split
      · omega
      · exact h

/-- The millisecond's measures stand in the registers and the counts. -/
def govSampled (p : Nat) (tj : Int) (d : Dev) : Dev :=
  let d := setFlds d [(clkPwr, p), (clkTj, ofS 8 tj), (clkHot, if 100 ≤ tj then 1 else 0)]
  let cap := capWatts (fld d clkCap)
  let overs := if 100 * cap < p then d.clk.overs + 1 else 0
  let unders := if p ≤ 90 * cap then d.clk.unders + 1 else 0
  let cool := if tj ≤ 95 then d.clk.coolMs + 1 else 0
  { d with clk := { d.clk with overs, unders, coolMs := cool } }

/-- What the governor decides on the measures (Table Clocks-3). -/
def govDecided (nv : NonVol) (p : Nat) (tj : Int) (d : Dev) : Dev :=
  if 125 ≤ tj then { d with clk := { d.clk with trip := true } }
  else if 110 ≤ tj then
    let d := setFld d clkCause 3
    let before := d.clk.acts.length
    let d := govCritical nv d
    if d.clk.acts.length = before then govReport 0x0832 (ofS 8 tj) d else d
  else if 100 ≤ tj then govPaced nv 3 0x0832 (ofS 8 tj) (setFld d clkCause 2)
  else if 2 ≤ d.clk.overs then govPaced nv (floorStep d) 0x0831 p (setFld d clkCause 1)
  else
    let d := if 1000 ≤ d.clk.coolMs && 100 ≤ d.clk.unders && (d.clk.lastUndo = 0 || 100000000 ≤ d.devTime.toNat - d.clk.lastUndo) then govUndo nv d else d
    if d.clk.acts.isEmpty then setFld d clkCause 0 else d

theorem powerWindowOp_eq (nv : NonVol) (p : Nat) (tj : Int) (d : Dev) : powerWindowOp nv p tj d = govDecided nv p tj (govSampled p tj d) := by
  unfold powerWindowOp govDecided
  rfl

theorem ofS_lt (w : Nat) (v : Int) : ofS w v < 2 ^ w := by
  have hpos : (0 : Int) < ((2 ^ w : Nat) : Int) := by exact_mod_cast Nat.two_pow_pos w
  have h1 := Int.emod_lt_of_pos v hpos
  have h0 := Int.emod_nonneg v (ne_of_gt hpos)
  unfold ofS
  omega

theorem govSampled_shows (p : Nat) (tj : Int) (d : Dev) : Tame [.regs, .clk] [clkPwr.addr, clkTj.addr] d (govSampled p tj d) ∧
    (fld (govSampled p tj d) clkPwr = p % 65536 ∧ fld (govSampled p tj d) clkTj = ofS 8 tj ∧
      flag (govSampled p tj d) clkHot = decide (100 ≤ tj)) ∧
    (govSampled p tj d).clk.trip = d.clk.trip ∧ (govSampled p tj d).clk.acts = d.clk.acts ∧ (govSampled p tj d).clk.lastAct = d.clk.lastAct ∧
    ((govSampled p tj d).clk.overs = if 100 * capWatts (fld d clkCap) < p then d.clk.overs + 1 else 0) ∧
    (govSampled p tj d).clk.coolMs = if tj ≤ 95 then d.clk.coolMs + 1 else 0 := by
  have hset := setFlds_tame d [(clkPwr, p), (clkTj, ofS 8 tj), (clkHot, if 100 ≤ tj then 1 else 0)]
  have hcap : fld (setFlds d [(clkPwr, p), (clkTj, ofS 8 tj), (clkHot, if 100 ≤ tj then 1 else 0)]) clkCap = fld d clkCap :=
    hset.regs.fld (by dsimp only [List.map]; decide)
  have hvals : fld (setFlds d [(clkPwr, p), (clkTj, ofS 8 tj), (clkHot, if 100 ≤ tj then 1 else 0)]) clkPwr = p % 65536 ∧
      fld (setFlds d [(clkPwr, p), (clkTj, ofS 8 tj), (clkHot, if 100 ≤ tj then 1 else 0)]) clkTj = ofS 8 tj ∧
      flag (setFlds d [(clkPwr, p), (clkTj, ofS 8 tj), (clkHot, if 100 ≤ tj then 1 else 0)]) clkHot = decide (100 ≤ tj) := by
    refine ⟨?_, ?_, ?_⟩
    · simp (disch := decide) only [setFlds_cons, setFlds_nil, fld_setFld_same, fld_setFld_other]
      rfl
    · simp (disch := decide) only [setFlds_cons, setFlds_nil, fld_setFld_same, fld_setFld_other]
      exact Nat.mod_eq_of_lt (ofS_lt 8 tj)
    · rw [flag]
      simp (disch := decide) only [setFlds_cons, setFlds_nil, fld_setFld_same]
      by_cases h : 100 ≤ tj
      · rw [if_pos h, decide_eq_true h]; rfl
      · rw [if_neg h, decide_eq_false h]; rfl
  have hclk := hset.only .clk (by decide)
  unfold govSampled
  generalize setFlds d [(clkPwr, p), (clkTj, ofS 8 tj), (clkHot, if 100 ≤ tj then 1 else 0)] = e at *
  dsimp only
  rw [hcap, hclk]
  refine ⟨⟨(hset.only.mono (by decide)).via (within_clk ..).only (by decide),
    .trans (hset.regs.mono (by dsimp only [List.map]; decide)) (.of_regs (.refl _ _) rfl)⟩, hvals, rfl, rfl, rfl, rfl, rfl⟩

theorem nextShed_cause (k : Nat) (d : Dev) : nextShed (setFld d clkCause k) = nextShed d :=
  nextShed_of_regs (setFld_regsBut d clkCause k) (by decide) (fld_setFld_other _ _ _ _ (by decide) (by decide))

theorem govDecided_governed (nv : NonVol) (p : Nat) (tj : Int) (d : Dev) : Tame [.regs, .clk, .usb, .root] govRegs d (govDecided nv p tj d) ∧
    (govDecided nv p tj d).clk.trip = (d.clk.trip || decide (125 ≤ tj)) := by
  have hcause (k : Nat) (e : Dev) : Governed e (setFld e clkCause k) := .of_tame ((setFld_tame e clkCause k).mono (by decide) (by decide))
  by_cases hhot : 125 ≤ tj
  · have : govDecided nv p tj d = { d with clk := { d.clk with trip := true } } := if_pos hhot
    rw [this, decide_eq_true hhot, Bool.or_true]
    exact ⟨⟨(within_clk ..).only.mono (by decide), .of_regs (.refl _ _) rfl⟩, rfl⟩
  · rw [decide_eq_false hhot, Bool.or_false]
    suffices h : Governed d (govDecided nv p tj d) from ⟨h.toTame, h.trip⟩
    unfold govDecided
    rw [if_neg hhot]
    split
    · dsimp only
      have hcrit := (hcause 3 d).trans (govCritical_spent nv _).1
      split
      · exact hcrit.trans (govReport_governed _ _ _)
      · exact hcrit
    · split
      · exact (hcause 2 d).trans (govPaced_governed (by decide) _ _ _ _)
      · split
        · exact (hcause 1 d).trans (govPaced_governed (floorStep_lt d) _ _ _ _)
        · dsimp only
          have hundo : Governed d (if 1000 ≤ d.clk.coolMs && 100 ≤ d.clk.unders &&
              (d.clk.lastUndo = 0 || 100000000 ≤ d.devTime.toNat - d.clk.lastUndo) then govUndo nv d else d) := by
            split
            · exact govUndo_governed nv d
            · exact .refl d
          generalize (if 1000 ≤ d.clk.coolMs && 100 ≤ d.clk.unders &&
            (d.clk.lastUndo = 0 || 100000000 ≤ d.devTime.toNat - d.clk.lastUndo) then govUndo nv d else d) = e at hundo ⊢
          split
          · exact hundo.trans (hcause 0 _)
          · exact hundo

theorem govDecided_critical {tj : Int} (h110 : 110 ≤ tj) (h125 : tj < 125) (nv : NonVol) (p : Nat) (d : Dev) : Spent (govDecided nv p tj d) := by
  unfold govDecided
  rw [if_neg (by omega), if_pos h110]
  dsimp only
  have hsp := (govCritical_spent nv (setFld d clkCause 3)).2
  generalize govCritical nv (setFld d clkCause 3) = e at hsp
  split
  · have hr := govReport_regsBut 0x0832 (ofS 8 tj) e
    exact ⟨(nextShed_of_regs hr (by decide) (hr.fld (by decide))).trans hsp.1, (hr.fld (by decide)).trans hsp.2⟩
  · exact hsp

/-- A paced shed. -/
theorem govPaced_shed {d : Dev} {q : Nat} (h : nextShed d = some q) (hpace : d.clk.lastAct = 0) (nv : NonVol) (floor code arg : Nat) :
    (fld (govPaced nv floor code arg d) clkShed).testBit q = true ∧ (govPaced nv floor code arg d).clk.acts = q :: d.clk.acts ∧
    fld (govPaced nv floor code arg d) clkAclk = fld d clkAclk := by
  obtain ⟨_, hs, ha, hacts⟩ := shed_shows h
  rw [govPaced_act hpace (govAction_shed h nv floor)]
  exact ⟨(congrArg (Nat.testBit · q) hs).trans (testBit_setBit_true _ _), hacts, ha⟩

/-- A paced step of ACLK. -/
theorem govPaced_slow {d : Dev} {floor : Nat} (h : nextShed d = none) (hf : fld d clkAclk < floor) (hfl : floor < 4) (hpace : d.clk.lastAct = 0)
    (nv : NonVol) (code arg : Nat) : fld (govPaced nv floor code arg d) clkAclk = fld d clkAclk + 1 ∧
    fld (govPaced nv floor code arg d) clkShed = fld d clkShed ∧ (govPaced nv floor code arg d).clk.acts = 4 :: d.clk.acts := by
  obtain ⟨_, hs, ha, hacts⟩ := slowed_shows (d := d) (by omega) nv
  rw [govPaced_act hpace (govAction_slow h hf nv)]
  exact ⟨ha, hs, hacts⟩

/-- No limit is exceeded, and it is not cool enough to undo an action. -/
theorem govDecided_quiet {tj : Int} {d : Dev} (h : tj < 100) (ho : d.clk.overs = 0) (hc : d.clk.coolMs = 0) (nv : NonVol) (p : Nat) :
    (govDecided nv p tj d).clk = d.clk ∧ fld (govDecided nv p tj d) clkShed = fld d clkShed ∧ fld (govDecided nv p tj d) clkAclk = fld d clkAclk := by
  have heq : govDecided nv p tj d = if d.clk.acts.isEmpty then setFld d clkCause 0 else d := by
    unfold govDecided
    rw [if_neg (by omega), if_neg (by omega), if_neg (by omega), if_neg (by omega), hc]
    rfl
  rw [heq]
  split
  · exact ⟨rfl, fld_setFld_other _ _ _ _ (by decide) (by decide), fld_setFld_other _ _ _ _ (by decide) (by decide)⟩
  · exact ⟨rfl, rfl, rfl⟩

/-- The lanes on which an error was left are counted; no unit leaves service. -/
theorem symbolErrors_shows {d : Dev} {x : BitVec 16} (h : x = 0 ∨ (fld d (polThresh 4) = 0 ∧ fld d (polRepeat 4) = 0)) (nv : NonVol) :
    Tame [.regs, .flt] [aErrTotal] d (((List.range 16).filter x.toNat.testBit).foldl (fun d i => recordError nv (172 + i) 8 0 d) d) ∧
    (x = 0 → ((List.range 16).filter x.toNat.testBit).foldl (fun d i => recordError nv (172 + i) 8 0 d) d = d) := by
  refine ⟨?_, ?_⟩
  · rcases h with rfl | ⟨hth, hrep⟩
    · exact .refl _ _ _
    · have hlanes : ∀ i ∈ (List.range 16).filter x.toNat.testBit, i < 16 := fun i hi => List.mem_range.1 (List.mem_of_mem_filter hi)
      generalize (List.range 16).filter x.toNat.testBit = ls at hlanes
      induction ls generalizing d with
      | nil => exact .refl _ _ _
      | cons i ls ih =>
        have hi : i < 16 := hlanes i (by simp)
        have hclass : bktClass (172 + i) = 4 := by
          unfold bktClass
          rw [if_neg (by omega), if_neg (by omega), if_neg (by omega), if_neg (by omega), if_pos (by omega)]
        have hcnt := recordError_counts nv 0 (n := 172 + i) (d := d) (kind := 8) (by rw [PolicyOff, hclass]; exact ⟨hth, hrep⟩)
          ⟨by decide, by decide, by decide⟩
        rw [List.foldl_cons]
        exact .trans ⟨hcnt.only_regs_flt (by omega), hcnt.regs⟩
          (ih ((hcnt.regs.fld (by decide)).trans hth) ((hcnt.regs.fld (by decide)).trans hrep) fun j hj => hlanes j (by simp [hj]))
  · rintro rfl
    rfl

/-- Settles O24. -/
theorem governorActsOnPowerAndHeat : Obligations.GovernorActsOnPowerAndHeat := by
  unfold Obligations.GovernorActsOnPowerAndHeat
  refine fun p tj x s halive hx => ⟨?_, fun v => ?_⟩
  · obtain ⟨herr, hzero⟩ := symbolErrors_shows hx s.nv
    have hop : exec (.powerWindow p tj x) s = onDev s (fun d => govDecided s.nv p tj (govSampled p tj
        (((List.range 16).filter x.toNat.testBit).foldl (fun d i => recordError s.nv (172 + i) 8 0 d) d))) := by
      refine Eq.trans ?_ (congrArg (onDev s) (funext fun d => powerWindowOp_eq s.nv p tj _))
      rfl
    refine does_onDev _ hop halive ?_ ?_
    all_goals
      generalize ((List.range 16).filter x.toNat.testBit).foldl (fun d i => recordError s.nv (172 + i) 8 0 d) s.dev = r at herr hzero
      have hclk := herr.only .clk (by decide)
      obtain ⟨hsam, hmeas, htrip, hacts, hpace, hovers, hcool⟩ := govSampled_shows p tj r
      generalize govSampled p tj r = g at *
      obtain ⟨hdec, hdtrip⟩ := govDecided_governed s.nv p tj g
    · exact ((herr.only.mono (by decide)).via hsam.only (by decide)).via hdec.only (by decide)
    · have hcap : fld r clkCap = fld s.dev clkCap := herr.regs.fld (by decide)
      have hshed : fld g clkShed = fld s.dev clkShed := (hsam.regs.fld (by decide)).trans (herr.regs.fld (by decide))
      have haclk : fld g clkAclk = fld s.dev clkAclk := (hsam.regs.fld (by decide)).trans (herr.regs.fld (by decide))
      have hnext : nextShed g = nextShed s.dev := (nextShed_of_regs hsam.regs (by decide) (hsam.regs.fld (by decide))).trans
        (nextShed_of_regs herr.regs (by decide) (herr.regs.fld (by decide)))
      rw [hclk] at htrip hacts hpace
      rw [hclk, hcap] at hovers
      have hcut {k : Nat} {q : Nat} (h : nextShed s.dev = some q) (h0 : s.dev.clk.lastAct = 0) (fl c a : Nat) :=
        govPaced_shed ((nextShed_cause k g).trans (hnext.trans h)) (hpace.trans h0) s.nv fl c a
      have haclk' (k : Nat) : fld (setFld g clkCause k) clkAclk = fld s.dev clkAclk :=
        (fld_setFld_other _ _ _ _ (by decide) (by decide)).trans haclk
      have hshed' (k : Nat) : fld (setFld g clkCause k) clkShed = fld s.dev clkShed :=
        (fld_setFld_other _ _ _ _ (by decide) (by decide)).trans hshed
      refine ⟨fun h0 => ?_, ?_, ?_, ?_, ?_, fun h125 => ?_, fun h110 h125 => govDecided_critical h110 h125 _ _ _, fun q h100 h110 h0 hq => ?_,
        fun h100 h110 h0 hq hstep => ?_, fun q h100 hov hpow h0 hq => ?_, fun h96 h100 hpow => ?_⟩
      · rw [hdec.only .flt (by decide), hsam.only .flt (by decide), hzero h0]
      · exact (hdec.regs.fld (by decide)).trans hmeas.1
      · exact (hdec.regs.fld (by decide)).trans hmeas.2.1
      · exact (hdec.regs.flag (by decide)).trans hmeas.2.2
      · rw [hdtrip, htrip]
      · rw [alive, hdtrip, decide_eq_true h125]
        simp
      · have hd : govDecided s.nv p tj g = govPaced s.nv 3 0x0832 (ofS 8 tj) (setFld g clkCause 2) := by
          unfold govDecided
          rw [if_neg (by omega), if_neg (by omega), if_pos h100]
        obtain ⟨h1, h2, h3⟩ := hcut (k := 2) hq h0 3 0x0832 (ofS 8 tj)
        rw [hd]
        exact ⟨h1, h2.trans (congrArg (q :: ·) hacts), h3.trans (haclk' 2)⟩
      · have hd : govDecided s.nv p tj g = govPaced s.nv 3 0x0832 (ofS 8 tj) (setFld g clkCause 2) := by
          unfold govDecided
          rw [if_neg (by omega), if_neg (by omega), if_pos h100]
        obtain ⟨h1, h2, h3⟩ := govPaced_slow ((nextShed_cause 2 g).trans (hnext.trans hq)) (by rw [haclk' 2]; exact hstep) (by decide)
          (hpace.trans h0) s.nv 0x0832 (ofS 8 tj)
        rw [hd]
        exact ⟨h1.trans (congrArg (· + 1) (haclk' 2)), h2.trans (hshed' 2), h3.trans (congrArg (4 :: ·) hacts)⟩
      · rw [if_pos hpow] at hovers
        have hd : govDecided s.nv p tj g = govPaced s.nv (floorStep g) 0x0831 p (setFld g clkCause 1) := by
          unfold govDecided
          rw [if_neg (by omega), if_neg (by omega), if_neg (by omega), if_pos (by omega)]
        obtain ⟨h1, h2, _⟩ := hcut (k := 1) hq h0 (floorStep g) 0x0831 p
        rw [hd]
        exact ⟨h1, h2.trans (congrArg (q :: ·) hacts)⟩
      · rw [if_neg (by omega)] at hovers hcool
        obtain ⟨h1, h2, h3⟩ := govDecided_quiet h100 hovers hcool s.nv p
        rw [h1]
        exact ⟨hovers, hcool, h2.trans hshed, h3.trans haclk, hacts⟩
  · have hset := setFld_tame s.dev clkCap (v.toNat % 4)
    have hval : fld (setFld s.dev clkCap (v.toNat % 4)) clkCap = v.toNat % 4 :=
      (fld_setFld_same _ _ _ (by decide)).trans (Nat.mod_mod _ _)
    have hstrict : strictAdmitted (setFld s.dev clkCap (v.toNat % 4)) = strictAdmitted s.dev := by
      have hst (p : Nat) : fld (setFld s.dev clkCap (v.toNat % 4)) (admitState p) = fld s.dev (admitState p) :=
        hset.regs.fld (show aAdmit ∉ [clkCap.addr] by decide)
      unfold strictAdmitted
      simp only [hst]
    refine does_onDev _ rfl halive ?_ ⟨?_, fun h => ?_⟩
    · exact (hset.only.mono (by decide)).trans (reevaluate_tame s.nv 2 _ _).only
    · exact ((reevaluate_tame s.nv 2 _ _).regs.fld (by decide)).trans hval
    · have hop : clkCapOp s.nv v s.dev = setFld s.dev clkCap (v.toNat % 4) := reevaluate_none (hstrict.trans h) s.nv 2 _
      rw [hop]
      exact ⟨hset.only, hset.regs⟩

end Sys2Proof.Machine
end

section
/-! PROOF. A state in which a unit's fence does not stand (R485, R486, R522).

The frames of the camera ports name their port by a number that nothing bounds. The register words of a port that does not exist lie over
those of the fault unit: CAM_STAT of port 0x30 is the second word of the fences, and CAM_SHAPE of it is FLT_CMD. Fencing a unit closes the
frames of the outgoing Graft, and with them this one. -/

namespace Sys2Proof.Machine

/-- A frame of the outgoing Graft at a port that does not exist. -/
def strayFrame (short : Bool) : CamFrame :=
  { port := 0x30, ctx := 0, cfn := 0, base := 0, t0 := 0, out := true, lines := [], chk := 0, clamped := false, short, ended := false
    entered := false, done := 0, newP := false, seq := 0, params := [], hist := [], awb := [], focus := [], free0 := 0 }

theorem strayFrame_words : (camInFrame 0x30).addr = (fencedReg 0x20).addr ∧ aCamShape 0x30 = fltCmdErr.addr := by decide

/-- The engine at start-up step `b` with that frame in progress and its Graft about to be released. -/
def strayState (b : Nat) (short : Bool) (l : List (Fld × Nat)) : State := { State.reset with
  dev := { setFlds Dev.reset ([(clkPllLock, 1), (graftSpace1, 5)] ++ l) with boot := b, cam := { Cam.reset with frames := [strayFrame short] } } }

theorem strayState_alive : alive (strayState 5 false []).dev = true ∧ alive (strayState 2 false []).dev = true := by decide +kernel

theorem next_of_does {c : Instr} {s : State} {l : List Part} {P : Dev → Prop} (f : Dev → Dev) (he : exec c s = onDev s f) (ha : alive s.dev = true)
    (h : Does c s l P) : P (f s.dev) := by
  obtain ⟨e, hnext, -, hp⟩ := h
  rw [he, onDev_alive f ha] at hnext
  have := congrArg State.dev (Host.Outcome.next.inj hnext)
  exact (show f s.dev = e from this) ▸ hp

/-- Refutes O33: the end of the stray frame lowers the fence of Trunk group 0 that the command has just set. -/
theorem not_hostFencesAndUnfencesUnits : ¬ Obligations.HostFencesAndUnfencesUnits := by
  unfold Obligations.HostFencesAndUnfencesUnits
  intro h
  obtain ⟨hfence, -⟩ := h 0x20 (strayState 5 false []) strayState_alive.1
  have hdoes := hfence (by decide) (by decide) (by decide) (by decide +kernel)
  obtain ⟨hfenced, -⟩ := next_of_does _ rfl strayState_alive.1 hdoes
  have hopen : fenced (fenceOp (strayState 5 false []).nv 0x20 (strayState 5 false []).dev) 0x20 = false := by decide +kernel
  exact Bool.false_ne_true (hopen.symm.trans hfenced)

/-- No spare bank is left. -/
def sparesUsed : List (Fld × Nat) := [(spareInUse 0, 1), (spareInUse 1, 1), (spareInUse 2, 1), (spareInUse 3, 1)]

theorem sparesUsed_alive : alive (strayState 5 true sparesUsed).dev = true := by decide +kernel

/-- Refutes O34: the report of the stray frame's shape counts in the word where the command's ERR stands. -/
theorem not_retireTakesTheUnitOut : ¬ Obligations.RetireTakesTheUnitOut := by
  unfold Obligations.RetireTakesTheUnitOut
  intro h
  obtain ⟨hretire, -⟩ := h 0x20 1 false 97 (strayState 5 true sparesUsed) sparesUsed_alive (.inl ⟨by decide, by decide⟩)
  have hdoes := hretire (by decide +kernel) (by decide +kernel) (by decide +kernel) (by decide +kernel)
  obtain ⟨-, herr, -⟩ := next_of_does _ rfl sparesUsed_alive hdoes
  have hone : fld (retireOp (strayState 5 true sparesUsed).nv 0x20 1 false (strayState 5 true sparesUsed).dev) fltCmdErr = 1 := by decide +kernel
  exact absurd (hone.symm.trans herr) (by decide)

/-- Refutes O23: with every spare and bank 0 failed the self-test fences Trunk group 0, and the end of the stray frame lowers the fence
again. -/
theorem not_selfTestAndTrainingStartService : ¬ Obligations.SelfTestAndTrainingStartService := by
  unfold Obligations.SelfTestAndTrainingStartService
  rintro ⟨h, -⟩
  obtain ⟨htest, -⟩ := h (strayState 2 false []) strayState_alive.2 rfl
  obtain ⟨-, -, -, -, -, hfenced⟩ := next_of_does _ rfl strayState_alive.2 (htest [0, 64, 65, 66, 67])
  have hall : ∀ q : Fin 68, 64 ≤ q.val → q ∈ ([0, 64, 65, 66, 67] : List (Fin 68)) := by decide
  have hopen : fenced (selfTestDoneOp (strayState 2 false []).nv [0, 64, 65, 66, 67] (strayState 2 false []).dev) 0x20 = false := by decide +kernel
  exact Bool.false_ne_true (hopen.symm.trans (hfenced 0 (by decide) (by decide) hall))

end Sys2Proof.Machine
end

section
/-! PROOF. What the closing of frames, fences and the retirement of a Branch leave of the fault unit's state (R478, R484 to R488). -/

namespace Sys2Proof.Machine

/-- The retirements that wait and run, the links, Wind and every bucket but those of the camera ports stand. -/
structure FltKept (d e : Dev) : Prop where
  waitQ : e.flt.waitQ = d.flt.waitQ
  running : e.flt.running = d.flt.running
  links : e.flt.links = d.flt.links
  wind : e.flt.wind = d.flt.wind
  bkt : ∀ n, n < 188 → bucket e n = bucket d n

theorem FltKept.refl (d : Dev) : FltKept d d := ⟨rfl, rfl, rfl, rfl, fun _ _ => rfl⟩

theorem FltKept.trans {d e f : Dev} (h : FltKept d e) (g : FltKept e f) : FltKept d f :=
  ⟨g.waitQ.trans h.waitQ, g.running.trans h.running, g.links.trans h.links, g.wind.trans h.wind, fun n hn => (g.bkt n hn).trans (h.bkt n hn)⟩

theorem FltKept.of_flt {d e : Dev} (h : e.flt = d.flt) : FltKept d e := by
  refine ⟨?_, ?_, ?_, ?_, fun n _ => bucket_of_flt h n⟩
  all_goals rw [h]

/-- A step that leaves the fault unit alone. -/
theorem FltKept.within {l : List Part} {d e f : Dev} (h : FltKept d e) (g : Within l e f) (hl : Part.flt ∉ l) : FltKept d f :=
  h.trans (.of_flt (g.only .flt hl))

theorem FltKept.ite {d e f : Dev} {c : Prop} [Decidable c] (h : FltKept d e) (g : FltKept d f) : FltKept d (if c then e else f) := by
  split
  · exact h
  · exact g

theorem FltKept.foldl {α : Type} {d e : Dev} {f : Dev → α → Dev} {xs : List α} (h : FltKept d e) (hf : ∀ x a, FltKept x (f x a)) :
    FltKept d (xs.foldl f e) := by
  induction xs generalizing e with
  | nil => exact h
  | cons a xs ih => exact ih (h.trans (hf e a))

theorem FltKept.link {d e : Dev} (h : FltKept d e) (l : Nat) : linkOf e l = linkOf d l := by rw [linkOf, h.links]; rfl

theorem setBucket_kept {n : Nat} (hn : 188 ≤ n) (b : Bucket) (d : Dev) : FltKept d (setBucket d n b) :=
  ⟨rfl, rfl, rfl, rfl, fun m hm => by rw [bucket_setBucket, if_neg (by omega)]⟩

theorem retired_kept (d : Dev) (r h : List Nat) : FltKept d { d with flt := { d.flt with retired := r, hostF := h } } :=
  ⟨rfl, rfl, rfl, rfl, fun _ _ => rfl⟩

theorem FltKept.setBktState {d e : Dev} (h : FltKept d e) (n st : Nat) :
    FltKept (Sys2Proof.Machine.setBktState d n st) (Sys2Proof.Machine.setBktState e n st) := by
  refine ⟨h.waitQ, h.running, h.links, h.wind, fun m hm => ?_⟩
  rw [bucket_setBktState, bucket_setBktState]
  split
  · next hmn => rw [h.bkt n (hmn ▸ hm)]
  · exact h.bkt m hm

/-! ## Camera frames -/

theorem countError_kept {n : Nat} (hn : 188 ≤ n) (kind addr : Nat) (d : Dev) : FltKept d (countError n kind addr d).1 := by
  by_cases h : outOfService d n
  · rw [countError_out h]; exact .refl d
  · rw [countError_in h]
    exact (((FltKept.refl d).within (bump_within d aErrTotal 1) (by decide)).within (reportErr_within n kind addr _) (by decide)).trans
      (setBucket_kept hn _ _)

theorem retirePort_kept (p kind : Nat) (rep : Bool) (d : Dev) : FltKept d (retirePort p kind rep d) := by
  have hret : FltKept d { d with flt := { d.flt with retired := (0x3D + p) :: d.flt.retired } } := retired_kept d _ _
  unfold retirePort
  dsimp only
  exact (((hret.within (setFld_within ..) (by decide)).trans (setBucket_kept (by omega) _ _)).within (closePort_within ..) (by decide)).within
    (raise_within ..) (by decide)

theorem camReport_kept (f : CamFrame) (d : Dev) : FltKept d (camReport f d) := by
  unfold camReport
  extract_lets p d₁ d₂
  have h₁ : FltKept d d₁ := .ite (.refl d) ((FltKept.refl d).within (raise_within ..) (by decide))
  have h₂ : FltKept d d₂ := .ite ((h₁.within (bump_within ..) (by decide)).within (raise_within ..) (by decide)) h₁
  clear_value d₂
  have hcount := countError_kept (n := 188 + p) (by omega) 9 0 d₂
  refine .ite h₂ ?_
  split
  · next d₃ rep heq => rw [heq] at hcount; exact (h₂.trans hcount).trans (retirePort_kept _ _ _ _)
  · next d₃ heq => rw [heq] at hcount; exact h₂.trans hcount

theorem camEnd_kept (p : Nat) (d : Dev) : FltKept d (camEnd p d) := by
  unfold camEnd
  split
  · exact (FltKept.refl d).within (setFld_within ..) (by decide)
  · exact (((FltKept.refl d).within (setCam_within ..) (by decide)).within (setFld_within ..) (by decide)).trans (camReport_kept _ _)

theorem stopCamera_kept (p : Nat) (d : Dev) : FltKept d (stopCamera p d) := (camEnd_kept p d).within (closePort_within ..) (by decide)

theorem camRelease_kept (sp : Nat) (d : Dev) : FltKept d (camRelease sp d) := by
  unfold camRelease
  extract_lets gone d₁ rings _ d₂ _ _ d₃
  have h₁ : FltKept d d₁ := by
    refine .foldl (.refl d) fun x f => ?_
    dsimp only
    refine FltKept.within (.ite ?_ ?_) (removeCam_within ..) (by decide)
    · exact ((FltKept.refl x).within (ringInc_within ..) (by decide)).within (ringInc_within ..) (by decide)
    · exact ((((FltKept.refl x).within (ringInc_within ..) (by decide)).within (ringInc_within ..) (by decide)).within
        (setFld_within ..) (by decide)).trans (camReport_kept _ _)
  clear_value d₁
  have h₂ : FltKept d d₂ := h₁.trans (.of_flt rfl)
  have h₃ : FltKept d d₃ := by
    refine .ite (FltKept.within ((h₂.within (dropParams_within ..) (by decide)).within (dropExposures_within ..) (by decide)) (within_cam ..) (by decide)) h₂
  exact .ite h₃ (h₃.within (ispStat_within ..) (by decide))

/-! ## The end of a Graft and of frames -/

theorem releaseSpace_kept (sp : Nat) (d : Dev) : FltKept d (releaseSpace sp d) := by
  unfold releaseSpace
  extract_lets d₁ m d₂ _ d₃
  have h₂ : FltKept d d₂ := .foldl (camRelease_kept sp d) fun x _ => (FltKept.refl x).within (freePage_within ..) (by decide)
  clear_value d₂
  have h₃ : FltKept d d₃ := h₂.trans (.of_flt rfl)
  exact .ite (h₃.trans (.of_flt rfl)) (h₃.trans (.of_flt rfl))

theorem releaseOutgoing_kept (n : Nat) (d : Dev) : FltKept d (releaseOutgoing n d) := by
  unfold releaseOutgoing
  extract_lets b d₁ _ d₂
  have h₂ : FltKept d d₂ := (releaseSpace_kept 1 d).trans (.of_flt rfl)
  exact (((h₂.within (setFld_within ..) (by decide)).within (dropOldPacks_within ..) (by decide)).within (endGraftWaits_within ..) (by decide)).within
    (raise_within ..) (by decide)

theorem releaseIfDone_kept (d : Dev) : FltKept d (releaseIfDone d) := .ite (releaseOutgoing_kept 0 d) (.refl d)

theorem closeFrames_kept (nv : NonVol) (d : Dev) : FltKept d (closeFrames nv d) := by
  unfold closeFrames
  exact (((FltKept.refl d).within (closeThese_within ..) (by decide)).within (openFrames_within ..) (by decide)).trans (releaseIfDone_kept _)

theorem endFencedTasks_kept (nv : NonVol) (d : Dev) : FltKept d (endFencedTasks nv d) := by
  unfold endFencedTasks
  exact FltKept.trans (.foldl (.refl d) fun x _ => (FltKept.refl x).within (endTask_within ..) (by decide)) (closeFrames_kept nv _)

theorem dropGraft0_kept (status : Nat) (d : Dev) : FltKept d (dropGraft0 status d) := by
  unfold dropGraft0
  extract_lets b d₁ d₂ d₃ _ _ d₄
  have h₁ : FltKept d d₁ := .foldl (.refl d) fun x _ => (FltKept.refl x).within (endFrame_within ..) (by decide)
  clear_value d₁
  have h₄ : FltKept d d₄ := ((h₁.within (setFrames_within ..) (by decide)).trans (releaseSpace_kept 0 d₂)).trans (.of_flt rfl)
  exact ((h₄.within (endGraftWaits_within ..) (by decide)).within (clearGraftRegs_within ..) (by decide)).within (dropOldPacks_within ..) (by decide)

theorem dropGraft1_kept (d : Dev) : FltKept d (dropGraft1 d) := by
  unfold dropGraft1
  extract_lets b d₁ d₂ d₃ _ d₄
  have h₁ : FltKept d d₁ := .foldl (.refl d) fun x _ => (FltKept.refl x).within (endFrame_within ..) (by decide)
  clear_value d₁
  have h₄ : FltKept d d₄ := ((h₁.within (setFrames_within ..) (by decide)).trans (releaseSpace_kept 1 d₂)).trans (.of_flt rfl)
  exact ((h₄.within (setFld_within ..) (by decide)).within (endGraftWaits_within ..) (by decide)).within (dropOldPacks_within ..) (by decide)

theorem stumpFallback_kept (cause : Nat) (d : Dev) : FltKept d (stumpFallback cause d) := by
  unfold stumpFallback
  extract_lets d₁ _ d₂ _ d₃ d₄ d₅ d₆
  have h₁ : FltKept d d₁ := dropGraft0_kept _ d
  clear_value d₁
  have h₂ : FltKept d₁ d₂ := by
    dsimp only [d₂]
    split
    · with_reducible refine .within (.within ?_ (complete_within ..) (by decide)) (progFail_within ..) (by decide)
      exact .of_flt rfl
    · exact .refl _
  clear_value d₂
  have h₃ : FltKept d₂ d₃ := by
    dsimp only [d₃]
    split
    · refine .ite ?_ ?_
      · with_reducible refine .within ?_ (complete_within ..) (by decide)
        exact .of_flt rfl
      · with_reducible refine .within (.within ?_ (complete_within ..) (by decide)) (progFail_within ..) (by decide)
        exact .of_flt rfl
    · exact .refl _
  clear_value d₃
  have h₅ : FltKept d₃ d₅ := (dropGraft1_kept d₃).within (replayExit_within ..) (by decide)
  clear_value d₅
  have h₆ : FltKept d₅ d₆ := ((FltKept.refl d₅).within (stumpSettings_within ..) (by decide)).within (setFlds_within ..) (by decide)
  exact (((h₁.trans h₂).trans h₃).trans h₅).trans (.ite (h₆.within (raise_within ..) (by decide)) (.refl d₅))

theorem stumpCheck_kept (nv : NonVol) (d : Dev) : FltKept d (stumpCheck nv d) := by
  have h₁ : FltKept d (updateAvail d) := (FltKept.refl d).within (updateAvail_within ..) (by decide)
  unfold stumpCheck
  dsimp only
  split
  · exact h₁.trans (stumpFallback_kept _ _)
  · exact h₁

/-! ## Fences and the retirement of a Branch -/

theorem fenceUnit_kept (nv : NonVol) (u cause : Nat) (d : Dev) : FltKept d (fenceUnit nv u cause d) := by
  unfold fenceUnit
  refine .ite (.refl d) ?_
  extract_lets d₁ d₂ d₃
  have h₁ : FltKept d d₁ := (FltKept.refl d).within (setFld_within ..) (by decide)
  have h₂ : FltKept d₁ d₂ := by
    refine .ite ((FltKept.refl d₁).within (fenceTwigs_within ..) (by decide)) (.ite ?_ (.ite (stopCamera_kept _ _) (.ite ?_ (.ite ?_ (.ite ?_ (.ite ?_ (.refl d₁)))))))
    · exact .foldl (.refl d₁) fun x _ => (FltKept.refl x).within (setFld_within ..) (by decide)
    · exact (FltKept.refl d₁).within (setFld_within ..) (by decide)
    · exact (FltKept.refl d₁).within (noteUses_within ..) (by decide)
    · exact (FltKept.refl d₁).within (sourceChange_within ..) (by decide)
    · exact (FltKept.refl d₁).within (setFld_within ..) (by decide)
  have h₃ : FltKept d₂ d₃ := .ite (.refl d₂) ((FltKept.refl d₂).within (raise_within ..) (by decide))
  exact (((h₁.trans h₂).trans h₃).trans (endFencedTasks_kept nv d₃)).trans (stumpCheck_kept nv _)

theorem retireBranch_kept (nv : NonVol) (p kind : Nat) (rep : Bool) (d : Dev) :
    FltKept (setBktState d (80 + p) 2) (retireBranch nv p kind rep d) := by
  unfold retireBranch
  extract_lets served d₁ d₂ _ d₃ _ d₄ owners d₅ host d₆ d₇ d₈
  have h₁ : FltKept (setBktState d (80 + p) 2) d₁ :=
    FltKept.setBktState ((FltKept.refl d).within (setFld_within d (fencedReg (0x10 + p)) 1) (by decide)) (80 + p) 2
  clear_value d₁
  have h₃ : FltKept d₁ d₃ := ((FltKept.refl d₁).within (fenceTwigs_within ..) (by decide)).within (setBranch_within ..) (by decide)
  have h₄ : FltKept d₃ d₄ := retired_kept d₃ _ _
  clear_value d₄
  have h₅ : FltKept d₄ d₅ := by
    refine .foldl (.refl d₄) fun x l => ?_
    with_reducible refine .within (.refl x) (rehost_within ..) (by decide)
  clear_value d₅
  have h₆ : FltKept d₅ d₆ := (FltKept.refl d₅).within (raise_within ..) (by decide)
  have h₇ : FltKept d₆ d₇ := .ite ((FltKept.refl d₆).within (raise_within ..) (by decide)) (.refl d₆)
  clear_value d₇
  have h₈ : FltKept d₇ d₈ := by
    refine .foldl (.refl d₇) fun x q => ?_
    refine .ite ?_ (.refl x)
    with_reducible refine .within (.refl x) (loseAdmission_within ..) (by decide)
  clear_value d₈
  exact ((((((h₁.trans h₃).trans h₄).trans h₅).trans h₆).trans h₇).trans h₈).trans ((endFencedTasks_kept nv d₈).trans (stumpCheck_kept nv _))

end Sys2Proof.Machine
end

section
/-! PROOF. Links (R263, R478), leaks and retirements that start (R450, R480, R484). -/

namespace Sys2Proof.Machine

/-! ## Links -/

theorem linkOf_setLink (d : Dev) (l m : Nat) (x : Link) : linkOf (setLink d l x) m = if m = l then x else linkOf d m := Map.get_put _ _ _ _ _

theorem linkOf_of_links {d e : Dev} (h : e.flt.links = d.flt.links) (l : Nat) : linkOf e l = linkOf d l := by rw [linkOf, h]; rfl

theorem branchCount_le (nv : NonVol) : 0 < branchCount nv ∧ branchCount nv ≤ 16 := by unfold branchCount; split <;> decide

theorem linkSender_lt (nv : NonVol) (l : Nat) : linkSender nv l < 16 := by
  obtain ⟨hpos, hle⟩ := branchCount_le nv
  unfold linkSender
  split
  · exact (Nat.mod_lt _ hpos).trans_le hle
  · exact Nat.mod_lt _ (by decide)

theorem countError_links (n kind addr : Nat) (d : Dev) : (countError n kind addr d).1.flt.links = d.flt.links := by
  by_cases h : outOfService d n
  · rw [countError_out h]
  · rw [countError_in h]
    show (reportErr n kind addr (bump d aErrTotal 1)).flt.links = d.flt.links
    exact congrArg Flt.links (((reportErr_within n kind addr _).only .flt (by decide)).trans ((bump_within d aErrTotal 1).only .flt (by decide)))

/-- What becomes of a Branch's error leaves the links alone. -/
theorem recordError_branch_links {n : Nat} (h80 : 80 ≤ n) (h96 : n < 96) (nv : NonVol) (kind addr : Nat) (d : Dev) :
    (recordError nv n kind addr d).flt.links = d.flt.links := by
  have hcount := countError_links n kind addr d
  unfold recordError
  split
  · next e rep heq =>
    rw [heq] at hcount
    refine Eq.trans ?_ hcount
    have hkind : retireKind n = some 2 := by
      unfold retireKind
      rw [if_neg (by simp; omega), if_neg (by simp; omega), if_pos (by simp; omega)]
    unfold permanent
    rw [hkind]
    dsimp only
    split
    · rfl
    · unfold actPermanent
      rw [if_neg (by omega), if_pos h96]
      exact (retireBranch_kept nv (n - 80) kind rep (setBktState e n 2)).links
  · next e heq => rw [heq] at hcount; exact hcount

/-- A link after an attempt that failed below the limit of R478. -/
structure Retried (x y : Link) : Prop where
  fails : y.fails = x.fails + 1
  resend : y.resend = true
  naking : y.naking = x.naking
  nextRx : y.nextRx = x.nextRx
  got : y.got = x.got
  unacked : y.unacked = x.unacked

theorem linkFailure_retried {d : Dev} {l : Nat} (hf : (linkOf d l).fails < 15) (nv : NonVol) :
    Retried (linkOf d l) (linkOf (linkFailure nv l d) l) := by
  have hsend := linkSender_lt nv l
  unfold linkFailure
  extract_lets x n y due d₁
  have hlow : ¬ 16 ≤ y.fails := by show ¬ 16 ≤ (linkOf d l).fails + 1; omega
  rw [if_neg hlow, linkOf_of_links (recordError_branch_links (by omega) (by omega) nv 4 l d₁)]
  have hone : Retried x (linkOf d₁ l) := by
    dsimp only [d₁]
    split
    · rw [linkOf_of_links (congrArg Flt.links ((raise_within ..).only .flt (by decide))), linkOf_setLink, if_pos rfl]
      exact ⟨rfl, rfl, rfl, rfl, rfl, rfl⟩
    · rw [linkOf_setLink, if_pos rfl]
      exact ⟨rfl, rfl, rfl, rfl, rfl, rfl⟩
  exact hone

/-- Without Wind, and with no flit held back, the receiver takes the flit that comes. -/
theorem flitReceivedOp_eq {d : Dev} {l seq : Nat} {x : Link} (hx : linkOf d l = x) (hw : flag d wndEn = false) (hheld : x.heldF = none)
    (hdue : flitDue x seq = true) (nv : NonVol) (crc : Nat) (pay : Bytes) :
    flitReceivedOp nv l seq crc pay d = linkReceive nv l seq crc pay (setLink d l { x with heldF := none }) := by
  have hw' : flag (setLink d l { x with heldF := none }) wndEn = false := hw
  unfold flitReceivedOp
  rw [hx, hdue, if_neg (by decide), hheld]
  dsimp only
  rw [windOn_off hw']

theorem linkReceive_good {d : Dev} {l seq crc : Nat} {pay : Bytes} {x : Link} (hx : linkOf d l = x) (hnak : x.naking = false) (hnext : seq = x.nextRx)
    (hcrc : crc16 (BitVec.ofNat 8 seq :: pay) = crc) (nv : NonVol) : linkReceive nv l seq crc pay d =
      setLink d l { x with nextRx := (x.nextRx + 1) % 256, naking := false, fails := 0, got := pay, unacked := x.unacked.filter (fun e => e.1 != seq) } := by
  unfold linkReceive
  rw [hx]
  exact if_pos (by subst hcrc; simp [hnext, hnak])

/-- The receiver waits for the resend, and the sender keeps the flit. -/
def nakked (seq : Nat) (pay : Bytes) (x : Link) : Link :=
  { x with naking := true, unacked := x.unacked.filter (fun e => e.1 != seq) ++ [(seq, pay)] }

theorem linkReceive_bad {d : Dev} {l seq crc : Nat} {pay : Bytes} {x : Link} (hx : linkOf d l = x) (hnak : x.naking = false)
    (hcrc : crc16 (BitVec.ofNat 8 seq :: pay) ≠ crc) (nv : NonVol) : linkReceive nv l seq crc pay d =
      linkFailure nv l (setLink d l (nakked seq pay x)) := by
  unfold linkReceive
  rw [hx]
  dsimp only
  rw [if_neg (by simp [hcrc]), hnak]
  rfl

/-- Settles O36. -/
theorem linksDeliverFlitsInOrder : Obligations.LinksDeliverFlitsInOrder := by
  unfold Obligations.LinksDeliverFlitsInOrder
  intro l x s halive hx hw
  refine ⟨fun seq crc pay hheld hnak hnext hroom => ?_, fun seq crc pay hany hfull => ?_, fun hres hun hf => ?_, fun hres => ?_⟩
  · have hdue : flitDue x seq.toNat = true := by
      rcases hroom with h | h
      · rw [flitDue, h]; rfl
      · simp only [flitDue, Link.credits, hheld, Bool.or_eq_true, bne_iff_ne]
        right
        rw [Option.isSome_none, if_neg (by decide)]
        omega
    have heq := flitReceivedOp_eq hx.symm hw hheld hdue s.nv crc.toNat pay
    have hlink : linkOf (setLink s.dev l.val { x with heldF := none }) l.val = { x with heldF := none } := by rw [linkOf_setLink, if_pos rfl]
    have hother (m : Nat) (hm : m ≠ l.val) : linkOf (setLink s.dev l.val { x with heldF := none }) m = linkOf s.dev m := by
      rw [linkOf_setLink, if_neg hm]
    have hset := (setLink_within s.dev l.val { x with heldF := none }).only
    generalize setLink s.dev l.val { x with heldF := none } = d at heq hlink hother hset
    refine ⟨fun hcrc => ?_, fun hcrc hf => ?_⟩
    · rw [linkReceive_good hlink hnak hnext (by simpa using hcrc)] at heq
      refine does_onDev _ rfl halive (heq ▸ hset.trans (setLink_within ..).only) ?_
      rw [heq]
      refine ⟨?_, fun m hm => ?_⟩
      · rw [linkOf_setLink, if_pos rfl, hnak.symm, hheld.symm]
      · rw [linkOf_setLink, if_neg hm, hother m hm]
    · rw [linkReceive_bad hlink hnak (by simpa using hcrc)] at heq
      refine does_onDev _ rfl halive ((flitReceivedOp_within ..).only.mono (by decide)) ?_
      have hat : linkOf (setLink d l.val (nakked seq.toNat pay { x with heldF := none })) l.val = nakked seq.toNat pay { x with heldF := none } := by
        rw [linkOf_setLink, if_pos rfl]
      have hret := linkFailure_retried (l := l.val) (by rw [hat]; exact hf) s.nv
      rw [hat] at hret
      rw [heq]
      exact ⟨hret.naking, hret.resend, hret.fails, hret.nextRx, hret.got, hret.unacked ▸ List.mem_append_right _ (List.mem_singleton.2 rfl)⟩
  · have hop : flitReceivedOp s.nv l.val seq.toNat crc.toNat pay s.dev = s.dev := by
      unfold flitReceivedOp
      rw [← hx]
      exact if_pos (by simp only [flitDue, Link.credits, hany]; simp; omega)
    exact does_onDev _ rfl halive (by rw [hop]; exact .refl _ _) trivial
  · subst hx
    have hop : flitAckTimeoutOp s.nv l.val s.dev = linkFailure s.nv l.val s.dev := if_neg (by simp [hres, hun])
    have hret := linkFailure_retried hf s.nv
    exact does_onDev _ rfl halive ((flitAckTimeoutOp_within ..).only.mono (by decide)) (by rw [hop]; exact ⟨hret.resend, hret.fails, hret.unacked⟩)
  · have hop : flitResendOp l.val s.dev = setLink s.dev l.val { x with resend := false } := by
      unfold flitResendOp
      rw [← hx]
      exact if_pos hres
    refine does_onDev _ rfl halive (hop ▸ (setLink_within ..).only) ?_
    rw [hop]
    exact ⟨by rw [linkOf_setLink, if_pos rfl], fun m hm => by rw [linkOf_setLink, if_neg hm]⟩

/-! ## Leaks and retirements that start -/

/-- The waiting retirement leaves the queue. -/
def dequeued (k n : Nat) (d : Dev) : Dev := { d with flt := { d.flt with waitQ := d.flt.waitQ.filter (· != (k, n)) } }

theorem retirementStartOp_eq {d : Dev} {k n : Nat} (hrun : d.flt.running.get 0 k = 0) (hq : d.flt.waitQ.find? (fun w => w.1 == k) = some (k, n))
    (nv : NonVol) : ∃ kind, retirementStartOp nv k d = actPermanent nv n kind false (dequeued k n d) := by
  unfold retirementStartOp
  rw [if_neg (by simp [hrun]), hq]
  exact ⟨_, rfl⟩

/-- A spare that stands in for no bank retires without a copy. -/
theorem retireBank_idle {p : Nat} {d : Dev} (h : 64 ≤ p ∧ flag d (spareInUse (p - 64)) = false) (nv : NonVol) :
    retireBank nv p d = setBktState d (96 + p) 2 := by
  unfold retireBank
  exact if_pos (by simp [h.1, h.2])

theorem retireBank_none {p : Nat} {d : Dev} (h : ¬ (64 ≤ p ∧ flag d (spareInUse (p - 64)) = false)) (hf : freeSpare d = none) (nv : NonVol) :
    FltKept (setBktState d (96 + p) 3) (retireBank nv p d) := by
  unfold retireBank
  dsimp only
  rw [if_neg (by simpa using h), hf]
  dsimp only
  exact ((FltKept.refl _).within (raise_within ..) (by decide)).trans (fenceUnit_kept nv _ 4 _)

theorem freeSpare_lt {d : Dev} {sp : Nat} (h : freeSpare d = some sp) : sp < 4 := by
  unfold freeSpare lowest at h
  exact List.mem_range.1 (List.mem_of_find?_eq_some h)

theorem copyFields_set (b : Nat) {sp : Nat} (hsp : sp < 4) (d : Dev) :
    let e := setFlds d [(spareBank sp, b), (spareInUse sp, 1), (copySrc, b), (copySpare, sp), (copyActive, 1), (copyDone, 0)]
    fld e copyActive == 1 ∧ fld e copySpare = sp ∧ fld e copyDone = 0 := by
  simp (disch := decide) only [setFlds_cons, setFlds_nil, fld_setFld_same, fld_setFld_other]
  exact ⟨rfl, Nat.mod_eq_of_lt hsp, rfl⟩

theorem chanFields_set {c : Nat} (hc : c < 8) (v : Nat) (d : Dev) :
    let e := setFlds d [(lp6RetChan, c), (lp6RetActive, 1), (lp6RetValid, 1), (lp6RetDone, 0), (lp6Inservice, v), (fencedReg (0x30 + c), 1)]
    flag e lp6RetActive = true ∧ fld e lp6RetChan = c ∧ fld e lp6RetDone = 0 := by
  have hfit : (fencedReg (0x30 + c)).lo + (fencedReg (0x30 + c)).width ≤ 32 := by simp only [fencedReg]; omega
  have hapart (x : Fld) (hx : x.addr = lp6RetChan.addr) : x.addr ≠ (fencedReg (0x30 + c)).addr := by
    rw [hx]; simp only [fencedReg, lp6RetChan]; omega
  refine ⟨?_, ?_, ?_⟩
  · rw [flag, setFlds_cons, setFlds_cons, setFlds_cons, setFlds_cons, setFlds_cons, setFlds_cons, setFlds_nil,
      fld_setFld_other _ _ lp6RetActive _ hfit (.inl (hapart _ rfl))]
    simp (disch := decide) only [fld_setFld_same, fld_setFld_other]
    rfl
  · rw [setFlds_cons, setFlds_cons, setFlds_cons, setFlds_cons, setFlds_cons, setFlds_cons, setFlds_nil,
      fld_setFld_other _ _ lp6RetChan _ hfit (.inl (hapart _ rfl))]
    simp (disch := decide) only [fld_setFld_same, fld_setFld_other]
    exact Nat.mod_eq_of_lt hc
  · rw [setFlds_cons, setFlds_cons, setFlds_cons, setFlds_cons, setFlds_cons, setFlds_cons, setFlds_nil,
      fld_setFld_other _ _ lp6RetDone _ hfit (.inl (hapart _ rfl))]
    simp (disch := decide) only [fld_setFld_same, fld_setFld_other]
    rfl

/-- The copy to a spare begins. -/
theorem retireBank_some {p sp : Nat} {d : Dev} (h : ¬ (64 ≤ p ∧ flag d (spareInUse (p - 64)) = false)) (hf : freeSpare d = some sp) (nv : NonVol) :
    (retireBank nv p d).flt = { d.flt with running := d.flt.running.put 0 0 (p + 1) } ∧ flag (retireBank nv p d) copyActive = true ∧
    fld (retireBank nv p d) copySpare = sp ∧ fld (retireBank nv p d) copyDone = 0 := by
  have hsp := freeSpare_lt hf
  unfold retireBank
  extract_lets b pages held free d₁ _ _ d₂
  rw [if_neg (by simpa using h), hf]
  dsimp only
  obtain ⟨hact, hspare, hdone⟩ := copyFields_set b hsp d₂
  have hflt : (setFlds d₂ [(spareBank sp, b), (spareInUse sp, 1), (copySrc, b), (copySpare, sp), (copyActive, 1), (copyDone, 0)]).flt =
      { d.flt with running := d.flt.running.put 0 0 (p + 1) } := setFlds_flt ..
  generalize setFlds d₂ [(spareBank sp, b), (spareInUse sp, 1), (copySrc, b), (copySpare, sp), (copyActive, 1), (copyDone, 0)] = d₃ at *
  have hkept (x : Fld) (hx : x.addr = copySrc.addr) : fld (progStart (raise d₃ 0x0405 (0x20 + b / 4) 1 (b + sp * 256)) 8 b 128) x = fld d₃ x := by
    rw [(progStart_regsBut _ _ _ _).fld (by rw [hx]; decide), (raise_regsBut _ _ _ _ _).fld (by rw [hx]; decide)]
  refine ⟨?_, ?_, ?_, ?_⟩
  · rw [progStart_flt, raise_flt, hflt]
  · rw [flag, hkept copyActive rfl]; exact hact
  · rw [hkept copySpare rfl]; exact hspare
  · rw [hkept copyDone rfl]; exact hdone

theorem retireChannel_second {c : Nat} {d : Dev} (h : flag d lp6RetValid = true ∨ flag d lp6RetActive = true) (nv : NonVol) :
    FltKept (setBktState d (164 + c) 3) (retireChannel nv c d) := by
  unfold retireChannel
  rw [if_pos (by simpa using h)]
  exact ((FltKept.refl _).within (raise_within ..) (by decide)).trans (fenceUnit_kept nv _ 4 _)

theorem retireChannel_first {c : Nat} {d : Dev} (hc : c < 8) (hv : flag d lp6RetValid = false) (ha : flag d lp6RetActive = false) (nv : NonVol) :
    (retireChannel nv c d).flt = { d.flt with running := d.flt.running.put 0 1 (c + 1), retired := (0x30 + c) :: d.flt.retired } ∧
    flag (retireChannel nv c d) lp6RetActive = true ∧ fld (retireChannel nv c d) lp6RetChan = c ∧ fld (retireChannel nv c d) lp6RetDone = 0 := by
  unfold retireChannel
  rw [if_neg (by simp [hv, ha])]
  extract_lets _ _ d₁ d₂ d₃ d₄ d₅
  obtain ⟨hact, hchan, hdone⟩ := chanFields_set hc (setBit (fld d₄ lp6Inservice) c false) d₄
  have hloop : Within [.regs] d₂ d₃ := .foldl (.refl _ _) fun x l => setFld_within ..
  have hflt : d₃.flt = d₁.flt := hloop.only .flt (by decide)
  refine ⟨?_, ?_, ?_, ?_⟩
  · rw [progStart_flt, setFlds_flt, raise_flt, hflt]
  · rw [(progStart_regsBut _ _ _ _).flag (by decide)]; exact hact
  · rw [(progStart_regsBut _ _ _ _).fld (by decide)]; exact hchan
  · rw [(progStart_regsBut _ _ _ _).fld (by decide)]; exact hdone

/-- A retirement that has started: what the fault unit shows of it. -/
structure Started (d e : Dev) (n st : Nat) : Prop where
  waitQ : e.flt.waitQ = d.flt.waitQ
  state : (bucket e n).state = st

theorem started_of_kept {d e : Dev} {n st : Nat} (h : FltKept (setBktState d n st) e) (hn : n < 188) : Started d e n st :=
  ⟨h.waitQ, by rw [h.bkt n hn, bucket_setBktState, if_pos rfl]⟩

theorem started_twice {d e : Dev} {n st st' : Nat} (h : Started (setBktState d n st') e n st) : Started d e n st := ⟨h.waitQ, h.state⟩

theorem freeSpare_setBktState {d : Dev} {n st : Nat} (h : n < 160 ∨ flag d (spareInUse (n - 160)) = true) :
    freeSpare (setBktState d n st) = freeSpare d := by
  have hs (s : Nat) : (!flag (setBktState d n st) (spareInUse s) && (bucket (setBktState d n st) (160 + s)).state = 0) =
      (!flag d (spareInUse s) && (bucket d (160 + s)).state = 0) := by
    have hflag : flag (setBktState d n st) (spareInUse s) = flag d (spareInUse s) := rfl
    rw [hflag, bucket_setBktState]
    by_cases hn : 160 + s = n
    · have hused : flag d (spareInUse s) = true := (h.resolve_left (by omega)) ▸ by rw [← hn, Nat.add_sub_cancel_left]
      rw [hused]; rfl
    · rw [if_neg hn]
  unfold freeSpare
  exact congrArg (lowest 4) (funext hs)

theorem bankRetirement {n : Nat} (h96 : 96 ≤ n) (h164 : n < 164) (nv : NonVol) (d : Dev) :
    Started d (retireBank nv (n - 96) (setBktState d n 1)) n (if 160 ≤ n ∧ n < 164 ∧ flag d (spareInUse (n - 160)) = false then 2
      else if freeSpare d = none then 3 else 1) ∧
    (∀ sp, n < 160 ∨ flag d (spareInUse (n - 160)) = true → freeSpare d = some sp →
      flag (retireBank nv (n - 96) (setBktState d n 1)) copyActive = true ∧ fld (retireBank nv (n - 96) (setBktState d n 1)) copySpare = sp ∧
      fld (retireBank nv (n - 96) (setBktState d n 1)) copyDone = 0 ∧
      (retireBank nv (n - 96) (setBktState d n 1)).flt.running.get 0 0 = n - 96 + 1) := by
  have hn : 96 + (n - 96) = n := by omega
  have hsub : n - 96 - 64 = n - 160 := by omega
  by_cases hidle : 160 ≤ n ∧ n < 164 ∧ flag d (spareInUse (n - 160)) = false
  · obtain ⟨h160, -, hfree⟩ := hidle
    have hop := retireBank_idle (p := n - 96) (d := setBktState d n 1) ⟨by omega, by rw [hsub]; exact hfree⟩ nv
    rw [hn] at hop
    rw [hop, if_pos ⟨h160, h164, hfree⟩]
    refine ⟨started_twice (started_of_kept (.refl _) (by omega)), fun sp h => ?_⟩
    rcases h with h | h
    · omega
    · rw [hfree] at h; cases h
  · have hbusy : n < 160 ∨ flag d (spareInUse (n - 160)) = true := by
      rcases Nat.lt_or_ge n 160 with h | h
      · exact .inl h
      · exact .inr (by simpa [h, h164] using hidle)
    have hnot : ¬ (64 ≤ n - 96 ∧ flag (setBktState d n 1) (spareInUse (n - 96 - 64)) = false) := by
      rw [hsub]
      exact fun h => hidle ⟨by omega, h164, h.2⟩
    have hfree := freeSpare_setBktState (st := 1) hbusy
    rw [if_neg hidle]
    cases hsp : freeSpare d with
    | none =>
      have hkept := retireBank_none hnot (hfree.trans hsp) nv
      rw [hn] at hkept
      exact ⟨started_twice (started_of_kept hkept (by omega)), fun _ _ h => by cases h⟩
    | some sp =>
      obtain ⟨hflt, hact, hspare, hdone⟩ := retireBank_some hnot (hfree.trans hsp) nv
      refine ⟨⟨?_, ?_⟩, fun q _ hq => ⟨hact, ?_, hdone, ?_⟩⟩
      · rw [hflt]; rfl
      · rw [bucket, hflt]
        exact congrArg Bucket.state ((bucket_setBktState d n n 1).trans (if_pos rfl))
      · rw [hspare]; exact Option.some.inj hq
      · rw [hflt]
        exact Map.get_put_same (0 : Nat) (setBktState d n 1).flt.running 0 (n - 96 + 1)

theorem channelRetirement {n : Nat} (h164 : 164 ≤ n) (h172 : n < 172) (nv : NonVol) (d : Dev) :
    Started d (retireChannel nv (n - 164) (setBktState d n 1)) n (if flag d lp6RetValid = true ∨ flag d lp6RetActive = true then 3 else 1) ∧
    (flag d lp6RetValid = false → flag d lp6RetActive = false → flag (retireChannel nv (n - 164) (setBktState d n 1)) lp6RetActive = true ∧
      fld (retireChannel nv (n - 164) (setBktState d n 1)) lp6RetChan = n - 164 ∧
      fld (retireChannel nv (n - 164) (setBktState d n 1)) lp6RetDone = 0 ∧
      (retireChannel nv (n - 164) (setBktState d n 1)).flt.running.get 0 1 = n - 164 + 1) := by
  have hn : 164 + (n - 164) = n := by omega
  by_cases hsecond : flag d lp6RetValid = true ∨ flag d lp6RetActive = true
  · have hkept := retireChannel_second (c := n - 164) (d := setBktState d n 1) hsecond nv
    rw [hn] at hkept
    rw [if_pos hsecond]
    refine ⟨started_twice (started_of_kept hkept (by omega)), fun hv ha => ?_⟩
    rw [hv, ha] at hsecond
    exact absurd hsecond (by decide)
  · obtain ⟨hv, ha⟩ : flag d lp6RetValid = false ∧ flag d lp6RetActive = false := by simpa using hsecond
    obtain ⟨hflt, hact, hchan, hdone⟩ := retireChannel_first (c := n - 164) (d := setBktState d n 1) (by omega) hv ha nv
    rw [if_neg hsecond]
    refine ⟨⟨?_, ?_⟩, fun _ _ => ⟨hact, hchan, hdone, ?_⟩⟩
    · rw [hflt]; rfl
    · rw [bucket, hflt]
      exact congrArg Bucket.state ((bucket_setBktState d n n 1).trans (if_pos rfl))
    · rw [hflt]
      exact Map.get_put_same (0 : Nat) (setBktState d n 1).flt.running 1 (n - 164 + 1)

theorem branchRetirement {n : Nat} (h80 : 80 ≤ n) (h96 : n < 96) (nv : NonVol) (kind : Nat) (d : Dev) :
    Started d (retireBranch nv (n - 80) kind false (setBktState d n 2)) n 2 := by
  have hkept := retireBranch_kept nv (n - 80) kind false (setBktState d n 2)
  rw [show 80 + (n - 80) = n by omega] at hkept
  exact started_twice (started_of_kept hkept (by omega))

theorem retireKind_range {n k : Nat} (h : retireKind n = some k) :
    (k = 0 ∧ 96 ≤ n ∧ n < 164) ∨ (k = 1 ∧ 164 ≤ n ∧ n < 172) ∨ (k = 2 ∧ 80 ≤ n ∧ n < 96) := by
  unfold retireKind at h
  simp only [Bool.and_eq_true, decide_eq_true_eq] at h
  split at h
  · next hn => exact .inl ⟨(Option.some.inj h).symm, hn⟩
  · split at h
    · next hn => exact .inr (.inl ⟨(Option.some.inj h).symm, hn⟩)
    · split at h
      · next hn => exact .inr (.inr ⟨(Option.some.inj h).symm, hn⟩)
      · cases h

theorem bucketLeakOp_eq {d : Dev} {n : Nat} (h0 : (bucket d n).level ≠ 0) (hs : (bucket d n).state = 0) (hl : fld d (polLeak (bktClass n)) ≠ 0)
    (ht : fld d (polLeak (bktClass n)) * 10000000 ≤ d.devTime.toNat - (bucket d n).leakT) :
    bucketLeakOp n d = setBucket d n { bucket d n with
      level := (bucket d n).level - 1, leakT := (bucket d n).leakT + fld d (polLeak (bktClass n)) * 10000000 } := by
  unfold bucketLeakOp
  exact if_pos (by simp [h0, hs, hl, ht])

/-- Settles O35: the steps after a retirement has begun leave the fault unit's queues and buckets alone (`FltKept`). -/
theorem bucketsLeakAndRetirementsStart : Obligations.BucketsLeakAndRetirementsStart := by
  unfold Obligations.BucketsLeakAndRetirementsStart
  refine fun s halive => ⟨fun n b hb h0 hs hl ht => ?_, fun k n hrun hq hkind => ?_⟩
  · subst hb
    have hop := bucketLeakOp_eq h0 hs hl ht
    refine does_onDev _ rfl halive (hop ▸ (setBucket_within ..).only) ?_
    rw [hop]
    exact ⟨rfl, fun m => bucket_setBucket s.dev n m _⟩
  · obtain ⟨kind, hop⟩ := retirementStartOp_eq hrun hq s.nv
    have hregs : (dequeued k.val n s.dev).regs = s.dev.regs := rfl
    have hwait : (dequeued k.val n s.dev).flt.waitQ = s.dev.flt.waitQ.filter (· != (k.val, n)) := rfl
    have hspare : freeSpare (dequeued k.val n s.dev) = freeSpare s.dev := rfl
    generalize dequeued k.val n s.dev = d at hop hregs hwait hspare
    refine does_onDev _ rfl halive ((retirementStartOp_within ..).only.mono (by decide)) ?_
    rw [hop]
    rcases retireKind_range hkind with ⟨hk, hlo, hhi⟩ | ⟨hk, hlo, hhi⟩ | ⟨hk, hlo, hhi⟩
    · obtain rfl : k = 0 := Fin.ext hk
      have hact : actPermanent s.nv n kind false d = retireBank s.nv (n - 96) (setBktState d n 1) := by
        unfold actPermanent
        rw [if_neg (by omega), if_neg (by omega), if_pos hhi]
      obtain ⟨hst, hcopy⟩ := bankRetirement hlo hhi s.nv d
      rw [flag_of_regs hregs, hspare] at hst
      rw [hact]
      refine ⟨hst.waitQ.trans hwait, hst.state.trans (if_congr (by simp) rfl (if_congr (by simp) rfl rfl)), fun sp _ hb hsp => ?_, fun h => ?_⟩
      · exact hcopy sp (by rwa [flag_of_regs hregs]) (hspare.trans hsp)
      · exact absurd h (by decide)
    · obtain rfl : k = 1 := Fin.ext hk
      have hact : actPermanent s.nv n kind false d = retireChannel s.nv (n - 164) (setBktState d n 1) := by
        unfold actPermanent
        rw [if_neg (by omega), if_neg (by omega), if_neg (by omega), if_pos hhi]
      obtain ⟨hst, hcopy⟩ := channelRetirement hlo hhi s.nv d
      rw [flag_of_regs hregs, flag_of_regs hregs] at hst hcopy
      have hbank : ¬ (160 ≤ n ∧ n < 164 ∧ flag s.dev (spareInUse (n - 160)) = false) := by omega
      rw [hact]
      refine ⟨hst.waitQ.trans hwait, ?_, fun sp h => absurd h (by decide), fun _ => hcopy⟩
      rw [hst.state, if_neg (show ¬ ((1 : Fin 3) = 2 ∨ _) from fun h => h.elim (by decide) hbank)]
      exact if_congr (by simp) rfl rfl
    · obtain rfl : k = 2 := Fin.ext hk
      have hact : actPermanent s.nv n kind false d = retireBranch s.nv (n - 80) kind false (setBktState d n 2) := by
        unfold actPermanent
        rw [if_neg (by omega), if_pos hhi]
      have hst := branchRetirement hlo hhi s.nv kind d
      rw [hact]
      exact ⟨hst.waitQ.trans hwait, hst.state.trans (if_pos (.inl rfl)).symm, fun sp h => absurd h (by decide), fun h => absurd h (by decide)⟩

end Sys2Proof.Machine
end

section
/-! PROOF. Wind rules (R499 to R501). -/

namespace Sys2Proof.Machine

/-! ## Arming -/

/-- The three fields of CTL that the engine writes, one above the other. -/
theorem wndCtl_apart (r : Nat) : ((wndLimit r).lo + (wndLimit r).width ≤ (wndArm r).lo ∧ (wndArm r).lo + (wndArm r).width ≤ (wndErr r).lo) ∧
    (wndErr r).lo + (wndErr r).width ≤ 32 := (by decide : (0 + 16 ≤ 16 ∧ 16 + 1 ≤ 17) ∧ 17 + 1 ≤ 32)

/-- A rule is legal by its own words below CTL. -/
theorem windLegal_of_regs {d e : Dev} {r : Nat} (h : RegsBut [wndBase r + 0x10] d e) (nv : NonVol) : windLegal nv e r = windLegal nv d r := by
  have hf (x : Fld) (hx : x.addr = wndBase r ∨ x.addr = wndBase r + 4) : fld e x = fld d x := h.fld (by simp only [List.mem_singleton]; omega)
  unfold windLegal
  rw [hf (wndAction r) (.inl rfl), hf (wndIndex r) (.inl rfl), hf (wndKind r) (.inl rfl), hf (wndTrig r) (.inl rfl), hf (wndParam0 r) (.inr rfl)]

theorem fencedWind_of_regs {d e : Dev} {r : Nat} (h : RegsBut [wndBase r + 0x10] d e) : fenced e 0x42 = fenced d 0x42 :=
  h.fenced (by simp only [List.mem_singleton, fencedReg, wndBase]; omega)

/-- LIMIT after a write: it changes only while the rule is not armed. -/
def limitWritten (r v : Nat) (d : Dev) : Dev := if flag d (wndArm r) then d else setFld d (wndLimit r) (bits v 0 16)

/-- The counts of an armed rule start at zero. -/
def windArmed (r : Nat) (d : Dev) : Dev :=
  let z : WindRule := { seen := 0, fired := 0, armT := 0 }
  setFlds { d with flt := { d.flt with wind := d.flt.wind.put z r { z with armT := d.devTime.toNat } } } [(wndArm r, 1), (wndErr r, 0)]

theorem windArmOp_eq (nv : NonVol) (r : Nat) (v : Word) (d : Dev) : windArmOp nv r v d =
    if bits v.toNat 16 1 = 0 then setFld (limitWritten r v.toNat d) (wndArm r) 0
    else if flag d (wndArm r) then limitWritten r v.toNat d
    else if windLegal nv (limitWritten r v.toNat d) r && !fenced (limitWritten r v.toNat d) 0x42 then windArmed r (limitWritten r v.toNat d)
    else setFld (limitWritten r v.toNat d) (wndErr r) 1 := rfl

theorem limitWritten_tame (r v : Nat) (d : Dev) : Tame [.regs] [wndBase r + 0x10] d (limitWritten r v d) :=
  .ite (.refl _ _ _) (setFld_tame d (wndLimit r) _)

theorem limitWritten_fields (r v : Nat) (d : Dev) :
    fld (limitWritten r v d) (wndLimit r) = (if flag d (wndArm r) then fld d (wndLimit r) else v % 65536) ∧
    flag (limitWritten r v d) (wndArm r) = flag d (wndArm r) ∧ fld (limitWritten r v d) (wndErr r) = fld d (wndErr r) := by
  obtain ⟨⟨hla, hae⟩, hfit⟩ := wndCtl_apart r
  unfold limitWritten
  split
  · exact ⟨rfl, rfl, rfl⟩
  · refine ⟨(fld_setFld_same _ _ _ (by omega)).trans ?_, ?_, fld_setFld_other _ _ _ _ (by omega) (.inr (.inr (by omega)))⟩
    · exact (Nat.mod_mod _ _).trans (by rw [Nat.pow_zero, Nat.div_one]; rfl)
    · rw [flag, fld_setFld_other _ _ _ _ (by omega) (.inr (.inr (by omega)))]; rfl

theorem windArmed_shows (r : Nat) (d : Dev) : Only [.regs, .flt] d (windArmed r d) ∧ RegsBut [wndBase r + 0x10] d (windArmed r d) ∧
    flag (windArmed r d) (wndArm r) = true ∧ flag (windArmed r d) (wndErr r) = false ∧ fld (windArmed r d) (wndLimit r) = fld d (wndLimit r) ∧
    (windArmed r d).flt = { d.flt with wind := (windArmed r d).flt.wind } ∧
    (windArmed r d).flt.wind.get { seen := 0, fired := 0, armT := 0 } r = { seen := 0, fired := 0, armT := d.devTime.toNat } := by
  obtain ⟨⟨hla, hae⟩, hfit⟩ := wndCtl_apart r
  unfold windArmed
  dsimp only
  generalize hx : ({ d with flt := _ } : Dev) = x
  have hregs : x.regs = d.regs := hx ▸ rfl
  have honly : Only [.flt] d x := hx ▸ (within_flt ..).only
  have hset := setFlds_tame x [(wndArm r, 1), (wndErr r, 0)]
  have hflt : (setFlds x [(wndArm r, 1), (wndErr r, 0)]).flt = x.flt := setFlds_flt ..
  refine ⟨(honly.mono (by decide)).via hset.only (by decide), (RegsBut.of_regs (.refl _ _) hregs).trans (hset.regs.mono ?_), ?_, ?_, ?_, ?_, ?_⟩
  · simp [wndArm, wndErr]
  · rw [flag, setFlds_cons, setFlds_cons, setFlds_nil, fld_setFld_other _ _ _ _ (by omega) (.inr (.inl hae)), fld_setFld_same _ _ _ (by omega)]
    rfl
  · rw [flag, setFlds_cons, setFlds_cons, setFlds_nil, fld_setFld_same _ _ _ (by omega)]
    rfl
  · rw [setFlds_cons, setFlds_cons, setFlds_nil, fld_setFld_other _ _ _ _ (by omega) (.inr (.inl (by omega))),
      fld_setFld_other _ _ _ _ (by omega) (.inr (.inl hla)), fld_of_regs hregs]
  · rw [hflt, ← hx]
  · rw [hflt, ← hx]
    exact Map.get_put_same ({ seen := 0, fired := 0, armT := 0 } : WindRule) d.flt.wind r _

/-! ## A rule that fires -/

/-- The counts of a rule. -/
abbrev ruleOf (d : Dev) (r : Nat) : WindRule := d.flt.wind.get { seen := 0, fired := 0, armT := 0 } r

/-- To be seen is no firing. -/
theorem windSee_fired (d : Dev) (kind dir index m : Nat) : (ruleOf (windSee d kind dir index) m).fired = (ruleOf d m).fired := by
  unfold windSee
  generalize List.range 8 = rs
  induction rs generalizing d with
  | nil => rfl
  | cons r rs ih =>
    rw [List.foldl_cons, ih]
    split
    · rw [ruleOf]
      dsimp only
      rw [Map.get_put]
      split
      · next h => rw [h]
      · rfl
    · rfl

theorem windMatch_armed {d : Dev} {r kind dir index addr : Nat} (h : windMatch d r kind dir index addr = true) : flag d (wndArm r) = true := by
  unfold windMatch at h
  simp only [Bool.and_eq_true] at h
  exact h.1.1.1.1

theorem lowest_alone {n r : Nat} {p : Nat → Bool} (hr : r < n) (hp : p r = true) (ho : ∀ q, q < n → q ≠ r → p q = false) : lowest n p = some r :=
  List.find?_range_eq_some.2 ⟨hp, List.mem_range.2 hr, fun q hq => by rw [ho q (by omega) (by omega)]; rfl⟩

/-- The only rule that matches a message fires. -/
theorem usbPacket_fires {d : Dev} {ep r : Nat} (hen : flag d wndEn = true) (hf : fenced d 0x42 = false) (hr : r < 8)
    (hm : windMatch d r 4 0 ep 0 = true) (ho : ∀ q, q < 8 → q ≠ r → flag d (wndArm q) = false) :
    usbPacket ep d = windFire (windSee d 4 0 ep) r := by
  have hlow : lowest 8 (fun q => windMatch d q 4 0 ep 0) = some r := by
    refine lowest_alone hr hm fun q hq hne => ?_
    by_contra h
    have := windMatch_armed (by simpa using h)
    rw [ho q hq hne] at this
    cases this
  unfold usbPacket windOn
  rw [if_neg (by simp [hen, hf]), hlow]

/-- A firing: HITS counts it, and the last one that LIMIT allows disarms the rule. -/
theorem windFire_shows {d : Dev} {r n : Nat} (hr : r < 8) (hn : n = (ruleOf d r).fired + 1) :
    Only [.regs, .usb, .root, .flt] d (windFire d r) ∧
    (reg (windFire d r) (aWndHits r)).toNat = min ((reg d (aWndHits r)).toNat + 1) 0xFFFFFFFF ∧
    (ruleOf (windFire d r) r).fired = n ∧ (windFire d r).usb.ep1in = d.usb.ep1in ∧
    (fld d (wndLimit r) ≠ 0 → fld d (wndLimit r) ≤ n → flag (windFire d r) (wndArm r) = false ∧ Raised 0x0807 0x42 0 r d (windFire d r)) ∧
    (fld d (wndLimit r) = 0 ∨ n < fld d (wndLimit r) → flag (windFire d r) (wndArm r) = flag d (wndArm r) ∧ (windFire d r).root = d.root) := by
  obtain ⟨⟨hla, hae⟩, hfit⟩ := wndCtl_apart r
  unfold windFire
  dsimp only
  generalize hx : ({ d with flt := _ } : Dev) = x
  have honly : Only [.flt] d x := hx ▸ (within_flt ..).only
  have hregs : x.regs = d.regs := honly .regs (by decide)
  have hfired : (ruleOf x r).fired = n := by
    rw [← hx, ruleOf]
    dsimp only
    rw [Map.get_put_same, hn]
  have hbump := bump_tame x (aWndHits r) 1
  have hhits : (reg (bump x (aWndHits r) 1) (aWndHits r)).toNat = min ((reg d (aWndHits r)).toNat + 1) 0xFFFFFFFF := by
    rw [reg_bump_same, reg_of_regs hregs]
  have hctl (y : Fld) (hy : y.addr = wndBase r + 0x10) : fld (bump x (aWndHits r) 1) y = fld d y :=
    (hbump.regs.fld (by simp only [hy, aWndHits, List.mem_singleton]; omega)).trans (fld_of_regs hregs y)
  rw [hctl (wndLimit r) rfl, ← hn]
  generalize bump x (aWndHits r) 1 = y at *
  have hy : Only [.regs, .flt] d y := (honly.mono (by decide)).via hbump.only (by decide)
  have hrule (e : Dev) (he : e.flt = y.flt) : (ruleOf e r).fired = n := by
    rw [ruleOf, he, hbump.only .flt (by decide)]; exact hfired
  by_cases hlim : fld d (wndLimit r) ≠ 0 ∧ fld d (wndLimit r) ≤ n
  · rw [if_pos (by simpa using hlim)]
    have hoff := setFld_tame y (wndArm r) 0
    have hraise := raise_tame (d := setFld y (wndArm r) 0) (unit := 0x42) (by decide) 0x0807 0 r
    refine ⟨((hy.mono (by decide)).via hoff.only (by decide)).via hraise.only (by decide), ?_, hrule _ (by rw [raise_flt, setFld_flt]), ?_,
      fun _ _ => ⟨?_, ?_⟩, fun h => by omega⟩
    · rw [hraise.regs _ (by simp only [List.mem_singleton, aWndHits, wndBase, aEvtLost]; omega),
        hoff.regs _ (by simp only [List.mem_singleton, aWndHits, wndArm]; omega), hhits]
    · rw [raise_usb]
      show (setFld y (wndArm r) 0).usb.ep1in = d.usb.ep1in
      rw [setFld_usb, hy .usb (by decide)]
    · rw [hraise.regs.flag (by simp only [List.mem_singleton, wndArm, wndBase, aEvtLost]; omega), flag, fld_setFld_same _ _ _ (by omega)]
      rfl
    · exact (raise_raised _ 0x0807 0x42 0 (by omega)).of_eq ((hoff.only .devTime (by decide)).trans (hy .devTime (by decide))) rfl
  · rw [if_neg (by simpa using hlim)]
    exact ⟨hy.mono (by decide), hhits, hrule y rfl, congrArg Usb.ep1in (hy .usb (by decide)), fun h1 h2 => absurd ⟨h1, h2⟩ hlim,
      fun _ => ⟨congrArg (· == 1) (hctl (wndArm r) rfl), hy .root (by decide)⟩⟩

/-- Settles O37. -/
theorem windRulesArm : Obligations.WindRulesArm := by
  unfold Obligations.WindRulesArm
  intro r v s halive
  have hop := windArmOp_eq s.nv r.val v s.dev
  have htame := limitWritten_tame r.val v.toNat s.dev
  obtain ⟨hlimit, harm, herr⟩ := limitWritten_fields r.val v.toNat s.dev
  obtain ⟨⟨hla, hae⟩, hfit⟩ := wndCtl_apart r.val
  have hlegal := windLegal_of_regs htame.regs s.nv
  have hfence := fencedWind_of_regs htame.regs
  have hnone : flag s.dev (wndArm r.val) = true → limitWritten r.val v.toNat s.dev = s.dev := fun h => if_pos h
  generalize limitWritten r.val v.toNat s.dev = d at hop htame hlimit harm herr hlegal hfence hnone
  refine ⟨fun hbit hoff hleg hf => ?_, fun hbit hoff hbad => ?_, fun hbit hon => ?_, fun hbit => ?_,
    fun n c l hen hf hlink hq htag hm ho hn => ?_⟩
  · rw [if_neg (by omega), if_neg (by simp [hoff]), if_pos (by simp [hlegal, hfence, hleg, hf])] at hop
    obtain ⟨honly, hregs, h1, h2, h3, h4, h5⟩ := windArmed_shows r.val d
    rw [htame.only .flt (by decide)] at h4
    rw [htame.only .devTime (by decide)] at h5
    refine does_onDev _ rfl halive (hop ▸ (htame.only.mono (by decide)).trans honly) ?_
    rw [hop]
    exact ⟨h1, h2, h3.trans (hlimit.trans (if_neg (by simp [hoff]))), htame.regs.trans hregs, h4, h5⟩
  · rw [if_neg (by omega), if_neg (by simp [hoff]), if_neg (by rw [hlegal, hfence]; rcases hbad with h | h <;> simp [h])] at hop
    have hset := setFld_tame d (wndErr r.val) 1
    refine does_onDev _ rfl halive (hop ▸ htame.only.trans hset.only) ?_
    rw [hop]
    refine ⟨?_, ?_, ?_, htame.regs.trans hset.regs⟩
    · rw [flag, fld_setFld_other _ _ _ _ (by omega) (.inr (.inl hae))]
      exact harm.trans hoff
    · rw [flag, fld_setFld_same _ _ _ (by omega)]; rfl
    · rw [fld_setFld_other _ _ _ _ (by omega) (.inr (.inl (by omega)))]
      exact hlimit.trans (if_neg (by simp [hoff]))
  · rw [if_neg (by omega), if_pos hon, hnone hon] at hop
    exact does_onDev _ rfl halive (by rw [hop]; exact .refl _ _) trivial
  · rw [if_pos hbit] at hop
    have hset := setFld_tame d (wndArm r.val) 0
    refine does_onDev _ rfl halive (hop ▸ htame.only.trans hset.only) ?_
    rw [hop]
    refine ⟨?_, ?_, ?_, htame.regs.trans hset.regs⟩
    · rw [flag, fld_setFld_same _ _ _ (by omega)]; rfl
    · rw [fld_setFld_other _ _ _ _ (by omega) (.inr (.inr hae))]; exact herr
    · rw [fld_setFld_other _ _ _ _ (by omega) (.inr (.inl hla))]; exact hlimit
  · have hout : completionTakenOp s.dev = usbPacket 1 { s.dev with usb := completionDelivered c l s.dev.usb } :=
      (completionTakenOp_eq hlink hq).trans (if_neg htag)
    have hdev : Only [.usb] s.dev { s.dev with usb := completionDelivered c l s.dev.usb } := (within_usb ..).only
    have hep : ({ s.dev with usb := completionDelivered c l s.dev.usb } : Dev).usb.ep1in = l := rfl
    have hm' : windMatch { s.dev with usb := completionDelivered c l s.dev.usb } r.val 4 0 1 0 = true := hm
    generalize ({ s.dev with usb := completionDelivered c l s.dev.usb } : Dev) = e at *
    have hregs : e.regs = s.dev.regs := hdev .regs (by decide)
    have hfire := usbPacket_fires (d := e) (ep := 1) ((flag_of_regs hregs _).trans hen) ((fenced_of_regs hregs _).trans hf) r.isLt hm'
      fun q hq hne => (flag_of_regs hregs _).trans (ho q hq hne)
    have hsee := (windSee_within e 4 0 1).only
    have hfired : n = (ruleOf (windSee e 4 0 1) r.val).fired + 1 := by
      rw [windSee_fired, ruleOf, hdev .flt (by decide)]; exact hn
    rw [hfire] at hout
    obtain ⟨h1, h2, h3, h4, h5, h6⟩ := windFire_shows r.isLt hfired
    have hall : Only [.usb, .flt] s.dev (windSee e 4 0 1) := (hdev.mono (by decide)).via hsee (by decide)
    have hr : (windSee e 4 0 1).regs = s.dev.regs := hall .regs (by decide)
    have hu : (windSee e 4 0 1).usb.ep1in = l := by rw [hsee .usb (by decide), hep]
    have ht : (windSee e 4 0 1).devTime = s.dev.devTime := hall .devTime (by decide)
    have hroot : (windSee e 4 0 1).root = s.dev.root := hall .root (by decide)
    have harmed : flag (windSee e 4 0 1) (wndArm r.val) = true := (flag_of_regs hr _).trans (windMatch_armed hm)
    rw [fld_of_regs hr] at h5 h6
    rw [reg_of_regs hr] at h2
    rw [harmed, hroot] at h6
    refine does_onDev _ rfl halive (hout ▸ (hall.mono (by decide)).trans h1) ?_
    rw [hout]
    exact ⟨h4.trans hu, h2, h3, fun ha hb => ⟨(h5 ha hb).1, (h5 ha hb).2.of_eq ht rfl⟩, h6⟩

end Sys2Proof.Machine
end

section
/-! PROOF. Requests that are refused with the first status that applies, and the announcements of EP2 OUT. -/

namespace Sys2Proof.Machine

/-! ## Requests with an order of refusals -/

theorem addTag_only (d : Dev) (h : Hdr) (k : Nat) (w : Bool) : Only [.usb] d (addTag d h k w) := (addTag_within ..).only

/-- The completion of the request that has just taken its tag, whatever else its operation did. -/
theorem complete_queues {d d' : Dev} {h : Hdr} {kind type k : Nat} (st : Nat) (p : Bytes) (hr : Ready d h kind type)
    (ht : d'.usb.tags = (addTag d h k false).usb.tags) (he : d'.usb.ep1in = d.usb.ep1in) :
    Queued [answer h st p] d (complete d' (tagKey d h.tag) st p) := by
  have hf := find_addTag k hr
  rw [← ht] at hf
  rw [Queued, complete_ep1in st p hf, he, answer, tagKey_mod]

/-- The answer at once to the request of header `h`. -/
def refusal (d : Dev) (h : Hdr) (kind st : Nat) : Dev := complete (addTag d h kind false) (tagKey d h.tag) st []

/-- An operation whose first check refuses with status `st`, and that goes on as `y` otherwise. -/
theorem refuses {d e y : Dev} {h : Hdr} {kind st st' : Nat} {c c' : Prop} [Decidable c] [Decidable c'] (hc : c ↔ c') (hst : st ≠ stOk)
    (hy : y = if st' = stOk then e else refusal d h kind st') :
    (if c then complete (addTag d h kind false) (tagKey d h.tag) st [] else y) =
      if (if c' then st else st') = stOk then e else refusal d h kind (if c' then st else st') := by
  by_cases h' : c'
  · rw [if_pos (hc.mpr h'), if_pos h', if_neg hst]; rfl
  · rw [if_neg (mt hc.mp h'), if_neg h', hy]

theorem goesOn {d e : Dev} {h : Hdr} {kind : Nat} : e = if stOk = stOk then e else refusal d h kind stOk := (if_pos rfl).symm

/-- A request answers the first status that applies, and otherwise acts. -/
theorem does_takes {c : Instr} {s : State} {h : Hdr} {kind type : Nat} {ok : Bool} {body : Nat → Dev → Dev} {st : Nat} {l : List Part}
    {P : Dev → Prop} {e : Dev} (he : exec c s = onDev s (request c h kind type ok body)) (hr : Ready s.dev h kind type) (hok : ok = true)
    (hb : body (tagKey s.dev h.tag) (addTag s.dev h kind false) = if st = stOk then e else refusal s.dev h kind st)
    (hw : st = stOk → Only l (addTag s.dev h kind false) e) (hl : Part.usb ∈ l) (hp : st = stOk → P e) : Takes c s h st l P := by
  refine ⟨fun hst => ?_, fun hst => does_answer he hr hok (hb.trans (if_neg hst))⟩
  exact does_request e he hr hok (hb.trans (if_pos hst)) ((Only.mono (addTag_only _ _ _ _) (by simp [partsIn, hl])).trans (hw hst)) (hp hst)

theorem announce_only (d : Dev) (key : Nat) (k : XferKind) (n : Nat) : Only [.usb] d (announce key k n d) := (announce_within ..).only

theorem announced_of_usb {d e : Dev} {h : Hdr} {n k : Nat} {x : XferKind} (he : e.usb = (announce (tagKey d h.tag) x n (addTag d h k false)).usb) :
    Announced h x n d e := by
  rw [Announced, he]; rfl

/-! ## Operations that leave the requests of the host alone -/

/-- The tags, the transfers and EP1 IN are as they were. -/
structure RequestsKept (d e : Dev) : Prop where
  tags : e.usb.tags = d.usb.tags
  xfers : e.usb.xfers = d.usb.xfers
  ep1in : e.usb.ep1in = d.usb.ep1in

theorem RequestsKept.of_usb {d e : Dev} (h : e.usb = d.usb) : RequestsKept d e := ⟨by rw [h], by rw [h], by rw [h]⟩

theorem RequestsKept.of_only {l : List Part} {d e : Dev} (h : Only l d e) (hl : Part.usb ∉ l) : RequestsKept d e := .of_usb (h .usb hl)

theorem RequestsKept.refl (d : Dev) : RequestsKept d d := .of_usb rfl

theorem RequestsKept.trans {d e f : Dev} (h : RequestsKept d e) (g : RequestsKept e f) : RequestsKept d f :=
  ⟨g.tags.trans h.tags, g.xfers.trans h.xfers, g.ep1in.trans h.ep1in⟩

theorem raise_requestsKept (d : Dev) (code unit sev arg : Nat) : RequestsKept d (raise d code unit sev arg) :=
  ⟨by rw [raise_usb], by rw [raise_usb], by rw [raise_usb]⟩

theorem RequestsKept.queues {d d' : Dev} {h : Hdr} {kind type k : Nat} (hk : RequestsKept (addTag d h k false) d') (st : Nat) (p : Bytes)
    (hr : Ready d h kind type) : Queued [answer h st p] d (complete d' (tagKey d h.tag) st p) :=
  complete_queues st p hr hk.tags hk.ep1in

/-! ## The exit from Panel Replay (R354 to R358) -/

/-- An exit that replay is asked for by something other than the output's own registers, with no replay entered or in force. -/
theorem replayExit_idle {d : Dev} (h : fld d prState = 0) (cause : Nat) : replayExit cause d = d := by
  unfold replayExit
  simp [h]

/-- The registers of the output that an exit changes. -/
abbrev replayRegs : List Nat := [prState.addr, aEvtLost]

theorem replayExit_shows (cause : Nat) (d : Dev) : Tame [.regs, .usb, .root, .ras] replayRegs d (replayExit cause d) ∧
    RequestsKept d (replayExit cause d) ∧ (fld d prState = 2 → fld (replayExit cause d) prState = 3) := by
  unfold replayExit
  extract_lets e
  have he : Tame [.regs] replayRegs d e := .ite ((setFld_tame _ _ _).mono (by decide) (by decide)) (.refl _ _ _)
  have hst : fld e prState = fld d prState := by
    change fld (if _ then setFld d prReq 0 else d) prState = _
    split
    · exact fld_setFld_other _ _ _ _ (by decide) (by decide)
    · rfl
  clear_value e
  have hstep (r : Raster) (l : List (Fld × Nat)) (hl : l.map (·.1.addr) ⊆ replayRegs) (a : Nat) :
      Tame [.regs, .usb, .root, .ras] replayRegs d (raise (setFlds { e with ras := r } l) 0x0108 0x3B 0 a) ∧
        RequestsKept d (raise (setFlds { e with ras := r } l) 0x0108 0x3B 0 a) := by
    have hm : Tame [.ras] replayRegs e { e with ras := r } := ⟨(within_ras ..).only, .of_regs (.refl _ _) rfl⟩
    have hx := ((he.mono (l := [.regs, .ras]) (by decide) (by decide)).via hm (by decide) (by decide)).via (setFlds_tame _ l) (by decide) hl
    exact ⟨(hx.mono (by decide) (List.Subset.refl _)).via (raise_tame (by omega) _ _ _) (by decide) (by decide),
      (RequestsKept.of_only hx.only (by decide)).trans (raise_requestsKept ..)⟩
  split
  next h2 =>
    obtain ⟨htame, hkept⟩ := hstep { e.ras with prExit := some (add32 (ofn e) 2), prCause := cause } [(prState, 3)] (by decide) (3 + cause * 16)
    refine ⟨htame, hkept, fun _ => ?_⟩
    rw [(raise_regsBut _ _ _ _ _).fld (by decide)]
    exact fld_setFld_same _ _ _ (by decide)
  next h2 =>
    rw [hst] at h2
    split
    · obtain ⟨htame, hkept⟩ := hstep { e.ras with entered := false } [(prReq, 0), (prState, 0)] (by decide) (cause * 16)
      exact ⟨htame, hkept, fun h => absurd h h2⟩
    · exact ⟨he.mono (by decide) (by decide), .of_only he.only (by decide), fun h => absurd h h2⟩

/-! ## The announcements (R286, R287, R302, R325, R461) -/

def graftLoading (key n : Nat) (d : Dev) : Dev :=
  let e := loadPhase 1 (setFld (announce key .graft n d) graftSpace1 1)
  { e with root := { e.root with loadTag := some key } }

theorem graftLoading_shows (key n : Nat) (d : Dev) : (graftLoading key n d).usb = (announce key .graft n d).usb ∧
    fld (graftLoading key n d) graftSpace1 = 1 ∧ (graftLoading key n d).root.loadTag = some key ∧
    RegsBut [graftSpace1.addr, progA 1, progB 1] d (graftLoading key n d) ∧ Only [.regs, .usb, .root] d (graftLoading key n d) := by
  have hset := setFld_tame (announce key .graft n d) graftSpace1 1
  have hone : fld (setFld (announce key .graft n d) graftSpace1 1) graftSpace1 = 1 := fld_setFld_same _ _ _ (by decide)
  have hann : Only [.usb] d (announce key .graft n d) := announce_only _ _ _ _
  have husb : (setFld (announce key .graft n d) graftSpace1 1).usb = (announce key .graft n d).usb := setFld_usb ..
  unfold graftLoading loadPhase
  generalize setFld (announce key .graft n d) graftSpace1 1 = e at *
  have hp := progSet_regsBut e 1 1 0 1 6 0
  have hpo := (progSet_within e 1 1 0 1 6 0).only
  refine ⟨(hpo .usb (by decide)).trans husb, ?_, rfl, ?_, ?_⟩
  · exact (hp.fld (by decide)).trans hone
  · exact (((RegsBut.of_only hann (by decide) _).trans (hset.regs.mono (by decide))).trans (hp.mono (by decide)))
  · exact ((hann.mono (by decide)).via hset.only (by decide)).trans ((hpo.mono (by decide)).via (within_root ..).only (by decide))

theorem takes_graftLoad {h : Hdr} {n : Nat} {s : State} (hr : Ready s.dev h 1 0x10) (hlen : h.length = 8) :
    Takes (.graftLoad h n) s h
      (if fld s.dev graftSpace1 ≠ 0 ∨ s.dev.root.apply.isSome = true then stBusy else if n = 0 ∨ 0x1000000 < n then stBadArg
        else if flag s.dev lp6Avail = false then stNoResource else stOk) [.regs, .usb, .root]
      (fun e => Announced h .graft n s.dev e ∧ fld e graftSpace1 = 1 ∧ e.root.loadTag = some (tagKey s.dev h.tag) ∧
        RegsBut [graftSpace1.addr, progA 1, progB 1] s.dev e) := by
  obtain ⟨husb, hone, htag, hregs, honly⟩ := graftLoading_shows (tagKey s.dev h.tag) n (addTag s.dev h 1 false)
  refine does_takes rfl hr (decide_eq_true hlen) (e := graftLoading (tagKey s.dev h.tag) n (addTag s.dev h 1 false)) ?_ (fun _ => honly) (by decide)
    fun _ => ⟨announced_of_usb husb, hone, htag, hregs⟩
  refine refuses ?_ (by decide) (refuses ?_ (by decide) (refuses ?_ (by decide) goesOn))
  · rw [Bool.or_eq_true, decide_eq_true_iff]; rfl
  · simp
  · simp; rfl

theorem takes_seedStage {h : Hdr} {n : Nat} {s : State} (hr : Ready s.dev h 1 0x10) (hlen : h.length = 8) :
    Takes (.seedStage h n) s h
      (if s.dev.usb.xfers.any isSeedXfer = true then stBusy else if ¬ (224 ≤ n ∧ n ≤ 160 + 0x40000000 ∧ n % 64 = 32) then stBadArg
        else if flag s.dev lp6Avail = false then stNoResource else stOk) [.regs, .usb, .root]
      (fun e => Announced h .seed n s.dev e ∧ RegsBut [progA 3, progB 3] s.dev e) := by
  refine does_takes rfl hr (decide_eq_true hlen) (refuses Iff.rfl (by decide) (refuses ?_ (by decide) (refuses ?_ (by decide) goesOn)))
    (fun _ => ?_) (by decide) fun _ => ?_
  · rw [Bool.not_eq_true', decide_eq_false_iff_not]; rfl
  · simp; rfl
  · exact (Only.mono (announce_only _ _ _ _) (by decide)).via (progStart_within ..).only (by decide)
  · exact ⟨announced_of_usb ((progStart_within ..).only .usb (by decide)), progStart_regsBut _ _ _ _⟩

theorem fwUpdate_shows (h : Hdr) (n k slot : Nat) (d : Dev) :
    Only [.regs, .usb, .root] (addTag d h k false) (progStart (announce (tagKey d h.tag) .firmware n (addTag d h k false)) 6 slot (2 * n)) ∧
    Announced h .firmware n d (progStart (announce (tagKey d h.tag) .firmware n (addTag d h k false)) 6 slot (2 * n)) ∧
    RegsBut [progA 6, progB 6] d (progStart (announce (tagKey d h.tag) .firmware n (addTag d h k false)) 6 slot (2 * n)) :=
  ⟨(Only.mono (announce_only _ _ _ _) (by decide)).via (progStart_within ..).only (by decide),
    announced_of_usb ((progStart_within ..).only .usb (by decide)), progStart_regsBut _ _ _ _⟩

theorem takes_fwUpdate {h : Hdr} {n : Nat} {s : State} (hr : Ready s.dev h 1 0x10) (hlen : h.length = 8) :
    Takes (.fwUpdate h n) s h
      (if fenced s.dev 3 = true then stFenced else if n < 352 ∨ 4194592 < n then stBadArg
        else if s.dev.usb.xfers.any (fun x => isFwXfer x || isRestoreXfer x) = true then stBusy else stOk) [.regs, .usb, .root]
      (fun e => Announced h .firmware n s.dev e ∧ RegsBut [progA 6, progB 6] s.dev e) := by
  obtain ⟨honly, hann, hregs⟩ := fwUpdate_shows h n 1 (updateSlot s.nv (addTag s.dev h 1 false)) s.dev
  refine does_takes rfl hr (decide_eq_true hlen) (refuses Iff.rfl (by decide) (refuses ?_ (by decide) (refuses Iff.rfl (by decide) goesOn)))
    (fun _ => honly) (by decide) fun _ => ⟨hann, hregs⟩
  simp

theorem takes_intControl {h : Hdr} {n : Nat} {s : State} (hr : Ready s.dev h 1 0x10) (hlen : h.length = 8) :
    Takes (.intControl h n) s h (if n ≠ 160 then stBadArg else if controlBusy s.dev = true then stBusy else stOk) [.usb]
      (Announced h .intControl n s.dev) :=
  does_takes rfl hr (decide_eq_true hlen) (refuses Iff.rfl (by decide) (refuses Iff.rfl (by decide) goesOn))
    (fun _ => announce_only _ _ _ _) (by decide) fun _ => announced_of_usb rfl

theorem takes_restore {h : Hdr} {op slot n : Nat} {s : State} (hr : Ready s.dev h 1 0x10) (hlen : h.length = 12) :
    Takes (.restore h op slot n) s h
      (if fenced s.dev 3 = true then stFenced
        else if ¬ ((op = 1 ∧ slot < 4 ∧ n = 97) ∨ (op = 2 ∧ slot = 0 ∧ 1 ≤ n ∧ n ≤ 8192)) then stBadArg
        else if s.dev.usb.xfers.any isFwXfer = true then stBusy else stOk) [.usb] (Announced h (.restore op slot) n s.dev) := by
  refine does_takes rfl hr (decide_eq_true hlen) (refuses Iff.rfl (by decide) (refuses ?_ (by decide) (refuses Iff.rfl (by decide) goesOn)))
    (fun _ => announce_only _ _ _ _) (by decide) fun _ => announced_of_usb rfl
  simp only [Bool.not_eq_true', Bool.or_eq_false_iff, Bool.and_eq_false_iff, decide_eq_false_iff_not]
  tauto

/-! ### BARK_COMMAND -/

theorem barkReject_shows {h : Hdr} {s : State} {n st : Nat} (hr : Ready s.dev h 1 0x10) (hlen : h.length = 8) (hst : st < 2 ^ 32)
    (hb : unlessFenced 0x3A (barkCommandOp n) (tagKey s.dev h.tag) (addTag s.dev h 1 false) =
      barkReject st (tagKey s.dev h.tag) (addTag s.dev h 1 false)) :
    Does (.barkCommand h n) s [.regs, .usb, .root] (fun e => Queued [answer h st []] s.dev e ∧
      Raised 0x0704 0x3A 0 st s.dev e ∧ RegsBut [aEvtLost] s.dev e) := by
  have hraise := raise_tame (d := addTag s.dev h 1 false) (unit := 0x3A) (by omega) 0x0704 0 st
  refine does_request _ rfl hr (decide_eq_true hlen) hb (only_addTag_complete (by decide) hraise.only)
    ⟨(raise_requestsKept _ _ _ _ _).queues st [] hr, ?_, hraise.regs.trans (complete_regsBut _ _ _ _ _)⟩
  exact (raise_raised (addTag s.dev h 1 false) 0x0704 0x3A 0 hst).of_eq rfl (congrArg Root.lastEv ((complete_within ..).only .root (by decide)))

theorem does_barkCommand {h : Hdr} {n : Nat} {s : State} (hr : Ready s.dev h 1 0x10) (hlen : h.length = 8) :
    (fenced s.dev 0x3A = true → Does (.barkCommand h n) s [.usb] (Answered h stFenced [] s.dev)) ∧
    (∀ st, fenced s.dev 0x3A = false →
      st = (if n < 160 ∨ 524448 < n then stBadArg else if s.dev.cnp.barkPend.isSome = true then stBusy else stOk) →
      (st = stOk → Does (.barkCommand h n) s [.usb] (Announced h .bark n s.dev)) ∧
      (st ≠ stOk → Does (.barkCommand h n) s [.regs, .usb, .root] (fun e => Queued [answer h st []] s.dev e ∧
        Raised 0x0704 0x3A 0 st s.dev e ∧ RegsBut [aEvtLost] s.dev e))) := by
  refine ⟨fun hf => does_answer rfl hr (decide_eq_true hlen) (if_pos hf), fun st hf hst => ?_⟩
  have hop : unlessFenced 0x3A (barkCommandOp n) (tagKey s.dev h.tag) (addTag s.dev h 1 false) =
      barkCommandOp n (tagKey s.dev h.tag) (addTag s.dev h 1 false) := if_neg (ne_true_of_eq_false hf)
  by_cases hn : n < 160 ∨ 524448 < n
  · rw [if_pos hn] at hst
    subst hst
    exact ⟨(absurd · (by decide)), fun _ => barkReject_shows hr hlen (by decide) (hop.trans (if_pos (by simpa using hn)))⟩
  have hn' : ¬ (decide (n < 160) || decide (160 + 524288 < n)) = true := by simpa using hn
  rw [if_neg hn] at hst
  by_cases hp : s.dev.cnp.barkPend.isSome = true
  · rw [if_pos hp] at hst
    subst hst
    exact ⟨(absurd · (by decide)), fun _ => barkReject_shows hr hlen (by decide) (hop.trans ((if_neg hn').trans (if_pos hp)))⟩
  · rw [if_neg hp] at hst
    subst hst
    exact ⟨fun _ => does_request _ rfl hr (decide_eq_true hlen) (hop.trans ((if_neg hn').trans (if_neg hp)))
      ((addTag_only _ _ _ _).trans (announce_only _ _ _ _)) (announced_of_usb rfl), (absurd rfl ·)⟩

/-! ### ISP_PARAMS -/

/-- A set of parameters is on its way to context `c`. -/
def paramsPending (c key : Nat) (p : Option Bytes) (d : Dev) : Dev :=
  setFld { d with cam := { d.cam with pend := d.cam.pend.put none c (some (key, p)) } } (cxParamPend c) 1

theorem paramsPending_shows (c key : Nat) (p : Option Bytes) (d : Dev) : Tame [.regs, .cam] [(cxParamPend c).addr] d (paramsPending c key p d) ∧
    (paramsPending c key p d).cam = { d.cam with pend := (paramsPending c key p d).cam.pend } ∧
    (paramsPending c key p d).cam.pend.get none c = some (key, p) ∧ flag (paramsPending c key p d) (cxParamPend c) = true := by
  have hc : (paramsPending c key p d).cam = { d.cam with pend := d.cam.pend.put none c (some (key, p)) } := setFld_cam ..
  refine ⟨⟨(Only.mono (within_cam ..).only (by decide)).via (setFld_within ..).only (by decide), setFld_regsBut _ _ _⟩, by rw [hc],
    by
    rw [hc]; exact Map.get_put_same (none : Option (Nat × Option Bytes)) d.cam.pend c (some (key, p)), ?_⟩
  rw [flag, paramsPending, fld_setFld_same _ (cxParamPend c) _ (show 0 + 1 ≤ 32 by decide)]; rfl

theorem takes_ispParams {h : Hdr} {c off n : Nat} {s : State} (hr : Ready s.dev h 1 0x10) (hlen : h.length = 16) :
    Takes (.ispParams h c off n) s h
      (if fenced s.dev 0x3F = true ∨ ctxDisabled s.dev c = true then stFenced
        else if (ctxOff (img0 s.dev) c).isNone = true ∨ paramBytes < off + n then stBadArg
        else if (s.dev.cam.pend.get none c).isSome = true then stBusy else stOk) [.regs, .usb, .cam]
      (fun e => (n ≠ 0 → Announced h (.isp c off) n s.dev e) ∧ (n = 0 → e.usb = { s.dev.usb with tags := e.usb.tags }) ∧
        e.cam = { s.dev.cam with pend := e.cam.pend } ∧
        e.cam.pend.get none c = some (tagKey s.dev h.tag, if n = 0 then some (ctxParams s.dev c) else none) ∧
        flag e (cxParamPend c) = true ∧ RegsBut [(cxParamPend c).addr] s.dev e) := by
  obtain ⟨htame, hcam, hpend, hflag⟩ := paramsPending_shows c (tagKey s.dev h.tag) (if n = 0 then some (ctxParams s.dev c) else none) (addTag s.dev h 1 false)
  have husb := htame.only .usb (by decide)
  rw [ite_or]
  refine does_takes (e := if n = 0 then paramsPending c (tagKey s.dev h.tag) (some (ctxParams s.dev c)) (addTag s.dev h 1 false)
      else announce (tagKey s.dev h.tag) (.isp c off) n (paramsPending c (tagKey s.dev h.tag) none (addTag s.dev h 1 false)))
    rfl hr (decide_eq_true hlen) (refuses Iff.rfl (by decide) (refuses Iff.rfl (by decide) (refuses ?_ (by decide)
      (refuses Iff.rfl (by decide) goesOn)))) (fun _ => ?_) (by decide) fun _ => ?_
  · simp; rfl
  all_goals by_cases hn : n = 0
  · rw [if_pos hn] at htame ⊢
    exact htame.only.mono (by decide)
  · rw [if_neg hn] at htame ⊢
    exact (htame.only.mono (by decide)).via (announce_only _ _ _ _) (by decide)
  · simp only [if_pos hn] at *
    exact ⟨(absurd hn ·), fun _ => by rw [husb]; rfl, hcam, hpend, hflag, htame.regs⟩
  · simp only [if_neg hn] at *
    refine ⟨fun _ => announced_of_usb (k := 1) ?_, (absurd · hn), hcam, hpend, hflag, htame.regs⟩
    rw [announce, husb]; rfl

/-! ### LAYER_WRITE -/

/-- The bytes of an object of layer `l` are announced. -/
def layerAnnounced (key l b off n : Nat) (d : Dev) : Dev :=
  { d with usb := { d.usb with xfers := d.usb.xfers ++ [⟨key, .layer l b off, n, 0, [], d.devTime.toNat, false⟩] } }

theorem takes_layerWrite {h : Hdr} {l b off n : Nat} {s : State} (hr : Ready s.dev h 1 0x10) (hlen : h.length = 16) :
    Takes (.layerWrite h l b off n) s h
      (if fenced s.dev 0x3A = true then stFenced
        else if 8 ≤ l ∨ fld s.dev (cnpOwner l) ≠ 4 ∨ 3 ≤ b ∨ flag s.dev (cnpBufValid l b) = false ∨ bufBytes s.dev l b < off + n then stBadArg
        else if (flag s.dev (cnpStateEn l) = true ∧ fld s.dev (cnpStateBuf l) = b) ∨
          s.dev.cnp.groups.any (fun g => g.snap.any (fun e => e.1 == l && (layerSt e.2).buf == b)) = true then stBusy else stOk)
      [.regs, .usb, .root, .ras]
      (fun e => (n = 0 → Queued [answer h stOk []] s.dev e) ∧
        (n ≠ 0 → e.usb.xfers = s.dev.usb.xfers ++ [⟨tagKey s.dev h.tag, .layer l b off, n, 0, [],
          s.dev.devTime.toNat, false⟩] ∧ Queued [] s.dev e) ∧
        (fld s.dev prState = 0 → Only [.usb] s.dev e) ∧ (fld s.dev prState = 2 → fld e prState = 3)) := by
  obtain ⟨htame, hkept, hexit⟩ := replayExit_shows 2 (addTag s.dev h 1 false)
  have hidle (h0 : fld s.dev prState = 0) : replayExit 2 (addTag s.dev h 1 false) = addTag s.dev h 1 false := replayExit_idle (d := addTag s.dev h 1 false) h0 2
  refine does_takes (e := if n = 0 then complete (replayExit 2 (addTag s.dev h 1 false)) (tagKey s.dev h.tag) stOk []
      else layerAnnounced (tagKey s.dev h.tag) l b off n (replayExit 2 (addTag s.dev h 1 false)))
    rfl hr (decide_eq_true hlen) (refuses Iff.rfl (by decide) (refuses ?_ (by decide) (refuses ?_ (by decide) goesOn))) (fun _ => ?_) (by decide) fun _ => ?_
  · simp [or_assoc]; rfl
  · simp; rfl
  all_goals by_cases hn : n = 0
  · rw [if_pos hn]
    exact htame.only.via (complete_within ..).only (by decide)
  · rw [if_neg hn]
    exact htame.only.via (within_usb ..).only (by decide)
  · rw [if_pos hn]
    refine ⟨fun _ => hkept.queues stOk [] hr, (absurd hn ·), fun h0 => ?_, fun h2 => (fld_complete _ _ _ _ _).trans (hexit h2)⟩
    rw [hidle h0]
    exact (addTag_only _ _ _ _).trans (complete_within ..).only
  · rw [if_neg hn]
    refine ⟨(absurd · hn), fun _ => ⟨?_, ?_⟩, fun h0 => ?_, hexit⟩
    · rw [layerAnnounced, htame.only .devTime (by decide), hkept.xfers]; rfl
    · exact hkept.ep1in.trans (List.append_nil _).symm
    · rw [hidle h0]
      exact (addTag_only _ _ _ _).trans (within_usb ..).only

/-! ### FW_UPDATE in recovery -/

theorem fwUpdate_inRecovery {h : Hdr} {n : Nat} {s : State} (halive : alive s.dev = true) (hlink : linkUpHost s.dev = true)
    (htags : s.dev.usb.tags = []) (hst : s.dev.usb.starting = none) (hz : h.zerosOk = true) (ha : h.addr = 0)
    (hep : h.endpoint = 1) (hlen : h.length = 8) (hf : fenced s.dev 3 = false) (hlo : 352 ≤ n) (hhi : n ≤ 4194592) (hx : s.dev.usb.xfers = []) :
    Does (.fwUpdate h n) s [.regs, .usb, .root] (Announced h .firmware n s.dev) := by
  obtain ⟨honly, hann, -⟩ := fwUpdate_shows h n 1 (updateSlot s.nv (addTag s.dev h 1 false)) s.dev
  have hreq : request (.fwUpdate h n) h 1 0x10 (decide (h.length = 8)) (unlessFenced 3 (fwUpdateOp s.nv n)) s.dev =
      unlessFenced 3 (fwUpdateOp s.nv n) (tagKey s.dev h.tag) (addTag s.dev h 1 false) := by
    unfold request
    simp [hlink, hst, htags, hlen, hz, addrOk, ha, servedNow, hep, mustWait]
  have hop : unlessFenced 3 (fwUpdateOp s.nv n) (tagKey s.dev h.tag) (addTag s.dev h 1 false) =
      progStart (announce (tagKey s.dev h.tag) .firmware n (addTag s.dev h 1 false)) 6 (updateSlot s.nv (addTag s.dev h 1 false)) (2 * n) := by
    refine (if_neg (ne_true_of_eq_false hf)).trans ((if_neg ?_).trans (if_neg ?_))
    · simp; omega
    · simp [addTag, hx]
  refine does_onDev _ rfl halive ?_ ?_ <;> rw [hreq, hop]
  · exact (Only.mono (addTag_only _ _ _ _) (by decide)).trans honly
  · exact hann

/-- Settles O38. -/
theorem transfersAreAnnounced : Obligations.TransfersAreAnnounced := by
  unfold Obligations.TransfersAreAnnounced
  exact ⟨fun h n s hr hlen => ⟨takes_graftLoad hr hlen, takes_seedStage hr hlen, takes_fwUpdate hr hlen, takes_intControl hr hlen,
      does_barkCommand hr hlen⟩,
    fun h op slot n s hr hlen => takes_restore hr hlen, fun h c off n s hr hlen => takes_ispParams hr hlen,
    fun h l b off n s hr hlen => takes_layerWrite hr hlen,
    fun h n s halive hlink _ htags hst hz ha hep hlen hf hlo hhi hx => fwUpdate_inRecovery halive hlink htags hst hz ha hep hlen hf hlo hhi hx⟩

end Sys2Proof.Machine
end

section
/-! PROOF. Operations that tell only events: the closing and opening of frames, the camera reports and the release of a space (R240 to R246,
R260 to R265, R290, R410). -/

namespace Sys2Proof.Machine

/-- Of the Root controller only the last event, and of the host side only the queue of events, differ. -/
structure Told (d e : Dev) : Prop where
  root : e.root = { d.root with lastEv := e.root.lastEv }
  usb : e.usb = { d.usb with evq := e.usb.evq, evDrop := e.usb.evDrop, evSince := e.usb.evSince }

theorem Told.refl (d : Dev) : Told d d := ⟨rfl, rfl⟩

theorem Told.of_eq {d e : Dev} (hr : e.root = d.root) (hu : e.usb = d.usb) : Told d e := ⟨by rw [hr], by rw [hu]⟩

theorem Told.trans {d e f : Dev} (h : Told d e) (g : Told e f) : Told d f := ⟨by rw [g.root, h.root], by rw [g.usb, h.usb]⟩

/-- A step that leaves the Root controller and the host side alone. -/
theorem Told.within {l : List Part} {d e f : Dev} (h : Told d e) (g : Within l e f) (hl : partsIn [.root, .usb] l = false ∧ Part.root ∉ l ∧ Part.usb ∉ l) :
    Told d f := h.trans (.of_eq (g.only .root hl.2.1) (g.only .usb hl.2.2))

theorem Told.raise {d e : Dev} (h : Told d e) (code unit sev arg : Nat) : Told d (Sys2Proof.Machine.raise e code unit sev arg) :=
  h.trans ⟨by rw [raise_root], raise_usb ..⟩

theorem Told.ite {d e f : Dev} {c : Prop} [Decidable c] (h : Told d e) (g : Told d f) : Told d (if c then e else f) := by
  split
  · exact h
  · exact g

theorem Told.foldl {α : Type} {d e : Dev} {f : Dev → α → Dev} {xs : List α} (h : Told d e) (hf : ∀ x a, Told x (f x a)) :
    Told d (xs.foldl f e) := by
  induction xs generalizing e with
  | nil => exact h
  | cons a xs ih => exact ih (h.trans (hf e a))

theorem Told.space0 {d e : Dev} (h : Told d e) : e.root.space0 = d.root.space0 := by rw [h.root]

theorem Told.space1 {d e : Dev} (h : Told d e) : e.root.space1 = d.root.space1 := by rw [h.root]

theorem Told.img (h : Told d e) (out : Bool) : imgOf e out = imgOf d out := imgOf_of_spaces h.space0 h.space1 out

theorem Told.requests {d e : Dev} (h : Told d e) : RequestsKept d e := ⟨by rw [h.usb], by rw [h.usb], by rw [h.usb]⟩

/-! ## Camera ports -/

theorem retirePort_told (p kind : Nat) (rep : Bool) (d : Dev) : Told d (retirePort p kind rep d) := by
  unfold retirePort
  dsimp only
  have hret : Told d { d with flt := { d.flt with retired := (0x3D + p) :: d.flt.retired } } := .of_eq rfl rfl
  exact (((hret.within (setFld_within ..) (by decide)).within (setBktState_within ..) (by decide)).within (closePort_within ..) (by decide)).raise ..

theorem camReport_told (f : CamFrame) (d : Dev) : Told d (camReport f d) := by
  unfold camReport
  extract_lets p d₁ d₂
  have h₁ : Told d d₁ := .ite (.refl d) ((Told.refl d).raise ..)
  have h₂ : Told d d₂ := .ite ((h₁.within (bump_within ..) (by decide)).raise ..) h₁
  clear_value d₂
  have hcount := (Told.refl d₂).within (countError_within (188 + p) 9 0 d₂) (by decide)
  refine .ite h₂ ?_
  split
  · next d₃ rep heq => rw [heq] at hcount; exact (h₂.trans hcount).trans (retirePort_told _ _ _ _)
  · next d₃ heq => rw [heq] at hcount; exact h₂.trans hcount

/-- The release of the camera frames of the outgoing space. -/
theorem camRelease_told (d : Dev) : Told d (camRelease 1 d) := by
  unfold camRelease
  extract_lets gone d₁ rings _ d₂ _ _ d₃
  have h₁ : Told d d₁ := by
    refine .foldl (.refl d) fun x f => ?_
    dsimp only
    refine Told.within (.ite ?_ ?_) (removeCam_within ..) (by decide)
    · exact ((Told.refl x).within (ringInc_within ..) (by decide)).within (ringInc_within ..) (by decide)
    · exact ((((Told.refl x).within (ringInc_within ..) (by decide)).within (ringInc_within ..) (by decide)).within
        (setFld_within ..) (by decide)).trans (camReport_told _ _)
  clear_value d₁
  have h₃ : Told d d₃ := h₁.trans (.of_eq rfl rfl)
  exact .ite h₃ (h₃.within (ispStat_within ..) (by decide))

theorem releaseSpace_told (d : Dev) : Told d (releaseSpace 1 d) := by
  unfold releaseSpace
  extract_lets d₁ m d₂ _ d₃
  have h₂ : Told d d₂ := .foldl (camRelease_told d) fun x _ => (Told.refl x).within (freePage_within ..) (by decide)
  clear_value d₂
  exact h₂.trans (.of_eq rfl rfl)

/-! ## Frames -/

theorem auditRings_told (d : Dev) (b : Bytes) (p fn : Nat) : Told d (auditRings d b p fn) := by
  unfold auditRings
  refine .foldl (.refl d) fun x e => .ite (.refl x) ?_
  split
  · exact .refl x
  · next v _ =>
    refine .ite (.refl x) (Told.raise (Told.within (Told.ite ?_ ?_) (bump_within ..) (by decide)) ..)
    · exact (Told.refl x).within (setFrameBase_within ..) (by decide)
    · exact (Told.refl x).within (ringPut_within ..) (by decide)

theorem invalidate_told (d : Dev) (out : Bool) (t cause : Nat) : Told d (invalidate d out t cause) :=
  (((Told.refl d).within (clearCarried_within ..) (by decide)).within (ringPut_within ..) (by decide)).raise ..

theorem serveHist_told (d : Dev) : Told d (serveHist d) :=
  .foldl (.of_eq rfl rfl) fun x _ => invalidate_told x _ _ _

theorem requestHist_told (d : Dev) (t cause : Nat) : Told d (requestHist d t cause) := by
  unfold requestHist
  extract_lets cur
  refine Told.trans ?_ (serveHist_told _)
  exact .of_eq rfl rfl

theorem closeThese_told (l : List Frame) (d : Dev) : Told d (closeThese l d) :=
  Told.trans (.foldl ((Told.refl d).within (setFrames_within ..) (by decide)) fun x _ =>
    ((Told.refl x).within (setFld_within ..) (by decide)).trans (auditRings_told _ _ _ _)) (serveHist_told _)

theorem scaleEvents_told (d : Dev) (b : Bytes) (k : Nat) (t : TaskSt) : Told d (scaleEvents d b k t) :=
  .foldl (.refl d) fun x _ => .ite (.refl x) ((Told.refl x).raise ..)

theorem endTask_told (d : Dev) (k pfn : Nat) (out : Bool) (status flags : Nat) : Told d (endTask d k pfn out status flags) := by
  unfold endTask
  split
  · exact .refl d
  · next t _ =>
    refine .ite (.refl d) ?_
    extract_lets bad d₁ d₂ d₃ d₄ d₅ fl fl' run d₆ word _ d₇ d₈ d₉
    have h₁ : Told d d₁ := .ite ((Told.refl d).within (raiseSigs_within ..) (by decide)) (.refl d)
    have h₂ : Told d d₂ := .ite (h₁.within (histFail_within ..) (by decide)) h₁
    have h₃ : Told d d₃ := Told.trans (.ite (h₂.within (voidEntries_within ..) (by decide)) h₂) (scaleEvents_told _ _ _ _)
    clear_value d₃
    have h₄ : Told d d₄ := h₃.within (releaseRest_within ..) (by decide)
    clear_value d₄
    have h₅ : Told d d₅ := ((h₄.within (dropTask_within ..) (by decide)).within (unstage_within ..) (by decide)).within (finishRings_within ..) (by decide)
    clear_value d₅
    have h₆ : Told d d₆ := h₅.within (writeMem_within ..) (by decide)
    clear_value d₆
    have h₇ : Told d d₇ := h₆.trans (.of_eq rfl rfl)
    have h₈ : Told d d₈ := (h₇.within (dropStalls_within ..) (by decide)).within (mapTask_within ..) (by decide)
    clear_value d₈
    have h₉ : Told d d₉ := .ite (h₈.within (ringInc_within ..) (by decide)) h₈
    exact .ite (h₉.raise ..) h₉

theorem endFrame_told (d : Dev) (f : Frame) (status flags : Nat) : Told d (endFrame d f status flags) :=
  .foldl (.refl d) fun x _ => endTask_told x _ _ _ _ _

theorem openFrame_told (nv : NonVol) (p fn : Nat) (d : Dev) : Told d (openFrame nv p fn d) := by
  unfold openFrame
  extract_lets b d₁ d₂ d₃ tasks _ d₄ d₅ shed _ d₆ d₇
  have h₁ : Told d d₁ := by
    dsimp only [d₁]
    split
    · exact .refl d
    · next f _ =>
      refine Told.trans (.ite (.refl d) ?_) (closeThese_told _ _)
      exact ((endFrame_told d f _ _).within (bump_within ..) (by decide)).raise ..
  clear_value d₁
  have h₃ : Told d d₃ := ((h₁.within (openBases_within ..) (by decide)).within (ringInc_within ..) (by decide)).within (setFld_within ..) (by decide)
  clear_value d₃
  have h₄ : Told d d₄ := h₃.trans (.ite (.refl d₃) (.of_eq rfl rfl))
  have h₅ : Told d d₅ := h₄.within (setFrames_within ..) (by decide)
  clear_value d₅
  have hstem (m : Stems) : Told d { d₅ with stem := m } := h₅.trans (.of_eq rfl rfl)
  have h₆ : Told d d₆ := .ite ((hstem _).raise ..) (.ite (hstem _) h₅)
  clear_value d₆
  have h₇ : Told d d₇ := .foldl h₆ fun x _ => .ite (endTask_told ..) (.ite (endTask_told ..) (.ite (endTask_told ..) (.refl x)))
  clear_value d₇
  refine .ite (.refl d) ?_
  split
  · exact .ite (h₇.trans (closeThese_told _ _)) h₇
  · exact h₇

theorem openFrames_told (nv : NonVol) (l : List (Nat × Nat)) (d : Dev) : Told d (openFrames nv l d) :=
  Told.within (.foldl (.refl d) fun x _ => openFrame_told nv _ _ x) (latchWaits_within ..) (by decide)

end Sys2Proof.Machine
end

section
/-! PROOF. GRAFT_APPLY, GRAFT_UNLOAD, GRAFT_ABORT, the end of preparation and the release deadline (R286 to R295). -/

namespace Sys2Proof.Machine

/-! ## Facts of the operations used -/

theorem replayExit_told (cause : Nat) (d : Dev) : Told d (replayExit cause d) := by
  unfold replayExit
  extract_lets e
  have he : Told d e := .ite ((Told.refl d).within (setFld_within ..) (by decide)) (.refl d)
  clear_value e
  have hras (r : Raster) : Told d { e with ras := r } := he.trans (.of_eq rfl rfl)
  exact .ite (((hras _).within (setFld_within ..) (by decide)).raise ..) (.ite (((hras _).within (setFlds_within ..) (by decide)).raise ..) he)

theorem progSet_root (d : Dev) (k st a p t m : Nat) :
    (progSet d k st a p t m).root = { d.root with prog := d.root.prog.put (0, 0) k (p, t) } := by
  unfold progSet; extract_lets; rw [setReg_root, setReg_root]

theorem progStart_root (d : Dev) (k a t : Nat) : (progStart d k a t).root = { d.root with prog := (progStart d k a t).root.prog } := by
  rw [progStart, progSet_root]

theorem progAt_root (d : Dev) (k p : Nat) : (progAt d k p).root = { d.root with prog := (progAt d k p).root.prog } := by
  rw [progAt, progSet_root]

theorem progDone_root (d : Dev) (k : Nat) : (progDone d k).root = { d.root with prog := (progDone d k).root.prog } := by
  unfold progDone
  dsimp only
  rw [setReg_root, progSet_root]

theorem Told.apply {d e : Dev} (h : Told d e) : e.root.apply = d.root.apply := by rw [h.root]

theorem img1_of_space1 {d e : Dev} (h : e.root.space1 = d.root.space1) : img1 e = img1 d := by rw [img1, h]; rfl

/-! ## GRAFT_APPLY (R290) -/

/-- Space 1 while its `n` pages are prepared. -/
def preparing (n : Nat) (d : Dev) : Dev := progStart (setFld (replayExit 3 d) graftSpace1 4) 2 0 n

structure Preparing (d e : Dev) : Prop where
  only : Only [.regs, .usb, .root, .ras] d e
  requests : RequestsKept d e
  apply : e.root.apply = d.root.apply
  img : img1 e = img1 d
  space : fld e graftSpace1 = 4

theorem preparing_shows (n : Nat) (d : Dev) : Preparing d (preparing n d) := by
  obtain ⟨hexit, -, -⟩ := replayExit_shows 3 d
  have htold := replayExit_told 3 d
  unfold preparing
  generalize replayExit 3 d = x at *
  have hset := setFld_tame x graftSpace1 4
  have hfour : fld (setFld x graftSpace1 4) graftSpace1 = 4 := fld_setFld_same _ _ _ (by decide)
  have hsame : Told d (setFld x graftSpace1 4) := htold.within (setFld_within ..) (by decide)
  generalize setFld x graftSpace1 4 = y at *
  have hprog := progStart_root y 2 0 n
  have honly := (progStart_within y 2 0 n).only
  refine ⟨(hexit.only.via hset.only (by decide)).via honly (by decide), hsame.requests.trans (.of_only honly (by decide)), ?_, ?_, ?_⟩
  · rw [hprog]; exact hsame.apply
  · refine img1_of_space1 ?_
    rw [hprog]; exact hsame.space1
  · exact ((progStart_regsBut y 2 0 n).fld (by decide)).trans hfour

theorem prepPages_of_images {d e : Dev} (h0 : img0 e = img0 d) (h1 : img1 e = img1 d) : prepPages e = prepPages d := by
  unfold prepPages prepTensors
  rw [h0, h1]

/-- The layout of space 1 is fixed. -/
def laidOut (a : PendingApply) (sp : Nat × Nat) (e : Dev) : Dev :=
  { e with trk := { e.trk with spill1 := sp }, root := { e.root with apply := some a } }

theorem laidOut_only (a : PendingApply) (sp : Nat × Nat) (e : Dev) : Only [.root, .trk] e (laidOut a sp e) := (within_root_trk (h := by rfl) ..).only

/-- Space 1 once its pages are laid out. -/
def prepared (a : PendingApply) (sp : Nat × Nat) (n : Nat) (r : Dev) : Dev := laidOut a sp (progAt r 2 n)

theorem prepared_shows (a : PendingApply) (sp : Nat × Nat) (n : Nat) (r : Dev) : Only [.regs, .root, .trk] r (prepared a sp n r) ∧
    fld (prepared a sp n r) graftSpace1 = fld r graftSpace1 ∧ (prepared a sp n r).trk = { r.trk with spill1 := sp } ∧
    (prepared a sp n r).root.apply = some a := by
  have hat := (progAt_within r 2 n).only
  have hfld := (progAt_regsBut r 2 n).fld (x := graftSpace1) (by decide)
  have hlaid := laidOut_only a sp (progAt r 2 n)
  refine ⟨(hat.mono (by decide)).via hlaid (by decide), (fld_of_regs (hlaid .regs (by decide)) _).trans hfld, ?_, rfl⟩
  exact congrArg (fun t : Trunk => { t with spill1 := sp }) (hat .trk (by decide))

theorem graftApplyOp_prepares {k key : Nat} {earliest : Bool} {d m r : Dev} {sp : Nat × Nat} (h : fld d graftSpace1 = 3)
    (hm : progStart (setFld (replayExit 3 d) graftSpace1 4) 2 0 (prepPages (replayExit 3 d)) = m) (hr : prepAll m = some r)
    (hsp : placeSpill m (gSpill (img1 m) + seedExtra (img1 m) (nSeeds (img1 m))) = some sp) :
    graftApplyOp k earliest key d = prepared ⟨key, k, earliest, false, false⟩ sp (plainPages m) r := by
  rw [graftApplyOp, if_neg (by simp [h])]
  extract_lets x y
  have hy : y = m := hm
  clear_value y
  clear hm x
  subst hy
  rw [hr, hsp]
  rfl

theorem graftApplyOp_refuses {k key : Nat} {earliest : Bool} {d m : Dev} (h : fld d graftSpace1 = 3)
    (hm : progStart (setFld (replayExit 3 d) graftSpace1 4) 2 0 (prepPages (replayExit 3 d)) = m)
    (hnone : prepAll m = none ∨ placeSpill m (gSpill (img1 m) + seedExtra (img1 m) (nSeeds (img1 m))) = none) :
    graftApplyOp k earliest key d = progFail (complete (setFld m graftSpace1 3) key stNoResource []) 2 := by
  rw [graftApplyOp, if_neg (by simp [h])]
  extract_lets x y
  have hy : y = m := hm
  clear_value y
  clear hm x
  subst hy
  rcases hnone with hnone | hnone <;> rw [hnone]
  cases prepAll y <;> rfl

theorem does_graftApply {h : Hdr} {k : Word} {flags : Byte} {s : State} (hr : Ready s.dev h 1 0x10) (hlen : h.length = 9)
    (hf : flags.toNat ≤ 1) :
    (fld s.dev graftSpace1 ≠ 3 → Does (.graftApply h k flags) s [.usb] (Answered h stBusy [] s.dev)) ∧
    (∀ m, fld s.dev graftSpace1 = 3 → m = progStart (setFld (replayExit 3 (addTag s.dev h 1 false)) graftSpace1 4) 2 0 (prepPages s.dev) →
      (∀ r sp, prepAll m = some r → placeSpill m (gSpill (img1 s.dev) + seedExtra (img1 s.dev) (nSeeds (img1 s.dev))) = some sp →
        Does (.graftApply h k flags) s [.regs, .usb, .root, .trk, .ras] (fun e => fld e graftSpace1 = 4 ∧
          e.trk = { r.trk with spill1 := sp } ∧ Queued [] s.dev e ∧ e.root.apply =
            some { tag := tagKey s.dev h.tag, k := k.toNat, earliest := flags.toNat == 1, unload := false, ready := false })) ∧
      (prepAll m = none ∨ placeSpill m (gSpill (img1 s.dev) + seedExtra (img1 s.dev) (nSeeds (img1 s.dev))) = none →
        Does (.graftApply h k flags) s [.regs, .usb, .root, .ras] (fun e => fld e graftSpace1 = 3 ∧ e.root.apply = s.dev.root.apply ∧
          Queued [answer h stNoResource []] s.dev e))) := by
  refine ⟨fun h3 => does_answer rfl hr (decide_eq_true ⟨hlen, hf⟩) (if_pos h3), fun m h3 hm => ?_⟩
  have hprep := preparing_shows (prepPages s.dev) (addTag s.dev h 1 false)
  change m = preparing (prepPages s.dev) (addTag s.dev h 1 false) at hm
  rw [← hm] at hprep
  have hmade : progStart (setFld (replayExit 3 (addTag s.dev h 1 false)) graftSpace1 4) 2 0 (prepPages (replayExit 3 (addTag s.dev h 1 false))) = m := by
    have htold := replayExit_told 3 (addTag s.dev h 1 false)
    rw [prepPages_of_images (d := s.dev) (htold.img false) (htold.img true), hm, preparing]
  have hfrom : Only [.regs, .usb, .root, .ras] s.dev m := (Only.mono (addTag_only _ _ _ _) (by decide)).trans hprep.only
  rw [← show img1 m = img1 s.dev from hprep.img]
  clear hm
  refine ⟨fun r sp hr' hsp => ?_, fun hnone => ?_⟩
  · have hbit : (flags.toNat % 2 == 1) = (flags.toNat == 1) := by rw [Nat.mod_eq_of_lt (by omega)]
    have hlaid := (prepAll_within hr').only
    obtain ⟨honly, hfour, htrk, happly⟩ := prepared_shows ⟨tagKey s.dev h.tag, k.toNat, flags.toNat % 2 == 1, false, false⟩ sp (plainPages m) r
    rw [← hbit]
    refine does_request _ rfl hr (decide_eq_true ⟨hlen, hf⟩) (graftApplyOp_prepares h3 hmade hr' hsp) ?_ ⟨?_, htrk, ?_, happly⟩
    · exact ((hfrom.mono (by decide)).via hlaid (by decide)).via honly (by decide)
    · exact hfour.trans ((fld_of_regs (hlaid .regs (by decide)) _).trans hprep.space)
    · rw [Queued, List.append_nil, honly .usb (by decide), hlaid .usb (by decide)]
      exact hprep.requests.ep1in
  · have hop := graftApplyOp_refuses (k := k.toNat) (key := tagKey s.dev h.tag) (earliest := flags.toNat % 2 == 1) (d := addTag s.dev h 1 false)
      h3 hmade hnone
    have hset := setFld_tame m graftSpace1 3
    have hthree : fld (setFld m graftSpace1 3) graftSpace1 = 3 := fld_setFld_same _ _ _ (by decide)
    generalize setFld m graftSpace1 3 = y at *
    have hdone := (complete_within y (tagKey s.dev h.tag) stNoResource []).only
    have hfail := (progFail_within (complete y (tagKey s.dev h.tag) stNoResource []) 2).only
    refine does_request _ rfl hr (decide_eq_true ⟨hlen, hf⟩) hop ?_ ⟨?_, ?_, ?_⟩
    · exact ((hfrom.via hset.only (by decide)).via hdone (by decide)).via hfail (by decide)
    · rw [progFail, fld_setFld_other _ _ _ _ (by decide) (by decide), fld_complete, hthree]
    · rw [hfail .root (by decide), hdone .root (by decide), hset.only .root (by decide)]
      exact hprep.apply
    · rw [Queued, hfail .usb (by decide)]
      exact (hprep.requests.trans (.of_only hset.only (by decide))).queues _ _ hr

/-! ## GRAFT_UNLOAD and the end of preparation (R286, R290) -/

theorem applyFrame_of_regs {d e : Dev} (h : e.regs = d.regs) (k : Nat) (b : Bool) : applyFrame e k b = applyFrame d k b := by
  unfold applyFrame ofn
  rw [fld_of_regs h]

theorem applyFrame_replayExit (cause : Nat) (d : Dev) (k : Nat) (b : Bool) : applyFrame (replayExit cause d) k b = applyFrame d k b := by
  have : ofn (replayExit cause d) = ofn d := (replayExit_shows cause d).1.regs.fld (by decide)
  unfold applyFrame
  rw [this]

/-- An applied or unloaded Graft waits for its frame K. -/
def awaits (a : PendingApply) (d : Dev) : Dev := { d with root := { d.root with apply := some a } }

theorem takes_graftUnload {h : Hdr} {k : Word} {flags : Byte} {s : State} (hr : Ready s.dev h 1 0x10) (hlen : h.length = 9)
    (hf : flags.toNat ≤ 1) :
    Takes (.graftUnload h k flags) s h
      (if hasGraft s.dev = false then stBadArg else if fld s.dev graftSpace1 ≠ 0 ∨ s.dev.root.apply.isSome = true then stBusy else stOk)
      [.regs, .usb, .root, .ras] (fun e => Queued [] s.dev e ∧ (fld s.dev prState = 0 → Only [.usb, .root] s.dev e) ∧
        ∃ a, e.root.apply = some a ∧ a.tag = tagKey s.dev h.tag ∧ a.k = applyFrame s.dev k.toNat (flags.toNat == 1) ∧
          a.unload = true ∧ a.ready = true) := by
  obtain ⟨hexit, hkept, -⟩ := replayExit_shows 3 (addTag s.dev h 1 false)
  have hbit : (flags.toNat % 2 == 1) = (flags.toNat == 1) := by rw [Nat.mod_eq_of_lt (by omega)]
  have hk : applyFrame (replayExit 3 (addTag s.dev h 1 false)) k.toNat (flags.toNat == 1) = applyFrame s.dev k.toNat (flags.toNat == 1) :=
    (applyFrame_replayExit ..).trans (applyFrame_of_regs rfl ..)
  refine does_takes (e := awaits ⟨tagKey s.dev h.tag, applyFrame s.dev k.toNat (flags.toNat == 1), flags.toNat == 1, true, true⟩
    (replayExit 3 (addTag s.dev h 1 false))) rfl hr (decide_eq_true ⟨hlen, hf⟩) ?_ (fun _ => hexit.only.via (within_root ..).only (by decide))
    (by decide) fun _ => ⟨?_, fun h0 => ?_, _, rfl, rfl, rfl, rfl, rfl⟩
  · refine refuses ?_ (by decide) (refuses ?_ (by decide) ?_)
    · simp; rfl
    · rw [Bool.or_eq_true, decide_eq_true_iff]; rfl
    · rw [if_pos rfl, hbit]
      dsimp only
      rw [hk]
      rfl
  · rw [Queued, List.append_nil]
    exact hkept.ep1in
  · rw [replayExit_idle (d := addTag s.dev h 1 false) h0 3]
    exact (Only.mono (addTag_only _ _ _ _) (by decide)).via (within_root ..).only (by decide)

theorem does_preparationDone {a : PendingApply} {s : State} (halive : alive s.dev = true) (ha : s.dev.root.apply = some a) :
    (a.ready = false → Does .graftPreparationDone s [.regs, .root, .trk, .mem] (fun e =>
      e.root.apply = some { a with k := applyFrame s.dev a.k a.earliest, ready := true } ∧
      (nSeeds (img1 s.dev) = 0 → Only [.regs, .root] s.dev e ∧ RegsBut [progA 2, progB 2] s.dev e))) ∧
    (a.ready = true → Does .graftPreparationDone s [] (fun _ => True)) := by
  refine ⟨fun hr => ?_, fun hr => ?_⟩
  · have hop : prepDoneOp s.dev =
        progDone (awaits { a with k := applyFrame ((List.range (nSeeds (img1 s.dev))).foldl placeSeed s.dev) a.k a.earliest, ready := true }
          ((List.range (nSeeds (img1 s.dev))).foldl placeSeed s.dev)) 2 := by
      unfold prepDoneOp
      rw [ha]
      exact if_neg (by simp [hr])
    have hseeds : Within [.trk, .mem] s.dev ((List.range (nSeeds (img1 s.dev))).foldl placeSeed s.dev) :=
      .foldl (.refl _ _) fun x i => placeSeed_within x i
    have hnone : nSeeds (img1 s.dev) = 0 → (List.range (nSeeds (img1 s.dev))).foldl placeSeed s.dev = s.dev := fun h => by rw [h]; rfl
    generalize (List.range (nSeeds (img1 s.dev))).foldl placeSeed s.dev = e at *
    rw [applyFrame_of_regs (hseeds.only .regs (by decide))] at hop
    generalize applyFrame s.dev a.k a.earliest = k at *
    have haw : Only [.root] e (awaits { a with k, ready := true } e) := (within_root ..).only
    have hdone := (progDone_within (awaits { a with k, ready := true } e) 2).only
    refine does_onDev _ rfl halive (hop ▸ ((hseeds.only.mono (by decide)).via haw (by decide)).via hdone (by decide)) ?_
    rw [hop]
    refine ⟨by rw [progDone_root]; rfl, fun h0 => ?_⟩
    rw [hnone h0] at haw hdone ⊢
    exact ⟨(haw.mono (by decide)).trans hdone, RegsBut.trans (.of_only haw (by decide) _) (progDone_regsBut _ 2)⟩
  · have hop : prepDoneOp s.dev = s.dev := by
      unfold prepDoneOp
      rw [ha]
      exact if_pos hr
    exact does_onDev _ rfl halive (by rw [hop]; exact .refl _ _) trivial

/-! ## GRAFT_ABORT (R294) -/

/-- Space 1 given up. -/
def givenUp (d : Dev) : Dev := setFld (releaseSpace 1 { d with root := { d.root with space1 := none } }) graftSpace1 0

structure GivenUp (d e : Dev) : Prop where
  space1 : e.root.space1 = none
  state : fld e graftSpace1 = 0
  apply : e.root.apply = d.root.apply
  loadTag : e.root.loadTag = d.root.loadTag
  requests : RequestsKept d e

theorem givenUp_shows (d : Dev) : GivenUp d (givenUp d) := by
  have h : Told { d with root := { d.root with space1 := none } } (givenUp d) :=
    (releaseSpace_told _).within (setFld_within ..) (by decide)
  refine ⟨h.space1, ?_, h.apply, by rw [h.root], ⟨h.requests.tags, h.requests.xfers, h.requests.ep1in⟩⟩
  exact fld_setFld_same _ _ _ (by decide)

/-- With no camera frame in space 1 its release tells nothing. -/
theorem givenUp_quiet {d : Dev} (h : ∀ f, f ∈ d.cam.frames → f.out = false) : Only [.regs, .root, .trk] d (givenUp d) := by
  have hgone : d.cam.frames.filter (fun f => f.out == (1 == 1)) = [] := by
    rw [List.filter_eq_nil_iff]
    intro f hf
    rw [h f hf]; decide
  have hcam : Only [.trk] { d with root := { d.root with space1 := none } } (camRelease 1 { d with root := { d.root with space1 := none } }) := by
    unfold camRelease
    dsimp only
    rw [hgone]
    exact (within_trk (h := by rfl) ..).only
  have hroot : Only [.root] d { d with root := { d.root with space1 := none } } := (within_root ..).only
  unfold givenUp releaseSpace
  generalize ({ d with root := { d.root with space1 := none } } : Dev) = e at *
  generalize camRelease 1 e = x at *
  extract_lets w m y _ z
  have hy : Within [.regs, .trk] x y := .foldl (.refl _ _) fun v e => freePage_within v 1 e.1
  clear_value y
  have hz : Only [.trk] y z := (within_trk (h := by rfl) ..).only
  clear_value z
  rw [if_neg (by decide)]
  exact ((((hroot.mono (by decide)).via hcam (by decide)).via hy.only (by decide)).via hz (by decide)).trans
    ((Only.mono (within_trk (h := by rfl) ..).only (by decide)).via (setFld_within ..).only (by decide))

/-- The load under way is answered BUSY. -/
def loadDropped (d : Dev) : Dev :=
  match d.root.loadTag with
  | some t => progFail (complete { d with root := { d.root with loadTag := none } } t stBusy []) 1
  | none => d

/-- The application that waits is answered BUSY. -/
def applyDropped (d : Dev) : Dev :=
  match d.root.apply with
  | some a => if a.unload then d else progFail (complete { d with root := { d.root with apply := none } } a.tag stBusy []) 2
  | none => d

theorem graftAbortOp_goes {d : Dev} (h : fld d graftSpace1 ≠ 5) (key : Nat) :
    graftAbortOp key d = complete (givenUp (applyDropped (loadDropped d))) key stOk [] := if_neg h

theorem loadDropped_none {d : Dev} (h : d.root.loadTag = none) : loadDropped d = d := by rw [loadDropped, h]

theorem loadDropped_some {d : Dev} {t : Nat} (h : d.root.loadTag = some t) :
    loadDropped d = progFail (complete { d with root := { d.root with loadTag := none } } t stBusy []) 1 := by rw [loadDropped, h]

theorem applyDropped_none {d : Dev} (h : ∀ a, d.root.apply = some a → a.unload = true) : applyDropped d = d := by
  unfold applyDropped
  split
  · next a ha => exact if_pos (h a ha)
  · rfl

theorem applyDropped_some {d : Dev} {a : PendingApply} (h : d.root.apply = some a) (hu : a.unload = false) :
    applyDropped d = progFail (complete { d with root := { d.root with apply := none } } a.tag stBusy []) 2 := by
  rw [applyDropped, h]
  exact if_neg (by simp [hu])

theorem tag_ne {d : Dev} {h : Hdr} {kind type t : Nat} {r : TagRec} (hr : Ready d h kind type)
    (hf : d.usb.tags.find? (fun x => x.tag == t && !x.done) = some r) : t ≠ tagKey d h.tag := by
  intro he
  rw [he, ready_tag_free hr] at hf
  exact absurd hf (by simp)

/-- A request of an older tag is completed before that of `h`. -/
theorem complete_older {d x e : Dev} {h : Hdr} {kind type k t st st' : Nat} {r : TagRec} (hr : Ready d h kind type)
    (hf : d.usb.tags.find? (fun x => x.tag == t && !x.done) = some r) (hx : x.usb = (addTag d h k false).usb)
    (he : RequestsKept (complete x t st []) e) :
    Queued [{ tag := t % 65536, addr := r.addr, status := st, payload := [] }, answer h st' []] d (complete e (tagKey d h.tag) st' []) := by
  have hne := tag_ne hr hf
  have hold : x.usb.tags.find? (fun x => x.tag == t && !x.done) = some r := by
    rw [hx, addTag, List.find?_append, hf]; rfl
  have hmine := find_addTag k hr
  rw [← hx] at hmine
  have hdone : (complete x t st []).usb.tags = x.usb.tags.map (fun r => if r.tag == t then { r with done := true } else r) := by
    rw [complete_found st [] hold]
  have hfind : e.usb.tags.find? (fun x => x.tag == tagKey d h.tag && !x.done) =
      some { tag := tagKey d h.tag, kind := k, addr := h.addr.toNat, done := false, waiting := false } := by
    rw [he.tags, hdone, List.find?_map, List.find?_congr (p₂ := fun x => x.tag == tagKey d h.tag && !x.done), hmine]
    · simp [hne.symm]
    · intro y _
      by_cases hy : y.tag = t
      · simp [hy, hne]
      · simp [hy]
  rw [Queued, complete_ep1in st' [] hfind, he.ep1in, complete_ep1in st [] hold, hx, tagKey_mod]
  simp [addTag, answer]

/-- What was pending of space 1 is given up too. -/
theorem graftAbort_pending {h : Hdr} {s : State} {x y : Dev} {t n : Nat} {r : TagRec} (hr : Ready s.dev h 1 0x10) (hlen : h.length = 4)
    (hf : s.dev.usb.tags.find? (fun x => x.tag == t && !x.done) = some r) (hx : x.usb = (addTag s.dev h 1 false).usb)
    (hy : y = progFail (complete x t stBusy []) n) (hload : x.root.loadTag = none) (happly : x.root.apply = none)
    (hop : graftAbortOp (tagKey s.dev h.tag) (addTag s.dev h 1 false) = complete (givenUp y) (tagKey s.dev h.tag) stOk []) :
    Does (.graftAbort h) s (touches (.graftAbort h)) (fun e => e.root.space1 = none ∧ fld e graftSpace1 = 0 ∧
      e.root.loadTag = none ∧ e.root.apply = none ∧
      Queued [{ tag := t % 65536, addr := r.addr, status := stBusy, payload := [] }, answer h stOk []] s.dev e) := by
  have honly := (graftAbortOp_within (tagKey s.dev h.tag) (addTag s.dev h 1 false)).only
  have hgiven := givenUp_shows y
  have hroot : y.root = x.root := by
    rw [hy, (progFail_within ..).only .root (by decide), (complete_within ..).only .root (by decide)]
  have hend := (complete_within (givenUp y) (tagKey s.dev h.tag) stOk []).only .root (by decide)
  refine does_request _ rfl hr (decide_eq_true hlen) hop ?_ ⟨?_, ?_, ?_, ?_, ?_⟩
  · rw [hop] at honly
    exact (Only.mono (addTag_only _ _ _ _) rfl).trans honly
  · rw [hend]; exact hgiven.space1
  · rw [fld_complete]; exact hgiven.state
  · rw [hend, hgiven.loadTag, hroot]; exact hload
  · rw [hend, hgiven.apply, hroot]; exact happly
  · refine complete_older hr hf hx (RequestsKept.trans ?_ hgiven.requests)
    rw [hy]
    exact .of_only (progFail_within ..).only (by decide)

theorem does_graftAbort {h : Hdr} {s : State} (hr : Ready s.dev h 1 0x10) (hlen : h.length = 4) :
    (fld s.dev graftSpace1 = 5 → Does (.graftAbort h) s [.usb] (Answered h stBusy [] s.dev)) ∧
    (fld s.dev graftSpace1 ≠ 5 → s.dev.root.loadTag = none → (∀ a, s.dev.root.apply = some a → a.unload = true) →
      Does (.graftAbort h) s (touches (.graftAbort h)) (fun e => e.root.space1 = none ∧ fld e graftSpace1 = 0 ∧
        e.root.apply = s.dev.root.apply ∧ Queued [answer h stOk []] s.dev e ∧ ((∀ f, f ∈ s.dev.cam.frames → f.out = false) →
          Answered h stOk [] s.dev e ∧ Only [.regs, .usb, .ring, .root, .trk, .cam] s.dev e))) ∧
    (∀ t r, fld s.dev graftSpace1 ≠ 5 → s.dev.usb.tags.find? (fun x => x.tag == t && !x.done) = some r →
      (s.dev.root.loadTag = some t ∧ s.dev.root.apply = none) ∨
        (s.dev.root.loadTag = none ∧ ∃ a, s.dev.root.apply = some a ∧ a.unload = false ∧ a.tag = t) →
      Does (.graftAbort h) s (touches (.graftAbort h)) (fun e => e.root.space1 = none ∧ fld e graftSpace1 = 0 ∧
        e.root.loadTag = none ∧ e.root.apply = none ∧
        Queued [{ tag := t % 65536, addr := r.addr, status := stBusy, payload := [] }, answer h stOk []] s.dev e)) := by
  refine ⟨fun h5 => does_answer rfl hr (decide_eq_true hlen) (if_pos h5), fun h5 hload hunload => ?_, fun t r h5 hf hpend => ?_⟩
  · have hop : graftAbortOp (tagKey s.dev h.tag) (addTag s.dev h 1 false) =
        complete (givenUp (addTag s.dev h 1 false)) (tagKey s.dev h.tag) stOk [] := by
      rw [graftAbortOp_goes (d := addTag s.dev h 1 false) h5, loadDropped_none (d := addTag s.dev h 1 false) hload,
        applyDropped_none (d := addTag s.dev h 1 false) hunload]
    have honly := (graftAbortOp_within (tagKey s.dev h.tag) (addTag s.dev h 1 false)).only
    rw [hop] at honly
    have hgiven := givenUp_shows (addTag s.dev h 1 false)
    have hend := (complete_within (givenUp (addTag s.dev h 1 false)) (tagKey s.dev h.tag) stOk []).only .root (by decide)
    refine does_request _ rfl hr (decide_eq_true hlen) hop ((Only.mono (addTag_only _ _ _ _) rfl).trans honly)
      ⟨by rw [hend]; exact hgiven.space1, by rw [fld_complete]; exact hgiven.state, by rw [hend]; exact hgiven.apply,
        hgiven.requests.queues stOk [] hr, fun hout => ?_⟩
    have hquiet := givenUp_quiet (d := addTag s.dev h 1 false) hout
    exact ⟨complete_answers stOk [] hr (hquiet .usb (by decide)), only_addTag_complete (by decide) (hquiet.mono (by decide))⟩
  · rcases hpend with ⟨hload, happly⟩ | ⟨hload, a, happly, hun, rfl⟩
    · refine graftAbort_pending (x := { addTag s.dev h 1 false with root := { s.dev.root with loadTag := none } }) (n := 1)
        hr hlen hf rfl rfl rfl happly ?_
      rw [graftAbortOp_goes (d := addTag s.dev h 1 false) h5, loadDropped_some (d := addTag s.dev h 1 false) hload, applyDropped_none]
      · rfl
      · intro a ha
        rw [(progFail_within ..).only .root (by decide), (complete_within ..).only .root (by decide)] at ha
        exact absurd (ha.symm.trans happly) (by simp)
    · refine graftAbort_pending (x := { addTag s.dev h 1 false with root := { s.dev.root with apply := none } }) (n := 2)
        hr hlen hf rfl rfl hload rfl ?_
      rw [graftAbortOp_goes (d := addTag s.dev h 1 false) h5, loadDropped_none (d := addTag s.dev h 1 false) hload,
        applyDropped_some (d := addTag s.dev h 1 false) happly hun]
      rfl

/-! ## The release deadline (R295) -/

theorem releaseOutgoing_space1 (n : Nat) (d : Dev) : (releaseOutgoing n d).root.space1 = none := by
  unfold releaseOutgoing
  extract_lets b x _ y
  rw [raise_root]
  have h : (endGraftWaits b (dropOldPacks (setFld y graftSpace1 0))).root = (dropOldPacks (setFld y graftSpace1 0)).root :=
    (endGraftWaits_within ..).only .root (by decide)
  have hpacks : (dropOldPacks (setFld y graftSpace1 0)).root.space1 = (setFld y graftSpace1 0).root.space1 := by
    rw [dropOldPacks, setFld_root]
  rw [h, hpacks, setFld_root]

theorem releaseIfDone_space1 {d : Dev} (h : d.root.space1 = none) : (releaseIfDone d).root.space1 = none := by
  unfold releaseIfDone
  split
  · exact releaseOutgoing_space1 0 d
  · exact h

theorem closeFrames_space1 {nv : NonVol} {d : Dev} (h : d.root.space1 = none) : (closeFrames nv d).root.space1 = none := by
  refine releaseIfDone_space1 ?_
  rw [((closeThese_told _ d).trans (openFrames_told nv _ _)).space1, h]

/-- Settles O39. -/
theorem graftIsPreparedAndReleased : Obligations.GraftIsPreparedAndReleased := by
  unfold Obligations.GraftIsPreparedAndReleased
  refine ⟨fun h k flags s hr hlen hf => ?_, fun a s halive ha => does_preparationDone halive ha, fun h s hr hlen => does_graftAbort hr hlen,
    fun s halive => ⟨fun h5 hage => ?_, fun hnot => ?_⟩⟩
  · obtain ⟨h1, h2⟩ := does_graftApply (k := k) hr hlen hf
    exact ⟨h1, h2, takes_graftUnload hr hlen hf⟩
  · have hop : releaseDeadlineOp s.nv s.dev = closeFrames s.nv _ := if_neg (by simp [h5]; omega)
    refine does_onDev _ rfl halive (releaseDeadlineOp_within ..).only ?_
    rw [hop]
    exact closeFrames_space1 (releaseOutgoing_space1 _ _)
  · have hop : releaseDeadlineOp s.nv s.dev = s.dev := if_pos (by simpa using hnot)
    exact does_onDev _ rfl halive (by rw [hop]; exact .refl _ _) trivial

end Sys2Proof.Machine
end

section
/-! PROOF. Writes to a resident page, and the host's requests on the Graft, the layers and its data (R59, R81, R282, R329, R338, R339, R434). -/

namespace Sys2Proof.Machine

/-! ## A write to a resident page (R81) -/

theorem cancelEvict_resident {d : Dev} {sp v : Nat} (h : (pageAt d sp v).loc = 1) : cancelEvict d sp v = d := by
  unfold cancelEvict
  simp [h]

/-- The lines of the page around a write of `n` bytes at offset `o`; lines not yet written read zero. -/
def linesAround (d : Dev) (p : Page) (o n : Nat) : Bytes :=
  maskedBytes p.mask (o / 64 * 64) (readMem d (lpnAddr p.lpn (o / 64 * 64)) ((o + n - 1) / 64 * 64 + 64 - o / 64 * 64))

theorem length_linesAround (d : Dev) (p : Page) (o n : Nat) : (linesAround d p o n).length = (o + n - 1) / 64 * 64 + 64 - o / 64 * 64 := by
  rw [linesAround, maskedBytes, List.length_mapIdx, length_readMem]

theorem writePart_resident {d : Dev} {w : Who} {v o : Nat} {bs : Bytes} (hloc : (pageAt d w.sp v).loc = 1)
    (hgood : fenced d (0x20 + (pageAt d w.sp v).lpn / 512) = false) (hn : bs ≠ []) :
    (writePart d w v o bs).2 = true ∧ (writePart d w v o bs).1.mem =
      (writeMem (writeMem d (lpnAddr (pageAt d w.sp v).lpn (o / 64 * 64)) (linesAround d (pageAt d w.sp v) o bs.length))
        (lpnAddr (pageAt d w.sp v).lpn o) bs).mem := by
  have hlen : ¬ bs.length = 0 := by simpa using hn
  unfold writePart
  rw [cancelEvict_resident hloc]
  dsimp only
  rw [if_neg hlen, if_neg (by omega), if_pos hloc, hgood]
  refine ⟨rfl, ?_⟩
  dsimp only
  rw [(setPage_within ..).only .mem (by decide), (stallEnd_within ..).only .mem (by decide)]
  rfl

/-- A write that fits one resident page. -/
theorem vwrite_resident {d : Dev} {w : Who} {a v o : Nat} {bs : Bytes} (hp : partsOf a bs.length = [(v, o, bs.length)])
    (hloc : (pageAt d w.sp v).loc = 1) (hgood : fenced d (0x20 + (pageAt d w.sp v).lpn / 512) = false) (hn : bs ≠ []) :
    (vwrite d w a bs).2 = true ∧ (vwrite d w a bs).1.mem =
      (writeMem (writeMem d (lpnAddr (pageAt d w.sp v).lpn (o / 64 * 64)) (linesAround d (pageAt d w.sp v) o bs.length))
        (lpnAddr (pageAt d w.sp v).lpn o) bs).mem := by
  have h := writePart_resident (o := o) hloc hgood hn
  unfold vwrite
  simp only [hp, List.foldl_cons, List.foldl_nil, if_true, List.take_length]
  exact h

/-- Whole lines written to a resident page: the bytes stand in place and every other byte stands. -/
theorem vwrite_lines {d : Dev} {w : Who} {a v o : Nat} {bs : Bytes} (hp : partsOf a bs.length = [(v, o, bs.length)])
    (hloc : (pageAt d w.sp v).loc = 1) (hgood : fenced d (0x20 + (pageAt d w.sp v).lpn / 512) = false) (hn : bs ≠ [])
    (ho : o % 64 = 0) (hb : bs.length % 64 = 0) :
    readMem (vwrite d w a bs).1 (lpnAddr (pageAt d w.sp v).lpn o) bs.length = bs ∧
    ∀ j, j < lpnAddr (pageAt d w.sp v).lpn o ∨ lpnAddr (pageAt d w.sp v).lpn o + bs.length ≤ j →
      readMem (vwrite d w a bs).1 j 1 = readMem d j 1 := by
  have hlen : 0 < bs.length := List.length_pos_iff.mpr hn
  obtain ⟨hbytes, houtside⟩ := readMem_written (vwrite_resident hp hloc hgood hn).2 rfl
  refine ⟨hbytes, fun j hj => (houtside j hj).trans (writeMem_outside _ _ _ ?_)⟩
  rw [length_linesAround, show o / 64 * 64 = o by omega]
  omega

/-! ## READMIT and SEED_DROP -/

theorem takes_readmit {h : Hdr} {p : Nat} {s : State} (hr : Ready s.dev h 1 0x10) (hlen : h.length = 5) :
    Takes (.readmit h p) s h (if 4 ≤ p ∨ fld s.dev (admitState p) ≠ 3 then stBadArg else stOk) [.usb, .root]
      (fun e => e.usb = (addTag s.dev h 1 false).usb ∧ e.root = { s.dev.root with readmits := s.dev.root.readmits ++ [⟨tagKey s.dev h.tag, p⟩] }) := by
  refine does_takes rfl hr (decide_eq_true hlen) (refuses ?_ (by decide) goesOn) (fun _ => Only.mono (within_root ..).only (by decide)) (by decide)
    fun _ => ⟨rfl, rfl⟩
  rw [Bool.or_eq_true, decide_eq_true_iff, decide_eq_true_iff]; rfl

theorem takes_seedDrop {h : Hdr} {hash : Bytes} {s : State} (hr : Ready s.dev h 1 0x10) (hlen : h.length = 52) (hh : hash.length = 48) :
    Takes (.seedDrop h hash) s h
      (if s.dev.root.packs.any (fun p => p.hash == hash) = false then stBadArg else if packHeld s.dev hash = true then stBusy else stOk)
      [.regs, .usb, .root] (fun e => Answered h stOk [] s.dev e ∧ RegsBut [seedCount.addr] s.dev e ∧
        e.root = { s.dev.root with packs := s.dev.root.packs.filter (fun p => p.hash != hash) } ∧
        fld e seedCount = e.root.packs.length % 128) := by
  have hpacks : Only [.root] (addTag s.dev h 1 false)
      { addTag s.dev h 1 false with root := { s.dev.root with packs := s.dev.root.packs.filter (fun p => p.hash != hash) } } := (within_root ..).only
  generalize hx : ({ addTag s.dev h 1 false with root := { s.dev.root with packs := s.dev.root.packs.filter (fun p => p.hash != hash) } } : Dev) = x at hpacks
  have hroot : x.root = { s.dev.root with packs := s.dev.root.packs.filter (fun p => p.hash != hash) } := by rw [← hx]
  have hset := setFld_tame x seedCount (s.dev.root.packs.filter (fun p => p.hash != hash)).length
  have hsame : (setFld x seedCount (s.dev.root.packs.filter (fun p => p.hash != hash)).length).root = x.root := setFld_root ..
  have hcount := fld_setFld_same x seedCount (s.dev.root.packs.filter (fun p => p.hash != hash)).length (by decide)
  refine does_takes (e := complete (setFld x seedCount (s.dev.root.packs.filter (fun p => p.hash != hash)).length) (tagKey s.dev h.tag) stOk [])
    rfl hr (decide_eq_true ⟨hlen, hh⟩) (refuses ?_ (by decide) (refuses Iff.rfl (by decide) ?_)) (fun _ => ?_) (by decide) fun _ => ?_
  · simp
  · rw [if_pos rfl, ← hx]; rfl
  · exact ((hpacks.mono (by decide)).via hset.only (by decide)).via (complete_within ..).only (by decide)
  · generalize setFld x seedCount (s.dev.root.packs.filter (fun p => p.hash != hash)).length = y at *
    have hend := (complete_within y (tagKey s.dev h.tag) stOk []).only .root (by decide)
    refine ⟨complete_answers (k := 1) stOk [] hr ?_, ?_, ?_, ?_⟩
    · rw [hset.only .usb (by decide), hpacks .usb (by decide)]
    · exact ((RegsBut.of_only hpacks (by decide) _).trans hset.regs).trans (complete_regsBut _ _ _ _ _)
    · rw [hend, hsame, hroot]
    · rw [fld_complete, hend, hsame, hroot, hcount]; rfl

/-! ## LAYER_FLIP (R329) -/

/-- The registers of the flip groups. -/
abbrev flipRegs : List Nat := flipPending.addr :: (List.range 8).map (fun l => (cnpStatePend l).addr)

theorem flipCounts_tame (d : Dev) : Tame [.regs] flipRegs d (flipCounts d) := by
  unfold flipCounts
  refine ((setFld_tame _ _ _).mono (by decide) (by decide)).trans (.foldl fun e l hl => (setFld_tame _ _ _).mono (by decide) ?_)
  have hmem : (cnpStatePend l).addr ∈ (List.range 8).map (fun l => (cnpStatePend l).addr) := List.mem_map_of_mem hl
  simp [hmem]

/-- A flip group joins those that wait. -/
def flipQueued (g : FlipGroup) (d : Dev) : Dev := replayExit 2 (flipCounts { d with cnp := { d.cnp with groups := d.cnp.groups ++ [g] } })

theorem flipQueued_shows (g : FlipGroup) (d : Dev) : Only [.regs, .usb, .root, .ras, .cnp] d (flipQueued g d) ∧
    RequestsKept d (flipQueued g d) ∧ (flipQueued g d).cnp = { d.cnp with groups := d.cnp.groups ++ [g] } ∧
    (fld d prState = 0 → Only [.regs, .cnp] d (flipQueued g d)) := by
  have hcnp : Only [.cnp] d { d with cnp := { d.cnp with groups := d.cnp.groups ++ [g] } } := (within_cnp ..).only
  have hg : ({ d with cnp := { d.cnp with groups := d.cnp.groups ++ [g] } } : Dev).cnp = { d.cnp with groups := d.cnp.groups ++ [g] } := rfl
  unfold flipQueued
  generalize ({ d with cnp := { d.cnp with groups := d.cnp.groups ++ [g] } } : Dev) = x at *
  have hcount := flipCounts_tame x
  have hst : fld (flipCounts x) prState = fld d prState :=
    (hcount.regs.fld (by decide)).trans (fld_of_regs (hcnp .regs (by decide)) _)
  generalize flipCounts x = y at *
  obtain ⟨hexit, hkept, -⟩ := replayExit_shows 2 y
  have hxy : Only [.regs, .cnp] d y := (hcnp.mono (by decide)).via hcount.only (by decide)
  refine ⟨(hxy.mono (by decide)).via hexit.only (by decide), (RequestsKept.of_only hxy (by decide)).trans hkept, ?_, fun h0 => ?_⟩
  · rw [hexit.only .cnp (by decide), hcount.only .cnp (by decide), hg]
  · rw [replayExit_idle (hst.trans h0) 2]
    exact hxy

/-- The group that LAYER_FLIP makes of the layers' shadow registers. -/
def flipGroup (key mask ring value timeout : Nat) (d : Dev) : FlipGroup where
  tag := key
  mask := mask
  ring := ring
  value := value
  timeout := timeout
  tries := 0
  stale := false
  snap := ((List.range 8).filter (fun l => mask.testBit l)).map (fun l => (l, layerShadow d l))

theorem takes_layerFlip {h : Hdr} {mask t : Byte} {ring : BitVec 16} {v : Word} {ls : List Nat} {s : State} (hr : Ready s.dev h 1 0x10)
    (hlen : h.length = 13) (hls : ls = (List.range 8).filter (fun l => mask.toNat.testBit l)) :
    Takes (.layerFlip h mask ring v t) s h
      (if fenced s.dev 0x3A = true then stFenced
        else if ls = [] ∨ (∃ l ∈ ls, fld s.dev (cnpOwner l) ≠ 4) ∨ fenceRingOk s.dev ring.toNat = false then stBadArg
        else if ∃ l ∈ ls, snapOk s.dev l (layerShadow s.dev l) = false then stBadArg
        else if 4 ≤ s.dev.cnp.groups.length then stBusy else stOk) [.regs, .usb, .root, .ras, .cnp]
      (fun e => Queued [] s.dev e ∧ (∃ g, e.cnp = { s.dev.cnp with groups := s.dev.cnp.groups ++ [g] } ∧
          g.tag = tagKey s.dev h.tag ∧ g.mask = mask.toNat ∧ g.ring = ring.toNat ∧ g.value = v.toNat ∧ g.timeout = t.toNat ∧ g.tries = 0 ∧
          g.snap = ls.map (fun l => (l, layerShadow s.dev l))) ∧ (fld s.dev prState = 0 → Only [.regs, .usb, .cnp] s.dev e)) := by
  subst hls
  generalize hg : flipGroup (tagKey s.dev h.tag) mask.toNat ring.toNat v.toNat t.toNat s.dev = g
  obtain ⟨honly, hkept, hcnp, hidle⟩ := flipQueued_shows g (addTag s.dev h 1 false)
  refine does_takes (e := flipQueued g (addTag s.dev h 1 false)) rfl hr (decide_eq_true hlen)
    (refuses Iff.rfl (by decide) (refuses ?_ (by decide) (refuses ?_ (by decide) (refuses Iff.rfl (by decide) ?_)))) (fun _ => honly) (by decide)
    fun _ => ⟨?_, ⟨g, hcnp, ?_⟩, fun h0 => ?_⟩
  · simp only [Bool.or_eq_true, List.isEmpty_iff, List.any_eq_true, bne_iff_ne, Bool.not_eq_true', or_assoc]; rfl
  · simp only [List.any_eq_true, Bool.not_eq_true']; rfl
  · rw [if_pos rfl, ← hg]; rfl
  · rw [Queued, List.append_nil]; exact hkept.ep1in
  · subst hg
    exact ⟨rfl, rfl, rfl, rfl, rfl, rfl, rfl⟩
  · exact (Only.mono (addTag_only _ _ _ _) (by decide)).via (hidle h0) (by decide)

/-! ## WB_START and WB_STOP (R338, R339) -/

/-- Write-back of `n` frames of point `p` in format `f` begins. -/
def writeBackOn (p f n : Nat) (d : Dev) : Dev :=
  setFlds { d with cnp := { d.cnp with wbLeft := if n = 0 then none else some n, wbFrame := none, wbHeld := false, wbDrop := 0, wbDone := 0, wbStop := [] } }
    [(wbActive, 1), (wbPoint, p), (wbFmt, f)]

theorem writeBackOn_shows {p f : Nat} (n : Nat) (d : Dev) (hp : p ≤ 2) (hf : f ≤ 1) : Only [.regs, .cnp] d (writeBackOn p f n d) ∧
    flag (writeBackOn p f n d) wbActive = true ∧ fld (writeBackOn p f n d) wbPoint = p ∧ fld (writeBackOn p f n d) wbFmt = f ∧
    (writeBackOn p f n d).cnp = { d.cnp with
      wbLeft := if n = 0 then none else some n, wbFrame := none, wbHeld := false, wbDrop := 0, wbDone := 0, wbStop := [] } := by
  have hcnp : Only [.cnp] d { d with cnp := { d.cnp with wbLeft := if n = 0 then none else some n, wbFrame := none, wbHeld := false, wbDrop := 0, wbDone := 0, wbStop := [] } } :=
    (within_cnp ..).only
  unfold writeBackOn
  refine ⟨(hcnp.mono (by decide)).via (setFlds_within ..).only (by decide), ?_, ?_, ?_, by rw [setFlds_cnp]⟩
  all_goals simp (disch := decide) only [flag, setFlds_cons, setFlds_nil, fld_setFld_same, fld_setFld_other]
  · rfl
  · exact Nat.mod_eq_of_lt (by simp only [wbPoint]; omega)
  · exact Nat.mod_eq_of_lt (by simp only [wbFmt]; omega)

theorem does_wbStart {h : Hdr} {point fmt n : Nat} {s : State} (hr : Ready s.dev h 1 0x10) (hlen : h.length = 12) :
    (fenced s.dev 0x3A = true ∨ flag s.dev (hdcpProt 0) = false → Takes (.wbStart h point fmt n) s h
      (if fenced s.dev 0x3A = true then stFenced
        else if cnpWbTensor (img0 s.dev) = 0xFFFF ∨ hasGraft s.dev = false ∨ 2 < point ∨ 1 < fmt then stBadArg
        else if flag s.dev wbActive = true then stBusy else stOk) [.regs, .usb, .cnp]
      (fun e => Answered h stOk [] s.dev e ∧ flag e wbActive = true ∧ fld e wbPoint = point ∧ fld e wbFmt = fmt ∧
        e.cnp = { s.dev.cnp with
          wbLeft := if n = 0 then none else some n, wbFrame := none, wbHeld := false, wbDrop := 0, wbDone := 0, wbStop := [] })) ∧
    (fenced s.dev 0x3A = false → cnpWbTensor (img0 s.dev) ≠ 0xFFFF → hasGraft s.dev = true → point ≤ 2 → fmt ≤ 1 →
      flag s.dev wbActive = false → flag s.dev (hdcpProt 0) = true → Does (.wbStart h point fmt n) s [.regs, .usb, .root] (fun e =>
        Queued [answer h stProtected []] s.dev e ∧ Raised 0x0702 0x3A 0 (ofn s.dev) s.dev e ∧ RegsBut [aEvtLost] s.dev e)) := by
  have hwork := writeBackOn_shows (p := point) (f := fmt) n (addTag s.dev h 1 false)
  refine ⟨fun hunprot => ?_, fun hf hw hg hp hm ha hprot => ?_⟩
  · by_cases hf : fenced s.dev 0x3A = true
    · rw [if_pos hf]
      exact ⟨(absurd · (by decide)), fun _ => does_answer rfl hr (decide_eq_true hlen) (if_pos hf)⟩
    have hprot : ¬ flag (addTag s.dev h 1 false) (hdcpProt 0) = true := ne_true_of_eq_false (hunprot.resolve_left hf)
    refine does_takes (e := complete (writeBackOn point fmt n (addTag s.dev h 1 false)) (tagKey s.dev h.tag) stOk [])
      rfl hr (decide_eq_true hlen) (refuses Iff.rfl (by decide) (refuses ?_ (by decide) (refuses Iff.rfl (by decide) ((if_neg hprot).trans rfl))))
      (fun hst => ?_) (by decide) fun hst => ?_
    · simp only [Bool.or_eq_true, Bool.not_eq_true', decide_eq_true_eq, or_assoc]; rfl
    all_goals
      have hle : point ≤ 2 ∧ fmt ≤ 1 := by
        by_contra hc
        rw [if_neg hf, if_pos (by omega)] at hst
        exact absurd hst (by decide)
      obtain ⟨honly, hact, hpoint, hfmt, hcnp⟩ := hwork hle.1 hle.2
    · exact (honly.mono (by decide)).via (complete_within ..).only (by decide)
    · refine ⟨complete_answers stOk [] hr (honly .usb (by decide)), ?_, ?_, ?_, ?_⟩
      · rw [flag, fld_complete]; exact hact
      · rw [fld_complete]; exact hpoint
      · rw [fld_complete]; exact hfmt
      · rw [(complete_within ..).only .cnp (by decide)]; exact hcnp
  · have hop : unlessFenced 0x3A (wbStartOp point fmt n) (tagKey s.dev h.tag) (addTag s.dev h 1 false) =
        raise (complete (addTag s.dev h 1 false) (tagKey s.dev h.tag) stProtected []) 0x0702 0x3A 0 (ofn s.dev) := by
      refine (if_neg (ne_true_of_eq_false hf)).trans ((if_neg ?_).trans ((if_neg (ne_true_of_eq_false ha)).trans (if_pos hprot)))
      simp only [Bool.or_eq_true, decide_eq_true_eq, Bool.not_eq_true']
      rintro (((h | h) | h) | h)
      · exact hw h
      · exact absurd (hg.symm.trans h) (by decide)
      · omega
      · omega
    have hdone := (complete_within (addTag s.dev h 1 false) (tagKey s.dev h.tag) stProtected []).only
    have hq := complete_queues (k := 1) (d' := addTag s.dev h 1 false) stProtected [] hr rfl rfl
    have hregs := complete_regsBut (addTag s.dev h 1 false) (tagKey s.dev h.tag) stProtected [] [aEvtLost]
    generalize complete (addTag s.dev h 1 false) (tagKey s.dev h.tag) stProtected [] = e at *
    have hraise := raise_tame (d := e) (unit := 0x3A) (by omega) 0x0702 0 (ofn s.dev)
    refine does_request _ rfl hr (decide_eq_true hlen) hop ?_ ⟨?_, ?_, ?_⟩
    · exact ((Only.mono (addTag_only _ _ _ _) (by decide)).via hdone (by decide)).via hraise.only (by decide)
    · rw [Queued, (raise_requestsKept ..).ep1in]; exact hq
    · exact (raise_raised e 0x0702 0x3A 0 (show ofn s.dev < 2 ^ 32 from fld_lt _ _)).of_eq (hdone .devTime (by decide)) rfl
    · exact hregs.trans hraise.regs

theorem wbStopOp_now {d : Dev} (ha : flag d wbActive = true) (hw : d.cnp.wbFrame = none) (key : Nat) :
    wbStopOp key d = complete (setFld d wbActive 0) key stOk [] := by
  rw [wbStopOp, if_neg (by simp [ha]), hw]

theorem wbStopOp_waits {d : Dev} (ha : flag d wbActive = true) {w : Nat} (hw : d.cnp.wbFrame = some w) (key : Nat) :
    wbStopOp key d = { d with cnp := { d.cnp with wbStop := d.cnp.wbStop ++ [key] } } := by
  rw [wbStopOp, if_neg (by simp [ha]), hw]

theorem does_wbStop {h : Hdr} {s : State} (hr : Ready s.dev h 1 0x10) (hlen : h.length = 4) :
    (fenced s.dev 0x3A = true → Does (.wbStop h) s [.usb] (Answered h stFenced [] s.dev)) ∧
    (fenced s.dev 0x3A = false → flag s.dev wbActive = false → Does (.wbStop h) s [.usb] (Answered h stOk [] s.dev)) ∧
    (fenced s.dev 0x3A = false → flag s.dev wbActive = true → s.dev.cnp.wbFrame = none → Does (.wbStop h) s [.regs, .usb] (fun e =>
      Answered h stOk [] s.dev e ∧ flag e wbActive = false ∧ RegsBut [wbActive.addr] s.dev e)) ∧
    (fenced s.dev 0x3A = false → flag s.dev wbActive = true → s.dev.cnp.wbFrame ≠ none → Does (.wbStop h) s [.usb, .cnp] (fun e =>
      e.usb = (addTag s.dev h 1 false).usb ∧ e.cnp = { s.dev.cnp with wbStop := s.dev.cnp.wbStop ++ [tagKey s.dev h.tag] })) := by
  have hunf (hf : fenced s.dev 0x3A = false) : unlessFenced 0x3A wbStopOp (tagKey s.dev h.tag) (addTag s.dev h 1 false) =
      wbStopOp (tagKey s.dev h.tag) (addTag s.dev h 1 false) := if_neg (ne_true_of_eq_false hf)
  refine ⟨fun hf => does_answer rfl hr (decide_eq_true hlen) (if_pos hf), fun hf ha => ?_, fun hf ha hw => ?_, fun hf ha hw => ?_⟩
  · refine does_answer rfl hr (decide_eq_true hlen) ((hunf hf).trans (if_pos ?_))
    rw [Bool.not_eq_true']; exact ha
  · have hset := setFld_tame (addTag s.dev h 1 false) wbActive 0
    refine does_complete _ rfl hr (decide_eq_true hlen) ((hunf hf).trans (wbStopOp_now (d := addTag s.dev h 1 false) ha hw _)) (by decide) (hset.only.mono (by decide))
      (hset.only .usb (by decide)) fun hans => ⟨hans, ?_, ?_⟩
    · rw [flag, fld_complete, fld_setFld_same _ _ _ (by decide)]; rfl
    · exact hset.regs.trans (complete_regsBut _ _ _ _ _)
  · obtain ⟨w, hw⟩ := Option.ne_none_iff_exists'.mp hw
    refine does_request _ rfl hr (decide_eq_true hlen) ((hunf hf).trans (wbStopOp_waits (d := addTag s.dev h 1 false) ha hw _)) ?_ ⟨rfl, rfl⟩
    exact (Only.mono (addTag_only _ _ _ _) (by decide)).via (within_cnp ..).only (by decide)

/-! ## METADATA (R59) -/

theorem length_metaSlot {items : Bytes} (h : items.length ≤ 4032) (ifn : Word) (p t : Nat) : (metaSlot ifn p items t).length = 4096 := by
  unfold metaSlot
  simp only [List.length_append, List.length_replicate, length_le]
  omega

/-- The items stand in the slot that the Ring's next value names. -/
def metaStored (ifn : Word) (p t r : Nat) (items : Bytes) (d : Dev) : Dev :=
  ringInc (vwrite d (hwWho d t) (tAddr (img0 d) t (ringVal d r % tSlots (img0 d) t) 0 0 0) (metaSlot ifn p items d.devTime.toNat)).1 r 1

theorem ringVal_metaStored (ifn : Word) (p t r : Nat) (items : Bytes) (d : Dev) (q : Nat) :
    ringVal (metaStored ifn p t r items d) q = if q = r then (ringVal d q + 1) % 2 ^ 32 else ringVal d q := by
  rw [metaStored, ringVal_ringInc, ringVal_of_ring ((vwrite_within ..).only .ring (by decide))]

theorem metadataOp_stores {ifn : Word} {p t r key : Nat} {items : Bytes} {d : Dev} {x : RingDecl} (hg : hasGraft d = true) (hp : p ≤ 1)
    (ht : metaTensor (img0 d) t = true) (hx : ringDecl (img0 d) r = some x) (hh : x.host = true) :
    metadataOp ifn p t r items key d = complete (metaStored ifn p t r items d) key stOk [] := by
  unfold metadataOp
  extract_lets b host f e
  have hhost : host = true := by
    dsimp only [host, b]
    rw [hx]; exact hh
  rw [if_neg (by simp [hg, hp, ht, hhost, b])]
  rfl

theorem metadataOp_refuses {ifn : Word} {p t r key : Nat} {items : Bytes} {d : Dev}
    (h : hasGraft d = false ∨ 2 ≤ p ∨ metaTensor (img0 d) t = false ∨ (∀ y, ringDecl (img0 d) r = some y → y.host = false)) :
    metadataOp ifn p t r items key d = complete d key stBadArg [] := by
  unfold metadataOp
  extract_lets b host f e
  refine if_pos ?_
  have hhost : (∀ y, ringDecl (img0 d) r = some y → y.host = false) → host = false := by
    intro hy
    dsimp only [host, b]
    split
    · next y hr => exact hy y hr
    · rfl
  rcases h with h | h | h | h
  · simp [h]
  · simp [show ¬ p ≤ 1 by omega]
  · simp [b, h]
  · simp [hhost h]

theorem does_metadata {h : Hdr} {ifn : Word} {p t : Nat} {r : BitVec 16} {items : Bytes} {s : State} (hr : Ready s.dev h 0 0x18)
    (hlen : h.length = 16 + items.length) (hi : items.length ≤ 4032) :
    (hasGraft s.dev = false ∨ 2 ≤ p ∨ metaTensor (img0 s.dev) t = false ∨ (∀ y, ringDecl (img0 s.dev) r.toNat = some y → y.host = false) →
      Does (.metadata h ifn p t r items) s [.usb] (Answered h stBadArg [] s.dev)) ∧
    (∀ x : RingDecl, hasGraft s.dev = true → p ≤ 1 → metaTensor (img0 s.dev) t = true → ringDecl (img0 s.dev) r.toNat = some x → x.host = true →
      Does (.metadata h ifn p t r items) s [.regs, .usb, .ring, .root, .trk, .mem] (fun e => Answered h stOk [] s.dev e ∧
        (∀ q, ringVal e q = if q = r.toNat then (ringVal s.dev q + 1) % 2 ^ 32 else ringVal s.dev q) ∧
        ∀ a v o, a = tAddr (img0 s.dev) t (ringVal s.dev r.toNat % tSlots (img0 s.dev) t) 0 0 0 → partsOf a 4096 = [(v, o, 4096)] →
          (pageAt s.dev 0 v).loc = 1 → fenced s.dev (0x20 + (pageAt s.dev 0 v).lpn / 512) = false → o % 64 = 0 →
          readMem e (lpnAddr (pageAt s.dev 0 v).lpn o) 4096 = metaSlot ifn p items s.dev.devTime.toNat ∧
          ∀ j, j < lpnAddr (pageAt s.dev 0 v).lpn o ∨ lpnAddr (pageAt s.dev 0 v).lpn o + 4096 ≤ j → readMem e j 1 = readMem s.dev j 1)) := by
  refine ⟨fun hbad => does_answer rfl hr (decide_eq_true ⟨hlen, hi⟩) (metadataOp_refuses hbad), fun x hg hp ht hx hh => ?_⟩
  have hbytes := length_metaSlot hi ifn p s.dev.devTime.toNat
  have hw := vwrite_within (addTag s.dev h 0 false) (hwWho (addTag s.dev h 0 false) t)
    (tAddr (img0 s.dev) t (ringVal s.dev r.toNat % tSlots (img0 s.dev) t) 0 0 0) (metaSlot ifn p items s.dev.devTime.toNat)
  have hin := (ringInc_within (vwrite (addTag s.dev h 0 false) (hwWho (addTag s.dev h 0 false) t)
    (tAddr (img0 s.dev) t (ringVal s.dev r.toNat % tSlots (img0 s.dev) t) 0 0 0) (metaSlot ifn p items s.dev.devTime.toNat)).1 r.toNat 1).only
  have honly := (hw.only.mono (l := [.regs, .ring, .trk, .mem]) (by decide)).via hin (by decide)
  refine does_complete _ rfl hr (decide_eq_true ⟨hlen, hi⟩) (metadataOp_stores (d := addTag s.dev h 0 false) hg hp ht hx hh) (by decide)
    (honly.mono (by decide)) (honly .usb (by decide)) fun hans => ⟨hans, fun q => ?_, fun a v o ha hparts hloc hf ho => ?_⟩
  · rw [ringVal_complete]
    exact ringVal_metaStored ..
  · subst ha
    have hmem (j n : Nat) : readMem (complete (metaStored ifn p t r.toNat items (addTag s.dev h 0 false)) (tagKey s.dev h.tag) stOk []) j n =
        readMem (vwrite (addTag s.dev h 0 false) (hwWho (addTag s.dev h 0 false) t)
          (tAddr (img0 s.dev) t (ringVal s.dev r.toNat % tSlots (img0 s.dev) t) 0 0 0) (metaSlot ifn p items s.dev.devTime.toNat)).1 j n :=
      readMem_of_mem (((complete_within ..).only .mem (by decide)).trans (hin .mem (by decide))) j n
    have hlines := vwrite_lines (d := addTag s.dev h 0 false) (w := hwWho (addTag s.dev h 0 false) t) (v := v) (o := o)
      (bs := metaSlot ifn p items s.dev.devTime.toNat) (by rw [hbytes]; exact hparts) hloc hf
      (by intro h0; rw [h0] at hbytes; exact absurd hbytes (by decide)) ho (by rw [hbytes])
    rw [hbytes] at hlines
    exact ⟨(hmem _ _).trans hlines.1, fun j hj => (hmem _ _).trans (hlines.2 j hj)⟩

/-- Settles O40. -/
theorem hostActsOnGraftLayersAndData : Obligations.HostActsOnGraftLayersAndData := by
  unfold Obligations.HostActsOnGraftLayersAndData
  exact ⟨fun h p s hr hlen => takes_readmit hr hlen, fun h hash s hr hlen hh => takes_seedDrop hr hlen hh,
    fun h mask t ring v ls s hr hlen hls => takes_layerFlip hr hlen hls, fun h point fmt n s hr hlen => does_wbStart hr hlen,
    fun h s hr hlen => does_wbStop hr hlen, fun h ifn p t r items s hr hlen hi => does_metadata hr hlen hi⟩

end Sys2Proof.Machine
end

section
/-! PROOF. The invalidation of histories (R260, R261, R265). -/

namespace Sys2Proof.Machine

/-! ## One history -/

theorem invalidate_stem (d : Dev) (out : Bool) (t cause : Nat) : (invalidate d out t cause).stem = d.stem := by
  have hp := pStem_lt (imgOf d out) (tPipe (imgOf d out) t)
  unfold invalidate
  dsimp only
  rw [raise_stem (holderOf_none (by omega)), (ringPut_within ..).only .stem (by decide), (clearCarried_within ..).only .stem (by decide)]

theorem ringVal_raise (d : Dev) (code unit sev arg q : Nat) : ringVal (raise d code unit sev arg) q = ringVal d q :=
  ringVal_of_ring ((raise_within ..).only .ring (by decide)) q

theorem ringVal_invalidate (d : Dev) (out : Bool) (t cause r : Nat) :
    ringVal (invalidate d out t cause) r = if r = tValid (imgOf d out) t then 0 else ringVal d r := by
  unfold invalidate
  dsimp only
  rw [ringVal_raise, ringVal_ringPut, ringVal_of_ring ((clearCarried_within ..).only .ring (by decide))]
  rfl

theorem invalidate_raised (d : Dev) (out : Bool) {t cause : Nat} (h : t + cause * 65536 < 2 ^ 32) :
    Raised 0x0204 (4 + pStem (imgOf d out) (tPipe (imgOf d out) t)) 0 (t + cause * 65536) d (invalidate d out t cause) := by
  unfold invalidate
  refine (raise_raised _ 0x0204 _ 0 h).of_eq ?_ rfl
  rw [(ringPut_within ..).only .devTime (by decide), (clearCarried_within ..).only .devTime (by decide)]

/-! ## The requests that wait -/

/-- The frame that a request waits for is open. -/
def histBusy (d : Dev) (e : HistReq) : Bool :=
  match writerOf (imgOf d e.out) e.tensor, e.pfn with
  | some k, some fn => (frameOf d (kPipe (imgOf d e.out) k) fn e.out).isSome
  | _, _ => false

/-- The requests that still wait. -/
def histWaits (d : Dev) : Dev := { d with stem := { d.stem with histReq := d.stem.histReq.filter (histBusy d) } }

theorem serveHist_eq (d : Dev) : serveHist d =
    (d.stem.histReq.filter (fun e => !histBusy d e)).foldl (fun d e => invalidate d e.out e.tensor e.cause) (histWaits d) := rfl

/-- Invalidations in a row. -/
theorem invalidations_stem (l : List HistReq) (d : Dev) : (l.foldl (fun d e => invalidate d e.out e.tensor e.cause) d).stem = d.stem := by
  induction l generalizing d with
  | nil => rfl
  | cons e l ih => rw [List.foldl_cons, ih, invalidate_stem]

theorem invalidations_zero (l : List HistReq) (d : Dev) {r : Nat} (h : ringVal d r = 0) :
    ringVal (l.foldl (fun d e => invalidate d e.out e.tensor e.cause) d) r = 0 := by
  induction l generalizing d with
  | nil => exact h
  | cons e l ih => refine ih _ ?_; rw [ringVal_invalidate]; split <;> simp [h]

theorem invalidations_reach (l : List HistReq) (d : Dev) {q : HistReq} (h : q ∈ l) :
    ringVal (l.foldl (fun d e => invalidate d e.out e.tensor e.cause) d) (tValid (imgOf d q.out) q.tensor) = 0 := by
  induction l generalizing d with
  | nil => simp at h
  | cons e l ih =>
    rw [List.foldl_cons]
    rcases List.mem_cons.mp h with rfl | h
    · refine invalidations_zero _ _ ?_
      rw [ringVal_invalidate, if_pos rfl]
    · rw [← (invalidate_told d e.out e.tensor e.cause).img q.out]
      exact ih _ h

theorem serveHist_keeps {d : Dev} {q : HistReq} (hm : q ∈ d.stem.histReq) (hb : histBusy d q = true) : q ∈ (serveHist d).stem.histReq := by
  rw [serveHist_eq, invalidations_stem]
  exact List.mem_filter.mpr ⟨hm, hb⟩

theorem serveHist_empties {d : Dev} {q : HistReq} (hm : q ∈ d.stem.histReq) (hb : histBusy d q = false) :
    ringVal (serveHist d) (tValid (imgOf d q.out) q.tensor) = 0 := by
  rw [serveHist_eq]
  exact invalidations_reach _ (histWaits d) (List.mem_filter.mpr ⟨hm, by simp [hb]⟩)

theorem serveHist_one {d : Dev} {q : HistReq} (hq : d.stem.histReq = [q]) (hb : histBusy d q = false) :
    serveHist d = invalidate { d with stem := { d.stem with histReq := [] } } q.out q.tensor q.cause := by
  rw [serveHist_eq, histWaits, hq]
  simp [hb]

theorem serveHist_waits {d : Dev} {q : HistReq} (hq : d.stem.histReq = [q]) (hb : histBusy d q = true) :
    serveHist d = histWaits d := by
  rw [serveHist_eq, hq]
  simp [hb]

/-! ## A request of the host -/

/-- The open frame of a tensor's writer. -/
def awaitedFrame (d : Dev) (t : Nat) : Option Nat :=
  match writerOf (img0 d) t with
  | some k => (d.stem.frames.find? (fun f => f.pipe == kPipe (img0 d) k && !f.out)).map (·.pfn)
  | none => none

/-- The host's request joins those that wait. -/
def histAsked (t cause : Nat) (d : Dev) : Dev :=
  { d with stem := { d.stem with histReq := d.stem.histReq ++ [⟨false, t, cause, awaitedFrame d t⟩] } }

theorem requestHist_eq (d : Dev) (t cause : Nat) : requestHist d t cause = serveHist (histAsked t cause d) := rfl

theorem histBusy_idle {d : Dev} {t cause : Nat}
    (h : ∀ k, writerOf (img0 d) t = some k → d.stem.frames.any (fun f => f.pipe == kPipe (img0 d) k && !f.out) = false) :
    histBusy (histAsked t cause d) ⟨false, t, cause, awaitedFrame d t⟩ = false := by
  change (match writerOf (img0 d) t, awaitedFrame d t with
    | some k, some fn => (frameOf d (kPipe (img0 d) k) fn false).isSome
    | _, _ => false) = false
  unfold awaitedFrame
  cases hw : writerOf (img0 d) t with
  | none => rfl
  | some k =>
    have hnone : d.stem.frames.find? (fun f => f.pipe == kPipe (img0 d) k && !f.out) = none :=
      List.find?_eq_none.mpr fun f hf => List.any_eq_false.mp (h k hw) f hf
    simp only [hnone]
    rfl

theorem awaitedFrame_open {d : Dev} {t k : Nat} {f : Frame} (hw : writerOf (img0 d) t = some k)
    (hf : d.stem.frames.find? (fun f => f.pipe == kPipe (img0 d) k && !f.out) = some f) : awaitedFrame d t = some f.pfn := by
  rw [awaitedFrame, hw]
  dsimp only
  rw [hf]
  rfl

theorem histBusy_open {d : Dev} {t cause k : Nat} {f : Frame} (hw : writerOf (img0 d) t = some k)
    (hf : d.stem.frames.find? (fun f => f.pipe == kPipe (img0 d) k && !f.out) = some f) :
    histBusy (histAsked t cause d) ⟨false, t, cause, some f.pfn⟩ = true := by
  change (match writerOf (img0 d) t, some f.pfn with
    | some k, some fn => (frameOf d (kPipe (img0 d) k) fn false).isSome
    | _, _ => false) = true
  rw [hw]
  refine List.find?_isSome.mpr ⟨f, List.mem_of_find?_eq_some hf, ?_⟩
  have hp := List.find?_some hf
  simpa using hp

/-! ## HIST_INVALIDATE and STEM_HIST_INV (R265) -/

/-- What an invalidation asked for with no frame of the writer open shows. -/
structure HistEmptied (t : Nat) (d e : Dev) : Prop where
  ring : ringVal e (tValid (img0 d) t) = 0
  alone : d.stem.histReq = [] → e.stem.histReq = [] ∧ (∀ r, r ≠ tValid (img0 d) t → ringVal e r = ringVal d r) ∧
    Raised 0x0204 (4 + pStem (img0 d) (tPipe (img0 d) t)) 0 (t + 3 * 65536) d e

theorem requestHist_empties {d : Dev} {t : Nat} (ht : t + 3 * 65536 < 2 ^ 32)
    (h : ∀ k, writerOf (img0 d) t = some k → d.stem.frames.any (fun f => f.pipe == kPipe (img0 d) k && !f.out) = false) :
    HistEmptied t d (requestHist d t 3) := by
  have hb := histBusy_idle (cause := 3) h
  rw [requestHist_eq]
  refine ⟨serveHist_empties (by simp [histAsked]) hb, fun hnone => ?_⟩
  rw [serveHist_one (by rw [histAsked, hnone]; rfl) hb]
  refine ⟨?_, fun r hr => ?_, ?_⟩
  · rw [invalidate_stem]
  · rw [ringVal_invalidate, if_neg (by exact hr)]; rfl
  · exact (invalidate_raised { histAsked t 3 d with stem := { (histAsked t 3 d).stem with histReq := [] } } false ht).of_eq rfl rfl

theorem HistEmptied.of_only {t : Nat} {d d' e e' : Dev} (h : HistEmptied t d e) (hd : Only [.usb] d' d) (he : Only [.usb] e e') :
    HistEmptied t d' e' := by
  have himg : img0 d = img0 d' := by rw [img0, hd .root (by decide)]; rfl
  obtain ⟨hzero, halone⟩ := h
  rw [himg, hd .stem (by decide)] at halone
  rw [himg] at hzero
  refine ⟨?_, fun hnone => ?_⟩
  · rw [ringVal_of_ring (he .ring (by decide))]; exact hzero
  · obtain ⟨hreq, hothers, hev⟩ := halone hnone
    rw [he .stem (by decide)]
    refine ⟨hreq, fun r hne => ?_, hev.of_eq (hd .devTime (by decide)) (congrArg Root.lastEv (he .root (by decide)))⟩
    rw [ringVal_of_ring (he .ring (by decide)), hothers r hne, ringVal_of_ring (hd .ring (by decide))]

theorem gLen_lt (b : Bytes) (code : Nat) : gLen b code < 2 ^ 32 := by
  have hu (bs : Bytes) (i : Nat) : u32 bs i < 2 ^ 32 := by
    simp only [u32, u16, u8]; omega
  unfold gLen gSect
  split
  · next e he =>
    obtain ⟨i, -, rfl⟩ := List.mem_map.mp (List.mem_of_find?_eq_some he)
    exact hu _ _
  · decide

theorem tensor_of_history {d : Dev} {t : Nat} (h : isHistory d t = true) : t + 3 * 65536 < 2 ^ 32 := by
  simp only [isHistory, Bool.and_eq_true, decide_eq_true_eq] at h
  obtain ⟨⟨-, ht⟩, -⟩ := h
  have := gLen_lt (img0 d) 2
  simp only [nTensors] at ht
  omega

theorem Does.imp {c : Instr} {s : State} {l : List Part} {P Q : Dev → Prop} (h : Does c s l P) (hi : ∀ e, P e → Q e) : Does c s l Q := by
  obtain ⟨e, he, honly, hp⟩ := h
  exact ⟨e, he, honly, hi e hp⟩

/-- The host asks for the invalidation of tensor `t` by its register or by its command. -/
def AsksHist (c : Instr) (t : Nat) (s : State) : Prop :=
  (alive s.dev = true ∧ ∃ v, c = .stemHistInvWrite v ∧ t = v.toNat % 65536) ∨
    (∃ h, c = .histInvalidate h t ∧ Ready s.dev h 1 0x10 ∧ h.length = 6)

/-- Both ways are one request; the command then completes. -/
theorem does_requestHist {c : Instr} {t : Nat} {s : State} (hc : AsksHist c t s) (hh : isHistory s.dev t = true) :
    Does c s [.regs, .usb, .ring, .root, .stem, .trk, .mem]
      (fun e => ∃ d, Only [.usb] s.dev d ∧ Only [.usb] (requestHist d t 3) e) := by
  rcases hc with ⟨halive, v, rfl, rfl⟩ | ⟨h, rfl, hr, hlen⟩
  · have hop : stemHistInvOp v s.dev = requestHist s.dev (v.toNat % 65536) 3 := if_pos hh
    refine does_onDev _ rfl halive (hop ▸ (requestHist_within ..).only) ⟨s.dev, .refl _ _, ?_⟩
    rw [hop]
    exact .refl _ _
  · have hop : histInvalidateOp t (tagKey s.dev h.tag) (addTag s.dev h 1 false) =
        complete (requestHist (addTag s.dev h 1 false) t 3) (tagKey s.dev h.tag) stOk [] := if_pos hh
    exact does_request _ rfl hr (decide_eq_true hlen) hop (only_addTag_complete (by decide) (requestHist_within ..).only)
      ⟨addTag s.dev h 1 false, addTag_only _ _ _ _, (complete_within ..).only⟩

theorem histRequest_open {d d' e : Dev} {t k : Nat} (hd : Only [.usb] d' d) (he : Only [.usb] (requestHist d t 3) e)
    (hw : writerOf (img0 d') t = some k) (ho : d'.stem.frames.any (fun f => f.pipe == kPipe (img0 d') k && !f.out) = true) :
    (∀ f, d'.stem.frames.find? (fun f => f.pipe == kPipe (img0 d') k && !f.out) = some f →
      ({ out := false, tensor := t, cause := 3, pfn := some f.pfn } : HistReq) ∈ e.stem.histReq) ∧
    (d'.stem.histReq = [] → Only [.usb, .stem] d' e) := by
  have himg : img0 d' = img0 d := by rw [img0, ← show d.root = d'.root from hd .root (by decide)]; rfl
  rw [himg] at hw ho ⊢
  rw [← hd .stem (by decide)] at ho ⊢
  obtain ⟨f, hf⟩ := Option.isSome_iff_exists.mp (List.find?_isSome.mpr (List.any_eq_true.mp ho))
  have hb := histBusy_open (cause := 3) hw hf
  have hasked : (histAsked t 3 d).stem.histReq = d.stem.histReq ++ [⟨false, t, 3, some f.pfn⟩] := by
    rw [← awaitedFrame_open hw hf]; rfl
  rw [requestHist_eq] at he
  refine ⟨fun g hg => ?_, fun hnone => ?_⟩
  · rw [hf] at hg
    obtain rfl := Option.some.inj hg
    rw [he .stem (by decide)]
    exact serveHist_keeps (by simp [hasked]) hb
  · rw [hnone] at hasked
    rw [serveHist_waits hasked hb] at he
    have h1 : Only [.stem] d (histAsked t 3 d) := (within_stem ..).only
    have h2 : Only [.stem] (histAsked t 3 d) (histWaits (histAsked t 3 d)) := (within_stem ..).only
    exact ((hd.mono (by decide)).via (h1.trans h2) (by decide)).via he (by decide)

/-- Settles O41. -/
theorem historyIsInvalidated : Obligations.HistoryIsInvalidated := by
  unfold Obligations.HistoryIsInvalidated
  rintro c t s b rfl (hc : AsksHist c t s)
  refine ⟨fun hh hidle => ?_, fun k hh hw ho => ?_, fun v hh hv => ?_, fun h hh hi => ?_, fun h hh hi => ?_⟩
  · refine (does_requestHist hc hh).imp fun e ⟨d, hd, he⟩ => ?_
    have himg : img0 d = img0 s.dev := by rw [img0, hd .root (by decide)]; rfl
    have hempty : HistEmptied t s.dev e := by
      refine (requestHist_empties (tensor_of_history hh) ?_).of_only hd he
      rw [himg, hd .stem (by decide)]
      exact hidle
    exact ⟨hempty.ring, hempty.alone⟩
  · exact (does_requestHist hc hh).imp fun e ⟨d, hd, he⟩ => histRequest_open hd he hw ho
  · subst hv
    obtain ⟨halive, v', hv', rfl⟩ | ⟨h, hne, -⟩ := hc
    · obtain rfl := Instr.stemHistInvWrite.inj hv'
      have hop : stemHistInvOp v s.dev = s.dev := if_neg (by simp [hh])
      exact does_onDev _ rfl halive (by rw [hop]; exact .refl _ _) trivial
    · exact absurd hne (by simp)
  · subst hi
    obtain ⟨-, v, hne, -⟩ | ⟨h', he', hr, hlen⟩ := hc
    · exact absurd hne (by simp)
    · obtain ⟨rfl, -⟩ := Instr.histInvalidate.inj he'
      exact does_answer rfl hr (decide_eq_true hlen) (if_neg (by rw [show isHistory (addTag s.dev h 1 false) t = false from hh]; decide))
  · subst hi
    obtain ⟨-, v, hne, -⟩ | ⟨h', he', hr, hlen⟩ := hc
    · exact absurd hne (by simp)
    · obtain ⟨rfl, -⟩ := Instr.histInvalidate.inj he'
      have hop : histInvalidateOp t (tagKey s.dev h.tag) (addTag s.dev h 1 false) =
          complete (requestHist (addTag s.dev h 1 false) t 3) (tagKey s.dev h.tag) stOk [] := if_pos hh
      exact does_request _ rfl hr (decide_eq_true hlen) hop (only_addTag_complete (by decide) (requestHist_within ..).only)
        ((requestHist_told _ t 3).requests.queues stOk [] hr)

end Sys2Proof.Machine
end

section
/-! PROOF. PROVISION, CERT_READ and ATTEST (R466, R469 to R471). -/

namespace Sys2Proof.Machine

/-! ## PROVISION (R466) -/

theorem nvRequest_ready {s : State} {i : Instr} {h : Hdr} {ok : Bool} {body : Nat → NonVol → Dev → Dev} {fuse : NonVol → NonVol}
    (hr : Ready s.dev h 1 0x10) (hok : ok = true) : nvRequest s i h ok body fuse =
      .next { s with nv := fuse s.nv, dev := body (tagKey s.dev h.tag) s.nv (addTag s.dev h 1 false) } := by
  have hreq := request_ready i (fun key d => body key s.nv d) hr hok
  obtain ⟨halive, hc, hz, ha, he⟩ := hr
  have hrec : inRecovery s.dev = false := by
    simp only [canRun, Bool.and_eq_true, Bool.not_eq_true'] at hc
    obtain ⟨⟨⟨⟨⟨-, hrec⟩, -⟩, -⟩, -⟩, -⟩ := hc
    exact hrec
  unfold nvRequest
  rw [if_pos halive, hreq]
  simp [hok, hz, ha, he, hc, servedNow, hrec]

/-- What the fuses and the flash show after an operation that PROVISION may do. -/
theorem provisionFuse_shows {nv : NonVol} {op slot : Nat} {bs : Bytes} (h : provisionOk nv op slot bs = true) :
    (op = 1 → slotState (provisionFuse op slot bs nv) slot = 1 ∧ (provisionFuse op slot bs nv).keyHash.get 0 slot = ofBe (sha384 bs)) ∧
    (op = 2 → (provisionFuse op slot bs nv).usbWord = some (ofLe bs)) ∧ (op = 3 → (provisionFuse op slot bs nv).lifecycle = 2) := by
  refine ⟨?_, ?_, ?_⟩ <;> rintro rfl
  · simp only [provisionOk, Bool.and_eq_true, decide_eq_true_eq] at h
    obtain ⟨-, ⟨hslot, -⟩, -⟩ := h
    exact ⟨(slotState_setSlotState _ hslot hslot (show 1 < 4 by decide)).trans (if_pos rfl), Map.get_put_same 0 nv.keyHash slot _⟩
  · rfl
  · rfl

theorem exec_provision {h : Hdr} {op slot : Nat} {bs : Bytes} {s : State} (hr : Ready s.dev h 1 0x10)
    (hlen : h.length = (if op = 1 then 105 else if op = 2 then 12 else 8)) : exec (.provision h op slot bs) s = .next { s with
      nv := if provisionOk s.nv op slot bs && !(op = 1 && fenced s.dev 3) then provisionFuse op slot bs s.nv else s.nv
      dev := provisionOp op slot bs (tagKey s.dev h.tag) s.nv (addTag s.dev h 1 false) } :=
  nvRequest_ready hr (decide_eq_true hlen)

theorem does_provision {h : Hdr} {op slot : Nat} {bs : Bytes} {s : State} (hr : Ready s.dev h 1 0x10)
    (hlen : h.length = (if op = 1 then 105 else if op = 2 then 12 else 8)) :
    (provisionOk s.nv op slot bs = true → ¬ (op = 1 ∧ fenced s.dev 3 = true) →
      ∃ t, exec (.provision h op slot bs) s = .next t ∧ t.pending = s.pending ∧ Only [.regs, .usb] s.dev t.dev ∧
        Answered h stOk [] s.dev t.dev ∧ t.nv = provisionFuse op slot bs s.nv ∧ (op = 1 → flag t.dev (keyLoadedFld slot) = true ∧
          slotState t.nv slot = 1 ∧ t.nv.keyHash.get 0 slot = ofBe (sha384 bs) ∧ RegsBut [(keyLoadedFld slot).addr] s.dev t.dev) ∧
        (op = 2 → t.nv.usbWord = some (ofLe bs)) ∧ (op = 3 → t.nv.lifecycle = 2) ∧ (op ≠ 1 → t.dev.regs = s.dev.regs)) ∧
    (op = 1 → fenced s.dev 3 = true → Does (.provision h op slot bs) s [.usb] (Answered h stFenced [] s.dev)) ∧
    (provisionOk s.nv op slot bs = false → ¬ (op = 1 ∧ fenced s.dev 3 = true) →
      Does (.provision h op slot bs) s [.usb] (Answered h stBadArg [] s.dev)) := by
  have hexec := exec_provision (slot := slot) (bs := bs) hr hlen
  have hanswer (st : Nat) : Only [.usb] s.dev (complete (addTag s.dev h 1 false) (tagKey s.dev h.tag) st []) ∧
      Answered h st [] s.dev (complete (addTag s.dev h 1 false) (tagKey s.dev h.tag) st []) :=
    ⟨only_addTag_complete (by decide) (.refl _ _), complete_answers st [] hr rfl⟩
  refine ⟨fun hok hf => ?_, fun hop hf => ?_, fun hok hf => ?_⟩
  · obtain ⟨h1, h2, h3⟩ := provisionFuse_shows hok
    have hdev : provisionOp op slot bs (tagKey s.dev h.tag) s.nv (addTag s.dev h 1 false) =
        complete (if op = 1 then setFld (addTag s.dev h 1 false) (keyLoadedFld slot) 1 else addTag s.dev h 1 false) (tagKey s.dev h.tag) stOk [] := by
      refine (if_neg ?_).trans (if_neg (by simp [hok]))
      rw [Bool.and_eq_true, decide_eq_true_iff]; exact hf
    have hgo : (provisionOk s.nv op slot bs && !(decide (op = 1) && fenced s.dev 3)) = true := by
      rw [hok, Bool.true_and, Bool.not_eq_true', Bool.eq_false_iff, Ne, Bool.and_eq_true, decide_eq_true_iff]; exact hf
    rw [if_pos hgo, hdev] at hexec
    have hset := setFld_tame (addTag s.dev h 1 false) (keyLoadedFld slot) 1
    refine ⟨_, hexec, rfl, ?_, ?_, rfl, fun hop => ?_, h2, h3, fun hop => ?_⟩
    · refine only_addTag_complete (h := h) (k := 1) (by decide) ?_
      split
      · exact hset.only.mono (by decide)
      · exact .refl _ _
    · refine complete_answers (k := 1) stOk [] hr ?_
      split
      · exact hset.only .usb (by decide)
      · rfl
    · have hslot : slot < 4 := by
        subst hop
        simp only [provisionOk, Bool.and_eq_true, decide_eq_true_eq] at hok
        exact hok.2.1.1
      obtain ⟨hstate, hhash⟩ := h1 hop
      refine ⟨?_, hstate, hhash, ?_⟩ <;> dsimp only <;> rw [if_pos hop]
      · rw [flag, fld_complete, fld_setFld_same _ _ _ (by simp only [keyLoadedFld]; omega)]; rfl
      · exact hset.regs.trans (complete_regsBut _ _ _ _ _)
    · dsimp only
      rw [if_neg hop, complete_regs]; rfl
  · refine ⟨_, ?_, (hanswer stFenced).1, (hanswer stFenced).2⟩
    rw [hexec, if_neg (by simp [hop, hf])]
    congr 2
    refine if_pos ?_
    rw [Bool.and_eq_true, decide_eq_true_iff]; exact ⟨hop, hf⟩
  · refine ⟨_, ?_, (hanswer stBadArg).1, (hanswer stBadArg).2⟩
    rw [hexec, if_neg (by simp [hok])]
    congr 2
    refine (if_neg ?_).trans (if_pos (by simp [hok]))
    rw [Bool.and_eq_true, decide_eq_true_iff]; exact hf

/-! ## CERT_READ -/

theorem does_certRead {h : Hdr} {i : Nat} {s : State} (hr : Ready s.dev h 1 0x10) (hlen : h.length = 5) :
    (i ≤ 2 → flag s.dev bootCertOk = true → Does (.certRead h i) s [.usb] (Answered h stOk (chainCert (chainOf s.nv) i) s.dev)) ∧
    (2 < i ∨ flag s.dev bootCertOk = false → Does (.certRead h i) s [.usb] (Answered h stBadArg [] s.dev)) := by
  have hflag : flag (addTag s.dev h 1 false) bootCertOk = flag s.dev bootCertOk := rfl
  refine ⟨fun hi hc => ?_, fun hbad => ?_⟩
  · exact does_answer rfl hr (decide_eq_true hlen) (if_neg (by rw [hflag, hc]; simp; omega))
  · exact does_answer rfl hr (decide_eq_true hlen) (if_pos (by rw [hflag]; rcases hbad with h | h <;> simp [h]))

/-! ## ATTEST (R469 to R471) -/

theorem settingsTuple_of {d e : Dev} (nv : NonVol) (hregs : RegsBut [progA 11, progB 11] d e) (hlive : e.live = d.live) (hras : e.ras = d.ras)
    (h0 : e.root.space0 = d.root.space0) : settingsTuple nv e = settingsTuple nv d := by
  have hforce (x : Fld) : inForce e x = inForce d x := by rw [inForce, hlive]; rfl
  have hgrove : groveN e = groveN d := by unfold groveN hasGraft img0; rw [h0]
  unfold settingsTuple
  rw [hregs.fld (x := clkAclk) (by decide), hregs.fld (x := clkCap) (by decide), hgrove, hras, h0]
  simp only [htotal, vtotalNom, hforce]

theorem reportBytes_of {d e : Dev} (nv : NonVol) (nonce : Bytes) (hregs : RegsBut [progA 11, progB 11] d e) (hlive : e.live = d.live)
    (hras : e.ras = d.ras) (htime : e.devTime = d.devTime) (h0 : e.root.space0 = d.root.space0) (hpacks : e.root.packs = d.root.packs) :
    reportBytes nv e nonce = reportBytes nv d nonce := by
  have hmeas : (fun i => le 4 (reg e (fwMeas i)).toNat) = (fun i => le 4 (reg d (fwMeas i)).toNat) := by
    funext i
    rw [hregs (fwMeas i) (by simp only [fwMeas, progA, progB, List.mem_cons, List.not_mem_nil, or_false]; omega)]
  have hgraft : hasGraft e = hasGraft d := by rw [hasGraft, h0]; rfl
  unfold reportBytes
  rw [hregs.flag (x := stumpActive) (by decide), hregs.fld (x := bootCertOk) (by decide), hregs.fld (x := hdcpProt 0) (by decide),
    hregs.fld (x := fwSvn) (by decide), hregs.fld (x := graftIdLo) (by decide), hregs.fld (x := graftIdHi) (by decide), hmeas, hgraft,
    htime, h0, hpacks, settingsTuple_of nv hregs hlive hras h0]

/-- The report's fields are taken and its signature is under way. -/
def attesting (d : Dev) : Dev := progAt (progStart d 11 0 2) 11 1

theorem attesting_shows (d : Dev) : Tame [.regs, .root] [progA 11, progB 11] d (attesting d) ∧
    (attesting d).root = { d.root with prog := (attesting d).root.prog } := by
  have hstart : Tame [.regs, .root] [progA 11, progB 11] d (progStart d 11 0 2) := ⟨(progStart_within ..).only, progStart_regsBut _ _ _ _⟩
  have hroot := progStart_root d 11 0 2
  unfold attesting
  generalize progStart d 11 0 2 = x at *
  refine ⟨hstart.trans ⟨(progAt_within ..).only, progAt_regsBut _ _ _⟩, ?_⟩
  have hat := progAt_root x 11 1
  generalize progAt x 11 1 = y at *
  rw [hat, hroot]

/-- The report waits for its signature. -/
def attested (key : Nat) (r : Bytes) (d : Dev) : Dev := { d with root := { d.root with attest := some (key, r) } }

theorem attested_shows (key : Nat) (r : Bytes) (d : Dev) : Only [.root] d (attested key r d) ∧ (attested key r d).root.attest = some (key, r) :=
  ⟨(within_root ..).only, rfl⟩

theorem attestOp_goes {nv : NonVol} {nonce : Bytes} {key : Nat} {d x : Dev} (ha : ¬ d.root.attest.isSome = true) (hx : attesting d = x) :
    attestOp nv nonce key d = attested key (reportBytes nv x nonce) x := by
  unfold attestOp
  rw [if_neg ha]
  extract_lets y
  have hy : y = x := hx
  clear_value y
  subst hy
  rfl

theorem takes_attest {h : Hdr} {nonce : Bytes} {s : State} (hr : Ready s.dev h 1 0x10) (hlen : h.length = 36) (hn : nonce.length = 32) :
    Takes (.attest h nonce) s h (if s.dev.root.attest.isSome = true then stBusy else stOk) [.regs, .usb, .root]
      (fun e => e.usb = (addTag s.dev h 1 false).usb ∧ e.root.attest = some (tagKey s.dev h.tag, reportBytes s.nv s.dev nonce) ∧
        RegsBut [progA 11, progB 11] s.dev e) := by
  by_cases ha : s.dev.root.attest.isSome = true
  · rw [if_pos ha]
    exact ⟨(absurd · (by decide)), fun _ => does_answer rfl hr (decide_eq_true ⟨hlen, hn⟩) (if_pos ha)⟩
  obtain ⟨htame, hroot⟩ := attesting_shows (addTag s.dev h 1 false)
  generalize hx : attesting (addTag s.dev h 1 false) = x at *
  have hreport : reportBytes s.nv x nonce = reportBytes s.nv s.dev nonce := by
    refine reportBytes_of s.nv nonce htame.regs (htame.only .live (by decide)) (htame.only .ras (by decide)) (htame.only .devTime (by decide)) ?_ ?_
    · rw [hroot]; rfl
    · rw [hroot]; rfl
  have hop := attestOp_goes (nv := s.nv) (nonce := nonce) (key := tagKey s.dev h.tag) (d := addTag s.dev h 1 false) ha hx
  rw [hreport] at hop
  generalize reportBytes s.nv s.dev nonce = r at *
  obtain ⟨honly, hatt⟩ := attested_shows (tagKey s.dev h.tag) r x
  rw [if_neg ha]
  refine ⟨fun _ => does_request _ rfl hr (decide_eq_true ⟨hlen, hn⟩) hop ?_ ⟨?_, hatt, ?_⟩, fun h => absurd rfl h⟩
  · exact ((Only.mono (addTag_only _ _ _ _) (by decide)).via htame.only (by decide)).via honly (by decide)
  · exact (honly .usb (by decide)).trans (htame.only .usb (by decide))
  · exact htame.regs.trans (.of_only honly (by decide) _)

theorem reportSignedOp_some {d : Dev} {k : Nat} {r : Bytes} (h : d.root.attest = some (k, r)) : ∃ sig : Bytes, sig.length = 96 ∧
    reportSignedOp d = complete (progDone { d with root := { d.root with attest := none }, free := d.free + 1 } 11) k stOk (r ++ sig) := by
  refine ⟨(List.range 96).map (fun i => (Config.ecdsaSign r d.free).getD i 0), by simp, ?_⟩
  rw [reportSignedOp, h]

theorem does_reportSigned {s : State} (halive : alive s.dev = true) :
    (∀ (k : Nat) (r : Bytes) (t : TagRec), s.dev.root.attest = some (k, r) → s.dev.usb.tags.find? (fun t => t.tag == k && !t.done) = some t →
      Does .attestReportSigned s [.regs, .usb, .root, .free] (fun e => e.root.attest = none ∧ RegsBut [progA 11, progB 11] s.dev e ∧
        ∃ sig : Bytes, sig.length = 96 ∧ Queued [{ tag := k % 65536, addr := t.addr, status := stOk, payload := r ++ sig }] s.dev e)) ∧
    (s.dev.root.attest = none → Does .attestReportSigned s [] (fun _ => True)) := by
  refine ⟨fun k r t ha ht => ?_, fun ha => ?_⟩
  · obtain ⟨sig, hsig, hop⟩ := reportSignedOp_some ha
    refine does_onDev _ rfl halive (reportSignedOp_within ..).only ?_
    rw [hop]
    have htake : Only [.root, .free] s.dev { s.dev with root := { s.dev.root with attest := none }, free := s.dev.free + 1 } :=
      (within_root_free ..).only
    have hnone : ({ s.dev with root := { s.dev.root with attest := none }, free := s.dev.free + 1 } : Dev).root.attest = none := rfl
    generalize ({ s.dev with root := { s.dev.root with attest := none }, free := s.dev.free + 1 } : Dev) = x at *
    have hdone := (progDone_within x 11).only
    have hroot := progDone_root x 11
    have hregs := (RegsBut.of_only htake (by decide) _).trans (progDone_regsBut x 11)
    generalize progDone x 11 = y at *
    have husb : y.usb = s.dev.usb := (hdone .usb (by decide)).trans (htake .usb (by decide))
    refine ⟨?_, hregs.trans (complete_regsBut _ _ _ _ _), sig, hsig, ?_⟩
    · rw [(complete_within ..).only .root (by decide), hroot]; exact hnone
    · rw [Queued, complete_ep1in stOk (r ++ sig) (by rw [husb]; exact ht), husb]
  · have hop : reportSignedOp s.dev = s.dev := by rw [reportSignedOp, ha]
    exact does_onDev _ rfl halive (by rw [hop]; exact .refl _ _) trivial

/-- Settles O42. -/
theorem securityRequestsAnswer : Obligations.SecurityRequestsAnswer := by
  unfold Obligations.SecurityRequestsAnswer
  exact ⟨fun h op slot bs s hr hlen => does_provision hr hlen, fun h i s hr hlen => does_certRead hr hlen,
    fun h nonce s hr hlen hn => takes_attest hr hlen hn, fun s halive => does_reportSigned halive⟩

end Sys2Proof.Machine
end

section
/-! PROOF. A raster taller than its position field (R345): VACTIVE has 16 bits, POS 13. -/

namespace Sys2Proof.Machine

/-- Position 8191 of a raster of 9000 active lines, one pixel wide, with line 8192 composed. -/
def tallState : State := { State.reset with
  dev := { setFlds Dev.reset [(clkPllLock, 1), (dsoPos, 8191), (linkUp 0, 1)] with
    boot := 5
    live := ((Dev.reset.live.put 0 dsoMode.addr 1).put 0 dsoHactive.addr 1).put 0 dsoVactive.addr 9000
    ras := { Raster.reset with running := true, read := 8193, readOfn := 0, line := [7] } } }

theorem tallState_alive : alive tallState.dev = true := by decide +kernel

/-- Refutes O44: POS wraps to 0, and the line that stands ready is not sent. -/
theorem not_rasterScansItsFrames : ¬ Obligations.RasterScansItsFrames := by
  unfold Obligations.RasterScansItsFrames
  intro h
  obtain ⟨hscan, -⟩ := h tallState tallState_alive
  have hpos : pos tallState.dev = 8191 ∧ vactive tallState.dev = 9000 ∧ ofn tallState.dev = 0 := by decide +kernel
  obtain ⟨-, -, -, hsent, -⟩ := next_of_does _ rfl tallState_alive (hscan rfl (by omega))
  have hnone : (lineScannedOp tallState.dev).ras.sent.get [] 0 = [] := by decide +kernel
  have hsome : portLine tallState.dev 0 tallState.dev.ras.line ≠ [] := by decide +kernel
  exact hsome ((hsent (by omega) hpos.2.2.symm (by rw [hpos.1]; rfl) 0 (by decide)).symm.trans hnone)

end Sys2Proof.Machine
end

section
/-! PROOF. A layer's source page that is still on its way (R81, R318): Canopy's read of it is a demand that the Trunk keeps a record of. -/

namespace Sys2Proof.Machine

/-- The image of one tensor of picture words, its record at the image's first byte. -/
def wordTensorImage : Bytes := [0, 0, 0, 0, 0, 0, 0xF]

/-- Line 0 of frame 0 is due and its row judged; layer 0 shows a tensor whose page is being fetched. -/
def fetchingLayer : State := { State.reset with
  dev := { setFlds Dev.reset [(clkPllLock, 1), (cnpOwner 0, 4), (stumpActive, 0)] with
    boot := 5
    live := ((Dev.reset.live.put 0 (cnpBase 0) 1).put 0 (cnpBase 0 + 4) 0x10010).put 0 (cnpBase 0 + 12) 0x10010
    root := { Dev.reset.root with space0 := some { img := wordTensorImage, meas := [], k := 0, idx := 0, area := 0 } }
    trk := { Dev.reset.trk with map0 := [(0, { Page.none with loc := 3, move := 2 })] }
    ras := { Raster.reset with running := true, frames := [{ OutFrame.new 0 with judged := [(0, 1)] }] } } }

theorem fetchingLayer_alive : alive fetchingLayer.dev = true := by decide +kernel

theorem only_of_does {c : Instr} {s : State} {l : List Part} {P : Dev → Prop} (f : Dev → Dev) (he : exec c s = onDev s f) (ha : alive s.dev = true)
    (h : Does c s l P) : Only l s.dev (f s.dev) := by
  obtain ⟨e, hnext, honly, -⟩ := h
  rw [he, onDev_alive f ha] at hnext
  have := congrArg State.dev (Host.Outcome.next.inj hnext)
  exact (show f s.dev = e from this) ▸ honly

/-- Refutes O45: the composition of the line opens a stall of Canopy on the page. -/
theorem not_pictureIsJudgedAndRead : ¬ Obligations.PictureIsJudgedAndRead := by
  unfold Obligations.PictureIsJudgedAndRead
  rintro ⟨-, -, -, -, -, hcompose, -⟩
  have hdoes := hcompose 0 0 fetchingLayer fetchingLayer_alive rfl (by decide +kernel) (by decide +kernel) (by decide +kernel)
  have htrk := only_of_does _ rfl fetchingLayer_alive hdoes .trk (by decide)
  have hstalls : (composeRead fetchingLayer.nv [] fetchingLayer.dev).trk.stalls.length = 1 := by decide +kernel
  rw [show (composeRead fetchingLayer.nv [] fetchingLayer.dev).trk = fetchingLayer.dev.trk from htrk] at hstalls
  exact absurd hstalls (by decide)

end Sys2Proof.Machine
end

section
/-! PROOF. DSO_COMMIT, Panel Replay, the links and the cadence lock (R346, R347, R350, R355 to R358, R511). -/

namespace Sys2Proof.Machine

/-! ## An exit asked for (R355, R357) -/

/-- The device as the exit finds it: the output's own causes clear REQ. -/
def exitAsked (cause : Nat) (d : Dev) : Dev :=
  if fld d prState ≠ 0 && (cause = 4 || cause = 5 || cause = 6) then setFld d prReq 0 else d

theorem exitAsked_tame (cause : Nat) (d : Dev) : Tame [.regs] [prReq.addr] d (exitAsked cause d) := .ite (setFld_tame _ _ _) (.refl _ _ _)

theorem exitAsked_state (cause : Nat) (d : Dev) : fld (exitAsked cause d) prState = fld d prState := by
  unfold exitAsked
  split
  · exact fld_setFld_other _ _ _ _ (by decide) (by decide)
  · rfl

theorem exitAsked_req {cause : Nat} {d : Dev} (h : fld d prState ≠ 0) (hc : cause = 4 ∨ cause = 5 ∨ cause = 6) :
    flag (exitAsked cause d) prReq = false := by
  rw [exitAsked, if_pos (by simpa [h, or_assoc] using hc), flag, fld_setFld_same _ _ _ (by decide)]; rfl

/-- What an exit of a cause shows, once REQ has been seen to. -/
structure Exits (cause : Nat) (d e : Dev) : Prop where
  tame : Tame [.regs, .usb, .root, .ras] [prReq.addr, aEvtLost] d e
  req : flag e prReq = if fld d prState = 1 then false else flag (exitAsked cause d) prReq
  replay : fld d prState = 2 → fld e prState = 3 ∧ e.ras = { d.ras with prExit := some (add32 (ofn d) 2), prCause := cause } ∧
    Raised 0x0108 0x3B 0 (3 + cause * 16) d e
  entry : fld d prState = 1 → fld e prState = 0 ∧ e.ras = { d.ras with entered := false } ∧ Raised 0x0108 0x3B 0 (cause * 16) d e
  none : fld d prState = 0 ∨ fld d prState = 3 → e = exitAsked cause d

theorem replayExit_exits {cause : Nat} (d : Dev) (hc : cause < 16) : Exits cause d (replayExit cause d) := by
  have htame := exitAsked_tame cause d
  have hstate := exitAsked_state cause d
  have hop : replayExit cause d =
      if fld (exitAsked cause d) prState = 2 then
        raise (setFld { exitAsked cause d with ras := { (exitAsked cause d).ras with
          prExit := some (add32 (ofn (exitAsked cause d)) 2), prCause := cause } } prState 3) 0x0108 0x3B 0 (3 + cause * 16)
      else if fld (exitAsked cause d) prState = 1 then
        raise (setFlds { exitAsked cause d with ras := { (exitAsked cause d).ras with entered := false } } [(prReq, 0), (prState, 0)])
          0x0108 0x3B 0 (cause * 16)
      else exitAsked cause d := rfl
  rw [hop, hstate]
  generalize hx0 : exitAsked cause d = x at *
  have hofn : ofn x = ofn d := htame.regs.fld (by decide)
  have hras : x.ras = d.ras := htame.only .ras (by decide)
  have htime : x.devTime = d.devTime := htame.only .devTime (by decide)
  have hstep (r : Raster) : Tame [.regs, .ras] [prReq.addr] d { x with ras := r } :=
    (htame.mono (by decide) (by decide)).trans ⟨Only.mono (within_ras ..).only (by decide), .of_regs (.refl _ _) rfl⟩
  by_cases h2 : fld d prState = 2
  · rw [if_pos h2, hofn, hras]
    have hx := hstep { d.ras with prExit := some (add32 (ofn d) 2), prCause := cause }
    have hr : ({ x with ras := { d.ras with prExit := some (add32 (ofn d) 2), prCause := cause } } : Dev).ras =
      { d.ras with prExit := some (add32 (ofn d) 2), prCause := cause } := rfl
    have hq : flag ({ x with ras := { d.ras with prExit := some (add32 (ofn d) 2), prCause := cause } } : Dev) prReq = flag x prReq := flag_of_regs rfl _
    generalize ({ x with ras := { d.ras with prExit := some (add32 (ofn d) 2), prCause := cause } } : Dev) = y at *
    have hset := hx.via (setFld_tame y prState 3) (by decide) (by decide)
    have hthree : fld (setFld y prState 3) prState = 3 := fld_setFld_same _ _ _ (by decide)
    have hreq : flag (setFld y prState 3) prReq = flag x prReq := by
      rw [flag, fld_setFld_other _ _ _ _ (by decide) (by decide)]; exact hq
    have hsras : (setFld y prState 3).ras = y.ras := setFld_ras ..
    generalize setFld y prState 3 = z at *
    have hraise := raise_tame (d := z) (unit := 0x3B) (by omega) 0x0108 0 (3 + cause * 16)
    have hev := raise_raised z 0x0108 0x3B 0 (arg := 3 + cause * 16) (by omega)
    have hrr : (raise z 0x0108 0x3B 0 (3 + cause * 16)).ras = z.ras := hraise.only .ras (by decide)
    refine ⟨(hset.mono (by decide) (by decide)).via hraise (by decide) (by decide), ?_, fun _ => ⟨?_, ?_, ?_⟩, fun h => by omega, fun h => by omega⟩
    · rw [if_neg (by omega), hraise.regs.flag (by decide), hreq, hx0]
    · rw [hraise.regs.fld (by decide), hthree]
    · rw [hrr, hsras, hr]
    · exact hev.of_eq (hset.only .devTime (by decide)) rfl
  · rw [if_neg h2]
    by_cases h1 : fld d prState = 1
    · rw [if_pos h1, hras]
      have hx := hstep { d.ras with entered := false }
      have hr : ({ x with ras := { d.ras with entered := false } } : Dev).ras = { d.ras with entered := false } := rfl
      generalize ({ x with ras := { d.ras with entered := false } } : Dev) = y at *
      have hset := hx.via (setFlds_tame y [(prReq, 0), (prState, 0)]) (by decide) (by decide)
      have hzero : fld (setFlds y [(prReq, 0), (prState, 0)]) prState = 0 ∧ fld (setFlds y [(prReq, 0), (prState, 0)]) prReq = 0 := by
        simp (disch := decide) only [setFlds_cons, setFlds_nil, fld_setFld_same, fld_setFld_other]
        decide
      have hsras : (setFlds y [(prReq, 0), (prState, 0)]).ras = y.ras := setFlds_ras ..
      generalize setFlds y [(prReq, 0), (prState, 0)] = z at *
      have hraise := raise_tame (d := z) (unit := 0x3B) (by omega) 0x0108 0 (cause * 16)
      have hev := raise_raised z 0x0108 0x3B 0 (arg := cause * 16) (by omega)
      have hrr : (raise z 0x0108 0x3B 0 (cause * 16)).ras = z.ras := hraise.only .ras (by decide)
      refine ⟨(hset.mono (by decide) (by decide)).via hraise (by decide) (by decide), ?_, fun h => by omega, fun _ => ⟨?_, ?_, ?_⟩, fun h => by omega⟩
      · rw [if_pos h1, hraise.regs.flag (by decide), flag, hzero.2]; rfl
      · rw [hraise.regs.fld (by decide), hzero.1]
      · rw [hrr, hsras, hr]
      · exact hev.of_eq (hset.only .devTime (by decide)) rfl
    · rw [if_neg h1]
      exact ⟨htame.mono (by decide) (by decide), by rw [if_neg h1, hx0], fun h => absurd h h2, fun h => absurd h h1, fun _ => hx0.symm⟩

/-! ## What a link reports (R346, R347, R358) -/

theorem dsoLink_ne {p : Nat} (h : p < 2) : dsoLink p ≠ prReq.addr ∧ dsoLink p ≠ aEvtLost := by
  obtain rfl | rfl : p = 0 ∨ p = 1 := by omega
  all_goals decide

theorem linkEvent_shows {p : Nat} (hp : p < 2) (d : Dev) : Tame [.regs, .usb, .root] [aEvtLost] d (linkEvent p d) ∧
    Raised 0x0510 (0x3B + p) 1 (fld d (linkRate p) + fld d (linkLanes p) * 8 + fld d (linkUp p) * 32) d (linkEvent p d) := by
  have hrate := fld_lt d (linkRate p)
  have hlanes := fld_lt d (linkLanes p)
  have hup := fld_lt d (linkUp p)
  simp only [linkRate, linkLanes, linkUp] at hrate hlanes hup
  exact ⟨raise_tame (by omega) _ _ _, raise_raised _ _ _ _ (by simp only [linkRate, linkLanes, linkUp]; omega)⟩

/-- What an exit by the output's own cause leaves as it was, of the link of a port. -/
theorem replayExit_link {p cause : Nat} (hp : p < 2) (hc : cause < 16) (d : Dev) {x : Fld} (hx : x.addr = dsoLink p) :
    fld (replayExit cause d) x = fld d x := by
  obtain ⟨hreq, hlost⟩ := dsoLink_ne hp
  exact (replayExit_exits d hc).tame.regs.fld (by simp [hx, hreq, hlost])

theorem linkChangeOp_eq {p : Nat} {up : Bool} {d : Dev} (hf : fenced d (0x3B + p) = false) (hu : portUsed (inForce d dsoMode) p = true)
    (hne : flag d (linkUp p) ≠ up) : linkChangeOp p up d =
      linkEvent p (if up then setFld d (linkUp p) up.toNat else replayExit 4 (setFld d (linkUp p) up.toNat)) := by
  unfold linkChangeOp
  rw [if_neg (by simp [hf, hu, hne])]

/-- A link of a port in use that comes up or goes down. -/
structure Changed (p : Nat) (up : Bool) (d e : Dev) : Prop where
  only : Only [.regs, .usb, .root, .ras] d e
  link : flag e (linkUp p) = up
  event : Raised 0x0510 (0x3B + p) 1 (fld d (linkRate p) + fld d (linkLanes p) * 8 + up.toNat * 32) d e
  kept : up = true → e.ras = d.ras
  exit : up = false → fld d prState = 2 → fld e prState = 3

/-- The report of a link that came up or went down, whatever the exit of replay did before it. -/
theorem linkEvent_after {p : Nat} (hp : p < 2) {up : Bool} {d x : Dev} (hx : Tame [.regs, .usb, .root, .ras] [dsoLink p, prReq.addr, aEvtLost] d x)
    (hrate : fld x (linkRate p) = fld d (linkRate p)) (hlanes : fld x (linkLanes p) = fld d (linkLanes p)) (hup : fld x (linkUp p) = up.toNat) :
    Only [.regs, .usb, .root, .ras] d (linkEvent p x) ∧ flag (linkEvent p x) (linkUp p) = up ∧
      Raised 0x0510 (0x3B + p) 1 (fld d (linkRate p) + fld d (linkLanes p) * 8 + up.toNat * 32) d (linkEvent p x) ∧
      (linkEvent p x).ras = x.ras ∧ fld (linkEvent p x) prState = fld x prState := by
  obtain ⟨htame, hev⟩ := linkEvent_shows hp x
  rw [hrate, hlanes, hup] at hev
  have hflag : flag (linkEvent p x) (linkUp p) = up := by
    rw [htame.regs.flag (by simp [(dsoLink_ne hp).2, linkUp]), flag, hup]
    cases up <;> rfl
  exact ⟨hx.only.via htame.only (by decide), hflag, hev.of_eq (hx.only .devTime (by decide)) rfl, htame.only .ras (by decide), htame.regs.fld (by decide)⟩

theorem linkChangeOp_changed {p : Nat} (hp : p < 2) {up : Bool} {d : Dev} (hf : fenced d (0x3B + p) = false) (hu : portUsed (inForce d dsoMode) p = true)
    (hne : flag d (linkUp p) ≠ up) : Changed p up d (linkChangeOp p up d) := by
  rw [linkChangeOp_eq hf hu hne]
  have hset := setFld_tame d (linkUp p) up.toNat
  have hup : fld (setFld d (linkUp p) up.toNat) (linkUp p) = up.toNat := by
    rw [fld_setFld_same _ _ _ (by show 5 + 1 ≤ 32; omega)]; cases up <;> rfl
  have hrate : fld (setFld d (linkUp p) up.toNat) (linkRate p) = fld d (linkRate p) := fld_setFld_other _ _ _ _ (by simp [linkUp]) (.inr (.inl (by simp [linkUp, linkRate])))
  have hlanes : fld (setFld d (linkUp p) up.toNat) (linkLanes p) = fld d (linkLanes p) := fld_setFld_other _ _ _ _ (by simp [linkUp]) (.inr (.inl (by simp [linkUp, linkLanes])))
  have hstate : fld (setFld d (linkUp p) up.toNat) prState = fld d prState := hset.regs.fld (by
    simpa [linkUp] using show prState.addr ≠ dsoLink p from (dsoLink_ne hp).1.symm)
  have hras : (setFld d (linkUp p) up.toNat).ras = d.ras := setFld_ras ..
  generalize setFld d (linkUp p) up.toNat = x at *
  cases up
  case true =>
    rw [if_pos rfl]
    obtain ⟨honly, hlink, hev, hr, -⟩ := linkEvent_after hp (hset.mono (by decide) (by simp [linkUp])) hrate hlanes hup
    exact ⟨honly, hlink, hev, fun _ => hr.trans hras, nofun⟩
  case false =>
    rw [if_neg (by decide)]
    have hexit := replayExit_exits (cause := 4) x (by decide)
    have hkept {y : Fld} (hy : y.addr = dsoLink p) := replayExit_link (cause := 4) hp (by decide) x hy
    obtain ⟨honly, hlink, hev, -, hst⟩ := linkEvent_after hp (d := d) (x := replayExit 4 x)
      ((hset.mono (by decide) (by simp [linkUp])).via hexit.tame (by decide) (by simp)) ((hkept rfl).trans hrate) ((hkept rfl).trans hlanes) ((hkept rfl).trans hup)
    exact ⟨honly, hlink, hev, nofun, fun _ h => hst.trans (hexit.replay (hstate.trans h)).1⟩

/-- The fields of a port's link register, as training sets them. -/
def linkFields (p r l up hpd fec : Nat) : List (Fld × Nat) := [(linkRate p, r), (linkLanes p, l), (linkUp p, up), (linkHpd p, hpd), (linkFec p, fec)]

theorem linkFields_tame (p r l up hpd fec : Nat) (d : Dev) : Tame [.regs] [dsoLink p] d (setFlds d (linkFields p r l up hpd fec)) :=
  (setFlds_tame d _).mono (by decide) (by simp [linkFields, linkRate, linkLanes, linkUp, linkHpd, linkFec])

/-- A device whose link register of a port holds these fields. -/
structure LinkIs (p r l : Nat) (up hpd fec : Bool) (e : Dev) : Prop where
  rate : fld e (linkRate p) = r
  lanes : fld e (linkLanes p) = l
  up : flag e (linkUp p) = up
  hpd : flag e (linkHpd p) = hpd
  fec : flag e (linkFec p) = fec

theorem LinkIs.after {p r l : Nat} {up hpd fec : Bool} {d e : Dev} (h : LinkIs p r l up hpd fec d) {m : List Nat} (hm : RegsBut m d e) (hp : dsoLink p ∉ m) :
    LinkIs p r l up hpd fec e :=
  ⟨(hm.fld hp).trans h.rate, (hm.fld hp).trans h.lanes, (hm.flag hp).trans h.up, (hm.flag hp).trans h.hpd, (hm.flag hp).trans h.fec⟩

theorem setFlds_linkFields {p : Nat} (hp : p < 2) {r l : Nat} (hr : r < 8) (hl : l < 4) (up hpd fec : Bool) (d : Dev) :
    LinkIs p r l up hpd fec (setFlds d (linkFields p r l up.toNat hpd.toNat fec.toNat)) := by
  have hbit : ∀ b : Bool, (b.toNat % 2 ^ 1 == 1) = b := by decide
  obtain rfl | rfl : p = 0 ∨ p = 1 := by omega
  all_goals
    unfold linkFields
    constructor
    all_goals simp (disch := decide) only [setFlds_cons, setFlds_nil, flag, fld_setFld_other, fld_setFld_same]
    · exact Nat.mod_eq_of_lt hr
    · exact Nat.mod_eq_of_lt hl
    all_goals exact hbit _

/-- The device once a link has trained: its replay capability, the fields of its register and what they let the engine do. -/
def trained (p r l : Nat) (up hpd fec cap : Bool) (d : Dev) : Dev :=
  updateCap (setFlds { d with ras := { d.ras with prCap := setBit d.ras.prCap p cap } } (linkFields p r l up.toNat hpd.toNat fec.toNat))

theorem updateCap_tame (d : Dev) : Tame [.regs] [prCap.addr] d (updateCap d) := setFld_tame _ _ _

theorem chooseBpp_shows (p : Nat) (d : Dev) : Tame [.ras] [] d (chooseBpp p d) ∧ (chooseBpp p d).ras.prCap = d.ras.prCap :=
  ⟨⟨(within_ras ..).only, .of_regs (.refl _ _) rfl⟩, rfl⟩

/-- A device whose link has trained, or reports that it has none. -/
structure Trained (p r l : Nat) (up hpd fec cap : Bool) (d e : Dev) : Prop where
  only : Only [.regs, .usb, .root, .ras] d e
  cap : e.ras.prCap = setBit d.ras.prCap p cap
  link : LinkIs p r l up hpd fec e

/-- What follows changes neither the link nor what it can do. -/
theorem Trained.via {p r l : Nat} {up hpd fec cap : Bool} {d e f : Dev} (h : Trained p r l up hpd fec cap d e) (hp : p < 2)
    (ht : Tame [.regs, .usb, .root, .ras] [prReq.addr, aEvtLost] e f) (hc : f.ras.prCap = e.ras.prCap) : Trained p r l up hpd fec cap d f :=
  ⟨h.only.trans ht.only, hc.trans h.cap, h.link.after ht.regs (by simp [dsoLink_ne hp])⟩

theorem trained_shows {p r l : Nat} (hp : p < 2) (hr : r < 8) (hl : l < 4) (up hpd fec cap : Bool) (d : Dev) :
    Trained p r l up hpd fec cap d (trained p r l up hpd fec cap d) := by
  unfold trained
  have hras : Only [.ras] d { d with ras := { d.ras with prCap := setBit d.ras.prCap p cap } } := (within_ras ..).only
  have hcap : ({ d with ras := { d.ras with prCap := setBit d.ras.prCap p cap } } : Dev).ras.prCap = setBit d.ras.prCap p cap := rfl
  generalize ({ d with ras := { d.ras with prCap := setBit d.ras.prCap p cap } } : Dev) = x at *
  have hset := linkFields_tame p r l up.toNat hpd.toNat fec.toNat x
  have hlink := setFlds_linkFields hp hr hl up hpd fec x
  generalize setFlds x (linkFields p r l up.toNat hpd.toNat fec.toNat) = y at *
  have hupd := updateCap_tame y
  generalize updateCap y = z at *
  have honly : Only [.regs, .usb, .root, .ras] d z := ((hras.mono (by decide)).via hset.only (by decide)).via hupd.only (by decide)
  have hc : z.ras.prCap = setBit d.ras.prCap p cap := by rw [hupd.only .ras (by decide), hset.only .ras (by decide), hcap]
  exact ⟨honly, hc, hlink.after hupd.regs (by simpa using show dsoLink p ≠ prCap.addr from (dsoLink_ne hp).1)⟩

theorem linkEvent_kept {p : Nat} (hp : p < 2) (d : Dev) : Tame [.regs, .usb, .root, .ras] [prReq.addr, aEvtLost] d (linkEvent p d) ∧
    (linkEvent p d).ras.prCap = d.ras.prCap := by
  obtain ⟨htame, -⟩ := linkEvent_shows hp d
  exact ⟨htame.mono (by decide) (by decide), congrArg Raster.prCap (htame.only .ras (by decide))⟩

theorem replayExit_prCap {cause : Nat} (hc : cause < 16) (d : Dev) : (replayExit cause d).ras.prCap = d.ras.prCap := by
  obtain ⟨-, -, h2, h1, h0⟩ := replayExit_exits d hc
  have hstate : fld d prState < 4 := fld_lt d prState
  obtain h | h | h : fld d prState = 2 ∨ fld d prState = 1 ∨ (fld d prState = 0 ∨ fld d prState = 3) := by omega
  · rw [(h2 h).2.1]
  · rw [(h1 h).2.1]
  · rw [h0 h, (exitAsked_tame _ _).only .ras (by decide)]

theorem linkTrainOp_up {p rate lanes : Nat} (hp : p < 2) {fec cap : Bool} {d : Dev} (hf : fenced d (0x3B + p) = false)
    (hu : portUsed (inForce d dsoMode) p = true) :
    Trained p (min rate (min 6 (fld d (dsoMaxRate p)))) (min lanes (min 2 (fld d (dsoMaxLanes p)))) true true fec cap d
      (linkTrainOp p rate lanes true fec cap d) := by
  have hop : linkTrainOp p rate lanes true fec cap d =
      if flag d (linkUp p) then chooseBpp p (trained p (min rate (min 6 (fld d (dsoMaxRate p)))) (min lanes (min 2 (fld d (dsoMaxLanes p)))) true true fec cap d)
      else linkEvent p (chooseBpp p (trained p (min rate (min 6 (fld d (dsoMaxRate p)))) (min lanes (min 2 (fld d (dsoMaxLanes p)))) true true fec cap d)) := by
    unfold linkTrainOp
    rw [if_neg (by simp [hf])]
    exact if_pos (by simpa [inForce] using hu)
  rw [hop]
  have hshow := trained_shows hp (r := min rate (min 6 (fld d (dsoMaxRate p)))) (l := min lanes (min 2 (fld d (dsoMaxLanes p)))) (by omega) (by omega) true true fec cap d
  generalize trained p _ _ true true fec cap d = x at *
  obtain ⟨htame, hc⟩ := chooseBpp_shows p x
  have hbpp := hshow.via hp (htame.mono (by decide) (by simp)) hc
  split
  · exact hbpp
  · exact hbpp.via hp (linkEvent_kept hp _).1 (linkEvent_kept hp _).2

theorem linkTrainOp_down {p rate lanes : Nat} (hp : p < 2) {hpd fec cap : Bool} {d : Dev} (hf : fenced d (0x3B + p) = false)
    (hu : portUsed (inForce d dsoMode) p = false ∨ hpd = false) : Trained p 0 0 false hpd false cap d (linkTrainOp p rate lanes hpd fec cap d) := by
  have hop : linkTrainOp p rate lanes hpd fec cap d =
      if flag d (linkUp p) then linkEvent p (replayExit 4 (trained p 0 0 false hpd false cap d)) else trained p 0 0 false hpd false cap d := by
    unfold linkTrainOp
    rw [if_neg (by simp [hf])]
    exact if_neg (by simpa [inForce, or_iff_not_imp_left] using hu)
  rw [hop]
  have hshow := trained_shows hp (r := 0) (l := 0) (by omega) (by omega) false hpd false cap d
  generalize trained p 0 0 false hpd false cap d = x at *
  split
  · have hexit := hshow.via hp (replayExit_exits x (cause := 4) (by decide)).tame (replayExit_prCap (by decide) x)
    exact hexit.via hp (linkEvent_kept hp _).1 (linkEvent_kept hp _).2
  · exact hshow

/-! ## The cadence lock loses its input (R350) -/

/-- A lock in hold that was not settled reports it only when it held before. -/
structure Held (mismatch : Bool) (d e : Dev) : Prop where
  only : Only [.regs, .usb, .root] d e
  state : fld e lockState = 3
  kind : fld e lockMismatch = mismatch.toNat
  event : fld d lockState = 2 → Raised 0x0131 0x3B 1 (3 + mismatch.toNat * 4) d e

theorem setLock_held (m : Bool) (d : Dev) : Held m d (setLock 3 m d) := by
  have hop : setLock 3 m d = if fld d lockState = 2 then raise (setFld (setFlds d [(lockState, 3), (lockMismatch, m.toNat)]) clkLatency 0) 0x0131 0x3B 1 (3 + m.toNat * 4)
      else setFld (setFlds d [(lockState, 3), (lockMismatch, m.toNat)]) clkLatency 0 := by
    unfold setLock
    simp
  have hset := (setFlds_tame d [(lockState, 3), (lockMismatch, m.toNat)]).only
  have hstate : fld (setFlds d [(lockState, 3), (lockMismatch, m.toNat)]) lockState = 3 := by
    simp (disch := decide) only [setFlds_cons, setFlds_nil, fld_setFld_same, fld_setFld_other]
    rfl
  have hmis : fld (setFlds d [(lockState, 3), (lockMismatch, m.toNat)]) lockMismatch = m.toNat := by
    simp (disch := decide) only [setFlds_cons, setFlds_nil, fld_setFld_same]
    cases m <;> rfl
  rw [hop]
  generalize setFlds d [(lockState, 3), (lockMismatch, m.toNat)] = x at *
  have hlat := setFld_tame x clkLatency 0
  generalize setFld x clkLatency 0 = y at *
  have hy : Only [.regs] d y := hset.trans hlat.only
  rw [← hlat.regs.fld (by decide)] at hstate hmis
  split
  · have hraise := raise_tame (d := y) (unit := 0x3B) (by omega) 0x0131 1 (3 + m.toNat * 4)
    have hev := raise_raised y 0x0131 0x3B 1 (arg := 3 + m.toNat * 4) (by cases m <;> decide)
    exact ⟨(hy.mono (by decide)).trans hraise.only, (hraise.regs.fld (by decide)).trans hstate, (hraise.regs.fld (by decide)).trans hmis,
      fun _ => hev.of_eq (hy .devTime (by decide)) rfl⟩
  next hn => exact ⟨hy.mono (by decide), hstate, hmis, fun h => absurd h hn⟩

theorem cadenceTimeoutOp_late {p t : Nat} {d : Dev} (hp : lockPort d = some p) (ht : d.clk.inStart = some t) (hf : isFollower d = false)
    (h3 : fld d lockState ≠ 3) (h0 : fld d lockState ≠ 0) (hlate : 2 * fld d (intFperiod p) ≤ d.devTime.toNat - t) :
    cadenceTimeoutOp d = setLock 3 (flag d lockMismatch) { d with clk := { d.clk with inStart := none, holdIn := 0, goodE := 0 } } := by
  unfold cadenceTimeoutOp
  simp only [hp, ht]
  rw [if_pos (by simp [hf, h3, h0, hlate])]
  rfl

theorem cadenceTimeoutOp_idle {d : Dev} (h : lockPort d = none ∨ d.clk.inStart = none) : cadenceTimeoutOp d = d := by
  unfold cadenceTimeoutOp
  obtain h | h := h
  · rw [h]
  · rw [h]; cases lockPort d <;> rfl

/-! ## DSO_COMMIT and the requests -/

theorem commitWriteOp_odd {v : Word} (hv : v.toNat % 2 = 1) (d : Dev) : commitWriteOp v d = setFld (replayExit 6 d) dsoPending 1 := if_neg (by omega)

theorem commitWriteOp_even {v : Word} (hv : v.toNat % 2 = 0) (d : Dev) : commitWriteOp v d = d := if_pos hv

theorem replayRequestOp_refused {d : Dev} (h : replayCapable d = false ∨ d.root.apply ≠ none ∨ flag d dsoPending = true) :
    replayRequestOp d = setFld d prErr 1 := by
  refine if_pos ?_
  obtain h | h | h := h
  · simp [h]
  · simp [Option.isSome_iff_ne_none, h]
  · simp [h]

theorem replayRequestOp_taken {d : Dev} (h : replayCapable d = true) (ha : d.root.apply = none) (hp : flag d dsoPending = false) :
    replayRequestOp d = if fld d prState ≠ 0 then setFld d prReq 1 else raise (setFlds d [(prReq, 1), (prState, 1)]) 0x0108 0x3B 0 1 :=
  if_neg (by simp [h, ha, hp])

theorem flag_set (d : Dev) {x : Fld} (hx : x.lo + 1 ≤ 32) (hw : x.width = 1) : flag (setFld d x 1) x = true :=
  flag_setFld_same d x true (by omega) (by omega)

/-- An exit asked for once a device has seen to REQ: `x` is `d` but for REQ. -/
theorem exit_after {cause : Nat} (hc : cause < 16) {d x : Dev} (hx : Tame [.regs] [prReq.addr] d x) (hst : fld x prState = fld d prState)
    (hreq : fld d prState ≠ 0 → flag (exitAsked cause x) prReq = false) :
    Only [.regs, .usb, .root, .ras] d (replayExit cause x) ∧ RegsBut [prReq.addr, aEvtLost] d (replayExit cause x) ∧
    (fld d prState = 2 → fld (replayExit cause x) prState = 3 ∧ flag (replayExit cause x) prReq = false ∧
      (replayExit cause x).ras = { d.ras with prExit := some (add32 (ofn d) 2), prCause := cause } ∧
      Raised 0x0108 0x3B 0 (3 + cause * 16) d (replayExit cause x)) ∧
    (fld d prState = 1 → fld (replayExit cause x) prState = 0 ∧ flag (replayExit cause x) prReq = false ∧
      (replayExit cause x).ras = { d.ras with entered := false } ∧ Raised 0x0108 0x3B 0 (cause * 16) d (replayExit cause x)) ∧
    (fld d prState = 0 ∨ fld d prState = 3 → replayExit cause x = exitAsked cause x) := by
  obtain ⟨htame, hq, h2, h1, h0⟩ := replayExit_exits x hc
  have hofn : ofn x = ofn d := hx.regs.fld (by decide)
  have hras : x.ras = d.ras := hx.only .ras (by decide)
  have htime := hx.only .devTime (by decide)
  rw [hst] at hq h2 h1 h0
  rw [hofn, hras] at h2
  rw [hras] at h1
  refine ⟨(hx.only.mono (by decide)).trans htame.only, (hx.regs.mono (by decide)).trans htame.regs, fun h => ?_, fun h => ?_, h0⟩
  · obtain ⟨ha, hb, hev⟩ := h2 h
    exact ⟨ha, by rw [hq, if_neg (by omega)]; exact hreq (by omega), hb, hev.of_eq htime rfl⟩
  · obtain ⟨ha, hb, hev⟩ := h1 h
    exact ⟨ha, by rw [hq, if_pos h], hb, hev.of_eq htime rfl⟩

/-- A request to leave replay with none entered or in force: REQ at most is cleared. -/
theorem exit_idle {cause : Nat} {d x : Dev} (hx : Tame [.regs] [prReq.addr] d x) (hst : fld x prState = fld d prState)
    (hop : replayExit cause x = exitAsked cause x) : Only [.regs] d (replayExit cause x) ∧ fld (replayExit cause x) prState = fld d prState ∧
      RegsBut [prReq.addr] d (replayExit cause x) := by
  have hasked := hx.trans (exitAsked_tame cause x)
  rw [hop]
  exact ⟨hasked.only, (exitAsked_state cause x).trans hst, hasked.regs⟩

/-- Settles O46. -/
theorem outputFollowsRequestsAndLinks : Obligations.OutputFollowsRequestsAndLinks := by
  unfold Obligations.OutputFollowsRequestsAndLinks
  intro s hal
  have hsix := exit_after (cause := 6) (by decide) (.refl [.regs] [prReq.addr] s.dev) rfl (exitAsked_req · (.inr (.inr rfl)))
  refine ⟨fun v hv => ?_, fun v hv => ?_, fun hst hcap hap hpend => ?_, fun href => ?_, fun hst hcap hap hpend => ?_, ?_, fun p up hf hu hne => ?_, fun p up hidle => ?_,
    fun p rate lanes hpd fec cap hf => ?_, fun p rate lanes hpd fec cap hf => ?_, fun p t hp ht hfol h3 h0 hlate => ?_, fun hidle => ?_⟩
  · exact does_onDev _ rfl hal (by rw [commitWriteOp_even hv]; exact .refl _ _) trivial
  · obtain ⟨honly, -, h2, h1, h0⟩ := hsix
    have hset := setFld_tame (replayExit 6 s.dev) dsoPending 1
    have hstate : fld (setFld (replayExit 6 s.dev) dsoPending 1) prState = fld (replayExit 6 s.dev) prState := hset.regs.fld (by decide)
    have hras : (setFld (replayExit 6 s.dev) dsoPending 1).ras = (replayExit 6 s.dev).ras := setFld_ras ..
    refine does_onDev _ rfl hal (by rw [commitWriteOp_odd hv]; exact honly.via hset.only (by decide)) ?_
    rw [commitWriteOp_odd hv, hstate, hras]
    refine ⟨flag_set _ (by decide) rfl, fun h => ?_, fun h => ?_, fun h => ?_⟩
    · rw [replayExit_idle h]
      exact ⟨(setFld_tame _ _ _).only, (setFld_tame _ _ _).regs⟩
    · obtain ⟨ha, -, hb, -⟩ := h2 h
      exact ⟨ha, by rw [hb]⟩
    · obtain ⟨ha, -, hb, -⟩ := h1 h
      exact ⟨ha, by rw [hb]⟩
  · have hop : replayRequestOp s.dev = setFld s.dev prReq 1 := by rw [replayRequestOp_taken hcap hap hpend, if_pos hst]
    refine does_onDev _ rfl hal (by rw [hop]; exact (setFld_tame _ _ _).only) ?_
    rw [hop]
    exact ⟨flag_set _ (by decide) rfl, fld_setFld_other _ _ _ _ (by decide) (by decide), (setFld_tame _ _ _).regs⟩
  · have hop := replayRequestOp_refused href
    refine does_onDev _ rfl hal (by rw [hop]; exact (setFld_tame _ _ _).only) ?_
    rw [hop]
    exact ⟨flag_set _ (by decide) rfl, fld_setFld_other _ _ _ _ (by decide) (by decide), (setFld_tame _ _ _).regs⟩
  · have hop : replayRequestOp s.dev = raise (setFlds s.dev [(prReq, 1), (prState, 1)]) 0x0108 0x3B 0 1 := by
      rw [replayRequestOp_taken hcap hap hpend, if_neg (by omega)]
    have hset := setFlds_tame s.dev [(prReq, 1), (prState, 1)]
    have hreq : fld (setFlds s.dev [(prReq, 1), (prState, 1)]) prReq = 1 ∧ fld (setFlds s.dev [(prReq, 1), (prState, 1)]) prState = 1 := by
      simp (disch := decide) only [setFlds_cons, setFlds_nil, fld_setFld_same, fld_setFld_other]
      decide
    refine does_onDev replayRequestOp rfl hal ?_ ?_
    all_goals
      rw [hop]
      generalize setFlds s.dev [(prReq, 1), (prState, 1)] = x at *
      have hraise := raise_tame (d := x) (unit := 0x3B) (by omega) 0x0108 0 1
    · exact (hset.only.mono (by decide)).trans hraise.only
    · have hev := raise_raised x 0x0108 0x3B 0 (arg := 1) (by omega)
      exact ⟨(hraise.regs.flag (by decide)).trans (flag_iff.mpr hreq.1), (hraise.regs.fld (by decide)).trans hreq.2, hev.of_eq (hset.only .devTime (by decide)) rfl,
        (hset.regs.mono (by decide)).trans (hraise.regs.mono (by decide))⟩
  · rintro c cause (⟨rfl, rfl⟩ | ⟨rfl, rfl⟩)
    · have hset := setFld_tame s.dev prReq 0
      have hst : fld (setFld s.dev prReq 0) prState = fld s.dev prState := fld_setFld_other _ _ _ _ (by decide) (by decide)
      have hreq : flag (setFld s.dev prReq 0) prReq = false := flag_setFld_same _ prReq false (by decide) (by decide)
      have hasked : exitAsked 1 (setFld s.dev prReq 0) = setFld s.dev prReq 0 := if_neg (by simp)
      obtain ⟨honly, hregs, h2, h1, h0⟩ := exit_after (cause := 1) (by decide) hset hst (fun _ => by rw [hasked]; exact hreq)
      refine ⟨fun h => does_onDev (fun d => replayExit 1 (setFld d prReq 0)) rfl hal honly ?_, fun h => does_onDev (fun d => replayExit 1 (setFld d prReq 0)) rfl hal honly (h1 h), fun h => ?_⟩
      · obtain ⟨ha, hb, hr, hev⟩ := h2 h
        exact ⟨ha, hb, hr, hev, hregs⟩
      · obtain ⟨hidle, hkept, hbut⟩ := exit_idle hset hst (h0 h)
        exact does_onDev (fun d => replayExit 1 (setFld d prReq 0)) rfl hal hidle ⟨hkept, hbut, fun _ => by rw [h0 h, hasked]; exact hreq⟩
    · obtain ⟨honly, hregs, h2, h1, h0⟩ := exit_after (cause := 4) (by decide) (.refl [.regs] [prReq.addr] s.dev) rfl (exitAsked_req · (.inl rfl))
      refine ⟨fun h => does_onDev (replayExit 4) rfl hal honly ?_, fun h => does_onDev (replayExit 4) rfl hal honly (h1 h), fun h => ?_⟩
      · obtain ⟨ha, hb, hr, hev⟩ := h2 h
        exact ⟨ha, hb, hr, hev, hregs⟩
      · obtain ⟨hidle, hkept, hbut⟩ := exit_idle (.refl [.regs] [prReq.addr] s.dev) rfl (h0 h)
        exact does_onDev (replayExit 4) rfl hal hidle ⟨hkept, hbut, nofun⟩
  · obtain ⟨honly, hlink, hev, hkept, hexit⟩ := linkChangeOp_changed p.isLt hf hu hne
    exact does_onDev _ rfl hal honly ⟨hlink, hev, hkept, hexit⟩
  · have hop : linkChangeOp p.val up s.dev = s.dev := if_pos (by simpa [or_assoc] using hidle)
    exact does_onDev _ rfl hal (by rw [hop]; exact .refl _ _) trivial
  · by_cases hup : portUsed (inForce s.dev dsoMode) p.val = true ∧ hpd = true
    · obtain ⟨hu, rfl⟩ := hup
      obtain ⟨honly, hcap, hrate, hlanes, hl, hh, hfec⟩ := linkTrainOp_up (rate := rate) (lanes := lanes) (fec := fec) (cap := cap) p.isLt hf hu
      exact does_onDev _ rfl hal honly ⟨hcap, fun _ => ⟨hrate, hlanes, hl, hh, hfec⟩, by simp [hu]⟩
    · have hdown : portUsed (inForce s.dev dsoMode) p.val = false ∨ hpd = false := by simpa [or_iff_not_imp_left] using hup
      obtain ⟨honly, hcap, hrate, hlanes, hl, hh, -⟩ := linkTrainOp_down (rate := rate) (lanes := lanes) (fec := fec) (cap := cap) p.isLt hf hdown
      exact does_onDev _ rfl hal honly ⟨hcap, (absurd · hup), fun _ => ⟨hrate, hlanes, hl, hh⟩⟩
  · have hop : linkTrainOp p.val rate lanes hpd fec cap s.dev = s.dev := if_pos hf
    exact does_onDev (linkTrainOp p.val rate lanes hpd fec cap) rfl hal (by rw [hop]; exact .refl _ _) trivial
  · have hop := cadenceTimeoutOp_late hp ht hfol h3 h0 hlate
    have hclk : Only [.clk] s.dev { s.dev with clk := { s.dev.clk with inStart := none, holdIn := 0, goodE := 0 } } := (within_clk ..).only
    obtain ⟨honly, hst, hkind, hev⟩ := setLock_held (flag s.dev lockMismatch) { s.dev with clk := { s.dev.clk with inStart := none, holdIn := 0, goodE := 0 } }
    refine does_onDev cadenceTimeoutOp rfl hal (by rw [hop]; exact (hclk.mono (by decide)).via honly (by decide)) ?_
    rw [hop]
    exact ⟨hst, hkind, honly .clk (by decide), fun h => (hev h).of_eq rfl rfl⟩
  · have hop := cadenceTimeoutOp_idle hidle
    exact does_onDev _ rfl hal (by rw [hop]; exact .refl _ _) trivial

end Sys2Proof.Machine
end

section
/-! PROOF. Four statements that a state which meets their hypotheses refutes: a camera frame with check errors whose port retires at once
(R479, R493), a Ring that a source change empties and the line Ring of the port shares (R302, R311), a drain list that names no Twig, and a
page record whose place is none of the four (R78). -/

namespace Sys2Proof.Machine

/-- A frame of port 0 that is landing, with one check error. -/
def checkedFrame : CamFrame :=
  { port := 0, ctx := 0, cfn := 0, base := 0, t0 := 0, out := false, lines := [], chk := 1, clamped := false, short := false, ended := false
    entered := false, done := 0, newP := false, seq := 0, params := [], hist := [], awb := [], focus := [], free0 := 0 }

/-- That frame lands while one CHECK is enough to retire a camera port. -/
def checkedState : State := { State.reset with
  dev := { setFlds Dev.reset [(clkPllLock, 1), (polThresh 5, 1)] with boot := 5, cam := { Cam.reset with frames := [checkedFrame] } } }

theorem checkedState_alive : alive checkedState.dev = true := by decide +kernel

/-- Refutes O59: the last event of that frame's end is UNIT_RETIRED, not the one of its check errors. -/
theorem not_cameraPortsTakeFrames : ¬ Obligations.CameraPortsTakeFrames := by
  unfold Obligations.CameraPortsTakeFrames
  intro h
  obtain ⟨-, -, -, -, -, -, -, -, hend, -⟩ := h checkedState 0 _ checkedState_alive rfl
  obtain ⟨-, -, -, hchk, -⟩ := next_of_does _ rfl checkedState_alive (hend checkedFrame (by decide +kernel) (by decide))
  have hraised := hchk (by decide) (by decide +kernel) (by decide)
  have hlast : (camEnd 0 checkedState.dev).root.lastEv.map (·.code) = some 0x0803 := by decide +kernel
  have hev : (camEnd 0 checkedState.dev).root.lastEv = some _ := hraised
  rw [hev] at hlast
  exact absurd (Option.some.inj hlast) (by decide)

/-- The image of one tensor, a history tensor whose valid-Ring is Ring 0, the line Ring of video port 0. -/
def sharedRingImage : Bytes := [0, 0, 0, 0, 0, 0, 1] ++ List.replicate 57 0 ++ [2, 0, 0, 0, 80, 0, 0, 0, 32] ++ List.replicate 14 0 ++ [4] ++ List.replicate 24 0

/-- A stream of 640 by 480 pixels at 60 frames per second. -/
def vgaVideo : VideoDesc :=
  { width := 640, height := 480, enc := 0, bpc := 0, range := 0, colorimetry := 0, htotal := 800, vtotal := 525, fperiod := 16666667
    dscBpp := 0, dscSlices := 0 }

/-- Video port 0 has shown another stream, its line Ring stands at 5, and that image is in force. -/
def sharedRingState : State := { State.reset with
  dev := { setFlds Dev.reset [(clkPllLock, 1), (intLocked 0, 1)] with
    boot := 5
    root := { Dev.reset.root with space0 := some { img := sharedRingImage, meas := [], k := 0, idx := 0, area := 0 } }
    ring := { Dev.reset.ring with val := [(0, 5)] }
    inp := { Dev.reset.inp with p0 := { Dev.reset.inp.p0 with begun := true } } } }

theorem sharedRingState_alive : alive sharedRingState.dev = true := by decide +kernel

/-- Refutes O49: the source change empties the history, and the frame's base is the emptied Ring's 0 in place of 5. -/
theorem not_intakeFramesBeginFillAndEnd : ¬ Obligations.IntakeFramesBeginFillAndEnd := by
  unfold Obligations.IntakeFramesBeginFillAndEnd
  intro h
  obtain ⟨-, hbegin, -⟩ := h sharedRingState 0 sharedRingState_alive
  have hdoes := hbegin vgaVideo (by decide +kernel) (by decide +kernel) (by decide +kernel) (by decide +kernel) (by decide +kernel) (by decide +kernel)
  obtain ⟨-, -, -, -, ⟨f, hhead, hbase, -⟩, -⟩ := next_of_does _ rfl sharedRingState_alive hdoes
  have hzero : (port (intakeStartOp sharedRingState.nv 0 vgaVideo sharedRingState.dev) 0).frames.head?.map (·.base) = some 0 := by decide +kernel
  have hfive : ringVal sharedRingState.dev 0 = 5 := by decide +kernel
  rw [show (port (intakeStartOp sharedRingState.nv 0 vgaVideo sharedRingState.dev) 0).frames.head? = some f from hhead] at hzero
  exact absurd ((Option.some.inj hzero).symm.trans (hbase.trans hfive)) (by decide)

/-- A context whose oldest drain names Twig 19,394: its parity counter would stand in STUMP's status word. -/
def strayDrainCtx : Ctx := { Ctx.start [] 0 0 false 0 0 0 with drains := [(19394, 0)] }

/-- Branch 0 runs that context; one error fences the unit of the last bucket class. -/
def strayDrainState : State := { State.reset with
  dev := { setFlds Dev.reset [(clkPllLock, 1), (polThresh 6, 1), (stumpActive, 0), (stumpCause, 0), (stumpAvail, 0)] with
    boot := 5, br := [(0, { Branch.reset with ctxs := [strayDrainCtx], cur := some (0, 0) })] } }

theorem strayDrainState_alive : alive strayDrainState.dev = true := by decide +kernel

/-- Refutes O53: the fence that the parity error brings about rewrites the word that was counted in. -/
theorem not_tilesDrainAndAuditsArm : ¬ Obligations.TilesDrainAndAuditsArm := by
  unfold Obligations.TilesDrainAndAuditsArm
  intro h
  obtain ⟨-, -, -, -, -, hbad, -⟩ := h 0 [0] [] false strayDrainState strayDrainState_alive
  have hcount := next_of_does _ rfl strayDrainState_alive (hbad strayDrainCtx 19394 0 [] (by decide +kernel) rfl (by decide))
  have hword : (reg (tileDrainOp strayDrainState.nv 0 [0] [] false strayDrainState.dev) (aTwigParity 0 19394)).toNat = 17 := by decide +kernel
  have hone : min ((reg strayDrainState.dev (aTwigParity 0 19394)).toNat + 1) 0xFFFFFFFF = 1 := by decide +kernel
  exact absurd (hword.symm.trans (hcount.trans hone)) (by decide)

theorem branch_setBranch_same (d : Dev) (n : Nat) (x : Branch) : branch (setBranch d n x) n = x := Map.get_put_same ..

theorem mcast_sWrite (d : Dev) (n a : Nat) (bs : Bytes) : (branch (sWrite d n a bs) n).mcast = (branch d n).mcast := by
  rw [sWrite, branch_setBranch_same]

/-- A multicast tile that lands takes its request away. -/
theorem mcast_mcastLand (bs : Bytes) (m : Mcast) (d : Dev) (hrel : m.rel = false) (hn : m.ntile = 1) (hmc : (branch d m.logic).mcast = [m]) :
    (branch (mcastLand bs m d) m.logic).mcast = [] := by
  have herase : ∀ k, k = 0 → [m].eraseIdx k = [] := by rintro k rfl; rfl
  simp only [mcastLand, hrel, hn, List.range_one, List.foldl_cons, List.foldl_nil, mcast_sWrite, branch_setBranch_same, hmc, Bool.false_eq_true, if_false]
  apply herase
  simp only [List.length_singleton, lowest, List.range_one, List.find?_singleton, List.getElem?_cons_zero]
  split <;> rfl

/-- A request that is due and alone is served once its read is, and goes. -/
theorem mcast_multicastFetchOp (nv : NonVol) (tree : Nat) (m : Mcast) (d : Dev) (w : Who) (hrel : m.rel = false) (hn : m.ntile = 1)
    (hreq : mcastReqs d tree = [m]) (hmask : treeMask (imgOf d m.out) tree = 0)
    (hw : w = { sp := if m.out then 1 else 0, pipe := kPipe (imgOf d m.out) m.task, pfn := m.pfn, unit := 0x10 + m.logic, task := m.task, host := false })
    (hread : (vread d w (m.addr (imgOf d m.out)) (m.ntile * mcastTb (imgOf d m.out) m)).2.2 = true) (hmc : (branch d m.logic).mcast = [m]) :
    (branch (multicastFetchOp nv tree [] d) m.logic).mcast = [] := by
  have hpairs : m.pairs m = true := by simp [Mcast.pairs]
  have hbr := (vread_within d w (m.addr (imgOf d m.out)) (m.ntile * mcastTb (imgOf d m.out) m)).only .br (by decide)
  unfold multicastFetchOp
  extract_lets reqs due
  have hfind : reqs.find? due = some m := by
    rw [show reqs = [m] from hreq]
    simp [due, hmask]
  have hall (d' : Dev) : (if brInService nv d' m.logic then reqs.filter (fun r => r.pairs m && brInService nv d' r.logic) else [m]) = [m] := by
    rw [show reqs = [m] from hreq]
    split <;> simp [*]
  rw [hfind]
  simp only [plantTrunk, trunkErrs, List.foldl_nil, ← hw, List.any_nil, Bool.not_false]
  generalize vread d w (m.addr (imgOf d m.out)) (m.ntile * mcastTb (imgOf d m.out) m) = r at hread hbr ⊢
  obtain ⟨d', bs, ok⟩ := r
  subst hread
  simp only [hall, List.foldl_cons, List.foldl_nil]
  exact mcast_mcastLand bs m d' hrel hn (by rw [← hmc]; exact congrArg (fun b => (Map.get Branch.reset b m.logic).mcast) hbr)

/-- A multicast request of Branch 0 for one tile at address 0, of a tree that no Branch is on. -/
def strayRequest : Mcast :=
  { tree := 0, tensor := 0, slot := 0, tile := 0, ntile := 1, region := 0, t0 := 0, rel := false, task := 0, pfn := 0, out := false
    logic := 0, sigNo := 0 }

/-- That request waits, and the page that it reads is in place 4, which is none of R78's. -/
def strayPageState : State := { State.reset with
  dev := { setFlds Dev.reset [(clkPllLock, 1)] with
    boot := 5
    trk := { Dev.reset.trk with map0 := [(0, { Page.none with loc := 4 })] }
    br := [(0, { Branch.reset with mcast := [strayRequest] })] } }

theorem strayPageState_alive : alive strayPageState.dev = true := by decide +kernel

/-- Refutes O57: the Trunk reads such a page as a resident one, so the request is served though the page is not at hand. -/
theorem not_tilesMoveBetweenTrunkAndBranch : ¬ Obligations.TilesMoveBetweenTrunkAndBranch := by
  unfold Obligations.TilesMoveBetweenTrunkAndBranch
  rintro ⟨-, -, -, hmcast⟩
  obtain ⟨-, hfetch⟩ := hmcast 0 [strayRequest] strayPageState strayPageState_alive (by decide +kernel)
  obtain ⟨hwait, -⟩ := hfetch strayRequest [] 0 (0, 4096) [strayRequest] (by decide +kernel) (by decide +kernel) (by decide) (by decide +kernel) (by decide +kernel)
  have haway : ¬ AtHand strayPageState.dev 0 [(0, 4096)] := fun hat =>
    absurd (hat (0, 4096) (List.mem_singleton.2 rfl) (0, 0, 4096) (by decide +kernel)) (by decide +kernel)
  obtain ⟨-, hkept⟩ := next_of_does _ rfl strayPageState_alive (hwait haway)
  have hserved : (branch (multicastFetchOp strayPageState.nv 0 [] strayPageState.dev) 0).mcast = [] :=
    mcast_multicastFetchOp strayPageState.nv 0 strayRequest strayPageState.dev _ rfl rfl (by decide +kernel) (by decide +kernel) rfl
      (by decide +kernel) (by decide +kernel)
  exact absurd (hserved.symm.trans (hkept 0)) (by decide +kernel)

end Sys2Proof.Machine
end

section
/-! PROOF. What accesses to the Trunk leave alone: of the registers they change the counts of evictions, wasted staging and stalls only
(R77, R78, R80, R91). -/

namespace Sys2Proof.Machine

/-- The registers that a demand for a page changes. -/
abbrev demandRegs : List Nat := [aEvict, aStageWaste, aStalls]

theorem Tame.of_only {l : List Part} {d e : Dev} (h : Only l d e) (hl : Part.regs ∉ l) (r : List Nat) : Tame l r d e := ⟨h, .of_only h hl r⟩

/-- What changes the Trunk only. -/
theorem Within.trunk {d e : Dev} (h : Within [.trk] d e) : Tame [.regs, .trk] demandRegs d e :=
  (Tame.of_only h.only (by decide) demandRegs).mono (by decide) (List.Subset.refl _)

theorem countEvicted_tame (p : Page) (d : Dev) : Tame [.regs, .trk] demandRegs d (countEvicted p d) :=
  ⟨(countEvicted_shows p d).1.mono (by decide), (countEvicted_shows p d).2.1.mono (by decide)⟩

theorem evictPage_tame (d : Dev) (sp v : Nat) : Tame [.regs, .trk] demandRegs d (evictPage d sp v) := by
  unfold evictPage
  dsimp only
  split
  · exact ((countEvicted_tame _ d).trans (freeLpn_within ..).trunk).trans (setPage_within ..).trunk
  · exact (moveBooks_within ..).trunk.trans (setPage_within ..).trunk

theorem watermark_tame (d : Dev) (groups : Nat) (skip : Option (Nat × Nat)) : Tame [.regs, .trk] demandRegs d (watermark d groups skip) := by
  unfold watermark
  refine .ite (.foldl fun e _ _ => ?_) (.refl _ _ _)
  split
  · exact evictPage_tame ..
  · exact .refl _ _ _

theorem demandPage_tame (d : Dev) (w : Who) (v : Nat) : Tame [.regs, .trk] demandRegs d (demandPage d w v).1 := by
  unfold demandPage
  dsimp only
  split
  · exact .refl _ _ _
  · split
    · split
      · exact .refl _ _ _
      · exact evictPage_tame ..
    · exact .refl _ _ _

/-- A stall is noted and counted. -/
theorem stallNoted_tame (d : Dev) (t : Trunk) (h : t.books = d.trk.books) : Tame [.regs, .trk] demandRegs d (bump { d with trk := t } aStalls 1) :=
  (within_trk t h).trunk.trans ((bump_tame _ _ _).mono (by decide) (by decide))

theorem stallOn_tame (d : Dev) (w : Who) (v : Nat) : Tame [.regs, .trk] demandRegs d (stallOn d w v) := by
  unfold stallOn
  extract_lets now close x
  split
  · exact stallNoted_tame _ _ rfl
  · exact .ite (.refl _ _ _) (stallNoted_tame _ _ rfl)

theorem startFetch_tame (d : Dev) (w : Who) (v : Nat) : Tame [.regs, .trk] demandRegs d (startFetch d w v).1 := by
  have h := demandPage_tame d w v
  unfold startFetch
  generalize demandPage d w v = r at h
  obtain ⟨e, _ | l⟩ := r
  · exact h
  · exact ((h.trans (takeLpn_within ..).trunk).trans (setPage_within ..).trunk).trans (watermark_tame ..)

theorem allocPage_tame (d : Dev) (w : Who) (v : Nat) : Tame [.regs, .trk] demandRegs d (allocPage d w v).1 := by
  have h := demandPage_tame d w v
  unfold allocPage
  dsimp only
  generalize demandPage d w v = r at h
  obtain ⟨e, _ | l⟩ := r
  · exact h.trans (stallOn_tame ..)
  · exact ((h.trans (takeLpn_within ..).trunk).trans (setPage_within ..).trunk).trans (watermark_tame ..)

/-- What changes the Trunk and memory in a write. -/
theorem Tame.writes {d e : Dev} (h : Tame [.regs, .trk] demandRegs d e) : Tame [.regs, .trk, .mem] demandRegs d e := h.mono (by decide) (List.Subset.refl _)

theorem Within.memory {d e : Dev} (h : Within [.mem] d e) : Tame [.regs, .trk, .mem] demandRegs d e :=
  (Tame.of_only h.only (by decide) demandRegs).mono (by decide) (List.Subset.refl _)

theorem writePart_tame (d : Dev) (w : Who) (v o : Nat) (bs : Bytes) : Tame [.regs, .trk, .mem] demandRegs d (writePart d w v o bs).1 := by
  have hc := (cancelEvict_within d w.sp v).trunk.writes
  unfold writePart
  extract_lets e p n put
  have hput (x : Dev) (q : Page) : Tame [.regs, .trk, .mem] demandRegs x (put x q) := by
    dsimp only [put]
    refine Tame.trans ?_ ((stallEnd_within ..).trans (setPage_within ..)).trunk.writes
    exact .ite (.refl _ _ _) ((writeMem_within ..).trans (writeMem_within ..)).memory
  change Tame _ _ d e at hc
  clear_value put e p
  split
  · exact hc
  split
  · have ha := allocPage_tame e w v
    generalize allocPage e w v = r at ha
    obtain ⟨x, ok⟩ := r
    dsimp only
    split
    · exact (hc.trans ha.writes).trans (hput x _)
    · exact hc.trans ha.writes
  split
  · exact hc.trans (hput e p)
  split
  · split
    · exact (hc.trans (writeLp6_within ..).memory).trans (setPage_within ..).trunk.writes
    · exact hc.trans ((stallOn_tame ..).trans (startFetch_tame ..)).writes
  · exact hc.trans (stallOn_tame ..).writes

theorem vwrite_tame (d : Dev) (w : Who) (a : Nat) (bs : Bytes) : Tame [.regs, .trk, .mem] demandRegs d (vwrite d w a bs).1 := by
  unfold vwrite
  dsimp only
  generalize partsOf a bs.length = l
  suffices h : ∀ acc : Dev × Bytes × Bool, Tame [.regs, .trk, .mem] demandRegs d acc.1 → Tame [.regs, .trk, .mem] demandRegs d (l.foldl (fun acc part =>
      if acc.2.2 then ((writePart acc.1 w part.1 part.2.1 (acc.2.1.take part.2.2)).1, acc.2.1.drop part.2.2,
        (writePart acc.1 w part.1 part.2.1 (acc.2.1.take part.2.2)).2) else acc) acc).1 from h (d, bs, true) (.refl _ _ _)
  induction l with
  | nil => exact fun acc h => h
  | cons x l ih =>
    intro acc h
    refine ih _ ?_
    dsimp only
    split
    · exact h.trans (writePart_tame ..)
    · exact h

theorem writeRow_tame (d : Dev) (sp t slot y c : Nat) (l : List Int) : Tame [.regs, .trk, .mem] demandRegs d (writeRow d sp t slot y c l) :=
  .foldl fun _ _ _ => vwrite_tame ..

/-! ## Commands from the device that they leave -/

theorem does_eq {c : Instr} {s : State} {l : List Part} {P : Dev → Prop} {e : Dev} (f : Dev → Dev) (he : exec c s = onDev s f)
    (ha : alive s.dev = true) (hop : f s.dev = e) (hw : Only l s.dev e) (hp : P e) : Does c s l P := by
  subst hop
  exact does_onDev f he ha hw hp

theorem does_nothing {c : Instr} {s : State} (f : Dev → Dev) (he : exec c s = onDev s f) (ha : alive s.dev = true) (hop : f s.dev = s.dev) :
    Does c s [] (fun _ => True) := does_eq f he ha hop (.refl _ _) trivial

end Sys2Proof.Machine
end

section
/-! PROOF. The image pipeline and the exposures (R376 to R390). -/

namespace Sys2Proof.Machine

/-! ## The queue's status -/

theorem ispStat_tame (d : Dev) : Tame [.regs] [0x182000] d (ispStat d) := by
  unfold ispStat
  split <;> exact (setFlds_tame ..).mono (by decide) (by simp [ispBusy, ispCtx, ispWait])

theorem ispStat_busy {d : Dev} {f : CamFrame} (h : d.cam.frames.find? (·.entered) = some f) (hctx : f.ctx < 8) :
    flag (ispStat d) ispBusy = true ∧ fld (ispStat d) ispCtx = f.ctx := by
  unfold ispStat
  rw [h]
  simp (disch := decide) only [flag, setFlds_cons, setFlds_nil, fld_setFld_same, fld_setFld_other]
  exact ⟨rfl, Nat.mod_eq_of_lt hctx⟩

theorem ispStat_free {d : Dev} (h : d.cam.frames.any (·.entered) = false) : flag (ispStat d) ispBusy = false := by
  have hnone : d.cam.frames.find? (·.entered) = none := List.find?_eq_none.2 (by simpa using List.any_eq_false.1 h)
  unfold ispStat
  rw [hnone]
  simp (disch := decide) only [flag, setFlds_cons, setFlds_nil, fld_setFld_same, fld_setFld_other]
  rfl

theorem sameFrame_self {f g : CamFrame} (hp : f.port = g.port) (hc : f.ctx = g.ctx) (hn : f.cfn = g.cfn) : sameFrame f g = true := by
  simp [sameFrame, hp, hc, hn]

/-! ## A frame enters (R377, R384) -/

/-- A frame as it enters the ISP. -/
def enteredFrame (d : Dev) (f : CamFrame) (newP : Bool) : CamFrame :=
  { f with entered := true, newP, params := if f.out then f.params else ctxParams d f.ctx, seq := fld d (cxParamSeq f.ctx), free0 := d.free }

/-- The ISP holds the frame. -/
def ispEntered (f : CamFrame) (newP : Bool) (d : Dev) : Dev :=
  ispStat { setCam d (enteredFrame d f newP) with free := d.free + cW (camImg d f) (camRec d f) * cH (camImg d f) (camRec d f) * 5 }

theorem ispEnterOp_eq {d : Dev} {f : CamFrame} {l : List CamFrame} (hfr : d.cam.frames = f :: l) (hf : fenced d 0x3F = false)
    (hany : d.cam.frames.any (·.entered) = false) : ispEnterOp d = ispEntered f (applyParams f d).2 (applyParams f d).1 := by
  unfold ispEnterOp
  rw [hfr]
  dsimp only
  rw [if_neg (by rw [← hfr]; simp [hf, hany])]
  rfl

theorem ispEntered_shows {d : Dev} {f : CamFrame} {l : List CamFrame} (newP : Bool) (hfr : d.cam.frames = f :: l) (hctx : f.ctx < 8) :
    Tame [.regs, .cam, .free] [0x182000] d (ispEntered f newP d) ∧
    (ispEntered f newP d).cam = { d.cam with frames := framesWith d (enteredFrame d f newP) } ∧
    flag (ispEntered f newP d) ispBusy = true ∧ fld (ispEntered f newP d) ispCtx = f.ctx := by
  have hhead : (framesWith d (enteredFrame d f newP)).find? (·.entered) = some (enteredFrame d f newP) := by
    have hself : sameFrame (enteredFrame d f newP) f = true := sameFrame_self rfl rfl rfl
    rw [framesWith, hfr, List.map_cons, if_pos hself]
    rfl
  have hcam (n : Nat) : Tame [.cam, .free] [0x182000] d { setCam d (enteredFrame d f newP) with free := n } :=
    .of_only (fun p hp => by cases p <;> first | rfl | exact absurd (by simp) hp) (by decide) _
  unfold ispEntered
  generalize cW (camImg d f) (camRec d f) * cH (camImg d f) (camRec d f) * 5 = n
  have hbusy := ispStat_busy (d := { setCam d (enteredFrame d f newP) with free := d.free + n }) hhead hctx
  refine ⟨((hcam _).mono (by decide) (List.Subset.refl _)).trans ((ispStat_tame _).mono (by decide) (List.Subset.refl _)), ?_, hbusy⟩
  rw [(ispStat_tame _).only .cam (by decide)]
  rfl

theorem applyParams_none {d : Dev} {f : CamFrame} (h : ∀ tag ps, d.cam.pend.get none f.ctx = some (tag, some ps) → f.out = true) :
    applyParams f d = (d, false) := by
  unfold applyParams
  split
  · next tag ps hp => rw [h tag ps hp]; rfl
  · rfl

/-- The complete parameters of the frame's context come into force. -/
def paramsTaken (f : CamFrame) (ps : Bytes) (d : Dev) : Dev :=
  setFlds { d with cam := { d.cam with pend := d.cam.pend.put none f.ctx none, params := Map.put [] d.cam.params f.ctx ps } }
    [(cxParamPend f.ctx, 0), (cxParamSeq f.ctx, fld d (cxParamSeq f.ctx) + 1)]

theorem applyParams_some {d : Dev} {f : CamFrame} {tag : Nat} {ps : Bytes} (h : d.cam.pend.get none f.ctx = some (tag, some ps)) (ho : f.out = false) :
    applyParams f d = (raise (complete (paramsTaken f ps d) tag stOk []) 0x0605 (0x3D + f.port) 0 (f.ctx + f.cfn % 65536 * 65536), true) := by
  unfold applyParams
  rw [h]
  dsimp only
  rw [ho]
  rfl

theorem find?_put {ps : Bytes} (m : Map Bytes) (c : Nat) (h : ps ≠ []) : (Map.put [] m c ps).find? (fun e => e.1 == c) = some (c, ps) := by
  rw [Map.put, if_neg h]
  have habsent : ∀ e ∈ m.erase c, e.1 ≠ c := fun e he => of_decide_eq_true (List.mem_filter.1 he).2
  generalize m.erase c = m at habsent
  induction m with
  | nil => simp [Map.insert]
  | cons e m ih =>
    have hne : ¬ e.1 = c := habsent e (by simp)
    unfold Map.insert
    split
    · simp
    · rw [List.find?_cons_of_neg (by simpa using hne)]
      exact ih fun x hx => habsent x (by simp [hx])

theorem ctxParams_of_put {d : Dev} {c : Nat} {ps : Bytes} {m : Map Bytes} (h : d.cam.params = Map.put [] m c ps) (hne : ps ≠ []) : ctxParams d c = ps := by
  unfold ctxParams
  rw [h, find?_put m c hne]

theorem paramsTaken_shows (f : CamFrame) (ps : Bytes) (d : Dev) : Tame [.regs, .cam] [(cxParamPend f.ctx).addr] d (paramsTaken f ps d) ∧
    (paramsTaken f ps d).cam = { d.cam with pend := d.cam.pend.put none f.ctx none, params := Map.put [] d.cam.params f.ctx ps } ∧
    flag (paramsTaken f ps d) (cxParamPend f.ctx) = false ∧ fld (paramsTaken f ps d) (cxParamSeq f.ctx) = (fld d (cxParamSeq f.ctx) + 1) % 65536 := by
  have hcam : Tame [.regs, .cam] [(cxParamPend f.ctx).addr] d
      { d with cam := { d.cam with pend := d.cam.pend.put none f.ctx none, params := Map.put [] d.cam.params f.ctx ps } } :=
    ⟨(within_cam ..).only.mono (by decide), .of_regs (.refl _ _) rfl⟩
  unfold paramsTaken
  refine ⟨hcam.trans ((setFlds_tame ..).mono (by decide) (by simp [cxParamPend, cxParamSeq])), setFlds_cam .., ?_, ?_⟩
  · rw [flag, setFlds_cons, setFlds_cons, setFlds_nil, fld_setFld_other _ _ _ _ (by simp [cxParamSeq]) (.inr (.inl (by simp [cxParamSeq, cxParamPend]))),
      fld_setFld_same _ _ _ (by simp [cxParamPend])]
    rfl
  · rw [setFlds_cons, setFlds_cons, setFlds_nil, fld_setFld_same _ _ _ (by simp [cxParamSeq])]
    rfl

theorem isp_enter {s : State} (halive : alive s.dev = true) :
    (fenced s.dev 0x3F = true ∨ s.dev.cam.frames = [] ∨ s.dev.cam.frames.any (·.entered) = true → Does .ispFrameEnter s [] (fun _ => True)) ∧
    (∀ f l, fenced s.dev 0x3F = false → s.dev.cam.frames = f :: l → s.dev.cam.frames.any (·.entered) = false → f.ctx < 8 →
      ((∀ tag ps, s.dev.cam.pend.get none f.ctx = some (tag, some ps) → f.out = true) →
        Does .ispFrameEnter s [.regs, .cam, .free] (fun e => e.cam = { s.dev.cam with frames := framesWith s.dev (enteredFrame s.dev f false) } ∧
          flag e ispBusy = true ∧ fld e ispCtx = f.ctx ∧ RegsBut [0x182000] s.dev e)) ∧
      (∀ tag ps, s.dev.cam.pend.get none f.ctx = some (tag, some ps) → ps ≠ [] → f.out = false →
        Does .ispFrameEnter s (touches .ispFrameEnter) (fun e => e.cam.frames = framesWith s.dev { f with entered := true, newP := true, params := ps, seq := (fld s.dev (cxParamSeq f.ctx) + 1) % 65536, free0 := s.dev.free } ∧
          e.cam.pend.get none f.ctx = none ∧ ctxParams e f.ctx = ps ∧ flag e ispBusy = true ∧ fld e ispCtx = f.ctx ∧
          flag e (cxParamPend f.ctx) = false ∧ fld e (cxParamSeq f.ctx) = (fld s.dev (cxParamSeq f.ctx) + 1) % 65536 ∧
          (∀ t, s.dev.usb.tags.find? (fun t => t.tag == tag && !t.done) = some t →
            Queued [{ tag := tag % 65536, addr := t.addr, status := stOk, payload := [] }] s.dev e) ∧
          Raised 0x0605 (0x3D + f.port) 0 (f.ctx + f.cfn % 65536 * 65536) s.dev e))) := by
  refine ⟨fun h => does_nothing _ rfl halive ?_, fun f l hf hfr hany hctx => ⟨fun hp => ?_, fun tag ps hpend hne hout => ?_⟩⟩
  · rcases hfr : s.dev.cam.frames with _ | ⟨f, l⟩
    · unfold ispEnterOp; rw [hfr]
    · unfold ispEnterOp
      rw [hfr]
      refine if_pos ?_
      rw [hfr] at h
      simpa using h
  · obtain ⟨htame, hcam, hbusy, hc⟩ := ispEntered_shows false hfr hctx
    refine does_eq _ rfl halive ((ispEnterOp_eq hfr hf hany).trans ?_) htame.only ⟨hcam, hbusy, hc, htame.regs⟩
    rw [applyParams_none hp]
  · obtain ⟨htaken, htcam, htpend, htseq⟩ := paramsTaken_shows f ps s.dev
    have hq (t : TagRec) (ht : s.dev.usb.tags.find? (fun t => t.tag == tag && !t.done) = some t) :
        (complete (paramsTaken f ps s.dev) tag stOk []).usb.ep1in = s.dev.usb.ep1in ++ [{ tag := tag % 65536, addr := t.addr, status := stOk, payload := [] }] := by
      rw [complete_ep1in stOk [] (by rw [htaken.only .usb (by decide)]; exact ht), htaken.only .usb (by decide)]
    have hdone := (complete_within (paramsTaken f ps s.dev) tag stOk []).only
    have hdregs := complete_regsBut (paramsTaken f ps s.dev) tag stOk [] []
    generalize hx : complete (paramsTaken f ps s.dev) tag stOk [] = x at *
    have hraise := raise_tame (d := x) (unit := 0x3D + f.port) (by omega) 0x0605 0 (f.ctx + f.cfn % 65536 * 65536)
    have hraised := raise_raised x 0x0605 (0x3D + f.port) 0 (arg := f.ctx + f.cfn % 65536 * 65536) (by omega)
    have hep := (raise_requestsKept x 0x0605 (0x3D + f.port) 0 (f.ctx + f.cfn % 65536 * 65536)).ep1in
    have hop := ispEnterOp_eq hfr hf hany
    rw [applyParams_some hpend hout, hx] at hop
    generalize raise x 0x0605 (0x3D + f.port) 0 (f.ctx + f.cfn % 65536 * 65536) = y at *
    have hycam : y.cam = (paramsTaken f ps s.dev).cam := (hraise.only .cam (by decide)).trans (hdone .cam (by decide))
    have hyfr : y.cam.frames = f :: l := by rw [hycam, htcam]; exact hfr
    have hyfld {z : Fld} (hz : z.addr ≠ aEvtLost) : fld y z = fld (paramsTaken f ps s.dev) z :=
      (hraise.regs.fld (by simpa using hz)).trans (hdregs.fld (by simp))
    have hseq : fld y (cxParamSeq f.ctx) = (fld s.dev (cxParamSeq f.ctx) + 1) % 65536 :=
      (hyfld (by simp only [cxParamSeq, cxBase, aEvtLost]; omega)).trans htseq
    have hparams : y.cam.params = Map.put [] s.dev.cam.params f.ctx ps := by rw [hycam, htcam]
    obtain ⟨htame, hcam, hbusy, hc⟩ := ispEntered_shows true hyfr hctx
    have hother {z : Fld} (hz : z.addr ≠ 0x182000) : fld (ispEntered f true y) z = fld y z := htame.regs.fld (by simpa using hz)
    refine does_eq _ rfl halive hop ?_ ⟨?_, ?_, ctxParams_of_put (m := s.dev.cam.params) ?_ hne, hbusy, hc, ?_, ?_, fun t ht => ?_, ?_⟩
    · exact (((htaken.only.mono (by decide)).via hdone (by decide)).via hraise.only (by decide)).via htame.only (by decide)
    · rw [hcam]
      have hframe : enteredFrame y f true =
          { f with entered := true, newP := true, params := ps, seq := (fld s.dev (cxParamSeq f.ctx) + 1) % 65536, free0 := s.dev.free } := by
        rw [enteredFrame, hout, ctxParams_of_put hparams hne, hseq, hraise.only .free (by decide), hdone .free (by decide), htaken.only .free (by decide)]
        rfl
      simp only [framesWith, hframe, hyfr, hfr]
    · rw [hcam]
      show y.cam.pend.get none f.ctx = none
      rw [hycam, htcam]
      exact Map.get_put_same none _ _ none
    · rw [hcam]; exact hparams
    · rw [flag, hother (by simp only [cxParamPend, cxBase]; omega), hyfld (by simp only [cxParamPend, cxBase, aEvtLost]; omega)]
      exact htpend
    · rw [hother (by simp only [cxParamSeq, cxBase]; omega), hseq]
    · rw [Queued, htame.only .usb (by decide), hep]; exact hq t ht
    · refine (hraised.of_eq ?_ rfl).of_eq rfl ?_
      · rw [hdone .devTime (by decide), htaken.only .devTime (by decide)]
      · rw [htame.only .root (by decide)]

/-! ## A line, and the end of a frame (R377, R380, R382) -/

theorem ispStats_keeps (e : IspIn) (y : Nat) (f : CamFrame) : sameFrame (ispStats e y f) = sameFrame f := by
  have h : (ispStats e y f).port = f.port ∧ (ispStats e y f).ctx = f.ctx ∧ (ispStats e y f).cfn = f.cfn := by
    unfold ispStats
    generalize List.range e.w = xs
    induction xs generalizing f with
    | nil => exact ⟨rfl, rfl, rfl⟩
    | cons x xs ih => rw [List.foldl_cons]; exact ih _
  funext g
  rw [sameFrame, h.1, h.2.1, h.2.2]
  rfl

theorem ispRows_tame (f : CamFrame) (y : Nat) (d : Dev) : Tame [.regs, .trk, .mem] demandRegs d (ispRows f y d) := by
  unfold ispRows
  extract_lets b o e xs put d₁ d₂
  have hput (t c : Nat) (v : Nat → Int) (x : Dev) : Tame [.regs, .trk, .mem] demandRegs x (put t c v x) :=
    .ite (writeRow_tame ..) (.refl _ _ _)
  clear_value put
  have h2 : Tame [.regs, .trk, .mem] demandRegs d d₂ := (Tame.foldl fun _ _ _ => hput ..).trans (hput ..)
  clear_value d₂
  split
  · exact h2.trans (hput ..)
  · exact h2.trans (hput ..)
  · exact h2.trans (.foldl fun _ _ _ => hput ..)
  · exact h2

theorem ispLineReady_iff {d : Dev} {f : CamFrame} : ispLineReady d f = true ↔
    f.entered = true ∧ f.done < f.height d ∧ min (f.done + 4) (f.height d) ≤ f.lines.length := by
  simp only [ispLineReady, Bool.and_eq_true, decide_eq_true_eq, and_assoc]
  rfl

/-- A frame once its next line is processed. -/
def processedFrame (d : Dev) (f : CamFrame) : CamFrame := { ispStats (ispIn d f) f.done f with done := f.done + 1 }

/-- The outputs of the frame's next line are written and its corrections counted. -/
def lineCounted (f : CamFrame) (d : Dev) : Dev :=
  bump (bump (ispRows f f.done d) aIspDpc (ispCounts (ispIn d f) f.done).1) aIspSat (ispCounts (ispIn d f) f.done).2

/-- A line of the frame in the ISP is processed. -/
def lineProcessed (f : CamFrame) (d : Dev) : Dev :=
  ringInc (finishLines (setCam (lineCounted f d) (processedFrame d f)) (landKey f) 0 (add32 f.base (f.done + 1)) [0]) (camLineRing f.port) 1

theorem ispLineOp_eq {d : Dev} {f : CamFrame} (hfind : d.cam.frames.find? (·.entered) = some f) (hf : fenced d 0x3F = false)
    (hready : ispLineReady d f = true) : ispLineOp d = lineProcessed f d := by
  unfold ispLineOp
  rw [hfind]
  dsimp only
  rw [if_neg (by simp [hf, hready])]
  rfl

theorem ispLineOp_idle {d : Dev} (h : ∀ f, d.cam.frames.find? (·.entered) = some f → fenced d 0x3F = true ∨ ispLineReady d f = false) :
    ispLineOp d = d := by
  unfold ispLineOp
  split
  · rfl
  · next f hfind => exact if_pos (by simpa using h f hfind)

theorem reg_bumped_after {d e : Dev} {l : List Nat} {a n : Nat} (h : RegsBut l d e) (ha : a ∉ l) :
    (reg (bump e a n) a).toNat = min ((reg d a).toNat + n) 0xFFFFFFFF := by
  rw [reg_bump_same, h a ha]

theorem lineCounted_shows (f : CamFrame) (d : Dev) : Only [.regs, .trk, .mem] d (lineCounted f d) ∧ (lineCounted f d).mem = (ispRows f f.done d).mem ∧
    (reg (lineCounted f d) aIspDpc).toNat = min ((reg d aIspDpc).toNat + (ispCounts (ispIn d f) f.done).1) 0xFFFFFFFF ∧
    (reg (lineCounted f d) aIspSat).toNat = min ((reg d aIspSat).toNat + (ispCounts (ispIn d f) f.done).2) 0xFFFFFFFF := by
  have hrows := ispRows_tame f f.done d
  unfold lineCounted
  generalize ispCounts (ispIn d f) f.done = n
  generalize ispRows f f.done d = x at *
  have hdpc := bump_tame x aIspDpc n.1
  have hsat := bump_tame (bump x aIspDpc n.1) aIspSat n.2
  have hfirst : RegsBut (aIspDpc :: demandRegs) d (bump x aIspDpc n.1) := (hrows.regs.mono (by decide)).trans (hdpc.regs.mono (by decide))
  refine ⟨(hrows.only.via hdpc.only (by decide)).via hsat.only (by decide), ?_, ?_, reg_bumped_after hfirst (by decide)⟩
  · rw [hsat.only .mem (by decide), hdpc.only .mem (by decide)]
  · rw [hsat.regs _ (by decide)]
    exact reg_bumped_after hrows.regs (by decide)

theorem lineProcessed_shows (f : CamFrame) (d : Dev) : Only [.regs, .ring, .trk, .mem, .cam] d (lineProcessed f d) ∧
    (lineProcessed f d).cam = { d.cam with frames := framesWith d (processedFrame d f) } ∧
    (lineProcessed f d).mem = (ispRows f f.done d).mem ∧
    (∀ r, ringVal (lineProcessed f d) r = if r = camLineRing f.port then (ringVal d r + 1) % 2 ^ 32 else ringVal d r) ∧
    (reg (lineProcessed f d) aIspDpc).toNat = min ((reg d aIspDpc).toNat + (ispCounts (ispIn d f) f.done).1) 0xFFFFFFFF ∧
    (reg (lineProcessed f d) aIspSat).toNat = min ((reg d aIspSat).toNat + (ispCounts (ispIn d f) f.done).2) 0xFFFFFFFF := by
  obtain ⟨honly, hmem, hdpc, hsat⟩ := lineCounted_shows f d
  unfold lineProcessed
  generalize processedFrame d f = g
  generalize lineCounted f d = x at *
  have hset : Only [.cam] x (setCam x g) := (within_cam ..).only
  have hcam : (setCam x g).cam = { x.cam with frames := x.cam.frames.map (fun h => if sameFrame g h then g else h) } := rfl
  generalize setCam x g = y at *
  have hfin := (finishLines_within y (landKey f) 0 (add32 f.base (f.done + 1)) [0]).only
  generalize finishLines y (landKey f) 0 (add32 f.base (f.done + 1)) [0] = z at *
  have hring := (ringInc_within z (camLineRing f.port) 1).only
  have hval (r : Nat) := ringVal_ringInc z (camLineRing f.port) 1 r
  have hupto : Only [.regs, .trk, .mem, .cam] d z := ((honly.mono (by decide)).via hset (by decide)).via hfin (by decide)
  have hreg (a : Nat) : reg (ringInc z (camLineRing f.port) 1) a = reg x a :=
    reg_of_regs ((hring .regs (by decide)).trans ((hfin .regs (by decide)).trans (hset .regs (by decide)))) a
  refine ⟨(hupto.mono (by decide)).via hring (by decide), ?_, ?_, fun r => ?_, ?_, ?_⟩
  · rw [hring .cam (by decide), hfin .cam (by decide), hcam, honly .cam (by decide)]; rfl
  · rw [hring .mem (by decide), hfin .mem (by decide), hset .mem (by decide), hmem]
  · rw [hval, ringVal_of_ring (hupto .ring (by decide))]
  · rw [hreg]; exact hdpc
  · rw [hreg]; exact hsat

/-- The frame in the ISP is complete. -/
def frameCompleted (f : CamFrame) (d : Dev) : Dev :=
  ispStat (ringInc (removeCam (camLast f false (writeStats f (statsBytes d f) d)) f) (camFrameRing f.port) 1)

theorem ispCompleteOp_eq {d : Dev} {f : CamFrame} (hfind : d.cam.frames.find? (·.entered) = some f) (hf : fenced d 0x3F = false)
    (hdone : f.height d ≤ f.done) (hended : f.ended = true) : ispCompleteOp d = frameCompleted f d := by
  unfold ispCompleteOp
  rw [hfind]
  dsimp only
  rw [if_neg (by simpa [hf, hended, CamFrame.height] using hdone)]
  rfl

theorem ispCompleteOp_idle {d : Dev} (h : ∀ f, d.cam.frames.find? (·.entered) = some f → fenced d 0x3F = true ∨ f.done < f.height d ∨ f.ended = false) :
    ispCompleteOp d = d := by
  unfold ispCompleteOp
  split
  · rfl
  · next f hfind => exact if_pos (by simpa [or_assoc, CamFrame.height] using h f hfind)

theorem writeStats_tame (f : CamFrame) (bytes : Bytes) (d : Dev) : Tame [.regs, .trk, .mem] demandRegs d (writeStats f bytes d) :=
  .ite (vwrite_tame ..) (.refl _ _ _)

theorem camFlags_of_cam {d e : Dev} (h : e.cam = d.cam) (f : CamFrame) (dropped : Bool) : camFlags e f dropped = camFlags d f dropped := by
  rw [camFlags, expFor, h]
  rfl

theorem camLast_shows (f : CamFrame) (dropped : Bool) (d : Dev) : Only [.regs] d (camLast f dropped d) ∧
    reg (camLast f dropped d) (cxLastCfn f.ctx) = BitVec.ofNat 32 f.cfn ∧ reg (camLast f dropped d) (cxLast f.ctx) = BitVec.ofNat 32 (camFlags d f dropped) := by
  refine ⟨(camLast_within ..).only, ?_, ?_⟩
  · unfold camLast; rw [reg_setReg_same]
  · unfold camLast
    rw [reg_setReg_other _ _ (by simp [cxLast, cxLastCfn]), reg_setReg_same]

theorem frameCompleted_shows {f : CamFrame} (d : Dev) (hctx : f.ctx < 8) : Only [.regs, .ring, .trk, .mem, .cam] d (frameCompleted f d) ∧
    (frameCompleted f d).cam = { d.cam with frames := framesBut d f } ∧ (frameCompleted f d).mem = (writeStats f (statsBytes d f) d).mem ∧
    (∀ r, ringVal (frameCompleted f d) r = if r = camFrameRing f.port then (ringVal d r + 1) % 2 ^ 32 else ringVal d r) ∧
    reg (frameCompleted f d) (cxLastCfn f.ctx) = BitVec.ofNat 32 f.cfn ∧
    reg (frameCompleted f d) (cxLast f.ctx) = BitVec.ofNat 32 (camFlags d f false) ∧
    ((framesBut d f).any (·.entered) = false → flag (frameCompleted f d) ispBusy = false) := by
  have hstats := (writeStats_tame f (statsBytes d f) d).only
  unfold frameCompleted
  generalize writeStats f (statsBytes d f) d = x at *
  obtain ⟨hlast, hcfn, hflags⟩ := camLast_shows f false x
  have hflags' := camFlags_of_cam (hstats .cam (by decide)) f false
  generalize camLast f false x = y at *
  have hset : Only [.cam] y (removeCam y f) := (within_cam ..).only
  have hcam : (removeCam y f).cam = { y.cam with frames := y.cam.frames.filter (fun g => !sameFrame f g) } := rfl
  generalize removeCam y f = z at *
  have hring := (ringInc_within z (camFrameRing f.port) 1).only
  have hval (r : Nat) := ringVal_ringInc z (camFrameRing f.port) 1 r
  have hupto : Only [.regs, .trk, .mem, .cam] d z := ((hstats.mono (by decide)).via hlast (by decide)).via hset (by decide)
  generalize ringInc z (camFrameRing f.port) 1 = w at *
  have hstat := ispStat_tame w
  have hframes : w.cam = { d.cam with frames := framesBut d f } := by
    rw [hring .cam (by decide), hcam, hlast .cam (by decide), hstats .cam (by decide)]; rfl
  have hreg {a : Nat} (ha : a ≠ 0x182000) : reg (ispStat w) a = reg y a :=
    (hstat.regs a (by simpa using ha)).trans (reg_of_regs ((hring .regs (by decide)).trans (hset .regs (by decide))) a)
  refine ⟨((hupto.mono (by decide)).via hring (by decide)).via hstat.only (by decide), ?_, ?_, fun r => ?_, ?_, ?_, fun hany => ?_⟩
  · rw [hstat.only .cam (by decide), hframes]
  · rw [hstat.only .mem (by decide), hring .mem (by decide), hset .mem (by decide), hlast .mem (by decide)]
  · rw [ringVal_of_ring (hstat.only .ring (by decide)), hval, ringVal_of_ring (hupto .ring (by decide))]
  · rw [hreg (by simp only [cxLastCfn, cxBase]; omega), hcfn]
  · rw [hreg (by simp only [cxLast, cxBase]; omega), hflags, hflags']
  · exact ispStat_free (by rw [hframes]; exact hany)

theorem isp_progress {s : State} (halive : alive s.dev = true) :
    ((∀ f, s.dev.cam.frames.find? (·.entered) = some f → fenced s.dev 0x3F = true ∨ ispLineReady s.dev f = false) →
      Does (.ispLineProcessed []) s [] (fun _ => True)) ∧
    (∀ f, s.dev.cam.frames.find? (·.entered) = some f → fenced s.dev 0x3F = false → f.entered = true → f.done < f.height s.dev →
      min (f.done + 4) (f.height s.dev) ≤ f.lines.length →
      Does (.ispLineProcessed []) s [.regs, .ring, .trk, .mem, .cam] (fun e =>
        e.cam = { s.dev.cam with frames := framesWith s.dev { ispStats (ispIn s.dev f) f.done f with done := f.done + 1 } } ∧
        e.mem = (ispRows f f.done s.dev).mem ∧
        (∀ r, ringVal e r = if r = camLineRing f.port then (ringVal s.dev r + 1) % 2 ^ 32 else ringVal s.dev r) ∧
        (reg e aIspDpc).toNat = min ((reg s.dev aIspDpc).toNat + (ispCounts (ispIn s.dev f) f.done).1) 0xFFFFFFFF ∧
        (reg e aIspSat).toNat = min ((reg s.dev aIspSat).toNat + (ispCounts (ispIn s.dev f) f.done).2) 0xFFFFFFFF)) ∧
    ((∀ f, s.dev.cam.frames.find? (·.entered) = some f → fenced s.dev 0x3F = true ∨ f.done < f.height s.dev ∨ f.ended = false) →
      Does .ispFrameComplete s [] (fun _ => True)) ∧
    (∀ f, s.dev.cam.frames.find? (·.entered) = some f → fenced s.dev 0x3F = false → f.height s.dev ≤ f.done → f.ended = true → f.ctx < 8 →
      Does .ispFrameComplete s [.regs, .ring, .trk, .mem, .cam] (fun e => e.cam = { s.dev.cam with frames := framesBut s.dev f } ∧
        e.mem = (writeStats f (statsBytes s.dev f) s.dev).mem ∧
        (∀ r, ringVal e r = if r = camFrameRing f.port then (ringVal s.dev r + 1) % 2 ^ 32 else ringVal s.dev r) ∧
        reg e (cxLastCfn f.ctx) = BitVec.ofNat 32 f.cfn ∧ reg e (cxLast f.ctx) = BitVec.ofNat 32 (camFlags s.dev f false) ∧
        ((framesBut s.dev f).any (·.entered) = false → flag e ispBusy = false))) := by
  refine ⟨fun h => does_nothing _ rfl halive ?_, fun f hfind hf hent hlt hle => ?_, fun h => does_nothing _ rfl halive (ispCompleteOp_idle h),
    fun f hfind hf hle hended hctx => ?_⟩
  · exact (ite_congr rfl (fun _ => ispLineOp_idle h) fun _ => rfl).trans (ite_self _)
  · have hready := ispLineReady_iff.2 ⟨hent, hlt, hle⟩
    have hany : s.dev.cam.frames.any (ispLineReady s.dev) = true := List.any_eq_true.2 ⟨f, List.mem_of_find?_eq_some hfind, hready⟩
    obtain ⟨honly, hshows⟩ := lineProcessed_shows f s.dev
    exact does_eq _ rfl halive ((if_pos hany).trans (ispLineOp_eq hfind hf hready)) honly hshows
  · obtain ⟨honly, hshows⟩ := frameCompleted_shows s.dev hctx
    exact does_eq _ rfl halive (ispCompleteOp_eq hfind hf hle hended) honly hshows

/-! ## Exposures (R385, R386, R388) -/

/-- DGAIN of the exposure asked for stands in its register. -/
theorem dgainKept_shows (c : Nat) (v : Nat) (d : Dev) : RegsBut [(cxQueued c).addr] d (setFld d (cxReqDgain c) v) ∧
    fld (setFld d (cxReqDgain c) v) (cxReqDgain c) = v % 65536 ∧ flag (setFld d (cxReqDgain c) v) (cxQueued c) = flag d (cxQueued c) := by
  refine ⟨setFld_regsBut d (cxReqDgain c) v, fld_setFld_same _ _ _ (by simp [cxReqDgain]), ?_⟩
  rw [flag, fld_setFld_other _ _ _ _ (by simp [cxReqDgain]) (.inr (.inr (by simp [cxReqDgain, cxQueued])))]
  rfl

/-- An exposure of a context joins those that wait, or replaces the one that waits on a bus. -/
def exposureQueued (c : Nat) (x : Nat × Nat × Nat) (d : Dev) : Dev :=
  if d.cam.bus.any (fun l => (l.2.drop 1).any (fun y => y.1 == c)) then
    { d with cam := { d.cam with bus := d.cam.bus.map (fun l => (l.1, l.2.take 1 ++ (l.2.drop 1).map (fun y => if y.1 == c then (c, x) else y))) } }
  else { d with cam := { d.cam with expQ := d.cam.expQ.put none c (some x) } }

theorem exposureGoOp_idle {c : Nat} {v : Word} {d : Dev} (h : bits v.toNat 16 1 = 0 ∨ ctxOff (img0 d) c = none ∨ ctxDisabled d c = true)
    (hfence : ctxDisabled (setFld d (cxReqDgain c) (v.toNat % 65536)) c = ctxDisabled d c) :
    exposureGoOp c v d = setFld d (cxReqDgain c) (v.toNat % 65536) := by
  refine if_pos ?_
  rw [hfence, show img0 (setFld d (cxReqDgain c) (v.toNat % 65536)) = img0 d from rfl]
  simpa [or_assoc] using h

theorem ctxDisabled_dgain {c : Nat} (hc : c < 8) (v : Nat) (d : Dev) : ctxDisabled (setFld d (cxReqDgain c) v) c = ctxDisabled d c := by
  have hfenced (u : Nat) : fenced (setFld d (cxReqDgain c) v) u = fenced d u :=
    (setFld_regsBut d (cxReqDgain c) v).fenced (by simp only [List.mem_singleton, fencedReg, cxReqDgain, cxBase]; omega)
  unfold ctxDisabled
  rw [show img0 (setFld d (cxReqDgain c) v) = img0 d from rfl]
  simp only [hfenced]

theorem exposureGoOp_goes {c : Nat} (hc : c < 8) {v : Word} {d : Dev} {o : Nat} (hgo : bits v.toNat 16 1 = 1) (ho : ctxOff (img0 d) c = some o)
    (hd : ctxDisabled d c = false) : exposureGoOp c v d =
      exposureQueued c (fld d (cxReqLines c), fld d (cxReqAgain c), v.toNat % 65536) (setFld (setFld d (cxReqDgain c) (v.toNat % 65536)) (cxQueued c) 1) := by
  have hreq (z : Fld) (hz : z.addr = cxBase c + 4) : fld (setFld d (cxReqDgain c) (v.toNat % 65536)) z = fld d z :=
    (setFld_regsBut d (cxReqDgain c) _).fld (by simp [hz, cxReqDgain])
  refine (if_neg ?_).trans ?_
  · rw [ctxDisabled_dgain hc, hd, show img0 (setFld d (cxReqDgain c) (v.toNat % 65536)) = img0 d from rfl, ho]
    simp [hgo]
  · rw [exposureQueued, hreq (cxReqLines c) rfl, hreq (cxReqAgain c) rfl]

theorem exposureQueued_shows (c : Nat) (x : Nat × Nat × Nat) (d : Dev) : Only [.cam] d (exposureQueued c x d) ∧
    (d.cam.bus.any (fun l => (l.2.drop 1).any (fun y => y.1 == c)) = false → (exposureQueued c x d).cam.bus = d.cam.bus ∧
      (exposureQueued c x d).cam.expQ.get none c = some x) ∧
    (d.cam.bus.any (fun l => (l.2.drop 1).any (fun y => y.1 == c)) = true → (exposureQueued c x d).cam.expQ = d.cam.expQ ∧
      ∀ b, (exposureQueued c x d).cam.bus.get [] b = (d.cam.bus.get [] b).take 1 ++
        ((d.cam.bus.get [] b).drop 1).map (fun y => if y.1 == c then (c, x) else y)) := by
  have hget (g : List (Nat × Nat × Nat × Nat) → List (Nat × Nat × Nat × Nat)) (hg : g [] = []) (m : Map (List (Nat × Nat × Nat × Nat))) (b : Nat) :
      Map.get [] (m.map (fun l => (l.1, g l.2))) b = g (Map.get [] m b) := by
    induction m with
    | nil => exact hg.symm
    | cons e m ih =>
      simp only [List.map_cons, Map.get]
      split
      · rfl
      · exact ih
  refine ⟨?_, fun h => ?_, fun h => ?_⟩
  · unfold exposureQueued
    split <;> exact (within_cam ..).only
  · rw [exposureQueued, h]
    exact ⟨rfl, Map.get_put_same none _ c (some x)⟩
  · rw [exposureQueued, h]
    exact ⟨rfl, fun b => hget (fun l => l.take 1 ++ (l.drop 1).map (fun y => if y.1 == c then (c, x) else y)) rfl d.cam.bus b⟩

theorem exposure_go {s : State} {c : Fin 8} {v : Word} (halive : alive s.dev = true) :
    ((bits v.toNat 16 1 = 0 ∨ ctxOff (img0 s.dev) c.val = none ∨ ctxDisabled s.dev c.val = true) →
      Does (.exposureGo c v) s [.regs] (fun e => fld e (cxReqDgain c.val) = v.toNat % 65536 ∧
        flag e (cxQueued c.val) = flag s.dev (cxQueued c.val) ∧ RegsBut [(cxQueued c.val).addr] s.dev e)) ∧
    (∀ x o, bits v.toNat 16 1 = 1 → ctxOff (img0 s.dev) c.val = some o → ctxDisabled s.dev c.val = false →
      x = (fld s.dev (cxReqLines c.val), fld s.dev (cxReqAgain c.val), v.toNat % 65536) →
      Does (.exposureGo c v) s [.regs, .cam] (fun e => fld e (cxReqDgain c.val) = v.toNat % 65536 ∧ flag e (cxQueued c.val) = true ∧
        RegsBut [(cxQueued c.val).addr] s.dev e ∧
        (s.dev.cam.bus.any (fun l => (l.2.drop 1).any (fun y => y.1 == c.val)) = false → e.cam.bus = s.dev.cam.bus ∧
          e.cam.expQ.get none c.val = some x) ∧
        (s.dev.cam.bus.any (fun l => (l.2.drop 1).any (fun y => y.1 == c.val)) = true → e.cam.expQ = s.dev.cam.expQ ∧
          ∀ b, e.cam.bus.get [] b = (s.dev.cam.bus.get [] b).take 1 ++
            ((s.dev.cam.bus.get [] b).drop 1).map (fun y => if y.1 == c.val then (c.val, x) else y)))) := by
  obtain ⟨hregs, hval, hflag⟩ := dgainKept_shows c.val (v.toNat % 65536) s.dev
  rw [Nat.mod_mod] at hval
  have honly : Only [.regs] s.dev (setFld s.dev (cxReqDgain c.val) (v.toNat % 65536)) := (setFld_within ..).only
  refine ⟨fun h => does_eq _ rfl halive (exposureGoOp_idle h (ctxDisabled_dgain c.isLt _ _)) honly ⟨hval, hflag, hregs⟩, fun x o hgo ho hd hx => ?_⟩
  subst hx
  have hop := exposureGoOp_goes c.isLt hgo ho hd
  generalize (fld s.dev (cxReqLines c.val), fld s.dev (cxReqAgain c.val), v.toNat % 65536) = x at hop
  generalize setFld s.dev (cxReqDgain c.val) (v.toNat % 65536) = y at *
  have hset := setFld_tame y (cxQueued c.val) 1
  have hqueued : flag (setFld y (cxQueued c.val) 1) (cxQueued c.val) = true := flag_set y (by simp [cxQueued]) rfl
  have hdgain : fld (setFld y (cxQueued c.val) 1) (cxReqDgain c.val) = fld y (cxReqDgain c.val) :=
    fld_setFld_other _ _ _ _ (by simp [cxQueued]) (.inr (.inl (by simp [cxReqDgain, cxQueued])))
  have hcam : (setFld y (cxQueued c.val) 1).cam = s.dev.cam := (hset.only .cam (by decide)).trans (honly .cam (by decide))
  generalize setFld y (cxQueued c.val) 1 = z at *
  obtain ⟨hq, hwait, hrepl⟩ := exposureQueued_shows c.val x z
  have hqregs : (exposureQueued c.val x z).regs = z.regs := hq .regs (by decide)
  rw [hcam] at hwait hrepl
  refine does_eq _ rfl halive hop (((honly.mono (by decide)).via hset.only (by decide)).via hq (by decide)) ⟨?_, ?_, ?_, hwait, hrepl⟩
  · rw [fld_of_regs hqregs, hdgain]; exact hval
  · rw [flag_of_regs hqregs]; exact hqueued
  · exact .of_regs (hregs.trans hset.regs) hqregs

/-- The exposure at the head of a bus is gone from it. -/
theorem busNext_shows (b c : Nat) (d : Dev) : Tame [.regs, .cam] [(cxQueued c).addr] d (busNext b c d) ∧
    (busNext b c d).cam = { d.cam with bus := d.cam.bus.put [] b ((d.cam.bus.get [] b).drop 1) } ∧
    flag (busNext b c d) (cxQueued c) =
      if (d.cam.expQ.get none c).isSome || (d.cam.bus.put [] b ((d.cam.bus.get [] b).drop 1)).any (fun m => m.2.any (fun y => y.1 == c))
      then flag d (cxQueued c) else false := by
  have hnext : Tame [.regs, .cam] [(cxQueued c).addr] d { d with cam := { d.cam with bus := d.cam.bus.put [] b ((d.cam.bus.get [] b).drop 1) } } :=
    (Tame.of_only (within_cam ..).only (by decide) _).mono (by decide) (List.Subset.refl _)
  unfold busNext
  dsimp only
  split
  · exact ⟨hnext, rfl, rfl⟩
  · refine ⟨hnext.trans ((setFld_tame ..).mono (by decide) (List.Subset.refl _)), setFld_cam .., ?_⟩
    rw [flag, fld_setFld_same _ _ _ (by simp [cxQueued])]
    rfl

/-- The exposure's writes are done: the frame that it governs is noted. -/
def exposureNoted (c : Nat) (x : Nat × Nat × Nat) (o : Nat) (d : Dev) : Dev :=
  { d with cam := { d.cam with
    expRec := d.cam.expRec.put [] c (((add32 (fld d (cxCfn c)) (1 + cDelay (img0 d) o), x) :: d.cam.expRec.get [] c).take 64) } }

theorem exposureDoneOp_eq {b c o : Nat} {x : Nat × Nat × Nat} {l : List (Nat × Nat × Nat × Nat)} {d : Dev} (hbus : d.cam.bus.get [] b = (c, x) :: l)
    (ho : ctxOff (img0 d) c = some o) : exposureDoneOp b d = busNext b c (exposureNoted c x o d) := by
  unfold exposureDoneOp
  rw [hbus]
  dsimp only
  rw [ho]
  rfl

theorem i2cNakOp_eq {b c n k : Nat} {x : Nat × Nat × Nat} {l : List (Nat × Nat × Nat × Nat)} {d : Dev} (hbus : d.cam.bus.get [] b = (c, x) :: l) :
    i2cNakOp b n k d = busNext b c (raise (bump d (aCamNak (((ctxOff (img0 d) c).map (fun o => u8 (img0 d) (o + 1) % 2)).getD 0)) 1) 0x0604
      (0x3D + ((ctxOff (img0 d) c).map (fun o => u8 (img0 d) (o + 1) % 2)).getD 0) 1 (c + n % 4 * 16 + k % 256 * 256)) := by
  unfold i2cNakOp
  rw [hbus]
  dsimp only
  cases ctxOff (img0 d) c <;> rfl

theorem exposure_ends {s : State} {b : Fin 2} (halive : alive s.dev = true) :
    (s.dev.cam.bus.get [] b.val = [] → Does (.i2cExposureDone b) s [] (fun _ => True) ∧
      ∀ n k : Nat, Does (.camI2cNak b n k) s [] (fun _ => True)) ∧
    (∀ c x l, s.dev.cam.bus.get [] b.val = (c, x) :: l → c < 8 →
      (∀ o, ctxOff (img0 s.dev) c = some o → Does (.i2cExposureDone b) s [.regs, .cam] (fun e => e.cam.bus.get [] b.val = l ∧
        e.cam.expRec.get [] c = ((add32 (fld s.dev (cxCfn c)) (1 + cDelay (img0 s.dev) o), x) :: s.dev.cam.expRec.get [] c).take 64 ∧
        e.cam.expQ = s.dev.cam.expQ ∧ e.cam.frames = s.dev.cam.frames ∧ RegsBut [(cxQueued c).addr] s.dev e ∧
        (flag e (cxQueued c) = if (s.dev.cam.expQ.get none c).isSome || (s.dev.cam.bus.put [] b.val l).any (fun m => m.2.any (fun y => y.1 == c))
          then flag s.dev (cxQueued c) else false))) ∧
      (∀ n k q : Nat, q = ((ctxOff (img0 s.dev) c).map (fun o => u8 (img0 s.dev) (o + 1) % 2)).getD 0 →
        Does (.camI2cNak b n k) s [.regs, .usb, .root, .cam] (fun e => e.cam.bus.get [] b.val = l ∧
          e.cam.expRec = s.dev.cam.expRec ∧ e.cam.expQ = s.dev.cam.expQ ∧
          (reg e (aCamNak q)).toNat = min ((reg s.dev (aCamNak q)).toNat + 1) 0xFFFFFFFF ∧
          Raised 0x0604 (0x3D + q) 1 (c + n % 4 * 16 + k % 256 * 256) s.dev e))) := by
  refine ⟨fun h => ⟨does_nothing _ rfl halive ?_, fun n k => does_nothing _ rfl halive ?_⟩, fun c x l hbus hc => ⟨fun o ho => ?_, fun n k q hq => ?_⟩⟩
  · unfold exposureDoneOp; rw [h]
  · unfold i2cNakOp; rw [h]
  · have hnote : Only [.cam] s.dev (exposureNoted c x o s.dev) := (within_cam ..).only
    have hcam : (exposureNoted c x o s.dev).cam =
        { s.dev.cam with expRec := s.dev.cam.expRec.put [] c (((add32 (fld s.dev (cxCfn c)) (1 + cDelay (img0 s.dev) o), x) :: s.dev.cam.expRec.get [] c).take 64) } := rfl
    have hop := exposureDoneOp_eq hbus ho
    generalize exposureNoted c x o s.dev = y at *
    obtain ⟨htame, hncam, hflag⟩ := busNext_shows b.val c y
    have hbus' : y.cam.bus.get [] b.val = (c, x) :: l := by rw [hcam]; exact hbus
    rw [hbus', List.drop_one, List.tail_cons] at hncam hflag
    refine does_eq _ rfl halive hop ((hnote.mono (by decide)).via htame.only (by decide)) ⟨?_, ?_, ?_, ?_, ?_, ?_⟩
    · rw [hncam]; exact Map.get_put_same [] _ b.val l
    · simp only [hncam, hcam, Map.get_put_same]
    · rw [hncam, hcam]
    · rw [hncam, hcam]
    · exact (RegsBut.of_only hnote (by decide) _).trans htame.regs
    · rw [hflag, hcam, flag_of_regs (hnote .regs (by decide))]
  · have hop := i2cNakOp_eq (n := n) (k := k) hbus
    rw [← hq] at hop
    have hq2 : q < 2 := by
      rw [hq]
      cases ctxOff (img0 s.dev) c with
      | none => exact Nat.zero_lt_two
      | some o => exact Nat.mod_lt _ (by decide)
    have hbump := bump_tame s.dev (aCamNak q) 1
    have hcount := reg_bump_same s.dev (aCamNak q) 1
    generalize bump s.dev (aCamNak q) 1 = y at *
    have hraise := raise_tame (d := y) (unit := 0x3D + q) (by omega) 0x0604 1 (c + n % 4 * 16 + k % 256 * 256)
    have hraised := raise_raised y 0x0604 (0x3D + q) 1 (arg := c + n % 4 * 16 + k % 256 * 256) (by omega)
    generalize raise y 0x0604 (0x3D + q) 1 (c + n % 4 * 16 + k % 256 * 256) = z at *
    obtain ⟨htame, hncam, -⟩ := busNext_shows b.val c z
    have hzcam : z.cam = s.dev.cam := (hraise.only .cam (by decide)).trans (hbump.only .cam (by decide))
    rw [hzcam, hbus, List.drop_one, List.tail_cons] at hncam
    refine does_eq _ rfl halive hop (((hbump.only.mono (by decide)).via hraise.only (by decide)).via htame.only (by decide)) ⟨?_, ?_, ?_, ?_, ?_⟩
    · rw [hncam]; exact Map.get_put_same [] _ b.val l
    · rw [hncam]
    · rw [hncam]
    · rw [htame.regs _ (by simp only [List.mem_singleton, aCamNak, camBase, cxQueued, cxBase]; omega),
        hraise.regs _ (by simp only [List.mem_singleton, aCamNak, camBase, aEvtLost]; omega), hcount]
    · exact (hraised.of_eq (hbump.only .devTime (by decide)) rfl).of_eq rfl (congrArg Root.lastEv (htame.only .root (by decide)))

/-- Settles O60. -/
theorem ispProcessesAndExposes : Obligations.IspProcessesAndExposes := by
  unfold Obligations.IspProcessesAndExposes
  exact ⟨fun s halive => isp_enter halive, fun s halive => isp_progress halive, fun s c v halive => exposure_go halive,
    fun s b halive => exposure_ends halive⟩

end Sys2Proof.Machine
end

section
/-! PROOF. Tile boundaries and slice wheels (R250, R253, R275, R293). -/

namespace Sys2Proof.Machine

/-! ## Tasks and Branches through an update -/

theorem branch_setBranch_other (d : Dev) {n m : Nat} (x : Branch) (h : m ≠ n) : branch (setBranch d n x) m = branch d m := Map.get_put_other _ _ _ h

theorem branch_of_br {d e : Dev} (h : e.br = d.br) (n : Nat) : branch e n = branch d n := by rw [branch, h]; rfl

/-- An update of tasks that keeps what `φ` shows of them. -/
theorem taskSt_mapTask_map {α : Type} (φ : TaskSt → α) {g : TaskSt → TaskSt} (hg : ∀ t, (g t).task = t.task) (hφ : ∀ t, φ (g t) = φ t)
    (d : Dev) (k n : Nat) (o : Bool) (j m : Nat) (r : Bool) : (taskSt (mapTask d k n o g) j m r).map φ = (taskSt d j m r).map φ := by
  have himg : kPipe (imgOf (mapTask d k n o g) r) j = kPipe (imgOf d r) j := rfl
  unfold taskSt
  rw [himg, mapTask_eq, frameOf_mapFrame (g := withTask k g) _ _ _ _ fun f => ⟨rfl, rfl, rfl⟩]
  cases frameOf d (kPipe (imgOf d r) j) m r with
  | none => rfl
  | some f =>
    simp only [Option.map_some]
    split
    · rw [taskIn_withTask f hg]
      cases taskIn f j with
      | none => rfl
      | some t =>
        simp only [Option.map_some]
        split
        · rw [hφ]
        · rfl
    · rfl

/-! ## The wheel -/

theorem stem_of_wheelOf {nv : NonVol} {d : Dev} {n : Nat} {w : Nat × Nat × Nat} (h : w ∈ wheelOf nv d n) : w.2.1 < 4 := by
  unfold wheelOf at h
  extract_lets own at h
  have hown (m : Nat) (hw : w ∈ own m) : w.2.1 < 4 := by
    obtain ⟨x, -, rfl⟩ := List.mem_map.1 hw
    exact Nat.mod_lt _ (by decide)
  rcases List.mem_append.1 h with hw | hw
  · exact hown n hw
  · obtain ⟨m, -, hw⟩ := List.mem_flatMap.1 hw
    exact hown m hw

theorem getD_mem {α : Type} {l : List α} {i : Nat} (h : i < l.length) (x : α) : l.getD i x ∈ l := by
  rw [List.getD_eq_getElem _ _ h]
  exact List.getElem_mem h

/-- The first of the positions from `a` on, around a ring of `n`, at which `p` holds. -/
theorem find?_turn {n a i : Nat} (hi : i < n) {p : Nat → Bool} (hbefore : ∀ j, j < i → p ((a + j) % n) = false) (hp : p ((a + i) % n) = true) :
    ((List.range n).map (fun j => (a + j) % n)).find? p = some ((a + i) % n) := by
  rw [List.find?_map]
  have hfind : (List.range n).find? (p ∘ fun j => (a + j) % n) = some i :=
    List.find?_range_eq_some.2 ⟨hp, by simpa using hi, fun j hj => by simpa using hbefore j hj⟩
  rw [hfind]
  rfl

theorem turn_ne {n a i : Nat} (ha : a < n) (hi : i < n) : (a + i) % n ≠ a ↔ i ≠ 0 := by
  refine not_congr ⟨fun h => ?_, fun h => ?_⟩
  · rcases Nat.lt_or_ge (a + i) n with hlt | hge
    · rw [Nat.mod_eq_of_lt hlt] at h; omega
    · rw [Nat.mod_eq_sub_mod hge, Nat.mod_eq_of_lt (by omega)] at h; omega
  · rw [h, Nat.add_zero, Nat.mod_eq_of_lt ha]

/-! ## What a Branch takes up, hands over and leaves -/

/-- The sequencer's word of a Branch. -/
theorem sequencer_shows (n h t b : Nat) (d : Dev) : Tame [.regs] [brBase n] d (setFlds d [(seqHolder n, h), (seqTask n, t), (seqBoundary n, b)]) ∧
    fld (setFlds d [(seqHolder n, h), (seqTask n, t), (seqBoundary n, b)]) (seqHolder n) = h % 8 ∧
    fld (setFlds d [(seqHolder n, h), (seqTask n, t), (seqBoundary n, b)]) (seqTask n) = t % 1024 ∧
    flag (setFlds d [(seqHolder n, h), (seqTask n, t), (seqBoundary n, b)]) (seqBoundary n) = (b % 2 == 1) := by
  have hin : (seqHolder n).lo + (seqHolder n).width ≤ 32 ∧ (seqTask n).lo + (seqTask n).width ≤ 32 ∧ (seqBoundary n).lo + (seqBoundary n).width ≤ 32 := by
    simp [seqHolder, seqTask, seqBoundary]
  obtain ⟨hh, ht, hb⟩ := hin
  refine ⟨(setFlds_tame ..).mono (by decide) (by simp [seqHolder, seqTask, seqBoundary]), ?_, ?_, ?_⟩
  · rw [setFlds_cons, setFlds_cons, setFlds_cons, setFlds_nil, fld_setFld_other _ _ _ _ hb (.inr (by simp [seqHolder, seqBoundary])),
      fld_setFld_other _ _ _ _ ht (.inr (by simp [seqHolder, seqTask])), fld_setFld_same _ _ _ hh]
    rfl
  · rw [setFlds_cons, setFlds_cons, setFlds_cons, setFlds_nil, fld_setFld_other _ _ _ _ hb (.inr (by simp [seqTask, seqBoundary])),
      fld_setFld_same _ _ _ ht]
    rfl
  · rw [flag, setFlds_cons, setFlds_cons, setFlds_cons, setFlds_nil, fld_setFld_same _ _ _ hb]
    rfl

/-- A task that starts with its first issue. -/
def started (time : Nat) (t : TaskSt) : TaskSt := if t.state = 1 then { t with state := 2, start := time } else t

theorem started_keeps (time : Nat) (t : TaskSt) : (started time t).task = t.task ∧ (started time t).state = if t.state = 1 then 2 else t.state := by
  unfold started
  split
  · exact ⟨rfl, rfl⟩
  · exact ⟨rfl, rfl⟩

/-- The Branch with context `c` in front. -/
def withCurrent (c : Ctx) (x : Branch) : Branch :=
  { x with ctxs := { c with edge := false } :: x.ctxs.filter (fun y => !(y.task == c.task && y.pfn == c.pfn && y.out == c.out && y.logic == c.logic)),
           cur := some (c.task, c.pfn) }

/-- The pages staged for a task that starts are staged no longer. -/
def unstaged (c : Ctx) (d : Dev) : Dev :=
  if (match taskSt d c.task c.pfn c.out with | some t => t.state == 1 | none => false) && !c.out then unstage d c.task else d

theorem take_eq (n s : Nat) (c : Ctx) (d : Dev) : take n s c d =
    setFlds (mapTask (unstaged c (setBranch d n (withCurrent c (branch d n)))) c.task c.pfn c.out
      (started (unstaged c (setBranch d n (withCurrent c (branch d n)))).devTime.toNat)) [(seqHolder n, s), (seqTask n, c.task), (seqBoundary n, 0)] := rfl

theorem unstaged_only (c : Ctx) (d : Dev) : Only [.trk] d (unstaged c d) ∧ (c.out = true → unstaged c d = d) := by
  refine ⟨?_, fun h => if_neg (by simp [h])⟩
  unfold unstaged
  generalize ((match taskSt d c.task c.pfn c.out with | some t => t.state == 1 | none => false) && !c.out) = b
  cases b
  · exact .refl _ _
  · exact (unstage_within ..).only

theorem taskSt_of_only {l : List Part} {d e : Dev} (h : Only l d e) (hr : Part.root ∉ l) (hs : Part.stem ∉ l) (k n : Nat) (o : Bool) :
    taskSt e k n o = taskSt d k n o :=
  taskSt_of (imgOf_of_spaces (congrArg Root.space0 (h .root hr)) (congrArg Root.space1 (h .root hr))) (h .stem hs) k n o

theorem take_shows (n s : Nat) (c : Ctx) (d : Dev) : Only [.regs, .stem, .trk, .br] d (take n s c d) ∧
    (c.out = true → Only [.regs, .stem, .br] d (take n s c d)) ∧ RegsBut [brBase n] d (take n s c d) ∧
    curCtx (take n s c d) n = some { c with edge := false } ∧ (branch (take n s c d) n).wheel = (branch d n).wheel ∧
    fld (take n s c d) (seqHolder n) = s % 8 ∧ fld (take n s c d) (seqTask n) = c.task % 1024 ∧ flag (take n s c d) (seqBoundary n) = false ∧
    (taskSt (take n s c d) c.task c.pfn c.out).map (·.state) = (taskSt d c.task c.pfn c.out).map (fun t => if t.state = 1 then 2 else t.state) := by
  have hset := (setBranch_within d n (withCurrent c (branch d n))).only
  have hbr := branch_setBranch_same d n (withCurrent c (branch d n))
  rw [take_eq]
  generalize setBranch d n (withCurrent c (branch d n)) = x at *
  obtain ⟨hun, hout⟩ := unstaged_only c x
  have hmap := (mapTask_within (unstaged c x) c.task c.pfn c.out (started (unstaged c x).devTime.toNat)).only
  have hst : (taskSt (mapTask (unstaged c x) c.task c.pfn c.out (started (unstaged c x).devTime.toNat)) c.task c.pfn c.out).map (·.state) =
      (taskSt d c.task c.pfn c.out).map (fun t => if t.state = 1 then 2 else t.state) := by
    rw [taskSt_mapTask_same fun t => (started_keeps _ t).1, Option.map_map, taskSt_of_only hun (by decide) (by decide),
      taskSt_of_only hset (by decide) (by decide)]
    exact congrArg (Option.map · _) (funext fun t => (started_keeps _ t).2)
  generalize mapTask (unstaged c x) c.task c.pfn c.out (started (unstaged c x).devTime.toNat) = y at *
  obtain ⟨htame, hholder, htask, hbound⟩ := sequencer_shows n s c.task 0 y
  generalize setFlds y [(seqHolder n, s), (seqTask n, c.task), (seqBoundary n, 0)] = z at *
  have hxz : branch z n = branch x n := branch_of_br ((htame.only .br (by decide)).trans ((hmap .br (by decide)).trans (hun .br (by decide)))) n
  refine ⟨?_, fun ho => ?_, ?_, ?_, ?_, hholder, htask, hbound, ?_⟩
  · exact (((hset.mono (by decide)).via hun (by decide)).via hmap (by decide)).via htame.only (by decide)
  · rw [hout ho] at hmap
    exact ((hset.mono (by decide)).via hmap (by decide)).via htame.only (by decide)
  · exact (RegsBut.of_only (((hset.mono (l := [.stem, .trk, .br]) (by decide)).via hun (by decide)).via hmap (by decide)) (by decide) _).trans htame.regs
  · rw [curCtx, hxz, hbr]; rfl
  · rw [hxz, hbr]; rfl
  · rw [taskSt_of_only htame.only (by decide) (by decide)]; exact hst

/-- A Running task counts the hand-over. -/
def handedOver (t : TaskSt) : TaskSt := if t.state = 2 then { t with slices := t.slices + 1 } else t

theorem handedOver_keeps (t : TaskSt) : (handedOver t).task = t.task ∧ (handedOver t).state = t.state := by
  unfold handedOver
  split <;> exact ⟨rfl, rfl⟩

theorem countHandover_shows {n s : Nat} (hn : n < 16) (hs : s < 4) (d : Dev) : Tame [.regs, .stem] [aHandover n, aSlices s] d (countHandover n s d) ∧
    (reg (countHandover n s d) (aHandover n)).toNat = min ((reg d (aHandover n)).toNat + 1) 0xFFFFFFFF ∧
    (reg (countHandover n s d) (aSlices s)).toNat = min ((reg d (aSlices s)).toNat + 1) 0xFFFFFFFF ∧
    ∀ k m o, (taskSt (countHandover n s d) k m o).map (·.state) = (taskSt d k m o).map (·.state) := by
  have hne : aHandover n ≠ aSlices s := by simp only [aHandover, aSlices, brBase]; omega
  have h1 := bump_tame d (aHandover n) 1
  have h2 := bump_tame (bump d (aHandover n) 1) (aSlices s) 1
  have hhand : (reg (bump (bump d (aHandover n) 1) (aSlices s) 1) (aHandover n)).toNat = min ((reg d (aHandover n)).toNat + 1) 0xFFFFFFFF := by
    rw [reg_bump_other _ _ hne, reg_bump_same]
  have hslices : (reg (bump (bump d (aHandover n) 1) (aSlices s) 1) (aSlices s)).toNat = min ((reg d (aSlices s)).toNat + 1) 0xFFFFFFFF := by
    rw [reg_bump_same, reg_bump_other _ _ hne.symm]
  have hboth : Tame [.regs] [aHandover n, aSlices s] d (bump (bump d (aHandover n) 1) (aSlices s) 1) :=
    (h1.mono (by decide) (by simp)).trans (h2.mono (by decide) (by simp))
  have heq : countHandover n s d = (branch (bump (bump d (aHandover n) 1) (aSlices s) 1) n).ctxs.foldl
      (fun d c => mapTask d c.task c.pfn c.out handedOver) (bump (bump d (aHandover n) 1) (aSlices s) 1) := rfl
  rw [heq]
  generalize bump (bump d (aHandover n) 1) (aSlices s) 1 = x at *
  have hfold (l : List Ctx) (y : Dev) : Only [.stem] y (l.foldl (fun d c => mapTask d c.task c.pfn c.out handedOver) y) ∧
      ∀ k m o, (taskSt (l.foldl (fun d c => mapTask d c.task c.pfn c.out handedOver) y) k m o).map (·.state) = (taskSt y k m o).map (·.state) := by
    induction l generalizing y with
    | nil => exact ⟨.refl _ _, fun _ _ _ => rfl⟩
    | cons c l ih =>
      obtain ⟨ho, ht⟩ := ih (mapTask y c.task c.pfn c.out handedOver)
      refine ⟨((mapTask_within y c.task c.pfn c.out handedOver).only).trans ho, fun k m o => (ht k m o).trans ?_⟩
      exact taskSt_mapTask_map _ (fun t => (handedOver_keeps t).1) (fun t => (handedOver_keeps t).2) y c.task c.pfn c.out k m o
  obtain ⟨ho, ht⟩ := hfold (branch x n).ctxs x
  have hreg := ho .regs (by decide)
  refine ⟨(hboth.mono (by decide) (List.Subset.refl _)).trans ((Tame.of_only ho (by decide) _).mono (by decide) (List.Subset.refl _)), ?_, ?_, fun k m o => ?_⟩
  · rw [reg_of_regs hreg]; exact hhand
  · rw [reg_of_regs hreg]; exact hslices
  · rw [ht, taskSt_of_only hboth.only (by decide) (by decide)]

theorem idle_shows (n : Nat) (d : Dev) : Only [.regs, .br] d (idle n d) ∧ fld (idle n d) (seqHolder n) = 7 ∧ fld (idle n d) (seqTask n) = 0 ∧
    flag (idle n d) (seqBoundary n) = true ∧ curCtx (idle n d) n = none ∧ RegsBut [brBase n] d (idle n d) := by
  have hset := (setBranch_within d n { branch d n with cur := none, spent := false }).only
  have hbr := branch_setBranch_same d n { branch d n with cur := none, spent := false }
  unfold idle
  generalize setBranch d n { branch d n with cur := none, spent := false } = x at *
  obtain ⟨htame, hholder, htask, hbound⟩ := sequencer_shows n 7 0 1 x
  refine ⟨(hset.mono (by decide)).via htame.only (by decide), hholder, htask, hbound, ?_, (RegsBut.of_only hset (by decide) _).trans htame.regs⟩
  rw [curCtx, branch_of_br (htame.only .br (by decide)), hbr]
  rfl

/-! ## The operations -/

theorem tileBoundaryOp_closed {nv : NonVol} {n : Nat} {d : Dev} (h : flag d (seqBoundary n) = false ∨ fenced d (0x10 + n) = true) :
    tileBoundaryOp nv n d = d := by
  refine if_pos ?_
  rcases h with h | h <;> simp [h]

theorem choose_mem {b : Bytes} {l : List Ctx} {c : Ctx} (h : choose b l = some c) : c ∈ l := by
  have hfold (cs : List Ctx) (m : Ctx) : cs.foldl (fun m x => if before b x m then x else m) m ∈ m :: cs := by
    induction cs generalizing m with
    | nil => simp
    | cons x cs ih =>
      rw [List.foldl_cons]
      have := ih (if before b x m then x else m)
      rcases List.mem_cons.1 this with heq | hin
      · rw [heq]; split <;> simp
      · simp [hin]
  cases l with
  | nil => cases h
  | cons x cs => exact Option.some.inj h ▸ hfold cs x

/-- The contexts of the outgoing Graft that the Branch may take up. -/
def outgoing (d : Dev) (n : Nat) : List Ctx :=
  (branch d n).ctxs.filter (fun c => canIssue d c && c.out && !fenced d (4 + pStem (img1 d) (kPipe (img1 d) c.task)))

/-- Whether entry `i` of the wheel has a context that it may issue. -/
def entryReady (nv : NonVol) (d : Dev) (n i : Nat) : Bool := !(entryCtxs d n ((wheelOf nv d n).getD i (0, 0, 0))).isEmpty

/-- The Branch passes to entry `i` of its wheel: a hand-over when it is another entry than the one in turn and the Branch was not idle. -/
def passedTo (nv : NonVol) (n i : Nat) (d : Dev) : Dev :=
  if i ≠ (branch d n).wheel % (wheelOf nv d n).length ∧ fld d (seqHolder n) ≠ 7 then countHandover n ((wheelOf nv d n).getD i (0, 0, 0)).2.1 d else d

theorem passedTo_shows {nv : NonVol} {n i : Nat} {d : Dev} {w : Nat × Nat × Nat} (hw : w = (wheelOf nv d n).getD i (0, 0, 0)) (hn : n < 16)
    (hs : w.2.1 < 4) : Tame [.regs, .stem] [aHandover n, aSlices w.2.1] d (passedTo nv n i d) ∧
    (i ≠ (branch d n).wheel % (wheelOf nv d n).length → fld d (seqHolder n) ≠ 7 →
      (reg (passedTo nv n i d) (aHandover n)).toNat = min ((reg d (aHandover n)).toNat + 1) 0xFFFFFFFF ∧
      (reg (passedTo nv n i d) (aSlices w.2.1)).toNat = min ((reg d (aSlices w.2.1)).toNat + 1) 0xFFFFFFFF) ∧
    ∀ k m o, (taskSt (passedTo nv n i d) k m o).map (·.state) = (taskSt d k m o).map (·.state) := by
  obtain ⟨htame, hh, hsl, ht⟩ := countHandover_shows hn hs d
  unfold passedTo
  rw [← hw]
  split
  · exact ⟨htame, fun _ _ => ⟨hh, hsl⟩, ht⟩
  · next hp => exact ⟨.refl _ _ _, fun h1 h2 => absurd ⟨h1, h2⟩ hp, fun _ _ _ => rfl⟩

section
variable {nv : NonVol} {n : Nat} {d : Dev} (hb : flag d (seqBoundary n) = true) (hf : fenced d (0x10 + n) = false)
include hb hf

theorem tileBoundaryOp_outgoing {c : Ctx} (hc : choose (img1 d) (outgoing d n) = some c) :
    tileBoundaryOp nv n d = take n (pStem (img1 d) (kPipe (img1 d) c.task)) c d := by
  unfold tileBoundaryOp
  rw [if_neg (by simp [hb, hf])]
  unfold outgoing at hc
  dsimp only
  rw [hc]

theorem tileBoundaryOp_turn {i : Nat} {c : Ctx} (hout : choose (img1 d) (outgoing d n) = none) (hs : (branch d n).spent = false)
    (hlen : (wheelOf nv d n).length ≠ 0)
    (hturn : ((List.range (wheelOf nv d n).length).map (fun i => ((branch d n).wheel % (wheelOf nv d n).length + i) % (wheelOf nv d n).length)).find?
      (entryReady nv d n) = some i)
    (hc : choose (img0 d) (entryCtxs d n ((wheelOf nv d n).getD i (0, 0, 0))) = some c) :
    tileBoundaryOp nv n d = take n ((wheelOf nv d n).getD i (0, 0, 0)).2.1 c
      (setBranch (passedTo nv n i d) n { branch (passedTo nv n i d) n with wheel := i, spent := false }) := by
  unfold tileBoundaryOp
  rw [if_neg (by simp [hb, hf])]
  unfold outgoing at hout
  unfold entryReady at hturn
  dsimp only
  rw [hout]
  dsimp only
  rw [if_neg (by simpa using hlen), if_neg (by simp [hs]), hturn]
  dsimp only
  rw [hc]
  simp only [passedTo, Bool.and_eq_true, decide_eq_true_eq, ne_eq]

theorem tileBoundaryOp_idle (hs : (branch d n).spent = false) (h : ∀ c, c ∈ (branch d n).ctxs → canIssue d c = false) :
    tileBoundaryOp nv n d = idle n d := by
  have hnone (p : Ctx → Bool) : (branch d n).ctxs.filter (fun c => canIssue d c && p c) = [] :=
    List.filter_eq_nil_iff.2 fun c hc => by simp [h c hc]
  have hout : (branch d n).ctxs.filter (fun c => canIssue d c && c.out && !fenced d (4 + pStem (img1 d) (kPipe (img1 d) c.task))) = [] := by
    simpa only [Bool.and_assoc] using hnone (fun c => c.out && !fenced d (4 + pStem (img1 d) (kPipe (img1 d) c.task)))
  have hentry (w : Nat × Nat × Nat) : entryCtxs d n w = [] := by
    unfold entryCtxs
    simpa only [Bool.and_assoc] using hnone (fun c => !c.out && (c.logic == w.1 && (pStem (img0 d) (kPipe (img0 d) c.task) == w.2.1 &&
      !fenced d (4 + w.2.1))))
  unfold tileBoundaryOp
  rw [if_neg (by simp [hb, hf])]
  dsimp only
  rw [hout]
  simp only [choose, hs, Bool.false_and, Bool.false_eq_true, if_false, hentry, List.isEmpty_nil, Bool.not_true]
  split
  · rfl
  · rw [List.find?_eq_none.2 (by simp)]

end

theorem sliceHandoverOp_idle {nv : NonVol} {n : Nat} {d : Dev} (h : (branch d n).spent = false ∨ flag d (seqBoundary n) = false ∨
    (wheelOf nv d n).length ≤ 1 ∨ (∃ c, c ∈ (branch d n).ctxs ∧ c.drains ≠ [])) : sliceHandoverOp nv n d = d := by
  refine if_neg ?_
  simp only [Bool.and_eq_true, decide_eq_true_eq, Bool.not_eq_true', List.any_eq_false]
  rintro ⟨⟨⟨hs, hb⟩, hl⟩, hd⟩
  rcases h with h | h | h | ⟨c, hc, h⟩
  · exact absurd (hs.symm.trans h) (by decide)
  · exact absurd (hb.symm.trans h) (by decide)
  · omega
  · exact hd c hc (by simpa using h)

theorem sliceHandoverOp_goes {nv : NonVol} {n i : Nat} {d : Dev} (hs : (branch d n).spent = true) (hb : flag d (seqBoundary n) = true)
    (hl : 1 < (wheelOf nv d n).length) (hd : ∀ c, c ∈ (branch d n).ctxs → c.drains = [])
    (hturn : ((List.range (wheelOf nv d n).length).map (fun i => ((branch d n).wheel + 1 + i) % (wheelOf nv d n).length)).find?
      (fun i => !fenced d (4 + ((wheelOf nv d n).getD i (0, 0, 0)).2.1)) = some i) :
    sliceHandoverOp nv n d = setFlds (countHandover n ((wheelOf nv d n).getD i (0, 0, 0)).2.1
      (setBranch d n { branch d n with wheel := i, spent := false, cur := none })) [(seqHolder n, ((wheelOf nv d n).getD i (0, 0, 0)).2.1), (seqTask n, 0)] := by
  unfold sliceHandoverOp
  rw [if_pos]
  · dsimp only
    rw [hturn]
  · simp only [Bool.and_eq_true, decide_eq_true_eq, Bool.not_eq_true', List.any_eq_false]
    exact ⟨⟨⟨hs, hb⟩, hl⟩, fun c hc => by simp [hd c hc]⟩

/-- The sequencer's holder and task. -/
theorem holder_shows (n h t : Nat) (d : Dev) : Tame [.regs] [brBase n] d (setFlds d [(seqHolder n, h), (seqTask n, t)]) ∧
    fld (setFlds d [(seqHolder n, h), (seqTask n, t)]) (seqHolder n) = h % 8 ∧
    fld (setFlds d [(seqHolder n, h), (seqTask n, t)]) (seqTask n) = t % 1024 := by
  have ht : (seqTask n).lo + (seqTask n).width ≤ 32 := by simp [seqTask]
  refine ⟨(setFlds_tame ..).mono (by decide) (by simp [seqHolder, seqTask]), ?_, ?_⟩
  · rw [setFlds_cons, setFlds_cons, setFlds_nil, fld_setFld_other _ _ _ _ ht (.inr (by simp [seqHolder, seqTask])),
      fld_setFld_same _ _ _ (by simp [seqHolder])]
    rfl
  · rw [setFlds_cons, setFlds_cons, setFlds_nil, fld_setFld_same _ _ _ ht]
    rfl

theorem seq_ne_counts {n s : Nat} (hn : n < 16) (hs : s < 4) : aHandover n ≠ brBase n ∧ aSlices s ≠ brBase n := by
  simp only [aHandover, aSlices, brBase]; omega

/-- Settles O51. -/
theorem branchesPassAlongTheirWheels : Obligations.BranchesPassAlongTheirWheels := by
  unfold Obligations.BranchesPassAlongTheirWheels
  rintro n x wh s halive rfl rfl
  refine ⟨fun h => does_nothing _ rfl halive (tileBoundaryOp_closed h), fun c hb hf hc => ?_, fun i c w hb hf hout hs hi hbefore hw hc => ?_,
    fun hb hf hnone hs => ?_, fun hh hl => ?_, fun h => does_nothing _ rfl halive ?_, fun i w hs hb hl hd hi hbefore hw hf => ?_,
    fun h => does_nothing _ rfl halive (sliceHandoverOp_idle h)⟩
  · have hcout : c.out = true := by
      have := (List.mem_filter.1 (choose_mem hc)).2
      simp only [Bool.and_eq_true] at this
      exact this.1.2
    obtain ⟨-, honly, hregs, hcur, -, hholder, htask, hbound, -⟩ := take_shows n.val (pStem (img1 s.dev) (kPipe (img1 s.dev) c.task)) c s.dev
    exact does_eq _ rfl halive (tileBoundaryOp_outgoing hb hf hc) (honly hcout) ⟨hcur, hholder, htask, hbound, hregs⟩
  · have hlen : (wheelOf s.nv s.dev n.val).length ≠ 0 := by omega
    have hnone : choose (img1 s.dev) (outgoing s.dev n.val) = none := by
      have hnil : outgoing s.dev n.val = [] := List.filter_eq_nil_iff.2 fun c hc => by simp [hout c hc]
      rw [hnil]; rfl
    have hw4 : w.2.1 < 4 := hw ▸ stem_of_wheelOf (getD_mem (Nat.mod_lt _ (by omega)) _)
    have hturn := find?_turn (a := (branch s.dev n.val).wheel % (wheelOf s.nv s.dev n.val).length) hi (p := entryReady s.nv s.dev n.val)
      (fun j hj => by rw [entryReady, hbefore j hj]; rfl)
      (by
        rw [entryReady, ← hw, Bool.not_eq_true', List.isEmpty_eq_false_iff]
        exact List.ne_nil_of_mem (choose_mem hc))
    have hop := tileBoundaryOp_turn (nv := s.nv) hb hf hnone hs hlen hturn (hw ▸ hc)
    obtain ⟨hcount, hcounts, hstate⟩ := passedTo_shows hw n.isLt hw4
    rw [← hw] at hop
    generalize hk : ((branch s.dev n.val).wheel % (wheelOf s.nv s.dev n.val).length + i) % (wheelOf s.nv s.dev n.val).length = k at *
    generalize passedTo s.nv n.val k s.dev = y at *
    have hset := (setBranch_within y n.val { branch y n.val with wheel := k, spent := false }).only
    have hbr := branch_setBranch_same y n.val { branch y n.val with wheel := k, spent := false }
    generalize setBranch y n.val { branch y n.val with wheel := k, spent := false } = z at *
    obtain ⟨honly, -, hregs, hcur, hwheel, hholder, htask, hbound, htaken⟩ := take_shows n.val w.2.1 c z
    have hyz : RegsBut [aHandover n.val, aSlices w.2.1] s.dev z := .of_regs hcount.regs (hset .regs (by decide))
    refine does_eq _ rfl halive hop ?_ ⟨hcur, ?_, ?_, htask, hbound, ?_, fun h0 h7 => ?_⟩
    · exact ((hcount.only.mono (by decide)).via hset (by decide)).via honly (by decide)
    · rw [hwheel, hbr]
    · rw [hholder, Nat.mod_eq_of_lt (by omega)]
    · rw [htaken, taskSt_of_only hset (by decide) (by decide)]
      have := congrArg (Option.map (fun k => if k = 1 then 2 else k)) (hstate c.task c.pfn c.out)
      simpa only [Option.map_map, Function.comp_def] using this
    · obtain ⟨hne, hne'⟩ := seq_ne_counts n.isLt hw4
      have hmoved := (turn_ne (Nat.mod_lt (branch s.dev n.val).wheel (Nat.pos_of_ne_zero hlen)) hi).2 h0
      rw [hk] at hmoved
      obtain ⟨hh, hsl⟩ := hcounts hmoved h7
      rw [hregs _ (by simpa using hne), hregs _ (by simpa using hne'), reg_of_regs (hset .regs (by decide)), reg_of_regs (hset .regs (by decide))]
      exact ⟨hh, hsl⟩
  · obtain ⟨honly, hholder, htask, hbound, hcur, hregs⟩ := idle_shows n.val s.dev
    exact does_eq _ rfl halive (tileBoundaryOp_idle hb hf hs hnone) honly ⟨hholder, htask, hbound, hcur, hregs⟩
  · have hop : sliceExpireOp s.nv n.val s.dev = setBranch s.dev n.val { branch s.dev n.val with spent := true } := if_pos (by simp [hh, hl])
    exact does_eq _ rfl halive hop (setBranch_within ..).only ⟨branch_setBranch_same .., fun m hm => branch_setBranch_other _ _ hm⟩
  · refine if_neg ?_
    simp only [Bool.and_eq_true, decide_eq_true_eq, not_and]
    intro hh; rcases h with h | h
    · exact absurd h hh
    · omega
  · have hw4 : w.2.1 < 4 := hw ▸ stem_of_wheelOf (getD_mem (Nat.mod_lt _ (by omega)) _)
    have hturn := find?_turn (a := (branch s.dev n.val).wheel + 1) hi
      (p := fun i => !fenced s.dev (4 + ((wheelOf s.nv s.dev n.val).getD i (0, 0, 0)).2.1))
      (fun j hj => by simpa using hbefore j hj) (by rw [← hw, hf]; rfl)
    have hop := sliceHandoverOp_goes (nv := s.nv) hs hb hl hd hturn
    rw [← hw] at hop
    generalize hk : ((branch s.dev n.val).wheel + 1 + i) % (wheelOf s.nv s.dev n.val).length = k at *
    have hset := (setBranch_within s.dev n.val { branch s.dev n.val with wheel := k, spent := false, cur := none }).only
    have hbr := branch_setBranch_same s.dev n.val { branch s.dev n.val with wheel := k, spent := false, cur := none }
    have hbr' (m : Nat) (hm : m ≠ n.val) := branch_setBranch_other s.dev { branch s.dev n.val with wheel := k, spent := false, cur := none } hm
    generalize setBranch s.dev n.val { branch s.dev n.val with wheel := k, spent := false, cur := none } = y at *
    obtain ⟨hcount, hh, hsl, -⟩ := countHandover_shows n.isLt hw4 y
    generalize countHandover n.val w.2.1 y = z at *
    obtain ⟨htame, hholder, htask⟩ := holder_shows n.val w.2.1 0 z
    generalize setFlds z [(seqHolder n.val, w.2.1), (seqTask n.val, 0)] = e at *
    have hye (m : Nat) : branch e m = branch y m := branch_of_br ((htame.only .br (by decide)).trans (hcount.only .br (by decide))) m
    obtain ⟨hne, hne'⟩ := seq_ne_counts n.isLt hw4
    refine does_eq _ rfl halive hop ?_ ⟨?_, fun m hm => ?_, ?_, htask, ?_, ?_⟩
    · exact ((hset.mono (by decide)).via hcount.only (by decide)).via htame.only (by decide)
    · rw [hye, hbr]
    · rw [hye, hbr' m hm]
    · rw [hholder, Nat.mod_eq_of_lt (by omega)]
    · rw [htame.regs _ (by simpa using hne), hh, reg_of_regs (hset .regs (by decide))]
    · rw [htame.regs _ (by simpa using hne'), hsl, reg_of_regs (hset .regs (by decide))]

end Sys2Proof.Machine
end

section
/-! PROOF. The sequencer's moves as the tile commands read them (R209, R211, R212). -/

namespace Sys2Proof.Machine

/-! ## Where a context goes (R209) -/

/-- `x`, standing where `c` stands. -/
def Ctx.standing (x c : Ctx) : Ctx :=
  { x with sect := c.sect, idx := c.idx, yi := c.yi, z := c.z, xi := c.xi, r := c.r, it := c.it, edge := c.edge }

theorem Ctx.standing_self (c : Ctx) : c.standing c = c := rfl

/-- Where a context goes depends on where it stands and on the loops' extent alone. -/
theorem norm_standing (b : Bytes) (p j nb f : Nat) {x c : Ctx} (hwo : x.wo = c.wo) (hho : x.ho = c.ho) :
    Ctx.norm b p j nb f (x.standing c) = x.standing (Ctx.norm b p j nb f c) := by
  induction f generalizing c with
  | zero => rfl
  | succ f ih =>
    have hstart (c' : Ctx) (hwo' : x.wo = c'.wo) (hho' : x.ho = c'.ho) :
        (if dealtLine b p j nb (x.standing c').yi < (x.standing c').ho then Ctx.norm b p j nb f { x.standing c' with sect := 1, idx := 0 }
          else { x.standing c' with sect := 4, idx := 0 }) =
        x.standing (if dealtLine b p j nb c'.yi < c'.ho then Ctx.norm b p j nb f { c' with sect := 1, idx := 0 } else { c' with sect := 4, idx := 0 }) := by
      rw [show (x.standing c').ho = c'.ho from hho', apply_ite x.standing]
      exact ite_congr rfl (fun _ => ih (c := { c' with sect := 1, idx := 0 }) hwo' hho') fun _ => rfl
    unfold Ctx.norm
    dsimp only
    rw [show (x.standing c).sect = c.sect from rfl, show (x.standing c).idx = c.idx from rfl, apply_ite x.standing]
    refine ite_congr rfl (fun _ => rfl) fun _ => ?_
    split
    · exact hstart c hwo hho
    · exact ih (c := { c with sect := if hN b p 2 = 0 then 3 else 2, idx := 0, r := 0 }) hwo hho
    · rw [apply_ite x.standing]
      exact ite_congr rfl (fun _ => ih (c := { c with idx := 0, r := c.r + 1 }) hwo hho) fun _ => ih (c := { c with sect := 3, idx := 0, r := 0 }) hwo hho
    · refine (ite_congr (congrArg (c.xi + 1 < nXi b p ·) hwo) (fun _ => ?_) fun _ => ?_).trans (apply_ite x.standing _ _ _).symm
      · exact hstart { c with idx := 0, it := c.it + 1, edge := true, xi := c.xi + 1 } hwo hho
      · refine (ite_congr rfl (fun _ => ?_) fun _ => ?_).trans (apply_ite x.standing _ _ _).symm
        · exact hstart { c with idx := 0, it := c.it + 1, edge := true, xi := 0, z := c.z + 1 } hwo hho
        · exact hstart { c with idx := 0, it := c.it + 1, edge := true, xi := 0, z := 0, yi := c.yi + 1 } hwo hho

/-- The context after the next instruction. -/
def Ctx.next (e : Env) (c : Ctx) : Ctx := Ctx.norm e.b e.p e.j e.nb 8 { c with idx := c.idx + 1, short := false }

theorem next_eq (e : Env) (c : Ctx) : c.next e = ({ c with short := false } : Ctx).standing (c.next e) := by
  have h := norm_standing e.b e.p e.j e.nb 8 (x := { c with short := false }) (c := { c with idx := c.idx + 1, short := false }) rfl rfl
  exact h

theorem next_place {e : Env} {c c' : Ctx} (hp : c'.place = c.place) (he : c'.edge = c.edge) (hwo : c'.wo = c.wo) (hho : c'.ho = c.ho) :
    (c'.next e).place = (c.next e).place := by
  simp only [Ctx.place, Prod.mk.injEq] at hp
  obtain ⟨h1, h2, h3, h4, h5, h6, h7⟩ := hp
  have hsame : ({ c' with idx := c'.idx + 1, short := false } : Ctx) =
      ({ c' with short := false } : Ctx).standing { c with idx := c.idx + 1, short := false } := by
    simp only [Ctx.standing, ← h1, ← h2, ← h3, ← h4, ← h5, ← h6, ← h7, ← he]
  unfold Ctx.next
  rw [hsame, norm_standing (x := { c' with short := false }) (c := { c with idx := c.idx + 1, short := false }) e.b e.p e.j e.nb 8 hwo hho]
  rfl

/-! ## The context in hand -/

theorem curCtx_some {d : Dev} {n : Nat} {c : Ctx} (h : curCtx d n = some c) : (branch d n).cur.isSome = true ∧ ∃ l, (branch d n).ctxs = c :: l := by
  unfold curCtx at h
  split at h
  · next hc => exact ⟨hc, List.head?_eq_some_iff.1 h⟩
  · cases h

theorem curCtx_of_branch {d e : Dev} {n : Nat} (h : branch e n = branch d n) : curCtx e n = curCtx d n := by rw [curCtx, h]; rfl

theorem branch_mapCur (d : Dev) (n : Nat) (f : Ctx → Ctx) (m : Nat) :
    branch (mapCur d n f) m = { branch d m with ctxs := (branch (mapCur d n f) m).ctxs } := by
  unfold mapCur
  split
  · rfl
  · by_cases h : m = n
    · subst h; rw [branch_setBranch_same]
    · rw [branch_setBranch_other d _ h]

theorem curCtx_mapCur (d : Dev) (n : Nat) (f : Ctx → Ctx) : curCtx (mapCur d n f) n = (curCtx d n).map f := by
  unfold mapCur curCtx
  split
  · next h => rw [h]; simp
  · next h => rw [branch_setBranch_same, h]; split <;> rfl

/-- A program's end and the lines that a context is done with. -/
def ended (e : Env) (c : Ctx) (d : Dev) : Dev :=
  let d := if c.sect = 4 then endProgram e d else d
  if c.sect = 4 || c.edge then consumeLines e d else d

theorem ended_only (e : Env) (c : Ctx) (d : Dev) : Only [.regs, .stem, .trk, .mem, .cells] d (ended e c d) := by
  have hend : Only [.regs, .stem, .trk, .mem, .cells] d (if c.sect = 4 then endProgram e d else d) := by
    split
    · exact (endProgram_within ..).only
    · exact .refl _ _
  unfold ended
  dsimp only
  generalize (if c.sect = 4 then endProgram e d else d) = x at *
  split
  · exact hend.via (consumeLines_within ..).only (by decide)
  · exact hend

theorem advance_eq (e : Env) (d : Dev) : advance e d = markBoundary e.n (match curCtx (mapCur d e.n (Ctx.next e)) e.n with
    | some c => ended e c (mapCur d e.n (Ctx.next e))
    | none => mapCur d e.n (Ctx.next e)) := rfl

theorem advance_only (e : Env) (d : Dev) : Only [.regs, .stem, .trk, .mem, .cells] (mapCur d e.n (Ctx.next e)) (advance e d) := by
  rw [advance_eq]
  generalize mapCur d e.n (Ctx.next e) = x
  have hend : Only [.regs, .stem, .trk, .mem, .cells] x (match curCtx x e.n with | some c => ended e c x | none => x) := by
    split
    · exact ended_only _ _ _
    · exact .refl _ _
  exact hend.via (markBoundary_within ..).only (by decide)

/-- Beyond the moves of the context in hand, an instruction that is done changes no Branch. -/
theorem advance_br (e : Env) (d : Dev) : (advance e d).br = (mapCur d e.n (Ctx.next e)).br := advance_only e d .br (by decide)

theorem branch_advance (e : Env) (d : Dev) (m : Nat) : branch (advance e d) m = { branch d m with ctxs := (branch (advance e d) m).ctxs } := by
  rw [branch_of_br (advance_br e d), branch_mapCur]

theorem curCtx_advance (e : Env) (d : Dev) : curCtx (advance e d) e.n = (curCtx d e.n).map (Ctx.next e) := by
  rw [curCtx_of_branch (branch_of_br (advance_br e d) e.n), curCtx_mapCur]

/-! ## Instructions that are issued, and those that wait -/

theorem stepped_advance {e : Env} {d : Dev} {c : Ctx} (h : curCtx d e.n = some c) (hp : c.place = e.c.place) (he : c.edge = e.c.edge)
    (hwo : c.wo = e.c.wo) (hho : c.ho = e.c.ho) : Stepped e (advance e d) := by
  rw [Stepped, curCtx_advance, h]
  exact congrArg some (next_place hp he hwo hho)

theorem StoresAs.advance {d w x : Dev} (h : StoresAs d w x) (e : Env) : StoresAs d w (advance e x) := by
  refine ⟨fun m => ?_, fun m t => ?_⟩
  · rw [branch_advance]; exact h.1 m
  · rw [twig, branch_advance]; exact h.2 m t

theorem StoresAs.refl (d : Dev) : StoresAs d d d := ⟨fun _ => rfl, fun _ _ => rfl⟩

theorem StoresAs.of_br {d w x y : Dev} (h : StoresAs d w x) (hb : y.br = x.br) : StoresAs d w y := by
  refine ⟨fun m => ?_, fun m t => ?_⟩
  · rw [branch_of_br hb]; exact h.1 m
  · rw [twig, branch_of_br hb]; exact h.2 m t

theorem StoresAs.mapCur {d w x : Dev} (h : StoresAs d w x) (n : Nat) (f : Ctx → Ctx) : StoresAs d w (mapCur x n f) := by
  refine ⟨fun m => ?_, fun m t => ?_⟩
  · rw [branch_mapCur]; exact h.1 m
  · rw [twig, branch_mapCur]; exact h.2 m t

/-- A Branch with its store and Twigs as they were. -/
theorem StoresAs.setBranch {d w x : Dev} (h : StoresAs d w x) {n : Nat} {y : Branch} (hs : y.store = (branch x n).store) (ht : y.twig = (branch x n).twig) :
    StoresAs d w (setBranch x n y) := by
  refine ⟨fun m => ?_, fun m t => ?_⟩
  · by_cases hm : m = n
    · subst hm; rw [branch_setBranch_same, hs]; exact h.1 m
    · rw [branch_setBranch_other _ _ hm]; exact h.1 m
  · by_cases hm : m = n
    · subst hm; rw [twig, branch_setBranch_same, ht]; exact h.2 m t
    · rw [twig, branch_setBranch_other _ _ hm]; exact h.2 m t

theorem recount_self (d : Dev) : recount d d = d := if_pos rfl

section
variable {op n : Nat} {run : Env → Dev → Dev × Bool} {nv : NonVol} {d : Dev} {e : Env} (henv : envOf nv d n = some e) (hop : e.i.op = op)
  (hskip : e.skip = false)
include henv hop hskip

theorem tileOp_run : tileOp op run nv n d = if (run e d).2 then advance e (run e d).1 else recount d (run e d).1 := by
  unfold tileOp
  rw [henv]
  dsimp only
  rw [if_neg (by simp [hop]), if_neg (by simp [hskip])]

theorem tileRead_run : tileRead op run nv n [] d = if (run e d).2 then advance e (run e d).1 else recount d (run e d).1 := by
  have hsame : (fun (e : Env) (d : Dev) => match run e (plantErrs e.c.logic [] d) with
      | (d', ok) => if ok then (readErrs e (servingTwig d e.n e.i.twig) [] d', true) else run e d) = run := by
    funext e d
    rw [show plantErrs e.c.logic [] d = d from rfl]
    rcases h : run e d with ⟨d', ok⟩
    cases ok <;> rfl
  exact (congrArg (fun r => tileOp op r nv n d) hsame).trans (tileOp_run henv hop hskip)

end

theorem env_of {nv : NonVol} {d : Dev} {n : Nat} {e : Env} (h : envOf nv d n = some e) : e.n = n ∧ e.nv = nv ∧ curCtx d n = some e.c ∧
    e.c.edge = false ∧ e.c.wait = none ∧ e.c.sect ≠ 4 := by
  unfold envOf at h
  split at h
  · cases h
  · next c hc =>
    split at h
    · cases h
    · next hno =>
      have he := Option.some.inj h
      subst he
      simp only [Bool.or_eq_true, decide_eq_true_eq, not_or, Bool.not_eq_true, Option.isSome_eq_false_iff, Option.isNone_iff_eq_none] at hno
      exact ⟨rfl, rfl, hc, hno.1.1.1, hno.1.1.2, hno.1.2⟩

theorem standsAt_ctx {s : State} {n : Fin 16} {op : Nat} {e : Env} (h : StandsAt s n op e) : curCtx s.dev e.n = some e.c := by
  obtain ⟨hn, -, hc, -⟩ := env_of h.2.1
  rw [hn]; exact hc

/-! ## Commands that may change what their row names -/

theorem does_touches {c : Instr} {s : State} {P : Dev → Prop} {e : Dev} (f : Dev → Dev) (he : exec c s = onDev s f) (ha : alive s.dev = true)
    (hop : f s.dev = e) (hp : P e) : Does c s (touches c) P := by
  obtain ⟨t, ht, -, honly⟩ := commandsChangeOnlyTheirParts c s
  have heq := (he.symm.trans ht).symm
  rw [onDev_alive f ha, hop] at heq
  have hdev : t.dev = e := congrArg State.dev (Host.Outcome.next.inj heq)
  rw [hdev] at honly
  exact does_eq f he ha hop honly hp

section
variable {c : Instr} {s : State} {n : Fin 16} {op : Nat} {run : Env → Dev → Dev × Bool} {e : Env} {x : Dev} {P : Dev → Prop} (h : StandsAt s n op e)
include h

/-- An instruction that reads and is issued. -/
theorem does_tileRead (he : exec c s = onDev s (tileRead op run s.nv n.val [])) (hrun : run e s.dev = (x, true)) (hp : P (advance e x)) :
    Does c s (touches c) P := by
  obtain ⟨halive, henv, hop, hskip⟩ := h
  exact does_touches _ he halive (by rw [tileRead_run henv hop hskip, hrun]; rfl) hp

/-- An instruction that reads and waits. -/
theorem does_tileRead_waits (he : exec c s = onDev s (tileRead op run s.nv n.val [])) (hrun : run e s.dev = (x, false)) (hp : P (recount s.dev x)) :
    Does c s (touches c) P := by
  obtain ⟨halive, henv, hop, hskip⟩ := h
  exact does_touches _ he halive (by rw [tileRead_run henv hop hskip, hrun]; rfl) hp

/-- An instruction that reads and waits before it has begun. -/
theorem does_tileRead_nothing (he : exec c s = onDev s (tileRead op run s.nv n.val [])) (hrun : run e s.dev = (s.dev, false)) :
    Does c s [] (fun _ => True) := by
  obtain ⟨halive, henv, hop, hskip⟩ := h
  exact does_nothing _ he halive (by rw [tileRead_run henv hop hskip, hrun]; exact recount_self _)

/-- An instruction that reads nothing. -/
theorem does_tileOp (he : exec c s = onDev s (tileOp op run s.nv n.val)) (hrun : run e s.dev = (x, true)) (hp : P (advance e x)) :
    Does c s (touches c) P := by
  obtain ⟨halive, henv, hop, hskip⟩ := h
  exact does_touches _ he halive (by rw [tileOp_run henv hop hskip, hrun]; rfl) hp

end

end Sys2Proof.Machine
end

section
/-! PROOF. Halo exchange, TSIG and TWAIT (R211, R228 to R230, R255, R488). -/

namespace Sys2Proof.Machine

/-! ## THALO (R230) -/

/-- A line that a THALO names: on its way, or expected. -/
def haloOf (e : Env) (y : Int) (bs : Bytes) : Halo :=
  ⟨(e.coord e.i.ca).index, y.toNat, bs, e.c.task, e.c.pfn, e.c.out, e.c.logic, e.c.nSig⟩

/-- A Branch with a line more on its way to it. -/
def Branch.sent (x : Branch) (h : Halo) : Branch := { x with haloIn := x.haloIn ++ [h] }

/-- A Branch that expects lines more. -/
def Branch.expecting (x : Branch) (l : List Halo) : Branch := { x with haloRx := x.haloRx ++ l }

/-- A Branch with a line landed: those still on their way and those still expected. -/
def Branch.landed (x : Branch) (h : Halo) (l l' : List Halo) : Branch := { x with haloIn := l, haloRx := l', haloLog := x.haloLog ++ [h] }

/-- The bytes of a line that a THALO sends. -/
def haloBytes (d : Dev) (e : Env) (y : Int) : Bytes :=
  sRead d e.c.logic ((e.region (e.coord e.i.ca)).addr y 0 0) (e.region (e.coord e.i.ca)).slotBytes

theorem thaloRun_waits {e : Env} {d : Dev} {y : Int} (hy : y ∈ haloLines d e) (h : slotBusy d e (e.coord e.i.ca).index y = true) :
    thaloRun e d = (d, false) := if_pos (List.any_eq_true.2 ⟨y, hy, h⟩)

/-- One line is sent. -/
def haloSend (e : Env) (m : Nat) (d : Dev) (y : Int) : Dev :=
  match curCtx d e.n with
  | none => d
  | some ctx =>
    let d := mapCur d e.n (fun c => { c with sent := c.sent ++ [(m, (e.coord e.i.ca).index, y.toNat)], again := c.again.erase (m, (e.coord e.i.ca).index, y.toNat) })
    if ctx.again.contains (m, (e.coord e.i.ca).index, y.toNat) then d
    else setBranch d m ((branch d m).sent (haloOf e y (haloBytes d e y)))

section
variable {e : Env} {d : Dev} (hfree : ∀ y, y ∈ haloLines d e → slotBusy d e (e.coord e.i.ca).index y = false)
include hfree

theorem thaloRun_receives (h : e.i.flag 10 = true) : thaloRun e d = (setBranch d e.c.logic ((branch d e.c.logic).expecting ((haloLines d e).map (fun y => haloOf e y []))), true) := by
  refine (if_neg ?_).trans (if_pos h)
  simpa using hfree

theorem thaloRun_sends (h : e.i.flag 10 = false) :
    thaloRun e d = ((haloLines d e).foldl (haloSend e (haloNeighbour e.nv e.b e.c.logic (e.i.ff 11 1))) d, true) := by
  refine (if_neg ?_).trans (if_neg (by simp [h]))
  simpa using hfree

end

theorem sRead_of_store {d x : Dev} (h : ∀ m, (branch x m).store = (branch d m).store) (n a len : Nat) : sRead x n a len = sRead d n a len := by
  rw [sRead, h]; rfl

theorem curCtx_setBranch {d : Dev} {n m : Nat} {y : Branch} (hc : y.cur = (branch d n).cur) (hx : y.ctxs = (branch d n).ctxs) :
    curCtx (setBranch d n y) m = curCtx d m := by
  by_cases h : m = n
  · subst h; rw [curCtx, branch_setBranch_same, hc, hx]; rfl
  · exact curCtx_of_branch (branch_setBranch_other _ _ h)

/-- One line more is on its way. -/
theorem haloSend_shows {e : Env} {x : Dev} {c : Ctx} (m : Nat) (y : Int) (hc : curCtx x e.n = some c) (ha : c.again = []) :
    curCtx (haloSend e m x y) e.n = some { c with sent := c.sent ++ [(m, (e.coord e.i.ca).index, y.toNat)] } ∧
    (branch (haloSend e m x y) m).haloIn = (branch x m).haloIn ++ [haloOf e y (haloBytes x e y)] ∧ StoresAs x x (haloSend e m x y) := by
  have hcur := curCtx_mapCur x e.n (fun c => { c with sent := c.sent ++ [(m, (e.coord e.i.ca).index, y.toNat)], again := c.again.erase (m, (e.coord e.i.ca).index, y.toNat) })
  have hstores := (StoresAs.refl x).mapCur e.n (fun c => { c with sent := c.sent ++ [(m, (e.coord e.i.ca).index, y.toNat)], again := c.again.erase (m, (e.coord e.i.ca).index, y.toNat) })
  have hbr := branch_mapCur x e.n (fun c => { c with sent := c.sent ++ [(m, (e.coord e.i.ca).index, y.toNat)], again := c.again.erase (m, (e.coord e.i.ca).index, y.toNat) }) m
  unfold haloSend
  rw [hc]
  dsimp only
  rw [ha, List.contains_nil, if_neg Bool.false_ne_true]
  generalize mapCur x e.n (fun c => { c with sent := c.sent ++ [(m, (e.coord e.i.ca).index, y.toNat)], again := c.again.erase (m, (e.coord e.i.ca).index, y.toNat) }) = z at *
  have hbytes : haloBytes z e y = haloBytes x e y := sRead_of_store hstores.1 ..
  refine ⟨?_, ?_, hstores.setBranch (y := (branch z m).sent (haloOf e y (haloBytes z e y))) rfl rfl⟩
  · rw [curCtx_setBranch (y := (branch z m).sent (haloOf e y (haloBytes z e y))) rfl rfl]
    rw [hcur, hc, Option.map_some, ha, List.erase_nil, ← ha]
  · rw [branch_setBranch_same, hbytes, hbr]; rfl

theorem haloSends_show {e : Env} (m : Nat) (ls : List Int) (x : Dev) (c : Ctx) (hc : curCtx x e.n = some c) (ha : c.again = []) :
    curCtx (ls.foldl (haloSend e m) x) e.n = some { c with sent := c.sent ++ ls.map (fun y => (m, (e.coord e.i.ca).index, y.toNat)) } ∧
    (branch (ls.foldl (haloSend e m) x) m).haloIn = (branch x m).haloIn ++ ls.map (fun y => haloOf e y (haloBytes x e y)) ∧
    StoresAs x x (ls.foldl (haloSend e m) x) := by
  induction ls generalizing x c with
  | nil => exact ⟨by simpa using hc, by simp, .refl x⟩
  | cons y ls ih =>
    obtain ⟨h1, h2, h3⟩ := haloSend_shows m y hc ha
    obtain ⟨g1, g2, g3⟩ := ih (haloSend e m x y) _ h1 ha
    have hbytes (y' : Int) : haloBytes (haloSend e m x y) e y' = haloBytes x e y' := sRead_of_store h3.1 ..
    refine ⟨?_, ?_, fun k => (g3.1 k).trans (h3.1 k), fun k t => (g3.2 k t).trans (h3.2 k t)⟩
    · rw [List.foldl_cons, g1]; simp
    · rw [List.foldl_cons, g2, h2]
      simp only [hbytes, List.append_assoc, List.singleton_append, List.map_cons]

theorem next_sent (e : Env) (c : Ctx) : (c.next e).sent = c.sent := by rw [next_eq]; rfl

theorem branches_thalo {n : Fin 16} {e : Env} {s : State} (h : StandsAt s n 0xB e) :
    ((∃ y, y ∈ haloLines s.dev e ∧ slotBusy s.dev e (e.coord e.i.ca).index y = true) → Does (.thalo n []) s [] (fun _ => True)) ∧
    ((∀ y, y ∈ haloLines s.dev e → slotBusy s.dev e (e.coord e.i.ca).index y = false) →
      (e.i.flag 10 = true → Does (.thalo n []) s (touches (.thalo n [])) (fun d => Stepped e d ∧ StoresAs s.dev s.dev d ∧
        (branch d e.c.logic).haloRx = (branch s.dev e.c.logic).haloRx ++ (haloLines s.dev e).map (fun y => haloOf e y []))) ∧
      (∀ m, e.i.flag 10 = false → m = haloNeighbour s.nv e.b e.c.logic (e.i.ff 11 1) → e.c.again = [] →
        Does (.thalo n []) s (touches (.thalo n [])) (fun d => Stepped e d ∧ StoresAs s.dev s.dev d ∧
          (curCtx d e.n).map (·.sent) = some (e.c.sent ++ (haloLines s.dev e).map (fun y => (m, (e.coord e.i.ca).index, y.toNat))) ∧
          (branch d m).haloIn = (branch s.dev m).haloIn ++ (haloLines s.dev e).map (fun y => haloOf e y (haloBytes s.dev e y))))) := by
  have hctx := standsAt_ctx h
  refine ⟨fun ⟨y, hy, hb⟩ => does_tileRead_nothing h rfl (thaloRun_waits hy hb), fun hfree => ⟨fun hf => ?_, fun m hf hm ha => ?_⟩⟩
  · have hcur := (curCtx_setBranch (d := s.dev) (n := e.c.logic) (m := e.n) (y := (branch s.dev e.c.logic).expecting
      ((haloLines s.dev e).map (fun y => haloOf e y []))) rfl rfl).trans hctx
    have hstores := (StoresAs.refl s.dev).setBranch (n := e.c.logic) (y := (branch s.dev e.c.logic).expecting
      ((haloLines s.dev e).map (fun y => haloOf e y []))) rfl rfl
    refine does_tileRead h rfl (thaloRun_receives hfree hf) ⟨stepped_advance hcur rfl rfl rfl rfl, hstores.advance e, ?_⟩
    rw [branch_advance]
    exact congrArg Branch.haloRx (branch_setBranch_same ..)
  · have hnv : e.nv = s.nv := (env_of h.2.1).2.1
    have hrun := thaloRun_sends hfree hf
    rw [hnv, ← hm] at hrun
    obtain ⟨hcur, hin, hstores⟩ := haloSends_show m (haloLines s.dev e) s.dev e.c hctx ha
    refine does_tileRead h rfl hrun ⟨stepped_advance hcur rfl rfl rfl rfl, hstores.advance e, ?_, ?_⟩
    · rw [curCtx_advance, hcur]
      exact congrArg some (next_sent e _)
    · rw [branch_advance]
      exact hin

/-! ## A line lands (R230) -/

/-- A receive that names the line. -/
def Halo.meets (h r : Halo) : Bool := h.task == r.task && h.pfn == r.pfn && h.out == r.out && h.region == r.region && h.line == r.line

theorem meets_iff {h r : Halo} : h.meets r = true ↔ (h.task, h.pfn, h.out, h.region, h.line) = (r.task, r.pfn, r.out, r.region, r.line) := by
  simp [Halo.meets, and_assoc]

theorem haloLandedOp_idle {n : Nat} {d : Dev} (h : ∀ x r, x ∈ (branch d n).haloIn → r ∈ (branch d n).haloRx → x.meets r = false) :
    haloLandedOp n d = d := by
  have hnone : (branch d n).haloIn.find? (fun h => (branch d n).haloRx.any h.meets) = none :=
    List.find?_eq_none.2 fun x hx => by simpa using fun r hr => h x r hx hr
  unfold haloLandedOp
  dsimp only
  unfold Halo.meets at hnone
  rw [hnone]

/-- The oldest line on its way lands at the first receive. -/
theorem haloLandedOp_lands {n : Nat} {d : Dev} {h r : Halo} {l l' : List Halo} (hin : (branch d n).haloIn = h :: l) (hrx : (branch d n).haloRx = r :: l')
    (hm : h.meets r = true) : haloLandedOp n d =
      sWrite (setBranch d n ((branch d n).landed h l l')) n
        ((regionAt (imgOf d h.out) (progOff (imgOf d h.out) (kProg (imgOf d h.out) h.task)) h.region).addr h.line 0 0) h.bytes := by
  have hany : (branch d n).haloRx.any h.meets = true := by rw [hrx]; simp [hm]
  have hfind : (branch d n).haloIn.find? (fun h => (branch d n).haloRx.any h.meets) = some h := by
    rw [hin]
    exact List.find?_cons_of_pos hany
  have hfirst : (branch d n).haloRx.find? h.meets = some r := by rw [hrx, List.find?_cons_of_pos hm]
  unfold haloLandedOp
  dsimp only
  unfold Halo.meets at hfind hfirst
  rw [hfind]
  dsimp only
  rw [hfirst]
  dsimp only
  rw [hin, hrx, List.erase_cons_head, List.erase_cons_head]
  rfl

theorem branch_sWrite (d : Dev) (n a : Nat) (bs : Bytes) (m : Nat) :
    branch (sWrite d n a bs) m = { branch d m with store := (branch (sWrite d n a bs) m).store } := by
  unfold sWrite
  by_cases h : m = n
  · subst h; rw [branch_setBranch_same]
  · rw [branch_setBranch_other _ _ h]

/-- The same write to equal stores. -/
theorem StoresAs.sWrite {d w x : Dev} (h : StoresAs d w x) (n a : Nat) (bs : Bytes) : StoresAs d (sWrite w n a bs) (sWrite x n a bs) := by
  refine ⟨fun m => ?_, fun m t => ?_⟩
  · unfold Machine.sWrite
    by_cases hm : m = n
    · subst hm; rw [branch_setBranch_same, branch_setBranch_same, h.1 m]
    · rw [branch_setBranch_other _ _ hm, branch_setBranch_other _ _ hm]; exact h.1 m
  · rw [twig, branch_sWrite]; exact h.2 m t

theorem halo_lands {n : Fin 16} {s : State} (halive : alive s.dev = true) :
    ((∀ h r, h ∈ (branch s.dev n.val).haloIn → r ∈ (branch s.dev n.val).haloRx →
        (h.task, h.pfn, h.out, h.region, h.line) ≠ (r.task, r.pfn, r.out, r.region, r.line)) →
      Does (.haloLineLanded n) s [] (fun _ => True)) ∧
    (∀ h r l l', (branch s.dev n.val).haloIn = h :: l → (branch s.dev n.val).haloRx = r :: l' →
      (h.task, h.pfn, h.out, h.region, h.line) = (r.task, r.pfn, r.out, r.region, r.line) →
      Does (.haloLineLanded n) s [.br] (fun d => StoresAs s.dev (sWrite s.dev n.val ((regionAt (imgOf s.dev h.out)
          (progOff (imgOf s.dev h.out) (kProg (imgOf s.dev h.out) h.task)) h.region).addr h.line 0 0) h.bytes) d ∧
        (branch d n.val).haloIn = l ∧ (branch d n.val).haloRx = l' ∧ (branch d n.val).haloLog = (branch s.dev n.val).haloLog ++ [h])) := by
  refine ⟨fun hno => does_nothing _ rfl halive (haloLandedOp_idle fun x r hx hr => ?_), fun h r l l' hin hrx hm => ?_⟩
  · exact Bool.eq_false_iff.2 fun hm => hno x r hx hr (meets_iff.1 hm)
  · have hstores := (StoresAs.refl s.dev).setBranch (n := n.val) (y := (branch s.dev n.val).landed h l l') rfl rfl
    refine does_eq _ rfl halive (haloLandedOp_lands hin hrx (meets_iff.2 hm)) ((setBranch_within ..).trans (sWrite_within ..)).only
      ⟨hstores.sWrite _ _ _, ?_, ?_, ?_⟩
    all_goals rw [branch_sWrite, branch_setBranch_same]; rfl

/-! ## TSIG (R228, R255) -/

theorem next_sigs (e : Env) (c : Ctx) : (c.next e).sigs = c.sigs ∧ (c.next e).nSig = c.nSig := by
  rw [next_eq]; exact ⟨rfl, rfl⟩

/-- A context with a signal more. -/
def Ctx.signalled (e : Env) (c : Ctx) : Ctx := { c with sigs := c.sigs ++ [(e.i.w1 % 65536, e.i.w2)], nSig := c.nSig + 1 }

theorem branches_tsig {n : Fin 16} {e : Env} {s : State} (h : StandsAt s n 0x10 e) : Does (.tsig n) s (touches (.tsig n)) (fun d => Stepped e d ∧
    StoresAs s.dev s.dev d ∧ d.ring = s.dev.ring ∧
    (curCtx d e.n).map (fun c => (c.sigs, c.nSig)) = some (e.c.sigs ++ [(e.i.w1 % 65536, e.i.w2)], e.c.nSig + 1)) := by
  have hcur := curCtx_mapCur s.dev e.n (Ctx.signalled e)
  rw [standsAt_ctx h] at hcur
  have hstores := (StoresAs.refl s.dev).mapCur e.n (Ctx.signalled e)
  refine does_tileOp h rfl (x := mapCur s.dev e.n (Ctx.signalled e)) rfl ⟨stepped_advance hcur rfl rfl rfl rfl, hstores.advance e, ?_, ?_⟩
  · rw [(advance_within ..).only .ring (by decide), (mapCur_within ..).only .ring (by decide)]
  · rw [curCtx_advance, hcur]
    exact congrArg some (congrArg₂ Prod.mk (next_sigs e _).1 (next_sigs e _).2)

theorem tsigLandOp_idle {n : Nat} {d : Dev} (h : ∀ c, c ∈ (branch d n).ctxs → c.sigs = [] ∨ writesOut d c = true) : tsigLandOp n d = d := by
  have hnone : (branch d n).ctxs.find? (fun c => !c.sigs.isEmpty && !writesOut d c) = none :=
    List.find?_eq_none.2 fun c hc => by rcases h c hc with h | h <;> simp [h]
  unfold tsigLandOp
  dsimp only
  rw [hnone]

/-- The Branch's contexts with the oldest signal of one of them gone. -/
def Branch.signalTaken (x : Branch) (c : Ctx) (l : List (Nat × Nat)) : Branch :=
  { x with ctxs := x.ctxs.map (fun y => if y.same c then { y with sigs := l, absorb := [] } else y) }

/-- A task's signals of a Ring, `a` more. -/
def signalled (k a : Nat) (t : TaskSt) : TaskSt := { t with sig := t.sig.put 0 k (t.sig.get 0 k + a) }

theorem tsigLandOp_lands {n r a : Nat} {d : Dev} {c : Ctx} {l : List (Nat × Nat)}
    (hfind : (branch d n).ctxs.find? (fun c => !c.sigs.isEmpty && !writesOut d c) = some c) (hs : c.sigs = (r, a) :: l) (ha : c.absorb = []) :
    tsigLandOp n d = if a = 0 then mapTask (setBranch d n ((branch d n).signalTaken c l)) c.task c.pfn c.out (signalled (c.logic * 65536 + r) a)
      else ringInc (mapTask (setBranch d n ((branch d n).signalTaken c l)) c.task c.pfn c.out (signalled (c.logic * 65536 + r) a)) r a := by
  unfold tsigLandOp
  dsimp only
  rw [hfind]
  dsimp only
  rw [hs]
  dsimp only
  rw [absorb, ha]
  rfl

theorem tsig_lands {n : Fin 16} {s : State} (halive : alive s.dev = true) :
    ((∀ c, c ∈ (branch s.dev n.val).ctxs → c.sigs = [] ∨ writesOut s.dev c = true) → Does (.tsigLand n) s [] (fun _ => True)) ∧
    (∀ c r a l, (branch s.dev n.val).ctxs.find? (fun c => !c.sigs.isEmpty && !writesOut s.dev c) = some c → c.sigs = (r, a) :: l → c.absorb = [] →
      Does (.tsigLand n) s [.ring, .stem, .br] (fun d =>
        (∀ q, ringVal d q = if q = r then (ringVal s.dev q + a) % 2 ^ 32 else ringVal s.dev q) ∧
        (∀ y, y ∈ (branch d n.val).ctxs → y.same c = true → y.sigs = l) ∧
        (taskSt d c.task c.pfn c.out).map (fun t => t.sig.get 0 (c.logic * 65536 + r)) =
          (taskSt s.dev c.task c.pfn c.out).map (fun t => t.sig.get 0 (c.logic * 65536 + r) + a))) := by
  refine ⟨fun hno => does_nothing _ rfl halive (tsigLandOp_idle hno), fun c r a l hfind hs ha => ?_⟩
  have hset := (setBranch_within s.dev n.val ((branch s.dev n.val).signalTaken c l)).only
  have hbr := branch_setBranch_same s.dev n.val ((branch s.dev n.val).signalTaken c l)
  have hop := tsigLandOp_lands hfind hs ha
  generalize setBranch s.dev n.val ((branch s.dev n.val).signalTaken c l) = x at *
  have hmap := (mapTask_within x c.task c.pfn c.out (signalled (c.logic * 65536 + r) a)).only
  have htask : (taskSt (mapTask x c.task c.pfn c.out (signalled (c.logic * 65536 + r) a)) c.task c.pfn c.out).map
      (fun t => t.sig.get 0 (c.logic * 65536 + r)) = (taskSt s.dev c.task c.pfn c.out).map (fun t => t.sig.get 0 (c.logic * 65536 + r) + a) := by
    rw [taskSt_mapTask_same (g := signalled (c.logic * 65536 + r) a) fun _ => rfl, Option.map_map, taskSt_of_only hset (by decide) (by decide)]
    refine congrArg (Option.map · _) (funext fun t => ?_)
    exact Map.get_put_same 0 t.sig (c.logic * 65536 + r) _
  generalize mapTask x c.task c.pfn c.out (signalled (c.logic * 65536 + r) a) = y at *
  have hring (q : Nat) : ringVal y q = ringVal s.dev q := ringVal_of_ring ((hmap .ring (by decide)).trans (hset .ring (by decide))) q
  have hsigs : ∀ z, z ∈ (branch y n.val).ctxs → z.same c = true → z.sigs = l := by
    rw [branch_of_br (hmap .br (by decide)), hbr]
    intro z hz hsame
    obtain ⟨z₀, -, rfl⟩ := List.mem_map.1 hz
    split at hsame
    · next h0 => rw [if_pos h0]
    · next h0 => exact absurd hsame h0
  have honly : Only [.ring, .stem, .br] s.dev y := (hset.mono (by decide)).via hmap (by decide)
  by_cases h0 : a = 0
  · rw [if_pos h0] at hop
    refine does_eq _ rfl halive hop honly ⟨fun q => ?_, hsigs, htask⟩
    rw [hring, h0, Nat.add_zero, Nat.mod_eq_of_lt (show ringVal s.dev q < 2 ^ 32 from BitVec.isLt _)]
    exact (ite_self _).symm
  · rw [if_neg h0] at hop
    have hinc := (ringInc_within y r a).only
    refine does_eq _ rfl halive hop (honly.via hinc (by decide)) ⟨fun q => ?_, ?_, ?_⟩
    · rw [ringVal_ringInc, hring]
    · rw [branch_of_br (hinc .br (by decide))]; exact hsigs
    · rw [taskSt_of_only hinc (by decide) (by decide)]; exact htask

/-! ## TWAIT (R211, R229) -/

/-- MODE and PLANE of the five Twigs, cleared. -/
def twigsStopped (n : Nat) : List (Fld × Nat) := (List.range 5).flatMap (fun t => [(twigMode n t, 0), (twigPlane n t, 0)])

theorem mem_twigsStopped {n : Nat} {z : Fld × Nat} (h : z ∈ twigsStopped n) : z.1.lo + z.1.width ≤ 32 ∧
    ∃ t, t < 5 ∧ z.1.addr = (twigState n t).addr := by
  obtain ⟨t, ht, hz⟩ := List.mem_flatMap.1 h
  have ht5 := List.mem_range.1 ht
  simp only [List.mem_cons, List.not_mem_nil, or_false] at hz
  rcases hz with rfl | rfl
  · exact ⟨by simp [twigMode], t, ht5, rfl⟩
  · exact ⟨by simp [twigPlane], t, ht5, rfl⟩

theorem atBoundary_shows (n : Nat) (d : Dev) : Tame [.regs] (boundaryRegs n) d (atBoundary n d) ∧ flag (atBoundary n d) (seqBoundary n) = true := by
  have heq : atBoundary n d = setFlds d ((seqBoundary n, 1) :: twigsStopped n) := rfl
  rw [heq]
  refine ⟨(setFlds_tame ..).mono (by decide) fun a ha => ?_, ?_⟩
  · obtain ⟨z, hz, rfl⟩ := List.mem_map.1 ha
    rcases List.mem_cons.1 hz with rfl | hz
    · exact List.mem_cons_self
    · obtain ⟨-, t, ht, hta⟩ := mem_twigsStopped hz
      rw [hta]
      exact List.mem_cons_of_mem _ (List.mem_map.2 ⟨t, List.mem_range.2 ht, rfl⟩)
  · rw [setFlds_cons, flag, fld_setFlds_other _ _ _ fun z hz => ?_, fld_setFld_same _ _ _ (by simp [seqBoundary])]
    · rfl
    · obtain ⟨hin, t, -, hta⟩ := mem_twigsStopped hz
      refine ⟨hin, .inl ?_⟩
      rw [hta]
      simp only [seqBoundary, twigState]; omega

/-- A context held at a TWAIT. -/
def Ctx.held (w : Nat × Nat) (c : Ctx) : Ctx := { c with wait := some w }

/-- What the TWAIT of an instruction waits for. -/
def twaitTarget (d : Dev) (e : Env) : Nat × Nat :=
  (e.i.w1 % 65536, min (e.i.w2 + e.i.w3 % 65536 * e.y) (ringTotal d e.b (e.i.w1 % 65536)))

theorem twaitOp_run {s : State} {n : Fin 16} {e : Env} (h : StandsAt s n 0x11 e) : twaitOp s.nv n.val s.dev =
    if twaitMet s.dev e.c (twaitTarget s.dev e) then advance e s.dev
    else markBoundary n.val (mapCur s.dev n.val (Ctx.held (twaitTarget s.dev e))) := by
  obtain ⟨halive, henv, hop, hskip⟩ := h
  unfold twaitOp
  rw [henv]
  dsimp only
  rw [if_neg (by simp [hop]), if_neg (by simp [hskip])]
  rfl

theorem inFlight_of {d x : Dev} {n : Nat} {c c' : Ctx} (hd : c'.drains = c.drains) (ht : (branch x n).twig = (branch d n).twig) :
    inFlight x n c' = inFlight d n c := by
  rw [inFlight, hd, ht]; rfl

theorem branches_twait {n : Fin 16} {e : Env} {s : State} (h : StandsAt s n 0x11 e) :
    (twaitMet s.dev e.c (twaitTarget s.dev e) = true → Does (.twait n) s (touches (.twait n)) (fun d => Stepped e d ∧ StoresAs s.dev s.dev d)) ∧
    (twaitMet s.dev e.c (twaitTarget s.dev e) = false → Does (.twait n) s [.regs, .br] (fun d =>
      curCtx d n.val = some { e.c with wait := some (twaitTarget s.dev e) } ∧
      RegsBut (boundaryRegs n.val) s.dev d ∧ (inFlight s.dev n.val e.c = false → flag d (seqBoundary n.val) = true) ∧
      (inFlight s.dev n.val e.c = true → Only [.br] s.dev d))) := by
  have hop := twaitOp_run h
  refine ⟨fun hm => ?_, fun hm => ?_⟩
  · rw [if_pos hm] at hop
    exact does_touches _ rfl h.1 hop ⟨stepped_advance (standsAt_ctx h) rfl rfl rfl rfl, (StoresAs.refl _).advance e⟩
  · rw [if_neg (by simp [hm])] at hop
    generalize twaitTarget s.dev e = w at *
    obtain ⟨-, -, hc, hedge, -, hsect⟩ := env_of h.2.1
    have hcur := curCtx_mapCur s.dev n.val (Ctx.held w)
    rw [hc, Option.map_some] at hcur
    have honly := (mapCur_within s.dev n.val (Ctx.held w)).only
    have htwig : (branch (mapCur s.dev n.val (Ctx.held w)) n.val).twig = (branch s.dev n.val).twig := by rw [branch_mapCur]
    generalize mapCur s.dev n.val (Ctx.held w) = x at *
    have hfly := inFlight_of (d := s.dev) (c := e.c) (c' := Ctx.held w e.c) rfl htwig
    have hmark : markBoundary n.val x = if inFlight s.dev n.val e.c then x else atBoundary n.val x := by
      unfold markBoundary
      rw [hcur]
      dsimp only
      rw [hfly]
      cases inFlight s.dev n.val e.c <;> simp [Ctx.held, hedge, hsect]
    rw [hmark] at hop
    obtain ⟨hbound, hflag⟩ := atBoundary_shows n.val x
    cases hin : inFlight s.dev n.val e.c with
    | true =>
      rw [hin, if_pos rfl] at hop
      exact does_eq _ rfl h.1 hop (honly.mono (by decide)) ⟨hcur, .of_only honly (by decide) _, fun h => absurd h (by decide), fun _ => honly⟩
    | false =>
      rw [hin, if_neg Bool.false_ne_true] at hop
      refine does_eq _ rfl h.1 hop ((honly.mono (by decide)).via hbound.only (by decide)) ⟨?_, ?_, fun _ => hflag, fun h => absurd h (by decide)⟩
      · rw [curCtx_of_branch (branch_of_br (hbound.only .br (by decide)) n.val)]; exact hcur
      · exact (RegsBut.of_only honly (by decide) _).trans hbound.regs

/-- A context that goes on after its TWAIT, on a Branch that is in hand or not. -/
def Ctx.resumed (b : Bytes) (away : Bool) (c : Ctx) : Ctx :=
  Ctx.norm b (progOff b (kProg b c.task)) (logicalNo b c.task c.logic) (kBranches b c.task).length 8
    { c with wait := none, idx := c.idx + 1, edge := c.edge || away }

theorem twaitMetOp_idle {nv : NonVol} {n : Nat} {d : Dev} (h : ∀ c w, c ∈ (branch d n).ctxs → c.wait = some w → twaitMet d c w = false) :
    twaitMetOp nv n d = d := by
  unfold twaitMetOp
  dsimp only
  split
  · rfl
  · next c hc =>
    have hmet := List.find?_some hc
    split at hmet
    · next w hw => exact absurd (hmet.symm.trans (h c w (List.mem_of_find?_eq_some hc) hw)) (by decide)
    · cases hmet

/-- The Branch's contexts with one of them resumed. -/
def Branch.resumed (x : Branch) (c c' : Ctx) : Branch := { x with ctxs := x.ctxs.map (fun y => if y.same c then c' else y) }

theorem twaitMetOp_br {nv : NonVol} {n : Nat} {d : Dev} {c : Ctx} {w : Nat × Nat} {l : List Ctx} (hx : (branch d n).ctxs = c :: l) (hw : c.wait = some w)
    (hm : twaitMet d c w = true) : (twaitMetOp nv n d).br =
      (setBranch d n ((branch d n).resumed c (c.resumed (imgOf d c.out) (!((branch d n).cur.isSome && !flag d (seqBoundary n)))))).br := by
  have hself : c.same c = true := by simp [Ctx.same]
  unfold twaitMetOp
  dsimp only
  split
  · next hnone =>
    have := List.find?_eq_none.1 hnone c (by rw [hx]; simp)
    simp only [hw, hm, not_true] at this
  · next c₀ hc =>
    rw [hx, List.find?_cons_of_pos (by simp only [hw, hm])] at hc
    obtain rfl := Option.some.inj hc
    rw [(markBoundary_within ..).only .br (by decide)]
    refine (ended_only _ _ _ .br (by decide)).trans ?_
    unfold Branch.resumed Ctx.resumed
    rw [hx]
    dsimp only [List.head?_cons]
    rw [hself, Bool.true_and]

theorem twait_met {n : Fin 16} {s : State} (halive : alive s.dev = true) :
    ((∀ c w, c ∈ (branch s.dev n.val).ctxs → c.wait = some w → twaitMet s.dev c w = false) → Does (.twaitMet n) s [] (fun _ => True)) ∧
    (∀ c w l, (branch s.dev n.val).ctxs = c :: l → c.wait = some w → twaitMet s.dev c w = true → (∀ y, y ∈ l → y.same c = false) →
      Does (.twaitMet n) s (touches (.twaitMet n)) (fun d => (branch d n.val).ctxs =
        c.resumed (imgOf s.dev c.out) (!((branch s.dev n.val).cur.isSome && !flag s.dev (seqBoundary n.val))) :: l)) := by
  refine ⟨fun hno => does_nothing _ rfl halive (twaitMetOp_idle hno), fun c w l hx hw hm hl => does_touches _ rfl halive rfl ?_⟩
  rw [branch_of_br (twaitMetOp_br (nv := s.nv) hx hw hm), branch_setBranch_same]
  generalize c.resumed (imgOf s.dev c.out) (!((branch s.dev n.val).cur.isSome && !flag s.dev (seqBoundary n.val))) = c'
  have hself : c.same c = true := by simp [Ctx.same]
  have hrest : l.map (fun y => if y.same c then c' else y) = l := by
    refine (List.map_congr_left fun y hy => ?_).trans (List.map_id l)
    rw [hl y hy]; rfl
  rw [Branch.resumed, hx]
  simp only [List.map_cons, hself, if_true, hrest]

/-- Settles O58. -/
theorem branchesExchangeSignalAndWait : Obligations.BranchesExchangeSignalAndWait := by
  unfold Obligations.BranchesExchangeSignalAndWait
  refine ⟨?_, ?_, fun n e s h => branches_tsig h, ?_, ?_, ?_⟩
  · rintro n e c s h rfl
    exact branches_thalo h
  · rintro n x s halive rfl
    exact halo_lands halive
  · rintro n x s halive rfl
    exact tsig_lands halive
  · rintro n e w s h rfl
    exact branches_twait h
  · rintro n x s halive rfl
    refine ⟨(twait_met halive).1, ?_⟩
    rintro c w l b hx hw hm rfl hl
    exact (twait_met halive).2 c w l hx hw hm hl

end Sys2Proof.Machine
end

section
/-! PROOF. Links, authentication and metadata of the Intake ports, and their source changes (R298, R299, R306, R308, R310 to R312). -/

namespace Sys2Proof.Machine

/-! ## A port and its frames -/

theorem port_of_inp {d e : Dev} (h : e.inp.p0 = d.inp.p0 ∧ e.inp.p1 = d.inp.p1) (p : Nat) : port e p = port d p := by
  unfold port
  rw [h.1, h.2]

theorem port_of_only {l : List Part} {d e : Dev} (h : Only l d e) (hl : Part.inp ∉ l) (p : Nat) : port e p = port d p := by
  have hinp : e.inp = d.inp := h .inp hl
  exact port_of_inp ⟨by rw [hinp], by rw [hinp]⟩ p

theorem port_setPort_same (d : Dev) (p : Nat) (x : Port) : port (setPort d p x) p = x := by
  unfold port setPort
  split <;> rfl

theorem port_setPort_other (d : Dev) {p q : Nat} (x : Port) (h : (q = 0) ≠ (p = 0)) : port (setPort d p x) q = port d q := by
  unfold port setPort
  by_cases hp : p = 0 <;> by_cases hq : q = 0 <;> simp_all

theorem setPort_tame (d : Dev) (p : Nat) (x : Port) : Tame [.inp] [] d (setPort d p x) := .of_only (setPort_within ..).only (by decide) _

theorem liveFrame_ended (x : Port) (f : InFrame) (h : f.ended = true) : liveFrame (setFrame x f) = none := if_pos h

/-- The waiting frame of a port is given up. -/
def unpaired (x : Port) : Port := { x with wait := none, held := [] }

/-- What an unpaired frame changes. -/
abbrev unpairedRegs (p : Nat) : List Nat := [aIntUnpaired p, aEvtLost]

theorem intUnit_ne_branch {p : Nat} (hp : p < 2) : 0x38 + p < 0x10 ∨ 0x20 ≤ 0x38 + p := by omega

theorem aIntUnpaired_ne_lost (p : Nat) : aIntUnpaired p ∉ [aEvtLost] := by
  simp only [aIntUnpaired, aEvtLost, intBase, List.mem_singleton]; omega

/-- A frame that waits is given up, counted and reported. -/
theorem dropUnpaired_waiting {d : Dev} {p : Nat} (hp : p < 2) (h : (port d p).wait.isSome = true) :
    Tame [.regs, .usb, .root, .inp] (unpairedRegs p) d (dropUnpaired p d) ∧ port (dropUnpaired p d) p = unpaired (port d p) ∧
    Raised 0x0503 (0x38 + p) 2 1 d (dropUnpaired p d) ∧
    (reg (dropUnpaired p d) (aIntUnpaired p)).toNat = min ((reg d (aIntUnpaired p)).toNat + 1) 0xFFFFFFFF := by
  have hop : dropUnpaired p d = raise (bump (setPort d p (unpaired (port d p))) (aIntUnpaired p) 1) 0x0503 (0x38 + p) 2 1 := if_pos h
  rw [hop]
  have hset := setPort_tame d p (unpaired (port d p))
  have hport := port_setPort_same d p (unpaired (port d p))
  generalize setPort d p (unpaired (port d p)) = x at hset hport ⊢
  have hbump := bump_tame x (aIntUnpaired p) 1
  have hcount := reg_bumped_after hset.regs (a := aIntUnpaired p) (n := 1) (by simp)
  generalize bump x (aIntUnpaired p) 1 = y at hbump hcount ⊢
  have hy : Tame [.regs, .inp] [aIntUnpaired p] d y := (hset.mono (by decide) (by simp)).via hbump (by decide) (by simp)
  have hraise := raise_tame (d := y) (intUnit_ne_branch hp) 0x0503 2 1
  refine ⟨(hy.mono (by decide) (by simp)).via hraise (by decide) (by simp), ?_, ?_, ?_⟩
  · rw [port_of_only hraise.only (by decide), port_of_only hbump.only (by decide), hport]
  · exact (raise_raised y 0x0503 _ 2 (arg := 1) (by decide)).of_eq (hy.only .devTime (by decide)) rfl
  · rw [hraise.regs _ (aIntUnpaired_ne_lost p), hcount]

theorem dropUnpaired_paired {d : Dev} {p : Nat} (h : (port d p).wait = none) : dropUnpaired p d = d := if_neg (by simp [h])

theorem dropUnpaired_told (p : Nat) (d : Dev) : Told d (dropUnpaired p d) :=
  .ite ((((Told.refl d).within (setPort_within ..) (by decide)).within (bump_within ..) (by decide)).raise ..) (.refl d)

/-- A port that gave up what waited. -/
theorem dropUnpaired_shows (d : Dev) {p : Nat} (hp : p < 2) : Tame [.regs, .usb, .root, .inp] (unpairedRegs p) d (dropUnpaired p d) ∧
    (port (dropUnpaired p d) p).frames = (port d p).frames ∧ (port (dropUnpaired p d) p).wait = none ∧
    ((port d p).wait ≠ none → (port (dropUnpaired p d) p).held = []) := by
  cases hw : (port d p).wait with
  | none => rw [dropUnpaired_paired hw]; exact ⟨.refl _ _ _, rfl, hw, fun h => absurd rfl h⟩
  | some w =>
    obtain ⟨htame, hport, -, -⟩ := dropUnpaired_waiting hp (d := d) (by rw [hw]; rfl)
    rw [hport]
    exact ⟨htame, rfl, rfl, fun _ => rfl⟩

/-! ## The end of a frame -/

/-- What the end of a frame of a port changes. -/
abbrev endRegs (p : Nat) : List Nat := [intLast p, (intLastIfn p).addr, (hdcpEnc p).addr, aEvtLost]

/-- The port after the end of its frame: no frame of it is in progress, and what waits stands. -/
structure InputEnded (p : Nat) (d e : Dev) : Prop where
  only : Only [.regs, .usb, .ring, .root, .trk, .inp] d e
  regs : RegsBut (endRegs p) d e
  live : liveFrame (port e p) = none
  wait : (port e p).wait = (port d p).wait
  held : (port e p).held = (port d p).held
  told : Told d e

theorem InputEnded.via {l : List Part} {p : Nat} {d e f : Dev} (h : InputEnded p d e) (g : Tame l (endRegs p) e f)
    (hl : partsIn l [.regs, .ring, .trk] = true) : InputEnded p d f := by
  have hmono := g.only.mono hl
  have hport := port_of_only hmono (by decide) p
  exact ⟨h.only.via hmono (by decide), h.regs.trans g.regs, by rw [hport, h.live], by rw [hport, h.wait], by rw [hport, h.held],
    h.told.trans (.of_eq (hmono .root (by decide)) (hmono .usb (by decide)))⟩

/-- What stands of a port changes beside the frames leaves the port itself. -/
theorem InputEnded.inp {p : Nat} {d e : Dev} (h : InputEnded p d e) {x : Intake} (hx : x.p0 = e.inp.p0 ∧ x.p1 = e.inp.p1) :
    InputEnded p d { e with inp := x } := by
  have hport : port { e with inp := x } p = port e p := port_of_inp hx p
  exact ⟨h.only.via (within_inp x).only (by decide), h.regs.trans (.of_regs (.refl _ _) rfl), by rw [hport, h.live], by rw [hport, h.wait],
    by rw [hport, h.held], h.told.trans (.of_eq rfl rfl)⟩

theorem InputEnded.ite {p : Nat} {d e f : Dev} {c : Prop} [Decidable c] (h : InputEnded p d e) (g : InputEnded p d f) :
    InputEnded p d (if c then e else f) := by
  split
  · exact h
  · exact g

theorem inputEnded_setPort (d : Dev) (p : Nat) {x : Port} (hl : liveFrame x = none) (hw : x.wait = (port d p).wait)
    (hh : x.held = (port d p).held) : InputEnded p d (setPort d p x) := by
  have hset := setPort_tame d p x
  have hport := port_setPort_same d p x
  exact ⟨hset.only.mono (by decide), hset.regs.mono (by simp), by rw [hport, hl], by rw [hport, hw], by rw [hport, hh],
    .of_eq (hset.only .root (by decide)) (hset.only .usb (by decide))⟩

theorem InputEnded.event {p : Nat} {d e : Dev} (hp : p < 2) (h : InputEnded p d e) (c : Prop) [Decidable c] (code sev arg : Nat) :
    InputEnded p d (if c then e else raise e code (0x38 + p) sev arg) := by
  have hraise := raise_tame (d := e) (intUnit_ne_branch hp) code sev arg
  have hport := port_of_only hraise.only (by decide) p
  exact .ite h ⟨h.only.via hraise.only (by decide), h.regs.via hraise.regs (by simp), by rw [hport, h.live], by rw [hport, h.wait],
    by rw [hport, h.held], h.told.raise ..⟩

theorem endInput_ended (d : Dev) {p : Nat} (hp : p < 2) (cut : Bool) : InputEnded p d (endInput p cut d) := by
  unfold endInput
  extract_lets x
  split
  · next hnone => exact ⟨.refl _ _, .refl _ _, hnone, rfl, rfl, .refl _⟩
  · next f hlive =>
    split
    · exact inputEnded_setPort d p rfl rfl rfl
    · extract_lets clean src d₁ r d₂ d₃ last d₄ d₅ d₆ d₇ d₈ st store d₉ quiet
      have h₁ : InputEnded p d d₁ := inputEnded_setPort d p rfl rfl rfl
      have h₂ : InputEnded p d d₂ := h₁.via (.of_only (setLineRing_within ..).only (by decide) _) (by decide)
      have h₃ : InputEnded p d d₃ := h₂.via (.of_only (ringInc_within ..).only (by decide) _) (by decide)
      have h₄ : InputEnded p d d₄ := by
        refine h₃.via (Tame.trans (e := setReg d₃ (intLast p) (BitVec.ofNat 32 last)) (l := [.regs]) ?_ ?_) (by decide)
        · exact ⟨(setReg_within ..).only, (setReg_regsBut _ _ _).mono (by simp)⟩
        · exact (setFld_tame _ _ _).mono (by decide) (by simp)
      have h₅ : InputEnded p d d₅ := h₄.via ((setFld_tame _ _ _).mono (by decide) (by simp) : Tame [.regs] (endRegs p) _ _) (by decide)
      have h₆ : InputEnded p d d₆ := h₅.event hp _ _ _ _
      have h₇ : InputEnded p d d₇ := h₆.event hp _ _ _ _
      have h₈ : InputEnded p d d₈ := h₇.event hp _ _ _ _
      have h₉ : InputEnded p d d₉ := h₈.inp ⟨rfl, rfl⟩
      exact .ite (h₉.inp ⟨rfl, rfl⟩) h₉

/-! ## Histories and the lock (R312) -/

theorem clearCarried_tame (d : Dev) (out : Bool) (t : Nat) : Tame [.regs, .trk, .mem] demandRegs d (clearCarried d out t) :=
  .foldl fun _ _ _ => vwrite_tame ..

/-- The registers that the invalidation of a history changes. -/
abbrev histRegs : List Nat := aEvtLost :: demandRegs

theorem invalidate_regsBut (d : Dev) (out : Bool) (t cause : Nat) : RegsBut histRegs d (invalidate d out t cause) := by
  have hclear := (clearCarried_tame d out t).regs
  unfold invalidate
  dsimp only
  generalize clearCarried d out t = x at hclear ⊢
  exact ((hclear.mono (by decide)).trans (.of_only (ringPut_within x _ 0).only (by decide) _)).via (raise_regsBut _ _ _ _ _) (by decide)

theorem invalidations_regsBut (l : List HistReq) (d : Dev) :
    RegsBut histRegs d (l.foldl (fun d e => invalidate d e.out e.tensor e.cause) d) := by
  induction l generalizing d with
  | nil => exact .refl _ _
  | cons e l ih => exact (invalidate_regsBut d _ _ _).trans (ih _)

theorem requestHist_regsBut (d : Dev) (t cause : Nat) : RegsBut histRegs d (requestHist d t cause) := by
  rw [requestHist_eq, serveHist_eq]
  exact .trans (.of_regs (.refl _ d) rfl) (invalidations_regsBut _ (histWaits _))

theorem requestsHist_regsBut (l : List Nat) (cause : Nat) (d : Dev) : RegsBut histRegs d (l.foldl (fun d t => requestHist d t cause) d) := by
  induction l generalizing d with
  | nil => exact .refl _ _
  | cons t l ih => exact (requestHist_regsBut d t cause).trans (ih _)

theorem RegsBut.ite {l : List Nat} {d e f : Dev} {c : Prop} [Decidable c] (h : RegsBut l d e) (g : RegsBut l d f) :
    RegsBut l d (if c then e else f) := by
  split
  · exact h
  · exact g

/-- The registers of the cadence lock. -/
abbrev lockRegs : List Nat := [lockState.addr, clkLatency.addr, aEvtLost]

theorem setLock_regsBut (st : Nat) (m : Bool) (d : Dev) : RegsBut lockRegs d (setLock st m d) := by
  have hset : RegsBut lockRegs d (setFlds d [(lockState, st), (lockMismatch, m.toNat)]) := (setFlds_regsBut _ _).mono (by simp [lockMismatch, lockState])
  unfold setLock
  dsimp only
  generalize setFlds d [(lockState, st), (lockMismatch, m.toNat)] = x at hset ⊢
  have hlat : RegsBut lockRegs d (setFld x clkLatency 0) := hset.via (setFld_regsBut _ _ _) (by decide)
  split
  · exact hset.via (raise_regsBut _ _ _ _ _) (by decide)
  · split
    · exact hlat.via (raise_regsBut _ _ _ _ _) (by decide)
    · exact .ite hlat hset

theorem lockLost_regsBut (p : Nat) (d : Dev) : RegsBut lockRegs d (lockLost p d) := by
  unfold lockLost
  refine RegsBut.ite ?_ (.refl _ _)
  dsimp only
  refine RegsBut.ite (.of_regs (.refl _ _) rfl) ?_
  exact RegsBut.trans (.of_regs (.refl _ d) rfl) (setLock_regsBut _ _ _)

theorem lockLost_other {d : Dev} {p : Nat} (h : lockPort d ≠ some p) : lockLost p d = d := if_neg (by simp [h])

/-! ## A source change (R312) -/

/-- The frame in progress of a port whose source changes is cut, after what waited was given up. -/
def sourceCut (p cl : Nat) (d : Dev) : Dev :=
  endInput p true (setPort (dropUnpaired p d) p { port (dropUnpaired p d) p with chg := (port (dropUnpaired p d) p).chg ||| cl })

/-- The change is counted, and reported unless the frame did so at its arrival. -/
def sourceTold (p cl : Nat) (d : Dev) : Dev :=
  if voidNow (port d p) then bump (sourceCut p cl d) (aIntChg p) 1
  else raise (bump (sourceCut p cl d) (aIntChg p) 1) 0x0501 (0x38 + p) 1 (cl % 16 + fld d (intIfn p) % 65536 * 65536)

/-- The histories that are keyed by the port. -/
def portHistories (b : Bytes) (p : Nat) : List Nat :=
  (List.range (nTensors b)).filter (fun t => tHist b t && pClass b (tPipe b t) != 0 && pKey b (tPipe b t) == p)

/-- The input frame store of a port whose timing changed is emptied. -/
def storeEmptied (p cl : Nat) (d : Dev) : Dev :=
  if cl.testBit 0 || cl.testBit 2 then
    if fld d undSrc = p || fld d undSrc = 2 then { d with inp := { d.inp with store := [] } } else d
  else d

/-- The cadence of the Graft starts anew when the port keys it. -/
def cadenceAnew (b : Bytes) (p ifn : Nat) (d : Dev) : Dev :=
  if hasGraft d && gCadPort b = p then { d with stem := { d.stem with cadRe := some (ifn, none) } } else d

/-- A source that is gone leaves the port unlocked. -/
def unlocked (p cl : Nat) (d : Dev) : Dev :=
  if cl.testBit 3 then setReg (setFld d (intLocked p) 0) (hdrReg p 6) (reg d (hdrReg p 6) &&& 7) else d

/-- What follows the report of a source change, but for the lock. -/
def sourceAfter (p cl ifn : Nat) (d : Dev) : Dev :=
  unlocked p cl (cadenceAnew (img0 d) p ifn (storeEmptied p cl ((portHistories (img0 d) p).foldl (fun d t => requestHist d t 2) d)))

theorem sourceChange_eq {p cl : Nat} (h : cl ≠ 0) (d : Dev) :
    sourceChange p cl d = lockLost p (sourceAfter p cl (fld d (intIfn p)) (sourceTold p cl d)) := by
  unfold sourceChange
  rw [if_neg h]
  rfl

/-- A port by its number: what holds of both ports by evaluation. -/
theorem port_cases {P : Nat → Prop} (h0 : P 0) (h1 : P 1) {p : Nat} (hp : p < 2) : P p := by
  obtain rfl | rfl : p = 0 ∨ p = 1 := by omega
  · exact h0
  · exact h1

theorem sourceCut_shows (d : Dev) {p : Nat} (hp : p < 2) (cl : Nat) :
    Only [.regs, .usb, .ring, .root, .trk, .inp] d (sourceCut p cl d) ∧ RegsBut (unpairedRegs p ++ endRegs p) d (sourceCut p cl d) ∧
    liveFrame (port (sourceCut p cl d) p) = none ∧ (port (sourceCut p cl d) p).wait = none ∧
    ((port d p).wait ≠ none → (port (sourceCut p cl d) p).held = []) ∧ Told d (sourceCut p cl d) := by
  obtain ⟨hdrop, -, hwait, hheld⟩ := dropUnpaired_shows d hp
  have htold := dropUnpaired_told p d
  unfold sourceCut
  generalize dropUnpaired p d = x at hdrop hwait hheld htold ⊢
  have hset := setPort_tame x p { port x p with chg := (port x p).chg ||| cl }
  have hport := port_setPort_same x p { port x p with chg := (port x p).chg ||| cl }
  generalize setPort x p { port x p with chg := (port x p).chg ||| cl } = y at hset hport ⊢
  obtain ⟨honly, hregs, hlive, hw, hh, hcut⟩ := endInput_ended y hp true
  refine ⟨((hdrop.only.mono (by decide)).via hset.only (by decide)).trans honly,
    (hdrop.regs.mono (by simp)).trans ((hset.regs.mono (by simp)).trans (hregs.mono (by simp))), hlive, ?_, fun h => ?_, ?_⟩
  · rw [hw, hport, hwait]
  · rw [hh, hport, hheld h]
  · exact (htold.trans (.of_eq (hset.only .root (by decide)) (hset.only .usb (by decide)))).trans hcut

theorem aIntChg_free {p : Nat} (hp : p < 2) : aIntChg p ∉ unpairedRegs p ++ endRegs p :=
  port_cases (P := fun p => aIntChg p ∉ unpairedRegs p ++ endRegs p) (by decide) (by decide) hp

theorem sourceTold_shows (d : Dev) {p cl : Nat} (hp : p < 2) (hcl : cl < 16) :
    Only [.regs, .usb, .ring, .root, .trk, .inp] d (sourceTold p cl d) ∧
    liveFrame (port (sourceTold p cl d) p) = none ∧ (port (sourceTold p cl d) p).wait = none ∧
    ((port d p).wait ≠ none → (port (sourceTold p cl d) p).held = []) ∧
    (reg (sourceTold p cl d) (aIntChg p)).toNat = min ((reg d (aIntChg p)).toNat + 1) 0xFFFFFFFF ∧
    (voidNow (port d p) = false →
      Raised 0x0501 (0x38 + p) 1 (cl + fld d (intIfn p) % 65536 * 65536) d (sourceTold p cl d)) ∧ Told d (sourceTold p cl d) := by
  obtain ⟨honly, hregs, hlive, hwait, hheld, htold⟩ := sourceCut_shows d hp cl
  unfold sourceTold
  generalize sourceCut p cl d = x at honly hregs hlive hwait hheld htold ⊢
  have hbump := bump_tame x (aIntChg p) 1
  replace htold := htold.within (bump_within x (aIntChg p) 1) (by decide)
  have hcount := reg_bumped_after hregs (aIntChg_free hp) (n := 1)
  rw [← port_of_only hbump.only (by decide)] at hlive hwait hheld
  generalize bump x (aIntChg p) 1 = y at hbump hcount hlive hwait hheld htold ⊢
  have hy := honly.via hbump.only (by decide)
  rw [Nat.mod_eq_of_lt hcl]
  split
  · next hvoid => exact ⟨hy, hlive, hwait, hheld, hcount, fun h => absurd hvoid (by simp [h]), htold⟩
  · have harg : cl + fld d (intIfn p) % 65536 * 65536 < 2 ^ 32 := by omega
    have hraise := raise_tame (d := y) (intUnit_ne_branch hp) 0x0501 1 (cl + fld d (intIfn p) % 65536 * 65536)
    have hev := raise_raised y 0x0501 (0x38 + p) 1 harg
    rw [← port_of_only hraise.only (by decide)] at hlive hwait hheld
    rw [← hraise.regs _ (port_cases (P := fun p => aIntChg p ∉ [aEvtLost]) (by decide) (by decide) hp)] at hcount
    exact ⟨hy.via hraise.only (by decide), hlive, hwait, hheld, hcount, fun _ => hev.of_eq (hy .devTime (by decide)) rfl, htold.raise ..⟩

theorem storeEmptied_shows (p cl : Nat) (d : Dev) : Tame [.inp] [] d (storeEmptied p cl d) ∧ ∀ q, port (storeEmptied p cl d) q = port d q := by
  have hop : storeEmptied p cl d = d ∨ storeEmptied p cl d = { d with inp := { d.inp with store := [] } } := by
    unfold storeEmptied
    split
    · split
      · exact .inr rfl
      · exact .inl rfl
    · exact .inl rfl
  rcases hop with h | h <;> rw [h]
  · exact ⟨.refl _ _ _, fun _ => rfl⟩
  · exact ⟨.of_only (within_inp _).only (by decide) _, fun _ => rfl⟩

theorem cadenceAnew_tame (b : Bytes) (p ifn : Nat) (d : Dev) : Tame [.stem] [] d (cadenceAnew b p ifn d) :=
  .ite (.of_only (within_stem _).only (by decide) _) (.refl _ _ _)

/-- What an unlocked port changes. -/
abbrev unlockedRegs (p : Nat) : List Nat := [(intLocked p).addr, hdrReg p 6]

theorem unlocked_tame (p cl : Nat) (d : Dev) : Tame [.regs] (unlockedRegs p) d (unlocked p cl d) := by
  have hset : Tame [.regs] (unlockedRegs p) d (setFld d (intLocked p) 0) := (setFld_tame ..).mono (by decide) (by simp)
  exact .ite (hset.trans ⟨(setReg_within ..).only, (setReg_regsBut _ _ _).mono (by simp)⟩) (.refl _ _ _)

theorem unlocked_flag {p cl : Nat} (hp : p < 2) (hcl : cl.testBit 3 = true) (d : Dev) : flag (unlocked p cl d) (intLocked p) = false := by
  have hne : (intLocked p).addr ≠ hdrReg p 6 :=
    port_cases (P := fun p => (intLocked p).addr ≠ hdrReg p 6) (by decide) (by decide) hp
  have hzero : flag (setFld d (intLocked p) 0) (intLocked p) = false := flag_setFld_same d (intLocked p) false (by simp [intLocked]) (by simp [intLocked])
  have hop : unlocked p cl d = setReg (setFld d (intLocked p) 0) (hdrReg p 6) (reg d (hdrReg p 6) &&& 7) := if_pos hcl
  rw [hop, (setReg_regsBut _ _ _).flag (by simpa using hne), hzero]

/-- What follows the report leaves the port, its count of changes and, without a Graft, the event. -/
theorem sourceAfter_shows (d : Dev) {p : Nat} (hp : p < 2) (cl ifn : Nat) :
    (∀ q, port (sourceAfter p cl ifn d) q = port d q) ∧ (sourceAfter p cl ifn d).live = d.live ∧
    RegsBut (histRegs ++ unlockedRegs p) d (sourceAfter p cl ifn d) ∧
    (cl.testBit 3 = true → flag (sourceAfter p cl ifn d) (intLocked p) = false) ∧
    (hasGraft d = false → (sourceAfter p cl ifn d).root = d.root ∧ (sourceAfter p cl ifn d).devTime = d.devTime) := by
  have hhist := requestsHist_regsBut (portHistories (img0 d) p) 2 d
  have hparts : Only [.regs, .usb, .ring, .root, .stem, .trk, .mem] d ((portHistories (img0 d) p).foldl (fun d t => requestHist d t 2) d) :=
    (Within.foldl (.refl _ _) fun e t => requestHist_within e t 2).only
  have hnone : hasGraft d = false → (portHistories (img0 d) p).foldl (fun d t => requestHist d t 2) d = d := by
    intro h
    have himg : img0 d = [] := by
      unfold img0
      unfold hasGraft at h
      rw [Option.isSome_eq_false_iff, Option.isNone_iff_eq_none] at h
      rw [h]
    rw [himg]
    rfl
  unfold sourceAfter
  generalize (portHistories (img0 d) p).foldl (fun d t => requestHist d t 2) d = x at hhist hparts hnone ⊢
  obtain ⟨hstore, hport⟩ := storeEmptied_shows p cl x
  generalize storeEmptied p cl x = y at hstore hport ⊢
  have hcad := cadenceAnew_tame (img0 d) p ifn y
  generalize cadenceAnew (img0 d) p ifn y = z at hcad ⊢
  have hun := unlocked_tame p cl z
  have hrest := (hcad.only.mono (l := [.regs, .stem]) (by decide)).via hun.only (by decide)
  refine ⟨fun q => ?_, ?_, ?_, fun h => unlocked_flag hp h z, fun h => ?_⟩
  · rw [port_of_only hrest (by decide), hport, port_of_only hparts (by decide)]
  · exact (hrest .live (by decide)).trans ((hstore.only .live (by decide)).trans (hparts .live (by decide)))
  · exact ((hhist.mono (by simp)).trans (hstore.regs.mono (by simp))).trans ((hcad.regs.mono (by simp)).trans (hun.regs.mono (by simp)))
  · rw [hnone h] at hstore
    exact ⟨(hrest .root (by decide)).trans (hstore.only .root (by decide)), (hrest .devTime (by decide)).trans (hstore.only .devTime (by decide))⟩

theorem sourceAfter_count_free {p : Nat} (hp : p < 2) : aIntChg p ∉ histRegs ++ unlockedRegs p ∧ aIntChg p ∉ lockRegs ∧
    (intLocked p).addr ∉ lockRegs :=
  port_cases (P := fun p => aIntChg p ∉ histRegs ++ unlockedRegs p ∧ aIntChg p ∉ lockRegs ∧ (intLocked p).addr ∉ lockRegs)
    (by decide) (by decide) hp

/-! ## Links, authentication, metadata (R298, R299, R308, R310) -/

/-- The word of a link that trained. -/
def linkWord (p r l : Nat) (fec dsc : Bool) (d : Dev) : Nat :=
  min r (min 6 (fld d (intMaxRate p))) + min l (min 2 (fld d (intMaxLanes p))) * 8 + 32 +
    (if 4 ≤ min r (min 6 (fld d (intMaxRate p))) then 64 else 0) + fec.toNat * 128 + (dsc && flag d (intDscEn p)).toNat * 256

theorem linkWord_lt (p r l : Nat) (fec dsc : Bool) (d : Dev) : linkWord p r l fec dsc d < 2 ^ 32 := by
  have h1 := (fec).toNat_le
  have h2 := (dsc && flag d (intDscEn p)).toNat_le
  unfold linkWord
  split <;> omega

theorem intakeTrain_up {p r l : Nat} {fec dsc : Bool} {d : Dev} (hf : fenced d (0x38 + p) = false) (hh : flag d (intHpd p) = true) :
    intakeTrainOp p r l fec dsc d = setReg d (intLink p) (BitVec.ofNat 32 (linkWord p r l fec dsc d)) := by
  unfold intakeTrainOp linkWord
  rw [if_neg (by simp [hf, hh])]
  dsimp only
  congr 2
  split <;> omega

theorem intakeTrain_down {p r l : Nat} {fec dsc : Bool} {d : Dev} (h : fenced d (0x38 + p) = true ∨ flag d (intHpd p) = false) :
    intakeTrainOp p r l fec dsc d = d := if_pos (by simpa using h)

/-- The state of a sink that authenticates. -/
theorem hdcpSet_shows (d : Dev) (p : Nat) {st : Nat} (hst : st < 4) (t1 : Bool) :
    Tame [.regs] [(hdcpState p).addr] d (setFlds d [(hdcpState p, st), (hdcpType1 p, t1.toNat)]) ∧
    fld (setFlds d [(hdcpState p, st), (hdcpType1 p, t1.toNat)]) (hdcpState p) = st ∧
    flag (setFlds d [(hdcpState p, st), (hdcpType1 p, t1.toNat)]) (hdcpType1 p) = t1 ∧
    fld (setFlds d [(hdcpState p, st), (hdcpType1 p, t1.toNat)]) (hdcpProt p) = fld d (hdcpProt p) := by
  refine ⟨(setFlds_tame ..).mono (by decide) (by simp [hdcpState, hdcpType1]), ?_, ?_, ?_⟩
  · rw [setFlds_cons, setFlds_cons, setFlds_nil, fld_setFld_other _ _ _ _ (by simp [hdcpType1]) (.inr (by simp [hdcpState, hdcpType1])),
      fld_setFld_same _ _ _ (by simp [hdcpState])]
    exact Nat.mod_eq_of_lt hst
  · exact flag_setFld_same _ _ t1 (by simp [hdcpType1]) (by simp [hdcpType1])
  · exact fld_setFlds_other _ _ _ (by simp [hdcpState, hdcpType1, hdcpProt])

theorem hdcpAuth_told {p st : Nat} {t1 : Bool} {d : Dev} (hf : fenced d (0x38 + p) = false) (he : flag d (intHdcpEn p) = true) :
    hdcpAuthOp p st t1 d = if fld d (hdcpState p) = st then setFlds d [(hdcpState p, st), (hdcpType1 p, t1.toNat)]
      else hdcpEvent p (setFlds d [(hdcpState p, st), (hdcpType1 p, t1.toNat)]) := if_neg (by simp [hf, he])

theorem hdcpState_free {p : Nat} (hp : p < 2) : (hdcpState p).addr ∉ [aEvtLost] :=
  port_cases (P := fun p => (hdcpState p).addr ∉ [aEvtLost]) (by decide) (by decide) hp

/-- What authentication shows. -/
structure Authenticated (p st : Nat) (t1 : Bool) (d e : Dev) : Prop where
  only : Only [.regs, .usb, .root] d e
  state : fld e (hdcpState p) = st
  type1 : flag e (hdcpType1 p) = t1
  regs : RegsBut [(hdcpState p).addr, aEvtLost] d e
  told : st ≠ fld d (hdcpState p) → Raised 0x0701 (0x38 + p) 0 (st + fld d (hdcpProt p) * 16) d e
  quiet : st = fld d (hdcpState p) → Only [.regs] d e

theorem hdcpAuth_shows {p st : Nat} {t1 : Bool} {d : Dev} (hp : p < 2) (hst : st < 4) (hf : fenced d (0x38 + p) = false)
    (he : flag d (intHdcpEn p) = true) : Authenticated p st t1 d (hdcpAuthOp p st t1 d) := by
  obtain ⟨hset, hstate, htype, hprot⟩ := hdcpSet_shows d p hst t1
  rw [hdcpAuth_told hf he]
  generalize setFlds d [(hdcpState p, st), (hdcpType1 p, t1.toNat)] = x at hset hstate htype hprot ⊢
  split
  · next hsame =>
    exact ⟨hset.only.mono (by decide), hstate, htype, hset.regs.mono (by simp), fun h => absurd hsame.symm h, fun _ => hset.only⟩
  · next hne =>
    have hlt := fld_lt d (hdcpProt p)
    have harg : st + fld d (hdcpProt p) * 16 < 2 ^ 32 := by simp only [hdcpProt] at hlt ⊢; omega
    have hop : hdcpEvent p x = raise x 0x0701 (0x38 + p) 0 (st + fld d (hdcpProt p) * 16) := by rw [hdcpEvent, hstate, hprot]
    have hraise := raise_tame (d := x) (intUnit_ne_branch hp) 0x0701 0 (st + fld d (hdcpProt p) * 16)
    have hev := raise_raised x 0x0701 (0x38 + p) 0 harg
    rw [hop]
    exact ⟨(hset.only.mono (by decide)).trans hraise.only, (hraise.regs.fld (hdcpState_free hp)).trans hstate,
      (hraise.regs.flag (x := hdcpType1 p) (hdcpState_free hp)).trans htype, (hset.regs.mono (by simp)).trans (hraise.regs.mono (by simp)),
      fun _ => hev.of_eq (hset.only .devTime (by decide)) rfl, fun h => absurd h.symm hne⟩

theorem hdcpAuth_deaf {p st : Nat} {t1 : Bool} {d : Dev} (h : fenced d (0x38 + p) = true ∨ flag d (intHdcpEn p) = false) :
    hdcpAuthOp p st t1 d = d := if_pos (by simpa using h)

theorem sdp_kept {p : Nat} {pk : Bytes} {ws : List Word} {d : Dev} (hf : fenced d (0x38 + p) = false) (hl : flag d (intLocked p) = true)
    (hw : hdrWords pk = some ws) : sdpOp p pk d = setPort d p { port d p with hdr := some ws } := by
  unfold sdpOp
  rw [if_neg (by simp [hf, hl]), hw]

theorem sdp_dropped {p : Nat} {pk : Bytes} {d : Dev} (h : fenced d (0x38 + p) = true ∨ flag d (intLocked p) = false ∨ hdrWords pk = none) :
    sdpOp p pk d = d := by
  unfold sdpOp
  split
  · rfl
  · next hno =>
    simp only [Bool.or_eq_true, Bool.not_eq_true', not_or] at hno
    rw [h.resolve_left hno.1 |>.resolve_left hno.2]

theorem splitTimeout_late {p : Nat} {w : VideoDesc} {t : Nat} {d : Dev} (hw : (port d p).wait = some (w, t))
    (hlate : 2 * w.fperiod < (d.devTime.toNat - t) * w.vtotal) : splitTimeoutOp p d = dropUnpaired p d := by
  unfold splitTimeoutOp
  rw [hw]
  exact if_neg (by unfold pairWindow; omega)

theorem splitTimeout_none {p : Nat} {d : Dev} (hw : (port d p).wait = none) : splitTimeoutOp p d = d := by
  unfold splitTimeoutOp
  rw [hw]

theorem unpaired_of_waiting (d : Dev) (p : Nat) : unpaired (port d p) = { port d p with wait := none, held := [] } := rfl

/-- Settles O48. -/
theorem intakePortsFollowTheirSources : Obligations.IntakePortsFollowTheirSources := by
  unfold Obligations.IntakePortsFollowTheirSources
  refine fun s p halive => ⟨fun r l fec dsc hf hh => ?_, fun r l fec dsc h => ?_, fun st t1 hf he => ?_, fun st t1 h => ?_,
    fun pk ws hf hl hw => ?_, fun pk h => ?_, fun cl h0 hf => ?_, fun cl h => ?_, fun w t hw hlate => ?_, fun hw => ?_⟩
  all_goals have hp := p.isLt
  · refine does_onDev (intakeTrainOp p.val r l fec dsc) rfl halive ?_ ?_ <;> rw [intakeTrain_up hf hh]
    · exact (setReg_within ..).only
    · refine ⟨setReg_regsBut _ _ _, ?_⟩
      rw [reg_setReg_same, BitVec.toNat_ofNat, Nat.mod_eq_of_lt (linkWord_lt ..)]
      rfl
  · exact does_nothing (intakeTrainOp p.val r l fec dsc) rfl halive (intakeTrain_down h)
  · obtain ⟨honly, hstate, htype, hregs, htold, hquiet⟩ := hdcpAuth_shows (t1 := t1) hp st.isLt hf he
    exact does_onDev (hdcpAuthOp p.val st.val t1) rfl halive honly ⟨hstate, htype, hregs, htold, hquiet⟩
  · exact does_nothing (hdcpAuthOp p.val st.val t1) rfl halive (hdcpAuth_deaf h)
  · refine does_onDev (sdpOp p.val pk) rfl halive ?_ ?_ <;> rw [sdp_kept hf hl hw]
    · exact (setPort_within ..).only
    · exact ⟨port_setPort_same .., port_setPort_other _ _ (by simp only [ne_eq, eq_iff_iff]; omega)⟩
  · exact does_nothing (sdpOp p.val pk) rfl halive (sdp_dropped h)
  · have hop : sourceChangeOp p.val cl.val s.dev =
        lockLost p.val (sourceAfter p.val cl.val (fld s.dev (intIfn p.val)) (sourceTold p.val cl.val s.dev)) :=
      (if_neg (by simp [hf])).trans (sourceChange_eq (fun h => h0 (Fin.ext h)) s.dev)
    obtain ⟨hfirst, hlive, hwait, hheld, hcount, hev, htold⟩ := sourceTold_shows s.dev hp cl.isLt
    generalize sourceTold p.val cl.val s.dev = x at hop hfirst hlive hwait hheld hcount hev htold
    obtain ⟨hport, hl, hregs, hflag, hquiet⟩ := sourceAfter_shows x hp cl.val (fld s.dev (intIfn p.val))
    generalize sourceAfter p.val cl.val (fld s.dev (intIfn p.val)) x = y at hop hport hl hregs hflag hquiet
    obtain ⟨hfree, hfreeLock, hfreeLocked⟩ := sourceAfter_count_free hp
    have hlost := lockLost_regsBut p.val y
    have hend : port (lockLost p.val y) p.val = port x p.val := (port_of_only (lockLost_within ..).only (by decide) _).trans (hport _)
    refine does_touches (sourceChangeOp p.val cl.val) rfl halive hop ?_
    refine ⟨by rw [hend, hlive], by rw [hend, hwait], fun h => by rw [hend, hheld h], ?_, fun h8 => ?_, fun hg hlock hvoid => ?_⟩
    · rw [hlost _ hfreeLock, hregs _ hfree, hcount]
    · exact (hlost.flag hfreeLocked).trans (hflag (by simp [Nat.testBit_eq_decide_div_mod_eq]; omega))
    · have hgx : hasGraft x = false := by rw [hasGraft, htold.space0]; exact hg
      have hly : lockPort y = lockPort s.dev := by unfold lockPort inForce; rw [hl, hfirst .live (by decide)]
      rw [lockLost_other (hly ▸ hlock)]
      obtain ⟨hroot, htime⟩ := hquiet hgx
      rw [Raised, hroot]
      exact hev hvoid
  · exact does_nothing (sourceChangeOp p.val cl.val) rfl halive
      (by rcases h with rfl | h <;> simp_all [sourceChangeOp, sourceChange])
  · obtain ⟨htame, hport, hev, hcount⟩ := dropUnpaired_waiting hp (d := s.dev) (by rw [hw]; rfl)
    have hop := splitTimeout_late hw hlate
    refine does_onDev (splitTimeoutOp p.val) rfl halive ?_ ?_ <;> rw [hop]
    · exact htame.only
    · exact ⟨hport, hev, hcount, htame.regs⟩
  · exact does_nothing (splitTimeoutOp p.val) rfl halive (splitTimeout_none hw)

end Sys2Proof.Machine
end

section
/-! PROOF. Flatten caches, flip groups, write-back and UI frames of the Canopy (R314, R327 to R329, R338). -/

namespace Sys2Proof.Machine

/-! ## The flatten cache of a static group (R327, R328) -/

theorem cacheBuilding_addr (g : Nat) : (cacheBuilding g).addr = (cacheBuilding 1).addr := rfl

/-- The part of the flatten area that the next cache takes. -/
def nextPart (g : Nat) (d : Dev) : Nat :=
  if (List.range 4).any (fun i => i + 1 != g && (flag d (cacheValid (i + 1)) || flag d (cacheBuilding (i + 1))) && d.cnp.flat.get 0 (i + 1) == 1)
  then 2 else 1

/-- A cache begins to be built in the next part. -/
def cacheBegun (g : Nat) (d : Dev) : Dev :=
  progStart (setFld { d with cnp := { d.cnp with flat := d.cnp.flat.put 0 g (nextPart g d) } } (cacheBuilding g) 1) 7 g (groupRect d g).2.2.2

theorem cacheFields_apart {i g : Nat} (hi : 1 ≤ i) (hg : 1 ≤ g) (hi4 : i ≤ 4) (hg4 : g ≤ 4) :
    (cacheValid i).lo + 1 ≤ (cacheBuilding g).lo := by simp only [cacheValid, cacheBuilding]; omega

/-- A group whose cache is free is not held back by a lower one. -/
theorem flattenStart_begins {g : Nat} {d : Dev} (h1 : 1 ≤ g) (hg4 : g ≤ 4) (hgraft : hasGraft d = true) (hf : fenced d 0x3A = false) (hcache : d.trk.noCache = false)
    (havail : flag d lp6Avail = true) (hserve : fld d lp6Inservice = 255) (hmem : groupMembers d g ≠ [])
    (hstill : cnpFlatHold (img0 d) ≤ d.cnp.still.get 0 g) (hfree : ∀ i, 1 ≤ i → i ≤ 4 → flag d (cacheBuilding i) = false)
    (hvalid : flag d (cacheValid g) = false) (htwo : ((List.range 4).filter (fun i => flag d (cacheValid (i + 1)))).length < 2)
    (hlower : ∀ i, 1 ≤ i → i < g → groupMembers d i = [] ∨ flag d (cacheValid i) = true) : flattenStartOp g d = cacheBegun g d := by
  have hheld : ((List.range 4).filter (fun i => flag d (cacheValid (i + 1)) || flag d (cacheBuilding (i + 1)))).length < 2 := by
    refine lt_of_eq_of_lt (congrArg List.length (List.filter_congr fun i hi => ?_)) htwo
    rw [hfree (i + 1) (by omega) (by have := List.mem_range.mp hi; omega), Bool.or_false]
  have hnone : (List.range (g - 1)).any (fun i => !(groupMembers d (i + 1)).isEmpty && !flag d (cacheValid (i + 1)) &&
      !flag d (cacheBuilding (i + 1)) && cnpFlatHold (img0 d) ≤ d.cnp.still.get 0 (i + 1)) = false := by
    refine List.any_eq_false.mpr fun i hi => ?_
    rcases hlower (i + 1) (by omega) (by have := List.mem_range.mp hi; omega) with h | h <;> simp [h]
  unfold flattenStartOp
  extract_lets held lower
  have hl : lower = false := hnone
  have hh : held < 2 := hheld
  clear_value lower held
  rw [if_pos]
  · rfl
  · simp [h1, hgraft, hf, hcache, havail, hserve, hmem, hstill, hvalid, hfree g h1 hg4, hl, hh]

theorem flattenStart_none {g : Nat} {d : Dev} (h : g = 0 ∨ hasGraft d = false ∨ fenced d 0x3A = true ∨ groupMembers d g = [] ∨
    flag d (cacheBuilding g) = true) : flattenStartOp g d = d := by
  unfold flattenStartOp
  extract_lets held lower
  rw [if_neg]
  rcases h with h | h | h | h | h <;> simp [h]

theorem progWords_cacheFree : (cacheBuilding 1).addr ∉ [progA 7, progB 7] ∧ (cacheBuilding 1).addr ≠ aEvtLost := by decide

theorem cacheBegun_shows {g : Nat} (h1 : 1 ≤ g) (hg4 : g ≤ 4) (d : Dev) :
    Only [.regs, .root, .cnp] d (cacheBegun g d) ∧ RegsBut [(cacheBuilding 1).addr, progA 7, progB 7] d (cacheBegun g d) ∧
    (cacheBegun g d).cnp = { d.cnp with flat := d.cnp.flat.put 0 g (nextPart g d) } ∧ flag (cacheBegun g d) (cacheBuilding g) = true ∧
    ∀ i, 1 ≤ i → i ≤ 4 → flag (cacheBegun g d) (cacheValid i) = flag d (cacheValid i) := by
  unfold cacheBegun
  generalize (groupRect d g).2.2.2 = total
  have hpart : Only [.cnp] d { d with cnp := { d.cnp with flat := d.cnp.flat.put 0 g (nextPart g d) } } := (within_cnp _).only
  have hregs : RegsBut [] d { d with cnp := { d.cnp with flat := d.cnp.flat.put 0 g (nextPart g d) } } := .of_regs (.refl _ _) rfl
  have hcnp : { d with cnp := { d.cnp with flat := d.cnp.flat.put 0 g (nextPart g d) } }.cnp = { d.cnp with flat := d.cnp.flat.put 0 g (nextPart g d) } := rfl
  generalize { d with cnp := { d.cnp with flat := d.cnp.flat.put 0 g (nextPart g d) } } = x at hpart hregs hcnp ⊢
  have hset := setFld_tame x (cacheBuilding g) 1
  have hflag : flag (setFld x (cacheBuilding g) 1) (cacheBuilding g) = true :=
    flag_setFld_same x (cacheBuilding g) true (by simp only [cacheBuilding]; omega) (by simp [cacheBuilding])
  have hvalid (i : Nat) (hi : 1 ≤ i) (hi4 : i ≤ 4) : flag (setFld x (cacheBuilding g) 1) (cacheValid i) = flag d (cacheValid i) := by
    rw [flag, fld_setFld_other _ _ _ _ (by simp only [cacheBuilding]; omega) (.inr (.inl (cacheFields_apart hi h1 hi4 hg4))), hregs.fld (by simp)]
    rfl
  generalize setFld x (cacheBuilding g) 1 = y at hset hflag hvalid ⊢
  have hprog := progStart_regsBut y 7 g total
  have honly := (progStart_within y 7 g total).only
  generalize progStart y 7 g total = z at hprog honly ⊢
  have hfree (i : Nat) : flag z (cacheValid i) = flag y (cacheValid i) := hprog.flag (x := cacheValid i) progWords_cacheFree.1
  refine ⟨(((hpart.mono (by decide)).via hset.only (by decide))).via honly (by decide),
    ((hregs.mono (by simp)).via hset.regs (by simp [cacheBuilding_addr])).via hprog (by simp), ?_, ?_, fun i hi hi4 => ?_⟩
  · rw [honly .cnp (by decide), hset.only .cnp (by decide), hcnp]
  · rw [hprog.flag (x := cacheBuilding g) progWords_cacheFree.1, hflag]
  · rw [hfree, hvalid i hi hi4]

/-- A valid cache keeps its part, and the new one takes the other. -/
theorem nextPart_other {g i : Nat} {d : Dev} (hi : 1 ≤ i) (hi4 : i ≤ 4) (hne : i ≠ g) (hv : flag d (cacheValid i) = true) :
    (d.cnp.flat.put 0 g (nextPart g d)).get 0 i = d.cnp.flat.get 0 i ∧
    (d.cnp.flat.get 0 i = 1 → (d.cnp.flat.put 0 g (nextPart g d)).get 0 g = 2) := by
  refine ⟨Map.get_put_other _ _ _ hne, fun h => ?_⟩
  rw [Map.get_put_same]
  refine if_pos (List.any_eq_true.mpr ⟨i - 1, List.mem_range.mpr (by omega), ?_⟩)
  have hsub : i - 1 + 1 = i := by omega
  simp [hsub, hne, hv, h]

/-- Runs of `n` bytes written one after another change nothing beyond the last one. -/
theorem writeRuns_outside {f : Nat → Bytes} {a n : Nat} (hf : ∀ i, (f i).length = n) (d : Dev) {h j : Nat} (hj : j < a ∨ a + n * h ≤ j) :
    readMem ((List.range h).foldl (fun e i => writeMem e (a + n * i) (f i)) d) j 1 = readMem d j 1 := by
  induction h with
  | zero => rfl
  | succ h ih =>
    rw [List.range_succ, List.foldl_append, List.foldl_cons, List.foldl_nil, writeMem_outside, ih (by rw [Nat.mul_succ] at hj; omega)]
    rw [hf]
    rw [Nat.mul_succ] at hj
    omega

theorem length_flatMap_const {α : Type} (l : List α) {f : α → Bytes} {n : Nat} (h : ∀ x, (f x).length = n) : (l.flatMap f).length = n * l.length := by
  simp [List.length_flatMap, h, Nat.mul_comm]

/-- The eight bytes of a pixel of a cache: its colour and its coverage. -/
def cacheCell : Option ((Nat × List Nat) × Nat) → Bytes
  | some q => le 4 (colourWord 0 q.1.2) ++ le 4 q.1.1
  | none => le 8 0

theorem cacheCell_length (o : Option ((Nat × List Nat) × Nat)) : (cacheCell o).length = 8 := by
  cases o with
  | none => exact length_le 8 0
  | some q => rw [cacheCell, List.length_append, length_le, length_le]

/-- The words of a cache, built: the bytes of its rectangle alone change. -/
theorem buildCache_outside (g width height : Nat) (d : Dev) {x y : Int} {w h : Nat} (hr : groupRect d g = (x, y, w, h)) {j : Nat}
    (hj : j < flatAddr d g ∨ flatAddr d g + 8 * w * h ≤ j) : readMem (buildCache g width height d) j 1 = readMem d j 1 := by
  unfold buildCache
  rw [hr]
  refine writeRuns_outside (fun i => ?_) d hj
  refine (length_flatMap_const (n := 8) _ fun k => ?_).trans (by rw [List.length_range])
  exact cacheCell_length _

/-- A cache built is valid and no longer in building. -/
def cacheBuilt (g : Nat) (d : Dev) : Dev :=
  raise (progDone (setFlds (buildCache g (panelOf d (ofn d)).1 (panelOf d (ofn d)).2 d) [(cacheBuilding g, 0), (cacheValid g, 1)]) 7) 0x0124 0x3A 0 g

theorem flattenBuilt_eq {g : Nat} {d : Dev} (h1 : 1 ≤ g) (hb : flag d (cacheBuilding g) = true) : flattenBuiltOp g d = cacheBuilt g d :=
  if_pos (by simp [h1, hb])

theorem flattenBuilt_none {g : Nat} {d : Dev} (h : g = 0 ∨ flag d (cacheBuilding g) = false) : flattenBuiltOp g d = d :=
  if_neg (by rcases h with h | h <;> simp [h])

theorem cacheSet_shows {g : Nat} (h1 : 1 ≤ g) (hg4 : g ≤ 4) (d : Dev) :
    Tame [.regs] [(cacheBuilding 1).addr] d (setFlds d [(cacheBuilding g, 0), (cacheValid g, 1)]) ∧
    flag (setFlds d [(cacheBuilding g, 0), (cacheValid g, 1)]) (cacheBuilding g) = false ∧
    flag (setFlds d [(cacheBuilding g, 0), (cacheValid g, 1)]) (cacheValid g) = true := by
  refine ⟨(setFlds_tame ..).mono (by decide) (by simp [cacheBuilding, cacheValid]), ?_, ?_⟩
  · rw [setFlds_cons, setFlds_cons, setFlds_nil, flag,
      fld_setFld_other _ _ _ _ (by simp only [cacheValid]; omega) (.inr (.inr (cacheFields_apart h1 h1 hg4 hg4)))]
    exact flag_setFld_same d (cacheBuilding g) false (by simp only [cacheBuilding]; omega) (by simp [cacheBuilding])
  · exact flag_setFld_same _ (cacheValid g) true (by simp only [cacheValid]; omega) (by simp [cacheValid])

/-- What a cache built shows. -/
structure CacheReady (g : Nat) (d e : Dev) : Prop where
  only : Only [.regs, .usb, .root, .mem] d e
  regs : RegsBut [(cacheBuilding 1).addr, progA 7, progB 7, aEvtLost] d e
  building : flag e (cacheBuilding g) = false
  valid : flag e (cacheValid g) = true
  event : Raised 0x0124 0x3A 0 g d e
  mem : e.mem = (buildCache g (panelOf d (ofn d)).1 (panelOf d (ofn d)).2 d).mem

theorem cacheBuilt_ready {g : Nat} (h1 : 1 ≤ g) (hg4 : g ≤ 4) (d : Dev) : CacheReady g d (cacheBuilt g d) := by
  unfold cacheBuilt
  have hbuild := (buildCache_within g (panelOf d (ofn d)).1 (panelOf d (ofn d)).2 d).only
  generalize hcache : buildCache g (panelOf d (ofn d)).1 (panelOf d (ofn d)).2 d = x at hbuild ⊢
  obtain ⟨hset, hb, hv⟩ := cacheSet_shows h1 hg4 x
  generalize setFlds x [(cacheBuilding g, 0), (cacheValid g, 1)] = y at hset hb hv ⊢
  have hprog := progDone_regsBut y 7
  have honly := (progDone_within y 7).only
  rw [← hprog.flag (x := cacheBuilding g) progWords_cacheFree.1] at hb
  rw [← hprog.flag (x := cacheValid g) progWords_cacheFree.1] at hv
  generalize progDone y 7 = z at hprog honly hb hv ⊢
  have hraise := raise_tame (d := z) (unit := 0x3A) (by omega) 0x0124 0 g
  have hev := raise_raised z 0x0124 0x3A 0 (arg := g) (by omega)
  have hxz := ((hbuild.mono (l := [.regs, .root, .mem]) (by decide)).via hset.only (by decide)).via honly (by decide)
  refine ⟨(hxz.mono (by decide)).via hraise.only (by decide), ?_, ?_, ?_, hev.of_eq (hxz .devTime (by decide)) rfl, ?_⟩
  · have hx : RegsBut [(cacheBuilding 1).addr, progA 7, progB 7, aEvtLost] d x := .of_only hbuild (by decide) _
    exact ((hx.via hset.regs (by simp)).via hprog (by simp)).via hraise.regs (by simp)
  · exact (hraise.regs.flag (x := cacheBuilding g) (mt List.mem_singleton.mp progWords_cacheFree.2)).trans hb
  · exact (hraise.regs.flag (x := cacheValid g) (mt List.mem_singleton.mp progWords_cacheFree.2)).trans hv
  · rw [hraise.only .mem (by decide), honly .mem (by decide), hset.only .mem (by decide), hcache]

/-! ## A flip group that waited too long (R331) -/

theorem pend_free (l : Nat) : (cnpStatePend l).addr ≠ flipPending.addr := by simp only [cnpStatePend, cnpBase, flipPending]; omega

/-- The pending groups of each layer are counted. -/
def pendCounted (d : Dev) : Dev :=
  (List.range 8).foldl (fun d l => setFld d (cnpStatePend l) (d.cnp.groups.filter (fun g => g.mask.testBit l)).length)
    (setFld d flipPending d.cnp.groups.length)

theorem pendCounted_shows (d : Dev) : Only [.regs] d (pendCounted d) ∧ fld (pendCounted d) flipPending = d.cnp.groups.length % 8 := by
  refine ⟨Within.only (.foldl (setFld_within ..) fun _ _ => setFld_within ..), ?_⟩
  have hsame := fld_setFld_same d flipPending d.cnp.groups.length (by decide)
  unfold pendCounted
  generalize setFld d flipPending d.cnp.groups.length = x at hsame
  generalize List.range 8 = l
  induction l generalizing x with
  | nil => exact hsame
  | cons a l ih => exact ih _ ((setFld_regsBut _ _ _).fld (by simpa using (pend_free a).symm) |>.trans hsame)

/-- The only group is dropped. -/
theorem dropFlips_one {d : Dev} {g : FlipGroup} {p : FlipGroup → Bool} (hg : d.cnp.groups = [g]) (hp : p g = true) (st : Nat) :
    dropFlips st p d = raise (complete (pendCounted { d with cnp := { d.cnp with groups := [] } }) g.tag st []) 0x0121 0x3A 0 (st + g.mask * 256) := by
  unfold dropFlips pendCounted
  rw [hg]
  simp [hp]

/-- What the timeout of a group shows. -/
structure GroupGone (g : FlipGroup) (r : TagRec) (d e : Dev) : Prop where
  only : Only [.regs, .usb, .root, .cnp] d e
  cnp : e.cnp = { d.cnp with groups := [] }
  pending : fld e flipPending = 0
  answer : Queued [{ tag := g.tag % 65536, addr := r.addr, status := stTimeout, payload := [] }] d e
  event : Raised 0x0121 0x3A 0 ((stTimeout + g.mask * 256) % 2 ^ 32) d e

theorem dropFlips_gone {d : Dev} {g : FlipGroup} {r : TagRec} {p : FlipGroup → Bool} (hg : d.cnp.groups = [g]) (hp : p g = true)
    (hr : d.usb.tags.find? (fun x => x.tag == g.tag && !x.done) = some r) : GroupGone g r d (dropFlips stTimeout p d) := by
  rw [dropFlips_one hg hp]
  have hfirst : Only [.cnp] d { d with cnp := { d.cnp with groups := [] } } := (within_cnp _).only
  obtain ⟨hcount, hpend⟩ := pendCounted_shows { d with cnp := { d.cnp with groups := [] } }
  generalize pendCounted { d with cnp := { d.cnp with groups := [] } } = x at hcount hpend
  have hcnp : x.cnp = { d.cnp with groups := [] } := hcount .cnp (by decide)
  have husb : x.usb = d.usb := hcount .usb (by decide)
  have hx : Only [.regs, .usb, .root, .cnp] d x := (hfirst.mono (by decide)).via hcount (by decide)
  have hdone := (complete_within x g.tag stTimeout []).only
  have hfound := complete_found stTimeout [] (d := x) (key := g.tag) (by rw [husb]; exact hr)
  rw [← fld_complete x g.tag stTimeout [] flipPending] at hpend
  have hqueue : (complete x g.tag stTimeout []).usb.ep1in =
      d.usb.ep1in ++ [{ tag := g.tag % 65536, addr := r.addr, status := stTimeout, payload := [] }] := by rw [hfound, husb]
  generalize complete x g.tag stTimeout [] = y at hdone hpend hqueue ⊢
  have hraise := raise_tame (d := y) (unit := 0x3A) (by omega) 0x0121 0 (stTimeout + g.mask * 256)
  refine ⟨(hx.via hdone (by decide)).via hraise.only (by decide), ?_, (hraise.regs.fld (by decide)).trans hpend, ?_, ?_⟩
  · rw [hraise.only .cnp (by decide), hdone .cnp (by decide), hcnp]
  · rw [Queued, raise_usb, ← hqueue]
  · rw [Raised, raise_root, hdone .devTime (by decide), hx .devTime (by decide)]

theorem flipTimeout_due {d : Dev} {t : BitVec 16} {g : FlipGroup} (hg : d.cnp.groups = [g]) (ht : g.tag = tagKey d t) (h0 : g.timeout ≠ 0)
    (hdue : g.timeout ≤ g.tries) : flipTimeoutOp (some t) d = dropFlips stTimeout (fun x => x.tag == g.tag) d := by
  unfold flipTimeoutOp
  simp [hg, ht, h0, hdue]

theorem flipTimeout_early {d : Dev} {t : BitVec 16} {g : FlipGroup} (hg : d.cnp.groups = [g]) (hearly : g.tries < g.timeout) :
    flipTimeoutOp (some t) d = d := by
  unfold flipTimeoutOp
  simp [hg, Nat.not_le.mpr hearly]

/-! ## Write-back (R338) -/

theorem panelOf_of {d e : Dev} (hras : e.ras = d.ras) (hlive : e.live = d.live) (hofn : ofn e = ofn d) (n : Nat) : panelOf e n = panelOf d n := by
  unfold panelOf dsoWord
  rw [hras, hlive, hofn]

/-- The oldest queued line leaves the queue. -/
def lineTaken (l : List WbLine) (d : Dev) : Dev := { d with cnp := { d.cnp with wbQ := l } }

/-- The bytes of a line go to their tensor, unless the frame is withheld. -/
def lineStored (x : WbLine) (d : Dev) : Dev :=
  if hasGraft d && decide (cnpWbTensor (img0 d) < nTensors (img0 d)) && !d.cnp.wbHeld then
    if tH (img0 d) (cnpWbTensor (img0 d)) ≤ x.line then d
    else (vwrite d (hwWho d (cnpWbTensor (img0 d))) (tAddr (img0 d) (cnpWbTensor (img0 d)) (x.ofn % max 1 (tSlots (img0 d) (cnpWbTensor (img0 d)))) x.line 0 0)
      (x.bytes.take (4 * tW (img0 d) (cnpWbTensor (img0 d))))).1
  else d

/-- One more line of the frame is written. -/
def wbCounted (d : Dev) : Dev := { d with cnp := { d.cnp with wbDone := d.cnp.wbDone + 1 } }

theorem wbWritten_eq {d : Dev} {x : WbLine} {l : List WbLine} (hq : d.cnp.wbQ = x :: l) :
    wbWrittenOp d = if (lineStored x (lineTaken l d)).cnp.wbFrame = some x.ofn then
      if (wbCounted (lineStored x (lineTaken l d))).cnp.wbDone = (panelOf (wbCounted (lineStored x (lineTaken l d))) x.ofn).2
      then wbFrameEnd (wbCounted (lineStored x (lineTaken l d))) else wbCounted (lineStored x (lineTaken l d))
    else lineStored x (lineTaken l d) := by
  unfold wbWrittenOp
  rw [hq]
  rfl

theorem lineStored_tame (x : WbLine) (d : Dev) : Tame [.regs, .trk, .mem] demandRegs d (lineStored x d) :=
  .ite (.ite (.refl _ _ _) (vwrite_tame ..)) (.refl _ _ _)

theorem lineStored_held {x : WbLine} {d : Dev} (h : d.cnp.wbHeld = true) : lineStored x d = d := if_neg (by simp [h])

/-- A frame that was written back is named and signalled. -/
def wbNamed (n : Nat) (d : Dev) : Dev :=
  if d.cnp.wbHeld then d else setFld (if cnpWbRing (img0 d) = 0 then d else ringInc d (cnpWbRing (img0 d)) 1) wbOfn n

/-- Lines that were dropped are reported. -/
def wbDropTold (d : Dev) : Dev := if d.cnp.wbDrop = 0 then d else raise d 0x0122 0x3A 2 (min d.cnp.wbDrop 65535)

/-- No frame is being written back. -/
def wbClosed (d : Dev) : Dev :=
  { d with cnp := { d.cnp with wbFrame := none, wbHeld := false, wbDrop := 0, wbDone := 0, wbLeft := d.cnp.wbLeft.map (· - 1), wbStop := [] } }

/-- The stops that waited complete, and the write-back ends when it was to. -/
def wbStopped (stop : List Nat) (last : Bool) (d : Dev) : Dev :=
  if last then setFld (stop.foldl (fun d t => complete d t stOk []) d) wbActive 0 else stop.foldl (fun d t => complete d t stOk []) d

theorem wbFrameEnd_eq {d : Dev} {n : Nat} (h : d.cnp.wbFrame = some n) : wbFrameEnd d =
    wbStopped (wbDropTold (wbNamed n d)).cnp.wbStop
      (!(wbDropTold (wbNamed n d)).cnp.wbStop.isEmpty || (wbDropTold (wbNamed n d)).cnp.wbLeft.map (· - 1) = some 0)
      (wbClosed (wbDropTold (wbNamed n d))) := by
  unfold wbFrameEnd
  rw [h]
  rfl

theorem wbNamed_shows (n : Nat) (d : Dev) : Only [.regs, .ring] d (wbNamed n d) ∧ (d.cnp.wbHeld = false → fld (wbNamed n d) wbOfn = n % 2 ^ 32 ∧
    ringVal (wbNamed n d) (cnpWbRing (img0 d)) = (ringVal d (cnpWbRing (img0 d)) + if cnpWbRing (img0 d) = 0 then 0 else 1) % 2 ^ 32) := by
  unfold wbNamed
  have hring : Only [.ring] d (if cnpWbRing (img0 d) = 0 then d else ringInc d (cnpWbRing (img0 d)) 1) :=
    Within.only (.ite (.refl _ _) (ringInc_within ..))
  have hval : ringVal (if cnpWbRing (img0 d) = 0 then d else ringInc d (cnpWbRing (img0 d)) 1) (cnpWbRing (img0 d)) =
      (ringVal d (cnpWbRing (img0 d)) + if cnpWbRing (img0 d) = 0 then 0 else 1) % 2 ^ 32 := by
    split
    · rw [Nat.add_zero, ringVal, Nat.mod_eq_of_lt (BitVec.isLt _)]
    · rw [ringVal_ringInc, if_pos rfl]
  generalize (if cnpWbRing (img0 d) = 0 then d else ringInc d (cnpWbRing (img0 d)) 1) = x at hring hval ⊢
  have hset := setFld_tame x wbOfn n
  have hn := fld_setFld_same x wbOfn n (by decide)
  split
  · next hheld => exact ⟨.refl _ _, fun h => absurd hheld (by simp [h])⟩
  · exact ⟨(hring.mono (by decide)).via hset.only (by decide), fun _ => ⟨hn, (ringVal_of_ring (hset.only .ring (by decide)) _).trans hval⟩⟩

theorem wbDropTold_tame (d : Dev) : Tame [.regs, .usb, .root] [aEvtLost] d (wbDropTold d) := .ite (.refl _ _ _) (raise_tame (by omega) _ _ _)

theorem wbStopped_tame (stop : List Nat) (last : Bool) (d : Dev) : Tame [.regs, .usb] [wbActive.addr] d (wbStopped stop last d) := by
  have hdone : Tame [.regs, .usb] [wbActive.addr] d (stop.foldl (fun d t => complete d t stOk []) d) :=
    .foldl fun e t _ => ⟨(complete_within ..).only.mono (by decide), complete_regsBut _ _ _ _ _⟩
  exact .ite (hdone.via (setFld_tame _ wbActive 0) (by decide) (by simp)) hdone

theorem wbFrameEnd_shows {d : Dev} {n : Nat} (h : d.cnp.wbFrame = some n) : Only [.regs, .usb, .ring, .root, .cnp] d (wbFrameEnd d) ∧
    (wbFrameEnd d).cnp.wbQ = d.cnp.wbQ ∧ (wbFrameEnd d).cnp.wbFrame = none ∧
    (d.cnp.wbHeld = false → fld (wbFrameEnd d) wbOfn = n % 2 ^ 32 ∧
      ringVal (wbFrameEnd d) (cnpWbRing (img0 d)) = (ringVal d (cnpWbRing (img0 d)) + if cnpWbRing (img0 d) = 0 then 0 else 1) % 2 ^ 32) := by
  rw [wbFrameEnd_eq h]
  obtain ⟨hname, hval⟩ := wbNamed_shows n d
  generalize wbNamed n d = x at hname hval ⊢
  have htold := wbDropTold_tame x
  generalize wbDropTold x = y at htold ⊢
  have hcnp : y.cnp = d.cnp := (htold.only .cnp (by decide)).trans (hname .cnp (by decide))
  have hclose : Only [.cnp] y (wbClosed y) := (within_cnp _).only
  have hregs : RegsBut [wbActive.addr] y (wbClosed y) := .of_only hclose (by decide) _
  have hq : (wbClosed y).cnp.wbQ = d.cnp.wbQ ∧ (wbClosed y).cnp.wbFrame = none := ⟨by rw [← hcnp]; rfl, rfl⟩
  generalize wbClosed y = z at hclose hregs hq ⊢
  have hstop := wbStopped_tame y.cnp.wbStop (!y.cnp.wbStop.isEmpty || y.cnp.wbLeft.map (· - 1) = some 0) z
  generalize wbStopped y.cnp.wbStop (!y.cnp.wbStop.isEmpty || y.cnp.wbLeft.map (· - 1) = some 0) z = w at hstop ⊢
  refine ⟨(((hname.mono (by decide)).via htold.only (by decide)).via hclose (by decide)).via hstop.only (by decide), ?_, ?_, fun hheld => ?_⟩
  · rw [hstop.only .cnp (by decide), hq.1]
  · rw [hstop.only .cnp (by decide), hq.2]
  · obtain ⟨hofn, hring⟩ := hval hheld
    refine ⟨?_, ?_⟩
    · rw [(hregs.trans hstop.regs).fld (by decide), htold.regs.fld (by decide), hofn]
    · rw [← hring]
      refine ringVal_of_ring ?_ _
      exact (hstop.only .ring (by decide)).trans ((hclose .ring (by decide)).trans (htold.only .ring (by decide)))

/-- What a line written back shows. -/
structure LineBack (x : WbLine) (l : List WbLine) (d e : Dev) : Prop where
  only : Only [.regs, .usb, .ring, .root, .trk, .mem, .cnp] d e
  queue : e.cnp.wbQ = l
  counted : d.cnp.wbFrame = some x.ofn → d.cnp.wbDone + 1 ≠ (panelOf d x.ofn).2 →
    e.cnp = { d.cnp with wbQ := l, wbDone := d.cnp.wbDone + 1 }
  ended : d.cnp.wbFrame = some x.ofn → d.cnp.wbDone + 1 = (panelOf d x.ofn).2 → e.cnp.wbFrame = none ∧
    (d.cnp.wbHeld = false → fld e wbOfn = x.ofn % 2 ^ 32 ∧
      ringVal e (cnpWbRing (img0 d)) = (ringVal d (cnpWbRing (img0 d)) + if cnpWbRing (img0 d) = 0 then 0 else 1) % 2 ^ 32)
  withheld : d.cnp.wbHeld = true → e.mem = d.mem

theorem wbWritten_shows {d : Dev} {x : WbLine} {l : List WbLine} (hq : d.cnp.wbQ = x :: l) : LineBack x l d (wbWrittenOp d) := by
  rw [wbWritten_eq hq]
  have htake : Only [.cnp] d (lineTaken l d) := (within_cnp _).only
  have htregs : RegsBut [] d (lineTaken l d) := .of_only htake (by decide) _
  have hcnp : (lineTaken l d).cnp = { d.cnp with wbQ := l } := rfl
  have hmem : d.cnp.wbHeld = true → (lineStored x (lineTaken l d)).mem = d.mem := fun h => by rw [lineStored_held (d := lineTaken l d) h]; rfl
  have hstore := lineStored_tame x (lineTaken l d)
  generalize lineTaken l d = t at htake htregs hcnp hmem hstore ⊢
  generalize lineStored x t = y at hmem hstore ⊢
  have hy : y.cnp = { d.cnp with wbQ := l } := (hstore.only .cnp (by decide)).trans hcnp
  have honly : Only [.regs, .trk, .mem, .cnp] d y := (htake.mono (by decide)).via hstore.only (by decide)
  have hofn : ofn y = ofn d := (hstore.regs.fld (x := dsoOfn) (by decide)).trans (htregs.fld (by simp))
  have hcount : Only [.cnp] y (wbCounted y) := (within_cnp _).only
  have hz : (wbCounted y).cnp = { d.cnp with wbQ := l, wbDone := d.cnp.wbDone + 1 } := by unfold wbCounted; rw [hy]
  have hzofn : ofn (wbCounted y) = ofn y := fld_of_regs rfl _
  rw [show y.cnp.wbFrame = d.cnp.wbFrame by rw [hy]]
  generalize wbCounted y = z at hcount hz hzofn ⊢
  have honly' : Only [.regs, .trk, .mem, .cnp] d z := honly.via hcount (by decide)
  have hpanel : panelOf z x.ofn = panelOf d x.ofn :=
    panelOf_of (honly' .ras (by decide)) (honly' .live (by decide)) (hzofn.trans hofn) _
  have himg : img0 z = img0 d := by rw [img0, honly' .root (by decide)]; rfl
  have hzring (r : Nat) : ringVal z r = ringVal d r := ringVal_of_ring (honly' .ring (by decide)) r
  have hzmem : z.mem = y.mem := hcount .mem (by decide)
  rw [hpanel, show z.cnp.wbDone = d.cnp.wbDone + 1 by rw [hz]]
  split
  · next hframe =>
    split
    · next hlast =>
      obtain ⟨hend, hendq, hnone, hval⟩ := wbFrameEnd_shows (d := z) (n := x.ofn) (by rw [hz]; exact hframe)
      rw [himg, hzring] at hval
      refine ⟨(honly'.mono (by decide)).via hend (by decide), by rw [hendq, hz], fun _ h => absurd hlast h, fun _ _ => ⟨hnone, fun h => hval (by rw [hz]; exact h)⟩, fun h => ?_⟩
      rw [hend .mem (by decide), hzmem, hmem h]
    · next hmore => exact ⟨honly'.mono (by decide), by rw [hz], fun _ _ => hz, fun _ h => absurd h hmore, fun h => by rw [hzmem, hmem h]⟩
  · next hother => exact ⟨honly.mono (by decide), by rw [hy], fun h => absurd h hother, fun h => absurd h hother, hmem⟩

theorem wbWritten_none {d : Dev} (hq : d.cnp.wbQ = []) : wbWrittenOp d = d := by
  unfold wbWrittenOp
  rw [hq]

/-! ## UI frames (R314) -/

/-- A UI frame awaits the flip. -/
def uiAwaits (ifn : Nat) (d : Dev) : Dev := { d with cnp := { d.cnp with uiPend := some (d.cnp.uiBuf, ifn) } }

/-- The older UI frame is dropped. -/
def uiDropped (i : Nat) (d : Dev) : Dev := raise (bump d (aIntUiDrop 1) 1) 0x0505 0x39 0 i

theorem uiComplete_same {d : Dev} {f : InFrame} {l : List InFrame} {b : Nat} (hf : (port d 1).frames = f :: l)
    (hp : d.cnp.uiPend = some (b, f.ifn)) : uiCompleteOp d = d := by
  unfold uiCompleteOp
  simp [hf, hp]

section
variable {d : Dev} {f : InFrame} {l : List InFrame} (hf : (port d 1).frames = f :: l) (hm : uiMode d 1 = true) (he : f.ended = true)
  (hv : f.void = false) (hl : uiLayer d ≠ none)
include hf hm he hv hl

theorem uiComplete_first (hp : d.cnp.uiPend = none) : uiCompleteOp d = uiAwaits f.ifn d := by
  have hlayer := Option.isSome_iff_ne_none.mpr hl
  unfold uiCompleteOp uiAwaits
  simp [hf, hm, he, hv, hlayer, hp]

theorem uiComplete_newer {b i : Nat} (hp : d.cnp.uiPend = some (b, i)) (hi : i ≠ f.ifn) : uiCompleteOp d = uiAwaits f.ifn (uiDropped i d) := by
  have hlayer := Option.isSome_iff_ne_none.mpr hl
  unfold uiCompleteOp uiAwaits uiDropped
  simp [hf, hm, he, hv, hlayer, hp, hi]

end

theorem uiDropped_shows (i : Nat) (d : Dev) : Tame [.regs, .usb, .root] [aIntUiDrop 1, aEvtLost] d (uiDropped i d) ∧
    Raised 0x0505 0x39 0 (i % 2 ^ 32) d (uiDropped i d) ∧
    (reg (uiDropped i d) (aIntUiDrop 1)).toNat = min ((reg d (aIntUiDrop 1)).toNat + 1) 0xFFFFFFFF := by
  unfold uiDropped
  have hbump := bump_tame d (aIntUiDrop 1) 1
  have hcount := reg_bump_same d (aIntUiDrop 1) 1
  generalize bump d (aIntUiDrop 1) 1 = x at hbump hcount ⊢
  have hraise := raise_tame (d := x) (unit := 0x39) (by omega) 0x0505 0 i
  refine ⟨(hbump.mono (by decide) (by simp)).via hraise (by decide) (by simp), ?_, ?_⟩
  · rw [Raised, raise_root, hbump.only .devTime (by decide)]
  · rw [hraise.regs _ (by decide), hcount]

/-- Settles O47. -/
theorem canopyKeepsCachesFlipsAndLines : Obligations.CanopyKeepsCachesFlipsAndLines := by
  unfold Obligations.CanopyKeepsCachesFlipsAndLines
  refine fun s halive => ⟨?_, fun g h => ?_, fun g h1 hb => ?_, fun g h => ?_, fun t g r hg ht h0 hr => ⟨fun hdue => ?_, fun hearly => ?_⟩,
    fun x l hq => ?_, fun hq => ?_, fun f l hf hm he hv hl => ⟨fun hp => ?_, fun b i hp hi => ?_, fun b hp => ?_⟩⟩
  · intro g h1 hgraft hf hcache havail hserve hmem hstill hfree hvalid htwo hlower
    have hg4 : g.val ≤ 4 := by omega
    have hop := flattenStart_begins h1 hg4 hgraft hf hcache havail hserve hmem hstill hfree hvalid htwo hlower
    obtain ⟨honly, hregs, hcnp, hflag, hkeep⟩ := cacheBegun_shows h1 hg4 s.dev
    refine does_onDev (flattenStartOp g.val) rfl halive ?_ ?_ <;> rw [hop]
    · exact honly
    · refine ⟨hflag, by rw [hcnp], fun i hi hi4 hne hv => ?_, hkeep, hregs⟩
      rw [hcnp]
      exact nextPart_other hi hi4 hne hv
  · exact does_nothing (flattenStartOp g.val) rfl halive (flattenStart_none (h.imp_left fun h => by simp [h]))
  · have hready := cacheBuilt_ready h1 (by omega) s.dev
    rw [← flattenBuilt_eq h1 hb] at hready
    obtain ⟨honly, hregs, hbuilding, hvalid, hev, hmem⟩ := hready
    refine does_onDev (flattenBuiltOp g.val) rfl halive honly ⟨fun x y w h hrect j hj => ?_, hbuilding, hvalid, hev, hregs⟩
    rw [readMem_of_mem hmem, buildCache_outside _ _ _ _ hrect hj]
  · exact does_nothing (flattenBuiltOp g.val) rfl halive (flattenBuilt_none (h.imp_left fun h => by simp [h]))
  · obtain ⟨honly, hcnp, hpend, hans, hev⟩ := dropFlips_gone (p := fun x => x.tag == g.tag) hg (beq_self_eq_true _) hr
    rw [← flipTimeout_due hg ht h0 hdue] at honly hcnp hpend hans hev
    exact does_onDev (flipTimeoutOp (some t)) rfl halive honly ⟨hcnp, hpend, hans, hev⟩
  · exact does_nothing (flipTimeoutOp (some t)) rfl halive (flipTimeout_early hg hearly)
  · obtain ⟨honly, hqueue, hcount, hend, hheld⟩ := wbWritten_shows hq
    exact does_onDev wbWrittenOp rfl halive honly ⟨hqueue, hcount, fun h1 h2 => ⟨(hend h1 h2).1, fun h3 _ => (hend h1 h2).2 h3⟩, hheld⟩
  · exact does_nothing wbWrittenOp rfl halive (wbWritten_none hq)
  · refine does_onDev uiCompleteOp rfl halive ?_ ?_ <;> rw [uiComplete_first hf hm he hv hl hp]
    · exact (within_cnp _).only
    · rfl
  · obtain ⟨htame, hev, hcount⟩ := uiDropped_shows i s.dev
    have hop := uiComplete_newer hf hm he hv hl hp hi
    generalize uiDropped i s.dev = x at htame hev hcount hop
    refine does_onDev uiCompleteOp rfl halive ?_ ?_ <;> rw [hop]
    · exact (htame.only.mono (by decide)).via (within_cnp _).only (by decide)
    · refine ⟨?_, hev, hcount⟩
      unfold uiAwaits
      rw [htame.only .cnp (by decide)]
  · exact does_nothing uiCompleteOp rfl halive (uiComplete_same hf hp)

end Sys2Proof.Machine
end

section
/-! PROOF. Tasks become ready: what the waits and the shapes of a task are read from, and the contexts that it is given (R225, R249, R250). -/

namespace Sys2Proof.Machine

/-! ## What waits and shapes are read from -/

/-- The Rings, the frames of the sources, the cadence, the records and the shapes stand, and so do the Grafts. -/
structure SameReads (d e : Dev) : Prop where
  ring : e.ring = d.ring
  inp : e.inp = d.inp
  live : e.live = d.live
  space0 : e.root.space0 = d.root.space0
  space1 : e.root.space1 = d.root.space1
  cad : e.stem.cad = d.stem.cad
  recs : e.stem.recs = d.stem.recs
  shp : e.stem.shp = d.stem.shp

theorem SameReads.refl (d : Dev) : SameReads d d := ⟨rfl, rfl, rfl, rfl, rfl, rfl, rfl, rfl⟩

theorem SameReads.trans {d e f : Dev} (h : SameReads d e) (g : SameReads e f) : SameReads d f :=
  ⟨g.ring.trans h.ring, g.inp.trans h.inp, g.live.trans h.live, g.space0.trans h.space0, g.space1.trans h.space1, g.cad.trans h.cad,
    g.recs.trans h.recs, g.shp.trans h.shp⟩

theorem SameReads.of_only {l : List Part} {d e : Dev} (h : Only l d e) (hl : partsIn l [.regs, .trk, .mem] = true) : SameReads d e := by
  have honly := h.mono hl
  have hstem : e.stem = d.stem := honly .stem (by decide)
  have hroot : e.root = d.root := honly .root (by decide)
  exact ⟨honly .ring (by decide), honly .inp (by decide), honly .live (by decide), by rw [hroot], by rw [hroot], by rw [hstem], by rw [hstem],
    by rw [hstem]⟩

theorem sameReads_mapTask (d : Dev) (k pfn : Nat) (out : Bool) (g : TaskSt → TaskSt) : SameReads d (mapTask d k pfn out g) :=
  ⟨rfl, rfl, rfl, rfl, rfl, rfl, rfl, rfl⟩

section
variable {d e : Dev} (h : SameReads d e)
include h

theorem SameReads.img (out : Bool) : imgOf e out = imgOf d out := imgOf_of_spaces h.space0 h.space1 out

theorem SameReads.ringVal (r : Nat) : ringVal e r = Sys2Proof.Machine.ringVal d r := ringVal_of_ring h.ring r

theorem SameReads.cadMap (n : Nat) : cadMap e n = Sys2Proof.Machine.cadMap d n := by
  have hstep (o : Nat) : cadStep e o = cadStep d o := by
    unfold cadStep kOfGraft img0
    rw [h.space0]
  unfold Sys2Proof.Machine.cadMap
  rw [h.cad]
  simp only [hstep]

theorem SameReads.keyFrame (b : Bytes) (tk rk : Nat × Nat) (fn : Nat) : keyFrame e b tk rk fn = Sys2Proof.Machine.keyFrame d b tk rk fn := by
  unfold Sys2Proof.Machine.keyFrame
  rw [h.cad]
  simp only [h.cadMap]

theorem SameReads.writerFrame (b : Bytes) (k fn w : Nat) : writerFrame e b k fn w = Sys2Proof.Machine.writerFrame d b k fn w := by
  unfold Sys2Proof.Machine.writerFrame
  rw [h.keyFrame, h.recs]

theorem SameReads.dataFrame (b : Bytes) (k fn t foff : Nat) : dataFrame e b k fn t foff = Sys2Proof.Machine.dataFrame d b k fn t foff := by
  unfold Sys2Proof.Machine.dataFrame
  simp only [h.keyFrame, h.ring, h.writerFrame]

theorem SameReads.inputFrame (p fn : Nat) : inputFrame e p fn = Sys2Proof.Machine.inputFrame d p fn := by
  unfold Sys2Proof.Machine.inputFrame
  rw [h.inp]

theorem SameReads.tensorShape (b : Bytes) (fuel t fn : Nat) : tensorShape e b fuel t fn = Sys2Proof.Machine.tensorShape d b fuel t fn := by
  induction fuel generalizing t fn with
  | zero => rfl
  | succ fuel ih =>
    unfold Sys2Proof.Machine.tensorShape
    simp only [h.inputFrame, h.shp, h.dataFrame, ih]

theorem SameReads.loopShape (b : Bytes) (k fn : Nat) : loopShape e b k fn = Sys2Proof.Machine.loopShape d b k fn := by
  unfold Sys2Proof.Machine.loopShape
  simp only [h.tensorShape, h.dataFrame]

theorem SameReads.hwBase (r fn : Nat) : hwBase e r fn = Sys2Proof.Machine.hwBase d r fn := by
  unfold Sys2Proof.Machine.hwBase
  rw [h.ring]

theorem SameReads.hwKey (r : Nat) : hwKey e r = Sys2Proof.Machine.hwKey d r := by
  unfold Sys2Proof.Machine.hwKey inForce hasGraft img0
  rw [h.live, h.space0]

theorem SameReads.frameBase (r fn : Nat) : frameBase e r fn = Sys2Proof.Machine.frameBase d r fn := by
  unfold Sys2Proof.Machine.frameBase
  rw [h.ring]

theorem SameReads.waitBase (b : Bytes) (k fn : Nat) (t : TaskSt) (r : Nat) : waitBase e b k fn t r = Sys2Proof.Machine.waitBase d b k fn t r := by
  unfold Sys2Proof.Machine.waitBase
  simp only [h.keyFrame, h.hwBase, h.hwKey, h.frameBase, h.ring]

theorem SameReads.unmetWaits (b : Bytes) (k fn : Nat) (t : TaskSt) : unmetWaits e b k fn t = Sys2Proof.Machine.unmetWaits d b k fn t := by
  unfold Sys2Proof.Machine.unmetWaits waitMet
  simp only [h.waitBase, h.ringVal]

end

/-! ## Staging (R79) -/

theorem stallEnd_tame (d : Dev) (w : Who) (v : Nat) : Tame [.regs, .trk] demandRegs d (stallEnd d w v) := (stallEnd_within ..).trunk

theorem Tame.foldl_fst {α β : Type} {l : List Part} {r : List Nat} {f : Dev × β → α → Dev × β} (h : ∀ acc x, Tame l r acc.1 (f acc x).1)
    (xs : List α) (acc : Dev × β) : Tame l r acc.1 (xs.foldl f acc).1 := by
  induction xs generalizing acc with
  | nil => exact .refl _ _ _
  | cons x xs ih => exact (h acc x).trans (ih _)

/-- What changes the Trunk but for its books. -/
theorem demand_trk {d : Dev} {t : Trunk} (h : t.books = d.trk.books) : Tame [.regs, .trk] demandRegs d { d with trk := t } := (within_trk t h).trunk

theorem serveStaging_tame (d : Dev) : Tame [.regs, .trk] demandRegs d (serveStaging d) := by
  unfold serveStaging
  refine Tame.foldl_fst (fun acc x => ?_) _ (d, [])
  obtain ⟨e, held⟩ := acc
  dsimp only
  split
  · exact .refl _ _ _
  · split
    · exact (stallEnd_tame ..).trans (demand_trk rfl)
    · split
      · exact .refl _ _ _
      · have hfetch := startFetch_tame e (Who.staging e x.1 x.2.1) x.2.2
        split
        · next f heq =>
          rw [heq] at hfetch
          refine Tame.trans ?_ (demand_trk rfl)
          refine Tame.trans ?_ (setPage_within ..).trunk
          refine Tame.trans ?_ (demand_trk rfl)
          exact hfetch.trans (stallEnd_tame ..)
        · next f heq =>
          rw [heq] at hfetch
          exact hfetch.trans (stallOn_tame ..)

theorem stageTask_tame (d : Dev) (stem task : Nat) : Tame [.regs, .trk] demandRegs d (stageTask d stem task) := by
  unfold stageTask
  refine Tame.trans ?_ (serveStaging_tame _)
  exact demand_trk rfl

/-- The staging request of a task has been issued. -/
def askedTask (t : TaskSt) : TaskSt := { t with asked := true }

/-- What the request for staging leaves to be read, of the registers and of the Graft's tasks. -/
structure StagingAsked (d e : Dev) : Prop where
  only : Only [.regs, .stem, .trk] d e
  regs : RegsBut demandRegs d e
  reads : SameReads d e

theorem stagingAsked_refl (d : Dev) : StagingAsked d d := ⟨.refl _ _, .refl _ _, .refl _⟩

theorem stagingAsked_task (d : Dev) (k pfn : Nat) :
    StagingAsked d (stageTask (mapTask d k pfn false askedTask) (pStem (img0 d) (kPipe (img0 d) k)) k) := by
  have hmap := (mapTask_within d k pfn false askedTask).only
  have hreads := sameReads_mapTask d k pfn false askedTask
  have hregs : RegsBut demandRegs d (mapTask d k pfn false askedTask) := .of_only hmap (by decide) _
  have hstage := stageTask_tame (mapTask d k pfn false askedTask) (pStem (img0 d) (kPipe (img0 d) k)) k
  exact ⟨(hmap.mono (by decide)).via hstage.only (by decide), hregs.trans hstage.regs, hreads.trans (.of_only hstage.only (by decide))⟩

/-- A task of the Graft in force that may ask for its staging does so; any other stands. -/
theorem askStaging_shows {d : Dev} {k pfn : Nat} {out : Bool} {t : TaskSt} (hout : out = outFlag d k pfn) (ht : taskSt d k pfn out = some t) :
    StagingAsked d (askStaging k pfn d) ∧ taskSt (askStaging k pfn d) k pfn out =
      some (if t.state = 0 && decide (unmetWaits d (imgOf d out) k pfn t ≤ 1) then { t with asked := t.asked || !out } else t) ∧
    (t.state ≠ 0 ∨ 2 ≤ unmetWaits d (imgOf d out) k pfn t → askStaging k pfn d = d) := by
  cases out with
  | true =>
    have hnone : taskSt d k pfn false = none := by
      have hboth : (taskSt d k pfn false).isNone = true ∧ (taskSt d k pfn true).isSome = true := Bool.and_eq_true_iff.mp hout.symm
      exact Option.isNone_iff_eq_none.mp hboth.1
    have hop : askStaging k pfn d = d := by unfold askStaging; rw [hnone]
    rw [hop, ht]
    exact ⟨stagingAsked_refl d, by simp, fun _ => rfl⟩
  | false =>
    have hop : askStaging k pfn d = if t.state = 0 && !t.asked && decide (unmetWaits d (img0 d) k pfn t ≤ 1) then
        stageTask (mapTask d k pfn false askedTask) (pStem (img0 d) (kPipe (img0 d) k)) k else d := by
      unfold askStaging
      rw [ht]
      rfl
    have himg : imgOf d false = img0 d := rfl
    rw [hop, himg]
    split
    · next hask =>
      simp only [Bool.and_eq_true, decide_eq_true_eq, Bool.not_eq_true'] at hask
      obtain ⟨⟨h0, hasked⟩, hw⟩ := hask
      have htask := taskSt_of_only (stageTask_tame (mapTask d k pfn false askedTask) (pStem (img0 d) (kPipe (img0 d) k)) k).only
        (by decide) (by decide) k pfn false
      refine ⟨stagingAsked_task d k pfn, ?_, fun h => by omega⟩
      rw [htask, taskSt_mapTask_same (g := askedTask) (fun _ => rfl), ht, if_pos (by simp [h0, hw])]
      simp [askedTask]
    · next hask =>
      refine ⟨stagingAsked_refl d, ?_, fun _ => rfl⟩
      rw [ht]
      by_cases h : t.state = 0 ∧ unmetWaits d (img0 d) k pfn t ≤ 1
      · have hasked : t.asked = true := by by_contra hn; exact hask (by simp [h.1, h.2, hn])
        rw [if_pos (by simp [h.1, h.2])]
        cases t; simp_all
      · rw [if_neg (by simpa using h)]

/-! ## A task becomes ready (R250) -/

/-- The history that task `k` reads ahead is too short. -/
def coldStart (b : Bytes) (k : Nat) (d : Dev) : Bool := kHvring b k != 0 && decide (ringVal d (kHvring b k) < kHdepth b k)

/-- A task that is ready. -/
def readyTask (cold : Bool) (t : TaskSt) : TaskSt := { t with state := 1, flags := if cold then setBit t.flags fCold true else t.flags }

/-- A Branch of the task's set is given a program context. -/
def ctxGiven (nv : NonVol) (c : Nat → Ctx) (d : Dev) (n : Nat) : Dev :=
  match brHost nv d n with
  | none => d
  | some h => setBranch d h { branch d h with ctxs := (branch d h).ctxs ++ [c n] }

/-- The task is ready, its outputs are as planned and its Branches have their contexts. -/
def taskStarted (nv : NonVol) (b : Bytes) (k pfn : Nat) (out : Bool) (wo ho : Nat) (d : Dev) : Dev :=
  (kBranches b k).foldl (ctxGiven nv (fun n => Ctx.start b k pfn out n wo ho))
    (plannedOutputs (mapTask d k pfn out (readyTask (coldStart b k d))) b k pfn)

theorem plannedOutputs_shows (d : Dev) (b : Bytes) (k pfn : Nat) : Only [.stem] d (plannedOutputs d b k pfn) ∧
    (plannedOutputs d b k pfn).stem.frames = d.stem.frames := by
  refine ⟨(plannedOutputs_within ..).only, ?_⟩
  unfold plannedOutputs
  generalize kOuts b k = l
  induction l generalizing d with
  | nil => rfl
  | cons t l ih => exact ih _

theorem brHost_of_regs {l : List Nat} {d e : Dev} (h : RegsBut l d e) (hl : ∀ n, hostReg n ∉ l ∧ (fencedReg (0x10 + n)).addr ∉ l) (nv : NonVol)
    (n : Nat) : brHost nv e n = brHost nv d n := by
  unfold brHost
  have hf (m : Nat) : fenced e (0x10 + m) = fenced d (0x10 + m) := h.fenced (hl m).2
  simp only [h _ (hl n).1, hf]

theorem brHost_of_only {l : List Part} {d e : Dev} (h : Only l d e) (hl : Part.regs ∉ l) (nv : NonVol) (n : Nat) : brHost nv e n = brHost nv d n :=
  brHost_of_regs (l := []) (.of_only h hl _) (fun _ => ⟨by simp, by simp⟩) nv n

theorem ctxGiven_only (nv : NonVol) (c : Nat → Ctx) (d : Dev) (n : Nat) : Only [.br] d (ctxGiven nv c d n) := by
  unfold ctxGiven
  split
  · exact .refl _ _
  · exact (setBranch_within ..).only

/-- The contexts that a Branch has it keeps, and a Branch that is given one has it. -/
theorem ctxGiven_keeps (nv : NonVol) (c : Nat → Ctx) (d : Dev) (n m : Nat) {x : Ctx} (h : x ∈ (branch d m).ctxs) :
    x ∈ (branch (ctxGiven nv c d n) m).ctxs := by
  unfold ctxGiven
  split
  · exact h
  · next g _ =>
    by_cases hm : m = g
    · rw [hm, branch_setBranch_same]
      exact List.mem_append_left _ (hm ▸ h)
    · rwa [branch_setBranch_other _ _ hm]

theorem ctxGiven_has {nv : NonVol} (c : Nat → Ctx) {d : Dev} {n h : Nat} (hh : brHost nv d n = some h) : c n ∈ (branch (ctxGiven nv c d n) h).ctxs := by
  unfold ctxGiven
  rw [hh]
  dsimp only
  rw [branch_setBranch_same]
  simp

theorem ctxsGiven_shows (nv : NonVol) (c : Nat → Ctx) (l : List Nat) (d : Dev) : Only [.br] d (l.foldl (ctxGiven nv c) d) ∧
    (∀ m x, x ∈ (branch d m).ctxs → x ∈ (branch (l.foldl (ctxGiven nv c) d) m).ctxs) ∧
    ∀ n h, n ∈ l → brHost nv d n = some h → c n ∈ (branch (l.foldl (ctxGiven nv c) d) h).ctxs := by
  induction l generalizing d with
  | nil => exact ⟨.refl _ _, fun _ _ h => h, fun n h hn => absurd hn (by simp)⟩
  | cons a l ih =>
    have hfirst := ctxGiven_only nv c d a
    obtain ⟨honly, hkeep, hhas⟩ := ih (ctxGiven nv c d a)
    rw [List.foldl_cons]
    refine ⟨hfirst.trans honly, fun m x hx => hkeep m x (ctxGiven_keeps nv c d a m hx), fun n h hn hh => ?_⟩
    rcases List.mem_cons.mp hn with rfl | hn
    · exact hkeep h _ (ctxGiven_has c hh)
    · exact hhas n h hn (by rw [brHost_of_only hfirst (by decide), hh])

theorem taskStarted_shows (nv : NonVol) (b : Bytes) (k pfn : Nat) (out : Bool) (wo ho : Nat) (d : Dev) :
    Only [.stem, .br] d (taskStarted nv b k pfn out wo ho d) ∧
    taskSt (taskStarted nv b k pfn out wo ho d) k pfn out = (taskSt d k pfn out).map (readyTask (coldStart b k d)) ∧
    ∀ n h, n ∈ kBranches b k → brHost nv d n = some h → Ctx.start b k pfn out n wo ho ∈ (branch (taskStarted nv b k pfn out wo ho d) h).ctxs := by
  unfold taskStarted
  have hmap := (mapTask_within d k pfn out (readyTask (coldStart b k d))).only
  have htask := taskSt_mapTask_same (d := d) (k := k) (n := pfn) (o := out) (g := readyTask (coldStart b k d)) (fun _ => rfl)
  generalize mapTask d k pfn out (readyTask (coldStart b k d)) = x at hmap htask ⊢
  obtain ⟨hplan, hframes⟩ := plannedOutputs_shows x b k pfn
  generalize plannedOutputs x b k pfn = y at hplan hframes ⊢
  obtain ⟨hgive, -, hhas⟩ := ctxsGiven_shows nv (fun n => Ctx.start b k pfn out n wo ho) (kBranches b k) y
  have hy : Only [.stem] d y := hmap.trans hplan
  refine ⟨(hy.mono (by decide)).via hgive (by decide), ?_, fun n h hn hh => hhas n h hn (by rw [brHost_of_only hy (by decide), hh])⟩
  rw [taskSt_of_only hgive (by decide) (by decide), ← htask]
  have himg : imgOf y out = imgOf x out := by unfold imgOf img0 img1; rw [hplan .root (by decide)]
  unfold taskSt frameOf
  rw [himg, hframes]

theorem taskReady_waits {nv : NonVol} {k pfn : Nat} {out : Bool} {d : Dev} {t : TaskSt} (hout : out = outFlag d k pfn)
    (ht : taskSt d k pfn out = some t) (h : t.state ≠ 0 ∨ unmetWaits d (imgOf d out) k pfn t ≠ 0) :
    taskReadyOp nv k pfn d = askStaging k pfn d := by
  obtain ⟨hask, -, -⟩ := askStaging_shows hout ht
  have hw := hask.reads.unmetWaits (imgOf d out) k pfn t
  unfold taskReadyOp
  rw [← hout]
  dsimp only
  rw [ht]
  dsimp only
  rw [hw, if_neg]
  rcases h with h | h <;> simp [h]

/-- A task whose waits are met and whose shape is the planned one is ready. -/
theorem taskReady_starts {nv : NonVol} {k pfn : Nat} {out : Bool} {d : Dev} {t : TaskSt} {b : Bytes} (hout : out = outFlag d k pfn)
    (hb : b = imgOf d out) (ht : taskSt d k pfn out = some t) (h0 : t.state = 0) (hw : unmetWaits d b k pfn t = 0)
    (hprev : kBranches b k = [] ∨ ∃ n, n ∈ kBranches b k ∧ doneOn d k (sub32 pfn 1) out n = true)
    (hshape : (loopShape d b k pfn).1 = (tW b (hIn b (progOff b (kProg b k))), tH b (hIn b (progOff b (kProg b k)))))
    (hwo : (loopShape d b k pfn).2.1 ≠ 0) (hho : (loopShape d b k pfn).2.2 ≠ 0) :
    taskReadyOp nv k pfn d = taskStarted nv b k pfn out (loopShape d b k pfn).2.1 (loopShape d b k pfn).2.2 (askStaging k pfn d) := by
  subst hb
  obtain ⟨hask, -, -⟩ := askStaging_shows hout ht
  have hwaits := hask.reads.unmetWaits (imgOf d out) k pfn t
  have hloop := (hask.reads.trans (sameReads_mapTask (askStaging k pfn d) k pfn out
    (readyTask (coldStart (imgOf d out) k (askStaging k pfn d))))).loopShape (imgOf d out) k pfn
  have hp : ((kBranches (imgOf d out) k).isEmpty || (kBranches (imgOf d out) k).any (doneOn d k (sub32 pfn 1) out)) = true := by
    rcases hprev with h | ⟨n, hn, hd⟩
    · simp [h]
    · simp only [Bool.or_eq_true, List.any_eq_true]
      exact .inr ⟨n, hn, hd⟩
  have hno : ((loopShape d (imgOf d out) k pfn).2.1 = 0 || (loopShape d (imgOf d out) k pfn).2.2 = 0) = false := by simp [hwo, hho]
  unfold taskReadyOp
  rw [← hout]
  extract_lets out' b' prev d₁ cold d₂ ti
  rw [ht]
  dsimp only
  rw [if_pos (by simpa [h0] using ⟨hwaits.trans hw, hp⟩)]
  rw [show loopShape d₂ b' k pfn = loopShape d (imgOf d out) k pfn from hloop]
  generalize loopShape d (imgOf d out) k pfn = ls at hshape hwo hho ⊢
  obtain ⟨sh, wo, ho⟩ := ls
  dsimp only at hshape hwo hho ⊢
  subst hshape
  simp only [ti, b', out', lt_irrefl, hwo, hho]
  rfl

end Sys2Proof.Machine
end

section
/-! PROOF. Tasks end: their contexts go, their record is written, their Ring is added to, and frames with nothing left close (R72, R78, R225,
R254, R256). -/

namespace Sys2Proof.Machine

/-! ## Pages that are released (R72) -/

theorem freeLpn_pages (d : Dev) (src : Book) (lpn q w : Nat) : pageAt (freeLpn d src lpn) q w = pageAt d q w ∧ carried (freeLpn d src lpn) q w = carried d q w := by
  have hparts : (freeLpn d src lpn).trk.carry = d.trk.carry ∧ (freeLpn d src lpn).trk.map0 = d.trk.map0 ∧ (freeLpn d src lpn).trk.map1 = d.trk.map1 := by
    unfold freeLpn
    dsimp only
    split <;> exact ⟨rfl, rfl, rfl⟩
  exact pageAt_of_trk hparts.1 hparts.2.1 hparts.2.2 q w

/-- The place of a page is given back. -/
def pageFreed (p : Page) (d : Dev) : Dev :=
  if p.loc = 1 then freeLpn (if p.unread then bump d aStageWaste 1 else d) .alloc p.lpn
  else if p.loc = 3 then freeLpn (if p.unread then bump d aStageWaste 1 else d) .transit p.lpn
  else if p.unread then bump d aStageWaste 1 else d

theorem freePage_eq (d : Dev) (sp v : Nat) : freePage d sp v = setPage (pageFreed (pageAt d sp v) d) sp v Page.none := rfl

theorem pageFreed_shows (p : Page) (d : Dev) : Tame [.regs, .trk] demandRegs d (pageFreed p d) ∧
    ∀ q w, pageAt (pageFreed p d) q w = pageAt d q w ∧ carried (pageFreed p d) q w = carried d q w := by
  have hbump : Tame [.regs, .trk] demandRegs d (if p.unread then bump d aStageWaste 1 else d) :=
    .ite ((bump_tame ..).mono (by decide) (by decide)) (.refl _ _ _)
  have hpage (q w : Nat) : pageAt (if p.unread then bump d aStageWaste 1 else d) q w = pageAt d q w ∧
      carried (if p.unread then bump d aStageWaste 1 else d) q w = carried d q w := by
    split <;> exact pageAt_of_trk rfl rfl rfl q w
  unfold pageFreed
  generalize (if p.unread then bump d aStageWaste 1 else d) = x at hbump hpage ⊢
  split
  · exact ⟨hbump.trans (freeLpn_within ..).trunk, fun q w => ⟨(freeLpn_pages ..).1.trans (hpage q w).1, (freeLpn_pages ..).2.trans (hpage q w).2⟩⟩
  · split
    · exact ⟨hbump.trans (freeLpn_within ..).trunk, fun q w => ⟨(freeLpn_pages ..).1.trans (hpage q w).1, (freeLpn_pages ..).2.trans (hpage q w).2⟩⟩
    · exact ⟨hbump, hpage⟩

/-- The Ring that the pages of a tensor are released by is added to. -/
def releaseTold (d : Dev) (sp v : Nat) : Dev :=
  match tensorOf (imgSp d sp) v with
  | some t => if tRel (imgSp d sp) t != 0 then ringInc d (tRel (imgSp d sp) t) 1 else d
  | none => d

theorem releasePage_eq (d : Dev) (sp v : Nat) : releasePage d sp v =
    if (pageAt d sp v).loc = 0 || (pageAt d sp v).readers = 0 then releaseTold d sp v
    else if (pageAt d sp v).readers = 1 then freePage (releaseTold d sp v) sp v
    else setPage (releaseTold d sp v) sp v { pageAt d sp v with readers := (pageAt d sp v).readers - 1 } := rfl

/-- The Ring `r` is the one that page `v` is released by. -/
def ReleasedBy (b : Bytes) (v r : Nat) : Prop := ∃ x, tensorOf b v = some x ∧ tRel b x = r ∧ r ≠ 0

theorem releaseTold_shows (d : Dev) (sp v : Nat) : Only [.ring] d (releaseTold d sp v) ∧
    ∀ r, (ReleasedBy (imgSp d sp) v r → ringVal (releaseTold d sp v) r = (ringVal d r + 1) % 2 ^ 32) ∧
      (¬ ReleasedBy (imgSp d sp) v r → ringVal (releaseTold d sp v) r = ringVal d r) := by
  unfold releaseTold ReleasedBy
  cases ht : tensorOf (imgSp d sp) v with
  | none => exact ⟨.refl _ _, fun r => ⟨fun ⟨x, hx, _⟩ => by simp at hx, fun _ => rfl⟩⟩
  | some t =>
    dsimp only
    split
    · next hrel =>
      have hrel : tRel (imgSp d sp) t ≠ 0 := by simpa using hrel
      refine ⟨(ringInc_within ..).only, fun r => ⟨?_, fun hno => ?_⟩⟩
      · rintro ⟨x, hx, rfl, -⟩
        obtain rfl := Option.some.inj hx
        rw [ringVal_ringInc, if_pos rfl]
      · rw [ringVal_ringInc, if_neg]
        rintro rfl
        exact hno ⟨t, rfl, rfl, hrel⟩
    · next hrel =>
      have hrel : tRel (imgSp d sp) t = 0 := by simpa using hrel
      refine ⟨.refl _ _, fun r => ⟨?_, fun _ => rfl⟩⟩
      rintro ⟨x, hx, rfl, hne⟩
      obtain rfl := Option.some.inj hx
      exact absurd hrel hne

/-- What a page released shows. -/
theorem releasePage_shows (d : Dev) (sp v : Nat) : Only [.regs, .ring, .trk] d (releasePage d sp v) ∧ RegsBut demandRegs d (releasePage d sp v) ∧
    (∀ r, ringVal (releasePage d sp v) r = ringVal (releaseTold d sp v) r) ∧
    pageAt (releasePage d sp v) sp v = if (pageAt d sp v).loc = 0 ∨ (pageAt d sp v).readers = 0 then pageAt d sp v
      else if (pageAt d sp v).readers = 1 then Page.none else { pageAt d sp v with readers := (pageAt d sp v).readers - 1 } := by
  have htold := (releaseTold_shows d sp v).1
  have hpages : pageAt (releaseTold d sp v) sp v = pageAt d sp v := by unfold pageAt carried; rw [htold .trk (by decide)]
  rw [releasePage_eq]
  generalize releaseTold d sp v = x at htold hpages ⊢
  have hregs : RegsBut demandRegs d x := .of_only htold (by decide) _
  by_cases h0 : (pageAt d sp v).loc = 0 ∨ (pageAt d sp v).readers = 0
  · rw [if_pos (by simpa using h0), if_pos h0]
    exact ⟨htold.mono (by decide), hregs, fun _ => rfl, hpages⟩
  · rw [if_neg (by simpa using h0), if_neg h0]
    split
    · obtain ⟨hfree, -⟩ := pageFreed_shows (pageAt x sp v) x
      rw [freePage_eq]
      generalize pageFreed (pageAt x sp v) x = y at hfree ⊢
      have hset := (setPage_within y sp v Page.none).trunk
      refine ⟨(htold.mono (by decide)).via (hfree.only.trans hset.only) (by decide), hregs.trans (hfree.regs.trans hset.regs), fun r => ?_, ?_⟩
      · exact (ringVal_of_ring (hset.only .ring (by decide)) r).trans (ringVal_of_ring (hfree.only .ring (by decide)) r)
      · rw [pageAt_setPage_eq, if_pos rfl]
    · have hset := (setPage_within x sp v { pageAt d sp v with readers := (pageAt d sp v).readers - 1 }).trunk
      refine ⟨(htold.mono (by decide)).via hset.only (by decide), hregs.trans hset.regs, fun r => ringVal_of_ring (hset.only .ring (by decide)) r, ?_⟩
      rw [pageAt_setPage_eq, if_pos rfl]

/-! ## Contexts that are dropped -/

/-- A Branch without the contexts of a task, and without what moves for it. -/
def branchFreed (k pfn : Nat) (out : Bool) (b : Branch) : Branch :=
  { b with
    ctxs := b.ctxs.filter (fun c => !(c.task == k && c.pfn == pfn && c.out == out))
    cur := if b.cur.isSome && (match b.ctxs.head? with | some c => c.task == k && c.pfn == pfn && c.out == out | none => false) then none else b.cur
    twig := if b.cur.isSome && (match b.ctxs.head? with | some c => c.task == k && c.pfn == pfn && c.out == out | none => false)
      then b.twig.map (fun w => (w.1, w.2.empty)) else b.twig
    aud := if b.cur.isSome && (match b.ctxs.head? with | some c => c.task == k && c.pfn == pfn && c.out == out | none => false) then [] else b.aud
    haloIn := b.haloIn.filter (fun x => !(x.task == k && x.pfn == pfn && x.out == out))
    haloRx := b.haloRx.filter (fun x => !(x.task == k && x.pfn == pfn && x.out == out))
    haloLog := b.haloLog.filter (fun x => !(x.task == k && x.pfn == pfn && x.out == out))
    mcast := b.mcast.filter (fun x => !(x.task == k && x.pfn == pfn && x.out == out)) }

/-- The context is not the task's. -/
def NotOf (k pfn : Nat) (out : Bool) (c : Ctx) : Prop := ¬ (c.task = k ∧ c.pfn = pfn ∧ c.out = out)

theorem branchFreed_ctxs (k pfn : Nat) (out : Bool) (b : Branch) : ∀ c ∈ (branchFreed k pfn out b).ctxs, NotOf k pfn out c := by
  intro c hc
  have hkeep := (List.mem_filter.mp hc).2
  rintro ⟨h1, h2, h3⟩
  simp [h1, h2, h3] at hkeep

/-- Every entry of a map rewritten: each value is a rewritten one, or absent. -/
theorem rewritten_get {α : Type} [DecidableEq α] {r : α} {φ : α → α} {P : α → Prop} (hφ : ∀ x, P (φ x)) (l m : Map α) (n : Nat)
    (h : P (m.get r n) ∨ ∃ e ∈ l, e.1 = n) : P ((l.foldl (fun m e => m.put r e.1 (φ e.2)) m).get r n) := by
  induction l generalizing m with
  | nil => exact h.resolve_right (by simp)
  | cons e l ih =>
    refine ih _ ?_
    by_cases hn : n = e.1
    · left
      rw [hn, Map.get_put_same]
      exact hφ _
    · rw [Map.get_put_other _ _ _ hn]
      refine h.imp_right fun ⟨x, hx, hxn⟩ => ?_
      rcases List.mem_cons.mp hx with rfl | hx
      · exact absurd hxn.symm hn
      · exact ⟨x, hx, hxn⟩

theorem dropTask_free (d : Dev) (k pfn : Nat) (out : Bool) (n : Nat) : ∀ c ∈ (branch (dropTask d k pfn out) n).ctxs, NotOf k pfn out c := by
  unfold dropTask
  extract_lets heads at_ d₁
  clear_value d₁
  refine rewritten_get (φ := branchFreed k pfn out) (P := fun b => ∀ c ∈ b.ctxs, NotOf k pfn out c) (branchFreed_ctxs k pfn out) d₁.br d₁.br n ?_
  by_cases h : ∃ e ∈ d₁.br, e.1 = n
  · exact .inr h
  · left
    rw [Map.get_of_absent _ fun e he hn => h ⟨e, he, hn⟩]
    intro c hc
    exact absurd hc (by simp [Branch.reset])

/-! ## The end of a task (R225, R254, R256) -/

/-- What every step of a task's end leaves: the Graft, the state of space 1, the frames, the requests that wait and the time. -/
structure Winding (d e : Dev) : Prop where
  told : Told d e
  time : e.devTime = d.devTime
  space : fld e graftSpace1 = fld d graftSpace1
  frames : e.stem.frames = d.stem.frames
  hist : e.stem.histReq = d.stem.histReq

theorem Winding.refl (d : Dev) : Winding d d := ⟨.refl d, rfl, rfl, rfl, rfl⟩

theorem Winding.trans {d e f : Dev} (h : Winding d e) (g : Winding e f) : Winding d f :=
  ⟨h.told.trans g.told, g.time.trans h.time, g.space.trans h.space, g.frames.trans h.frames, g.hist.trans h.hist⟩

theorem Winding.ite {d e f : Dev} {c : Prop} [Decidable c] (h : Winding d e) (g : Winding d f) : Winding d (if c then e else f) := by
  split
  · exact h
  · exact g

theorem Winding.foldl {α : Type} {f : Dev → α → Dev} (h : ∀ d x, Winding d (f d x)) (l : List α) (d : Dev) : Winding d (l.foldl f d) := by
  induction l generalizing d with
  | nil => exact .refl d
  | cons x l ih => exact (h d x).trans (ih _)

/-- A step that changes none of it. -/
theorem winding_of {l : List Part} {r : List Nat} {d e : Dev} (h : Only l d e) (hr : RegsBut r d e) (hl : partsIn l [.regs, .ring, .trk, .mem, .br] = true)
    (hg : graftSpace1.addr ∉ r) : Winding d e := by
  have honly := h.mono hl
  have hstem : e.stem = d.stem := honly .stem (by decide)
  exact ⟨.of_eq (honly .root (by decide)) (honly .usb (by decide)), honly .devTime (by decide), hr.fld hg, by rw [hstem], by rw [hstem]⟩

theorem winding_quiet {l : List Part} {d e : Dev} (h : Only l d e) (hl : partsIn l [.ring, .trk, .mem, .br] = true) : Winding d e :=
  winding_of (l := [.ring, .trk, .mem, .br]) (r := []) (h.mono hl) (.of_only (h.mono hl) (by decide) _) (by decide) (by simp)

theorem winding_raise (d : Dev) (code : Nat) {unit : Nat} (hu : unit < 0x10 ∨ 0x20 ≤ unit) (sev arg : Nat) : Winding d (raise d code unit sev arg) := by
  have hraise := raise_tame (d := d) hu code sev arg
  have hstem : (raise d code unit sev arg).stem = d.stem := hraise.only .stem (by decide)
  exact ⟨(Told.refl d).raise .., hraise.only .devTime (by decide), hraise.regs.fld (by decide), by rw [hstem], by rw [hstem]⟩

theorem stemUnit (b : Bytes) (p : Nat) : 4 + pStem b p < 0x10 ∨ 0x20 ≤ 4 + pStem b p := by
  have := pStem_lt b p
  omega

theorem scaleEvents_winding (d : Dev) (b : Bytes) (k : Nat) (t : TaskSt) : Winding d (scaleEvents d b k t) :=
  .foldl (fun _ _ => .ite (.refl _) (winding_raise _ _ (stemUnit ..) _ _)) _ d

theorem writeEntry_tame (d : Dev) (out : Bool) (n i fn : Nat) (bs : Bytes) : Tame [.regs, .trk, .mem] demandRegs d (writeEntry d out n i fn bs) :=
  vwrite_tame ..

theorem voidEntries_winding (d : Dev) (b : Bytes) (k fn : Nat) (out : Bool) : Winding d (voidEntries d b k fn out) := by
  refine .foldl (fun e n => .foldl (fun x i => .ite (.refl _) ?_) _ e) _ d
  have h := writeEntry_tame x out n i fn (List.replicate 16 0)
  exact winding_of h.only h.regs (by decide) (by decide)

theorem releasePage_winding (d : Dev) (sp v : Nat) : Winding d (releasePage d sp v) :=
  winding_of (releasePage_shows d sp v).1 (releasePage_shows d sp v).2.1 (by decide) (by decide)

theorem releaseRest_winding (d : Dev) (b : Bytes) (k fn : Nat) (out : Bool) : Winding d (releaseRest d b k fn out) :=
  .foldl (fun _ _ => releasePage_winding ..) _ d

theorem atBoundary_winding (n : Nat) (d : Dev) : Winding d (atBoundary n d) := by
  refine winding_of (atBoundary_within n d).only (atBoundary_shows n d).1.regs (by decide) ?_
  unfold boundaryRegs
  simp only [graftSpace1, brBase, twigState, List.mem_cons, List.mem_map, List.mem_range]
  omega

theorem dropTask_winding (d : Dev) (k pfn : Nat) (out : Bool) : Winding d (dropTask d k pfn out) := by
  unfold dropTask
  extract_lets heads at_ d₁
  have h₁ : Winding d d₁ := .foldl (fun x n => atBoundary_winding n x) _ d
  clear_value d₁
  exact h₁.trans (winding_quiet (l := [.br]) (fun p hp => by cases p <;> first | rfl | exact absurd (by simp) hp) (by decide))

/-- A released page leaves the Rings that release no page of the Graft. -/
theorem releaseRest_ring (d : Dev) (b : Bytes) (k fn : Nat) (out : Bool) {r : Nat}
    (h : ∀ x, tRel (imgOf d out) x ≠ 0 → tRel (imgOf d out) x ≠ r) : ringVal (releaseRest d b k fn out) r = ringVal d r := by
  unfold releaseRest
  extract_lets freed p nb vs
  generalize vs.filter (fun v => !freed.contains v) = l
  clear_value vs freed
  have himg (e : Dev) : imgSp e (if out then 1 else 0) = imgOf e out := by cases out <;> rfl
  suffices hl : ∀ (l : List Nat) (e : Dev), imgOf e out = imgOf d out → ringVal e r = ringVal d r →
      ringVal (l.foldl (fun d v => releasePage d (if out then 1 else 0) v) e) r = ringVal d r from hl l d rfl rfl
  intro l
  induction l with
  | nil => exact fun e _ he => he
  | cons v l ih =>
    intro e hi he
    refine ih _ (((releasePage_winding e _ v).told.img out).trans hi) ?_
    rw [(releasePage_shows ..).2.2.1, ((releaseTold_shows ..).2 r).2, he]
    rintro ⟨x, -, hx, hne⟩
    rw [himg, hi] at hx
    exact h x (by rw [hx]; exact hne) hx

/-- A run of the bytes written reads back. -/
theorem readMem_writeMem_part (d : Dev) (a : Nat) (bs : Bytes) {i n : Nat} (h : i + n ≤ bs.length) :
    readMem (writeMem d a bs) (a + i) n = (bs.drop i).take n := by
  have hlen : ((bs.drop i).take n).length = n := by rw [List.length_take, List.length_drop]; omega
  refine List.ext_getElem (by simp [readMem, Map.getN, hlen]) fun j hj hj' => ?_
  have hin : i + j < bs.length := by omega
  simp only [readMem, writeMem, Map.getN, List.getElem_map, List.getElem_range, List.getElem_take, List.getElem_drop]
  rw [show a + i + j = a + (i + j) by omega, Map.get_putN_inside (0 : Byte) d.mem a bs hin]

/-- The status code and the frame stand in a record. -/
theorem recordBytes_head (t : TaskSt) (status flags pfn run time : Nat) : ((recordBytes t status flags pfn run time).drop 0).take 1 = le 1 status ∧
    ((recordBytes t status flags pfn run time).drop 4).take 4 = le 4 pfn ∧ 8 ≤ (recordBytes t status flags pfn run time).length := by
  refine ⟨?_, ?_, ?_⟩
  · simp only [recordBytes, le, List.drop_zero, List.append_assoc, List.cons_append, List.take_succ_cons, List.take_zero, List.cons.injEq, and_true]
    apply BitVec.eq_of_toNat_eq
    simp only [BitVec.toNat_ofNat]
    omega
  · simp [recordBytes, le]
  · simp only [recordBytes, List.length_append, length_le]
    omega

/-- Where the record of a task's frame stands. -/
abbrev recordAt (k pfn : Nat) : Nat := trunkBase + statusBase + 32 * (2 * k + pfn % 2)

/-- A task's record: its status code and its frame. -/
theorem record_read {d e : Dev} {t : TaskSt} {k pfn status fl run time : Nat}
    (h : e.mem = (writeMem d (recordAt k pfn) (recordBytes t status fl pfn run time)).mem) :
    readMem e (recordAt k pfn) 1 = le 1 status ∧ readMem e (recordAt k pfn + 4) 4 = le 4 pfn := by
  obtain ⟨hst, hfn, hlen⟩ := recordBytes_head t status fl pfn run time
  rw [readMem_of_mem h, readMem_of_mem h]
  exact ⟨(readMem_writeMem_part d _ _ (i := 0) (by omega)).trans hst, (readMem_writeMem_part d _ _ (i := 4) (by omega)).trans hfn⟩

/-- A status that tells of a task cut short. -/
abbrev badEnd (status : Nat) : Bool := status == stFenced || status == stTimeout

/-- The Rings, histories and entries that a task cut short leaves are settled, and its events raised. -/
def taskWound (b : Bytes) (k pfn : Nat) (out : Bool) (status flags : Nat) (t : TaskSt) (d : Dev) : Dev :=
  let d₁ := if badEnd status || flags != 0 then raiseSigs d b k pfn else d
  let d₂ := if badEnd status || t.flags.testBit fUncorr then histFail d₁ b k pfn out else d₁
  scaleEvents (if badEnd status then voidEntries d₂ b k pfn out else d₂) b k t

/-- The pages and contexts of a task are given back. -/
def taskFreed (b : Bytes) (k pfn : Nat) (out : Bool) (d : Dev) : Dev :=
  finishRings (unstage (dropTask (releaseRest d b k pfn out) k pfn out) k) b k pfn out

/-- The flags that a task ends with. -/
def endFlags (b : Bytes) (k pfn flags : Nat) (t : TaskSt) (d : Dev) : Nat :=
  if kVaries b k then setBit (t.flags ||| flags ||| inheritedFlags d b k pfn) fVaries true else t.flags ||| flags ||| inheritedFlags d b k pfn

/-- Cycles that a task ran. -/
def endRun (t : TaskSt) (d : Dev) : Nat :=
  if t.start = 0 then 0 else (d.devTime.toNat - t.start) * aclkMhz (fld d clkAclk) / 1000

/-- The record of a task is written. -/
def taskWritten (k pfn : Nat) (out : Bool) (status fl run : Nat) (t : TaskSt) (d : Dev) : Dev :=
  let e := writeMem d (recordAt k pfn)
    (recordBytes { t with stall := (stallTime d k pfn (if out then 1 else 0)).1 } status fl pfn run d.devTime.toNat)
  { e with stem := { e.stem with recs := e.stem.recs.put (0, 0) (2 * k + pfn % 2) (2 * (status + fl / 256 * 256) + 1, pfn) } }

/-- A task that has ended. -/
def endedTask (fl : Nat) (t : TaskSt) : TaskSt := { t with state := 3, flags := fl }

/-- The task has ended, and its Ring says so. -/
def taskClosed (b : Bytes) (k pfn : Nat) (out : Bool) (fl : Nat) (d : Dev) : Dev :=
  let e := mapTask (dropStalls d k pfn (if out then 1 else 0)) k pfn out (endedTask fl)
  if kDone b k != 0 then ringInc e (kDone b k) 1 else e

/-- The failure of a task is reported. -/
def taskFailed (b : Bytes) (k status : Nat) (d : Dev) : Dev :=
  if badEnd status then raise d 0x0201 (4 + pStem b (kPipe b k)) 2 (status + kPipe b k * 256 + k % 65536 * 65536) else d

theorem endTask_eq {d : Dev} {k pfn : Nat} {out : Bool} {t : TaskSt} (ht : taskSt d k pfn out = some t) (h3 : t.state ≠ 3) (status flags : Nat) :
    endTask d k pfn out status flags =
      (fun e => taskFailed (imgOf d out) k status (taskClosed (imgOf d out) k pfn out (endFlags (imgOf d out) k pfn flags t e)
        (taskWritten k pfn out status (endFlags (imgOf d out) k pfn flags t e) (endRun t e) t e)))
      (taskFreed (imgOf d out) k pfn out (taskWound (imgOf d out) k pfn out status flags t d)) := by
  unfold endTask
  rw [ht]
  exact if_neg h3

/-- The steps before the record. -/
theorem taskWound_shows (b : Bytes) (k pfn : Nat) (out : Bool) (status flags : Nat) (t : TaskSt) (d : Dev) :
    Told d (taskWound b k pfn out status flags t d) ∧ (taskWound b k pfn out status flags t d).devTime = d.devTime ∧
    fld (taskWound b k pfn out status flags t d) graftSpace1 = fld d graftSpace1 ∧
    (taskWound b k pfn out status flags t d).stem.frames = d.stem.frames ∧
    ((badEnd status || t.flags.testBit fUncorr) = false ∨ (∀ x, x ∈ kOuts b k → tHist b x = false) →
      (taskWound b k pfn out status flags t d).stem.histReq = d.stem.histReq) ∧
    (badEnd status = false → flags = 0 → (taskWound b k pfn out status flags t d).ring = d.ring) := by
  unfold taskWound
  extract_lets d₁ d₂
  have h₁ : Winding d d₁ := .ite (winding_quiet (raiseSigs_within ..).only (by decide)) (.refl d)
  have hring : badEnd status = false → flags = 0 → d₁.ring = d.ring := fun hb hf => by rw [show d₁ = d from if_neg (by simp [hb, hf])]
  clear_value d₁
  have hhist : Only [.stem] d₁ (histFail d₁ b k pfn out) := (histFail_within ..).only
  have h₂ : Only [.stem] d₁ d₂ := by
    unfold d₂
    split
    · exact hhist
    · exact .refl _ _
  have hframes : d₂.stem.frames = d₁.stem.frames := by
    unfold d₂
    split <;> rfl
  have hreq : (badEnd status || t.flags.testBit fUncorr) = false ∨ (∀ x, x ∈ kOuts b k → tHist b x = false) → d₂.stem.histReq = d₁.stem.histReq := by
    intro h
    unfold d₂
    split
    · next hbad =>
      have hnone : (kOuts b k).filter (fun t => tHist b t) = [] :=
        List.filter_eq_nil_iff.mpr fun x hx => by simp [h.resolve_left (by simp [hbad]) x hx]
      unfold histFail
      rw [hnone]
      exact List.append_nil _
    · rfl
  clear_value d₂
  have h₃ : Winding d₂ (scaleEvents (if badEnd status then voidEntries d₂ b k pfn out else d₂) b k t) :=
    (Winding.ite (voidEntries_winding ..) (.refl _)).trans (scaleEvents_winding ..)
  have hring₃ : (scaleEvents (if badEnd status then voidEntries d₂ b k pfn out else d₂) b k t).ring = d₂.ring := by
    refine ((scaleEvents_within ..).only .ring (by decide)).trans ?_
    split
    · exact (voidEntries_within ..).only .ring (by decide)
    · rfl
  generalize scaleEvents (if badEnd status then voidEntries d₂ b k pfn out else d₂) b k t = e at h₃ hring₃ ⊢
  have hroot : Told d₁ d₂ := .of_eq (h₂ .root (by decide)) (h₂ .usb (by decide))
  refine ⟨(h₁.told.trans hroot).trans h₃.told, ?_, ?_, ?_, fun h => ?_, fun hb hf => ?_⟩
  · rw [h₃.time, h₂ .devTime (by decide), h₁.time]
  · rw [h₃.space, fld_of_regs (h₂ .regs (by decide)), h₁.space]
  · rw [h₃.frames, hframes, h₁.frames]
  · rw [h₃.hist, hreq h, h₁.hist]
  · rw [hring₃, h₂ .ring (by decide), hring hb hf]

theorem taskFreed_shows (b : Bytes) (k pfn : Nat) (out : Bool) (d : Dev) : Winding d (taskFreed b k pfn out d) ∧
    (∀ n c, c ∈ (branch (taskFreed b k pfn out d) n).ctxs → NotOf k pfn out c) ∧
    (∀ r, (∀ x, tRel (imgOf d out) x ≠ 0 → tRel (imgOf d out) x ≠ r) → ringVal (taskFreed b k pfn out d) r = ringVal d r) := by
  unfold taskFreed
  have hrest := releaseRest_winding d b k pfn out
  have hring := fun r => releaseRest_ring d b k pfn out (r := r)
  generalize releaseRest d b k pfn out = x at hrest hring ⊢
  have hdrop := dropTask_winding x k pfn out
  have hfree := dropTask_free x k pfn out
  have hparts := (dropTask_within x k pfn out).only
  generalize dropTask x k pfn out = y at hdrop hfree hparts ⊢
  have hlast : Only [.trk] y (finishRings (unstage y k) b k pfn out) := (unstage_within ..).only.trans (finishRings_within ..).only
  generalize finishRings (unstage y k) b k pfn out = z at hlast ⊢
  refine ⟨(hrest.trans hdrop).trans (winding_quiet hlast (by decide)), fun n c hc => ?_, fun r hr => ?_⟩
  · rw [branch_of_br (hlast .br (by decide))] at hc
    exact hfree n c hc
  · rw [ringVal_of_ring (hlast .ring (by decide)), ringVal_of_ring (hparts .ring (by decide)), hring r hr]

/-- What the record and the Ring of a task's end show. -/
structure TaskClosed (b : Bytes) (k pfn : Nat) (out : Bool) (status fl : Nat) (d e : Dev) : Prop where
  only : Only [.stem, .trk, .mem, .ring] d e
  frames : e.stem.frames = (mapTask d k pfn out (endedTask fl)).stem.frames
  hist : e.stem.histReq = d.stem.histReq
  code : readMem e (recordAt k pfn) 1 = le 1 status
  frame : readMem e (recordAt k pfn + 4) 4 = le 4 pfn
  ring : ringVal e (kDone b k) = if kDone b k = 0 then ringVal d 0 else (ringVal d (kDone b k) + 1) % 2 ^ 32

theorem taskWritten_shows (k pfn : Nat) (out : Bool) (status fl run : Nat) (t : TaskSt) (d : Dev) :
    Only [.stem, .mem] d (taskWritten k pfn out status fl run t d) ∧ (taskWritten k pfn out status fl run t d).stem.frames = d.stem.frames ∧
    (taskWritten k pfn out status fl run t d).stem.histReq = d.stem.histReq ∧
    readMem (taskWritten k pfn out status fl run t d) (recordAt k pfn) 1 = le 1 status ∧
    readMem (taskWritten k pfn out status fl run t d) (recordAt k pfn + 4) 4 = le 4 pfn := by
  have hread := record_read (e := taskWritten k pfn out status fl run t d) (d := d) (k := k) (pfn := pfn) (status := status) (fl := fl) (run := run)
    (t := { t with stall := (stallTime d k pfn (if out then 1 else 0)).1 }) (time := d.devTime.toNat) rfl
  exact ⟨((writeMem_within ..).only.mono (by decide)).via (within_stem _).only (by decide), rfl, rfl, hread.1, hread.2⟩

theorem taskClosed_shows (b : Bytes) (k pfn : Nat) (out : Bool) (status fl run : Nat) (t : TaskSt) (d : Dev) :
    TaskClosed b k pfn out status fl d (taskClosed b k pfn out fl (taskWritten k pfn out status fl run t d)) := by
  obtain ⟨hwrite, hframes, hhist, hst, hfn⟩ := taskWritten_shows k pfn out status fl run t d
  generalize taskWritten k pfn out status fl run t d = x at hwrite hframes hhist hst hfn ⊢
  unfold taskClosed
  extract_lets e
  have hstall : Only [.trk] x (dropStalls x k pfn (if out then 1 else 0)) := (dropStalls_within ..).only
  have hmap : Only [.stem] (dropStalls x k pfn (if out then 1 else 0)) e := (mapTask_within ..).only
  have himg : imgOf x out = imgOf d out := by unfold imgOf img0 img1; rw [hwrite .root (by decide)]
  have heframes : e.stem.frames = (mapTask d k pfn out (endedTask fl)).stem.frames := by
    change x.stem.frames.map (fun f => if f.pipe == kPipe (imgOf x out) k && f.pfn == pfn && f.out == out then withTask k (endedTask fl) f else f) = _
    rw [himg, hframes]
    rfl
  have hereq : e.stem.histReq = x.stem.histReq := rfl
  clear_value e
  have hxe : Only [.stem, .trk] x e := (hstall.mono (by decide)).via hmap (by decide)
  have hring : Only [.ring] e (if kDone b k != 0 then ringInc e (kDone b k) 1 else e) := Within.only (.ite (ringInc_within ..) (.refl _ _))
  have hval : ringVal (if kDone b k != 0 then ringInc e (kDone b k) 1 else e) (kDone b k) =
      if kDone b k = 0 then ringVal d 0 else (ringVal d (kDone b k) + 1) % 2 ^ 32 := by
    have hsame (r : Nat) : ringVal e r = ringVal d r := ringVal_of_ring ((hxe .ring (by decide)).trans (hwrite .ring (by decide))) r
    by_cases h0 : kDone b k = 0
    · simp [h0, hsame]
    · rw [if_pos (by simpa using h0), if_neg h0, ringVal_ringInc, if_pos rfl, hsame]
  generalize (if kDone b k != 0 then ringInc e (kDone b k) 1 else e) = z at hring hval ⊢
  have hmem : z.mem = x.mem := (hring .mem (by decide)).trans (hxe .mem (by decide))
  have hstem : z.stem = e.stem := hring .stem (by decide)
  refine ⟨((hwrite.mono (by decide)).via hxe (by decide)).via hring (by decide), by rw [hstem, heframes], by rw [hstem, hereq, hhist],
    by rw [readMem_of_mem hmem, hst], by rw [readMem_of_mem hmem, hfn], hval⟩

/-- What the end of a task shows, whatever it ends with. -/
structure TaskEnded (b : Bytes) (k pfn : Nat) (out : Bool) (status flags : Nat) (t : TaskSt) (d e : Dev) : Prop where
  told : Told d e
  time : e.devTime = d.devTime
  space : fld e graftSpace1 = fld d graftSpace1
  frames : ∃ fl, e.stem.frames = (mapTask d k pfn out (endedTask fl)).stem.frames
  free : ∀ n c, c ∈ (branch e n).ctxs → NotOf k pfn out c
  code : readMem e (recordAt k pfn) 1 = le 1 status
  frame : readMem e (recordAt k pfn + 4) 4 = le 4 pfn
  hist : (badEnd status || t.flags.testBit fUncorr) = false ∨ (∀ x, x ∈ kOuts b k → tHist b x = false) → e.stem.histReq = d.stem.histReq
  ring : badEnd status = false → flags = 0 → (∀ x, tRel b x ≠ 0 → tRel b x ≠ kDone b k) →
    ringVal e (kDone b k) = if kDone b k = 0 then ringVal d 0 else (ringVal d (kDone b k) + 1) % 2 ^ 32
  event : badEnd status = true → status + kPipe b k * 256 + k % 65536 * 65536 < 2 ^ 32 →
    Raised 0x0201 (4 + pStem b (kPipe b k)) 2 (status + kPipe b k * 256 + k % 65536 * 65536) d e

theorem endTask_shows {d : Dev} {k pfn : Nat} {out : Bool} {t : TaskSt} (ht : taskSt d k pfn out = some t) (h3 : t.state ≠ 3) (status flags : Nat) :
    TaskEnded (imgOf d out) k pfn out status flags t d (endTask d k pfn out status flags) := by
  rw [endTask_eq ht h3]
  obtain ⟨htold, htime, hspace, hframes, hhist, hring⟩ := taskWound_shows (imgOf d out) k pfn out status flags t d
  generalize taskWound (imgOf d out) k pfn out status flags t d = x at htold htime hspace hframes hhist hring ⊢
  obtain ⟨hwind, hfree, hkeep⟩ := taskFreed_shows (imgOf d out) k pfn out x
  rw [htold.img] at hkeep
  generalize taskFreed (imgOf d out) k pfn out x = y at hwind hfree hkeep ⊢
  generalize hb : imgOf d out = b at hhist hkeep ⊢
  dsimp only
  generalize endFlags b k pfn flags t y = fl
  obtain ⟨honly, hzframes, hzhist, hst, hfn, hzring⟩ := taskClosed_shows b k pfn out status fl (endRun t y) t y
  generalize taskClosed b k pfn out fl (taskWritten k pfn out status fl (endRun t y) t y) = z at honly hzframes hzhist hst hfn hzring ⊢
  have hlast : Winding z (taskFailed b k status z) := .ite (winding_raise _ _ (stemUnit ..) _ _) (.refl _)
  have hparts : Only [.regs, .usb, .root] z (taskFailed b k status z) := (Tame.ite (raise_tame (stemUnit ..) _ _ _) (.refl _ _ _)).only
  have hraised : badEnd status = true → status + kPipe b k * 256 + k % 65536 * 65536 < 2 ^ 32 →
      Raised 0x0201 (4 + pStem b (kPipe b k)) 2 (status + kPipe b k * 256 + k % 65536 * 65536) z (taskFailed b k status z) := by
    intro hbad harg
    rw [show taskFailed b k status z = _ from if_pos hbad]
    exact raise_raised _ _ _ _ harg
  generalize taskFailed b k status z = w at hlast hparts hraised ⊢
  have hyz : Told y z := .of_eq (honly .root (by decide)) (honly .usb (by decide))
  have hzt : z.devTime = d.devTime := by rw [honly .devTime (by decide), hwind.time, htime]
  have hmem : w.mem = z.mem := hparts .mem (by decide)
  refine ⟨((htold.trans hwind.told).trans hyz).trans hlast.told, by rw [hlast.time, hzt], ?_, ⟨fl, ?_⟩, fun n c hc => ?_,
    by rw [readMem_of_mem hmem, hst], by rw [readMem_of_mem hmem, hfn], fun h => ?_, fun hbad hf hrel => ?_, fun hbad harg => ?_⟩
  · rw [hlast.space, fld_of_regs (honly .regs (by decide)), hwind.space, hspace]
  · rw [hlast.frames, hzframes]
    have himg : imgOf y out = imgOf d out := (htold.trans hwind.told).img out
    change y.stem.frames.map (fun f => if f.pipe == kPipe (imgOf y out) k && f.pfn == pfn && f.out == out then withTask k (endedTask fl) f else f) = _
    rw [himg, hwind.frames, hframes]
    rfl
  · rw [branch_of_br (hparts .br (by decide)), branch_of_br (honly .br (by decide))] at hc
    exact hfree n c hc
  · rw [hlast.hist, hzhist, hwind.hist, hhist h]
  · rw [ringVal_of_ring (hparts .ring (by decide)), hzring, hkeep _ hrel]
    have h0 : kDone b k = 0 → ringVal y 0 = ringVal x 0 := fun h0 => hkeep 0 fun x hx => by rw [← h0]; exact hrel x hx
    split
    · next h => rw [h0 h, ringVal_of_ring (hring hbad hf)]
    · rw [ringVal_of_ring (hring hbad hf)]
  · exact (hraised hbad harg).of_eq hzt rfl

end Sys2Proof.Machine
end

section
/-! PROOF. The commands by which tasks become ready and end, and pages are released (R72, R78, R225, R249, R250, R254, R256). -/

namespace Sys2Proof.Machine

/-! ## Frames that have something left -/

/-- Every frame has a task other than `k` that has not ended. -/
def OthersOpen (k : Nat) (l : List Frame) : Prop := ∀ f, f ∈ l → ∃ u, u ∈ f.tasks ∧ u.task ≠ k ∧ u.state ≠ 3

theorem othersOpen_mapTask {d : Dev} {k : Nat} (h : OthersOpen k d.stem.frames) (pfn : Nat) (out : Bool) (g : TaskSt → TaskSt) :
    OthersOpen k (mapTask d k pfn out g).stem.frames := by
  intro f hf
  change f ∈ d.stem.frames.map (fun f => if f.pipe == kPipe (imgOf d out) k && f.pfn == pfn && f.out == out then withTask k g f else f) at hf
  obtain ⟨x, hx, rfl⟩ := List.mem_map.mp hf
  obtain ⟨u, hu, huk, hus⟩ := h x hx
  split
  · exact ⟨u, List.mem_map.mpr ⟨u, hu, by simp [huk]⟩, huk, hus⟩
  · exact ⟨u, hu, huk, hus⟩

/-- With something left in every frame, no request that waits and no Graft that is released, nothing closes. -/
theorem closeFrames_idle {nv : NonVol} {k : Nat} {d : Dev} (h : OthersOpen k d.stem.frames) (hq : d.stem.histReq = []) (h5 : fld d graftSpace1 ≠ 5) :
    closeFrames nv d = d := by
  have hdue : d.stem.frames.filter (fun f => f.tasks.all (fun t => t.state == 3)) = [] := by
    refine List.filter_eq_nil_iff.mpr fun f hf hall => ?_
    obtain ⟨u, hu, -, hus⟩ := h f hf
    exact hus (by simpa using List.all_eq_true.mp hall u hu)
  have hall : d.stem.frames.filter (fun f => !([] : List Frame).any (fun g => g.pipe == f.pipe && g.pfn == f.pfn && g.out == f.out)) = d.stem.frames :=
    List.filter_eq_self.mpr fun f _ => rfl
  have hserve : serveHist d = d := by
    have hstem : { d.stem with histReq := [] } = d.stem := by rw [← hq]
    rw [serveHist_eq, histWaits, hq]
    change { d with stem := { d.stem with histReq := [] } } = d
    rw [hstem]
  have hclose : closeThese [] d = d := by
    unfold closeThese
    rw [hall]
    exact hserve
  unfold closeFrames
  rw [hdue]
  dsimp only
  rw [hclose]
  change releaseIfDone d = d
  exact if_neg (by simp [h5])

theorem closeFrames_ended {nv : NonVol} {k pfn : Nat} {out : Bool} {g : TaskSt → TaskSt} {d e : Dev} (h : OthersOpen k d.stem.frames)
    (he : e.stem.frames = (mapTask d k pfn out g).stem.frames) (hq : e.stem.histReq = []) (h5 : fld e graftSpace1 ≠ 5) : closeFrames nv e = e :=
  closeFrames_idle (k := k) (he ▸ othersOpen_mapTask h pfn out g) hq h5

/-- The state of a task whose frames were rewritten. -/
theorem taskSt_of_frames {d e : Dev} {k pfn : Nat} {out : Bool} {g : TaskSt → TaskSt} (hg : ∀ t, (g t).task = t.task) (himg : imgOf e out = imgOf d out)
    (he : e.stem.frames = (mapTask d k pfn out g).stem.frames) : taskSt e k pfn out = (taskSt d k pfn out).map g := by
  rw [← taskSt_mapTask_same hg]
  have himg' : imgOf e out = imgOf (mapTask d k pfn out g) out := himg
  unfold taskSt frameOf
  rw [himg', he]

/-! ## Completion and its failures (R225, R254, R256) -/

theorem taskComplete_ends {nv : NonVol} {k pfn : Nat} {out : Bool} {d : Dev} {t : TaskSt} (hout : out = outFlag d k pfn)
    (ht : taskSt d k pfn out = some t) (hs : t.state = 1 ∨ t.state = 2) (hdone : branchesDone d k pfn out = true) (hshort : t.flags.testBit fShort = false) :
    taskCompleteOp nv k pfn d = closeFrames nv (endTask d k pfn out (if t.flags % 256 = stShapeOverrun then stShapeOverrun else stOk) 0) := by
  unfold taskCompleteOp
  rw [← hout]
  dsimp only
  rw [ht]
  dsimp only
  rw [if_pos (by simpa [hdone] using hs), hshort]
  rfl

theorem taskComplete_waits {nv : NonVol} {k pfn : Nat} {out : Bool} {d : Dev} {t : TaskSt} (hout : out = outFlag d k pfn)
    (ht : taskSt d k pfn out = some t) (h : t.state = 0 ∨ t.state = 3 ∨ branchesDone d k pfn out = false) : taskCompleteOp nv k pfn d = d := by
  unfold taskCompleteOp
  rw [← hout]
  dsimp only
  rw [ht]
  dsimp only
  refine if_neg ?_
  rcases h with h | h | h <;> simp [h]

theorem taskLimit_ends {nv : NonVol} {k pfn : Nat} {out : Bool} {d : Dev} {f : Frame} (hout : out = outFlag d k pfn)
    (hf : frameOf d (kPipe (imgOf d out) k) pfn out = some f) (h0 : kLimit (imgOf d out) k ≠ 0)
    (hlate : kLimit (imgOf d out) k * (lpNs d).1 ≤ (d.devTime.toNat - f.time) * (lpNs d).2) :
    taskLimitOp nv k pfn d = closeFrames nv (endTask d k pfn out stTimeout 0) := by
  unfold taskLimitOp
  rw [← hout]
  dsimp only
  rw [hf]
  exact if_pos (by simp [h0, hlate])

theorem taskLimit_waits {nv : NonVol} {k pfn : Nat} {out : Bool} {d : Dev} {f : Frame} (hout : out = outFlag d k pfn)
    (hf : frameOf d (kPipe (imgOf d out) k) pfn out = some f)
    (h : kLimit (imgOf d out) k = 0 ∨ (d.devTime.toNat - f.time) * (lpNs d).2 < kLimit (imgOf d out) k * (lpNs d).1) : taskLimitOp nv k pfn d = d := by
  unfold taskLimitOp
  rw [← hout]
  dsimp only
  rw [hf]
  refine if_neg ?_
  rcases h with h | h <;> simp [h]

theorem outSpace (out : Bool) : (if out then 1 else 0) = out.toNat := by cases out <;> rfl

theorem trunkStall_ends {nv : NonVol} {k pfn : Nat} {out : Bool} {d : Dev} {t : TaskSt} (hout : out = outFlag d k pfn)
    (ht : taskSt d k pfn out = some t) (hs : t.state = 1 ∨ t.state = 2) (h0 : fld d trkStallLimit ≠ 0)
    (hlate : fld d trkStallLimit < (stallTime d k pfn out.toNat).2) :
    trunkStallOp nv k pfn d = closeFrames nv (raise (endTask d k pfn out stTimeout 0) 0x0402 (0x20 + homeGroup (imgOf d out) (kPipe (imgOf d out) k)) 2
      (kPipe (imgOf d out) k)) := by
  unfold trunkStallOp
  rw [← hout]
  dsimp only
  rw [ht, outSpace]
  refine if_neg ?_
  have hopen : (t.state == 1 || t.state == 2) = true := by simpa using hs
  simp [h0, hlate, hopen]

theorem trunkStall_waits {nv : NonVol} {k pfn : Nat} {out : Bool} {d : Dev} {t : TaskSt} (hout : out = outFlag d k pfn)
    (ht : taskSt d k pfn out = some t)
    (h : t.state = 0 ∨ t.state = 3 ∨ fld d trkStallLimit = 0 ∨ (stallTime d k pfn out.toNat).2 ≤ fld d trkStallLimit) : trunkStallOp nv k pfn d = d := by
  unfold trunkStallOp
  rw [← hout]
  dsimp only
  rw [ht, outSpace]
  refine if_pos ?_
  rcases h with h | h | h | h <;> simp [h]

/-- What the commands that end a task show. -/
structure TaskOver (k pfn : Nat) (out : Bool) (status : Nat) (e : Dev) : Prop where
  state : (taskSt e k pfn out).map (·.state) = some 3
  free : ∀ n c, c ∈ (branch e n).ctxs → NotOf k pfn out c
  code : readMem e (recordAt k pfn) 1 = le 1 status
  frame : readMem e (recordAt k pfn + 4) 4 = le 4 pfn

section
variable {d : Dev} {k pfn : Nat} {out : Bool} {t : TaskSt} {b : Bytes} (hb : b = imgOf d out) (ht : taskSt d k pfn out = some t) (h3 : t.state ≠ 3)
  (hopen : OthersOpen k d.stem.frames) (hq : d.stem.histReq = []) (h5 : fld d graftSpace1 ≠ 5)
include hb ht h3 hopen hq h5

/-- A task that ends without closing a frame. -/
theorem taskEnd_over {status flags : Nat} (hkeep : (badEnd status || t.flags.testBit fUncorr) = false ∨ (∀ x, x ∈ kOuts b k → tHist b x = false)) :
    TaskOver k pfn out status (endTask d k pfn out status flags) ∧ ∀ nv e, Only [.regs, .usb, .root] (endTask d k pfn out status flags) e →
      fld e graftSpace1 = fld (endTask d k pfn out status flags) graftSpace1 → closeFrames nv e = e := by
  subst hb
  obtain ⟨htold, -, hspace, ⟨fl, hframes⟩, hfree, hcode, hframe, hhist, -, -⟩ := endTask_shows ht h3 status flags
  refine ⟨⟨?_, hfree, hcode, hframe⟩, fun nv e he hs => ?_⟩
  · rw [taskSt_of_frames (g := endedTask fl) (fun _ => rfl) (htold.img out) hframes, ht]
    rfl
  · have hstem : e.stem = (endTask d k pfn out status flags).stem := he .stem (by decide)
    exact closeFrames_ended (g := endedTask fl) (pfn := pfn) (out := out) hopen (by rw [hstem, hframes]) (by rw [hstem, hhist hkeep, hq]) (by rw [hs, hspace]; exact h5)

end

theorem TaskOver.of_only {k pfn : Nat} {out : Bool} {status : Nat} {d e : Dev} (h : TaskOver k pfn out status d) (ho : Only [.regs, .usb, .root] d e)
    (htold : Told d e) : TaskOver k pfn out status e := by
  have hmem : e.mem = d.mem := ho .mem (by decide)
  refine ⟨?_, fun n c hc => ?_, by rw [readMem_of_mem hmem, h.code], by rw [readMem_of_mem hmem, h.frame]⟩
  · have himg := htold.img out
    have hstem : e.stem = d.stem := ho .stem (by decide)
    rw [show taskSt e k pfn out = taskSt d k pfn out by unfold taskSt frameOf; rw [himg, hstem], h.state]
  · rw [branch_of_br (ho .br (by decide))] at hc
    exact h.free n c hc

/-! ## A page is released by every Branch that names it (R72, R225) -/

/-- The Branch of logical number `n` has completed the releases of page `v` that it issues. -/
def branchReleased (d : Dev) (b : Bytes) (k pfn : Nat) (out : Bool) (v j n : Nat) : Prop :=
  ∃ x, (d.br.flatMap (fun e => e.2.ctxs.filter (fun c => c.task == k && c.pfn == pfn && c.out == out))).find? (fun c => c.logic == n) = some x ∧
    (relPages d b k pfn j (kBranches b k).length x.wo x.ho (fun y => (tensorShape d b (nTasks b + 1) y
      (dataFrame d b k pfn y (foffOf b (progOff b (kProg b k)) y))).2)).count v ≤ x.rels.count v

/-- A page that a task has released. -/
def freedTask (v : Nat) (t : TaskSt) : TaskSt := { t with freed := v :: t.freed }

theorem pageRelease_done {k pfn v : Nat} {out : Bool} {d : Dev} {t : TaskSt} {b : Bytes} (hout : out = outFlag d k pfn) (hb : b = imgOf d out)
    (ht : taskSt d k pfn out = some t) (h3 : t.state ≠ 3) (hv : v ∉ t.freed)
    (hany : ∃ n c, (n, c) ∈ d.br ∧ ∃ x, x ∈ c.ctxs ∧ x.task = k ∧ x.pfn = pfn ∧ x.out = out ∧ v ∈ x.rels)
    (hall : ∀ j n, (kBranches b k)[j]? = some n → branchReleased d b k pfn out v j n) :
    pageReleaseOp k pfn v d = mapTask (releasePage d out.toNat v) k pfn out (freedTask v) := by
  subst hb
  have hone : (d.br.flatMap (fun e => e.2.ctxs.filter (fun c => c.task == k && c.pfn == pfn && c.out == out))).any (fun c => c.rels.contains v) = true := by
    obtain ⟨n, c, hc, x, hx, h1, h2, h3, h4⟩ := hany
    exact List.any_eq_true.mpr ⟨x, List.mem_flatMap.mpr ⟨(n, c), hc, List.mem_filter.mpr ⟨hx, by simp [h1, h2, h3]⟩⟩, by simpa using h4⟩
  unfold pageReleaseOp
  rw [← hout]
  dsimp only
  rw [ht, outSpace]
  dsimp only
  rw [if_pos]
  · rfl
  · simp only [Bool.and_eq_true, decide_eq_true_eq, Bool.not_eq_true']
    refine ⟨⟨⟨h3, by simpa using hv⟩, hone⟩, List.all_eq_true.mpr fun j hj => ?_⟩
    have hj := List.mem_range.mp hj
    obtain ⟨x, hx, hcount⟩ := hall j _ (List.getElem?_eq_getElem hj)
    rw [List.getD_eq_getElem _ _ hj, hx]
    exact decide_eq_true hcount

theorem pageRelease_none {k pfn v : Nat} {out : Bool} {d : Dev} {t : TaskSt} (hout : out = outFlag d k pfn) (ht : taskSt d k pfn out = some t)
    (h : t.state = 3 ∨ v ∈ t.freed) : pageReleaseOp k pfn v d = d := by
  unfold pageReleaseOp
  rw [← hout]
  dsimp only
  rw [ht]
  dsimp only
  refine if_neg ?_
  rcases h with h | h <;> simp [h]

theorem imgSp_out (d : Dev) (out : Bool) : imgSp d out.toNat = imgOf d out := by cases out <;> rfl

theorem pageRelease_shows (d : Dev) (k pfn v : Nat) (out : Bool) : Only [.regs, .ring, .stem, .trk] d (mapTask (releasePage d out.toNat v) k pfn out (freedTask v)) ∧
    taskSt (mapTask (releasePage d out.toNat v) k pfn out (freedTask v)) k pfn out = (taskSt d k pfn out).map (freedTask v) ∧
    (pageAt (mapTask (releasePage d out.toNat v) k pfn out (freedTask v)) out.toNat v =
      if (pageAt d out.toNat v).loc = 0 ∨ (pageAt d out.toNat v).readers = 0 then pageAt d out.toNat v
      else if (pageAt d out.toNat v).readers = 1 then Page.none else { pageAt d out.toNat v with readers := (pageAt d out.toNat v).readers - 1 }) ∧
    ∀ r, ringVal (mapTask (releasePage d out.toNat v) k pfn out (freedTask v)) r = ringVal (releaseTold d out.toNat v) r := by
  obtain ⟨honly, -, hring, hpage⟩ := releasePage_shows d out.toNat v
  generalize releasePage d out.toNat v = x at honly hring hpage ⊢
  have hmap := (mapTask_within x k pfn out (freedTask v)).only
  refine ⟨(honly.mono (by decide)).via hmap (by decide), ?_, hpage, hring⟩
  rw [taskSt_mapTask_same (g := freedTask v) (fun _ => rfl), taskSt_of_only honly (by decide) (by decide)]

/-! ## Nothing without the task -/

section
variable {d : Dev} {k pfn : Nat} (h : taskSt d k pfn (outFlag d k pfn) = none)
include h

theorem taskReady_absent (nv : NonVol) : taskReadyOp nv k pfn d = d := by
  unfold taskReadyOp
  dsimp only
  rw [h]

theorem taskComplete_absent (nv : NonVol) : taskCompleteOp nv k pfn d = d := by
  unfold taskCompleteOp
  dsimp only
  rw [h]

theorem trunkStall_absent (nv : NonVol) : trunkStallOp nv k pfn d = d := by
  unfold trunkStallOp
  dsimp only
  rw [h]
  exact if_pos (by simp)

theorem pageRelease_absent (v : Nat) : pageReleaseOp k pfn v d = d := by
  unfold pageReleaseOp
  dsimp only
  rw [h]

end

/-- TASK_READY without parity errors. -/
def readyOp (nv : NonVol) (k pfn : Nat) (d : Dev) : Dev :=
  if (taskSt d k pfn (outFlag d k pfn)).isSome then
    parityErrs nv (190 + pStem (imgOf d (outFlag d k pfn)) (kPipe (imgOf d (outFlag d k pfn)) k)) (([] : List Word).map (·.toNat)) (taskReadyOp nv k pfn d)
  else taskReadyOp nv k pfn d

theorem readyOp_eq (nv : NonVol) (k pfn : Nat) (d : Dev) : readyOp nv k pfn d = taskReadyOp nv k pfn d := by
  unfold readyOp
  split <;> rfl

theorem exec_taskReady (k : Nat) (pfn : Word) (s : State) : exec (.taskReady k pfn []) s = onDev s (readyOp s.nv k pfn.toNat) := rfl

theorem hostReg_kept (n : Nat) : hostReg n ∉ demandRegs ∧ (fencedReg (0x10 + n)).addr ∉ demandRegs := by
  simp only [hostReg, fencedReg, demandRegs, aEvict, aStageWaste, aStalls, List.mem_cons, List.not_mem_nil, or_false]
  omega

/-- A task that became ready. -/
theorem taskReady_shows {nv : NonVol} {k pfn : Nat} {out : Bool} {d : Dev} {t : TaskSt} {b : Bytes} (hout : out = outFlag d k pfn)
    (hb : b = imgOf d out) (ht : taskSt d k pfn out = some t) (h0 : t.state = 0) (hw : unmetWaits d b k pfn t = 0) (wo ho : Nat) :
    taskSt (taskStarted nv b k pfn out wo ho (askStaging k pfn d)) k pfn out =
      some { t with state := 1, asked := t.asked || !out, flags := if kHvring b k ≠ 0 ∧ ringVal d (kHvring b k) < kHdepth b k then setBit t.flags fCold true else t.flags } ∧
    (taskStarted nv b k pfn out wo ho (askStaging k pfn d)).ring = d.ring ∧ (taskStarted nv b k pfn out wo ho (askStaging k pfn d)).mem = d.mem ∧
    ∀ n h, n ∈ kBranches b k → brHost nv d n = some h →
      Ctx.start b k pfn out n wo ho ∈ (branch (taskStarted nv b k pfn out wo ho (askStaging k pfn d)) h).ctxs := by
  obtain ⟨⟨honly, hregs, hreads⟩, htask, -⟩ := askStaging_shows hout ht
  rw [← hb, if_pos (by simp [h0, hw])] at htask
  generalize askStaging k pfn d = x at honly hregs hreads htask ⊢
  obtain ⟨hstart, hst, hctx⟩ := taskStarted_shows nv b k pfn out wo ho x
  refine ⟨?_, ?_, ?_, fun n h hn hh => hctx n h hn ?_⟩
  · have hcold : coldStart b k x = decide (kHvring b k ≠ 0 ∧ ringVal d (kHvring b k) < kHdepth b k) := by
      unfold coldStart
      rw [hreads.ringVal]
      by_cases h : kHvring b k = 0 <;> simp [h]
    rw [hst, htask, hcold]
    simp [readyTask]
  · rw [hstart .ring (by decide), honly .ring (by decide)]
  · rw [hstart .mem (by decide), honly .mem (by decide)]
  · rw [brHost_of_regs hregs hostReg_kept, hh]

theorem kPipe_lt (b : Bytes) (k : Nat) : kPipe b k < 4 := by
  unfold kPipe bits
  exact Nat.mod_lt _ (by decide)

/-- Settles O50. -/
theorem tasksBecomeReadyAndEnd : Obligations.TasksBecomeReadyAndEnd := by
  unfold Obligations.TasksBecomeReadyAndEnd
  refine ⟨fun k pfn b out t s halive hout hb ht => ⟨fun h0 hw hprev hshape hwo hho => ?_, fun h => ?_, fun h0 hw => ?_,
    fun hs hdone hshort hunc hopen hq h5 hrel => ?_, fun h => ?_, fun f c hf hc hopen hq h5 hhist => ?_, fun f hf h => ?_, fun h => ?_,
    fun v p h3 hv hp hany hall => ?_, fun v h => ?_⟩, fun k pfn c s halive hnone hc => ?_⟩
  · have hop := taskReady_starts (nv := s.nv) hout hb ht h0 hw hprev hshape hwo hho
    exact does_touches (readyOp s.nv k pfn.toNat) (exec_taskReady k pfn s) halive ((readyOp_eq ..).trans hop) (taskReady_shows hout hb ht h0 hw _ _)
  · obtain ⟨-, -, hnop⟩ := askStaging_shows hout ht
    rw [← hb] at hnop
    have hop := taskReady_waits (nv := s.nv) hout ht (h.imp_right fun h => by rw [← hb]; omega)
    exact does_nothing (readyOp s.nv k pfn.toNat) (exec_taskReady k pfn s) halive ((readyOp_eq ..).trans (hop.trans (hnop h)))
  · obtain ⟨⟨honly, -, -⟩, htask, -⟩ := askStaging_shows hout ht
    have hop := taskReady_waits (nv := s.nv) hout ht (.inr (by rw [← hb, hw]; decide))
    refine does_eq (readyOp s.nv k pfn.toNat) (exec_taskReady k pfn s) halive ((readyOp_eq ..).trans hop) honly ?_
    rw [htask]
    split <;> simp [h0]
  · have h3 : t.state ≠ 3 := by rcases hs with h | h <;> rw [h] <;> decide
    have hbad : badEnd (if t.flags % 256 = stShapeOverrun then stShapeOverrun else stOk) = false := by split <;> decide
    obtain ⟨hover, hidle⟩ := taskEnd_over (flags := 0) hb ht h3 hopen hq h5 (.inl (by rw [hbad, hunc]; rfl))
    have hring := (endTask_shows ht h3 (if t.flags % 256 = stShapeOverrun then stShapeOverrun else stOk) 0).ring hbad rfl (hb ▸ hrel)
    have hop := (taskComplete_ends (nv := s.nv) hout ht hs hdone hshort).trans (hidle s.nv _ (.refl _ _) rfl)
    rw [← hb] at hring
    generalize endTask s.dev k pfn.toNat out (if t.flags % 256 = stShapeOverrun then stShapeOverrun else stOk) 0 = e at hover hring hop
    exact does_touches (taskCompleteOp s.nv k pfn.toNat) rfl halive hop ⟨hover.state, hover.free, hring, hover.code, hover.frame⟩
  · exact does_nothing (taskCompleteOp s.nv k pfn.toNat) rfl halive (taskComplete_waits hout ht h)
  · have hpipe := kPipe_lt b k
    have h3 : t.state ≠ 3 := by
      rcases hc with ⟨-, h, -⟩ | ⟨-, h, -⟩
      · exact h
      · rcases h with h | h <;> rw [h] <;> decide
    obtain ⟨hover, hidle⟩ := taskEnd_over (status := stTimeout) (flags := 0) hb ht h3 hopen hq h5 (.inr hhist)
    obtain ⟨-, htime, -, -, -, -, -, -, -, hev⟩ := endTask_shows ht h3 stTimeout 0
    have hev := hev rfl (by rw [← hb]; simp only [stTimeout]; omega)
    rw [← hb] at hev
    rcases hc with ⟨rfl, -, hlim, hlate⟩ | ⟨rfl, hs, hlim, hlate⟩
    · have hop := (taskLimit_ends (nv := s.nv) hout (hb ▸ hf) (hb ▸ hlim) (hb ▸ hlate)).trans (hidle s.nv _ (.refl _ _) rfl)
      generalize endTask s.dev k pfn.toNat out stTimeout 0 = e at hover htime hev hop
      exact does_touches (taskLimitOp s.nv k pfn.toNat) rfl halive hop ⟨hover.state, hover.free, hover.code, fun _ => hev, fun h => by cases h⟩
    · have hop := trunkStall_ends (nv := s.nv) hout ht hs hlim hlate
      rw [← hb] at hop
      generalize endTask s.dev k pfn.toNat out stTimeout 0 = e at hover hidle htime hop
      have hunit : 0x20 + homeGroup b (kPipe b k) < 0x10 ∨ 0x20 ≤ 0x20 + homeGroup b (kPipe b k) := by omega
      have hraise := raise_tame (d := e) hunit 0x0402 2 (kPipe b k)
      have hraised := raise_raised e 0x0402 (0x20 + homeGroup b (kPipe b k)) 2 (arg := kPipe b k) (by omega)
      have hover' := hover.of_only hraise.only ((Told.refl e).raise ..)
      have hop' := hop.trans (hidle s.nv _ hraise.only (hraise.regs.fld (by decide)))
      exact does_touches (trunkStallOp s.nv k pfn.toNat) rfl halive hop' ⟨hover'.state, hover'.free, hover'.code, (fun h => by cases h), fun _ => hraised.of_eq htime rfl⟩
  · exact does_nothing (taskLimitOp s.nv k pfn.toNat) rfl halive (taskLimit_waits hout (hb ▸ hf) (hb ▸ h))
  · exact does_nothing (trunkStallOp s.nv k pfn.toNat) rfl halive (trunkStall_waits hout ht h)
  · have hop := pageRelease_done hout hb ht h3 hv hany hall
    obtain ⟨honly, htask, hpage, hring⟩ := pageRelease_shows s.dev k pfn.toNat v out
    refine does_eq (pageReleaseOp k pfn.toNat v) rfl halive hop honly ⟨?_, by rw [hpage, hp], fun r => ?_⟩
    · rw [htask, ht]
      rfl
    · obtain ⟨hyes, hno⟩ := (releaseTold_shows s.dev out.toNat v).2 r
      rw [hring]
      split
      · next h => exact hyes h
      · next h => exact hno h
  · exact does_nothing (pageReleaseOp k pfn.toNat v) rfl halive (pageRelease_none hout ht h)
  · rcases hc with rfl | rfl | rfl | ⟨v, rfl⟩
    · exact does_nothing (readyOp s.nv k pfn.toNat) (exec_taskReady k pfn s) halive ((readyOp_eq ..).trans (taskReady_absent hnone _))
    · exact does_nothing (taskCompleteOp s.nv k pfn.toNat) rfl halive (taskComplete_absent hnone _)
    · exact does_nothing (trunkStallOp s.nv k pfn.toNat) rfl halive (trunkStall_absent hnone _)
    · exact does_nothing (pageReleaseOp k pfn.toNat v) rfl halive (pageRelease_absent hnone v)

end Sys2Proof.Machine
end

section
/-! PROOF. Three statements that a page record beyond the Trunk refutes. Nothing bounds the logical page number of a record, and that of
page 1 here lies so far up that the word of its group's fence (R485) is USB_EVT_LOST. A read of a page that nothing has been written to
raises TRUNK_UNWRITTEN_READ (R71); with the event queue full the event is counted as lost, and the page's group is fenced from there on. -/

namespace Sys2Proof.Machine

/-! ## The state -/

/-- A tensor of one element of format S8. -/
def ghostTensor : Bytes := [1, 0, 1, 0, 1, 0, 2, 0, 1] ++ List.replicate 23 0

/-- A Graft of two such tensors, which stand in pages 0 and 1, and of a task whose program is one instruction. The records 0 and 1 name the
tensors, 2 a region of one element; the words are 0x8000, the scale 1, and 0. -/
def ghostImage (instr : Bytes) : Bytes :=
  [0, 0x80, 0, 0, 0, 0, 3, 0] ++ List.replicate 56 0 ++
  [2, 0, 0, 0, 112, 0, 0, 0, 64, 0, 0, 0, 0, 0, 0, 0] ++ [3, 0, 0, 0, 176, 0, 0, 0, 64, 0, 0, 0, 0, 0, 0, 0] ++
  [4, 0, 0, 0, 240, 0, 0, 0, 0, 0, 0, 0, 0, 0, 0, 0] ++ ghostTensor ++ ghostTensor ++ List.replicate 64 0 ++
  [0, 0, 0, 0, 8, 0, 0, 0] ++ [1, 0, 0, 0, 0, 0, 0, 0, 0, 0, 3, 0, 2, 0, 1] ++ List.replicate 49 0 ++
  [0, 0, 1, 0, 0, 2, 1, 0, 1, 0, 0, 0, 0, 0, 0, 0] ++
  [0, 0x80, 0, 0, 0, 0, 0, 0, 0, 0, 0, 0, 1, 0, 0, 0] ++ [1, 0x80, 0, 0, 0, 0, 0, 0, 0, 0, 0, 0, 1, 0, 0, 0] ++
  [0, 0, 0, 0, 0, 0, 0, 0, 0, 0, 0, 0, 1, 0, 0, 0] ++ [0, 0x80, 0, 0, 0, 0, 0, 0] ++ instr

/-- The logical page of page 1. -/
def ghostLpn : Nat := 536936448

theorem ghostLpn_word : (fencedReg (0x20 + ghostLpn / 512)).addr = aEvtLost := by decide

/-- The context stands at that instruction. -/
def ghostCtx : Ctx := { Ctx.start [] 0 0 false 0 1 1 with sect := 0, edge := false }

/-- Branch 0 runs that Graft, the event queue is full, page 0 has no bytes yet, and the element of page 1 is -1. -/
def ghostState (instr : Bytes) : State := { State.reset with
  dev := { setFlds Dev.reset [(clkPllLock, 1)] with
    boot := 5
    root := { Dev.reset.root with space0 := some { img := ghostImage instr, meas := [], k := 0, idx := 0, area := 0 } }
    usb := { Dev.reset.usb with evDrop := true }
    trk := { Dev.reset.trk with map0 := [(1, { Page.none with loc := 1, lpn := ghostLpn, mask := 1 })] }
    mem := [(lpnAddr ghostLpn 0, 255)]
    br := [(0, { Branch.reset with ctxs := [ghostCtx], cur := some (0, 0) })] } }

/-- What the instruction sees. -/
def ghostEnv (instr : Bytes) : Env :=
  { nv := State.reset.nv, n := 0, c := ghostCtx, b := ghostImage instr, p := 248, i := instrAt (ghostImage instr) 248 0 0, y := 0, x0 := 0, j := 0
    nb := 0 }

/-- A tensor of that Graft as a source. -/
def ghostSrc (instr : Bytes) (k : Nat) : Src := srcOf (ghostState instr).dev (ghostEnv instr) ((ghostEnv instr).coord k)

theorem atHand_of_all {d : Dev} {sp : Nat} {runs : List (Nat × Nat)} (h : runs.all (fun r => (partsOf r.1 r.2).all (fun q =>
    decide ((pageAt d sp q.1).loc < 2 ∨ ((pageAt d sp q.1).loc = 3 ∧ (pageAt d sp q.1).move = 1)))) = true) : AtHand d sp runs := by
  intro r hr q hq
  exact of_decide_eq_true (List.all_eq_true.1 (List.all_eq_true.1 h r hr) q hq)

/-- Line 0 of a Trunk source that covers it is at hand when its page is. -/
theorem free_of_trunk {d : Dev} {e : Env} {s : Src} {n : Nat} (ht : s.co.trunk = true)
    (hp : ∀ y, y ∈ [s.line e].filterMap (padAxis s.co.pad s.yi.1 s.yi.2) → AtHand d e.sp (s.runs e y n)) : s.Free d e [s.line e] n :=
  .inr ⟨ht, fun y hy _ => hp y hy⟩

/-! ## TACT -/

/-- TACT that adds the two tensors into the region. -/
def ghostTact : Bytes := [0x06, 0x04, 0, 2, 1, 0, 0, 0, 0, 0, 0, 0, 0, 0, 0, 0]

theorem ghostTact_stands : StandsAt (ghostState ghostTact) 0 6 (ghostEnv ghostTact) := by
  refine ⟨?_, ?_, ?_, ?_⟩ <;> decide +kernel

theorem ghostTact_free (k : Fin 2) : (ghostSrc ghostTact k).Free (ghostState ghostTact).dev (ghostEnv ghostTact)
    [(ghostSrc ghostTact k).line (ghostEnv ghostTact)] 1 := by
  refine free_of_trunk (by revert k; decide +kernel) fun y hy => atHand_of_all ?_
  revert y
  revert k
  decide +kernel

/-- What an operand of it holds before the command. -/
def ghostOperand (j ch m : Nat) : Int :=
  if j < 2 then (((ghostSrc ghostTact j).prepRow (ghostState ghostTact).dev (ghostEnv ghostTact)
    ((ghostEnv ghostTact).word (ghostState ghostTact).dev ([bits (ghostEnv ghostTact).i.w1 16 8, bits (ghostEnv ghostTact).i.w1 24 8,
      bits (ghostEnv ghostTact).i.w2 0 8].getD j 0)) ((ghostSrc ghostTact j).chan (ghostEnv ghostTact) ((ghostEnv ghostTact).coord 2) ch) 1 0).getD m Prep.zero).v else 0

/-- Refutes O54: the sum of 0 and -1 is written as 0, since page 1 is fenced by the time that it is read. -/
theorem not_vectorUnitWritesItsResults : ¬ Obligations.VectorUnitWritesItsResults := by
  unfold Obligations.VectorUnitWritesItsResults
  rintro ⟨-, h, -⟩
  have hstands := ghostTact_stands
  have hdoes := h 0 (ghostEnv ghostTact) ((ghostEnv ghostTact).coord 2) 1 1 ghostOperand (ghostState ghostTact) hstands (by decide +kernel)
    (by decide +kernel) (by decide) (by decide +kernel) (by decide +kernel) ?_ fun j ch m hj => if_neg (Nat.not_lt.2 hj)
  · obtain ⟨-, hstore, -⟩ := next_of_does _ rfl hstands.1 hdoes
    have hnone : (branch (tileRead 6 tactRun (ghostState ghostTact).nv 0 [] (ghostState ghostTact).dev) 0).store = [] := by decide +kernel
    have hsum := hnone.symm.trans (hstore 0)
    revert hsum
    decide +kernel
  · intro j x hj hx
    have hcases : j = 0 ∨ j = 1 := by
      have : tactArity 1 = 2 := rfl
      omega
    rcases hcases with rfl | rfl
    · have hsrc : x = ghostSrc ghostTact 0 := hx.trans (by decide +kernel)
      subst hsrc
      exact ⟨ghostTact_free 0, fun ch m _ => rfl⟩
    · have hsrc : x = ghostSrc ghostTact 1 := hx.trans (by decide +kernel)
      subst hsrc
      exact ⟨ghostTact_free 1, fun ch m _ => rfl⟩

/-! ## TREQ -/

/-- TREQ that converts the second tensor into the region, with the first as its bias. -/
def ghostTreq : Bytes := [0x07, 0x04, 0, 2, 2, 0x10, 0, 0, 0, 0, 0, 0, 0, 0, 0, 0]

theorem ghostTreq_stands : StandsAt (ghostState ghostTreq) 0 7 (ghostEnv ghostTreq) := by
  refine ⟨?_, ?_, ?_, ?_⟩ <;> decide +kernel

theorem ghostTreq_free : (ghostSrc ghostTreq 1).Free (ghostState ghostTreq).dev (ghostEnv ghostTreq)
    [(ghostSrc ghostTreq 1).line (ghostEnv ghostTreq)] 1 := by
  refine free_of_trunk (by decide +kernel) fun y hy => atHand_of_all ?_
  revert y
  decide +kernel

theorem ghostTreq_bias : BiasReady (ghostState ghostTreq).dev (ghostEnv ghostTreq) ((ghostEnv ghostTreq).i.bias (ghostEnv ghostTreq).b (ghostEnv ghostTreq).p)
    64 := by
  intro i hi
  have hsome : (ghostEnv ghostTreq).i.bias (ghostEnv ghostTreq).b (ghostEnv ghostTreq).p = some 0 := by decide +kernel
  have hi0 : i = 0 := Option.some.inj (hi.symm.trans hsome)
  subst hi0
  refine free_of_trunk (by decide +kernel) fun y hy => atHand_of_all ?_
  revert y
  decide +kernel

/-- Refutes O55: -1 with bias 0 is converted to 0, since page 1 is fenced by the time that it is read. -/
theorem not_conversionsFollowTheirStep : ¬ Obligations.ConversionsFollowTheirStep := by
  unfold Obligations.ConversionsFollowTheirStep
  rintro ⟨-, h, -⟩
  have hstands := ghostTreq_stands
  have hdoes := h 0 (ghostEnv ghostTreq) ((ghostEnv ghostTreq).coord 2) (ghostSrc ghostTreq 1) 0 1 (ghostState ghostTreq) hstands (by decide +kernel)
    (by decide +kernel) (by decide +kernel) (by decide +kernel) ghostTreq_bias (by decide +kernel) (by decide +kernel) ghostTreq_free (by decide)
    (by decide +kernel)
  obtain ⟨-, hstore, -⟩ := next_of_does _ rfl hstands.1 hdoes
  have hnone : (branch (tileRead 7 treqRun (ghostState ghostTreq).nv 0 [] (ghostState ghostTreq).dev) 0).store = [] := by decide +kernel
  have hconverted := hnone.symm.trans (hstore 0)
  revert hconverted
  decide +kernel

/-! ## TBOX -/

/-- TBOX with the second tensor as its scores and the first as its distances, with threshold 0. -/
def ghostTbox : Bytes := [0x0D, 0, 1, 2, 0, 0, 0, 0, 0, 0x10, 0, 0, 0, 0, 0, 0]

theorem ghostTbox_stands : StandsAt (ghostState ghostTbox) 0 0xD (ghostEnv ghostTbox) := by
  refine ⟨?_, ?_, ?_, ?_⟩ <;> decide +kernel

theorem ghostTbox_free (k : Fin 2) : (ghostSrc ghostTbox k).Free (ghostState ghostTbox).dev (ghostEnv ghostTbox)
    [(ghostSrc ghostTbox k).line (ghostEnv ghostTbox)] 1 := by
  refine free_of_trunk (by revert k; decide +kernel) fun y hy => atHand_of_all ?_
  revert y
  revert k
  decide +kernel

/-- The best class of its one element before the command. -/
def ghostBest (m : Nat) : Int × Nat :=
  bestClass ((List.range 1).map (fun q => (((ghostSrc ghostTbox 1).prepRow (ghostState ghostTbox).dev (ghostEnv ghostTbox)
    ((ghostEnv ghostTbox).word (ghostState ghostTbox).dev (bits (ghostEnv ghostTbox).i.w2 20 8))
    (64 * (ghostEnv ghostTbox).group (ghostSrc ghostTbox 1).co + q) 1 0).getD m Prep.zero).v))

/-- Refutes O56: the score -1 lies below the threshold 0, but it is read as 0, since page 1 is fenced by the time that it is read, and the
element is listed. -/
theorem not_detectionUnitsWriteTheirLists : ¬ Obligations.DetectionUnitsWriteTheirLists := by
  unfold Obligations.DetectionUnitsWriteTheirLists
  rintro ⟨-, h, -⟩
  have hstands := ghostTbox_stands
  have hdoes := h 0 (ghostEnv ghostTbox) (ghostSrc ghostTbox 1) (ghostSrc ghostTbox 0) 1 0 1 1 ghostBest (ghostState ghostTbox) hstands
    (by decide +kernel) (by decide +kernel) (by decide +kernel) (by decide +kernel) (by decide) (by decide +kernel) (ghostTbox_free 1)
    (ghostTbox_free 0) (by decide +kernel) (by decide +kernel) fun m _ => rfl
  obtain ⟨-, -, hits, old, dr, hread, hhits, hstore, -⟩ := next_of_does _ rfl hstands.1 hdoes
  have hno : hits = [] := by
    refine List.map_eq_nil_iff.1 (hhits.trans ?_)
    decide +kernel
  have hempty : (old, dr) = ([], 0) := hread.trans (by decide +kernel)
  obtain ⟨rfl, rfl⟩ := Prod.mk.inj hempty
  subst hno
  have hlisted : Map.get 0 (branch (tileRead 0xD tboxRun (ghostState ghostTbox).nv 0 [] (ghostState ghostTbox).dev) 0).store 0 = 1 := by decide +kernel
  have hnone := hlisted.symm.trans (congrArg (fun l => Map.get 0 l 0) (hstore 0))
  revert hnone
  decide +kernel

end Sys2Proof.Machine
end

section
/-! PROOF. Which instruction a tile command issues (R209, R212, R221), and what one reduction step does to accumulators (R103, R154, R223). -/

namespace Sys2Proof.Machine

/-! ## Tile commands -/

/-- An operation that issues the instruction at which a Branch stands, when that is one of opcode `op`, and passes over a skipped one. -/
def Sequenced (op : Nat) (f : NonVol → Nat → Dev → Dev) : Prop := ∀ nv n d, (envOf nv d n = none → f nv n d = d) ∧
  ∀ e, envOf nv d n = some e → (e.i.op ≠ op → f nv n d = d) ∧ (e.i.op = op → e.skip = true → f nv n d = advance e d)

theorem sequenced_tileOp (op : Nat) (run : Env → Dev → Dev × Bool) : Sequenced op (tileOp op run) := by
  intro nv n d
  unfold tileOp
  refine ⟨fun h => by rw [h], fun e h => ?_⟩
  rw [h]
  exact ⟨fun hop => if_pos hop, fun hop hskip => (if_neg (not_not.2 hop)).trans (if_pos hskip)⟩

theorem sequenced_twaitOp : Sequenced 0x11 twaitOp := by
  intro nv n d
  unfold twaitOp
  refine ⟨fun h => by rw [h], fun e h => ?_⟩
  rw [h]
  exact ⟨fun hop => if_pos hop, fun hop hskip => (if_neg (not_not.2 hop)).trans (if_pos hskip)⟩

theorem exec_of_issues {c : Instr} {n : Fin 16} {op : Nat} (h : issues c = some (n, op)) :
    ∃ f, Sequenced op f ∧ ∀ s, exec c s = onDev s (f s.nv n.val) := by
  unfold issues at h
  split at h
  case h_18 => cases h
  case h_17 =>
    obtain ⟨rfl, rfl⟩ := Prod.mk.inj (Option.some.inj h)
    exact ⟨_, sequenced_twaitOp, fun _ => rfl⟩
  all_goals
    obtain ⟨rfl, rfl⟩ := Prod.mk.inj (Option.some.inj h)
    exact ⟨_, sequenced_tileOp _ _, fun _ => rfl⟩

/-- A tile command issues only the instruction at which the Branch stands, and passes over one that is skipped. -/
theorem tileCommand_sequenced {c : Instr} {n : Fin 16} {op : Nat} {s : State} (h : issues c = some (n, op)) (ha : alive s.dev = true) :
    (envOf s.nv s.dev n.val = none → Does c s [] (fun _ => True)) ∧
    (∀ e, envOf s.nv s.dev n.val = some e → e.i.op ≠ op → Does c s [] (fun _ => True)) ∧
    (∀ e, envOf s.nv s.dev n.val = some e → e.i.op = op → e.skip = true → Does c s [.regs, .stem, .trk, .mem, .br, .cells] (Stepped e)) := by
  obtain ⟨f, hseq, hexec⟩ := exec_of_issues h
  obtain ⟨hnone, hsome⟩ := hseq s.nv n.val s.dev
  refine ⟨fun henv => does_nothing _ (hexec s) ha (hnone henv), fun e henv hop => does_nothing _ (hexec s) ha ((hsome e henv).1 hop), ?_⟩
  intro e henv hop hskip
  obtain ⟨hn, -, hctx, -⟩ := env_of henv
  exact does_eq _ (hexec s) ha ((hsome e henv).2 hop hskip) (advance_within e s.dev).only (stepped_advance (hn ▸ hctx) rfl rfl rfl rfl)

/-! ## Sparse data by range -/

theorem Map.get_filter_key {α : Type} (dflt : α) (m : Map α) {p : Nat → Bool} {k : Nat} (hk : p k = true) :
    Map.get dflt (m.filter (fun e => p e.1)) k = m.get dflt k := by
  induction m with
  | nil => rfl
  | cons x m ih =>
    by_cases hx : x.1 = k
    · rw [List.filter_cons_of_pos (by rw [hx]; exact hk), Map.get, Map.get, if_pos hx, if_pos hx]
    · by_cases hp : p x.1 = true
      · rw [List.filter_cons_of_pos (p := fun e : Nat × α => p e.1) hp, Map.get, Map.get, if_neg hx, if_neg hx, ih]
      · rw [List.filter_cons_of_neg (p := fun e : Nat × α => p e.1) hp, Map.get, if_neg hx, ih]

theorem Map.get_part {α : Type} (dflt : α) (m : Map α) {lo hi k : Nat} (h : lo ≤ k ∧ k < hi) : (m.part lo hi).get dflt k = m.get dflt k :=
  Map.get_filter_key dflt m (p := fun x => decide (lo ≤ x ∧ x < hi)) (decide_eq_true h)

theorem Map.get_append_absent {α : Type} (dflt : α) {m l : Map α} {k : Nat} (h : ∀ x ∈ m, x.1 ≠ k) : Map.get dflt (m ++ l) k = Map.get dflt l k := by
  induction m with
  | nil => rfl
  | cons x m ih =>
    rw [List.cons_append, Map.get, if_neg (h x List.mem_cons_self)]
    exact ih fun y hy => h y (List.mem_cons_of_mem _ hy)

theorem Map.get_append_left {α : Type} (dflt : α) {m l : Map α} {k : Nat} (h : ∀ x ∈ l, x.1 ≠ k) : Map.get dflt (m ++ l) k = Map.get dflt m k := by
  induction m with
  | nil => exact Map.get_of_absent dflt h
  | cons x m ih => rw [List.cons_append, Map.get, Map.get, ih]

/-- Every entry of key `k`, listed or not, is `v`. -/
def Map.Holds {α : Type} (dflt : α) (m : Map α) (k : Nat) (v : α) : Prop := m.get dflt k = v ∧ ∀ x ∈ m, x.1 = k → x.2 = v

theorem Map.mem_put {α : Type} [DecidableEq α] {dflt : α} {m : Map α} {k : Nat} {v : α} {x : Nat × α} (h : x ∈ m.put dflt k v) : x = (k, v) ∨ x ∈ m := by
  unfold Map.put at h
  split at h
  · exact .inr (List.mem_of_mem_filter h)
  · exact (Map.mem_insert h).imp id List.mem_of_mem_filter

theorem Map.holds_put_same {α : Type} [DecidableEq α] (dflt : α) (m : Map α) (k : Nat) (v : α) : Map.Holds dflt (m.put dflt k v) k v := by
  refine ⟨Map.get_put_same .., fun x hx hk => ?_⟩
  have hgone : ∀ y ∈ m.erase k, y.1 ≠ k := fun y hy => of_decide_eq_true (List.of_mem_filter (p := fun e : Nat × α => decide (e.1 ≠ k)) hy)
  unfold Map.put at hx
  split at hx
  · exact absurd hk (hgone x hx)
  · rcases Map.mem_insert hx with rfl | hy
    · rfl
    · exact absurd hk (hgone x hy)

theorem Map.Holds.put_other {α : Type} [DecidableEq α] {dflt : α} {m : Map α} {k j : Nat} {v : α} (h : Map.Holds dflt m j v) (w : α) (hj : j ≠ k) :
    Map.Holds dflt (m.put dflt k w) j v := by
  refine ⟨(Map.get_put_other dflt m w hj).trans h.1, fun x hx hxj => ?_⟩
  rcases Map.mem_put hx with rfl | hm
  · exact absurd hxj.symm hj
  · exact h.2 x hm hxj

/-- Entries placed one after the other: those of one key agree. -/
theorem Map.holds_foldl_put {α β : Type} [DecidableEq α] {dflt : α} {f : β → Nat × α} {k : Nat} {v : α} {l : List β} (hl : ∀ x ∈ l, (f x).1 = k → (f x).2 = v)
    {m : Map α} (h : Map.Holds dflt m k v ∨ ∃ x ∈ l, (f x).1 = k) : Map.Holds dflt (l.foldl (fun m x => Map.put dflt m (f x).1 (f x).2) m) k v := by
  induction l generalizing m with
  | nil => exact h.resolve_right (by simp)
  | cons x l ih =>
    refine ih (fun y hy => hl y (List.mem_cons_of_mem _ hy)) ?_
    by_cases hk : (f x).1 = k
    · have hv := hl x List.mem_cons_self hk
      refine .inl ?_
      dsimp only
      rw [hk, hv]
      exact Map.holds_put_same ..
    · rcases h with hm | ⟨y, hy, hyk⟩
      · exact .inl (hm.put_other _ (Ne.symm hk))
      · rcases List.mem_cons.1 hy with rfl | hy
        · exact absurd hyk hk
        · exact .inr ⟨y, hy, hyk⟩

theorem Map.keys_foldl_put {α β : Type} [DecidableEq α] {dflt : α} {f : β → Nat × α} {P : Nat → Prop} {l : List β} (hl : ∀ x ∈ l, P (f x).1)
    {m : Map α} (hm : ∀ x ∈ m, P x.1) : ∀ x ∈ l.foldl (fun m x => Map.put dflt m (f x).1 (f x).2) m, P x.1 := by
  induction l generalizing m with
  | nil => exact hm
  | cons x l ih =>
    refine ih (fun y hy => hl y (List.mem_cons_of_mem _ hy)) fun y hy => ?_
    rcases Map.mem_put hy with rfl | hy
    · exact hl x List.mem_cons_self
    · exact hm y hy

/-- What is held is held by listing nothing when it is the default. -/
theorem Map.Holds.get_filter {α : Type} [DecidableEq α] {dflt : α} {m : Map α} {k : Nat} {v : α} (h : Map.Holds dflt m k v) :
    Map.get dflt (m.filter (fun e => decide (e.2 ≠ dflt))) k = v := by
  obtain ⟨hget, hall⟩ := h
  by_cases hv : v = dflt
  · rw [hv]
    refine Map.get_of_absent dflt fun x hx hk => ?_
    exact of_decide_eq_true (List.of_mem_filter (p := fun e : Nat × α => decide (e.2 ≠ dflt)) hx) ((hall x (List.mem_of_mem_filter hx) hk).trans hv)
  · induction m with
    | nil => exact hget
    | cons x m ih =>
      by_cases hk : x.1 = k
      · have hx := hall x List.mem_cons_self hk
        rw [List.filter_cons_of_pos (by simpa [hx] using hv), Map.get, if_pos hk, hx]
      · have hrest := ih ((if_neg hk).symm.trans hget) fun y hy => hall y (List.mem_cons_of_mem _ hy)
        by_cases hx : x.2 = dflt
        · rw [List.filter_cons_of_neg (by simp [hx]), hrest]
        · rw [List.filter_cons_of_pos (by simpa using hx), Map.get, if_neg hk, hrest]

theorem Map.get_setRange_inside {α : Type} [DecidableEq α] {dflt : α} (m : Map α) {lo hi k : Nat} {l : Map α} {v : α} (hk : lo ≤ k ∧ k < hi)
    (h : Map.Holds dflt l k v) : Map.get dflt (Map.setRange dflt m lo hi l) k = v := by
  unfold Map.setRange
  rw [List.append_assoc, Map.get_append_absent dflt (fun x hx hxk => ?_), Map.get_append_left dflt (fun x hx hxk => ?_)]
  · exact h.get_filter
  · have := of_decide_eq_true (List.of_mem_filter (p := fun e : Nat × α => decide (hi ≤ e.1)) hx)
    omega
  · have := of_decide_eq_true (List.of_mem_filter (p := fun e : Nat × α => decide (e.1 < lo)) hx)
    omega

theorem Map.get_setRange_outside {α : Type} [DecidableEq α] {dflt : α} (m : Map α) {lo hi k : Nat} {l : Map α} (hlo : lo ≤ hi) (hk : k < lo ∨ hi ≤ k)
    (h : ∀ x ∈ l, lo ≤ x.1 ∧ x.1 < hi) : Map.get dflt (Map.setRange dflt m lo hi l) k = m.get dflt k := by
  have hmid : ∀ x ∈ l.filter (fun e => decide (e.2 ≠ dflt)), x.1 ≠ k := fun x hx => by
    have := h x (List.mem_of_mem_filter hx)
    omega
  unfold Map.setRange
  rcases hk with hk | hk
  · rw [List.append_assoc, Map.get_append_left dflt (fun x hx => ?_)]
    · exact Map.get_filter_key dflt m (p := fun x => decide (x < lo)) (decide_eq_true hk)
    · rcases List.mem_append.1 hx with hx | hx
      · exact hmid x hx
      · have := of_decide_eq_true (List.of_mem_filter (p := fun e : Nat × α => decide (hi ≤ e.1)) hx)
        omega
  · rw [List.append_assoc, Map.get_append_absent dflt (fun x hx => ?_), Map.get_append_absent dflt hmid]
    · exact Map.get_filter_key dflt m (p := fun x => decide (hi ≤ x)) (decide_eq_true hk)
    · have := of_decide_eq_true (List.of_mem_filter (p := fun e : Nat × α => decide (e.1 < lo)) hx)
      omega

/-! ## One slot takes a step -/

section
variable (first : Bool) (slot tag : Nat) {l : List (Nat × Int)} (w : Twig)

/-- What an accumulator takes a step from. -/
def accBase (i : Nat) : Int := if first then 0 else accAt w slot i

theorem accStep_get {i : Nat} {v : Int} (hi : i < 16384) (hmem : (i, v) ∈ l) (hl : ∀ x ∈ l, x.1 = i → x.2 = v) :
    accAt (accStep first slot tag l w).1 slot i = (acc40 (accBase first slot w i + v)).1 := by
  have hold : (if first then 0 else Map.get 0 (if first && !slotHeld w slot then [] else Map.part w.acc (slot * 16384) (slot * 16384 + 16384))
      (slot * 16384 + i)) = accBase first slot w i := by
    cases first
    · exact Map.get_part 0 w.acc (by omega)
    · rfl
  unfold accStep accAt
  refine Map.get_setRange_inside _ (by omega) (Map.holds_foldl_put (f := fun x : Nat × Int × Nat => (x.1, x.2.1)) ?_ (.inr ?_))
  · intro x hx hk
    obtain ⟨y, hy, rfl⟩ := List.mem_map.1 hx
    have hyi : y.1 = i := Nat.add_left_cancel hk
    have hyv := hl y hy hyi
    dsimp only
    rw [hyi, hyv, hold]
  · exact ⟨_, List.mem_map.2 ⟨(i, v), hmem, rfl⟩, rfl⟩

theorem accStep_get_other {s i : Nat} (hi : i < 16384) (hs : s ≠ slot) (hl : ∀ x ∈ l, x.1 < 16384) :
    accAt (accStep first slot tag l w).1 s i = accAt w s i := by
  unfold accStep accAt
  refine Map.get_setRange_outside _ (by omega) (by omega) fun x hx => ?_
  refine Map.keys_foldl_put (f := fun x : Nat × Int × Nat => (x.1, x.2.1)) (P := fun k => slot * 16384 ≤ k ∧ k < slot * 16384 + 16384)
    (fun y hy => ?_) (fun y hy => ?_) x hx
  · obtain ⟨z, hz, rfl⟩ := List.mem_map.1 hy
    have := hl z hz
    dsimp only
    omega
  · have hold := List.mem_of_mem_filter hy
    split at hold
    · cases hold
    · exact of_decide_eq_true (List.of_mem_filter (p := fun e : Nat × Int => decide (slot * 16384 ≤ e.1 ∧ e.1 < slot * 16384 + 16384)) hold)

/-- Slots hold what they held, but for one that a FIRST step begins. -/
theorem accStep_slotP (s : Nat) : (accStep first slot tag l w).1.slotP.get 0 s = if first = true ∧ s = slot then tag else w.slotP.get 0 s := by
  unfold accStep
  cases first
  · exact (if_neg (by simp)).symm
  · exact (Map.get_put 0 w.slotP slot s tag).trans (by simp)

end

/-- Planes, codebooks and the transform buffer are the same. -/
structure SameWeights (w w' : Twig) : Prop where
  plane : w'.plane = w.plane
  book : w'.book = w.book
  geo : w'.geo = w.geo
  wbuf : w'.wbuf = w.wbuf

theorem accStep_weights (first : Bool) (slot tag : Nat) (l : List (Nat × Int)) (w : Twig) : SameWeights w (accStep first slot tag l w).1 :=
  ⟨rfl, rfl, rfl, rfl⟩

theorem SameWeights.trans {w x y : Twig} (h : SameWeights w x) (g : SameWeights x y) : SameWeights w y :=
  ⟨g.plane.trans h.plane, g.book.trans h.book, g.geo.trans h.geo, g.wbuf.trans h.wbuf⟩

end Sys2Proof.Machine
end

section
/-! PROOF. A reduction step over the tiles of an instruction, on the Twig that serves and on the spare that audits it (R151, R154, R165, R169). -/

namespace Sys2Proof.Machine

/-! ## The tiles of a Twig -/

/-- The elements of one slot's step: one value for an index, all within the slot. -/
def StepOf (l : List (Nat × Int)) : Prop := ∀ x ∈ l, x.1 < 16384 ∧ ∀ y ∈ l, y.1 = x.1 → y.2 = x.2

/-- A Twig takes the step of tile `j`. -/
def Twig.takes (first : Bool) (tag : Nat) (slotOf : Nat → Nat) (l : Nat → List (Nat × Int)) (w : Twig) (j : Nat) : Twig :=
  (accStep first (slotOf j) tag (l j) w).1

section
variable {first : Bool} {tag : Nat} {slotOf : Nat → Nat} {l : Nat → List (Nat × Int)}

theorem takes_weights (js : List Nat) (w : Twig) : SameWeights w (js.foldl (Twig.takes first tag slotOf l) w) := by
  induction js generalizing w with
  | nil => exact ⟨rfl, rfl, rfl, rfl⟩
  | cons j js ih => exact (accStep_weights ..).trans (ih _)

theorem takes_other {js : List Nat} (w : Twig) {s i : Nat} (hi : i < 16384) (hs : s ∉ js.map slotOf) (hl : ∀ j ∈ js, StepOf (l j)) :
    accAt (js.foldl (Twig.takes first tag slotOf l) w) s i = accAt w s i ∧
    (js.foldl (Twig.takes first tag slotOf l) w).slotP.get 0 s = w.slotP.get 0 s := by
  induction js generalizing w with
  | nil => exact ⟨rfl, rfl⟩
  | cons j js ih =>
    obtain ⟨hj, hjs⟩ := not_or.1 (mt List.mem_cons.2 hs)
    obtain ⟨hacc, hslot⟩ := ih (w := Twig.takes first tag slotOf l w j) hjs fun k hk => hl k (List.mem_cons_of_mem _ hk)
    refine ⟨hacc.trans (accStep_get_other first (slotOf j) tag w hi hj fun x hx => (hl j List.mem_cons_self x hx).1), hslot.trans ?_⟩
    exact (accStep_slotP ..).trans (if_neg fun h => hj h.2)

/-- Each tile's slot takes its step, when no slot stands twice. -/
theorem takes_tile {js : List Nat} (w : Twig) (hnodup : (js.map slotOf).Nodup) (hl : ∀ j ∈ js, StepOf (l j)) {j : Nat} (hj : j ∈ js) :
    (first = true → (js.foldl (Twig.takes first tag slotOf l) w).slotP.get 0 (slotOf j) = tag) ∧
    ∀ x ∈ l j, accAt (js.foldl (Twig.takes first tag slotOf l) w) (slotOf j) x.1 = (acc40 (accBase first (slotOf j) w x.1 + x.2)).1 := by
  induction js generalizing w with
  | nil => cases hj
  | cons k js ih =>
    obtain ⟨hk, hnodup⟩ := List.nodup_cons.1 hnodup
    have hrest : ∀ j ∈ js, StepOf (l j) := fun j hj => hl j (List.mem_cons_of_mem _ hj)
    rcases List.mem_cons.1 hj with rfl | hj
    · refine ⟨fun hf => ?_, fun x hx => ?_⟩
      · refine ((takes_other _ (i := 0) (by decide) hk hrest).2).trans ?_
        exact (accStep_slotP ..).trans (if_pos ⟨hf, rfl⟩)
      · obtain ⟨hlt, hsame⟩ := hl j List.mem_cons_self x hx
        exact ((takes_other _ hlt hk hrest).1).trans (accStep_get first (slotOf j) tag w hlt hx hsame)
    · have hne : slotOf j ≠ slotOf k := fun h => hk (h ▸ List.mem_map_of_mem hj)
      obtain ⟨hslot, hacc⟩ := ih (w := Twig.takes first tag slotOf l w k) hnodup hrest hj
      refine ⟨hslot, fun x hx => (hacc x hx).trans ?_⟩
      have hbase : accBase first (slotOf j) (Twig.takes first tag slotOf l w k) x.1 = accBase first (slotOf j) w x.1 := by
        unfold accBase
        exact if_congr Iff.rfl rfl (accStep_get_other first (slotOf k) tag w (hrest j hj x hx).1 hne fun y hy => (hl k List.mem_cons_self y hy).1)
      rw [hbase]

end

/-! ## The Branch's Twigs -/

theorem twig_setBranch_other {d : Dev} {n m : Nat} (x : Branch) (h : m ≠ n) (t : Nat) : twig (setBranch d n x) m t = twig d m t := by
  rw [twig, branch_setBranch_other _ _ h]; rfl

theorem twig_setBranch_same (d : Dev) (n : Nat) {x : Branch} (h : x.twig = (branch d n).twig) (m t : Nat) : twig (setBranch d n x) m t = twig d m t := by
  by_cases hm : m = n
  · subst hm; rw [twig, branch_setBranch_same, h]; rfl
  · exact twig_setBranch_other x hm t

theorem twig_of_br {d e : Dev} (h : e.br = d.br) (m t : Nat) : twig e m t = twig d m t := by rw [twig, branch_of_br h]; rfl

theorem twig_setTwig (d : Dev) (n t : Nat) (w : Twig) (u : Nat) : twig (setTwig d n t w) n u = if u = t then w else twig d n u := by
  rw [twig, setTwig, branch_setBranch_same]
  exact Map.get_put ..

/-- The fields of a Branch that its Twigs' work leaves: all but the Twigs, the count of tiles and the audited slots. -/
def Branch.kept (x : Branch) : Branch := { x with twig := [], tiles := 0, aud := [] }

theorem kept_setBranch {d : Dev} {n : Nat} {x : Branch} (h : x.kept = (branch d n).kept) (m : Nat) :
    (branch (setBranch d n x) m).kept = (branch d m).kept := by
  by_cases hm : m = n
  · subst hm; rw [branch_setBranch_same, h]
  · rw [branch_setBranch_other _ _ hm]

/-- The Twigs of a Branch work: nothing else of the device changes, nor of a Branch. -/
structure TwigsWork (d e : Dev) : Prop where
  only : Only [.br] d e
  kept : ∀ m, (branch e m).kept = (branch d m).kept

theorem TwigsWork.refl (d : Dev) : TwigsWork d d := ⟨.refl _ _, fun _ => rfl⟩

theorem TwigsWork.trans {d e f : Dev} (h : TwigsWork d e) (g : TwigsWork e f) : TwigsWork d f :=
  ⟨h.only.trans g.only, fun m => (g.kept m).trans (h.kept m)⟩

theorem twigsWork_setBranch {d : Dev} {n : Nat} {x : Branch} (h : x.kept = (branch d n).kept) : TwigsWork d (setBranch d n x) :=
  ⟨(setBranch_within ..).only, kept_setBranch h⟩

theorem TwigsWork.audits {d e : Dev} (h : TwigsWork d e) (n t : Nat) : audits e n t = Sys2Proof.Machine.audits d n t := by
  have hregs : e.regs = d.regs := h.only .regs (by decide)
  have harmed : (branch e n).armed = (branch d n).armed := by have := congrArg Branch.armed (h.kept n); exact this
  rw [Sys2Proof.Machine.audits, harmed, fld_of_regs hregs, fld_of_regs hregs]
  rfl

theorem TwigsWork.curCtx {d e : Dev} (h : TwigsWork d e) (n : Nat) : curCtx e n = Sys2Proof.Machine.curCtx d n := by
  have hcur : (branch e n).cur = (branch d n).cur := by have := congrArg Branch.cur (h.kept n); exact this
  have hctx : (branch e n).ctxs = (branch d n).ctxs := by have := congrArg Branch.ctxs (h.kept n); exact this
  rw [Sys2Proof.Machine.curCtx, hcur, hctx]
  rfl

/-- The Twigs that a change of Twig `t` reaches: itself, and the spare while it audits `t`. -/
def Reaches (d : Dev) (n t u : Nat) : Prop := u = t ∨ (u = 4 ∧ audits d n t = true)

theorem onTwig_works (n t : Nat) (f : Twig → Twig) (d : Dev) : TwigsWork d (onTwig n t f d) := by
  have hset (d : Dev) (t : Nat) (w : Twig) : TwigsWork d (setTwig d n t w) := twigsWork_setBranch rfl
  unfold onTwig
  dsimp only
  split
  · exact (hset _ _ _).trans (hset _ _ _)
  · exact hset _ _ _

/-- A Twig that a change reaches changes, once. -/
theorem twig_onTwig {n t u : Nat} (f : Twig → Twig) {d : Dev} (h4 : t = 4 → audits d n t = false) (hu : Reaches d n t u) :
    twig (onTwig n t f d) n u = f (twig d n u) := by
  have hset : TwigsWork d (setTwig d n t (f (twig d n t))) := twigsWork_setBranch rfl
  unfold onTwig
  dsimp only
  rw [hset.audits]
  rcases hu with rfl | ⟨rfl, hau⟩
  · split
    · next hau =>
      have hne : u ≠ 4 := fun h => by rw [h4 h] at hau; cases hau
      rw [twig_setTwig, if_neg hne, twig_setTwig, if_pos rfl]
    · rw [twig_setTwig, if_pos rfl]
  · have hne : (4 : Nat) ≠ t := fun h => by rw [h4 h.symm] at hau; cases hau
    rw [if_pos hau, twig_setTwig, if_pos rfl, twig_setTwig, if_neg hne]

theorem auditStep_works (n t slot p : Nat) (new : Bool) (d : Dev) : TwigsWork d (auditStep n t slot p new d) := by
  have htiles : TwigsWork d (if new && flag d (auditEn n) && fld d (twigState n 4) = 1 && t < 4
      then setBranch d n { branch d n with tiles := (branch d n).tiles + 1 } else d) := by
    split
    · exact twigsWork_setBranch rfl
    · exact .refl _
  unfold auditStep
  dsimp only
  generalize (if new && flag d (auditEn n) && fld d (twigState n 4) = 1 && t < 4
      then setBranch d n { branch d n with tiles := (branch d n).tiles + 1 } else d) = x at htiles ⊢
  split
  · exact htiles
  · split
    · exact htiles.trans (twigsWork_setBranch rfl)
    · split
      · exact htiles.trans (twigsWork_setBranch rfl)
      · exact htiles

theorem twig_auditStep (n t slot p : Nat) (new : Bool) (d : Dev) (m u : Nat) : twig (auditStep n t slot p new d) m u = twig d m u := by
  have htiles : twig (if new && flag d (auditEn n) && fld d (twigState n 4) = 1 && t < 4
      then setBranch d n { branch d n with tiles := (branch d n).tiles + 1 } else d) m u = twig d m u := by
    split
    · exact twig_setBranch_same _ _ (by rfl) _ _
    · rfl
  unfold auditStep
  dsimp only
  generalize (if new && flag d (auditEn n) && fld d (twigState n 4) = 1 && t < 4
      then setBranch d n { branch d n with tiles := (branch d n).tiles + 1 } else d) = x at htiles ⊢
  rw [← htiles]
  split
  · rfl
  · split
    · exact twig_setBranch_same _ _ (by rfl) _ _
    · split
      · exact twig_setBranch_same _ _ (by rfl) _ _
      · rfl

/-! ## The steps of an instruction -/

/-- The tile's step on the Branch: its audit, the Twig at work and the saturations. -/
def tileStep (n t pl tag : Nat) (first : Bool) (slotOf : Nat → Nat) (sums : Twig → Nat → List (Nat × Int)) (acc : Dev × Nat) (j : Nat) : Dev × Nat :=
  (onTwig n t (fun w => (accStep first (slotOf j) tag (sums (twig acc.1 n t) j) w).1)
    (auditStep n t (slotOf j) pl (first && !slotHeld (twig acc.1 n t) (slotOf j)) acc.1),
    acc.2 + (accStep first (slotOf j) tag (sums (twig acc.1 n t) j) (twig acc.1 n t)).2)

/-- Steps read a Twig's planes, codebooks and transform buffer alone. -/
def ReadsWeights (sums : Twig → Nat → List (Nat × Int)) : Prop := ∀ w w', SameWeights w w' → ∀ j, sums w' j = sums w j

section
variable {n t pl tag : Nat} {first : Bool} {slotOf : Nat → Nat} {sums : Twig → Nat → List (Nat × Int)}

theorem tileStep_works (acc : Dev × Nat) (j : Nat) : TwigsWork acc.1 (tileStep n t pl tag first slotOf sums acc j).1 := by
  unfold tileStep
  dsimp only
  refine TwigsWork.trans ?_ (onTwig_works ..)
  exact auditStep_works ..

theorem tileSteps_work (js : List Nat) (acc : Dev × Nat) : TwigsWork acc.1 (js.foldl (tileStep n t pl tag first slotOf sums) acc).1 := by
  induction js generalizing acc with
  | nil => exact .refl _
  | cons j js ih => exact (tileStep_works acc j).trans (ih _)

/-- Every Twig at work takes the same steps. -/
theorem twig_tileSteps (hs : ReadsWeights sums) {w0 : Twig} {u : Nat} (js : List Nat) {acc : Dev × Nat} (hw : SameWeights w0 (twig acc.1 n t))
    (h4 : t = 4 → audits acc.1 n t = false) (hu : Reaches acc.1 n t u) :
    twig (js.foldl (tileStep n t pl tag first slotOf sums) acc).1 n u = js.foldl (Twig.takes first tag slotOf (sums w0)) (twig acc.1 n u) := by
  induction js generalizing acc with
  | nil => rfl
  | cons j js ih =>
    have hau := auditStep_works n t (slotOf j) pl (first && !slotHeld (twig acc.1 n t) (slotOf j)) acc.1
    have hstep (v : Nat) (hv : Reaches acc.1 n t v) : twig (tileStep n t pl tag first slotOf sums acc j).1 n v =
        Twig.takes first tag slotOf (sums w0) (twig acc.1 n v) j := by
      have hv' : Reaches (auditStep n t (slotOf j) pl (first && !slotHeld (twig acc.1 n t) (slotOf j)) acc.1) n t v := by
        rw [Reaches, hau.audits]; exact hv
      unfold tileStep
      dsimp only
      rw [twig_onTwig _ (fun h => (hau.audits n t).trans (h4 h)) hv', twig_auditStep, hs _ _ hw]
      rfl
    have hwork := tileStep_works (n := n) (t := t) (pl := pl) (tag := tag) (first := first) (slotOf := slotOf) (sums := sums) acc j
    rw [List.foldl_cons, List.foldl_cons, ← hstep u hu]
    refine ih ?_ (fun h => (hwork.audits n t).trans (h4 h)) ?_
    · rw [hstep t (.inl rfl)]
      exact hw.trans (accStep_weights ..)
    · rw [Reaches, hwork.audits]; exact hu

end

end Sys2Proof.Machine
end

section
/-! PROOF. What a reduction step does when it may run, and what a tile that must wait counts (R151, R154, R212, R223). -/

namespace Sys2Proof.Machine

/-! ## A tile that is held (R154) -/

/-- The next instruction's tile has been counted as held. -/
def Ctx.counted (c : Ctx) : Ctx := { c with short := true }

/-- The tiles held are counted, once. -/
def heldCounted (e : Env) (t n : Nat) (d : Dev) : Dev := bump (mapCur d e.n Ctx.counted) (aTwigShort e.n t) n

theorem holdTile_of_short {e : Env} (h : e.c.short = true) (t n : Nat) (d : Dev) : holdTile e t n d = d := if_pos h

/-- A task with the mark of a tile held. -/
def accShortMarked (s : TaskSt) : TaskSt := { s with flags := setBit s.flags fAccShort true }

/-- The task is marked, and its event raised, once per frame. -/
def heldMarked (e : Env) (t : Nat) (d : Dev) : Dev :=
  match taskSt d e.c.task e.c.pfn e.c.out with
  | some s => if s.flags.testBit fAccShort then d else raise (mapTaskE e accShortMarked d) 0x0220 e.unit 1 (twigNo e.n t + e.taskArg)
  | none => d

theorem holdTile_eq {e : Env} (h : e.c.short = false) (t n : Nat) (d : Dev) : holdTile e t n d = heldMarked e t (heldCounted e t n d) := by
  unfold holdTile
  rw [if_neg (by simp [h])]
  rfl

theorem heldMarked_shows (e : Env) (t : Nat) (d : Dev) :
    Only [.regs, .usb, .root, .stem] d (heldMarked e t d) ∧ RegsBut [aEvtLost] d (heldMarked e t d) := by
  have hmark := (mapTaskE_within e accShortMarked d).only
  have hregs : RegsBut [aEvtLost] d (mapTaskE e accShortMarked d) := .of_only hmark (by decide) _
  have hraise := raise_regsBut (mapTaskE e accShortMarked d) 0x0220 e.unit 1 (twigNo e.n t + e.taskArg)
  have honly := (raise_within (mapTaskE e accShortMarked d) 0x0220 e.unit 1 (twigNo e.n t + e.taskArg)).only
  unfold heldMarked
  generalize mapTaskE e accShortMarked d = x at *
  split
  · split
    · exact ⟨.refl _ _, .refl _ _⟩
    · exact ⟨(hmark.mono (by decide)).trans honly, hregs.trans hraise⟩
  · exact ⟨.refl _ _, .refl _ _⟩

theorem heldCounted_br (e : Env) (t n : Nat) (d : Dev) : (heldCounted e t n d).br = (mapCur d e.n Ctx.counted).br :=
  (bump_within ..).only .br (by decide)

theorem holdTile_br {e : Env} (h : e.c.short = false) (t n : Nat) (d : Dev) : (holdTile e t n d).br = (mapCur d e.n Ctx.counted).br :=
  by
  rw [holdTile_eq h]
  exact ((heldMarked_shows ..).1 .br (by decide)).trans (heldCounted_br ..)

theorem twig_mapCur (d : Dev) (n : Nat) (f : Ctx → Ctx) (m t : Nat) : twig (mapCur d n f) m t = twig d m t := by rw [twig, branch_mapCur]; rfl

theorem heldCounted_regsBut (e : Env) (t n : Nat) (d : Dev) : RegsBut [aTwigShort e.n t] d (heldCounted e t n d) :=
  RegsBut.trans (RegsBut.of_only (mapCur_within d e.n Ctx.counted).only (by decide) _) (bump_regsBut _ _ _)

/-- The registers that a held tile may change. -/
theorem holdTile_regsBut (e : Env) (t n : Nat) (d : Dev) : RegsBut [aTwigShort e.n t, aEvtLost] d (holdTile e t n d) := by
  cases h : e.c.short
  · rw [holdTile_eq h]
    exact ((heldCounted_regsBut e t n d).mono (by simp)).trans ((heldMarked_shows e t (heldCounted e t n d)).2.mono (by simp))
  · rw [holdTile_of_short h]; exact .refl _ _

theorem holdTile_twig (e : Env) (t n : Nat) (d : Dev) (m u : Nat) : twig (holdTile e t n d) m u = twig d m u := by
  cases h : e.c.short
  · rw [twig_of_br (holdTile_br h t n d), twig_mapCur]
  · rw [holdTile_of_short h]

/-- The registers of Twigs stand apart from those counts. -/
theorem twigWord_apart (n t u : Nat) : (twigState n u).addr ∉ [aTwigShort n t, aEvtLost] := by
  simp only [twigState, aTwigShort, aEvtLost, brBase, List.mem_cons, List.not_mem_nil, or_false, not_or]
  omega

/-- The context in hand as a step leaves it: only its mark of a held tile may change. -/
def StandsStill (e : Env) (d : Dev) : Prop :=
  ∃ c, curCtx d e.n = some c ∧ c.place = e.c.place ∧ c.edge = e.c.edge ∧ c.wo = e.c.wo ∧ c.ho = e.c.ho

theorem StandsStill.stepped {e : Env} {d : Dev} (h : StandsStill e d) : Stepped e (advance e d) := by
  obtain ⟨c, hcur, hp, he, hwo, hho⟩ := h
  exact stepped_advance hcur hp he hwo hho

theorem StandsStill.of_cur {e : Env} {d x : Dev} (h : StandsStill e d) (hx : curCtx x e.n = curCtx d e.n) : StandsStill e x := by
  unfold StandsStill
  rw [hx]
  exact h

theorem standsStill_of_cur {e : Env} {d : Dev} (h : curCtx d e.n = some e.c) : StandsStill e d := ⟨e.c, h, rfl, rfl, rfl, rfl⟩

theorem holdTile_still {e : Env} {d : Dev} (h : curCtx d e.n = some e.c) (t n : Nat) : StandsStill e (holdTile e t n d) := by
  cases hs : e.c.short
  · refine ⟨e.c.counted, ?_, rfl, rfl, rfl, rfl⟩
    rw [curCtx_of_branch (branch_of_br (holdTile_br hs t n d) e.n), curCtx_mapCur, h]
    rfl
  · rw [holdTile_of_short hs]; exact standsStill_of_cur h

theorem curCtx_of_br {d e : Dev} (h : e.br = d.br) (n : Nat) : curCtx e n = curCtx d n := curCtx_of_branch (branch_of_br h n)

/-! ## The step begins -/

/-- MODE and PLANE show the instruction; a tile that does not fit has been counted. -/
def reduceBegun (e : Env) (t mode pl held : Nat) (d : Dev) : Dev := streams e.n t mode pl (if held = 0 then d else holdTile e t held d)

theorem streams_twig_words (n t mode plane u : Nat) (d : Dev) : fld (streams n t mode plane d) (twigState n u) = fld d (twigState n u) ∧
    fld (streams n t mode plane d) (twigStands n u) = fld d (twigStands n u) := by
  have hset (v : Nat) (d : Dev) {y : Fld} (hy : y.lo + y.width ≤ 6) : fld (setFlds d [(twigMode n v, mode), (twigPlane n v, plane)]) y = fld d y := by
    have h10 : y.lo + y.width ≤ 10 := by omega
    refine (fld_setFld_other _ (twigPlane n v) y plane (by simp [twigPlane]) (.inr (.inl h10))).trans ?_
    exact fld_setFld_other d (twigMode n v) y mode (by simp [twigMode]) (.inr (.inl hy))
  have hall {y : Fld} (hy : y.lo + y.width ≤ 6) : fld (streams n t mode plane d) y = fld d y := by
    unfold streams
    dsimp only
    split
    · exact (hset 4 _ hy).trans (hset t d hy)
    · exact hset t d hy
  exact ⟨hall (y := twigState n u) (by simp [twigState]), hall (y := twigStands n u) (by simp [twigStands])⟩

section
variable (e : Env) (t mode pl held : Nat) (d : Dev)

theorem reduceBegun_br : (reduceBegun e t mode pl held d).br = (if held = 0 then d else holdTile e t held d).br := (streams_within ..).only .br (by decide)

theorem reduceBegun_twig (m u : Nat) : twig (reduceBegun e t mode pl held d) m u = twig d m u := by
  rw [twig_of_br (reduceBegun_br ..)]
  split
  · rfl
  · exact holdTile_twig ..

theorem reduceBegun_armed (n : Nat) : (branch (reduceBegun e t mode pl held d) n).armed = (branch d n).armed := by
  rw [branch_of_br (reduceBegun_br ..)]
  split
  · rfl
  · cases h : e.c.short
    · rw [branch_of_br (holdTile_br h _ _ _), branch_mapCur]
    · rw [holdTile_of_short h]

theorem reduceBegun_audits (v : Nat) : audits (reduceBegun e t mode pl held d) e.n v = audits d e.n v := by
  have hheld : RegsBut [aTwigShort e.n t, aEvtLost] d (if held = 0 then d else holdTile e t held d) := by
    split
    · exact .refl _ _
    · exact holdTile_regsBut _ _ _ _
  obtain ⟨hstate, hstands⟩ := streams_twig_words e.n t mode pl 4 (if held = 0 then d else holdTile e t held d)
  have hst := hstate.trans (hheld.fld (twigWord_apart e.n t 4))
  have hsd := hstands.trans (hheld.fld (x := twigStands e.n 4) (twigWord_apart e.n t 4))
  rw [audits, reduceBegun_armed]
  unfold reduceBegun
  rw [hst, hsd]
  rfl

variable {d} in
theorem reduceBegun_still (h : curCtx d e.n = some e.c) : StandsStill e (reduceBegun e t mode pl held d) := by
  refine StandsStill.of_cur (d := if held = 0 then d else holdTile e t held d) ?_ (curCtx_of_br (reduceBegun_br ..) _)
  split
  · exact standsStill_of_cur h
  · exact holdTile_still h t held

end

/-! ## The step runs -/

/-- The tiles of an instruction of up to `nt` tiles of `p` pixels. -/
def Env.tileNos (e : Env) (nt p : Nat) : List Nat := (List.range nt).filter (fun j => decide (j * p < e.stream nt p))

theorem mem_tileNos {e : Env} {nt p j : Nat} (hp : 0 < p) : j ∈ e.tileNos nt p ↔ j < nt ∧ j * p < e.c.wo - e.x0 := by
  unfold Env.tileNos Env.stream
  rw [List.mem_filter, List.mem_range, decide_eq_true_eq]
  constructor
  · rintro ⟨hj, h⟩; exact ⟨hj, by omega⟩
  · rintro ⟨hj, h⟩
    have : j * p < nt * p := Nat.mul_lt_mul_of_pos_right hj hp
    exact ⟨hj, by omega⟩

theorem tileNos_eq {e : Env} {nt p : Nat} (hp : 0 < p) : e.tileNos nt p = (List.range nt).filter (fun j => decide (j * p < e.c.wo - e.x0)) := by
  refine List.filter_congr fun j hj => ?_
  have h := mem_tileNos (e := e) (nt := nt) hp (j := j)
  rw [Env.tileNos, List.mem_filter, decide_eq_true_eq] at h
  exact decide_eq_decide.2 ⟨fun hlt => (h.1 ⟨hj, hlt⟩).2, fun hlt => (h.2 ⟨List.mem_range.1 hj, hlt⟩).2⟩

/-- The slots of the tiles, as the obligations list them. -/
theorem tiles_slots {e : Env} {a nt p : Nat} (hp : 0 < p) : (e.tiles a nt p).map (·.2) = (e.tileNos nt p).map (fun j => e.slot (a + j)) := by
  rw [tileNos_eq hp, Env.tiles, List.map_map]
  rfl

/-- The state after the steps, before they are counted. -/
def reduceSteps (e : Env) (mode nt p slots wino plane : Nat) (held : Nat) (sums : Twig → Nat → List (Nat × Int)) (d : Dev) : Dev × Nat :=
  (e.tileNos nt p).foldl (tileStep e.n (e.onTwig d) (e.plane plane) (2 * p + wino) (e.i.flag 10) (fun j => e.slot (slots + j)) sums)
    (reduceBegun e (e.onTwig d) mode (e.plane plane) held d, 0)

/-- Tiles that begin and do not fit. -/
def heldTiles (e : Env) (nt p slots wino : Nat) (d : Dev) : Nat :=
  if e.i.flag 10 then tilesShort d e (e.onTwig d) ((e.tileNos nt p).map (fun j => e.slot (slots + j))) (if wino = 1 then 4 else 1) else 0

/-- The steps done are counted. -/
def reduceCounted (e : Env) (t busy : Nat) (r : Dev × Nat) : Dev := addSat e r.2 (bump (bump r.1 (aTwigBusy e.n t) busy) (aTwigSat e.n t) r.2)

section
variable {e : Env} {s : Src} {mode nt p slots wino plane busy : Nat} {lines : List Int} {sums : Twig → Nat → List (Nat × Int)} {d : Dev}

theorem reduce_none (h : e.stream nt p = 0) : reduce e s mode nt p slots wino plane busy lines sums d = (d, true) := if_pos h

theorem reduce_busy (hn : e.stream nt p ≠ 0) {y : Int} (hy : y ∈ lines) (ht : s.co.trunk = false) (hb : slotBusy d e s.co.index y = true) :
    reduce e s mode nt p slots wino plane busy lines sums d = (d, false) :=
  (if_neg hn).trans (if_pos (List.any_eq_true.2 ⟨y, hy, by simp [ht, hb]⟩))

theorem reduce_drains (hn : e.stream nt p ≠ 0) {t : Nat} (ht : t ∈ (e.tileNos nt p).map (fun j => e.slot (slots + j))) (hd : (e.onTwig d, t) ∈ e.c.drains) :
    reduce e s mode nt p slots wino plane busy lines sums d = (d, false) := by
  refine (if_neg hn).trans ?_
  split
  · rfl
  · exact if_pos (List.any_eq_true.2 ⟨t, ht, by simpa [Env.onTwig] using hd⟩)

variable (hn : e.stream nt p ≠ 0) (hfree : ∀ y, y ∈ lines → s.co.trunk = true ∨ slotBusy d e s.co.index y = false)
  (hd : ∀ x, x ∈ (e.tileNos nt p).map (fun j => e.slot (slots + j)) → (e.onTwig d, x) ∉ e.c.drains)
include hn hfree hd

theorem reduce_past : reduce e s mode nt p slots wino plane busy lines sums d =
    if heldTiles e nt p slots wino d ≠ 0 && e.c.drains.any (fun x => x.1 == e.onTwig d) then (holdTile e (e.onTwig d) (heldTiles e nt p slots wino d) d, false)
    else (reduceCounted e (e.onTwig d) busy (reduceSteps e mode nt p slots wino plane (heldTiles e nt p slots wino d) sums d), true) := by
  have hlines : lines.any (fun y => !s.co.trunk && slotBusy d e s.co.index y) = false := by
    rw [List.any_eq_false]
    intro y hy
    rcases hfree y hy with h | h <;> simp [h]
  have hslots : ((e.tileNos nt p).map (fun j => e.slot (slots + j))).any (fun x => e.c.drains.contains (e.onTwig d, x)) = false := by
    rw [List.any_eq_false]
    intro x hx
    simpa using hd x hx
  refine (if_neg hn).trans ((if_neg (by rw [hlines]; decide)).trans ((if_neg ?_).trans rfl))
  exact fun h => Bool.false_ne_true (hslots.symm.trans h)

theorem reduce_runs (hheld : heldTiles e nt p slots wino d = 0 ∨ ∀ x, x ∈ e.c.drains → x.1 ≠ e.onTwig d) :
    reduce e s mode nt p slots wino plane busy lines sums d =
      (reduceCounted e (e.onTwig d) busy (reduceSteps e mode nt p slots wino plane (heldTiles e nt p slots wino d) sums d), true) := by
  refine (reduce_past hn hfree hd).trans (if_neg ?_)
  rcases hheld with h | h
  · simp [h]
  · simp only [Bool.and_eq_true, List.any_eq_true, beq_iff_eq, not_and, not_exists]
    exact fun _ x hx => h x hx

theorem reduce_holds (hheld : heldTiles e nt p slots wino d ≠ 0) (hdr : e.c.drains.any (fun x => x.1 == e.onTwig d) = true) :
    reduce e s mode nt p slots wino plane busy lines sums d = (holdTile e (e.onTwig d) (heldTiles e nt p slots wino d) d, false) :=
  (reduce_past hn hfree hd).trans (if_pos (by simp [hheld, hdr]))

end

/-! ## What the step leaves -/

/-- The spare does not audit itself. -/
theorem onTwig_audited {e : Env} {d : Dev} (ht : e.i.twig ≠ 4) (h : e.onTwig d = 4) : audits d e.n (e.onTwig d) = false := by
  unfold Env.onTwig servingTwig at h
  split at h
  · next hs =>
    simp only [Bool.and_eq_true, decide_eq_true_eq] at hs
    unfold audits
    rw [hs.1.1]
    simp
  · exact absurd h ht

section
variable {e : Env} {mode nt p slots wino plane busy held : Nat} {sums : Twig → Nat → List (Nat × Int)} {d : Dev}

theorem reduceCounted_br (t : Nat) (r : Dev × Nat) : (reduceCounted e t busy r).br = r.1.br := by
  refine ((addSat_within ..).only .br (by decide)).trans ?_
  exact ((bump_within ..).only .br (by decide)).trans ((bump_within ..).only .br (by decide))

theorem reduceSteps_work : TwigsWork (reduceBegun e (e.onTwig d) mode (e.plane plane) held d) (reduceSteps e mode nt p slots wino plane held sums d).1 :=
  tileSteps_work (e.tileNos nt p) (reduceBegun e (e.onTwig d) mode (e.plane plane) held d, 0)

theorem reduce_still (h : curCtx d e.n = some e.c) :
    StandsStill e (reduceCounted e (e.onTwig d) busy (reduceSteps e mode nt p slots wino plane held sums d)) := by
  refine (reduceBegun_still e (e.onTwig d) mode (e.plane plane) held h).of_cur ?_
  rw [curCtx_of_br (reduceCounted_br ..), reduceSteps_work.curCtx]

theorem reduce_audits (v : Nat) :
    audits (reduceCounted e (e.onTwig d) busy (reduceSteps e mode nt p slots wino plane held sums d)) e.n v = audits d e.n v := by
  have hcount : RegsBut [aTwigBusy e.n (e.onTwig d), aTwigSat e.n (e.onTwig d)] (reduceSteps e mode nt p slots wino plane held sums d).1
      (reduceCounted e (e.onTwig d) busy (reduceSteps e mode nt p slots wino plane held sums d)) := by
    refine RegsBut.trans ?_ (RegsBut.of_only (addSat_within ..).only (by decide) _)
    exact RegsBut.trans ((bump_regsBut _ _ _).mono (by simp)) ((bump_regsBut _ _ _).mono (by simp))
  have hapart (u : Nat) : (twigState e.n u).addr ∉ [aTwigBusy e.n (e.onTwig d), aTwigSat e.n (e.onTwig d)] := by
    simp only [twigState, aTwigBusy, aTwigSat, brBase, List.mem_cons, List.not_mem_nil, or_false, not_or]
    omega
  rw [← reduceBegun_audits e (e.onTwig d) mode (e.plane plane) held d v, ← reduceSteps_work.audits, audits, branch_of_br (reduceCounted_br ..),
    hcount.fld (hapart 4), hcount.fld (x := twigStands e.n 4) (hapart 4)]
  rfl

/-- Every Twig at work takes the steps of the tiles. -/
theorem reduce_twig (hs : ReadsWeights sums) (ht : e.i.twig ≠ 4) {u : Nat} (hu : e.worksOn d u) :
    twig (reduceCounted e (e.onTwig d) busy (reduceSteps e mode nt p slots wino plane held sums d)) e.n u =
      (e.tileNos nt p).foldl (Twig.takes (e.i.flag 10) (2 * p + wino) (fun j => e.slot (slots + j)) (sums (twig d e.n (e.onTwig d)))) (twig d e.n u) := by
  rw [twig_of_br (reduceCounted_br ..)]
  refine (twig_tileSteps (w0 := twig d e.n (e.onTwig d)) hs _ ?_ (fun h => ?_) ?_).trans ?_
  · dsimp only; rw [reduceBegun_twig]; exact ⟨rfl, rfl, rfl, rfl⟩
  · exact (reduceBegun_audits ..).trans (onTwig_audited ht h)
  · rw [Reaches, reduceBegun_audits]; exact hu
  · dsimp only; rw [reduceBegun_twig]

end

end Sys2Proof.Machine
end

section
/-! PROOF. TMAC, TDIAG and TWINO: the sums that their reduction steps add (R146, R147, R151, R158 to R163). -/

namespace Sys2Proof.Machine

/-! ## Lists of sums -/

theorem mapIdx_map_range {α β : Type} (n : Nat) (f : Nat → α) (g : Nat → α → β) :
    ((List.range n).map f).mapIdx g = (List.range n).map (fun k => g k (f k)) := by
  refine List.ext_getElem (by simp) fun i _ _ => ?_
  simp

theorem getD_map_range {α : Type} {n i : Nat} (h : i < n) (f : Nat → α) (a : α) : ((List.range n).map f).getD i a = f i := by
  simp [List.getD, h]

/-- A step over a grid of indices is a step when no index stands twice. -/
theorem stepOf_grid {xs : List Nat} {ys : Nat → List Nat} {key : Nat → Nat → Nat} {val : Nat → Nat → Int}
    (hlt : ∀ x ∈ xs, ∀ y ∈ ys x, key x y < 16384)
    (hinj : ∀ x ∈ xs, ∀ y ∈ ys x, ∀ x' ∈ xs, ∀ y' ∈ ys x', key x' y' = key x y → x' = x ∧ y' = y) :
    StepOf (xs.flatMap (fun x => (ys x).map (fun y => (key x y, val x y)))) := by
  intro a ha
  obtain ⟨x, hx, ha⟩ := List.mem_flatMap.1 ha
  obtain ⟨y, hy, rfl⟩ := List.mem_map.1 ha
  refine ⟨hlt x hx y hy, fun b hb hk => ?_⟩
  obtain ⟨x', hx', hb⟩ := List.mem_flatMap.1 hb
  obtain ⟨y', hy', rfl⟩ := List.mem_map.1 hb
  obtain ⟨rfl, rfl⟩ := hinj x hx y hy x' hx' y' hy' hk
  rfl

theorem mem_grid {xs : List Nat} {ys : Nat → List Nat} {key : Nat → Nat → Nat} {val : Nat → Nat → Int} {x y : Nat} (hx : x ∈ xs) (hy : y ∈ ys x) :
    (key x y, val x y) ∈ xs.flatMap (fun x => (ys x).map (fun y => (key x y, val x y))) :=
  List.mem_flatMap.2 ⟨x, hx, List.mem_map.2 ⟨y, hy, rfl⟩⟩

section
variable {w w' : Twig} (h : SameWeights w w')
include h

theorem SameWeights.planeAt (p i : Nat) : planeAt w' p i = Sys2Proof.Machine.planeAt w p i := by
  unfold Sys2Proof.Machine.planeAt
  rw [h.plane]

theorem SameWeights.bookEntry (k i : Nat) : bookEntry w' k i = Sys2Proof.Machine.bookEntry w k i := by
  unfold Sys2Proof.Machine.bookEntry
  rw [h.book]

theorem SameWeights.actAt (d : Dev) (e : Env) (s : Src) (fmt slot sub : Nat) (row : Option (List Int)) (i : Nat) (dx : Int) :
    actAt d e w' s fmt slot sub row i dx = Sys2Proof.Machine.actAt d e w s fmt slot sub row i dx := by
  unfold Sys2Proof.Machine.actAt actOf
  simp only [h.bookEntry]

end

/-! ## What a step that ran shows -/

theorem instrAt_twig (b : Bytes) (p s i : Nat) : (instrAt b p s i).twig < 4 := Nat.mod_lt _ (by decide)

theorem envOf_twig {nv : NonVol} {d : Dev} {n : Nat} {e : Env} (h : envOf nv d n = some e) : e.i.twig ≠ 4 := by
  unfold envOf at h
  split at h
  · cases h
  · split at h
    · cases h
    · have he := Option.some.inj h
      subst he
      exact Nat.ne_of_lt (instrAt_twig ..)

theorem twig_advance (e : Env) (d : Dev) (m u : Nat) : twig (advance e d) m u = twig d m u := by rw [twig, branch_advance]; rfl

/-- Each tile's slot has taken its sums, on every Twig at work. -/
def TilesTook (e : Env) (a nt p tag : Nat) (sums : Nat → List (Nat × Int)) (d x : Dev) : Prop :=
  ∀ j slot, (j, slot) ∈ e.tiles a nt p → (e.i.flag 10 = true → ∀ u, e.worksOn d u → (twig x e.n u).slotP.get 0 slot = tag) ∧
    ∀ y, y ∈ sums j → Accumulates e slot y.1 y.2 d x

section
variable {e : Env} {a nt p tag : Nat} {sums : Nat → List (Nat × Int)} {d x : Dev}

theorem tilesTook_of (hp : 0 < p) (hnodup : ((e.tiles a nt p).map (·.2)).Nodup)
    (hl : ∀ j ∈ e.tileNos nt p, StepOf (sums j))
    (hx : ∀ u, e.worksOn d u → (twig x e.n u).acc =
        ((e.tileNos nt p).foldl (Twig.takes (e.i.flag 10) tag (fun j => e.slot (a + j)) sums) (twig d e.n u)).acc ∧
      (twig x e.n u).slotP = ((e.tileNos nt p).foldl (Twig.takes (e.i.flag 10) tag (fun j => e.slot (a + j)) sums) (twig d e.n u)).slotP) :
    TilesTook e a nt p tag sums d x := by
  intro j slot hj
  have hmem : j ∈ e.tileNos nt p ∧ slot = e.slot (a + j) := by
    rw [Env.tiles, List.mem_map] at hj
    obtain ⟨k, hk, heq⟩ := hj
    obtain ⟨rfl, rfl⟩ := Prod.mk.inj heq
    exact ⟨by rw [tileNos_eq hp]; exact hk, rfl⟩
  obtain ⟨hjt, rfl⟩ := hmem
  rw [tiles_slots hp] at hnodup
  refine ⟨fun hf u hu => ?_, fun y hy u hu => ?_⟩
  · rw [(hx u hu).2]
    exact (takes_tile (slotOf := fun j => e.slot (a + j)) (twig d e.n u) hnodup hl hjt).1 hf
  · rw [accAt, (hx u hu).1]
    exact (takes_tile (slotOf := fun j => e.slot (a + j)) (twig d e.n u) hnodup hl hjt).2 y hy

theorem TilesTook.of_twig {z : Dev} (h : TilesTook e a nt p tag sums d x) (hz : ∀ u, twig z e.n u = twig x e.n u) :
    TilesTook e a nt p tag sums d z := by
  intro j slot hj
  obtain ⟨hslot, hacc⟩ := h j slot hj
  exact ⟨fun hf u hu => by rw [hz]; exact hslot hf u hu, fun y hy u hu => by rw [hz]; exact hacc y hy u hu⟩

end

section
variable {e : Env} {s : Src} {d : Dev} {mode nt p slots wino plane busy : Nat} {lines : List Int} {sums : Twig → Nat → List (Nat × Int)}

theorem stream_ne_zero (hnt : 0 < nt) (hp : 0 < p) (hx : e.x0 < e.c.wo) : e.stream nt p ≠ 0 := by
  unfold Env.stream
  have := Nat.mul_pos hnt hp
  omega

/-- A step that may run, runs. -/
theorem reduce_of_can (hnt : 0 < nt) (hp : 0 < p) (hx : e.x0 < e.c.wo)
    (hcan : CanReduce d e s lines ((e.tiles slots nt p).map (·.2)) (if wino = 1 then 4 else 1)) :
    reduce e s mode nt p slots wino plane busy lines sums d =
      (reduceCounted e (e.onTwig d) busy (reduceSteps e mode nt p slots wino plane (heldTiles e nt p slots wino d) sums d), true) := by
  obtain ⟨hfree, -, hdr, hfit⟩ := hcan
  rw [tiles_slots hp] at hdr hfit
  refine reduce_runs (stream_ne_zero hnt hp hx) hfree hdr ?_
  unfold heldTiles
  split
  · next hf => exact hfit hf
  · exact .inl rfl

theorem reduce_took (hp : 0 < p) (hnodup : ((e.tiles slots nt p).map (·.2)).Nodup) (hs : ReadsWeights sums) (ht : e.i.twig ≠ 4)
    (hl : ∀ j ∈ e.tileNos nt p, StepOf (sums (twig d e.n (e.onTwig d)) j)) (held : Nat) :
    TilesTook e slots nt p (2 * p + wino) (sums (twig d e.n (e.onTwig d))) d
      (reduceCounted e (e.onTwig d) busy (reduceSteps e mode nt p slots wino plane held sums d)) :=
  tilesTook_of hp hnodup hl fun u hu => by rw [reduce_twig hs ht hu]; exact ⟨rfl, rfl⟩

end

/-! ## TMAC (R146, R147) -/

/-- A weight as TMAC streams it: C4 codes are decoded through the instruction's slot and sub-bank. -/
def tmacWeight (e : Env) (w : Twig) (k c : Nat) : Int :=
  if bits e.i.w1 4 4 = 9 then bookEntry w (bits e.i.w2 0 3) (16 * bits e.i.w2 3 4 + (planeAt w (e.plane (e.i.ff 12 1)) (64 * k + c)).toNat)
  else planeAt w (e.plane (e.i.ff 12 1)) (64 * k + c)

/-- The source of TMAC, TDIAG and TWINO. -/
def Env.twigSrc (e : Env) (d : Dev) : Src := srcOf d e (e.coord e.i.ca)

/-- Activation of channel `ch` at element `i` of line `y`, `dx` further. -/
def twigAct (d : Dev) (e : Env) (fslot sub : Nat) (w : Twig) (y : Int) (ch i : Nat) (dx : Int) : Int :=
  actAt d e w (e.twigSrc d) (bits e.i.w1 0 4) fslot sub ((e.twigSrc d).row d e y ch) i dx

/-- What output column `c` adds for pixel `i`. -/
def tmacSum (d : Dev) (e : Env) (w : Twig) (i c : Nat) : Int :=
  ((List.range (planeRows (bits e.i.w1 4 4))).map (fun k => twigAct d e (bits e.i.w1 23 3) (bits e.i.w1 26 4) w ((e.twigSrc d).line e)
    (64 * e.group (e.twigSrc d).co + k) i 0 * tmacWeight e w k c)).sum

/-- Pixels of tile `j` within the stream. -/
def Env.tilePx (e : Env) (nt p j : Nat) : List Nat := (List.range p).filter (fun px => decide (j * p + px < e.stream nt p))

def tmacSums (e : Env) (d : Dev) (nt p : Nat) (w : Twig) (j : Nat) : List (Nat × Int) :=
  (e.tilePx nt p j).flatMap (fun px => (List.range 64).map (fun c => (c * 64 + px, tmacSum d e w (j * p + px) c)))

/-- MODE of TMAC in Table Twig-1, and the ac that it takes. -/
def tmacMode (e : Env) : Nat :=
  if bits e.i.w1 0 4 = 6 ∨ bits e.i.w1 0 4 = 7 then 5 else match bits e.i.w1 4 4 with | 1 => 2 | 0 => 3 | 9 => 4 | _ => 1
def tmacBusy (e : Env) : Nat :=
  if bits e.i.w1 0 4 = 6 ∨ bits e.i.w1 0 4 = 7 then 2 * e.stream (bits e.i.w1 12 4 + 1) (bits e.i.w1 16 7)
  else e.stream (bits e.i.w1 12 4 + 1) (bits e.i.w1 16 7)

theorem tmacRun_eq (e : Env) (d : Dev) : tmacRun e d = reduce e (e.twigSrc d) (tmacMode e) (bits e.i.w1 12 4 + 1) (bits e.i.w1 16 7) (bits e.i.w1 8 4) 0
    (e.i.ff 12 1) (tmacBusy e) [(e.twigSrc d).line e] (tmacSums e d (bits e.i.w1 12 4 + 1) (bits e.i.w1 16 7)) d := by
  unfold tmacRun
  dsimp only
  refine congrArg (fun f => reduce e (e.twigSrc d) (tmacMode e) _ _ _ 0 _ (tmacBusy e) [(e.twigSrc d).line e] f d) ?_
  funext w j
  simp only [List.map_map, mapIdx_map_range]
  rfl

theorem mem_tilePx {e : Env} {nt p j px : Nat} (hj : j < nt) (hp : px < p) (hx : e.x0 + (j * p + px) < e.c.wo) : px ∈ e.tilePx nt p j := by
  have : (j + 1) * p ≤ nt * p := Nat.mul_le_mul_right p hj
  rw [Nat.add_mul, Nat.one_mul] at this
  exact List.mem_filter.2 ⟨List.mem_range.2 hp, decide_eq_true (by unfold Env.stream; omega)⟩

theorem tilePx_lt {e : Env} {nt p j px : Nat} (h : px ∈ e.tilePx nt p j) : px < p := List.mem_range.1 (List.mem_filter.1 h).1

theorem twigAct_weights {d : Dev} {e : Env} {w w' : Twig} (h : SameWeights w w') (fslot sub : Nat) (y : Int) (ch i : Nat) (dx : Int) :
    twigAct d e fslot sub w' y ch i dx = twigAct d e fslot sub w y ch i dx := h.actAt ..

theorem tmacSums_weights (e : Env) (d : Dev) (nt p : Nat) : ReadsWeights (tmacSums e d nt p) := by
  intro w w' h j
  unfold tmacSums tmacSum tmacWeight
  simp only [twigAct_weights h, h.planeAt, h.bookEntry]

theorem stepOf_columns {pxs : List Nat} {p : Nat} (hpx : ∀ px ∈ pxs, px < p) (hp : p ≤ 64) (val : Nat → Nat → Int) :
    StepOf (pxs.flatMap (fun px => (List.range 64).map (fun c => (c * 64 + px, val px c)))) := by
  refine stepOf_grid (ys := fun _ => List.range 64) (key := fun px c => c * 64 + px) (fun px hx c hc => ?_) fun px hx c hc px' hx' c' hc' h => ?_
  · have := hpx px hx
    have := List.mem_range.1 hc
    omega
  · have := hpx px hx
    have := hpx px' hx'
    omega

end Sys2Proof.Machine
end

section
/-! PROOF. TDIAG and TWINO, and the obligation on reductions (R151, R158 to R163). -/

namespace Sys2Proof.Machine

/-! ## TDIAG (R162, R163) -/

/-- B: channels of a block. -/
def Env.block (e : Env) : Nat := 4 * 2 ^ e.i.ff 14 2

theorem block_cases (e : Env) : e.block = 4 ∨ e.block = 8 ∨ e.block = 16 ∨ e.block = 32 := by
  have hlt : e.i.ff 14 2 < 4 := Nat.mod_lt _ (by decide)
  have hcases : e.i.ff 14 2 = 0 ∨ e.i.ff 14 2 = 1 ∨ e.i.ff 14 2 = 2 ∨ e.i.ff 14 2 = 3 := by omega
  unfold Env.block
  rcases hcases with h | h | h | h <;> rw [h] <;> decide

/-- What channel `c` of DIAG_G adds for pixel `i`. -/
def diagGroupSum (d : Dev) (e : Env) (w : Twig) (i c : Nat) : Int :=
  ((List.range e.block).map (fun r => twigAct d e 0 0 w ((e.twigSrc d).line e) (64 * e.group (e.twigSrc d).co + (c / e.block * e.block + r)) i 0 *
    planeAt w (e.plane (e.i.ff 12 1)) (e.block * e.block * (c / e.block) + e.block * r + c % e.block))).sum

/-- What channel `q` of DIAG_P adds for pixel `i`. -/
def diagTapSum (d : Dev) (e : Env) (w : Twig) (i q : Nat) : Int :=
  ((List.range (w.geo.get 0 (e.plane (e.i.ff 12 1)) / 16)).map (fun t =>
    twigAct d e 0 0 w ((e.twigSrc d).line e) (64 / e.block * e.group (e.twigSrc d).co + q) i (w.geo.get 0 (e.plane (e.i.ff 12 1)) % 16 * t : Nat) *
    planeAt w (e.plane (e.i.ff 12 1)) (w.geo.get 0 (e.plane (e.i.ff 12 1)) / 16 * q + t))).sum

def diagGroupSums (e : Env) (d : Dev) (nt p : Nat) (w : Twig) (j : Nat) : List (Nat × Int) :=
  (e.tilePx nt p j).flatMap (fun px => (List.range 64).map (fun c => (c * 64 + px, diagGroupSum d e w (j * p + px) c)))

def diagTapSums (e : Env) (d : Dev) (nt p : Nat) (w : Twig) (j : Nat) : List (Nat × Int) :=
  (List.range (64 / e.block)).flatMap (fun q => (e.tilePx nt p j).map (fun px =>
    ((e.group (e.twigSrc d).co % e.block * (64 / e.block) + q) * 64 + px, diagTapSum d e w (j * p + px) q)))

def tdiagSums (e : Env) (d : Dev) (nt p : Nat) (w : Twig) (j : Nat) : List (Nat × Int) :=
  if e.i.flag 13 then diagGroupSums e d nt p w j else diagTapSums e d nt p w j

def tdiagBusy (e : Env) : Nat :=
  if e.i.flag 13 then e.stream (bits e.i.w1 12 4 + 1) (bits e.i.w1 16 7) else cdiv (e.stream (bits e.i.w1 12 4 + 1) (bits e.i.w1 16 7)) e.block

theorem block_channel (e : Env) {c r : Nat} (hc : c < 64) (hr : r < e.block) : c / e.block * e.block + r < 64 := by
  rcases block_cases e with h | h | h | h <;> rw [h] at hr ⊢ <;> omega

theorem tdiagRun_eq (e : Env) (d : Dev) : tdiagRun e d = reduce e (e.twigSrc d) (if e.i.flag 13 then 8 else 7) (bits e.i.w1 12 4 + 1) (bits e.i.w1 16 7)
    (bits e.i.w1 8 4) 0 (e.i.ff 12 1) (tdiagBusy e) [(e.twigSrc d).line e] (tdiagSums e d (bits e.i.w1 12 4 + 1) (bits e.i.w1 16 7)) d := by
  unfold tdiagRun
  dsimp only
  refine congrArg (fun f => reduce e (e.twigSrc d) (if e.i.flag 13 then 8 else 7) _ _ _ 0 _ (tdiagBusy e) [(e.twigSrc d).line e] f d) ?_
  funext w j
  unfold tdiagSums
  split
  · unfold diagGroupSums diagGroupSum
    refine congrArg (fun f => List.flatMap f _) ?_
    funext px
    refine List.map_congr_left fun c hc => congrArg (fun l : List Int => (c * 64 + px, l.sum)) (List.map_congr_left fun r hr => ?_)
    have hlt := block_channel e (List.mem_range.1 hc) (List.mem_range.1 hr)
    rw [List.map_map]
    exact congrArg (· * _) (getD_map_range hlt _ _)
  · rfl

theorem tdiagSums_weights (e : Env) (d : Dev) (nt p : Nat) : ReadsWeights (tdiagSums e d nt p) := by
  intro w w' h j
  unfold tdiagSums diagGroupSums diagTapSums diagGroupSum diagTapSum
  simp only [twigAct_weights h, h.planeAt, h.geo]

theorem tdiag_step (e : Env) (d : Dev) {nt p : Nat} (hp : p ≤ 64) (w : Twig) (j : Nat) : StepOf (tdiagSums e d nt p w j) := by
  unfold tdiagSums
  split
  · exact stepOf_columns (fun _ => tilePx_lt) hp _
  · refine stepOf_grid (ys := fun _ => e.tilePx nt p j) (key := fun q px => (e.group (e.twigSrc d).co % e.block * (64 / e.block) + q) * 64 + px)
      (fun q hq px hx => ?_) fun q hq px hx q' hq' px' hx' h => ?_
    · have hpx := tilePx_lt hx
      have hqlt := List.mem_range.1 hq
      have hg : e.group (e.twigSrc d).co % e.block < e.block := Nat.mod_lt _ (by rcases block_cases e with h | h | h | h <;> omega)
      rcases block_cases e with h | h | h | h <;> rw [h] at hqlt hg ⊢ <;> omega
    · have hpx := tilePx_lt hx
      have hpx' := tilePx_lt hx'
      omega

/-! ## TWINO (R158 to R160) -/

/-- Blocks of tile `j`. -/
def Env.blocks (e : Env) (nt p j : Nat) : Nat := cdiv (min p (e.stream nt p - j * p)) 2

/-- The Twig with the transform buffer of tile `j` formed, when the instruction forms it. -/
def winoForm (e : Env) (d : Dev) (nt p : Nat) (w : Twig) (j : Nat) : Twig :=
  if e.i.flag 13 then winoTransform d e (e.twigSrc d) (bits e.i.w1 0 4) j p (e.blocks nt p j) w else w

def twinoSums (e : Env) (d : Dev) (nt p : Nat) (w : Twig) (j : Nat) : List (Nat × Int) :=
  (List.range (e.blocks nt p j)).flatMap (fun q => (List.range 64).map (fun c => (bits e.i.w1 12 4 * 1024 + c * 16 + q,
    ((List.range 64).map (fun k => (winoForm e d nt p w j).wbuf.get 0 (j * 16384 + (bits e.i.w1 12 4 * 64 + k) * 16 + q) *
      planeAt (winoForm e d nt p w j) (e.plane (e.i.ff 12 1)) (64 * k + c))).sum)))

/-- Lines that the transform reads. -/
def winoLines (e : Env) (d : Dev) : List Int :=
  if e.i.flag 13 then (List.range 4).map (fun (u : Nat) => (e.twigSrc d).line e + (u : Int)) else []

/-- The step of TWINO's position. -/
def twinoReduce (e : Env) (d : Dev) : Dev × Bool :=
  reduce e (e.twigSrc d) 6 (bits e.i.w1 10 2 + 1) (bits e.i.w1 16 6) (bits e.i.w1 8 2) 1 (e.i.ff 12 1)
    (((List.range (bits e.i.w1 10 2 + 1)).map (e.blocks (bits e.i.w1 10 2 + 1) (bits e.i.w1 16 6))).sum) (winoLines e d)
    (twinoSums e d (bits e.i.w1 10 2 + 1) (bits e.i.w1 16 6)) d

theorem twinoRun_of {e : Env} {d x : Dev} (h : twinoReduce e d = (x, true)) : twinoRun e d =
    (onTwig e.n (e.onTwig d) (fun w => (e.tileNos (bits e.i.w1 10 2 + 1) (bits e.i.w1 16 6)).foldl
      (winoForm e d (bits e.i.w1 10 2 + 1) (bits e.i.w1 16 6)) w) x, true) := by
  have heq : twinoRun e d = if (twinoReduce e d).2 then
      (onTwig e.n (e.onTwig d) (fun w => (e.tileNos (bits e.i.w1 10 2 + 1) (bits e.i.w1 16 6)).foldl
        (winoForm e d (bits e.i.w1 10 2 + 1) (bits e.i.w1 16 6)) w) (twinoReduce e d).1, true) else ((twinoReduce e d).1, false) := rfl
  rw [heq, h]
  rfl

theorem winoForm_keeps (e : Env) (d : Dev) (nt p : Nat) (w : Twig) (j : Nat) :
    (winoForm e d nt p w j).acc = w.acc ∧ (winoForm e d nt p w j).slotP = w.slotP ∧ (winoForm e d nt p w j).plane = w.plane := by
  unfold winoForm
  split <;> exact ⟨rfl, rfl, rfl⟩

/-- Forming buffers leaves the accumulators. -/
theorem winoForms_keep (e : Env) (d : Dev) (nt p : Nat) (js : List Nat) (w : Twig) :
    (js.foldl (winoForm e d nt p) w).acc = w.acc ∧ (js.foldl (winoForm e d nt p) w).slotP = w.slotP := by
  induction js generalizing w with
  | nil => exact ⟨rfl, rfl⟩
  | cons j js ih =>
    obtain ⟨hacc, hslot, -⟩ := winoForm_keeps e d nt p w j
    exact ⟨(ih _).1.trans hacc, (ih _).2.trans hslot⟩

theorem sandwich_congr (l : List (List Int)) {m m' : Nat → Nat → Int} (h : ∀ a b, a < 4 → b < 4 → m a b = m' a b) (i j : Nat) :
    sandwich l m i j = sandwich l m' i j := by
  unfold sandwich
  refine congrArg List.sum (List.map_congr_left fun a ha => congrArg List.sum (List.map_congr_left fun b hb => ?_))
  rw [h a b (List.mem_range.1 ha) (List.mem_range.1 hb)]

/-- The transform of block `q` of channel `k` at the instruction's position. -/
def winoInput (d : Dev) (e : Env) (w : Twig) (i k : Nat) : Int :=
  sandwich winoBT (fun a b => twigAct d e 0 0 w ((e.twigSrc d).line e + (a : Int)) (64 * e.group (e.twigSrc d).co + k) i b)
    (bits e.i.w1 12 4 / 4) (bits e.i.w1 12 4 % 4)

/-- The rows that the transform reads, channel by channel. -/
def winoRows (d : Dev) (e : Env) : List (List (Option (List Int))) :=
  (List.range 64).map (fun k => (List.range 4).map (fun (u : Nat) =>
    (e.twigSrc d).row d e ((e.twigSrc d).line e + (u : Int)) (64 * e.group (e.twigSrc d).co + k)))

theorem winoInput_eq {d : Dev} {e : Env} {w : Twig} {i k : Nat} (hk : k < 64) :
    sandwich winoBT (fun a b => actAt d e w (e.twigSrc d) (bits e.i.w1 0 4) 0 0 (((winoRows d e).getD k []).getD a none) i b)
      (bits e.i.w1 12 4 / 4) (bits e.i.w1 12 4 % 4) = winoInput d e w i k := by
  refine sandwich_congr winoBT (fun a b ha _ => ?_) _ _
  rw [winoRows, getD_map_range hk, getD_map_range ha]
  rfl

theorem holds_of_mem {α : Type} {dflt : α} {m : Map α} {k : Nat} {v : α} (hm : (k, v) ∈ m) (hall : ∀ x ∈ m, x.1 = k → x.2 = v) : Map.Holds dflt m k v := by
  refine ⟨?_, hall⟩
  induction m with
  | nil => cases hm
  | cons x m ih =>
    rw [Map.get]
    split
    · next hk => exact hall x List.mem_cons_self hk
    · next hk =>
      rcases List.mem_cons.1 hm with rfl | hm
      · exact absurd rfl hk
      · exact ih hm fun y hy => hall y (List.mem_cons_of_mem _ hy)

/-- The buffer as TWINO reads it. -/
theorem winoForm_get {e : Env} {d : Dev} {nt p j k q : Nat} (w : Twig) (hf : e.i.flag 13 = true) (hb : e.blocks nt p j ≤ 16) (hq : q < e.blocks nt p j)
    (hk : k < 64) : (winoForm e d nt p w j).wbuf.get 0 (j * 16384 + (bits e.i.w1 12 4 * 64 + k) * 16 + q) = winoInput d e w (j * p + 2 * q) k := by
  have hpos : bits e.i.w1 12 4 < 16 := Nat.mod_lt _ (by decide)
  rw [winoForm, if_pos hf]
  unfold winoTransform
  refine (Map.get_setRange_inside _ (by omega) (holds_of_mem (v := winoInput d e w (j * p + 2 * q) k) ?_ fun x hx hxk => ?_))
  · refine List.mem_flatMap.2 ⟨bits e.i.w1 12 4, List.mem_range.2 hpos, List.mem_flatMap.2 ⟨k, List.mem_range.2 hk, List.mem_map.2 ⟨q, List.mem_range.2 hq, ?_⟩⟩⟩
    exact Prod.ext rfl (winoInput_eq hk)
  · obtain ⟨pos, hp', hx⟩ := List.mem_flatMap.1 hx
    obtain ⟨k', hk', hx⟩ := List.mem_flatMap.1 hx
    obtain ⟨q', hq', rfl⟩ := List.mem_map.1 hx
    have hq'' := List.mem_range.1 hq'
    have hk'' := List.mem_range.1 hk'
    dsimp only at hxk
    have hp0 : pos = bits e.i.w1 12 4 := by omega
    have hk0 : k' = k := by omega
    have hq0 : q' = q := by omega
    subst hk0 hq0
    rw [hp0]
    exact winoInput_eq hk

theorem twinoSums_weights (e : Env) (d : Dev) (nt p : Nat) : ReadsWeights (twinoSums e d nt p) := by
  intro w w' h j
  have hform : (winoForm e d nt p w' j).wbuf = (winoForm e d nt p w j).wbuf := by
    unfold winoForm
    split
    · unfold winoTransform
      simp only [h.wbuf, h.actAt]
    · exact h.wbuf
  have hplane : (winoForm e d nt p w' j).plane = (winoForm e d nt p w j).plane := by
    rw [(winoForm_keeps e d nt p w' j).2.2, (winoForm_keeps e d nt p w j).2.2, h.plane]
  unfold twinoSums planeAt
  simp only [hform, hplane]

theorem blocks_le {e : Env} {nt p j : Nat} (hp : p ≤ 32) : e.blocks nt p j ≤ 16 := by
  unfold Env.blocks cdiv
  omega

theorem twino_step (e : Env) (d : Dev) {nt p : Nat} (hp : p ≤ 32) (w : Twig) (j : Nat) : StepOf (twinoSums e d nt p w j) := by
  have hb := blocks_le (e := e) (nt := nt) (j := j) hp
  have hpos : bits e.i.w1 12 4 < 16 := Nat.mod_lt _ (by decide)
  refine stepOf_grid (ys := fun _ => List.range 64) (key := fun q c => bits e.i.w1 12 4 * 1024 + c * 16 + q) (fun q hq c hc => ?_)
    fun q hq c hc q' hq' c' hc' h => ?_
  · have := List.mem_range.1 hq
    have := List.mem_range.1 hc
    omega
  · have := List.mem_range.1 hq
    have := List.mem_range.1 hq'
    omega

end Sys2Proof.Machine
end

section
/-! PROOF. The obligation on reductions (R146, R151, R154, R158 to R163, R209, R212, R221, R223). -/

namespace Sys2Proof.Machine

/-! ## Steps that run, wait and hold -/

section
variable {e : Env} {d : Dev}

theorem took_advance {a nt p tag : Nat} {sums : Nat → List (Nat × Int)} {x : Dev} (h : TilesTook e a nt p tag sums d x) :
    TilesTook e a nt p tag sums d (advance e x) := h.of_twig fun _ => twig_advance ..

/-- An instruction of no pixels is issued, and works on no Twig. -/
theorem reduction_none {c : Instr} {n : Fin 16} {op : Nat} {s : State} {run : Env → Dev → Dev × Bool} {x : Dev} (h : StandsAt s n op e)
    (he : exec c s = onDev s (tileRead op run s.nv n.val [])) (hrun : run e s.dev = (x, true)) (hstill : StandsStill e x)
    (hx : ∀ m t, twig x m t = twig s.dev m t) : Does c s (touches c) (fun d => Stepped e d ∧ ∀ m t, twig d m t = twig s.dev m t) :=
  does_tileRead h he hrun ⟨hstill.stepped, fun m t => (twig_advance ..).trans (hx m t)⟩

theorem onTwig_unchanged (n t : Nat) (d : Dev) (m u : Nat) : twig (onTwig n t (fun w => w) d) m u = twig d m u := by
  have hset (d : Dev) (v : Nat) : twig (setTwig d n v (twig d n v)) m u = twig d m u := by
    by_cases hm : m = n
    · subst hm
      rw [twig_setTwig]
      split
      · next h => rw [h]
      · rfl
    · exact twig_setBranch_other _ hm u
  unfold onTwig
  dsimp only
  split
  · exact (hset _ 4).trans (hset d t)
  · exact hset d t

theorem twinoRun_none (h : e.stream (bits e.i.w1 10 2 + 1) (bits e.i.w1 16 6) = 0) :
    twinoRun e d = (onTwig e.n (e.onTwig d) (fun w => w) d, true) := by
  have hnone : e.tileNos (bits e.i.w1 10 2 + 1) (bits e.i.w1 16 6) = [] := by
    refine List.filter_eq_nil_iff.2 fun j _ => ?_
    rw [h]
    simp
  rw [twinoRun_of (show twinoReduce e d = (d, true) from reduce_none h), hnone]
  rfl

theorem stream_of_end (h : e.c.wo ≤ e.x0) (nt p : Nat) : e.stream nt p = 0 := by
  unfold Env.stream
  omega

/-- A tile that does not fit is counted, and the instruction waits. -/
theorem held_shows {t k : Nat} (hcur : curCtx d e.n = some e.c) (hs : e.c.short = false) :
    curCtx (recount d (holdTile e t k d)) e.n = some { e.c with short := true } ∧ (∀ m u, twig (recount d (holdTile e t k d)) m u = twig d m u) ∧
    (reg (recount d (holdTile e t k d)) (aTwigShort e.n t)).toNat = min ((reg d (aTwigShort e.n t)).toNat + k) 0xFFFFFFFF := by
  have hapart : aUnwritten ∉ [aTwigShort e.n t, aEvtLost] := by
    simp only [aUnwritten, aTwigShort, aEvtLost, brBase, List.mem_cons, List.not_mem_nil, or_false, not_or]
    omega
  have hlost : aTwigShort e.n t ∉ [aEvtLost] := by
    simp only [aTwigShort, aEvtLost, brBase, List.mem_singleton]
    omega
  rw [recount, if_pos (holdTile_regsBut e t k d _ hapart)]
  refine ⟨?_, holdTile_twig e t k d, ?_⟩
  · rw [curCtx_of_br (holdTile_br hs t k d), curCtx_mapCur, hcur]
    rfl
  · rw [holdTile_eq hs, (heldMarked_shows e t (heldCounted e t k d)).2 _ hlost]
    exact reg_bumped_after (RegsBut.of_only (mapCur_within d e.n Ctx.counted).only (by decide) []) (by simp)

theorem waits_self (hcur : curCtx d e.n = some e.c) : Waits e d (recount d d) := by
  rw [recount_self]
  exact ⟨hcur, fun _ => rfl, fun _ _ => rfl⟩

end

/-! ## The three instructions -/

section
variable {e : Env} {s : State} {n : Fin 16}

theorem tmac_reduces {nt p a : Nat} (h : StandsAt s n 2 e) (ha : a = bits e.i.w1 8 4) (hnt : nt = bits e.i.w1 12 4 + 1) (hp : p = bits e.i.w1 16 7)
    (hp0 : 0 < p) (hp64 : p ≤ 64) (hx : e.x0 < e.c.wo)
    (hcan : CanReduce s.dev e (e.twigSrc s.dev) [(e.twigSrc s.dev).line e] ((e.tiles a nt p).map (·.2)) 1) :
    Does (.tmac n []) s (touches (.tmac n [])) (fun d => Stepped e d ∧
      TilesTook e a nt p (2 * p) (tmacSums e s.dev nt p (twig s.dev e.n (e.onTwig s.dev))) s.dev d) := by
  subst ha hnt hp
  have hcur := standsAt_ctx h
  have htwig := envOf_twig h.2.1
  refine does_tileRead h rfl ((tmacRun_eq ..).trans (reduce_of_can (Nat.succ_pos _) hp0 hx hcan)) ⟨(reduce_still hcur).stepped, took_advance ?_⟩
  exact reduce_took hp0 hcan.2.1 (tmacSums_weights _ _ _ _) htwig (fun j _ => stepOf_columns (fun _ => tilePx_lt) hp64 _) _

theorem tdiag_reduces {nt p a : Nat} (h : StandsAt s n 4 e) (ha : a = bits e.i.w1 8 4) (hnt : nt = bits e.i.w1 12 4 + 1) (hp : p = bits e.i.w1 16 7)
    (hp0 : 0 < p) (hp64 : p ≤ 64) (hx : e.x0 < e.c.wo)
    (hcan : CanReduce s.dev e (e.twigSrc s.dev) [(e.twigSrc s.dev).line e] ((e.tiles a nt p).map (·.2)) 1) :
    Does (.tdiag n []) s (touches (.tdiag n [])) (fun d => Stepped e d ∧
      TilesTook e a nt p (2 * p) (tdiagSums e s.dev nt p (twig s.dev e.n (e.onTwig s.dev))) s.dev d) := by
  subst ha hnt hp
  have hcur := standsAt_ctx h
  have htwig := envOf_twig h.2.1
  refine does_tileRead h rfl ((tdiagRun_eq ..).trans (reduce_of_can (Nat.succ_pos _) hp0 hx hcan)) ⟨(reduce_still hcur).stepped, took_advance ?_⟩
  exact reduce_took hp0 hcan.2.1 (tdiagSums_weights _ _ _ _) htwig (fun j _ => tdiag_step e s.dev hp64 _ j) _

theorem twino_reduces {nt p a : Nat} (h : StandsAt s n 3 e) (ha : a = bits e.i.w1 8 2) (hnt : nt = bits e.i.w1 10 2 + 1) (hp : p = bits e.i.w1 16 6)
    (hp0 : 0 < p) (hp32 : p ≤ 32) (hx : e.x0 < e.c.wo)
    (hcan : CanReduce s.dev e (e.twigSrc s.dev) (winoLines e s.dev) ((e.tiles a nt p).map (·.2)) 4) :
    Does (.twino n []) s (touches (.twino n [])) (fun d => Stepped e d ∧
      TilesTook e a nt p (2 * p + 1) (twinoSums e s.dev nt p (twig s.dev e.n (e.onTwig s.dev))) s.dev d) := by
  subst ha hnt hp
  have hcur := standsAt_ctx h
  have htwig := envOf_twig h.2.1
  have hrun := twinoRun_of (reduce_of_can (mode := 6) (wino := 1) (plane := e.i.ff 12 1)
    (busy := ((List.range (bits e.i.w1 10 2 + 1)).map (e.blocks (bits e.i.w1 10 2 + 1) (bits e.i.w1 16 6))).sum)
    (sums := twinoSums e s.dev (bits e.i.w1 10 2 + 1) (bits e.i.w1 16 6)) (Nat.succ_pos _) hp0 hx hcan)
  refine does_tileRead h rfl hrun ⟨((reduce_still hcur).of_cur ((onTwig_works ..).curCtx _)).stepped, took_advance ?_⟩
  refine tilesTook_of hp0 hcan.2.1 (fun j _ => twino_step e s.dev hp32 _ j) fun u hu => ?_
  rw [twig_onTwig _ (fun h4 => (reduce_audits _).trans (onTwig_audited htwig h4)) (by rw [Reaches, reduce_audits]; exact hu),
    reduce_twig (twinoSums_weights _ _ _ _) htwig hu]
  exact winoForms_keep ..

end

theorem mem_tmacSums {e : Env} {d : Dev} {nt p j px c : Nat} (w : Twig) (hpx : px ∈ e.tilePx nt p j) (hc : c < 64) :
    (c * 64 + px, tmacSum d e w (j * p + px) c) ∈ tmacSums e d nt p w j :=
  mem_grid (ys := fun _ => List.range 64) (key := fun px c => c * 64 + px) (val := fun px c => tmacSum d e w (j * p + px) c) hpx (List.mem_range.2 hc)

theorem mem_tdiagSums_group {e : Env} {d : Dev} {nt p j px c : Nat} (w : Twig) (hf : e.i.flag 13 = true) (hpx : px ∈ e.tilePx nt p j) (hc : c < 64) :
    (c * 64 + px, diagGroupSum d e w (j * p + px) c) ∈ tdiagSums e d nt p w j := by
  rw [tdiagSums, if_pos hf]
  exact mem_grid (ys := fun _ => List.range 64) (key := fun px c => c * 64 + px) (val := fun px c => diagGroupSum d e w (j * p + px) c) hpx
    (List.mem_range.2 hc)

theorem mem_tdiagSums_tap {e : Env} {d : Dev} {nt p j px q : Nat} (w : Twig) (hf : e.i.flag 13 = false) (hpx : px ∈ e.tilePx nt p j)
    (hq : q < 64 / e.block) : ((e.group (e.twigSrc d).co % e.block * (64 / e.block) + q) * 64 + px, diagTapSum d e w (j * p + px) q) ∈
      tdiagSums e d nt p w j := by
  rw [tdiagSums, if_neg (by simp [hf])]
  exact mem_grid (ys := fun _ => e.tilePx nt p j) (key := fun q px => (e.group (e.twigSrc d).co % e.block * (64 / e.block) + q) * 64 + px)
    (val := fun q px => diagTapSum d e w (j * p + px) q) (List.mem_range.2 hq) hpx

/-- What column `c` of TWINO adds for block `q` of tile `j`. -/
def winoSum (d : Dev) (e : Env) (w : Twig) (j p q c : Nat) : Int :=
  ((List.range 64).map (fun k => (if e.i.flag 13 then winoInput d e w (j * p + 2 * q) k
    else w.wbuf.get 0 (j * 16384 + (bits e.i.w1 12 4 * 64 + k) * 16 + q)) * planeAt w (e.plane (e.i.ff 12 1)) (64 * k + c))).sum

theorem mem_twinoSums {e : Env} {d : Dev} {nt p j q c : Nat} (w : Twig) (hp : p ≤ 32) (hq : q < e.blocks nt p j) (hc : c < 64) :
    (bits e.i.w1 12 4 * 1024 + c * 16 + q, winoSum d e w j p q c) ∈ twinoSums e d nt p w j := by
  have hsum : winoSum d e w j p q c = ((List.range 64).map (fun k => (winoForm e d nt p w j).wbuf.get 0 (j * 16384 + (bits e.i.w1 12 4 * 64 + k) * 16 + q) *
      planeAt (winoForm e d nt p w j) (e.plane (e.i.ff 12 1)) (64 * k + c))).sum := by
    refine congrArg List.sum (List.map_congr_left fun k hk => ?_)
    rw [planeAt, planeAt, (winoForm_keeps e d nt p w j).2.2]
    refine congrArg (· * _) ?_
    split
    · next hf => exact (winoForm_get w hf (blocks_le hp) hq (List.mem_range.1 hk)).symm
    · next hf => rw [winoForm, if_neg hf]
  rw [hsum]
  exact mem_grid (ys := fun _ => List.range 64) (key := fun q c => bits e.i.w1 12 4 * 1024 + c * 16 + q)
    (val := fun q c => ((List.range 64).map (fun k => (winoForm e d nt p w j).wbuf.get 0 (j * 16384 + (bits e.i.w1 12 4 * 64 + k) * 16 + q) *
      planeAt (winoForm e d nt p w j) (e.plane (e.i.ff 12 1)) (64 * k + c))).sum) (List.mem_range.2 hq) (List.mem_range.2 hc)

theorem mem_tiles {e : Env} {a nt p j slot : Nat} (h : (j, slot) ∈ e.tiles a nt p) : j < nt := by
  rw [Env.tiles, List.mem_map] at h
  obtain ⟨k, hk, heq⟩ := h
  obtain ⟨rfl, -⟩ := Prod.mk.inj heq
  exact List.mem_range.1 (List.mem_filter.1 hk).1

theorem lt_blocks {e : Env} {nt p j q : Nat} (hj : j < nt) (h : 2 * q < min p (e.c.wo - e.x0 - j * p)) : q < e.blocks nt p j := by
  have : (j + 1) * p ≤ nt * p := Nat.mul_le_mul_right p hj
  rw [Nat.add_mul, Nat.one_mul] at this
  unfold Env.blocks Env.stream cdiv
  omega

/-! ## The obligation -/

/-- Settles O52. -/
theorem twigsReduceTheirTiles : Obligations.TwigsReduceTheirTiles := by
  unfold Obligations.TwigsReduceTheirTiles
  refine ⟨fun c n op s h ha => tileCommand_sequenced h ha, ?_, ?_, ?_, ?_⟩
  · intro n e s hstands hend c hc hissue
    obtain ⟨k, halive, henv, -, hskip⟩ : ∃ k, StandsAt s n k e := by
      rcases hstands with h | h | h
      exacts [⟨2, h⟩, ⟨3, h⟩, ⟨4, h⟩]
    have hstill := standsStill_of_cur (standsAt_ctx (op := e.i.op) ⟨halive, henv, rfl, hskip⟩)
    rcases hc with rfl | rfl | rfl
    · have hop : e.i.op = 2 := (Prod.mk.inj (Option.some.inj hissue)).2.symm
      exact reduction_none ⟨halive, henv, hop, hskip⟩ rfl ((tmacRun_eq ..).trans (reduce_none (stream_of_end hend _ _))) hstill fun _ _ => rfl
    · have hop : e.i.op = 3 := (Prod.mk.inj (Option.some.inj hissue)).2.symm
      exact reduction_none ⟨halive, henv, hop, hskip⟩ rfl (twinoRun_none (stream_of_end hend _ _)) (hstill.of_cur ((onTwig_works ..).curCtx _))
        (onTwig_unchanged _ _ _)
    · have hop : e.i.op = 4 := (Prod.mk.inj (Option.some.inj hissue)).2.symm
      exact reduction_none ⟨halive, henv, hop, hskip⟩ rfl ((tdiagRun_eq ..).trans (reduce_none (stream_of_end hend _ _))) hstill fun _ _ => rfl
  · intro n e x a nt p s h hx ha hnt hp hp0 hp64 hx0
    subst hx
    refine ⟨fun hcan => ?_, fun hfree hdr hfirst hshort hdrains hs => ?_, fun hwait => ?_⟩
    · obtain ⟨t, hnext, honly, hstep, htook⟩ := tmac_reduces h ha hnt hp hp0 hp64 hx0 hcan
      refine ⟨t, hnext, honly, hstep, fun j slot hj => ?_⟩
      obtain ⟨hslot, hacc⟩ := htook j slot hj
      exact ⟨hslot, fun px c hpx hlt hc => hacc _ (mem_tmacSums _ (mem_tilePx (mem_tiles hj) hpx hlt) hc)⟩
    · subst ha hnt hp
      rw [tiles_slots hp0] at hdr hshort ⊢
      have hheld : heldTiles e (bits e.i.w1 12 4 + 1) (bits e.i.w1 16 7) (bits e.i.w1 8 4) 0 s.dev =
          tilesShort s.dev e (e.onTwig s.dev) ((e.tileNos (bits e.i.w1 12 4 + 1) (bits e.i.w1 16 7)).map (fun j => e.slot (bits e.i.w1 8 4 + j))) 1 := if_pos hfirst
      rw [← hheld] at hshort ⊢
      refine does_tileRead_waits h rfl ((tmacRun_eq ..).trans (reduce_holds (stream_ne_zero (Nat.succ_pos _) hp0 hx0) ?_ hdr hshort hdrains))
        (held_shows (standsAt_ctx h) hs)
      exact fun y hy => (List.mem_singleton.1 hy) ▸ hfree
    · subst ha hnt hp
      have hn := stream_ne_zero (e := e) (Nat.succ_pos (bits e.i.w1 12 4)) hp0 hx0
      refine does_tileRead_waits h rfl (x := s.dev) ((tmacRun_eq ..).trans ?_) (waits_self (standsAt_ctx h))
      rcases hwait with ⟨htrunk, hbusy⟩ | ⟨t, ht, hdr⟩
      · exact reduce_busy hn (List.mem_singleton.2 rfl) htrunk hbusy
      · rw [tiles_slots hp0] at ht
        exact reduce_drains hn ht hdr
  · intro n e x a nt p bw s h hx ha hnt hp hbw hp0 hp64 hx0 hcan
    subst hx hbw
    obtain ⟨t, hnext, honly, hstep, htook⟩ := tdiag_reduces h ha hnt hp hp0 hp64 hx0 hcan
    refine ⟨t, hnext, honly, hstep, fun j slot hj => ?_⟩
    obtain ⟨hslot, hacc⟩ := htook j slot hj
    refine ⟨hslot, fun hf px c hpx hlt hc => hacc _ (mem_tdiagSums_group _ hf (mem_tilePx (mem_tiles hj) hpx hlt) hc), ?_⟩
    intro hf px q geo hpx hlt hq hgeo
    subst hgeo
    exact hacc _ (mem_tdiagSums_tap _ hf (mem_tilePx (mem_tiles hj) hpx hlt) hq)
  · intro n e x a nt p pos s h hx ha hnt hp hpos hp0 hp32 hx0 hcan
    subst hx hpos
    obtain ⟨t, hnext, honly, hstep, htook⟩ := twino_reduces h ha hnt hp hp0 hp32 hx0 hcan
    refine ⟨t, hnext, honly, hstep, fun j slot hj => ?_⟩
    obtain ⟨hslot, hacc⟩ := htook j slot hj
    exact ⟨hslot, fun q c hq hc => hacc _ (mem_twinoSums _ hp32 (lt_blocks (mem_tiles hj) hq) hc)⟩

end Sys2Proof.Machine
end
